-- ==== Sys2Proof/Word.lean ====
section
/-! DEFINITION. The words of the ABL-6480: bytes, 32-bit register words and 64-bit device words (R8, R9). -/

namespace Sys2Proof

/-- One byte. -/
abbrev Byte := BitVec 8

/-- One 32-bit register word. -/
abbrev Word32 := BitVec 32

/-- One 64-bit word: a bank word's data, a timebase value, a bundle. -/
abbrev Word64 := BitVec 64

end Sys2Proof
end

