-- ==== Sys2Proof/Syntax.lean ====
section
/-! DEFINITION. The commands of the ABL-6480: one constructor per row of spec/opcode_table.json, with its operands. -/

namespace Sys2Proof

/-- The header of a host command as the command processor holds it: the ring and submission-queue index it was fetched
from, and the TAG, FENCE and NOIRQ of its descriptor header (Table HST-4). -/
structure CmdRef where
  ring : BitVec 8
  index : BitVec 16
  tag : BitVec 32
  fence : Bool
  noirq : Bool
  deriving DecidableEq, Repr

/-- One of the two PCI Express ports. -/
inductive Port where
  | p0 | p1
  deriving DecidableEq, Repr

/-- The fields of a bundle beside its opcode (Table ISA-1). -/
structure Bundle where
  opf : BitVec 22
  xmv : BitVec 17
  ymv : BitVec 17
  deriving DecidableEq, Repr

/-- A request that takes the other port of its bank in the cycle of a MEMORY_ACCESS (R346). -/
structure MemPort where
  req : BitVec 16
  write : Bool
  rotate : Bool
  poison : Bool
  addr : BitVec 36
  len : BitVec 12
  data : List Byte
  deriving DecidableEq, Repr

/-- Errors that an access meets: bits of its bank word upset since the last access (R349), and what the stack reports of its
HBM read: 0 none, 1 corrected, 2 uncorrectable (R359). -/
structure Upset where
  bank : BitVec 72 := 0
  hbm : Fin 3 := 0
  deriving DecidableEq, Repr

/-- What the world shows the fabric during one step: the receivers of the pins at their samplers, the receiver samples of pins
that are not all equal to the level sampled during the step (pin, then the sample at tap k in bit k), new drifts of die
crossings (crossing, steps late, or early if negative), and requests that faulty reflex tiles present at deferred-only
interfaces (tile, interface of Table FRM-15). -/
structure StepIn where
  pins : BitVec 512
  windows : List (BitVec 9 × BitVec 160)
  drift : List (BitVec 2 × Int)
  faults : List (BitVec 6 × Fin 4)
  deriving DecidableEq, Repr

/-- The commands of the block, each with the rule that gives its effect: those with operands in the order of the table,
then those without. -/
inductive Instr where
  /-- POWER_ON_RESET_RELEASE (R430). -/
  | powerOnResetRelease (xstart : BitVec 3)
  /-- WARM_RESET (R429). -/
  | warmReset (register : Bool)
  /-- BOOT_COMPLETE (R457). -/
  | bootComplete (flash : Option Bool) (readFail : Bool)
  /-- XREF_WINDOW_END (R414). -/
  | xrefWindowEnd (count : BitVec 11)
  /-- XREF_NO_EDGE_DETECTION (R419). -/
  | xrefNoEdgeDetection (count : BitVec 11)
  /-- AON_PERIOD_END (R422). -/
  | aonPeriodEnd (count : BitVec 11) (p0 p1 lref : Bool)
  /-- PLL_SETTLED (R411). -/
  | pllSettled (domain : BitVec 5)
  /-- POWER_WINDOW_END (R426). -/
  | powerWindowEnd (power temp : BitVec 16)
  /-- GATE_APPLIED (R424). -/
  | gateApplied (block : BitVec 8)
  /-- GATE_TIMEOUT (R424). -/
  | gateTimeout (block : BitVec 8)
  /-- TB_PULSE (R431). -/
  | tbPulse (input : BitVec 2)
  /-- CLK_NME_CLEAR (R423). -/
  | clkNmeClear (value : BitVec 32)
  /-- UNFREEZE (R408). -/
  | unfreeze (level : Bool) (value : BitVec 32)
  /-- PIN_SUPPLY_LOST (R147). -/
  | pinSupplyLost (bank : BitVec 4)
  /-- PIN_SUPPLY_OK (R147). -/
  | pinSupplyOk (bank : BitVec 4)
  /-- DCO_UNLOCK (R158). -/
  | dcoUnlock (output : BitVec 3)
  /-- DCO_LOCK_ACQUIRED (R158). -/
  | dcoLockAcquired (output : BitVec 3)
  /-- DCO_MODULATION_PERIOD_START (R158). -/
  | dcoModulationPeriodStart (output : BitVec 3)
  /-- FABRIC_STEP (R50). -/
  | fabricStep (inp : StepIn)
  /-- REGION_HALT_TAKES_EFFECT (R72). -/
  | regionHaltTakesEffect (region : BitVec 4)
  /-- DEFERRED_ITEM_ARRIVAL (R98). -/
  | deferredItemArrival (tile : BitVec 6) (collect : BitVec 13)
  /-- TIMER_TRIGGER (R82). -/
  | timerTrigger (region : BitVec 4)
  /-- UUTCLK_EDGE (R85). -/
  | uutclkEdge (clk : BitVec 5) (rising : Bool)
  /-- FRAME_DOORBELL (R106). -/
  | frameDoorbell (port : Port) (region : BitVec 4)
  /-- TLQ_LAUNCH (R95). -/
  | tlqLaunch (queue : BitVec 6)
  /-- HOST_NOP (R397). -/
  | hostNop (ref : CmdRef)
  /-- STAGE_WRITE (R401). -/
  | stageWrite (ref : CmdRef) (count : BitVec 8) (entries : List (BitVec 32 × BitVec 32))
  /-- STAGE_CLEAR (R401). -/
  | stageClear (ref : CmdRef)
  /-- CHECK (R402). -/
  | check (ref : CmdRef)
  /-- COMMIT (R403). -/
  | commit (ref : CmdRef) (when_ region : BitVec 8) (t : BitVec 64)
  /-- COMMIT_INSTANT (R404). -/
  | commitInstant (drains : BitVec 80)
  /-- CORE_HALT (R233). -/
  | coreHalt (core : BitVec 6)
  /-- ABORT (R398). -/
  | abort (ref : CmdRef) (ring index : BitVec 16)
  /-- DMA (R397). -/
  | dma (ref : CmdRef) (toHost : Bool) (host : BitVec 64) (far len : BitVec 32)
  /-- MEM_KILN (R357). -/
  | memKiln (ref : CmdRef) (banks : BitVec 64) (alg : BitVec 8) (preserve : Bool) (bg : BitVec 8) (repair : Bool)
  /-- KILN_COMPLETE (R355). -/
  | kilnComplete (found : List (BitVec 6 × List (BitVec 18) × BitVec 16))
  /-- LOAD_GRIST (R122). -/
  | loadGrist (ref : CmdRef) (src mode part stage : BitVec 8) (addr stageOfs len : BitVec 64)
  /-- GRIST_WRITE_COMPLETE (R123). -/
  | gristWriteComplete (snap : List (BitVec 13 × BitVec 16 × BitVec 7))
  /-- GRIST_CALIBRATE_COMPLETE (R127). -/
  | gristCalibrateComplete (failing : BitVec 4)
  /-- FAB_START (R105). -/
  | fabStart (ref : CmdRef) (mask : BitVec 16) (when_ : BitVec 8) (t : BitVec 64)
  /-- FAB_HALT (R105). -/
  | fabHalt (ref : CmdRef) (mask : BitVec 16) (when_ flush : BitVec 8)
  /-- FAB_RESUME (R105). -/
  | fabResume (ref : CmdRef) (mask : BitVec 16)
  /-- FAB_FRAME (R105). -/
  | fabFrame (ref : CmdRef) (region : BitVec 8)
  /-- FAB_RESTART (R105). -/
  | fabRestart (ref : CmdRef) (mask : BitVec 16) (keepDm : BitVec 8) (failing : BitVec 4)
  /-- FAB_VLIB_INV (R137). -/
  | fabVlibInv (value : BitVec 32)
  /-- FAB_REST_CLR (R99). -/
  | fabRestClr (value : BitVec 32)
  /-- ELA_LOAD (R192). -/
  | elaLoad (ref : CmdRef) (src part : BitVec 8) (addr : BitVec 64) (len : BitVec 32)
  /-- ELA_RELEASE (R176). -/
  | elaRelease (ref : CmdRef) (scope : BitVec 8)
  /-- ELA_GWE_ASSERT (R175). -/
  | elaGweAssert (scope : BitVec 8)
  /-- ELA_GSR_DEASSERT (R175). -/
  | elaGsrDeassert (scope : BitVec 8)
  /-- ELA_HOLD (R177). -/
  | elaHold (ref : CmdRef) (scope : BitVec 8)
  /-- ELA_CONTENTION (R167). -/
  | elaContention (line : BitVec 7)
  /-- ELA_LL_DIS (R167). -/
  | elaLlDis (row : BitVec 4) (value : BitVec 32)
  /-- SPARGE_FRAME_SLOT (R199). -/
  | spargeFrameSlot (upsets mapUpsets : List (BitVec 5 × BitVec 72)) (votes : BitVec 8)
  /-- CFG_FLASH (R194). -/
  | cfgFlash (ref : CmdRef) (op dev part : BitVec 8) (ofs : BitVec 32) (addr : BitVec 64) (len : BitVec 32)
  /-- CFG_KEY (R197). -/
  | cfgKey (ref : CmdRef) (slot : BitVec 8) (key : BitVec 256)
  /-- HUB_SIGNAL_INTERRUPT (R221). -/
  | hubSignalInterrupt (h : BitVec 4)
  /-- ELA_DOORBELL (R259). -/
  | elaDoorbell (d : BitVec 4)
  /-- INTERRUPT_ENTRY (R222). -/
  | interruptEntry (core : BitVec 6)
  /-- XFER_EXCEPTION_TAKEN (R209). -/
  | xferExceptionTaken (core : BitVec 6)
  /-- NOP (R245). -/
  | opNop (core : BitVec 6) (opc : BitVec 8) (b : Bundle)
  /-- ADD (R245). -/
  | opAdd (core : BitVec 6) (b : Bundle)
  /-- ADC (R245). -/
  | opAdc (core : BitVec 6) (b : Bundle)
  /-- SUB (R245). -/
  | opSub (core : BitVec 6) (b : Bundle)
  /-- SBC (R245). -/
  | opSbc (core : BitVec 6) (b : Bundle)
  /-- AND (R245). -/
  | opAnd (core : BitVec 6) (b : Bundle)
  /-- OR (R245). -/
  | opOr (core : BitVec 6) (b : Bundle)
  /-- XOR (R245). -/
  | opXor (core : BitVec 6) (b : Bundle)
  /-- ANDN (R245). -/
  | opAndn (core : BitVec 6) (b : Bundle)
  /-- MIN (R245). -/
  | opMin (core : BitVec 6) (b : Bundle)
  /-- MAX (R245). -/
  | opMax (core : BitVec 6) (b : Bundle)
  /-- ABS (R245). -/
  | opAbs (core : BitVec 6) (b : Bundle)
  /-- NEG (R245). -/
  | opNeg (core : BitVec 6) (b : Bundle)
  /-- CMP (R245). -/
  | opCmp (core : BitVec 6) (b : Bundle)
  /-- TST (R245). -/
  | opTst (core : BitVec 6) (b : Bundle)
  /-- LSL (R245). -/
  | opLsl (core : BitVec 6) (b : Bundle)
  /-- LSR (R245). -/
  | opLsr (core : BitVec 6) (b : Bundle)
  /-- ASR (R245). -/
  | opAsr (core : BitVec 6) (b : Bundle)
  /-- ROR (R245). -/
  | opRor (core : BitVec 6) (b : Bundle)
  /-- ADDS (R245). -/
  | opAdds (core : BitVec 6) (b : Bundle)
  /-- SUBS (R245). -/
  | opSubs (core : BitVec 6) (b : Bundle)
  /-- ADD2 (R245). -/
  | opAdd2 (core : BitVec 6) (b : Bundle)
  /-- SUB2 (R245). -/
  | opSub2 (core : BitVec 6) (b : Bundle)
  /-- ADDS2 (R245). -/
  | opAdds2 (core : BitVec 6) (b : Bundle)
  /-- SUBS2 (R245). -/
  | opSubs2 (core : BitVec 6) (b : Bundle)
  /-- ASR2 (R245). -/
  | opAsr2 (core : BitVec 6) (b : Bundle)
  /-- SWAPH (R245). -/
  | opSwaph (core : BitVec 6) (b : Bundle)
  /-- CONJ (R245). -/
  | opConj (core : BitVec 6) (b : Bundle)
  /-- MULL (R245). -/
  | opMull (core : BitVec 6) (b : Bundle)
  /-- BTST (R245). -/
  | opBtst (core : BitVec 6) (b : Bundle)
  /-- BSET (R245). -/
  | opBset (core : BitVec 6) (b : Bundle)
  /-- BCLR (R245). -/
  | opBclr (core : BitVec 6) (b : Bundle)
  /-- ADDI (R246). -/
  | opAddi (core : BitVec 6) (b : Bundle)
  /-- CMPI (R246). -/
  | opCmpi (core : BitVec 6) (b : Bundle)
  /-- ANDI (R246). -/
  | opAndi (core : BitVec 6) (b : Bundle)
  /-- ORI (R246). -/
  | opOri (core : BitVec 6) (b : Bundle)
  /-- XORI (R246). -/
  | opXori (core : BitVec 6) (b : Bundle)
  /-- TSTI (R246). -/
  | opTsti (core : BitVec 6) (b : Bundle)
  /-- LSLI (R246). -/
  | opLsli (core : BitVec 6) (b : Bundle)
  /-- LSRI (R246). -/
  | opLsri (core : BitVec 6) (b : Bundle)
  /-- ASRI (R246). -/
  | opAsri (core : BitVec 6) (b : Bundle)
  /-- RORI (R246). -/
  | opRori (core : BitVec 6) (b : Bundle)
  /-- BTSTI (R246). -/
  | opBtsti (core : BitVec 6) (b : Bundle)
  /-- BSETI (R246). -/
  | opBseti (core : BitVec 6) (b : Bundle)
  /-- BCLRI (R246). -/
  | opBclri (core : BitVec 6) (b : Bundle)
  /-- ASR2I (R246). -/
  | opAsr2i (core : BitVec 6) (b : Bundle)
  /-- MOVI (R246). -/
  | opMovi (core : BitVec 6) (b : Bundle)
  /-- MOV (R246). -/
  | opMov (core : BitVec 6) (b : Bundle)
  /-- SRBIT (R250). -/
  | opSrbit (core : BitVec 6) (b : Bundle)
  /-- LDX_A (R246). -/
  | opLdxA (core : BitVec 6) (b : Bundle)
  /-- STX_A (R246). -/
  | opStxA (core : BitVec 6) (b : Bundle)
  /-- LDY_A (R246). -/
  | opLdyA (core : BitVec 6) (b : Bundle)
  /-- STY_A (R246). -/
  | opStyA (core : BitVec 6) (b : Bundle)
  /-- QMAC (R211). -/
  | opQmac (core : BitVec 6) (b : Bundle)
  /-- CMAC (R211). -/
  | opCmac (core : BitVec 6) (b : Bundle)
  /-- WMAC (R211). -/
  | opWmac (core : BitVec 6) (b : Bundle)
  /-- DMAC (R211). -/
  | opDmac (core : BitVec 6) (b : Bundle)
  /-- ACLR (R247). -/
  | opAclr (core : BitVec 6) (b : Bundle)
  /-- AADD (R247). -/
  | opAadd (core : BitVec 6) (b : Bundle)
  /-- ASH (R247). -/
  | opAsh (core : BitVec 6) (b : Bundle)
  /-- ALD (R247). -/
  | opAld (core : BitVec 6) (b : Bundle)
  /-- NORM (R216). -/
  | opNorm (core : BitVec 6) (b : Bundle)
  /-- EXP (R215). -/
  | opExp (core : BitVec 6) (b : Bundle)
  /-- BEXP (R217). -/
  | opBexp (core : BitVec 6) (b : Bundle)
  /-- EXT16 (R214). -/
  | opExt16 (core : BitVec 6) (b : Bundle)
  /-- EXT32 (R214). -/
  | opExt32 (core : BitVec 6) (b : Bundle)
  /-- EXTP (R214). -/
  | opExtp (core : BitVec 6) (b : Bundle)
  /-- BR (R248). -/
  | opBr (core : BitVec 6) (b : Bundle)
  /-- BRZ (R248). -/
  | opBrz (core : BitVec 6) (b : Bundle)
  /-- BRNZ (R248). -/
  | opBrnz (core : BitVec 6) (b : Bundle)
  /-- CALL (R248). -/
  | opCall (core : BitVec 6) (b : Bundle)
  /-- JMP (R248). -/
  | opJmp (core : BitVec 6) (b : Bundle)
  /-- CALLR (R248). -/
  | opCallr (core : BitVec 6) (b : Bundle)
  /-- LOOPI (R220). -/
  | opLoopi (core : BitVec 6) (b : Bundle)
  /-- LOOPD (R220). -/
  | opLoopd (core : BitVec 6) (b : Bundle)
  /-- REPI (R219). -/
  | opRepi (core : BitVec 6) (b : Bundle)
  /-- REPD (R219). -/
  | opRepd (core : BitVec 6) (b : Bundle)
  /-- TRAP (R249). -/
  | opTrap (core : BitVec 6) (b : Bundle)
  /-- SCALL (R228). -/
  | opScall (core : BitVec 6) (b : Bundle)
  /-- SRET (R249). -/
  | opSret (core : BitVec 6) (b : Bundle)
  /-- RTI (R222). -/
  | opRti (core : BitVec 6) (b : Bundle)
  /-- WAIT (R232). -/
  | opWait (core : BitVec 6) (b : Bundle)
  /-- SWI (R249). -/
  | opSwi (core : BitVec 6) (b : Bundle)
  /-- GET (R229). -/
  | opGet (core : BitVec 6) (b : Bundle)
  /-- DONE (R230). -/
  | opDone (core : BitVec 6) (b : Bundle)
  /-- ALLOC (R231). -/
  | opAlloc (core : BitVec 6) (b : Bundle)
  /-- POOL_ALLOC_RESPONSE (R360). -/
  | poolAllocResponse (core : BitVec 6)
  /-- FREE (R232). -/
  | opFree (core : BitVec 6) (b : Bundle)
  /-- POOL_FREE (R361). -/
  | poolFree (core : BitVec 6)
  /-- XFER (R208). -/
  | opXfer (core : BitVec 6) (b : Bundle)
  /-- TRANSFER_COMPLETE (R208). -/
  | transferComplete (core : BitVec 6)
  /-- XWAIT (R249). -/
  | opXwait (core : BitVec 6) (b : Bundle)
  /-- SOFTWARE_INTERRUPT_DOORBELL (R386). -/
  | softwareInterruptDoorbell (core : BitVec 6)
  /-- PAGE_LOAD (R263). -/
  | pageLoad (core : BitVec 6)
  /-- SUBMISSION_WINDOW_WRITE (R260). -/
  | submissionWindowWrite (core : BitVec 6)
  /-- DSP_SUBMIT (R259). -/
  | dspSubmit (ref : CmdRef) (desc : List Byte)
  /-- DSP_CANCEL (R268). -/
  | dspCancel (ref : CmdRef) (flow seq : BitVec 16)
  /-- DSP_CANCEL_REQ (R268). -/
  | dspCancelReq (tag : BitVec 32)
  /-- DSP_CODE_DEFINE (R270). -/
  | dspCodeDefine (ref : CmdRef) (object : BitVec 16) (entry : List Byte)
  /-- DSP_PRELOAD (R270). -/
  | dspPreload (ref : CmdRef) (object : BitVec 16) (mask : BitVec 64)
  /-- DSP_FLOW_RESET (R270). -/
  | dspFlowReset (ref : CmdRef) (first : BitVec 16) (mask : BitVec 64)
  /-- DSP_CNT_CLR (R271). -/
  | dspCntClr (value : BitVec 32)
  /-- SLOT_TIMER_FIRE (R286). -/
  | slotTimerFire (timer : BitVec 6)
  /-- DOMAIN_SLOT_BOUNDARY (R285). -/
  | domainSlotBoundary (domain : BitVec 4)
  /-- TX_GROUP_FETCH (R283). -/
  | txGroupFetch (slot : BitVec 8)
  /-- RAD_XFORM (R288). -/
  | radXform (ref : CmdRef) (q : BitVec 8) (desc : List Byte)
  /-- XFORM_JOB_WINDOW_WRITE (R288). -/
  | xformJobWindowWrite (core : BitVec 6)
  /-- RAD_TAPS (R292). -/
  | radTaps (ref : CmdRef) (device : BitVec 8) (first count : BitVec 16) (addr : BitVec 64)
  /-- RAD_TX (R298). -/
  | radTx (ref : CmdRef) (t : BitVec 8) (desc : List Byte)
  /-- TX_JOB_WINDOW_WRITE (R298). -/
  | txJobWindowWrite (core : BitVec 6)
  /-- TX_PACKET_START (R298). -/
  | txPacketStart (t : BitVec 6)
  /-- DEC_JOB (R304). -/
  | decJob (ref : CmdRef) (q : BitVec 8) (desc : List Byte) (poison : Bool)
  /-- DEC_JOB_WINDOW_WRITE (R304). -/
  | decJobWindowWrite (core : BitVec 6)
  /-- DEC_JOB_START (R306). -/
  | decJobStart (engine : BitVec 2)
  /-- DEC_JOB_COMPLETE (R306). -/
  | decJobComplete (engine : BitVec 2)
  /-- DEC_TABLE (R311). -/
  | decTable (ref : CmdRef) (table device : BitVec 8) (addr : BitVec 64) (len : BitVec 32)
  /-- DEC_CNT_CLR (R317). -/
  | decCntClr (value : BitVec 32)
  /-- CAP_ARM (R324). -/
  | capArm (ref : CmdRef) (mask : BitVec 16) (when_ : BitVec 8) (t : BitVec 64)
  /-- CAP_ARM_INSTANT (R324). -/
  | capArmInstant (ref : CmdRef)
  /-- CAP_STOP (R324). -/
  | capStop (ref : CmdRef) (mask : BitVec 16)
  /-- CAP_FORCE (R324). -/
  | capForce (ref : CmdRef) (mask : BitVec 16)
  /-- CAP_FORCE_REGISTER_WRITE (R338). -/
  | capForceRegisterWrite (value : BitVec 32)
  /-- CAP_SNAP (R336). -/
  | capSnap (ref : CmdRef) (channel dest part : BitVec 8) (clear : Bool) (addr : BitVec 64) (len : BitVec 32)
  /-- CAPTURE_SAMPLE (R326). -/
  | captureSample (channel : BitVec 4) (data : BitVec 512) (poison : Bool) (time : BitVec 64) (full late : Bool)
  /-- SEGMENT_CLOSE (R329). -/
  | segmentClose (channel : BitVec 4)
  /-- MEMORY_ACCESS (R342). -/
  | memoryAccess (req : BitVec 16) (write rotate poison : Bool) (addr : BitVec 36) (len : BitVec 12) (data : List Byte) (upset : Upset) (port1 : Option MemPort)
  /-- TRACKER_WATCH_EXPIRY (R353). -/
  | trackerWatchExpiry (bank : BitVec 6) (word : BitVec 18)
  /-- BANK_DRAIN_END (R345). -/
  | bankDrainEnd (target : BitVec 7)
  /-- BANK_CLEARING_DONE (R348). -/
  | bankClearingDone (bank : BitVec 6)
  /-- ECS_RESULTS_READ (R359). -/
  | ecsResultsRead (m0 m1 : BitVec 32)
  /-- RECEIVER_LOCK (R368). -/
  | receiverLock (link pol : BitVec 4)
  /-- TRAIN (R370). -/
  | train (link : BitVec 4) (role : BitVec 8) (id : BitVec 32)
  /-- READY (R368). -/
  | ready (link : BitVec 4) (next : BitVec 7) (role : BitVec 8) (id : BitVec 32)
  /-- ACK (R373). -/
  | ack (link : BitVec 4) (next : BitVec 7)
  /-- NAK (R373). -/
  | nak (link : BitVec 4) (next : BitVec 7)
  /-- IDLE (R367). -/
  | idle (link : BitVec 4)
  /-- TIME (R377). -/
  | time (link : BitVec 4) (value : BitVec 56)
  /-- SQUELCH (R375). -/
  | squelch (link : BitVec 4) (sleep : Bool)
  /-- ECHO (R377). -/
  | echo (link : BitVec 4) (value : BitVec 56)
  /-- LINK_FLIT_RECEIVE (R372). -/
  | linkFlitReceive (link : BitVec 4) (bytes : List Byte)
  /-- FLIT_TRANSMIT (R373). -/
  | flitTransmit (link : BitVec 4)
  /-- GATEWAY_FLUSH_TIMEOUT (R380). -/
  | gatewayFlushTimeout (gateway : BitVec 4)
  /-- ACK_DUE_TIMEOUT (R373). -/
  | ackDueTimeout (link : BitVec 4)
  /-- REPLAY_TIMEOUT (R373). -/
  | replayTimeout (link : BitVec 4)
  /-- LOSS_OF_BLOCK_LOCK (R370). -/
  | lossOfBlockLock (link : BitVec 4) (clock : Bool)
  /-- RETRAIN_TIMEOUT (R370). -/
  | retrainTimeout (link : BitVec 4)
  /-- BURST_MODE_ENTRY (R369). -/
  | burstModeEntry (link : BitVec 4)
  /-- TRAINING_BURST (R369). -/
  | trainingBurst (link : BitVec 4)
  /-- IDLE_TIMEOUT (R375). -/
  | idleTimeout (link : BitVec 4)
  /-- SLEEP_TIMEOUT (R375). -/
  | sleepTimeout (link : BitVec 4)
  /-- LINK_WAKE (R375). -/
  | linkWake (link : BitVec 4)
  /-- TIME_SEND_INTERVAL (R367). -/
  | timeSendInterval (link : BitVec 4)
  /-- MESSAGE_RING_SEND (R381). -/
  | messageRingSend (link : BitVec 4)
  /-- SQ_TAIL_DOORBELL (R389). -/
  | sqTailDoorbell (port : Port) (ring : BitVec 8) (value : BitVec 32)
  /-- CQ_HEAD_DOORBELL (R389). -/
  | cqHeadDoorbell (port : Port) (ring : BitVec 8) (value : BitVec 32)
  /-- EVENT_RING_HEAD_DOORBELL (R395). -/
  | eventRingHeadDoorbell (port target : Port) (value : BitVec 32)
  /-- COMMAND_FETCH_COMPLETE (R392). -/
  | commandFetchComplete (ring : BitVec 8) (poisonedTlp : Bool)
  /-- MSIX_COALESCE_TIMEOUT (R394). -/
  | msixCoalesceTimeout (port : Port) (ring : Option (BitVec 8))
  /-- BAR4_ACCESS (R387). -/
  | bar4Access (port : Port) (write : Bool) (ofs : BitVec 28) (len : BitVec 12) (data : List Byte)
  /-- HST_SEM (R399). -/
  | hstSem (port : Port) (both : Bool) (n : BitVec 5)
  /-- HST_SEM_REL (R399). -/
  | hstSemRel (port : Port) (n : BitVec 5) (value : BitVec 32)
  /-- HST_SEM_OWNER_TAG_WRITE (R399). -/
  | hstSemOwnerTagWrite (port : Port) (n : BitVec 5) (value : BitVec 32)
  /-- RING_CFG_WRITE (R389). -/
  | ringCfgWrite (ring : BitVec 8) (value : BitVec 32)
  /-- RING_BASE_WRITE (R407). -/
  | ringBaseWrite (ring : BitVec 8) (word : BitVec 2) (value : BitVec 32)
  /-- EVENT_RING_CONFIG_WRITE (R395). -/
  | eventRingConfigWrite (target : Port) (word : Fin 3) (value : BitVec 32)
  /-- HST_WIN_WRITE (R388). -/
  | hstWinWrite (target : Port) (value : BitVec 32)
  /-- PORT_PERST_ASSERT (R406). -/
  | portPerstAssert (port : Port)
  /-- LINK_RECOVERY_TIMEOUT (R406). -/
  | linkRecoveryTimeout (port : Port)
  /-- FUNCTION_LEVEL_RESET (R385). -/
  | functionLevelReset (port : Port)
  /-- PORT_RESTORED (R407). -/
  | portRestored (port : Port)
  /-- SEMAPHORE_LOSS_TIMEOUT (R400). -/
  | semaphoreLossTimeout (port : Port)
  /-- REGISTER_WRITE (R10). -/
  | registerWrite (port : Port) (off : BitVec 24) (size : BitVec 4) (value : BitVec 32) (drains : BitVec 80)
  /-- READ_CLEAR_REGISTER (R10). -/
  | readClearRegister (port : Port) (off : BitVec 24) (size : BitVec 4)
  /-- READ_64BIT_LOWER_WORD (R15). -/
  | read64bitLowerWord (port : Port) (off : BitVec 24)
  /-- CONTROL_FLIT_INTERVAL (R435). -/
  | controlFlitInterval (second : Bool)
  /-- PAIR_FAILOVER (R452). -/
  | pairFailover (ref : CmdRef)
  /-- PAIR_JOIN (R451). -/
  | pairJoin (ref : CmdRef) (same : Bool)
  /-- SEC_ATTEST (R469). -/
  | secAttest (ref : CmdRef) (sign dest part : BitVec 8) (addr : BitVec 64) (nonce : BitVec 384)
  /-- SEC_FW_UPDATE (R460). -/
  | secFwUpdate (ref : CmdRef) (src part : BitVec 8) (addr : BitVec 64) (len : BitVec 32)
  /-- SEC_SVN_ADVANCE (R459). -/
  | secSvnAdvance (ref : CmdRef)
  /-- SEC_FUSE (R456). -/
  | secFuse (ref : CmdRef) (field : BitVec 8) (value : BitVec 384)
  /-- SEC_CORE_SECURE (R465). -/
  | secCoreSecure (ref : CmdRef) (mask : BitVec 64) (pages sec : BitVec 8)
  /-- SEC_TRACE_AUTH (R475). -/
  | secTraceAuth (ref : CmdRef) (addr : BitVec 64)
  /-- SEC_CERT_WRITE (R467). -/
  | secCertWrite (ref : CmdRef) (addr : BitVec 64) (len : BitVec 16)
  /-- TRC_CTRL_EN_WRITE (R470). -/
  | trcCtrlEnWrite (value : BitVec 32)
  /-- EXTEST (R479). -/
  | extest (pins : BitVec 512) (other : BitVec 64) (scan : List Bool)
  /-- SAMPLE_PRELOAD (R478). -/
  | samplePreload (pins : BitVec 512) (other : BitVec 64) (scan : List Bool)
  /-- DBG (R480). -/
  | dbg (request : BitVec 64)
  /-- BYPASS (R478). -/
  | bypass (code : BitVec 6)
  /-- ELA_CLOCK_EDGE (R169). -/
  | elaClockEdge (pins : BitVec 512) (dco : BitVec 8) (sys : Bool)
  /-- FLASH_OPERATION_COMPLETE (R194). -/
  | flashOperationComplete (ok : Bool)
  /-- RAIL_LOSS (R487). -/
  | railLoss
  /-- HBM_TRAINING_COMPLETE (R358). -/
  | hbmTrainingComplete
  /-- DEVICE_READY (R430). -/
  | deviceReady
  /-- CRYSTAL_START_DELAY_EXPIRY (R414). -/
  | crystalStartDelayExpiry
  /-- XTAL_TIMEOUT (R416). -/
  | xtalTimeout
  /-- TEMPERATURE_TRIP (R427). -/
  | temperatureTrip
  /-- STANDBY_EXIT_COMPLETE (R425). -/
  | standbyExitComplete
  /-- HS_EARLY_N_FALL (R159). -/
  | hsEarlyNFall
  /-- PFW_N_FALL (R408). -/
  | pfwNFall
  /-- QUIESCE_TIMEOUT (R408). -/
  | quiesceTimeout
  /-- TAMPER_N_LOW (R198). -/
  | tamperNLow
  /-- VBAT_LOSS (R198). -/
  | vbatLoss
  /-- REST_TIMEOUT (R99). -/
  | restTimeout
  /-- POWER_HOLD_END (R101). -/
  | powerHoldEnd
  /-- COMMIT_ARMED (R403). -/
  | commitArmed
  /-- GRIST_FETCH_COMPLETE (R123). -/
  | gristFetchComplete
  /-- GRIST_AUTHENTICATE_COMPLETE (R123). -/
  | gristAuthenticateComplete
  /-- GRIST_CHECK_COMPLETE (R134). -/
  | gristCheckComplete
  /-- FAB_START_STEP (R105). -/
  | fabStartStep
  /-- CFG_STREAM_HEADER (R186). -/
  | cfgStreamHeader
  /-- CFG_FRAME_RECORD (R188). -/
  | cfgFrameRecord
  /-- CFG_MAP_RECORD (R184). -/
  | cfgMapRecord
  /-- CFG_LOAD_END (R186). -/
  | cfgLoadEnd
  /-- SCP_WORD (R196). -/
  | scpWord
  /-- SCP_IDLE_TIMEOUT (R190). -/
  | scpIdleTimeout
  /-- PITCH (R262). -/
  | pitch
  /-- XFORM_JOB_COMPLETE (R289). -/
  | xformJobComplete
  /-- TX_PLL_LOCK (R368). -/
  | txPllLock
  /-- HEARTBEAT_TIMEOUT (R446). -/
  | heartbeatTimeout
  /-- PAIR_TAKEOVER (R447). -/
  | pairTakeover
  /-- HEARTBEAT_TOGGLE (R435). -/
  | heartbeatToggle
  /-- TRACE_TOKEN_EXPIRY (R475). -/
  | traceTokenExpiry
  /-- IDCODE (R478). -/
  | idcode
  /-- HIGHZ (R479). -/
  | highz
  /-- CLAMP (R479). -/
  | clamp
  /-- JTAG_TEST_LOGIC_RESET (R479). -/
  | jtagTestLogicReset
  /-- HS_EARLY_N_RISE (R408). -/
  | hsEarlyNRise
  /-- PAIR_HB_IN_EDGE (R446). -/
  | pairHbInEdge
  /-- TRACE_FRAME (R471). -/
  | traceFrame
  /-- FUSE_PROGRAMMING_COMPLETE (R456). -/
  | fuseProgrammingComplete
  deriving DecidableEq, Repr

end Sys2Proof
end

