-- ==== Sys2Proof/Config.lean ====
section
/-! DEFINITION. What the spec leaves open, as constants without a body: free values, outcomes it declares unspecified,
and functions of other standards that the spec names but does not give. Nothing in Lean can evaluate them, so a statement
holds whatever they are (notes/assumptions/). -/

namespace Sys2Proof.Config

/-- A value the spec leaves undefined, by the model's own counter (notes/assumptions/4.md). -/
opaque freeNat : Nat → Nat

/-- R103: DM bits (0) and exchange latches (1) after a thermal trip, by the model's counter at the trip and the bit's key; and
the entries that a TLQ then holds, as (instant, select, enable, value). -/
opaque freeBit : Nat → Nat → Nat → Bool
opaque freeTlq : Nat → Nat → List (Nat × BitVec 8 × BitVec 8 × BitVec 8)

/-- R349: whether a pair of flipped bits has syndrome 0xFF. -/
opaque eccPairFF : BitVec 72 → Bool

/-- R349: three or more flipped bits, odd in number: a miscorrection of the bits given, or a UE. -/
opaque eccOdd : BitVec 72 → Option (BitVec 72)

/-- R349: four or more flipped bits, even in number: 0 no error, 1 UE, 2 stored poison. -/
opaque eccEven : BitVec 72 → Fin 3

/-- R472: the NOC cycle counter that a SYNC of the dispatcher carries, at a value of the timebase. -/
opaque nocCycles : Nat → Nat

/-- VPK_HASH and ID_SEED, blown at manufacture (Table SEC-1, R466). -/
opaque vpkHash : List Byte
opaque idSeed : List Byte

/-! ### What the toolchain's configuration frames say (R181)

The placement of bits within a block's 24 frames belongs to the toolchain. The types hold what Tables ELA-1 and CFG-1 say
that a block's frames contain. -/

/-- A signal of the Edge Logic Array: constant 0, a macrocell output, a pin receiver, a fabric-to-ELA bit, a hub-to-ELA
signal, a long line of the row, a global net, a clock output's internal copy, the ELA system clock (R165, R168). -/
inductive ElaSrc where
  | zero
  | cell (i : Nat)
  | pin (p : Nat)
  | xbit (n : Nat)
  | hub (n : Nat)
  | line (j : Nat)
  | net (g : Nat)
  | dco (k : Nat)
  | sys
  deriving DecidableEq, Repr, Inhabited

/-- What a local term is given to: nothing (so that it may be lent), its macrocell's sum, or the one control role that Table
ELA-1 gives it (R162). -/
inductive ElaUse where
  | off
  | sum
  | role
  deriving DecidableEq, Repr, Inhabited

/-- The source of a control role that has not its local term: a constant, or a control term (Table ELA-1). -/
inductive ElaRole where
  | const (b : Bool)
  | ct (k : Nat)
  deriving DecidableEq, Repr, Inhabited

/-- The clock of a flip-flop (R169). -/
inductive ElaClock where
  | net (g : Nat) (inv : Bool)
  | l4
  | ct (k : Nat)
  | wire (i : ElaSrc)
  deriving DecidableEq, Repr, Inhabited

/-- A macrocell in frames 24k + 16 to 24k + 19 (R162, Table ELA-1): what its local terms L0 to L4 are given to; the XOR operand,
0 constant 0, 1 constant 1, 2 L4, 3 carry-in; clock enable, asynchronous reset, asynchronous set, output enable; flip-flop,
0 bypassed, 1 D, 2 T; INIT; clock. -/
structure ElaCell where
  uses : List ElaUse
  xor : Nat
  ce : ElaRole
  ar : ElaRole
  as : ElaRole
  oe : ElaRole
  ff : Nat
  init : Bool
  clk : ElaClock
  deriving DecidableEq, Repr, Inhabited

/-- A macrocell in frames 24k + 20 to 24k + 22 (R163, R164, R166): the product terms borrowed for its sum; carry mode; the
carry-in, 0 the chain, 1 constant 0, 2 constant 1, 3 CT0; long lines driven. -/
structure ElaSteer where
  borrowed : List Nat
  carry : Bool
  cin : Nat
  lines : List Nat
  deriving DecidableEq, Repr, Inhabited

/-- A boundary frame, 24k + 23: output and enable sources of the block's two pins, sources of its four crossing bits, of its
global net and of its hub signal, and the safe level of each macrocell output. -/
structure ElaBound where
  pinOut : List (Option Nat)
  pinOe : List (Option Nat)
  xbits : List (Option Nat)
  net : ElaSrc
  hub : Option Nat
  safe : BitVec 32
  deriving DecidableEq, Repr, Inhabited

/-- What the frames of a block say, frame by frame (Table CFG-1): product term j of a frame of 16, its true and its complement
lines; input j of a frame of 16; macrocell j of a frame of 8; macrocell m in the three frames after those; the boundary
frame. -/
opaque elaPt : BitVec 2048 → Nat → BitVec 64 × BitVec 64
opaque elaInput : BitVec 2048 → Nat → ElaSrc
opaque elaCell : BitVec 2048 → Nat → ElaCell
opaque elaSteer : BitVec 2048 → BitVec 2048 → BitVec 2048 → Nat → ElaSteer
opaque elaBound : BitVec 2048 → ElaBound

/-- RCO's deviation within its ±2 % (R35), in steps of 10 parts per million; only its residue modulo 4,001 counts. -/
opaque rcoTrim : Nat

/-- R181: what the SECDED syndrome of a configuration or map word with three or more flipped bits shows: no error, a double
error, or a single error at a bit. -/
opaque elaSyndrome : BitVec 72 → Option (Option (Fin 72))

/-- The fabric state that a join copies (R451): DM, exchange latches, region registers, the accepted trigger of each region
as (region, steps until its frame, anchor), the two class step counts, TLQ entries as (queue, instant, select, enable,
value), ELA flip-flops, words of the cask ranges. -/
structure PairCopy where
  dm : List (Nat × Bool)
  latches : List (Nat × Bool)
  regs : List (Nat × Nat)
  trigs : List (Nat × Nat × Nat)
  cReflex : Nat
  cDeferred : Nat
  tlq : List (Nat × Nat × Nat × Nat × Nat)
  q : BitVec 8192
  ranges : List (Nat × Nat)
  deriving DecidableEq, Repr, Inhabited

/-- The layout of the state data of STATE flits, which the spec does not give: the bytes of a copy, and the copy that bytes
spell (R443, R451). -/
opaque pairEncode : PairCopy → List Byte
opaque pairDecode : List Byte → PairCopy

/-- The order of the boundary register's cells, which Zararzan's BSDL file gives (R478): the cells captured from the levels of
DP[511:0] and of the other covered pins, and the level and output enable that the cells give a pin. -/
opaque bsdlCapture : BitVec 512 → BitVec 64 → List Bool
opaque bsdlPad : List Bool → Nat → Bool × Bool

/-! ### The radio engine's arithmetic that the spec does not fix (R277, R278, R287, R290, R291) -/

/-- By how many units of 2⁻¹⁷ the cosine and sine of a phase, computed to 18 bits, deviate from the nearest; one at most counts
(R277). -/
opaque ncoTrim : Nat → Int × Int

/-- The same for an output of a transform that is exact to 24 bits, by operation, size, scale, input and bin (R287). -/
opaque xformTrim : Nat → Nat → Nat → List Nat → Nat → Int × Int

/-- The resampler and half-band stages, by (RATIO, H): the state after an input, and the output of an index at a state. -/
opaque radFilter : Nat × Nat → Nat → Int × Int → Nat
opaque radFiltered : Nat × Nat → Nat → Nat → Int × Int

/-- The group delay of the chain in ticks, by (RATIO, H), f_L and FIRSET (R281). -/
opaque radDelay : Nat × Nat → Nat → Nat → Nat

/-- The carrier phase that a receiver tracks, in 2⁻³² turns, at the newest of the samples since the timing held, newest first,
by the profile's taps (R291). -/
opaque rxPhase : List (BitVec 32) → List Nat → Nat

/-- The correlation below which an SFD symbol of SPREAD 0 or 1 is decided as none, by the samples since the timing held. -/
opaque sfdFloor : List Nat → Int

/-- Peak interpolation in units of 2⁻¹⁶ tick, and the carrier frequency offset in Hz, of a packet (Table RAD-7). -/
opaque rxFrac : List (BitVec 32) → List Nat → Nat
opaque rxCfo : List (BitVec 32) → List Nat → Int

/-- Where in its period a chip's samples lie, in 2⁻¹⁶ sample, and the amplitude of a chip that no tap gives (R290). -/
opaque pulseOffset : Nat
opaque txLevel : Int

/-- The IEEE 802.15.4 HRP UWB PHY, which the spec names (Table RAD-4): the payload octets of a PHR without an uncorrectable
error; the bits sent for header and octets, position and polarity of a symbol in turn; the symbols of a payload; hopping
position and polarity of a data symbol. -/
opaque uwbHeader : Nat → Option Nat
opaque uwbCode : List Byte → List Bool
opaque uwbSymbols : Nat → Nat
opaque uwbHop : Nat → Nat × Bool

/-! ### The channel codes of TS 38.212 and TS 36.212, which the spec names and does not give (R304 to R316) -/

/-- The non-zero entries of base graph 1 (0) or 2 (1) at a lifting size: row, column, shift. The reader of these entries
(`LdpcCode.named`) keeps those that the shape of the standard's graphs allows. -/
opaque baseGraph : Nat → Nat → List (Nat × Nat × Nat)

/-- k0 of rate matching for a user table, by TABLE, Z, NCB and RV: no standard gives it (R309, R311). -/
opaque userK0 : Nat → Nat → Nat → Nat → Nat

end Sys2Proof.Config
end

