-- ==== Sys2Proof/Machine/ChannelCode.lean ====
section
/-! DEFINITION. The arithmetic of the channel decoder and encoder (R308 to R314) over the codes of TS 38.212 and
TS 36.212: log-likelihood ratios, rate matching, layered min-sum, max-log-MAP, encoding. -/

namespace Sys2Proof.Machine

open Sys2Proof.Config

/-- A value clamped to ±`top`. -/
def clampS (top i : Int) : Int := if top < i then top else if i < -top then -top else i

/-- An input LLR (R308). -/
def llrOf (b : Byte) : Int := if b = 0x80 then -127 else sint 8 b.toNat

/-- The byte of an LLR. -/
def llrByte (i : Int) : Byte := BitVec.ofNat 8 (toBits 8 i)

/-- Bit i of packed bits: byte ⌊i/8⌋, bit i mod 8 (R308). -/
def packedBit (l : List Byte) (i : Nat) : Bool := (l.getD (i / 8) 0).getLsbD (i % 8)

/-- The first `n` packed bits. -/
def unpackBits (l : List Byte) (n : Nat) : List Bool := (List.range n).map (packedBit l)

/-! ### What the standards fix (PRESUMED, notes/assumptions/146.md: the spec names TS 38.212 and TS 36.212 and does not quote them) -/

/-- The generator of a CRC kind without its leading term: CRC24A, CRC24B, CRC16. -/
def crcPoly : Nat → Nat
  | 1 => 0x864CFB
  | 2 => 0x800063
  | _ => 0x1021

/-- The length L of a CRC kind (Table DEC-1). -/
def crcLen : Nat → Nat
  | 0 => 0
  | 3 => 16
  | _ => 24

/-- The CRC of bits, the first bit the highest power, from a zero register. -/
def crc3gpp (k : Nat) (data : List Bool) : Nat :=
  data.foldl (fun c b =>
    let top := bit c (crcLen k - 1) != b
    let c := 2 * c % 2 ^ crcLen k
    if top then c ^^^ crcPoly k else c) 0

/-- Z is a lifting size: one of eight odd steps or 2, doubled, up to 384. -/
def liftSize (z : Nat) : Bool :=
  [2, 3, 5, 7, 9, 11, 13, 15].any fun a => (List.range 8).any fun j => z == a * 2 ^ j && decide (z ≤ 384)

/-- k0 of LDPC rate matching, by TABLE, Z, NCB and RV. The standard gives none for a user table: it is free for RV 1 to 3. -/
def ldpcK0 (table z ncb rv : Nat) : Nat :=
  let base (n : Nat) (l : List Nat) : Nat := l.getD rv 0 * ncb / (n * z) * z
  match table with
  | 0 => base 66 [0, 17, 33, 56]
  | 1 => base 50 [0, 13, 25, 43]
  | t => if rv = 0 then 0 else userK0 t z ncb rv

/-- Bit interleaving by QM and E: the place in the sequence before interleaving of bit i after it. -/
def bitPlace (qm e i : Nat) : Nat := i % qm * (e / qm) + i / qm

/-- f1 and f2 of the block sizes 40 to 512, every 8. -/
def qppA : List (Nat × Nat) :=
  [(3, 10), (7, 12), (19, 42), (7, 16), (7, 18), (11, 20), (5, 22), (11, 24), (7, 26), (41, 84), (103, 90),
   (15, 32), (9, 34), (17, 108), (9, 38)] ++
  [(21, 120), (101, 84), (21, 44), (57, 46), (23, 48), (13, 50), (27, 52), (11, 36), (27, 56), (85, 58), (29, 60),
   (33, 62), (15, 32), (17, 198), (33, 68)] ++
  [(103, 210), (19, 36), (19, 74), (37, 76), (19, 78), (21, 120), (21, 82), (115, 84), (193, 86), (21, 44),
   (133, 90), (81, 46), (45, 94), (23, 48), (243, 98)] ++
  [(151, 40), (155, 102), (25, 52), (51, 106), (47, 72), (91, 110), (29, 168), (29, 114), (247, 58), (29, 118),
   (89, 180), (91, 122), (157, 62), (55, 84), (31, 64)]

/-- f1 and f2 of the block sizes 528 to 1024, every 16. -/
def qppB : List (Nat × Nat) :=
  [(17, 66), (35, 68), (227, 420), (65, 96), (19, 74), (37, 76), (41, 234), (39, 80), (185, 82), (43, 252),
   (21, 86), (155, 44), (79, 120), (139, 92), (23, 94)] ++
  [(217, 48), (25, 98), (17, 80), (127, 102), (25, 52), (239, 106), (17, 48), (137, 110), (215, 112), (29, 114),
   (15, 58), (147, 118), (29, 60), (59, 122), (65, 124)] ++
  [(55, 84), (31, 64)]

/-- f1 and f2 of the block sizes 1056 to 2048, every 32. -/
def qppC : List (Nat × Nat) :=
  [(17, 66), (171, 204), (67, 140), (35, 72), (19, 74), (39, 76), (19, 78), (199, 240), (21, 82), (211, 252),
   (21, 86), (43, 88), (149, 60), (45, 92), (49, 846)] ++
  [(71, 48), (13, 28), (17, 80), (25, 102), (183, 104), (55, 954), (127, 96), (27, 110), (29, 112), (29, 114),
   (57, 116), (45, 354), (31, 120), (59, 610), (185, 124)] ++
  [(113, 420), (31, 64)]

/-- f1 and f2 of the block sizes 2112 to 6144, every 64. -/
def qppD : List (Nat × Nat) :=
  [(17, 66), (171, 136), (209, 420), (253, 216), (367, 444), (265, 456), (181, 468), (39, 80), (27, 164),
   (127, 504), (143, 172), (43, 88), (29, 300), (45, 92), (157, 188)] ++
  [(47, 96), (13, 28), (111, 240), (443, 204), (51, 104), (51, 212), (451, 192), (257, 220), (57, 336), (313, 228),
   (271, 232), (179, 236), (331, 120), (363, 244), (375, 248)] ++
  [(127, 168), (31, 64), (33, 130), (43, 264), (33, 134), (477, 408), (35, 138), (233, 280), (357, 142), (337, 480),
   (37, 146), (71, 444), (71, 120), (37, 152), (39, 462)] ++
  [(127, 234), (39, 158), (39, 80), (31, 96), (113, 902), (41, 166), (251, 336), (43, 170), (21, 86), (43, 174),
   (45, 176), (45, 178), (161, 120), (89, 182), (323, 184)] ++
  [(47, 186), (23, 94), (47, 190), (263, 480)]

/-- The interleaver's f1 and f2 for a block size of its table. -/
def qpp (k : Nat) : Option (Nat × Nat) :=
  if k ≤ 512 then if k % 8 = 0 ∧ 40 ≤ k then qppA[(k - 40) / 8]? else none
  else if k ≤ 1024 then if k % 16 = 0 then qppB[(k - 528) / 16]? else none
  else if k ≤ 2048 then if k % 32 = 0 then qppC[(k - 1056) / 32]? else none
  else if k % 64 = 0 then qppD[(k - 2112) / 64]? else none

/-- A state of the constituent encoder as its last three register bits, the latest first. -/
def turboRegs (s : Nat) : Bool × Bool × Bool := (bit s 0, bit s 1, bit s 2)

/-- The constituent encoder, feedback 1 + D² + D³ and forward 1 + D + D³: next state and parity bit at an input bit. -/
def turboStep (s : Nat) (u : Bool) : Nat × Bool :=
  let (s1, s2, s3) := turboRegs s
  let a := u ^^ s2 ^^ s3
  (b2n a + 2 * b2n s1 + 4 * b2n s2, a ^^ s1 ^^ s3)

/-- The input bit that drains a state. -/
def turboFlush (s : Nat) : Bool := (turboRegs s).2.1 ^^ (turboRegs s).2.2

/-- Where tail bit j stands: of constituent encoder 2 or 1, parity or systematic: stream, and place after K. -/
def turboTail (second par : Bool) (j : Nat) : Nat × Nat :=
  let x := (if par then [(1, 0), (0, 1), (2, 1)] else [(0, 0), (2, 0), (1, 1)]).getD j (0, 0)
  (x.1, x.2 + 2 * b2n second)

/-- K of a turbo block and its NCB range (R312). -/
def turboKpi (k : Nat) : Nat := 32 * ceilDiv (k + 4) 32

/-- The column order of the sub-block interleaver: the five bits of a column number, reversed. -/
def turboColumn (c : Nat) : Nat := (List.range 5).foldl (fun n i => n + b2n (bit c i) * 2 ^ (4 - i)) 0

/-- The place before interleaving of place `k` of an interleaved stream, nulls in front included. -/
def turboSub (kpi n k : Nat) : Nat :=
  (turboColumn (k / (kpi / 32)) + 32 * (k % (kpi / 32)) + b2n (n == 2)) % kpi

/-- The bit of the streams at a place of the circular buffer of block size K: stream and index; none for a null place. -/
def turboPlace (k p : Nat) : Option (Nat × Nat) :=
  let kpi := turboKpi k
  let n := if p < kpi then 0 else 1 + (p - kpi) % 2
  let i := turboSub kpi n (if p < kpi then p else (p - kpi) / 2)
  if i < kpi - (k + 4) then none else some (n, i - (kpi - (k + 4)))

/-- k0 of turbo rate matching, by K, NCB and RV. -/
def turboK0 (k ncb rv : Nat) : Nat :=
  let rows := turboKpi k / 32
  rows * (2 * ceilDiv ncb (8 * rows) * rv + 2)

/-- The CRC bits of a value, first parity bit first, which is the most significant. -/
def crcBits (k : Nat) (data : List Bool) : List Bool :=
  let v := crc3gpp k data
  (List.range (crcLen k)).map fun i => bit v (crcLen k - 1 - i)

/-- The remainder over bits, their parity included, is zero (R314). -/
def crcPass (k : Nat) (l : List Bool) : Bool :=
  let n := l.length - crcLen k
  crcBits k (l.take n) == l.drop n

/-- An array of integers with an element set. -/
def putI (a : Array Int) (i : Nat) (v : Int) : Array Int := a.setIfInBounds i v

/-! ### The circular buffer (R308) -/

/-- The places from k0 on, once round, that carry bits. -/
def ringPlaces (ncb k0 : Nat) (carries : Nat → Bool) : List Nat :=
  ((List.range ncb).map fun i => (k0 + i) % ncb).filter carries

/-- An addition of LLRs, with its saturation counted. -/
def llrAdd (x : Array Int × Nat) (i : Nat) (v : Int) : Array Int × Nat :=
  let t := x.1.getD i 0 + v
  (putI x.1 i (clampS 127 t), x.2 + b2n (clampS 127 t != t))

/-- The buffer after LLRs, de-interleaved by QM, have been placed and filler set (R308): with saturations. -/
def bufferOf (ncb : Nat) (places : List Nat) (filler : Nat → Bool) (qm : Nat) (llr : List Int) : Array Int × Nat :=
  let e := llr.length
  let a : Array Int := llr.toArray
  let d := if qm = 1 then a else (List.range e).foldl (fun d i => putI d (bitPlace qm e i) (a.getD i 0)) (Array.replicate e 0)
  let ps := places.toArray
  let x := (List.range e).foldl (fun x j => if ps.size = 0 then x else llrAdd x (ps.getD (j % ps.size) 0) (d.getD j 0))
    (Array.replicate ncb 0, 0)
  ((List.range ncb).foldl (fun b p => if filler p then putI b p 127 else b) x.1, x.2)

/-- The buffer with another added position by position (R308, COMBINE). A filler position holds +127 and receives no
LLR, so nothing is added there (Table DEC-4: SATS 0 with filler at +127 in both; DEDUCED, notes/assumptions/147.md). -/
def addHarq (filler : Nat → Bool) (x : Array Int × Nat) (h : List Int) : Array Int × Nat :=
  (List.range h.length).foldl (fun x p => if filler p then x else llrAdd x p (h.getD p 0)) x

/-- The bits sent from a buffer: E of them, interleaved by QM. -/
def rateMatch (places : List Nat) (word : Nat → Bool) (qm e : Nat) : List Bool :=
  let ps := places.toArray
  let sel (j : Nat) : Bool := word (ps.getD (j % ps.size) 0)
  (List.range e).map fun i => sel (if qm = 1 then i else bitPlace qm e i)

/-! ### LDPC (R309, R310) -/

/-- A code: rows, columns, punctured columns, entries with their shifts at Z. -/
structure LdpcCode where
  rows : Nat
  cols : Nat
  p : Nat
  z : Nat
  entries : List (Nat × Nat × Nat)

/-- KB. -/
def LdpcCode.kb (c : LdpcCode) : Nat := c.cols - c.rows

/-- The edges of row r at a lane: index of the message, variable. -/
def LdpcCode.edges (c : LdpcCode) (r lane : Nat) : List (Nat × Nat) :=
  ((c.entries.zipIdx).filter fun e => e.1.1 == r).map fun e => (e.2 * c.z + lane, e.1.2.1 * c.z + (lane + e.1.2.2) % c.z)

/-- A-posteriori values and check-to-variable messages. -/
structure LdpcState where
  a : Array Int
  r : Array Int

/-- One check at a lane of a layer (R310). -/
def ldpcCheck (norm : Bool) (param : Nat) (st : LdpcState) (es : List (Nat × Nat)) : LdpcState :=
  let q := es.map fun e => (e.1, e.2, clampS 511 (st.a.getD e.2 0 - st.r.getD e.1 0))
  q.foldl (fun st x =>
    let others := q.filter fun y => y.1 != x.1
    let m : Nat := others.foldl (fun m y => min m y.2.2.natAbs) 511
    let mag : Nat := min (if norm then param * m / 16 else m - param) 127
    let neg := others.foldl (fun b y => b != decide (y.2.2 < 0)) false
    let r : Int := if neg then -(mag : Int) else mag
    { a := putI st.a x.2.1 (clampS 511 (x.2.2 + r)), r := putI st.r x.1 r }) st

/-- One iteration over the first m layers. -/
def LdpcCode.iterate (c : LdpcCode) (norm : Bool) (param m : Nat) (st : LdpcState) : LdpcState :=
  (List.range m).foldl (fun st r => (List.range c.z).foldl (fun st z => ldpcCheck norm param st (c.edges r z)) st) st

/-- The syndrome over the first m rows is zero. -/
def LdpcCode.zeroSyndrome (c : LdpcCode) (m : Nat) (st : LdpcState) : Bool :=
  (List.range m).all fun r => (List.range c.z).all fun z =>
    !(c.edges r z).foldl (fun b e => b != decide (st.a.getD e.2 0 < 0)) false

/-- Iterations until the early stop or the last one: how many ran, and the values after them. -/
def LdpcCode.run (c : LdpcCode) (norm : Bool) (param m : Nat) (early : Bool) : Nat → Nat → LdpcState → Nat × LdpcState
  | 0, n, st => (n, st)
  | k + 1, n, st =>
    let st := c.iterate norm param m st
    if early && c.zeroSyndrome m st then (n + 1, st) else run c norm param m early k (n + 1) st

/-- Layers processed for a buffer: all rows of a user table, else by the highest column with a non-zero LLR (R310). -/
def LdpcCode.layers (c : LdpcCode) (user : Bool) (buf : Array Int) : Nat :=
  if user then c.rows else
  let top := (List.range buf.size).foldl (fun t p => if buf.getD p 0 = 0 then t else (p + c.p * c.z) / c.z) 0
  min c.rows (max 4 (top + 1 - c.kb))

/-- The values that decoding starts from. -/
def LdpcCode.start (c : LdpcCode) (buf : Array Int) : LdpcState :=
  { a := (Array.replicate (c.p * c.z) 0 ++ buf ++ Array.replicate (c.cols * c.z - c.p * c.z - buf.size) 0)
    r := Array.replicate (c.entries.length * c.z) 0 }

/-- The code of a base graph at a lifting size (R309). Columns KB to KB + 3 carry the parity of the first four rows, and
column KB + r that of a later row r alone (PRESUMED, notes/assumptions/146.md); the entries of the other columns are the standard's. -/
def LdpcCode.named (table z : Nat) : LdpcCode :=
  let rows := if table = 0 then 46 else 42
  let kb := if table = 0 then 22 else 10
  let es := (baseGraph table z).filter fun e => decide (e.1 < rows ∧ e.2.1 < kb + 4 ∧ e.2.2 < z)
  ⟨rows, kb + rows, 2, z, es ++ (List.range rows).filterMap fun r => if r < 4 then none else some (r, kb + r, 0)⟩

/-- Equations over bits, each a mask of unknowns with its constant at bit `n`: reduced until every unknown below `n` that
has a pivot stands alone in its equation. -/
def gaussBits (n : Nat) (eqs : List Nat) : List Nat :=
  ((List.range n).foldl (fun (x : List Nat × List Nat) c =>
    match x.2.find? fun e => bit e c with
    | none => x
    | some p =>
      let clear (e : Nat) : Nat := if bit e c then e ^^^ p else e
      (p :: x.1.map clear, (x.2.erase p).map clear)) ([], eqs)).1

/-- The unknowns that reduced equations fix. -/
def gaussSolve (n : Nat) (eqs : List Nat) : List Bool :=
  let red := gaussBits n eqs
  (List.range n).map fun c => red.any fun e => bit e c && bit e n

/-- The sum of a check's bits, those of unknown places counting as 0. -/
def LdpcCode.checkSum (c : LdpcCode) (w : Array Bool) (r lane : Nat) : Bool :=
  (c.edges r lane).foldl (fun b e => b ^^ w.getD e.2 false) false

/-- LDPC encoding of K bits (R314): the code word that satisfies every check, punctured columns included. The parity of the
first four rows comes from their checks together, that of a later row from its own check. -/
def LdpcCode.encode (c : LdpcCode) (info : List Bool) : List Bool :=
  let k := c.kb * c.z
  let n := 4 * c.z
  let eqs := (List.range 4).flatMap fun r => (List.range c.z).map fun lane =>
    (c.edges r lane).foldl (fun m e => if k ≤ e.2 ∧ e.2 < k + n then m ^^^ 2 ^ (e.2 - k) else m) 0
      + b2n (c.checkSum info.toArray r lane) * 2 ^ n
  let head := info ++ gaussSolve n eqs
  let w := head.toArray
  head ++ (List.range (c.rows - 4)).flatMap fun r => (List.range c.z).map fun lane => c.checkSum w (r + 4) lane

/-! ### Turbo (R312, R313) -/

/-- Π(i). -/
def qppAt (f : Nat × Nat) (k i : Nat) : Nat := (f.1 * i + f.2 * i * i) % k

/-- The greater of two path metrics; none is no path. -/
def pathMax : Option Int → Option Int → Option Int
  | none, y => y
  | x, none => x
  | some x, some y => some (max x y)

/-- x of a bit. -/
def antip (b : Bool) : Int := if b then -1 else 1

/-- The branches of the trellis: state, input bit, next state, parity. -/
def turboBranches : List (Nat × Bool × Nat × Bool) :=
  (List.range 8).flatMap fun s => [false, true].map fun u => (s, u, (turboStep s u).1, (turboStep s u).2)

/-- The metric of a branch for (L_s + L_a, L_p). -/
def branchMetric (b : Nat × Bool × Nat × Bool) (l : Int × Int) : Int := antip b.2.1 * l.1 + antip b.2.2.2 * l.2

/-- Path metrics of the eight states, moved over one step by branches seen from `from` to `to`. -/
def trellisStep (src dst : Nat × Bool × Nat × Bool → Nat) (x : List (Option Int)) (l : Int × Int) : List (Option Int) :=
  (List.range 8).map fun s => turboBranches.foldl (fun m b =>
    if dst b = s then pathMax m ((x.getD (src b) none).map (· + branchMetric b l)) else m) none

/-- State 0 only. -/
def trellisEnd : List (Option Int) := some 0 :: List.replicate 7 none

/-- Metrics before each step, forwards, and after each step, backwards; no normalisation, since only differences of paths
are used. -/
def trellisForward (ls : List (Int × Int)) : List (List (Option Int)) :=
  (ls.foldl (fun (a : List (Option Int) × List (List (Option Int))) l =>
    (trellisStep (fun b => b.1) (fun b => b.2.2.1) a.1 l, a.1 :: a.2)) (trellisEnd, [])).2.reverse
def trellisBackward (ls : List (Int × Int)) : List (List (Option Int)) :=
  (ls.foldr (fun l (a : List (Option Int) × List (List (Option Int))) =>
    (trellisStep (fun b => b.2.2.1) (fun b => b.1) a.1 l, a.1 :: a.2)) (trellisEnd, [])).2

/-- D of every step of a constituent decoder (R313). -/
def mapDecode (ls : List (Int × Int)) : List Int :=
  ((ls.zip (trellisForward ls)).zip (trellisBackward ls)).map fun x =>
    let best (u : Bool) : Option Int := turboBranches.foldl (fun m b =>
      if b.2.1 = u then
        match x.1.2.getD b.1 none, x.2.getD b.2.2.1 none with
        | some p, some q => pathMax m (some (p + branchMetric b x.1.1 + q))
        | _, _ => m
      else m) none
    (best false).getD 0 - (best true).getD 0

/-- The extrinsic value (R313). -/
def extrinsic (s16 : Nat) (d ls la : Int) : Int := clampS 127 (Int.tdiv (s16 * (d - 2 * ls - 2 * la)) 32)

/-- The de-matched streams of a block. -/
structure TurboIn where
  k : Nat
  f : Nat × Nat
  s16 : Nat
  d : Nat → Nat → Int

/-- Half an iteration (R313): D and the extrinsic values in the decoder's own order. -/
def TurboIn.half (t : TurboIn) (second : Bool) (la : Nat → Int) : List Int × Array Int :=
  let sys (i : Nat) : Int := if second then t.d 0 (qppAt t.f t.k i) else t.d 0 i
  let tail (par : Bool) (j : Nat) : Int := let x := turboTail second par j; t.d x.1 (t.k + x.2)
  let body := (List.range t.k).map fun i => (sys i + la i, t.d (if second then 2 else 1) i)
  let ds := (mapDecode (body ++ (List.range 3).map fun j => (tail false j, tail true j))).take t.k
  (ds, (ds.zipIdx.map fun e => extrinsic t.s16 e.1 (sys e.2) (la e.2)).toArray)

/-- An iteration from decoder 2's latest extrinsic values in natural order: D of decoder 2 and its extrinsic values, both
de-interleaved. -/
def TurboIn.iterate (t : TurboIn) (e2 : Array Int) : Array Int × Array Int :=
  let h1 := t.half false fun i => e2.getD i 0
  let h2 := t.half true fun i => h1.2.getD (qppAt t.f t.k i) 0
  let nat (a : Array Int) : Array Int :=
    (List.range t.k).foldl (fun b i => putI b (qppAt t.f t.k i) (a.getD i 0)) (Array.replicate t.k 0)
  (nat h2.1.toArray, nat h2.2)

/-- Hard bits of D, filler left out. -/
def turboHard (fill : Nat) (d : Array Int) : List Bool := (d.toList.drop fill).map fun x => decide (x < 0)

/-- Iterations until the early stop or the last one: how many ran, the last D, and whether the ES condition held. `stop`
judges hard bits, and those of the iteration before. -/
def TurboIn.run (t : TurboIn) (stop : List Bool → Option (List Bool) → Bool) (fill : Nat) :
    Nat → Nat → Array Int → Array Int → Option (List Bool) → Nat × Array Int × Bool
  | 0, n, d, _, _ => (n, d, false)
  | i + 1, n, _, e2, prev =>
    let x := t.iterate e2
    let hard := turboHard fill x.1
    if stop hard prev then (n + 1, x.1, true) else run t stop fill i (n + 1) x.1 x.2 (some hard)

/-- A constituent encoder: its parity bits, the systematic bits of its tail and the parity bits of its tail. -/
def turboConstituent (l : List Bool) : List Bool × List Bool × List Bool :=
  let x := l.foldl (fun (a : Nat × List Bool) u => let y := turboStep a.1 u; (y.1, y.2 :: a.2)) (0, [])
  let t := (List.range 3).foldl (fun (a : Nat × List Bool × List Bool) _ =>
    let u := turboFlush a.1
    let y := turboStep a.1 u
    (y.1, u :: a.2.1, y.2 :: a.2.2)) (x.1, [], [])
  (x.2.reverse, t.2.1.reverse, t.2.2.reverse)

/-- Bit `i` of stream `n` of a turbo-encoded block of bits, filler included. -/
def turboStream (k : Nat) (f : Nat × Nat) (c : List Bool) : Nat → Nat → Bool :=
  let one := turboConstituent c
  let two := turboConstituent ((List.range k).map fun i => c.getD (qppAt f k i) false)
  let tails := [false, true].flatMap fun sec => [false, true].flatMap fun par => (List.range 3).map fun j =>
    let e := if sec then two else one
    (turboTail sec par j, (if par then e.2.2 else e.2.1).getD j false)
  fun n i =>
    if i < k then (match n with | 0 => c | 1 => one.1 | _ => two.1).getD i false
    else match tails.find? fun e => e.1 == (n, i - k) with
      | some e => e.2
      | none => false

end Sys2Proof.Machine
end

