-- ==== Sys2Proof/Machine/Sparse.lean ====
section
/-! DEFINITION. Sparse storage: a list of (key, value) pairs with strictly rising keys, in which no entry equals what an
unlisted key reads as. Registers, memories and tables of the device are held in this one form. -/

namespace Sys2Proof.Machine

/-- The entry listed for a key. -/
def Sparse.find {α : Type} : List (Nat × α) → Nat → Option α
  | [], _ => none
  | (k, v) :: l, i => if k = i then some v else Sparse.find l i

/-- What a key reads as: its entry, or the default of an unlisted key. -/
def Sparse.get {α : Type} (dflt : Nat → α) (m : List (Nat × α)) (i : Nat) : α :=
  (Sparse.find m i).getD (dflt i)

/-- The list without a key. -/
def Sparse.erase {α : Type} (m : List (Nat × α)) (i : Nat) : List (Nat × α) := m.filter fun e => decide (e.1 ≠ i)

/-- The list with a key set, in rising order of keys. -/
def Sparse.insert {α : Type} : List (Nat × α) → Nat → α → List (Nat × α)
  | [], i, a => [(i, a)]
  | (k, v) :: l, i, a =>
    if i < k then (i, a) :: (k, v) :: l
    else if i = k then (i, a) :: l
    else (k, v) :: Sparse.insert l i a

/-- A write: it keeps the canonical form, so writing the default removes the entry. -/
def Sparse.set {α : Type} [DecidableEq α] (dflt : Nat → α) (m : List (Nat × α)) (i : Nat) (a : α) : List (Nat × α) :=
  if a = dflt i then Sparse.erase m i else Sparse.insert m i a

/-- The entries whose key passes a test. -/
def Sparse.keep {α : Type} (p : Nat → Bool) (m : List (Nat × α)) : List (Nat × α) := m.filter fun e => p e.1

/-- Keys strictly rise. -/
def Sparse.rising {α : Type} : List (Nat × α) → Bool
  | [] => true
  | (k, _) :: l => l.all (fun e => decide (k < e.1)) && Sparse.rising l

/-- The canonical form: strictly rising keys, and no entry equal to the default of its key. -/
def Sparse.wf {α : Type} [DecidableEq α] (dflt : Nat → α) (m : List (Nat × α)) : Bool :=
  Sparse.rising m && m.all fun e => decide (e.2 ≠ dflt e.1)

end Sys2Proof.Machine
end

