-- ==== Sys2Proof/Machine/RegTypes.lean ====
section
/-! DEFINITION. The shape of the BAR0 register tables: access codes (Table SCO-6), field and register rows. -/

namespace Sys2Proof.Machine

/-- Access codes (Table SCO-6, R10). -/
inductive Access where
  | rw | ro | wo | w1c | w1s | rc | rwl
  deriving DecidableEq, Repr

/-- One row of a register table: the bits of a field, its access code and reset value, whether a warm reset keeps it, and
the encodings it lists as (first, last, step); an empty list lists them all (R13). -/
structure FieldDef where
  acc : Access
  hi : Nat
  lo : Nat
  reset : Nat
  kept : Bool
  enc : List (Nat × Nat × Nat)
  deriving DecidableEq, Repr

/-- One register, or an array of registers with up to two strides. `pair` marks the lower word of a 64-bit pair (R15). -/
structure RegDef where
  base : Nat
  s1 : Nat
  n1 : Nat
  s2 : Nat
  n2 : Nat
  pair : Bool
  fields : List FieldDef
  deriving DecidableEq, Repr

/-- A field of a register array: where it lies for the indices i and j. -/
structure Field where
  base : Nat
  s1 : Nat
  s2 : Nat
  hi : Nat
  lo : Nat
  deriving DecidableEq, Repr

/-- A field row with every encoding listed, reset by a warm reset. -/
def fd (a : Access) (hi lo reset : Nat) : FieldDef := ⟨a, hi, lo, reset, false, []⟩

/-- A register row. -/
def rg (base s1 n1 s2 n2 : Nat) (pair : Bool) (fs : List FieldDef) : RegDef := ⟨base, s1, n1, s2, n2, pair, fs⟩

/-- The BAR0 offset of a field's register. -/
def Field.off (f : Field) (i j : Nat) : Nat := f.base + f.s1 * i + f.s2 * j

/-- The position of `d` in an array of `n` items of stride `s`, if it starts one. -/
def strideIndex (d s n : Nat) : Option Nat :=
  if s = 0 then (if d = 0 then some 0 else none)
  else if d % s = 0 ∧ d / s < n then some (d / s) else none

/-- Whether an offset is one of the registers of a row. -/
def RegDef.holds (r : RegDef) (off : Nat) : Bool :=
  if off < r.base then false else
  let d := off - r.base
  if r.s1 = 0 then d = 0
  else
    let i := d / r.s1
    decide (i < r.n1) && (strideIndex (d % r.s1) r.s2 r.n2).isSome

/-- The reset value of a register: the reset values of its fields, reserved bits 0 (R12). -/
def RegDef.reset (r : RegDef) : Nat := r.fields.foldl (fun n f => setBits n f.hi f.lo f.reset) 0

/-- Whether an encoding is listed for a field (R13): the values that its description names or bounds
(notes/assumptions/24.md). -/
def FieldDef.lists (f : FieldDef) (v : Nat) : Bool :=
  f.enc.isEmpty || f.enc.any fun e => decide (e.1 ≤ v ∧ v ≤ e.2.1) && decide (v % e.2.2 = 0)

/-- A field that a register write may set: RW and RWL (R402). -/
def FieldDef.isSet (f : FieldDef) : Bool := f.acc == .rw || f.acc == .rwl

/-- The word of a register after `v` is written to its RW and RWL fields: a reserved encoding leaves its field unchanged
(R13), other fields ignore the value (R402). -/
def RegDef.write (r : RegDef) (old v : Nat) : Nat :=
  r.fields.foldl (fun n f =>
    if f.isSet && f.lists (bits v f.hi f.lo) then setBits n f.hi f.lo (bits v f.hi f.lo) else n) old

end Sys2Proof.Machine
end

