-- ==== Sys2Proof/Machine/Regs.lean ====
section
/-! DEFINITION. The BAR0 register file, row by row as the register tables of spec/ give it (Tables ORG-6, FAB-12,
FRM-1, FRM-8, FRM-11, GRI-13, PIN-2, PIN-3, PIN-6 to PIN-9, ELA-6, CFG-10, SCR-9, DSP-9, RAD-10 to RAD-13, DEC-5,
CAP-7, CAP-8, MEM-6, LNK-7, LNK-8, HST-8, HST-9, CLK-6, PAIR-6, SEC-11, SEC-12 and rules R300 to R302, R338):
offset, strides, counts, and for every field its bits, access code, reset value, whether a warm reset keeps it, and the
encodings the field lists (R13). Reset values the spec states as fused, strapped, random or derived are DESIGN CHOICE
(notes/assumptions/2.md). -/

namespace Sys2Proof.Machine

/-- Registers of the GLB_ block, part 0: GLB_IDCODE, GLB_GRADE, GLB_SERIAL_LO, GLB_SERIAL_HI, GLB_TB_LO, GLB_TB_HI, GLB_STATUS, GLB_EVT_CFG, GLB_EVT_LOST, GLB_SCRATCH0, GLB_SCRATCH1, GLB_NOC_CFG. -/
def regsGlb0 : List RegDef := [
  rg 0x0 0 1 0 1 false [fd .ro 31 28 1, fd .ro 27 12 25728, fd .ro 11 1 709, fd .ro 0 0 1],
  rg 0x4 0 1 0 1 false [fd .ro 19 16 4, fd .ro 15 8 12, fd .ro 7 0 120],
  rg 0x8 0 1 0 1 true [⟨.ro, 31, 0, 0, true, []⟩],
  rg 0xc 0 1 0 1 false [⟨.ro, 31, 0, 0, true, []⟩],
  rg 0x10 0 1 0 1 true [⟨.ro, 31, 0, 0, true, []⟩],
  rg 0x14 0 1 0 1 false [⟨.ro, 31, 0, 0, true, []⟩],
  rg 0x18 0 1 0 1 false [fd .ro 3 3 0, fd .ro 2 2 0, fd .ro 1 1 1, fd .ro 0 0 0],
  rg 0x20 4 2 0 1 false [fd .rw 16 16 0, fd .rw 15 14 0, fd .rw 11 0 4095],
  rg 0x28 4 2 0 1 false [fd .rc 31 0 0],
  rg 0x30 0 1 0 1 false [⟨.rw, 31, 0, 0, true, []⟩],
  rg 0x34 0 1 0 1 false [⟨.rw, 31, 0, 0, true, []⟩],
  rg 0x40 0 1 0 1 false [⟨.rwl, 3, 0, 1, false, [(1, 8, 1)]⟩]]

/-- Every register of the GLB_ block. -/
def regsGlb : List RegDef :=
  regsGlb0

/-- Registers of the FAB_ block, part 0: FAB_NETFF_STAT, FAB_NETFF_LOC, FAB_NETFF_STEP, FAB_NETFF_FRAME_LO, FAB_NETFF_FRAME_HI, FAB_NETFF_TB_LO, FAB_NETFF_TB_HI, FAB_RGN_CFG, FAB_RGN_TILES_LO, FAB_RGN_TILES_HI, FAB_RGN_TRIG, FAB_RGN_PERIOD. -/
def regsFab0 : List RegDef := [
  rg 0x1f0000 32 4 0 1 false [⟨.w1c, 31, 31, 0, true, []⟩, ⟨.ro, 30, 30, 0, true, []⟩, ⟨.ro, 23, 20, 0, true, []⟩, ⟨.ro, 19, 16, 0, true, []⟩, ⟨.ro, 15, 10, 0, true, []⟩, ⟨.ro, 9, 5, 0, true, []⟩],
  rg 0x1f0004 32 4 0 1 false [⟨.ro, 31, 28, 0, true, []⟩, ⟨.ro, 27, 22, 0, true, []⟩, ⟨.ro, 21, 20, 0, true, []⟩, ⟨.ro, 19, 16, 0, true, []⟩, ⟨.ro, 15, 12, 0, true, []⟩, ⟨.ro, 11, 9, 0, true, []⟩, ⟨.ro, 8, 3, 0, true, []⟩],
  rg 0x1f0008 32 4 0 1 false [⟨.ro, 12, 0, 0, true, []⟩],
  rg 0x1f000c 32 4 0 1 true [⟨.ro, 31, 0, 0, true, []⟩],
  rg 0x1f0010 32 4 0 1 false [⟨.ro, 15, 0, 0, true, []⟩],
  rg 0x1f0014 32 4 0 1 true [⟨.ro, 31, 0, 0, true, []⟩],
  rg 0x1f0018 32 4 0 1 false [⟨.ro, 31, 0, 0, true, []⟩],
  rg 0x100000 64 16 0 1 false [fd .rwl 31 31 0, fd .rwl 30 30 0, ⟨.rwl, 27, 14, 0, false, [(4, 8192, 1)]⟩, fd .rwl 12 0 0],
  rg 0x100004 64 16 0 1 true [fd .rwl 31 0 0],
  rg 0x100008 64 16 0 1 false [fd .rwl 31 0 0],
  rg 0x10000c 64 16 0 1 false [fd .rwl 17 14 0, fd .rwl 13 9 0, ⟨.rwl, 8, 7, 1, false, [(1, 3, 1)]⟩, ⟨.rwl, 2, 0, 0, false, [(0, 4, 1)]⟩],
  rg 0x100010 64 16 0 1 false [fd .rwl 31 0 0]]

/-- Registers of the FAB_ block, part 1: FAB_RGN_STATUS, FAB_RGN_FRAME_LO, FAB_RGN_FRAME_HI, FAB_RGN_ANCHOR_LO, FAB_RGN_ANCHOR_HI, FAB_RGN_MISSED, FAB_RGN_GAP, FAB_TLQ_STAT, FAB_TLQ_LATE, FAB_GLB_STATUS, FAB_REST_LIMIT, FAB_PWR_HOLD. -/
def regsFab1 : List RegDef := [
  rg 0x100014 64 16 0 1 false [fd .ro 31 31 0, fd .ro 28 16 0, fd .ro 15 8 0, fd .ro 3 3 0, fd .ro 2 0 0],
  rg 0x100018 64 16 0 1 true [fd .ro 31 0 0],
  rg 0x10001c 64 16 0 1 false [fd .ro 15 0 0],
  rg 0x100020 64 16 0 1 true [fd .ro 31 0 0],
  rg 0x100024 64 16 0 1 false [fd .ro 31 0 0],
  rg 0x100028 64 16 0 1 false [fd .rc 31 0 0],
  rg 0x10002c 64 16 0 1 false [fd .ro 31 16 65535, fd .ro 15 0 0],
  rg 0x102000 8 64 0 1 false [fd .ro 31 31 0, fd .ro 27 24 0, fd .ro 17 9 0, fd .ro 8 0 0],
  rg 0x102004 8 64 0 1 false [fd .rc 31 0 0],
  rg 0x101000 0 1 0 1 false [fd .ro 6 6 0, fd .ro 5 5 0, fd .ro 4 4 0, fd .ro 3 0 0],
  rg 0x101004 0 1 0 1 false [⟨.rwl, 31, 0, 0, false, [(0, 0, 1), (16, 4294967295, 1)]⟩],
  rg 0x101008 0 1 0 1 false [⟨.rwl, 15, 0, 1024, false, [(64, 65535, 1)]⟩]]

/-- Registers of the FAB_ block, part 2: FAB_REST_MAX, FAB_REST_TOTAL_LO, FAB_REST_TOTAL_HI, FAB_REST_COUNT_LO, FAB_REST_COUNT_HI, FAB_REST_SRC, FAB_REST_CLR, FAB_REST_NOW, FAB_REPAIR, FAB_LOAD_STATUS, FAB_LOAD_ERR_REC, FAB_LOAD_ERR_LOC. -/
def regsFab2 : List RegDef := [
  rg 0x10100c 0 1 0 1 false [fd .ro 31 0 0],
  rg 0x101010 0 1 0 1 true [fd .ro 31 0 0],
  rg 0x101014 0 1 0 1 false [fd .ro 31 0 0],
  rg 0x101018 0 1 0 1 true [fd .ro 31 0 0],
  rg 0x10101c 0 1 0 1 false [fd .ro 31 0 0],
  rg 0x101020 4 6 0 1 false [fd .ro 31 0 0],
  rg 0x101038 0 1 0 1 false [fd .wo 0 0 0],
  rg 0x10103c 0 1 0 1 false [fd .ro 31 0 0],
  rg 0x103000 4 4 0 1 false [⟨.ro, 11, 9, 4, true, []⟩, ⟨.ro, 8, 6, 4, true, []⟩, ⟨.ro, 5, 3, 4, true, []⟩, ⟨.ro, 2, 0, 4, true, []⟩],
  rg 0x103010 0 1 0 1 false [fd .ro 31 31 0, fd .ro 30 28 0, fd .ro 23 16 0, fd .ro 10 0 0],
  rg 0x103014 0 1 0 1 false [fd .ro 31 0 0],
  rg 0x103018 0 1 0 1 false [fd .ro 29 24 0, fd .ro 23 20 0, fd .ro 19 14 0, fd .ro 12 0 0]]

/-- Registers of the FAB_ block, part 3: FAB_IMG_INFO, FAB_IMG_DIGEST, FAB_VLIB_VALID, FAB_VLIB_INV. -/
def regsFab3 : List RegDef := [
  rg 0x10301c 0 1 0 1 false [fd .ro 23 16 0, fd .ro 15 12 0, fd .ro 11 8 0, fd .ro 7 0 0],
  rg 0x103020 4 12 0 1 false [fd .ro 31 0 0],
  rg 0x103050 0 1 0 1 false [fd .ro 15 0 0],
  rg 0x103054 0 1 0 1 false [fd .wo 15 0 0]]

/-- Every register of the FAB_ block. -/
def regsFab : List RegDef :=
  regsFab0 ++ regsFab1 ++ regsFab2 ++ regsFab3

/-- Registers of the PIN_ block, part 0: PIN_CFG, PIN_STATIC, PIN_STAT, PIN_BANK_CTRL, PIN_BANK_STAT, PIN_CMP_HALT, PIN_CMP_CFG, PIN_CMP_CNT, PIN_FF_STAT, PIN_FF_STEP, PIN_FF_FRAME_LO, PIN_FF_FRAME_HI. -/
def regsPin0 : List RegDef := [
  rg 0x300000 16 512 0 1 false [fd .rwl 17 11 0, fd .rwl 9 8 2, fd .rwl 7 7 0, fd .rwl 6 6 0, fd .rwl 5 4 1, ⟨.rwl, 3, 2, 0, false, [(0, 2, 1)]⟩, fd .rwl 1 0 0],
  rg 0x300004 16 512 0 1 false [fd .rwl 1 1 0, fd .rwl 0 0 0],
  rg 0x300008 16 512 0 1 false [⟨.ro, 5, 5, 0, true, []⟩, fd .ro 4 3 0, fd .ro 2 2 0, fd .ro 1 1 0, fd .ro 0 0 0],
  rg 0x302000 16 16 0 1 false [fd .rwl 0 0 0],
  rg 0x302004 16 16 0 1 false [fd .ro 1 1 0, fd .ro 0 0 0],
  rg 0x302008 16 16 0 1 false [fd .rwl 15 0 0],
  rg 0x304000 8 512 0 1 false [fd .rwl 17 17 0, fd .rwl 16 16 0, fd .rwl 15 15 0, fd .rwl 12 8 0, fd .rwl 7 1 0, fd .rwl 0 0 0],
  rg 0x304004 8 512 0 1 false [fd .rc 31 0 0],
  rg 0x303000 32 16 0 1 false [⟨.w1c, 31, 31, 0, true, []⟩, ⟨.ro, 30, 30, 0, true, []⟩, ⟨.ro, 15, 12, 0, true, []⟩, ⟨.ro, 11, 11, 0, true, []⟩, ⟨.ro, 10, 10, 0, true, []⟩, ⟨.ro, 9, 9, 0, true, []⟩, ⟨.ro, 8, 0, 0, true, []⟩],
  rg 0x303004 32 16 0 1 false [⟨.ro, 12, 0, 0, true, []⟩],
  rg 0x303008 32 16 0 1 true [⟨.ro, 31, 0, 0, true, []⟩],
  rg 0x30300c 32 16 0 1 false [⟨.ro, 15, 0, 0, true, []⟩]]

/-- Registers of the PIN_ block, part 1: PIN_FF_TB_LO, PIN_FF_TB_HI, PIN_DCO_CTRL, PIN_DCO_DIV, PIN_DCO_FRAC, PIN_DCO_SSC, PIN_DCO_PROF. -/
def regsPin1 : List RegDef := [
  rg 0x303010 32 16 0 1 true [⟨.ro, 31, 0, 0, true, []⟩],
  rg 0x303014 32 16 0 1 false [⟨.ro, 31, 0, 0, true, []⟩],
  rg 0x306000 32 8 0 1 false [fd .ro 7 7 0, fd .rwl 6 5 1, fd .rwl 4 4 0, fd .rwl 3 3 0, ⟨.rwl, 2, 1, 0, false, [(0, 2, 1)]⟩, fd .rwl 0 0 0],
  rg 0x306004 32 8 0 1 false [⟨.rwl, 19, 13, 0, false, [(80, 127, 1)]⟩, ⟨.rwl, 12, 0, 0, false, [(20, 6400, 1)]⟩],
  rg 0x306008 32 8 0 1 false [fd .rwl 23 0 0],
  rg 0x30600c 32 8 0 1 false [⟨.rwl, 17, 7, 0, false, [(100, 2000, 1)]⟩, ⟨.rwl, 6, 0, 0, false, [(0, 100, 1)]⟩],
  rg 0x307000 128 8 4 32 false [fd .rwl 31 16 0, fd .rwl 15 0 0]]

/-- Every register of the PIN_ block. -/
def regsPin : List RegDef :=
  regsPin0 ++ regsPin1

/-- Registers of the ELA_ block, part 0: ELA_STATUS, ELA_REL_GAP, ELA_REL_CTRL, ELA_REL_RGN, ELA_GCLK_ACT, ELA_LL_CNT, ELA_HUB_OUT, ELA_HUB_OUT_HI, ELA_LL_DIS. -/
def regsEla0 : List RegDef := [
  rg 0x200000 0 1 0 1 false [fd .ro 4 4 0, fd .ro 3 3 1, fd .ro 2 2 0, fd .ro 1 1 0, fd .ro 0 0 0],
  rg 0x200004 0 1 0 1 false [fd .rwl 31 16 0, fd .rwl 15 0 0],
  rg 0x200008 0 1 0 1 false [fd .rwl 0 0 0],
  rg 0x20000c 0 1 0 1 false [fd .ro 15 0 0],
  rg 0x200010 0 1 0 1 false [fd .ro 15 0 0],
  rg 0x200014 0 1 0 1 false [fd .rc 31 0 0],
  rg 0x200020 0 1 0 1 false [fd .ro 31 0 0],
  rg 0x200024 0 1 0 1 false [fd .ro 15 0 0],
  rg 0x200100 4 16 0 1 false [fd .w1c 7 0 0]]

/-- Every register of the ELA_ block. -/
def regsEla : List RegDef :=
  regsEla0

/-- Registers of the CFG_ block, part 0: CFG_STATUS, CFG_LOAD_FRAMES, CFG_LOAD_ERR_FAR, CFG_RGN_STATE, CFG_FUSE, CFG_KEY_STATUS, CFG_KEY0_KCV, CFG_KEY1_KCV, CFG_FLASH, CFG_SPG_CTRL, CFG_SPG_PASS, CFG_SPG_NE_CNT. -/
def regsCfg0 : List RegDef := [
  rg 0x280000 0 1 0 1 false [fd .ro 31 31 0, fd .ro 30 28 0, fd .ro 23 16 0, fd .ro 15 8 0, fd .ro 1 0 0],
  rg 0x280004 0 1 0 1 false [fd .ro 12 0 0],
  rg 0x280008 0 1 0 1 false [fd .ro 12 0 0],
  rg 0x28000c 0 1 0 1 false [fd .ro 31 0 0],
  rg 0x280010 0 1 0 1 false [⟨.ro, 2, 2, 0, true, []⟩, ⟨.ro, 1, 1, 0, true, []⟩, ⟨.ro, 0, 0, 0, true, []⟩],
  rg 0x280014 0 1 0 1 false [⟨.w1c, 3, 3, 0, true, []⟩, ⟨.w1c, 2, 2, 0, true, []⟩, ⟨.ro, 1, 1, 0, true, []⟩, ⟨.ro, 0, 0, 0, true, []⟩],
  rg 0x280018 0 1 0 1 false [⟨.ro, 31, 0, 0, true, []⟩],
  rg 0x28001c 0 1 0 1 false [⟨.ro, 31, 0, 0, true, []⟩],
  rg 0x280020 0 1 0 1 false [fd .ro 1 1 0, fd .ro 0 0 0],
  rg 0x280030 0 1 0 1 false [⟨.rwl, 31, 16, 781, true, [(64, 65535, 1)]⟩, ⟨.rwl, 2, 2, 1, true, []⟩, ⟨.rwl, 1, 1, 0, true, []⟩, ⟨.rwl, 0, 0, 1, true, []⟩],
  rg 0x280034 0 1 0 1 false [⟨.ro, 31, 0, 0, true, []⟩],
  rg 0x280038 0 1 0 1 false [⟨.rc, 31, 0, 0, true, []⟩]]

/-- Registers of the CFG_ block, part 1: CFG_SPG_E_CNT, CFG_SPG_UE_CNT, CFG_SPG_MAP_CNT, CFG_SPG_TMR_CNT, CFG_SPG_POS, CFG_SCP_DROP, CFG_RGN_BLK. -/
def regsCfg1 : List RegDef := [
  rg 0x28003c 0 1 0 1 false [⟨.rc, 31, 0, 0, true, []⟩],
  rg 0x280040 0 1 0 1 false [⟨.rc, 31, 0, 0, true, []⟩],
  rg 0x280044 0 1 0 1 false [⟨.rc, 31, 16, 0, true, []⟩, ⟨.rc, 15, 0, 0, true, []⟩],
  rg 0x280048 0 1 0 1 false [⟨.rc, 31, 0, 0, true, []⟩],
  rg 0x28004c 0 1 0 1 false [fd .ro 12 0 0],
  rg 0x280050 0 1 0 1 false [⟨.rc, 31, 0, 0, true, []⟩],
  rg 0x280100 32 16 4 8 false [fd .ro 31 0 0]]

/-- Every register of the CFG_ block. -/
def regsCfg : List RegDef :=
  regsCfg0 ++ regsCfg1

/-- Registers of the SC_ block, part 0: SC_CTRL, SC_PIN, SC_STATUS, SC_PC, SC_EXC, SC_SEC, SC_TASK, SC_IRQ_PEND. -/
def regsSc0 : List RegDef := [
  rg 0xc0000 4096 64 0 1 false [fd .rwl 0 0 0],
  rg 0xc0004 4096 64 0 1 false [fd .rwl 7 0 0],
  rg 0xc0008 4096 64 0 1 false [fd .ro 23 16 0, fd .ro 15 12 0, fd .ro 9 9 0, fd .ro 8 8 0, fd .ro 7 7 0, fd .ro 6 6 0, fd .ro 5 5 1, fd .ro 4 3 1, fd .ro 2 0 0],
  rg 0xc000c 4096 64 0 1 false [fd .ro 12 0 0],
  rg 0xc0010 4096 64 0 1 false [fd .ro 31 24 0, fd .ro 20 8 0, fd .ro 7 0 0],
  rg 0xc0014 4096 64 0 1 false [fd .ro 15 12 0, fd .ro 11 8 0, fd .ro 7 0 0],
  rg 0xc0018 4096 64 0 1 false [fd .ro 31 0 0],
  rg 0xc001c 4096 64 0 1 false [fd .ro 3 0 0]]

/-- Every register of the SC_ block. -/
def regsSc : List RegDef :=
  regsSc0

/-- Registers of the DSP_ block, part 0: DSP_STATUS, DSP_DTAB, DSP_COT, DSP_XDESC, DSP_CANCEL_REQ, DSP_FLOW, DSP_PROD, DSP_CQ_BASE, DSP_CQ_CFG, DSP_CQ_HEAD, DSP_CQ_TAIL, DSP_CORE_BUSY_LO. -/
def regsDsp0 : List RegDef := [
  rg 0x80000 0 1 0 1 false [fd .ro 14 0 0],
  rg 0x80004 0 1 0 1 false [fd .rwl 31 0 0],
  rg 0x80008 0 1 0 1 false [fd .rwl 31 0 0],
  rg 0x8000c 0 1 0 1 false [⟨.rwl, 15, 0, 65472, false, [(0, 65535, 64)]⟩],
  rg 0x80010 0 1 0 1 false [fd .wo 31 0 0],
  rg 0x81000 4 512 0 1 false [fd .ro 24 16 0, ⟨.rwl, 6, 0, 64, false, [(1, 64, 1)]⟩],
  rg 0x82000 4 352 0 1 false [fd .rwl 31 2 0, fd .rwl 0 0 0],
  rg 0x83000 16 16 0 1 false [fd .rwl 31 0 0],
  rg 0x83004 16 16 0 1 false [⟨.rc, 31, 16, 0, true, []⟩, ⟨.rwl, 3, 0, 0, false, [(4, 15, 1)]⟩],
  rg 0x83008 16 16 0 1 false [fd .rw 14 0 0],
  rg 0x8300c 16 16 0 1 false [fd .ro 14 0 0],
  rg 0x84000 32 64 0 1 true [⟨.ro, 31, 0, 0, true, []⟩]]

/-- Registers of the DSP_ block, part 1: DSP_CORE_BUSY_HI, DSP_CORE_GETW_LO, DSP_CORE_GETW_HI, DSP_CORE_TASKS, DSP_CORE_PMISS, DSP_Q_DEPTH, DSP_Q_HIST, DSP_CNT_CLR. -/
def regsDsp1 : List RegDef := [
  rg 0x84004 32 64 0 1 false [⟨.ro, 31, 0, 0, true, []⟩],
  rg 0x84008 32 64 0 1 true [⟨.ro, 31, 0, 0, true, []⟩],
  rg 0x8400c 32 64 0 1 false [⟨.ro, 31, 0, 0, true, []⟩],
  rg 0x84010 32 64 0 1 false [⟨.ro, 31, 0, 0, true, []⟩],
  rg 0x84014 32 64 0 1 false [⟨.ro, 31, 0, 0, true, []⟩],
  rg 0x88000 128 8 0 1 false [⟨.ro, 31, 16, 0, true, []⟩, fd .ro 15 0 0],
  rg 0x88040 128 8 4 16 false [⟨.ro, 31, 0, 0, true, []⟩],
  rg 0x89000 0 1 0 1 false [fd .wo 0 0 0]]

/-- Every register of the DSP_ block. -/
def regsDsp : List RegDef :=
  regsDsp0 ++ regsDsp1

/-- Registers of the RAD_ block, part 0: RAD_SLOT_CFG, RAD_SLOT_RATE, RAD_SLOT_NCO, RAD_SLOT_RSMP, RAD_SLOT_FE, RAD_SLOT_GAIN, RAD_SLOT_START_LO, RAD_SLOT_START_HI, RAD_SLOT_RXRING, RAD_SLOT_TXRING, RAD_SLOT_RING, RAD_SLOT_STAT. -/
def regsRad0 : List RegDef := [
  rg 0x380000 64 256 0 1 false [fd .rwl 31 31 0, fd .rwl 30 30 0, ⟨.rwl, 29, 28, 0, false, [(0, 2, 1)]⟩, fd .rwl 27 24 0, fd .rwl 23 23 0, fd .rwl 22 19 0, fd .rwl 18 13 0, fd .rwl 12 12 0, fd .rwl 11 8 0, fd .rwl 7 2 0],
  rg 0x380004 64 256 0 1 false [fd .rwl 31 0 0],
  rg 0x380008 64 256 0 1 false [fd .rwl 31 0 0],
  rg 0x38000c 64 256 0 1 false [⟨.rwl, 31, 29, 0, false, [(0, 6, 1)]⟩, ⟨.rwl, 25, 0, 16777216, false, [(8388608, 33554432, 1)]⟩],
  rg 0x380010 64 256 0 1 false [fd .rwl 15 12 15, ⟨.rwl, 11, 8, 5, false, [(4, 12, 1)]⟩],
  rg 0x380014 64 256 0 1 false [fd .rwl 31 16 4096, fd .rwl 15 0 4096],
  rg 0x380018 64 256 0 1 true [fd .rwl 31 0 0],
  rg 0x38001c 64 256 0 1 false [fd .rwl 31 0 0],
  rg 0x380020 64 256 0 1 false [fd .rwl 31 0 0],
  rg 0x380024 64 256 0 1 false [fd .rwl 31 0 0],
  rg 0x380028 64 256 0 1 false [⟨.rwl, 12, 8, 0, false, [(8, 24, 1)]⟩, ⟨.rwl, 4, 0, 0, false, [(8, 24, 1)]⟩],
  rg 0x38002c 64 256 0 1 false [fd .ro 31 31 0, fd .ro 11 0 2048]]

/-- Registers of the RAD_ block, part 1: RAD_SLOT_GD, RAD_SLOT_SAT, RAD_SLOT_UNDER, RAD_SLOT_STALL, RAD_RX_CFG, RAD_RX_DET, RAD_RX_QUAL, RAD_RX_LLR, RAD_RX_OUT, RAD_RX_OUTCFG, RAD_RX_STATUS, RAD_RX_PROF_A. -/
def regsRad1 : List RegDef := [
  rg 0x380030 64 256 0 1 false [fd .ro 19 0 0],
  rg 0x380034 64 256 0 1 false [fd .rc 31 16 0, fd .rc 15 0 0],
  rg 0x380038 64 256 0 1 false [fd .rc 31 0 0],
  rg 0x38003c 64 256 0 1 false [fd .rc 31 0 0],
  rg 0x384000 256 64 0 1 false [fd .rwl 31 31 0, fd .rwl 30 30 1, ⟨.rwl, 29, 26, 1, false, [(1, 8, 1)]⟩, fd .rwl 23 16 0, fd .rwl 15 12 6, ⟨.rwl, 11, 8, 0, false, [(0, 2, 1)]⟩],
  rg 0x384004 256 64 0 1 false [fd .rwl 31 20 3584, fd .rwl 19 8 32, fd .rwl 7 0 48],
  rg 0x384008 256 64 0 1 false [⟨.rwl, 31, 28, 2, false, [(1, 15, 1)]⟩, ⟨.rwl, 27, 20, 16, false, [(1, 255, 1)]⟩, ⟨.rwl, 19, 12, 12, false, [(1, 255, 1)]⟩, ⟨.rwl, 11, 4, 2, false, [(1, 255, 1)]⟩],
  rg 0x38400c 256 64 0 1 false [fd .rwl 4 0 0],
  rg 0x384010 256 64 0 1 false [fd .rwl 31 0 0],
  rg 0x384014 256 64 0 1 false [⟨.rwl, 4, 0, 0, false, [(12, 26, 1)]⟩],
  rg 0x384018 256 64 0 1 false [fd .ro 27 16 0, fd .ro 6 4 0, fd .ro 2 0 0],
  rg 0x384040 256 64 16 8 false [⟨.rwl, 31, 29, 0, false, [(0, 4, 1)]⟩, ⟨.rwl, 28, 27, 0, false, [(0, 2, 1)]⟩, ⟨.rwl, 26, 16, 0, false, [(1, 1024, 1)]⟩, fd .rwl 15 14 0, fd .rwl 11 0 0]]

/-- Registers of the RAD_ block, part 2: RAD_TX_PROF_A, RAD_RX_PROF_B, RAD_TX_PROF_B, RAD_RX_PROF_C, RAD_TX_PROF_C, RAD_RX_PROF_D, RAD_TX_PROF_D, RAD_DOM_CFG, RAD_DOM_PERIOD, RAD_DOM_EPOCH_LO, RAD_DOM_EPOCH_HI, RAD_DOM_NOW. -/
def regsRad2 : List RegDef := [
  rg 0x388010 64 64 0 1 false [⟨.rwl, 31, 29, 0, false, [(0, 4, 1)]⟩, ⟨.rwl, 28, 27, 0, false, [(0, 2, 1)]⟩, ⟨.rwl, 26, 16, 0, false, [(1, 1024, 1)]⟩, fd .rwl 15 14 0, fd .rwl 11 0 0],
  rg 0x384044 256 64 16 8 false [⟨.rwl, 31, 27, 0, false, [(2, 16, 1)]⟩, fd .rwl 26 26 0, ⟨.rwl, 25, 18, 0, false, [(1, 255, 1)]⟩, fd .rwl 17 14 0],
  rg 0x388014 64 64 0 1 false [⟨.rwl, 31, 27, 0, false, [(2, 16, 1)]⟩, fd .rwl 26 26 0, ⟨.rwl, 25, 18, 0, false, [(1, 255, 1)]⟩, fd .rwl 17 14 0],
  rg 0x384048 256 64 16 8 false [fd .rwl 31 0 0],
  rg 0x388018 64 64 0 1 false [fd .rwl 31 0 0],
  rg 0x38404c 256 64 16 8 false [⟨.rwl, 31, 28, 0, false, [(1, 8, 1)]⟩, fd .rwl 27 26 0, fd .rwl 25 16 0, fd .rwl 15 0 0],
  rg 0x38801c 64 64 0 1 false [⟨.rwl, 31, 28, 0, false, [(1, 8, 1)]⟩, fd .rwl 27 26 0, fd .rwl 25 16 0, fd .rwl 15 0 0],
  rg 0x389000 32 16 0 1 false [fd .rwl 31 31 0, ⟨.rwl, 30, 29, 0, false, [(0, 2, 1)]⟩, ⟨.rwl, 28, 26, 0, false, [(0, 4, 1)]⟩, ⟨.rwl, 15, 0, 0, false, [(1, 65535, 1)]⟩],
  rg 0x389004 32 16 0 1 false [⟨.rwl, 31, 0, 0, false, [(1000, 4294967295, 1)]⟩],
  rg 0x389008 32 16 0 1 true [fd .rwl 31 0 0],
  rg 0x38900c 32 16 0 1 false [fd .rwl 31 0 0],
  rg 0x389010 32 16 0 1 false [fd .ro 31 22 0, fd .ro 15 0 0]]

/-- Registers of the RAD_ block, part 3: RAD_TMR_CFG, RAD_TMR_OFS, RAD_TMR_FIRES, RAD_FIR, RAD_TX_CFG, RAD_RX_PKTS, RAD_RX_FALSE, RAD_RX_PREEMPT, RAD_RX_RESTART, RAD_RX_SFDTO, RAD_RX_DROP, RAD_TX_STAT. -/
def regsRad3 : List RegDef := [
  rg 0x389400 16 64 0 1 false [fd .rwl 31 31 0, fd .rwl 30 27 0, ⟨.rwl, 25, 16, 1, false, [(1, 1023, 1)]⟩, fd .rwl 9 0 0],
  rg 0x389404 16 64 0 1 false [fd .rwl 31 0 0],
  rg 0x389408 16 64 0 1 false [fd .ro 31 0 0],
  rg 0x38b000 128 15 4 32 false [fd .rwl 17 0 0],
  rg 0x388000 64 64 0 1 false [fd .rwl 31 31 0, fd .rwl 23 16 0, ⟨.rwl, 11, 8, 0, false, [(0, 2, 1)]⟩],
  rg 0x384020 256 64 0 1 false [fd .rc 31 0 0],
  rg 0x384024 256 64 0 1 false [fd .rc 31 0 0],
  rg 0x384028 256 64 0 1 false [fd .rc 31 0 0],
  rg 0x38402c 256 64 0 1 false [fd .rc 31 0 0],
  rg 0x384030 256 64 0 1 false [fd .rc 31 0 0],
  rg 0x384034 256 64 0 1 false [fd .rc 31 0 0],
  rg 0x388004 64 64 0 1 false [fd .ro 4 0 0]]

/-- Registers of the RAD_ block, part 4: RAD_TX_MISSED, RAD_GLB_LEAD. -/
def regsRad4 : List RegDef := [
  rg 0x388008 64 64 0 1 false [fd .rc 31 0 0],
  rg 0x38a000 0 1 0 1 false [⟨.rwl, 19, 0, 20000, false, [(2000, 1000000, 1)]⟩]]

/-- Every register of the RAD_ block. -/
def regsRad : List RegDef :=
  regsRad0 ++ regsRad1 ++ regsRad2 ++ regsRad3 ++ regsRad4

/-- Registers of the DEC_ block, part 0: DEC_STATUS, DEC_UTAB, DEC_Q, DEC_LDPC_JOBS, DEC_LDPC_UNCONV, DEC_LDPC_ITER_LO, DEC_LDPC_ITER_HI, DEC_TURBO_JOBS, DEC_TURBO_CRCFAIL, DEC_TURBO_ITER_LO, DEC_TURBO_ITER_HI, DEC_ENC_JOBS. -/
def regsDec0 : List RegDef := [
  rg 0x400000 0 1 0 1 false [fd .ro 4 4 0, fd .ro 3 3 0, fd .ro 1 0 0],
  rg 0x400004 0 1 0 1 false [fd .ro 7 0 0],
  rg 0x400100 16 4 0 1 false [⟨.rc, 31, 24, 0, true, []⟩, ⟨.ro, 14, 8, 0, true, []⟩, fd .ro 6 0 0],
  rg 0x400200 0 1 0 1 false [⟨.ro, 31, 0, 0, true, []⟩],
  rg 0x400204 0 1 0 1 false [⟨.ro, 31, 0, 0, true, []⟩],
  rg 0x400208 0 1 0 1 true [⟨.ro, 31, 0, 0, true, []⟩],
  rg 0x40020c 0 1 0 1 false [⟨.ro, 31, 0, 0, true, []⟩],
  rg 0x400210 0 1 0 1 false [⟨.ro, 31, 0, 0, true, []⟩],
  rg 0x400214 0 1 0 1 false [⟨.ro, 31, 0, 0, true, []⟩],
  rg 0x400218 0 1 0 1 true [⟨.ro, 31, 0, 0, true, []⟩],
  rg 0x40021c 0 1 0 1 false [⟨.ro, 31, 0, 0, true, []⟩],
  rg 0x400220 0 1 0 1 false [⟨.ro, 31, 0, 0, true, []⟩]]

/-- Registers of the DEC_ block, part 1: DEC_LATE, DEC_RANGE, DEC_CNT_CLR. -/
def regsDec1 : List RegDef := [
  rg 0x400224 0 1 0 1 false [⟨.ro, 31, 0, 0, true, []⟩],
  rg 0x400228 0 1 0 1 false [⟨.ro, 31, 0, 0, true, []⟩],
  rg 0x400230 0 1 0 1 false [fd .wo 0 0 0]]

/-- Every register of the DEC_ block. -/
def regsDec : List RegDef :=
  regsDec0 ++ regsDec1

/-- Registers of the CAP_ block, part 0: CAP_CH_SRC, CAP_CH_SEL_LO, CAP_CH_SEL_HI, CAP_CH_BASE, CAP_CH_SEGLEN, CAP_CH_NSEG, CAP_CH_PRE, CAP_CH_POST, CAP_CH_MODE, CAP_RED_FIELD, CAP_RED_DEC, CAP_RED_LO. -/
def regsCap0 : List RegDef := [
  rg 0x440000 256 16 0 1 false [⟨.rwl, 31, 28, 0, false, [(0, 4, 1)]⟩, fd .rwl 27 26 0, fd .rwl 25 16 0, fd .rwl 15 0 0],
  rg 0x440004 256 16 0 1 true [fd .rwl 31 0 0],
  rg 0x440008 256 16 0 1 false [fd .rwl 31 0 0],
  rg 0x44000c 256 16 0 1 false [fd .rwl 31 0 0],
  rg 0x440010 256 16 0 1 false [⟨.rwl, 31, 0, 0, false, [(1, 4294967295, 1)]⟩],
  rg 0x440014 256 16 0 1 false [fd .rwl 15 0 0],
  rg 0x440018 256 16 0 1 false [fd .rwl 31 0 0],
  rg 0x44001c 256 16 0 1 false [fd .rwl 31 0 1],
  rg 0x440020 256 16 0 1 false [fd .rwl 7 7 0, fd .rwl 6 6 0, fd .rwl 5 5 1, fd .rwl 4 4 0, fd .rwl 3 2 0, fd .rwl 0 0 1],
  rg 0x440024 256 16 0 1 false [fd .rwl 31 31 0, fd .rwl 30 30 0, fd .rwl 29 29 0, fd .rwl 16 15 0, fd .rwl 12 0 0],
  rg 0x440028 256 16 0 1 false [⟨.rwl, 31, 27, 8, false, [(8, 24, 1)]⟩, ⟨.rwl, 24, 0, 2, false, [(2, 16777216, 1)]⟩],
  rg 0x44002c 256 16 0 1 false [fd .rwl 31 0 0]]

/-- Registers of the CAP_ block, part 1: CAP_RED_SCALE, CAP_RED_SWEEP, CAP_RED_DECAY, CAP_RED_DST, CAP_RED_OFS, CAP_CH_STAT, CAP_CH_DONE, CAP_CH_LOST, CAP_CH_DEAD_MIN, CAP_CH_DEAD_MAX, CAP_CH_DEAD_LAST, CAP_CH_LASTGOOD_LO. -/
def regsCap1 : List RegDef := [
  rg 0x440030 256 16 0 1 false [⟨.rwl, 4, 0, 0, false, [(0, 20, 1)]⟩],
  rg 0x440034 256 16 0 1 false [fd .rwl 31 0 1024],
  rg 0x440038 256 16 0 1 false [⟨.rwl, 31, 16, 1, false, [(1, 65535, 1)]⟩, fd .rwl 3 0 0],
  rg 0x44003c 256 16 0 1 false [fd .rwl 31 31 0, ⟨.rwl, 6, 0, 0, false, [(0, 63, 1)]⟩],
  rg 0x440040 256 16 0 1 false [⟨.rwl, 31, 0, 0, false, [(0, 4294967295, 64)]⟩],
  rg 0x440060 256 16 0 1 false [fd .ro 31 29 0, fd .ro 28 27 0, fd .ro 26 26 0, fd .ro 25 25 0, fd .ro 15 0 0],
  rg 0x440064 256 16 0 1 false [fd .ro 31 0 0],
  rg 0x440068 256 16 0 1 false [fd .rc 31 0 0],
  rg 0x44006c 256 16 0 1 false [fd .ro 31 0 4294967295],
  rg 0x440070 256 16 0 1 false [fd .ro 31 0 0],
  rg 0x440074 256 16 0 1 false [fd .ro 31 0 0],
  rg 0x440078 256 16 0 1 true [fd .ro 31 0 0]]

/-- Registers of the CAP_ block, part 2: CAP_CH_LASTGOOD_HI, CAP_STG_CFG, CAP_STG_N, CAP_STG_A, CAP_STG_B, CAP_STG_TO, CAP_GLB_PART, CAP_GLB_RATE, CAP_FORCE. -/
def regsCap2 : List RegDef := [
  rg 0x44007c 256 16 0 1 false [fd .ro 31 0 0],
  rg 0x440080 256 16 32 4 false [fd .rwl 31 31 0, ⟨.rwl, 30, 27, 0, false, [(0, 10, 1)]⟩, fd .rwl 24 22 0, fd .rwl 20 13 0, fd .rwl 12 0 0],
  rg 0x440084 256 16 32 4 false [⟨.rwl, 31, 0, 1, false, [(1, 4294967295, 1)]⟩],
  rg 0x440088 256 16 32 4 false [fd .rwl 31 0 0],
  rg 0x44008c 256 16 32 4 false [fd .rwl 31 0 0],
  rg 0x440090 256 16 32 4 false [fd .rwl 31 0 0],
  rg 0x441000 0 1 0 1 false [fd .rwl 3 0 0],
  rg 0x441004 0 1 0 1 false [fd .ro 31 0 0],
  rg 0x441008 0 1 0 1 false [fd .wo 15 0 0]]

/-- Every register of the CAP_ block. -/
def regsCap : List RegDef :=
  regsCap0 ++ regsCap1 ++ regsCap2

/-- Registers of the MEM_ block, part 0: MEM_BANK_CFG, MEM_BANK_STAT, MEM_BANK_FF, MEM_BANK_FF_REQ, MEM_TRK_MISS, MEM_BANK_CE_LO, MEM_BANK_CE_HI, MEM_BANK_UE, MEM_BANK_VIOL, MEM_REMAP, MEM_KILN_STAT, MEM_KILN_RES. -/
def regsMem0 : List RegDef := [
  rg 0x40000 32 64 0 1 false [fd .rwl 31 31 1, fd .rwl 15 0 32768],
  rg 0x40004 32 64 0 1 false [fd .ro 31 29 0, fd .ro 20 16 0, fd .ro 15 0 32768],
  rg 0x40008 32 64 0 1 false [⟨.w1c, 31, 31, 0, true, []⟩, ⟨.ro, 30, 30, 0, true, []⟩, ⟨.ro, 17, 0, 0, true, []⟩],
  rg 0x4000c 32 64 0 1 false [⟨.ro, 15, 0, 0, true, []⟩],
  rg 0x40010 32 64 0 1 false [⟨.rc, 31, 0, 0, true, []⟩],
  rg 0x41000 16 64 0 1 true [⟨.ro, 31, 0, 0, true, []⟩],
  rg 0x41004 16 64 0 1 false [⟨.ro, 31, 0, 0, true, []⟩],
  rg 0x41008 16 64 0 1 false [⟨.rc, 31, 0, 0, true, []⟩],
  rg 0x4100c 16 64 0 1 false [⟨.rc, 31, 0, 0, true, []⟩],
  rg 0x42000 64 64 4 16 false [⟨.rw, 31, 31, 0, true, []⟩, ⟨.rw, 30, 30, 0, true, []⟩, ⟨.rw, 17, 0, 0, true, []⟩],
  rg 0x43000 0 1 0 1 false [fd .ro 31 31 1],
  rg 0x43100 4 64 0 1 false [fd .ro 31 30 0, fd .ro 7 0 0]]

/-- Registers of the MEM_ block, part 1: MEM_PART_CFG, MEM_PART_OWN, MEM_PART_VIOL, MEM_HBM_STAT, MEM_HBM_CE, MEM_HBM_UE, MEM_POOL_CFG, MEM_POOL_BASE, MEM_POOL_FREE, MEM_POOL_MIN, MEM_POOL_FAIL, MEM_POOL_BAD. -/
def regsMem1 : List RegDef := [
  rg 0x44000 16 16 0 1 false [fd .rwl 31 31 0, ⟨.rwl, 25, 16, 0, false, [(1, 512, 1)]⟩, fd .rwl 8 0 0],
  rg 0x44004 16 16 0 1 false [fd .rwl 24 0 0],
  rg 0x44008 16 16 0 1 false [⟨.rc, 31, 0, 0, true, []⟩],
  rg 0x44200 0 1 0 1 false [fd .ro 1 0 0],
  rg 0x44204 8 2 0 1 false [⟨.rc, 31, 0, 0, true, []⟩],
  rg 0x44208 8 2 0 1 false [⟨.rc, 31, 0, 0, true, []⟩],
  rg 0x45000 32 8 0 1 false [fd .rwl 31 31 0, fd .rwl 30 30 0, ⟨.rwl, 16, 0, 0, false, [(1, 65536, 1)]⟩],
  rg 0x45004 32 8 0 1 false [fd .rwl 31 0 0],
  rg 0x45008 32 8 0 1 false [fd .ro 16 0 0],
  rg 0x4500c 32 8 0 1 false [fd .ro 16 0 0],
  rg 0x45010 32 8 0 1 false [⟨.rc, 31, 0, 0, true, []⟩],
  rg 0x45014 32 8 0 1 false [⟨.rc, 31, 0, 0, true, []⟩]]

/-- Registers of the MEM_ block, part 2: MEM_TRK_CFG. -/
def regsMem2 : List RegDef := [
  rg 0x46000 0 1 0 1 false [⟨.rwl, 19, 4, 1000, false, [(1, 65535, 1)]⟩, ⟨.rwl, 3, 0, 4, false, [(1, 15, 1)]⟩]]

/-- Every register of the MEM_ block. -/
def regsMem : List RegDef :=
  regsMem0 ++ regsMem1 ++ regsMem2

/-- Registers of the LNK_ block, part 0: LNK_CFG, LNK_TMO, LNK_STAT, LNK_PARTNER, LNK_RTT, LNK_CRC_ERR, LNK_REPLAYS, LNK_RETRAINS, LNK_TX_FLITS_LO, LNK_TX_FLITS_HI, LNK_RX_FLITS_LO, LNK_RX_FLITS_HI. -/
def regsLnk0 : List RegDef := [
  rg 0x480000 256 16 0 1 false [fd .rwl 31 31 1, ⟨.rwl, 30, 28, 0, false, [(0, 3, 1)]⟩, ⟨.rwl, 27, 24, 5, false, [(0, 10, 1)]⟩, ⟨.rwl, 23, 16, 0, false, [(0, 0, 1), (4, 255, 1)]⟩, fd .rwl 15 8 0],
  rg 0x480004 256 16 0 1 false [⟨.rwl, 31, 16, 2000, false, [(100, 65535, 1)]⟩, ⟨.rwl, 15, 8, 4, false, [(1, 255, 1)]⟩, ⟨.rwl, 7, 0, 10, false, [(1, 255, 1)]⟩],
  rg 0x480008 256 16 0 1 false [fd .ro 31 29 0, fd .ro 28 27 0, fd .ro 26 25 0, fd .ro 24 22 0, fd .ro 21 18 0, fd .ro 17 17 0, fd .ro 13 7 0, fd .ro 6 0 0],
  rg 0x48000c 256 16 0 1 false [fd .ro 31 0 0],
  rg 0x480010 256 16 0 1 false [fd .ro 15 0 0],
  rg 0x480014 256 16 0 1 false [⟨.rc, 31, 0, 0, true, []⟩],
  rg 0x480018 256 16 0 1 false [⟨.rc, 31, 0, 0, true, []⟩],
  rg 0x48001c 256 16 0 1 false [⟨.rc, 31, 0, 0, true, []⟩],
  rg 0x480020 256 16 0 1 true [⟨.ro, 31, 0, 0, true, []⟩],
  rg 0x480024 256 16 0 1 false [⟨.ro, 31, 0, 0, true, []⟩],
  rg 0x480028 256 16 0 1 true [⟨.ro, 31, 0, 0, true, []⟩],
  rg 0x48002c 256 16 0 1 false [⟨.ro, 31, 0, 0, true, []⟩]]

/-- Registers of the LNK_ block, part 1: LNK_RX_BAD, LNK_MSG_DROP, LNK_POISON_TX, LNK_MRX_BASE, LNK_MTX_BASE, LNK_MRING, LNK_GW_CFG, LNK_GW_STAT, LNK_GW_OVF. -/
def regsLnk1 : List RegDef := [
  rg 0x480030 256 16 0 1 false [⟨.rc, 31, 16, 0, true, []⟩, ⟨.rc, 15, 0, 0, true, []⟩],
  rg 0x480034 256 16 0 1 false [⟨.rc, 31, 0, 0, true, []⟩],
  rg 0x480038 256 16 0 1 false [⟨.rc, 31, 0, 0, true, []⟩],
  rg 0x480040 256 16 0 1 false [fd .rwl 31 0 0],
  rg 0x480044 256 16 0 1 false [fd .rwl 31 0 0],
  rg 0x480048 256 16 0 1 false [⟨.rwl, 12, 8, 0, false, [(0, 0, 1), (4, 20, 1)]⟩, ⟨.rwl, 4, 0, 0, false, [(0, 0, 1), (4, 20, 1)]⟩],
  rg 0x482000 16 16 0 1 false [fd .rwl 31 31 0, fd .rwl 19 16 0, fd .rwl 5 0 0],
  rg 0x482004 16 16 0 1 false [fd .ro 22 16 0, fd .ro 6 0 0],
  rg 0x482008 16 16 0 1 false [⟨.rc, 31, 0, 0, true, []⟩]]

/-- Every register of the LNK_ block. -/
def regsLnk : List RegDef :=
  regsLnk0 ++ regsLnk1

/-- Registers of the HST_ block, part 0: HST_SQ_BASE_LO, HST_SQ_BASE_HI, HST_CQ_BASE_LO, HST_CQ_BASE_HI, HST_RING_CFG, HST_RING_STAT, HST_RING_CQ, HST_RING_HELD, HST_STATUS, HST_CTRL, HST_PORT_ERR, HST_WIN. -/
def regsHst0 : List RegDef := [
  rg 0x21000 32 256 0 1 true [fd .rw 31 0 0],
  rg 0x21004 32 256 0 1 false [fd .rw 31 0 0],
  rg 0x21008 32 256 0 1 true [fd .rw 31 0 0],
  rg 0x2100c 32 256 0 1 false [fd .rw 31 0 0],
  rg 0x21010 32 256 0 1 false [fd .rw 31 31 0, fd .rw 30 30 0, ⟨.rw, 29, 26, 4, false, [(4, 14, 1)]⟩, ⟨.rw, 25, 22, 4, false, [(4, 15, 1)]⟩, fd .rw 21 15 0, fd .rw 14 11 0, fd .rw 10 0 0],
  rg 0x21014 32 256 0 1 false [fd .ro 31 30 0, fd .ro 29 16 0, fd .ro 15 0 0],
  rg 0x21018 32 256 0 1 false [fd .ro 31 16 0, fd .ro 15 0 0],
  rg 0x2101c 32 256 0 1 false [fd .ro 15 0 0],
  rg 0x20000 0 1 0 1 false [fd .ro 3 3 0, fd .ro 2 2 0, fd .ro 1 0 0],
  rg 0x20004 0 1 0 1 false [fd .wo 0 0 0],
  rg 0x20040 4 2 0 1 false [fd .rc 31 16 0, fd .rc 15 0 0],
  rg 0x20080 8 2 0 1 false [fd .rw 15 0 0]]

/-- Registers of the HST_ block, part 1: HST_EVT_BASE_LO, HST_EVT_BASE_HI, HST_EVT_CFG, HST_EVT_PTR, HST_SEM, HST_SEM_OWNER, HST_SEM_REL, HST_STG_STATUS, HST_STG_COUNT, HST_MSIX, HST_MSIX_PBA. -/
def regsHst1 : List RegDef := [
  rg 0x20100 32 2 0 1 true [fd .rw 31 0 0],
  rg 0x20104 32 2 0 1 false [fd .rw 31 0 0],
  rg 0x20108 32 2 0 1 false [⟨.rw, 26, 23, 4, false, [(4, 15, 1)]⟩, fd .rw 22 19 0, fd .rw 18 8 0],
  rg 0x2010c 32 2 0 1 false [fd .ro 31 16 0, fd .ro 15 0 0],
  rg 0x20400 8 32 0 1 false [fd .rc 0 0 1],
  rg 0x20404 8 32 0 1 false [fd .ro 17 16 0, fd .rw 15 0 0],
  rg 0x20500 4 32 0 1 false [fd .wo 0 0 0],
  rg 0x20600 0 1 0 1 false [fd .ro 31 31 0, fd .ro 28 28 0, fd .ro 27 20 0, fd .ro 11 0 0],
  rg 0x20604 0 1 0 1 false [fd .ro 12 0 0],
  rg 0x30000 4096 2 4 512 false [fd .rw 31 0 0],
  rg 0x38000 16 2 4 4 false [fd .ro 31 0 0]]

/-- Every register of the HST_ block. -/
def regsHst : List RegDef :=
  regsHst0 ++ regsHst1

/-- Registers of the CLK_ block, part 0: CLK_STATUS, CLK_STRAP, CLK_NME, CLK_MON, CLK_RST_CTRL, CLK_RST_CAUSE, CLK_PWR_CTRL, CLK_PWR_CAP, CLK_PWR_STAT, CLK_TEMP, CLK_GATE_STAT, CLK_GATE_BANK_LO. -/
def regsClk0 : List RegDef := [
  rg 0x10000 0 1 0 1 false [⟨.ro, 10, 9, 0, true, []⟩, ⟨.w1c, 8, 8, 0, true, []⟩, ⟨.ro, 7, 7, 0, true, []⟩, ⟨.ro, 6, 6, 0, true, []⟩, ⟨.ro, 5, 5, 0, true, []⟩, ⟨.ro, 4, 4, 0, true, []⟩, ⟨.ro, 2, 2, 0, true, []⟩, ⟨.ro, 1, 1, 0, true, []⟩, ⟨.ro, 0, 0, 0, true, []⟩],
  rg 0x10004 0 1 0 1 false [⟨.ro, 2, 0, 0, true, []⟩],
  rg 0x10008 0 1 0 1 false [⟨.w1c, 1, 1, 0, true, []⟩, ⟨.w1c, 0, 0, 0, true, []⟩],
  rg 0x1000c 0 1 0 1 false [⟨.ro, 26, 16, 0, true, []⟩, ⟨.ro, 10, 0, 0, true, []⟩],
  rg 0x10010 0 1 0 1 false [fd .wo 0 0 0],
  rg 0x10014 0 1 0 1 false [⟨.ro, 2, 0, 0, true, []⟩],
  rg 0x10020 0 1 0 1 false [⟨.rwl, 0, 0, 0, true, []⟩],
  rg 0x10024 0 1 0 1 false [⟨.rwl, 15, 8, 4, true, [(4, 16, 1)]⟩, ⟨.rwl, 7, 0, 160, true, [(60, 160, 1)]⟩],
  rg 0x10028 0 1 0 1 false [⟨.ro, 31, 16, 0, true, []⟩, ⟨.ro, 15, 14, 0, true, []⟩, ⟨.ro, 4, 0, 16, true, []⟩],
  rg 0x1002c 0 1 0 1 false [⟨.rw, 31, 24, 100, true, []⟩, ⟨.ro, 15, 0, 0, true, []⟩],
  rg 0x10030 0 1 0 1 false [⟨.ro, 31, 24, 0, true, []⟩, ⟨.rc, 23, 16, 0, true, []⟩, ⟨.rc, 15, 0, 0, true, []⟩],
  rg 0x10034 0 1 0 1 true [⟨.ro, 31, 0, 0, true, []⟩]]

/-- Registers of the CLK_ block, part 1: CLK_GATE_BANK_HI, CLK_DOM_CFG. -/
def regsClk1 : List RegDef := [
  rg 0x10038 0 1 0 1 false [⟨.ro, 31, 0, 0, true, []⟩],
  rg 0x10100 0 1 0 1 false [⟨.ro, 30, 30, 0, true, []⟩, ⟨.rwl, 15, 0, 0, true, []⟩],
  rg 0x10104 0 1 0 1 false [⟨.ro, 30, 30, 0, true, []⟩, ⟨.rwl, 15, 0, 48, true, []⟩],
  rg 0x10108 0 1 0 1 false [⟨.ro, 30, 30, 0, true, []⟩, ⟨.rwl, 15, 0, 50, true, []⟩],
  rg 0x1010c 0 1 0 1 false [⟨.rwl, 31, 31, 1, true, []⟩, ⟨.ro, 30, 30, 0, true, []⟩, ⟨.rwl, 15, 0, 800, true, []⟩],
  rg 0x10110 0 1 0 1 false [⟨.rwl, 31, 31, 1, true, []⟩, ⟨.ro, 30, 30, 0, true, []⟩, ⟨.rwl, 15, 0, 1600, true, []⟩],
  rg 0x10114 0 1 0 1 false [⟨.rwl, 31, 31, 1, true, []⟩, ⟨.ro, 30, 30, 0, true, []⟩, ⟨.rwl, 15, 0, 1600, true, []⟩],
  rg 0x10118 0 1 0 1 false [⟨.rwl, 31, 31, 1, true, []⟩, ⟨.ro, 30, 30, 0, true, []⟩, ⟨.rwl, 15, 0, 1600, true, []⟩],
  rg 0x1011c 0 1 0 1 false [⟨.rwl, 31, 31, 1, true, []⟩, ⟨.ro, 30, 30, 0, true, []⟩, ⟨.rwl, 15, 0, 1600, true, []⟩],
  rg 0x10120 0 1 0 1 false [⟨.rwl, 31, 31, 1, true, []⟩, ⟨.ro, 30, 30, 0, true, []⟩, ⟨.rwl, 15, 0, 1600, true, []⟩],
  rg 0x10124 0 1 0 1 false [⟨.rwl, 31, 31, 1, true, []⟩, ⟨.ro, 30, 30, 0, true, []⟩, ⟨.rwl, 15, 0, 1000, true, []⟩],
  rg 0x10128 0 1 0 1 false [⟨.rwl, 31, 31, 1, true, []⟩, ⟨.ro, 30, 30, 0, true, []⟩, ⟨.rwl, 15, 0, 1200, true, []⟩]]

/-- Registers of the CLK_ block, part 2: CLK_DOM_CFG. -/
def regsClk2 : List RegDef := [
  rg 0x1012c 0 1 0 1 false [⟨.rwl, 31, 31, 1, true, []⟩, ⟨.ro, 30, 30, 0, true, []⟩, ⟨.rwl, 15, 0, 1250, true, []⟩],
  rg 0x10130 0 1 0 1 false [⟨.rwl, 31, 31, 1, true, []⟩, ⟨.ro, 30, 30, 0, true, []⟩, ⟨.rwl, 15, 0, 1200, true, []⟩],
  rg 0x10134 0 1 0 1 false [⟨.rwl, 31, 31, 1, true, []⟩, ⟨.ro, 30, 30, 0, true, []⟩, ⟨.rwl, 15, 0, 1200, true, []⟩],
  rg 0x10138 0 1 0 1 false [⟨.rwl, 31, 31, 1, true, []⟩, ⟨.ro, 30, 30, 0, true, []⟩, ⟨.rwl, 15, 0, 1200, true, []⟩],
  rg 0x1013c 0 1 0 1 false [⟨.rwl, 31, 31, 1, true, []⟩, ⟨.ro, 30, 30, 0, true, []⟩, ⟨.rwl, 15, 0, 1200, true, []⟩],
  rg 0x10140 0 1 0 1 false [⟨.rwl, 31, 31, 1, true, []⟩, ⟨.ro, 30, 30, 0, true, []⟩, ⟨.rwl, 15, 0, 400, true, []⟩],
  rg 0x10144 0 1 0 1 false [⟨.rwl, 31, 31, 1, true, []⟩, ⟨.ro, 30, 30, 0, true, []⟩, ⟨.rwl, 15, 0, 0, true, []⟩],
  rg 0x10148 0 1 0 1 false [⟨.rwl, 31, 31, 1, true, []⟩, ⟨.ro, 30, 30, 0, true, []⟩, ⟨.rwl, 15, 0, 800, true, []⟩],
  rg 0x1014c 0 1 0 1 false [⟨.rwl, 31, 31, 1, true, []⟩, ⟨.ro, 30, 30, 0, true, []⟩, ⟨.rwl, 15, 0, 800, true, []⟩],
  rg 0x10150 0 1 0 1 false [⟨.ro, 30, 30, 0, true, []⟩, ⟨.rwl, 15, 0, 28125, true, []⟩],
  rg 0x10154 0 1 0 1 false [⟨.ro, 30, 30, 0, true, []⟩, ⟨.rwl, 15, 0, 0, true, []⟩],
  rg 0x10158 0 1 0 1 false [⟨.ro, 30, 30, 0, true, []⟩, ⟨.rwl, 15, 0, 0, true, []⟩]]

/-- Registers of the CLK_ block, part 3: CLK_DOM_CFG, CLK_TBP_CFG, CLK_TBP_PERIOD, CLK_TBP_PHASE_LO, CLK_TBP_PHASE_HI. -/
def regsClk3 : List RegDef := [
  rg 0x1015c 0 1 0 1 false [⟨.ro, 30, 30, 0, true, []⟩, ⟨.rwl, 15, 0, 0, true, []⟩],
  rg 0x10160 0 1 0 1 false [⟨.rwl, 31, 31, 1, true, []⟩, ⟨.ro, 30, 30, 0, true, []⟩, ⟨.rwl, 15, 0, 600, true, []⟩],
  rg 0x10200 16 4 0 1 false [⟨.rwl, 31, 31, 0, true, []⟩],
  rg 0x10204 16 4 0 1 false [⟨.rwl, 31, 0, 16, true, [(16, 4294967295, 1)]⟩],
  rg 0x10208 16 4 0 1 true [⟨.rwl, 31, 0, 0, true, []⟩],
  rg 0x1020c 16 4 0 1 false [⟨.rwl, 31, 0, 0, true, []⟩]]

/-- Every register of the CLK_ block. -/
def regsClk : List RegDef :=
  regsClk0 ++ regsClk1 ++ regsClk2 ++ regsClk3

/-- Registers of the PAIR_ block, part 0: PAIR_CFG, PAIR_LAG, PAIR_PINS, PAIR_GW, PAIR_TMO, PAIR_RING, PAIR_CASK_CFG, PAIR_CASK_RNG, PAIR_CASK_RNG_LEN, PAIR_STAT, PAIR_TB_OFS_LO, PAIR_TB_OFS_HI. -/
def regsPair0 : List RegDef := [
  rg 0x4c0000 0 1 0 1 false [fd .rwl 31 31 0, fd .rwl 30 30 0, fd .rwl 29 29 1, fd .rwl 3 0 0],
  rg 0x4c0004 0 1 0 1 false [⟨.rwl, 19, 0, 2048, false, [(256, 1048575, 1)]⟩],
  rg 0x4c0008 0 1 0 1 false [fd .rwl 15 0 0],
  rg 0x4c000c 0 1 0 1 false [fd .rwl 15 0 0],
  rg 0x4c0010 0 1 0 1 false [⟨.rwl, 31, 16, 1000, false, [(100, 2000, 1)]⟩, ⟨.rwl, 15, 0, 10, false, [(2, 1000, 1)]⟩],
  rg 0x4c0014 0 1 0 1 false [fd .rwl 31 5 0, ⟨.rwl, 4, 0, 0, false, [(0, 0, 1), (16, 31, 1)]⟩],
  rg 0x4c0018 0 1 0 1 false [fd .rwl 31 31 0, ⟨.rwl, 30, 16, 1024, false, [(1, 32767, 1)]⟩, fd .rwl 15 0 0],
  rg 0x4c0020 8 4 0 1 false [fd .rwl 31 0 0],
  rg 0x4c0024 8 4 0 1 false [fd .rwl 12 0 0],
  rg 0x4c0040 0 1 0 1 false [fd .ro 31 29 0, fd .ro 28 28 0, fd .ro 27 27 0, fd .ro 26 26 0],
  rg 0x4c0044 0 1 0 1 true [fd .ro 31 0 0],
  rg 0x4c0048 0 1 0 1 false [fd .ro 31 0 0]]

/-- Registers of the PAIR_ block, part 1: PAIR_SLACK, PAIR_RATE, PAIR_DIVERGE, PAIR_CASK_Q_LO, PAIR_CASK_Q_HI. -/
def regsPair1 : List RegDef := [
  rg 0x4c004c 0 1 0 1 false [fd .ro 31 0 4294967295],
  rg 0x4c0050 0 1 0 1 false [fd .ro 15 0 0],
  rg 0x4c0054 0 1 0 1 false [fd .rc 31 0 0],
  rg 0x4c0058 0 1 0 1 true [fd .ro 31 0 0],
  rg 0x4c005c 0 1 0 1 false [fd .ro 31 0 0]]

/-- Every register of the PAIR_ block. -/
def regsPair : List RegDef :=
  regsPair0 ++ regsPair1

/-- Registers of the SEC_ block, part 0: SEC_BOOT, SEC_FUSE_STAT, SEC_CTRL, SEC_BOOT_NONCE_LO, SEC_BOOT_NONCE_HI, SEC_ID_HASH, SEC_CODE_COUNT, SEC_TRC_AUTH, SEC_TRC_AUTH_NA_LO, SEC_TRC_AUTH_NA_HI, SEC_AUTH_FAILS. -/
def regsSec0 : List RegDef := [
  rg 0x4e0000 0 1 0 1 false [fd .ro 31 30 0, fd .ro 23 16 0, fd .ro 15 8 0, ⟨.ro, 7, 0, 0, true, []⟩],
  rg 0x4e0004 0 1 0 1 false [⟨.ro, 14, 11, 0, true, []⟩, ⟨.ro, 10, 7, 0, true, []⟩, ⟨.ro, 6, 6, 0, true, []⟩, ⟨.ro, 5, 5, 0, true, []⟩, ⟨.ro, 4, 4, 0, true, []⟩, ⟨.ro, 3, 3, 0, true, []⟩, ⟨.ro, 2, 2, 0, true, []⟩, ⟨.ro, 1, 1, 0, true, []⟩, ⟨.ro, 0, 0, 0, true, []⟩],
  rg 0x4e0008 0 1 0 1 false [fd .rwl 0 0 0],
  rg 0x4e0010 0 1 0 1 true [⟨.ro, 31, 0, 0, true, []⟩],
  rg 0x4e0014 0 1 0 1 false [⟨.ro, 31, 0, 0, true, []⟩],
  rg 0x4e0040 4 12 0 1 false [⟨.ro, 31, 0, 0, true, []⟩],
  rg 0x4e0080 0 1 0 1 false [fd .ro 31 0 0],
  rg 0x4e0084 0 1 0 1 false [fd .ro 31 31 0, fd .ro 1 0 0],
  rg 0x4e0088 0 1 0 1 true [fd .ro 31 0 0],
  rg 0x4e008c 0 1 0 1 false [fd .ro 31 0 0],
  rg 0x4e0090 0 1 0 1 false [fd .rc 31 0 0]]

/-- Every register of the SEC_ block. -/
def regsSec : List RegDef :=
  regsSec0

/-- Registers of the TRC_ block, part 0: TRC_CTRL, TRC_CORES_LO, TRC_CORES_HI, TRC_DATA_LO, TRC_DATA_HI, TRC_BUF_BASE, TRC_BUF_SIZE, TRC_WPTR_LO, TRC_WPTR_HI, TRC_STAT, TRC_LOST. -/
def regsTrc0 : List RegDef := [
  rg 0x4f0000 0 1 0 1 false [fd .rw 31 31 0, fd .rw 30 30 0, fd .rw 29 29 1, fd .rw 28 28 0],
  rg 0x4f0004 0 1 0 1 true [fd .rw 31 0 0],
  rg 0x4f0008 0 1 0 1 false [fd .rw 31 0 0],
  rg 0x4f000c 0 1 0 1 true [fd .rw 31 0 0],
  rg 0x4f0010 0 1 0 1 false [fd .rw 31 0 0],
  rg 0x4f0014 0 1 0 1 false [fd .rw 31 0 0],
  rg 0x4f0018 0 1 0 1 false [⟨.rw, 4, 0, 12, false, [(12, 31, 1)]⟩],
  rg 0x4f0020 0 1 0 1 true [fd .ro 31 0 0],
  rg 0x4f0024 0 1 0 1 false [fd .ro 31 0 0],
  rg 0x4f0028 0 1 0 1 false [fd .ro 31 31 0, fd .ro 0 0 0],
  rg 0x4f0100 4 65 0 1 false [fd .rc 31 0 0]]

/-- Every register of the TRC_ block. -/
def regsTrc : List RegDef :=
  regsTrc0

/-- The register rows of the BAR0 block that holds an offset (Table ORG-5). -/
def regBlock (off : Nat) : List RegDef :=
  if off < 0x10000 then regsGlb else
  if off < 0x20000 then regsClk else
  if off < 0x40000 then regsHst else
  if off < 0x80000 then regsMem else
  if off < 0xc0000 then regsDsp else
  if off < 0x100000 then regsSc else
  if off < 0x200000 then regsFab else
  if off < 0x280000 then regsEla else
  if off < 0x300000 then regsCfg else
  if off < 0x380000 then regsPin else
  if off < 0x400000 then regsRad else
  if off < 0x440000 then regsDec else
  if off < 0x480000 then regsCap else
  if off < 0x4c0000 then regsLnk else
  if off < 0x4e0000 then regsPair else
  if off < 0x4f0000 then regsSec else
  if off < 0x500000 then regsTrc else
  []

namespace F

/-- `CAP_CH_BASE.BASE` (13_capture_engine.md). -/
def CAP_CH_BASE.BASE : Field := ⟨0x44000c, 256, 0, 31, 0⟩
/-- `CAP_CH_DEAD_LAST.TICKS` (13_capture_engine.md). -/
def CAP_CH_DEAD_LAST.TICKS : Field := ⟨0x440074, 256, 0, 31, 0⟩
/-- `CAP_CH_DEAD_MAX.TICKS` (13_capture_engine.md). -/
def CAP_CH_DEAD_MAX.TICKS : Field := ⟨0x440070, 256, 0, 31, 0⟩
/-- `CAP_CH_DEAD_MIN.TICKS` (13_capture_engine.md). -/
def CAP_CH_DEAD_MIN.TICKS : Field := ⟨0x44006c, 256, 0, 31, 0⟩
/-- `CAP_CH_DONE.COUNT` (13_capture_engine.md). -/
def CAP_CH_DONE.COUNT : Field := ⟨0x440064, 256, 0, 31, 0⟩
/-- `CAP_CH_LASTGOOD_LO.INDEX` (13_capture_engine.md). -/
def CAP_CH_LASTGOOD_LO.INDEX : Field := ⟨0x440078, 256, 0, 31, 0⟩
/-- `CAP_CH_LOST.COUNT` (13_capture_engine.md). -/
def CAP_CH_LOST.COUNT : Field := ⟨0x440068, 256, 0, 31, 0⟩
/-- `CAP_CH_MODE.EVT` (13_capture_engine.md). -/
def CAP_CH_MODE.EVT : Field := ⟨0x440020, 256, 0, 6, 6⟩
/-- `CAP_CH_MODE.PREFILL` (13_capture_engine.md). -/
def CAP_CH_MODE.PREFILL : Field := ⟨0x440020, 256, 0, 5, 5⟩
/-- `CAP_CH_MODE.RAW` (13_capture_engine.md). -/
def CAP_CH_MODE.RAW : Field := ⟨0x440020, 256, 0, 0, 0⟩
/-- `CAP_CH_MODE.RED` (13_capture_engine.md). -/
def CAP_CH_MODE.RED : Field := ⟨0x440020, 256, 0, 3, 2⟩
/-- `CAP_CH_MODE.RING` (13_capture_engine.md). -/
def CAP_CH_MODE.RING : Field := ⟨0x440020, 256, 0, 4, 4⟩
/-- `CAP_CH_MODE.SWEEP_TRIG` (13_capture_engine.md). -/
def CAP_CH_MODE.SWEEP_TRIG : Field := ⟨0x440020, 256, 0, 7, 7⟩
/-- `CAP_CH_NSEG.NSEG_M1` (13_capture_engine.md). -/
def CAP_CH_NSEG.NSEG_M1 : Field := ⟨0x440014, 256, 0, 15, 0⟩
/-- `CAP_CH_POST.POST` (13_capture_engine.md). -/
def CAP_CH_POST.POST : Field := ⟨0x44001c, 256, 0, 31, 0⟩
/-- `CAP_CH_PRE.PRE` (13_capture_engine.md). -/
def CAP_CH_PRE.PRE : Field := ⟨0x440018, 256, 0, 31, 0⟩
/-- `CAP_CH_SEGLEN.SEGLEN` (13_capture_engine.md). -/
def CAP_CH_SEGLEN.SEGLEN : Field := ⟨0x440010, 256, 0, 31, 0⟩
/-- `CAP_CH_SEL_HI.SEL` (13_capture_engine.md). -/
def CAP_CH_SEL_HI.SEL : Field := ⟨0x440008, 256, 0, 31, 0⟩
/-- `CAP_CH_SEL_LO.SEL` (13_capture_engine.md). -/
def CAP_CH_SEL_LO.SEL : Field := ⟨0x440004, 256, 0, 31, 0⟩
/-- `CAP_CH_SRC.DIV_M1` (13_capture_engine.md). -/
def CAP_CH_SRC.DIV_M1 : Field := ⟨0x440000, 256, 0, 15, 0⟩
/-- `CAP_CH_SRC.KIND` (13_capture_engine.md). -/
def CAP_CH_SRC.KIND : Field := ⟨0x440000, 256, 0, 31, 28⟩
/-- `CAP_CH_SRC.POINT` (13_capture_engine.md). -/
def CAP_CH_SRC.POINT : Field := ⟨0x440000, 256, 0, 27, 26⟩
/-- `CAP_CH_SRC.UNIT` (13_capture_engine.md). -/
def CAP_CH_SRC.UNIT : Field := ⟨0x440000, 256, 0, 25, 16⟩
/-- `CAP_CH_STAT.OVF` (13_capture_engine.md). -/
def CAP_CH_STAT.OVF : Field := ⟨0x440060, 256, 0, 26, 26⟩
/-- `CAP_CH_STAT.RPOISON` (13_capture_engine.md). -/
def CAP_CH_STAT.RPOISON : Field := ⟨0x440060, 256, 0, 25, 25⟩
/-- `CAP_CH_STAT.SEG` (13_capture_engine.md). -/
def CAP_CH_STAT.SEG : Field := ⟨0x440060, 256, 0, 15, 0⟩
/-- `CAP_CH_STAT.STAGE` (13_capture_engine.md). -/
def CAP_CH_STAT.STAGE : Field := ⟨0x440060, 256, 0, 28, 27⟩
/-- `CAP_CH_STAT.STATE` (13_capture_engine.md). -/
def CAP_CH_STAT.STATE : Field := ⟨0x440060, 256, 0, 31, 29⟩
/-- `CAP_GLB_PART.PART` (13_capture_engine.md). -/
def CAP_GLB_PART.PART : Field := ⟨0x441000, 0, 0, 3, 0⟩
/-- `CAP_GLB_RATE.GBPS` (13_capture_engine.md). -/
def CAP_GLB_RATE.GBPS : Field := ⟨0x441004, 0, 0, 31, 0⟩
/-- `CAP_RED_DEC.D` (13_capture_engine.md). -/
def CAP_RED_DEC.D : Field := ⟨0x440028, 256, 0, 24, 0⟩
/-- `CAP_RED_DEC.SIZE` (13_capture_engine.md). -/
def CAP_RED_DEC.SIZE : Field := ⟨0x440028, 256, 0, 31, 27⟩
/-- `CAP_RED_DECAY.DPERIOD` (13_capture_engine.md). -/
def CAP_RED_DECAY.DPERIOD : Field := ⟨0x440038, 256, 0, 31, 16⟩
/-- `CAP_RED_DECAY.DSHIFT` (13_capture_engine.md). -/
def CAP_RED_DECAY.DSHIFT : Field := ⟨0x440038, 256, 0, 3, 0⟩
/-- `CAP_RED_DST.BANK` (13_capture_engine.md). -/
def CAP_RED_DST.BANK : Field := ⟨0x44003c, 256, 0, 6, 0⟩
/-- `CAP_RED_DST.HBM` (13_capture_engine.md). -/
def CAP_RED_DST.HBM : Field := ⟨0x44003c, 256, 0, 31, 31⟩
/-- `CAP_RED_FIELD.BITWISE` (13_capture_engine.md). -/
def CAP_RED_FIELD.BITWISE : Field := ⟨0x440024, 256, 0, 31, 31⟩
/-- `CAP_RED_FIELD.FOFS` (13_capture_engine.md). -/
def CAP_RED_FIELD.FOFS : Field := ⟨0x440024, 256, 0, 12, 0⟩
/-- `CAP_RED_FIELD.HKIND` (13_capture_engine.md). -/
def CAP_RED_FIELD.HKIND : Field := ⟨0x440024, 256, 0, 29, 29⟩
/-- `CAP_RED_FIELD.IEDGE` (13_capture_engine.md). -/
def CAP_RED_FIELD.IEDGE : Field := ⟨0x440024, 256, 0, 16, 15⟩
/-- `CAP_RED_FIELD.UNSIGNED` (13_capture_engine.md). -/
def CAP_RED_FIELD.UNSIGNED : Field := ⟨0x440024, 256, 0, 30, 30⟩
/-- `CAP_RED_LO.LO` (13_capture_engine.md). -/
def CAP_RED_LO.LO : Field := ⟨0x44002c, 256, 0, 31, 0⟩
/-- `CAP_RED_OFS.OFS` (13_capture_engine.md). -/
def CAP_RED_OFS.OFS : Field := ⟨0x440040, 256, 0, 31, 0⟩
/-- `CAP_RED_SCALE.SHIFT` (13_capture_engine.md). -/
def CAP_RED_SCALE.SHIFT : Field := ⟨0x440030, 256, 0, 4, 0⟩
/-- `CAP_RED_SWEEP.W` (13_capture_engine.md). -/
def CAP_RED_SWEEP.W : Field := ⟨0x440034, 256, 0, 31, 0⟩
/-- `CAP_STG_A.A` (13_capture_engine.md). -/
def CAP_STG_A.A : Field := ⟨0x440088, 256, 32, 31, 0⟩
/-- `CAP_STG_B.B` (13_capture_engine.md). -/
def CAP_STG_B.B : Field := ⟨0x44008c, 256, 32, 31, 0⟩
/-- `CAP_STG_CFG.FINAL` (13_capture_engine.md). -/
def CAP_STG_CFG.FINAL : Field := ⟨0x440080, 256, 32, 31, 31⟩
/-- `CAP_STG_CFG.FOFS` (13_capture_engine.md). -/
def CAP_STG_CFG.FOFS : Field := ⟨0x440080, 256, 32, 12, 0⟩
/-- `CAP_STG_CFG.KIND` (13_capture_engine.md). -/
def CAP_STG_CFG.KIND : Field := ⟨0x440080, 256, 32, 30, 27⟩
/-- `CAP_STG_CFG.POL` (13_capture_engine.md). -/
def CAP_STG_CFG.POL : Field := ⟨0x440080, 256, 32, 24, 22⟩
/-- `CAP_STG_CFG.UNIT` (13_capture_engine.md). -/
def CAP_STG_CFG.UNIT : Field := ⟨0x440080, 256, 32, 20, 13⟩
/-- `CAP_STG_N.N` (13_capture_engine.md). -/
def CAP_STG_N.N : Field := ⟨0x440084, 256, 32, 31, 0⟩
/-- `CAP_STG_TO.TO` (13_capture_engine.md). -/
def CAP_STG_TO.TO : Field := ⟨0x440090, 256, 32, 31, 0⟩
/-- `CFG_FLASH.MODE` (07_ela_configuration.md). -/
def CFG_FLASH.MODE : Field := ⟨0x280020, 0, 0, 1, 1⟩
/-- `CFG_FLASH.PRESENT` (07_ela_configuration.md). -/
def CFG_FLASH.PRESENT : Field := ⟨0x280020, 0, 0, 0, 0⟩
/-- `CFG_FUSE.ENC_ONLY` (07_ela_configuration.md). -/
def CFG_FUSE.ENC_ONLY : Field := ⟨0x280010, 0, 0, 0, 0⟩
/-- `CFG_FUSE.KEY0_PROG` (07_ela_configuration.md). -/
def CFG_FUSE.KEY0_PROG : Field := ⟨0x280010, 0, 0, 2, 2⟩
/-- `CFG_FUSE.KEY1_DIS` (07_ela_configuration.md). -/
def CFG_FUSE.KEY1_DIS : Field := ⟨0x280010, 0, 0, 1, 1⟩
/-- `CFG_KEY0_KCV.KCV` (07_ela_configuration.md). -/
def CFG_KEY0_KCV.KCV : Field := ⟨0x280018, 0, 0, 31, 0⟩
/-- `CFG_KEY1_KCV.KCV` (07_ela_configuration.md). -/
def CFG_KEY1_KCV.KCV : Field := ⟨0x28001c, 0, 0, 31, 0⟩
/-- `CFG_KEY_STATUS.KEY0_VALID` (07_ela_configuration.md). -/
def CFG_KEY_STATUS.KEY0_VALID : Field := ⟨0x280014, 0, 0, 0, 0⟩
/-- `CFG_KEY_STATUS.KEY1_VALID` (07_ela_configuration.md). -/
def CFG_KEY_STATUS.KEY1_VALID : Field := ⟨0x280014, 0, 0, 1, 1⟩
/-- `CFG_KEY_STATUS.TAMPER_SEEN` (07_ela_configuration.md). -/
def CFG_KEY_STATUS.TAMPER_SEEN : Field := ⟨0x280014, 0, 0, 2, 2⟩
/-- `CFG_KEY_STATUS.VBAT_LOST` (07_ela_configuration.md). -/
def CFG_KEY_STATUS.VBAT_LOST : Field := ⟨0x280014, 0, 0, 3, 3⟩
/-- `CFG_LOAD_ERR_FAR.FAR` (07_ela_configuration.md). -/
def CFG_LOAD_ERR_FAR.FAR : Field := ⟨0x280008, 0, 0, 12, 0⟩
/-- `CFG_LOAD_FRAMES.COUNT` (07_ela_configuration.md). -/
def CFG_LOAD_FRAMES.COUNT : Field := ⟨0x280004, 0, 0, 12, 0⟩
/-- `CFG_RGN_BLK.BLOCKS` (07_ela_configuration.md). -/
def CFG_RGN_BLK.BLOCKS : Field := ⟨0x280100, 32, 4, 31, 0⟩
/-- `CFG_RGN_STATE.STATE` (07_ela_configuration.md). -/
def CFG_RGN_STATE.STATE : Field := ⟨0x28000c, 0, 0, 31, 0⟩
/-- `CFG_SCP_DROP.COUNT` (07_ela_configuration.md). -/
def CFG_SCP_DROP.COUNT : Field := ⟨0x280050, 0, 0, 31, 0⟩
/-- `CFG_SPG_CTRL.EN` (07_ela_configuration.md). -/
def CFG_SPG_CTRL.EN : Field := ⟨0x280030, 0, 0, 0, 0⟩
/-- `CFG_SPG_CTRL.RGN_RESET` (07_ela_configuration.md). -/
def CFG_SPG_CTRL.RGN_RESET : Field := ⟨0x280030, 0, 0, 1, 1⟩
/-- `CFG_SPG_CTRL.UE_HOLD` (07_ela_configuration.md). -/
def CFG_SPG_CTRL.UE_HOLD : Field := ⟨0x280030, 0, 0, 2, 2⟩
/-- `CFG_SPG_E_CNT.COUNT` (07_ela_configuration.md). -/
def CFG_SPG_E_CNT.COUNT : Field := ⟨0x28003c, 0, 0, 31, 0⟩
/-- `CFG_SPG_MAP_CNT.CE` (07_ela_configuration.md). -/
def CFG_SPG_MAP_CNT.CE : Field := ⟨0x280044, 0, 0, 15, 0⟩
/-- `CFG_SPG_MAP_CNT.UE` (07_ela_configuration.md). -/
def CFG_SPG_MAP_CNT.UE : Field := ⟨0x280044, 0, 0, 31, 16⟩
/-- `CFG_SPG_NE_CNT.COUNT` (07_ela_configuration.md). -/
def CFG_SPG_NE_CNT.COUNT : Field := ⟨0x280038, 0, 0, 31, 0⟩
/-- `CFG_SPG_PASS.COUNT` (07_ela_configuration.md). -/
def CFG_SPG_PASS.COUNT : Field := ⟨0x280034, 0, 0, 31, 0⟩
/-- `CFG_SPG_POS.FAR` (07_ela_configuration.md). -/
def CFG_SPG_POS.FAR : Field := ⟨0x28004c, 0, 0, 12, 0⟩
/-- `CFG_SPG_TMR_CNT.COUNT` (07_ela_configuration.md). -/
def CFG_SPG_TMR_CNT.COUNT : Field := ⟨0x280048, 0, 0, 31, 0⟩
/-- `CFG_SPG_UE_CNT.COUNT` (07_ela_configuration.md). -/
def CFG_SPG_UE_CNT.COUNT : Field := ⟨0x280040, 0, 0, 31, 0⟩
/-- `CFG_STATUS.ARRAY` (07_ela_configuration.md). -/
def CFG_STATUS.ARRAY : Field := ⟨0x280000, 0, 0, 1, 0⟩
/-- `CFG_STATUS.BUSY` (07_ela_configuration.md). -/
def CFG_STATUS.BUSY : Field := ⟨0x280000, 0, 0, 31, 31⟩
/-- `CFG_STATUS.ERR_CODE` (07_ela_configuration.md). -/
def CFG_STATUS.ERR_CODE : Field := ⟨0x280000, 0, 0, 23, 16⟩
/-- `CFG_STATUS.SCOPE` (07_ela_configuration.md). -/
def CFG_STATUS.SCOPE : Field := ⟨0x280000, 0, 0, 15, 8⟩
/-- `CFG_STATUS.SRC` (07_ela_configuration.md). -/
def CFG_STATUS.SRC : Field := ⟨0x280000, 0, 0, 30, 28⟩
/-- `CLK_DOM_CFG.FREQ` (17_clocks_power_reset.md). -/
def CLK_DOM_CFG.FREQ : Field := ⟨0x10100, 4, 0, 15, 0⟩
/-- `CLK_DOM_CFG.LOCKED` (17_clocks_power_reset.md). -/
def CLK_DOM_CFG.LOCKED : Field := ⟨0x10100, 4, 0, 30, 30⟩
/-- `CLK_DOM_CFG.SRC` (17_clocks_power_reset.md). -/
def CLK_DOM_CFG.SRC : Field := ⟨0x10100, 4, 0, 31, 31⟩
/-- `CLK_GATE_BANK_HI.BANKS` (17_clocks_power_reset.md). -/
def CLK_GATE_BANK_HI.BANKS : Field := ⟨0x10038, 0, 0, 31, 0⟩
/-- `CLK_GATE_BANK_LO.BANKS` (17_clocks_power_reset.md). -/
def CLK_GATE_BANK_LO.BANKS : Field := ⟨0x10034, 0, 0, 31, 0⟩
/-- `CLK_GATE_STAT.DROPS` (17_clocks_power_reset.md). -/
def CLK_GATE_STAT.DROPS : Field := ⟨0x10030, 0, 0, 15, 0⟩
/-- `CLK_GATE_STAT.OPEN` (17_clocks_power_reset.md). -/
def CLK_GATE_STAT.OPEN : Field := ⟨0x10030, 0, 0, 31, 24⟩
/-- `CLK_GATE_STAT.TIMEOUTS` (17_clocks_power_reset.md). -/
def CLK_GATE_STAT.TIMEOUTS : Field := ⟨0x10030, 0, 0, 23, 16⟩
/-- `CLK_MON.RCOCOUNT` (17_clocks_power_reset.md). -/
def CLK_MON.RCOCOUNT : Field := ⟨0x1000c, 0, 0, 10, 0⟩
/-- `CLK_MON.XCOUNT` (17_clocks_power_reset.md). -/
def CLK_MON.XCOUNT : Field := ⟨0x1000c, 0, 0, 26, 16⟩
/-- `CLK_NME.RCO_FAIL` (17_clocks_power_reset.md). -/
def CLK_NME.RCO_FAIL : Field := ⟨0x10008, 0, 0, 1, 1⟩
/-- `CLK_NME.XREF_FAIL` (17_clocks_power_reset.md). -/
def CLK_NME.XREF_FAIL : Field := ⟨0x10008, 0, 0, 0, 0⟩
/-- `CLK_PWR_CAP.CAP` (17_clocks_power_reset.md). -/
def CLK_PWR_CAP.CAP : Field := ⟨0x10024, 0, 0, 7, 0⟩
/-- `CLK_PWR_CAP.SCI_MIN` (17_clocks_power_reset.md). -/
def CLK_PWR_CAP.SCI_MIN : Field := ⟨0x10024, 0, 0, 15, 8⟩
/-- `CLK_PWR_CTRL.STANDBY` (17_clocks_power_reset.md). -/
def CLK_PWR_CTRL.STANDBY : Field := ⟨0x10020, 0, 0, 0, 0⟩
/-- `CLK_PWR_STAT.POWER` (17_clocks_power_reset.md). -/
def CLK_PWR_STAT.POWER : Field := ⟨0x10028, 0, 0, 31, 16⟩
/-- `CLK_PWR_STAT.SCI_NOW` (17_clocks_power_reset.md). -/
def CLK_PWR_STAT.SCI_NOW : Field := ⟨0x10028, 0, 0, 4, 0⟩
/-- `CLK_PWR_STAT.STAGE` (17_clocks_power_reset.md). -/
def CLK_PWR_STAT.STAGE : Field := ⟨0x10028, 0, 0, 15, 14⟩
/-- `CLK_RST_CAUSE.CAUSE` (17_clocks_power_reset.md). -/
def CLK_RST_CAUSE.CAUSE : Field := ⟨0x10014, 0, 0, 2, 0⟩
/-- `CLK_STATUS.LREF_RDY` (17_clocks_power_reset.md). -/
def CLK_STATUS.LREF_RDY : Field := ⟨0x10000, 0, 0, 7, 7⟩
/-- `CLK_STATUS.MON_ARMED` (17_clocks_power_reset.md). -/
def CLK_STATUS.MON_ARMED : Field := ⟨0x10000, 0, 0, 0, 0⟩
/-- `CLK_STATUS.P0REF_RDY` (17_clocks_power_reset.md). -/
def CLK_STATUS.P0REF_RDY : Field := ⟨0x10000, 0, 0, 5, 5⟩
/-- `CLK_STATUS.P1REF_RDY` (17_clocks_power_reset.md). -/
def CLK_STATUS.P1REF_RDY : Field := ⟨0x10000, 0, 0, 6, 6⟩
/-- `CLK_STATUS.PSTATE` (17_clocks_power_reset.md). -/
def CLK_STATUS.PSTATE : Field := ⟨0x10000, 0, 0, 10, 9⟩
/-- `CLK_STATUS.RCO_RDY` (17_clocks_power_reset.md). -/
def CLK_STATUS.RCO_RDY : Field := ⟨0x10000, 0, 0, 1, 1⟩
/-- `CLK_STATUS.XREF_FAILED` (17_clocks_power_reset.md). -/
def CLK_STATUS.XREF_FAILED : Field := ⟨0x10000, 0, 0, 8, 8⟩
/-- `CLK_STATUS.XTAL_RDY` (17_clocks_power_reset.md). -/
def CLK_STATUS.XTAL_RDY : Field := ⟨0x10000, 0, 0, 2, 2⟩
/-- `CLK_STATUS.XTAL_TIMEOUT` (17_clocks_power_reset.md). -/
def CLK_STATUS.XTAL_TIMEOUT : Field := ⟨0x10000, 0, 0, 4, 4⟩
/-- `CLK_STRAP.XSTART` (17_clocks_power_reset.md). -/
def CLK_STRAP.XSTART : Field := ⟨0x10004, 0, 0, 2, 0⟩
/-- `CLK_TBP_CFG.EN` (17_clocks_power_reset.md). -/
def CLK_TBP_CFG.EN : Field := ⟨0x10200, 16, 0, 31, 31⟩
/-- `CLK_TBP_PERIOD.PERIOD` (17_clocks_power_reset.md). -/
def CLK_TBP_PERIOD.PERIOD : Field := ⟨0x10204, 16, 0, 31, 0⟩
/-- `CLK_TBP_PHASE_LO.PHASE` (17_clocks_power_reset.md). -/
def CLK_TBP_PHASE_LO.PHASE : Field := ⟨0x10208, 16, 0, 31, 0⟩
/-- `CLK_TEMP.TJ` (17_clocks_power_reset.md). -/
def CLK_TEMP.TJ : Field := ⟨0x1002c, 0, 0, 15, 0⟩
/-- `CLK_TEMP.TWARN` (17_clocks_power_reset.md). -/
def CLK_TEMP.TWARN : Field := ⟨0x1002c, 0, 0, 31, 24⟩
/-- `DEC_ENC_JOBS.COUNT` (12_channel_decoding.md). -/
def DEC_ENC_JOBS.COUNT : Field := ⟨0x400220, 0, 0, 31, 0⟩
/-- `DEC_LATE.COUNT` (12_channel_decoding.md). -/
def DEC_LATE.COUNT : Field := ⟨0x400224, 0, 0, 31, 0⟩
/-- `DEC_LDPC_ITER_LO.ITER` (12_channel_decoding.md). -/
def DEC_LDPC_ITER_LO.ITER : Field := ⟨0x400208, 0, 0, 31, 0⟩
/-- `DEC_LDPC_JOBS.COUNT` (12_channel_decoding.md). -/
def DEC_LDPC_JOBS.COUNT : Field := ⟨0x400200, 0, 0, 31, 0⟩
/-- `DEC_LDPC_UNCONV.COUNT` (12_channel_decoding.md). -/
def DEC_LDPC_UNCONV.COUNT : Field := ⟨0x400204, 0, 0, 31, 0⟩
/-- `DEC_Q.DEPTH` (12_channel_decoding.md). -/
def DEC_Q.DEPTH : Field := ⟨0x400100, 16, 0, 6, 0⟩
/-- `DEC_Q.DISC` (12_channel_decoding.md). -/
def DEC_Q.DISC : Field := ⟨0x400100, 16, 0, 31, 24⟩
/-- `DEC_Q.MAX` (12_channel_decoding.md). -/
def DEC_Q.MAX : Field := ⟨0x400100, 16, 0, 14, 8⟩
/-- `DEC_RANGE.COUNT` (12_channel_decoding.md). -/
def DEC_RANGE.COUNT : Field := ⟨0x400228, 0, 0, 31, 0⟩
/-- `DEC_STATUS.ENC_BUSY` (12_channel_decoding.md). -/
def DEC_STATUS.ENC_BUSY : Field := ⟨0x400000, 0, 0, 4, 4⟩
/-- `DEC_STATUS.LDPC_BUSY` (12_channel_decoding.md). -/
def DEC_STATUS.LDPC_BUSY : Field := ⟨0x400000, 0, 0, 1, 0⟩
/-- `DEC_STATUS.TURBO_BUSY` (12_channel_decoding.md). -/
def DEC_STATUS.TURBO_BUSY : Field := ⟨0x400000, 0, 0, 3, 3⟩
/-- `DEC_TURBO_CRCFAIL.COUNT` (12_channel_decoding.md). -/
def DEC_TURBO_CRCFAIL.COUNT : Field := ⟨0x400214, 0, 0, 31, 0⟩
/-- `DEC_TURBO_ITER_LO.ITER` (12_channel_decoding.md). -/
def DEC_TURBO_ITER_LO.ITER : Field := ⟨0x400218, 0, 0, 31, 0⟩
/-- `DEC_TURBO_JOBS.COUNT` (12_channel_decoding.md). -/
def DEC_TURBO_JOBS.COUNT : Field := ⟨0x400210, 0, 0, 31, 0⟩
/-- `DEC_UTAB.VALID` (12_channel_decoding.md). -/
def DEC_UTAB.VALID : Field := ⟨0x400004, 0, 0, 7, 0⟩
/-- `DSP_CORE_BUSY_LO.CYCLES` (10_work_dispatcher.md). -/
def DSP_CORE_BUSY_LO.CYCLES : Field := ⟨0x84000, 32, 0, 31, 0⟩
/-- `DSP_CORE_GETW_LO.CYCLES` (10_work_dispatcher.md). -/
def DSP_CORE_GETW_LO.CYCLES : Field := ⟨0x84008, 32, 0, 31, 0⟩
/-- `DSP_CORE_PMISS.COUNT` (10_work_dispatcher.md). -/
def DSP_CORE_PMISS.COUNT : Field := ⟨0x84014, 32, 0, 31, 0⟩
/-- `DSP_CORE_TASKS.COUNT` (10_work_dispatcher.md). -/
def DSP_CORE_TASKS.COUNT : Field := ⟨0x84010, 32, 0, 31, 0⟩
/-- `DSP_COT.BASE` (10_work_dispatcher.md). -/
def DSP_COT.BASE : Field := ⟨0x80008, 0, 0, 31, 0⟩
/-- `DSP_CQ_BASE.BASE` (10_work_dispatcher.md). -/
def DSP_CQ_BASE.BASE : Field := ⟨0x83000, 16, 0, 31, 0⟩
/-- `DSP_CQ_CFG.DROPS` (10_work_dispatcher.md). -/
def DSP_CQ_CFG.DROPS : Field := ⟨0x83004, 16, 0, 31, 16⟩
/-- `DSP_CQ_CFG.SIZE` (10_work_dispatcher.md). -/
def DSP_CQ_CFG.SIZE : Field := ⟨0x83004, 16, 0, 3, 0⟩
/-- `DSP_CQ_HEAD.HEAD` (10_work_dispatcher.md). -/
def DSP_CQ_HEAD.HEAD : Field := ⟨0x83008, 16, 0, 14, 0⟩
/-- `DSP_CQ_TAIL.TAIL` (10_work_dispatcher.md). -/
def DSP_CQ_TAIL.TAIL : Field := ⟨0x8300c, 16, 0, 14, 0⟩
/-- `DSP_DTAB.BASE` (10_work_dispatcher.md). -/
def DSP_DTAB.BASE : Field := ⟨0x80004, 0, 0, 31, 0⟩
/-- `DSP_FLOW.MAX_PAR` (10_work_dispatcher.md). -/
def DSP_FLOW.MAX_PAR : Field := ⟨0x81000, 4, 0, 6, 0⟩
/-- `DSP_FLOW.OUTSTANDING` (10_work_dispatcher.md). -/
def DSP_FLOW.OUTSTANDING : Field := ⟨0x81000, 4, 0, 24, 16⟩
/-- `DSP_PROD.EN` (10_work_dispatcher.md). -/
def DSP_PROD.EN : Field := ⟨0x82000, 4, 0, 0, 0⟩
/-- `DSP_PROD.TEMPLATE` (10_work_dispatcher.md). -/
def DSP_PROD.TEMPLATE : Field := ⟨0x82000, 4, 0, 31, 2⟩
/-- `DSP_Q_DEPTH.DEPTH` (10_work_dispatcher.md). -/
def DSP_Q_DEPTH.DEPTH : Field := ⟨0x88000, 128, 0, 15, 0⟩
/-- `DSP_Q_DEPTH.MAX` (10_work_dispatcher.md). -/
def DSP_Q_DEPTH.MAX : Field := ⟨0x88000, 128, 0, 31, 16⟩
/-- `DSP_Q_HIST.COUNT` (10_work_dispatcher.md). -/
def DSP_Q_HIST.COUNT : Field := ⟨0x88040, 128, 4, 31, 0⟩
/-- `DSP_STATUS.SLOTS` (10_work_dispatcher.md). -/
def DSP_STATUS.SLOTS : Field := ⟨0x80000, 0, 0, 14, 0⟩
/-- `DSP_XDESC.ADDR` (10_work_dispatcher.md). -/
def DSP_XDESC.ADDR : Field := ⟨0x8000c, 0, 0, 15, 0⟩
/-- `ELA_GCLK_ACT.ACTIVE` (06_edge_logic_array.md). -/
def ELA_GCLK_ACT.ACTIVE : Field := ⟨0x200010, 0, 0, 15, 0⟩
/-- `ELA_HUB_OUT.H` (06_edge_logic_array.md). -/
def ELA_HUB_OUT.H : Field := ⟨0x200020, 0, 0, 31, 0⟩
/-- `ELA_HUB_OUT_HI.H` (06_edge_logic_array.md). -/
def ELA_HUB_OUT_HI.H : Field := ⟨0x200024, 0, 0, 15, 0⟩
/-- `ELA_LL_CNT.COUNT` (06_edge_logic_array.md). -/
def ELA_LL_CNT.COUNT : Field := ⟨0x200014, 0, 0, 31, 0⟩
/-- `ELA_LL_DIS.DISABLED` (06_edge_logic_array.md). -/
def ELA_LL_DIS.DISABLED : Field := ⟨0x200100, 4, 0, 7, 0⟩
/-- `ELA_REL_CTRL.AUTO` (06_edge_logic_array.md). -/
def ELA_REL_CTRL.AUTO : Field := ⟨0x200008, 0, 0, 0, 0⟩
/-- `ELA_REL_GAP.GAP1` (06_edge_logic_array.md). -/
def ELA_REL_GAP.GAP1 : Field := ⟨0x200004, 0, 0, 15, 0⟩
/-- `ELA_REL_GAP.GAP2` (06_edge_logic_array.md). -/
def ELA_REL_GAP.GAP2 : Field := ⟨0x200004, 0, 0, 31, 16⟩
/-- `ELA_REL_RGN.RELEASED` (06_edge_logic_array.md). -/
def ELA_REL_RGN.RELEASED : Field := ⟨0x20000c, 0, 0, 15, 0⟩
/-- `ELA_STATUS.CONFIGURED` (06_edge_logic_array.md). -/
def ELA_STATUS.CONFIGURED : Field := ⟨0x200000, 0, 0, 0, 0⟩
/-- `ELA_STATUS.GOE` (06_edge_logic_array.md). -/
def ELA_STATUS.GOE : Field := ⟨0x200000, 0, 0, 1, 1⟩
/-- `ELA_STATUS.GSR` (06_edge_logic_array.md). -/
def ELA_STATUS.GSR : Field := ⟨0x200000, 0, 0, 3, 3⟩
/-- `ELA_STATUS.GWE` (06_edge_logic_array.md). -/
def ELA_STATUS.GWE : Field := ⟨0x200000, 0, 0, 2, 2⟩
/-- `ELA_STATUS.REL_BUSY` (06_edge_logic_array.md). -/
def ELA_STATUS.REL_BUSY : Field := ⟨0x200000, 0, 0, 4, 4⟩
/-- `FAB_GLB_STATUS.LOADED` (03_fabric_frames_rests.md). -/
def FAB_GLB_STATUS.LOADED : Field := ⟨0x101000, 0, 0, 4, 4⟩
/-- `FAB_GLB_STATUS.POWER_HOLD` (03_fabric_frames_rests.md). -/
def FAB_GLB_STATUS.POWER_HOLD : Field := ⟨0x101000, 0, 0, 6, 6⟩
/-- `FAB_GLB_STATUS.RESTING` (03_fabric_frames_rests.md). -/
def FAB_GLB_STATUS.RESTING : Field := ⟨0x101000, 0, 0, 5, 5⟩
/-- `FAB_GLB_STATUS.XCAL_OK` (03_fabric_frames_rests.md). -/
def FAB_GLB_STATUS.XCAL_OK : Field := ⟨0x101000, 0, 0, 3, 0⟩
/-- `FAB_IMG_DIGEST.DIGEST` (04_grist_loader_contract.md). -/
def FAB_IMG_DIGEST.DIGEST : Field := ⟨0x103020, 4, 0, 31, 0⟩
/-- `FAB_IMG_INFO.GRID_H` (04_grist_loader_contract.md). -/
def FAB_IMG_INFO.GRID_H : Field := ⟨0x10301c, 0, 0, 15, 12⟩
/-- `FAB_IMG_INFO.GRID_W` (04_grist_loader_contract.md). -/
def FAB_IMG_INFO.GRID_W : Field := ⟨0x10301c, 0, 0, 11, 8⟩
/-- `FAB_IMG_INFO.MIN_FSTEP` (04_grist_loader_contract.md). -/
def FAB_IMG_INFO.MIN_FSTEP : Field := ⟨0x10301c, 0, 0, 23, 16⟩
/-- `FAB_IMG_INFO.TARGET` (04_grist_loader_contract.md). -/
def FAB_IMG_INFO.TARGET : Field := ⟨0x10301c, 0, 0, 7, 0⟩
/-- `FAB_LOAD_ERR_LOC.ADDR` (04_grist_loader_contract.md). -/
def FAB_LOAD_ERR_LOC.ADDR : Field := ⟨0x103018, 0, 0, 12, 0⟩
/-- `FAB_LOAD_ERR_LOC.BP` (04_grist_loader_contract.md). -/
def FAB_LOAD_ERR_LOC.BP : Field := ⟨0x103018, 0, 0, 19, 14⟩
/-- `FAB_LOAD_ERR_LOC.CLUSTER` (04_grist_loader_contract.md). -/
def FAB_LOAD_ERR_LOC.CLUSTER : Field := ⟨0x103018, 0, 0, 23, 20⟩
/-- `FAB_LOAD_ERR_LOC.VTILE` (04_grist_loader_contract.md). -/
def FAB_LOAD_ERR_LOC.VTILE : Field := ⟨0x103018, 0, 0, 29, 24⟩
/-- `FAB_LOAD_ERR_REC.RECORD` (04_grist_loader_contract.md). -/
def FAB_LOAD_ERR_REC.RECORD : Field := ⟨0x103014, 0, 0, 31, 0⟩
/-- `FAB_LOAD_STATUS.BUSY` (04_grist_loader_contract.md). -/
def FAB_LOAD_STATUS.BUSY : Field := ⟨0x103010, 0, 0, 31, 31⟩
/-- `FAB_LOAD_STATUS.ERR_CODE` (04_grist_loader_contract.md). -/
def FAB_LOAD_STATUS.ERR_CODE : Field := ⟨0x103010, 0, 0, 23, 16⟩
/-- `FAB_LOAD_STATUS.ERR_SECTION` (04_grist_loader_contract.md). -/
def FAB_LOAD_STATUS.ERR_SECTION : Field := ⟨0x103010, 0, 0, 10, 0⟩
/-- `FAB_LOAD_STATUS.PHASE` (04_grist_loader_contract.md). -/
def FAB_LOAD_STATUS.PHASE : Field := ⟨0x103010, 0, 0, 30, 28⟩
/-- `FAB_NETFF_FRAME_LO.FRAME` (02_fabric_processors.md). -/
def FAB_NETFF_FRAME_LO.FRAME : Field := ⟨0x1f000c, 32, 0, 31, 0⟩
/-- `FAB_NETFF_LOC.BP` (02_fabric_processors.md). -/
def FAB_NETFF_LOC.BP : Field := ⟨0x1f0004, 32, 0, 27, 22⟩
/-- `FAB_NETFF_LOC.CLUSTER` (02_fabric_processors.md). -/
def FAB_NETFF_LOC.CLUSTER : Field := ⟨0x1f0004, 32, 0, 31, 28⟩
/-- `FAB_NETFF_LOC.DIR` (02_fabric_processors.md). -/
def FAB_NETFF_LOC.DIR : Field := ⟨0x1f0004, 32, 0, 11, 9⟩
/-- `FAB_NETFF_LOC.EXP_TAG` (02_fabric_processors.md). -/
def FAB_NETFF_LOC.EXP_TAG : Field := ⟨0x1f0004, 32, 0, 19, 16⟩
/-- `FAB_NETFF_LOC.GOT_TAG` (02_fabric_processors.md). -/
def FAB_NETFF_LOC.GOT_TAG : Field := ⟨0x1f0004, 32, 0, 15, 12⟩
/-- `FAB_NETFF_LOC.LANE` (02_fabric_processors.md). -/
def FAB_NETFF_LOC.LANE : Field := ⟨0x1f0004, 32, 0, 8, 3⟩
/-- `FAB_NETFF_LOC.PORT` (02_fabric_processors.md). -/
def FAB_NETFF_LOC.PORT : Field := ⟨0x1f0004, 32, 0, 21, 20⟩
/-- `FAB_NETFF_STAT.KIND` (02_fabric_processors.md). -/
def FAB_NETFF_STAT.KIND : Field := ⟨0x1f0000, 32, 0, 23, 20⟩
/-- `FAB_NETFF_STAT.MORE` (02_fabric_processors.md). -/
def FAB_NETFF_STAT.MORE : Field := ⟨0x1f0000, 32, 0, 30, 30⟩
/-- `FAB_NETFF_STAT.PTILE` (02_fabric_processors.md). -/
def FAB_NETFF_STAT.PTILE : Field := ⟨0x1f0000, 32, 0, 9, 5⟩
/-- `FAB_NETFF_STAT.REGION` (02_fabric_processors.md). -/
def FAB_NETFF_STAT.REGION : Field := ⟨0x1f0000, 32, 0, 19, 16⟩
/-- `FAB_NETFF_STAT.VALID` (02_fabric_processors.md). -/
def FAB_NETFF_STAT.VALID : Field := ⟨0x1f0000, 32, 0, 31, 31⟩
/-- `FAB_NETFF_STAT.VTILE` (02_fabric_processors.md). -/
def FAB_NETFF_STAT.VTILE : Field := ⟨0x1f0000, 32, 0, 15, 10⟩
/-- `FAB_NETFF_STEP.STEP` (02_fabric_processors.md). -/
def FAB_NETFF_STEP.STEP : Field := ⟨0x1f0008, 32, 0, 12, 0⟩
/-- `FAB_NETFF_TB_LO.TB` (02_fabric_processors.md). -/
def FAB_NETFF_TB_LO.TB : Field := ⟨0x1f0014, 32, 0, 31, 0⟩
/-- `FAB_PWR_HOLD.LEN` (03_fabric_frames_rests.md). -/
def FAB_PWR_HOLD.LEN : Field := ⟨0x101008, 0, 0, 15, 0⟩
/-- `FAB_REPAIR.ROW0` (04_grist_loader_contract.md). -/
def FAB_REPAIR.ROW0 : Field := ⟨0x103000, 4, 0, 2, 0⟩
/-- `FAB_REPAIR.ROW1` (04_grist_loader_contract.md). -/
def FAB_REPAIR.ROW1 : Field := ⟨0x103000, 4, 0, 5, 3⟩
/-- `FAB_REPAIR.ROW2` (04_grist_loader_contract.md). -/
def FAB_REPAIR.ROW2 : Field := ⟨0x103000, 4, 0, 8, 6⟩
/-- `FAB_REPAIR.ROW3` (04_grist_loader_contract.md). -/
def FAB_REPAIR.ROW3 : Field := ⟨0x103000, 4, 0, 11, 9⟩
/-- `FAB_REST_COUNT_LO.COUNT` (03_fabric_frames_rests.md). -/
def FAB_REST_COUNT_LO.COUNT : Field := ⟨0x101018, 0, 0, 31, 0⟩
/-- `FAB_REST_LIMIT.LIMIT` (03_fabric_frames_rests.md). -/
def FAB_REST_LIMIT.LIMIT : Field := ⟨0x101004, 0, 0, 31, 0⟩
/-- `FAB_REST_MAX.MAX` (03_fabric_frames_rests.md). -/
def FAB_REST_MAX.MAX : Field := ⟨0x10100c, 0, 0, 31, 0⟩
/-- `FAB_REST_NOW.LENGTH` (03_fabric_frames_rests.md). -/
def FAB_REST_NOW.LENGTH : Field := ⟨0x10103c, 0, 0, 31, 0⟩
/-- `FAB_REST_SRC.COUNT` (03_fabric_frames_rests.md). -/
def FAB_REST_SRC.COUNT : Field := ⟨0x101020, 4, 0, 31, 0⟩
/-- `FAB_REST_TOTAL_LO.TOTAL` (03_fabric_frames_rests.md). -/
def FAB_REST_TOTAL_LO.TOTAL : Field := ⟨0x101010, 0, 0, 31, 0⟩
/-- `FAB_RGN_ANCHOR_LO.ANCHOR` (03_fabric_frames_rests.md). -/
def FAB_RGN_ANCHOR_LO.ANCHOR : Field := ⟨0x100020, 64, 0, 31, 0⟩
/-- `FAB_RGN_CFG.BASE` (03_fabric_frames_rests.md). -/
def FAB_RGN_CFG.BASE : Field := ⟨0x100000, 64, 0, 12, 0⟩
/-- `FAB_RGN_CFG.CLASS` (03_fabric_frames_rests.md). -/
def FAB_RGN_CFG.CLASS : Field := ⟨0x100000, 64, 0, 30, 30⟩
/-- `FAB_RGN_CFG.EN` (03_fabric_frames_rests.md). -/
def FAB_RGN_CFG.EN : Field := ⟨0x100000, 64, 0, 31, 31⟩
/-- `FAB_RGN_CFG.LEN` (03_fabric_frames_rests.md). -/
def FAB_RGN_CFG.LEN : Field := ⟨0x100000, 64, 0, 27, 14⟩
/-- `FAB_RGN_FRAME_LO.FRAME` (03_fabric_frames_rests.md). -/
def FAB_RGN_FRAME_LO.FRAME : Field := ⟨0x100018, 64, 0, 31, 0⟩
/-- `FAB_RGN_GAP.LAST_GAP` (03_fabric_frames_rests.md). -/
def FAB_RGN_GAP.LAST_GAP : Field := ⟨0x10002c, 64, 0, 15, 0⟩
/-- `FAB_RGN_GAP.MIN_GAP` (03_fabric_frames_rests.md). -/
def FAB_RGN_GAP.MIN_GAP : Field := ⟨0x10002c, 64, 0, 31, 16⟩
/-- `FAB_RGN_MISSED.COUNT` (03_fabric_frames_rests.md). -/
def FAB_RGN_MISSED.COUNT : Field := ⟨0x100028, 64, 0, 31, 0⟩
/-- `FAB_RGN_PERIOD.PERIOD` (03_fabric_frames_rests.md). -/
def FAB_RGN_PERIOD.PERIOD : Field := ⟨0x100010, 64, 0, 31, 0⟩
/-- `FAB_RGN_STATUS.HALT_CAUSE` (03_fabric_frames_rests.md). -/
def FAB_RGN_STATUS.HALT_CAUSE : Field := ⟨0x100014, 64, 0, 15, 8⟩
/-- `FAB_RGN_STATUS.HALT_PENDING` (03_fabric_frames_rests.md). -/
def FAB_RGN_STATUS.HALT_PENDING : Field := ⟨0x100014, 64, 0, 31, 31⟩
/-- `FAB_RGN_STATUS.RESTING` (03_fabric_frames_rests.md). -/
def FAB_RGN_STATUS.RESTING : Field := ⟨0x100014, 64, 0, 3, 3⟩
/-- `FAB_RGN_STATUS.STATE` (03_fabric_frames_rests.md). -/
def FAB_RGN_STATUS.STATE : Field := ⟨0x100014, 64, 0, 2, 0⟩
/-- `FAB_RGN_STATUS.STEP` (03_fabric_frames_rests.md). -/
def FAB_RGN_STATUS.STEP : Field := ⟨0x100014, 64, 0, 28, 16⟩
/-- `FAB_RGN_TILES_HI.TILES` (03_fabric_frames_rests.md). -/
def FAB_RGN_TILES_HI.TILES : Field := ⟨0x100008, 64, 0, 31, 0⟩
/-- `FAB_RGN_TILES_LO.TILES` (03_fabric_frames_rests.md). -/
def FAB_RGN_TILES_LO.TILES : Field := ⟨0x100004, 64, 0, 31, 0⟩
/-- `FAB_RGN_TRIG.CLKPIN` (03_fabric_frames_rests.md). -/
def FAB_RGN_TRIG.CLKPIN : Field := ⟨0x10000c, 64, 0, 13, 9⟩
/-- `FAB_RGN_TRIG.EDGE` (03_fabric_frames_rests.md). -/
def FAB_RGN_TRIG.EDGE : Field := ⟨0x10000c, 64, 0, 8, 7⟩
/-- `FAB_RGN_TRIG.MODE` (03_fabric_frames_rests.md). -/
def FAB_RGN_TRIG.MODE : Field := ⟨0x10000c, 64, 0, 2, 0⟩
/-- `FAB_RGN_TRIG.SRC` (03_fabric_frames_rests.md). -/
def FAB_RGN_TRIG.SRC : Field := ⟨0x10000c, 64, 0, 17, 14⟩
/-- `FAB_TLQ_LATE.COUNT` (03_fabric_frames_rests.md). -/
def FAB_TLQ_LATE.COUNT : Field := ⟨0x102004, 8, 0, 31, 0⟩
/-- `FAB_TLQ_STAT.BOUND` (03_fabric_frames_rests.md). -/
def FAB_TLQ_STAT.BOUND : Field := ⟨0x102000, 8, 0, 31, 31⟩
/-- `FAB_TLQ_STAT.DEPTH` (03_fabric_frames_rests.md). -/
def FAB_TLQ_STAT.DEPTH : Field := ⟨0x102000, 8, 0, 8, 0⟩
/-- `FAB_TLQ_STAT.MAX` (03_fabric_frames_rests.md). -/
def FAB_TLQ_STAT.MAX : Field := ⟨0x102000, 8, 0, 17, 9⟩
/-- `FAB_TLQ_STAT.REGION` (03_fabric_frames_rests.md). -/
def FAB_TLQ_STAT.REGION : Field := ⟨0x102000, 8, 0, 27, 24⟩
/-- `FAB_VLIB_VALID.VALID` (04_grist_loader_contract.md). -/
def FAB_VLIB_VALID.VALID : Field := ⟨0x103050, 0, 0, 15, 0⟩
/-- `GLB_EVT_CFG.ENABLE` (01_organisation.md). -/
def GLB_EVT_CFG.ENABLE : Field := ⟨0x20, 4, 0, 16, 16⟩
/-- `GLB_EVT_CFG.MIN_SEV` (01_organisation.md). -/
def GLB_EVT_CFG.MIN_SEV : Field := ⟨0x20, 4, 0, 15, 14⟩
/-- `GLB_EVT_CFG.SUBSYS` (01_organisation.md). -/
def GLB_EVT_CFG.SUBSYS : Field := ⟨0x20, 4, 0, 11, 0⟩
/-- `GLB_EVT_LOST.COUNT` (01_organisation.md). -/
def GLB_EVT_LOST.COUNT : Field := ⟨0x28, 4, 0, 31, 0⟩
/-- `GLB_GRADE.FSTEP_MAX` (01_organisation.md). -/
def GLB_GRADE.FSTEP_MAX : Field := ⟨0x4, 0, 0, 7, 0⟩
/-- `GLB_SERIAL_LO.SERIAL` (01_organisation.md). -/
def GLB_SERIAL_LO.SERIAL : Field := ⟨0x8, 0, 0, 31, 0⟩
/-- `GLB_STATUS.BOOT_OK` (01_organisation.md). -/
def GLB_STATUS.BOOT_OK : Field := ⟨0x18, 0, 0, 2, 2⟩
/-- `GLB_STATUS.PAIR_MODE` (01_organisation.md). -/
def GLB_STATUS.PAIR_MODE : Field := ⟨0x18, 0, 0, 3, 3⟩
/-- `GLB_STATUS.READY` (01_organisation.md). -/
def GLB_STATUS.READY : Field := ⟨0x18, 0, 0, 0, 0⟩
/-- `GLB_STATUS.TB_DEGRADED` (01_organisation.md). -/
def GLB_STATUS.TB_DEGRADED : Field := ⟨0x18, 0, 0, 1, 1⟩
/-- `HST_CQ_BASE_LO.BASE` (16_host_control.md). -/
def HST_CQ_BASE_LO.BASE : Field := ⟨0x21008, 32, 0, 31, 0⟩
/-- `HST_EVT_BASE_LO.BASE` (16_host_control.md). -/
def HST_EVT_BASE_LO.BASE : Field := ⟨0x20100, 32, 0, 31, 0⟩
/-- `HST_EVT_CFG.COAL_CNT` (16_host_control.md). -/
def HST_EVT_CFG.COAL_CNT : Field := ⟨0x20108, 32, 0, 22, 19⟩
/-- `HST_EVT_CFG.COAL_US` (16_host_control.md). -/
def HST_EVT_CFG.COAL_US : Field := ⟨0x20108, 32, 0, 18, 8⟩
/-- `HST_EVT_CFG.SIZE` (16_host_control.md). -/
def HST_EVT_CFG.SIZE : Field := ⟨0x20108, 32, 0, 26, 23⟩
/-- `HST_EVT_PTR.HEAD` (16_host_control.md). -/
def HST_EVT_PTR.HEAD : Field := ⟨0x2010c, 32, 0, 31, 16⟩
/-- `HST_EVT_PTR.TAIL` (16_host_control.md). -/
def HST_EVT_PTR.TAIL : Field := ⟨0x2010c, 32, 0, 15, 0⟩
/-- `HST_MSIX.WORD` (16_host_control.md). -/
def HST_MSIX.WORD : Field := ⟨0x30000, 4096, 4, 31, 0⟩
/-- `HST_MSIX_PBA.PEND` (16_host_control.md). -/
def HST_MSIX_PBA.PEND : Field := ⟨0x38000, 16, 4, 31, 0⟩
/-- `HST_PORT_ERR.DB_BAD` (16_host_control.md). -/
def HST_PORT_ERR.DB_BAD : Field := ⟨0x20040, 4, 0, 15, 0⟩
/-- `HST_PORT_ERR.SEM_BAD` (16_host_control.md). -/
def HST_PORT_ERR.SEM_BAD : Field := ⟨0x20040, 4, 0, 31, 16⟩
/-- `HST_RING_CFG.COAL_CNT` (16_host_control.md). -/
def HST_RING_CFG.COAL_CNT : Field := ⟨0x21010, 32, 0, 14, 11⟩
/-- `HST_RING_CFG.COAL_US` (16_host_control.md). -/
def HST_RING_CFG.COAL_US : Field := ⟨0x21010, 32, 0, 10, 0⟩
/-- `HST_RING_CFG.CQ_SIZE` (16_host_control.md). -/
def HST_RING_CFG.CQ_SIZE : Field := ⟨0x21010, 32, 0, 25, 22⟩
/-- `HST_RING_CFG.EN` (16_host_control.md). -/
def HST_RING_CFG.EN : Field := ⟨0x21010, 32, 0, 31, 31⟩
/-- `HST_RING_CFG.PORT` (16_host_control.md). -/
def HST_RING_CFG.PORT : Field := ⟨0x21010, 32, 0, 30, 30⟩
/-- `HST_RING_CFG.SQ_SIZE` (16_host_control.md). -/
def HST_RING_CFG.SQ_SIZE : Field := ⟨0x21010, 32, 0, 29, 26⟩
/-- `HST_RING_CFG.VECTOR` (16_host_control.md). -/
def HST_RING_CFG.VECTOR : Field := ⟨0x21010, 32, 0, 21, 15⟩
/-- `HST_RING_CQ.CQ_HEAD` (16_host_control.md). -/
def HST_RING_CQ.CQ_HEAD : Field := ⟨0x21018, 32, 0, 31, 16⟩
/-- `HST_RING_CQ.CQ_TAIL` (16_host_control.md). -/
def HST_RING_CQ.CQ_TAIL : Field := ⟨0x21018, 32, 0, 15, 0⟩
/-- `HST_RING_HELD.HELD` (16_host_control.md). -/
def HST_RING_HELD.HELD : Field := ⟨0x2101c, 32, 0, 15, 0⟩
/-- `HST_RING_STAT.OUTSTANDING` (16_host_control.md). -/
def HST_RING_STAT.OUTSTANDING : Field := ⟨0x21014, 32, 0, 29, 16⟩
/-- `HST_RING_STAT.SQ_HEAD` (16_host_control.md). -/
def HST_RING_STAT.SQ_HEAD : Field := ⟨0x21014, 32, 0, 15, 0⟩
/-- `HST_RING_STAT.STATE` (16_host_control.md). -/
def HST_RING_STAT.STATE : Field := ⟨0x21014, 32, 0, 31, 30⟩
/-- `HST_SEM.FREE` (16_host_control.md). -/
def HST_SEM.FREE : Field := ⟨0x20400, 8, 0, 0, 0⟩
/-- `HST_SEM_OWNER.OWNER` (16_host_control.md). -/
def HST_SEM_OWNER.OWNER : Field := ⟨0x20404, 8, 0, 17, 16⟩
/-- `HST_SEM_OWNER.TAG` (16_host_control.md). -/
def HST_SEM_OWNER.TAG : Field := ⟨0x20404, 8, 0, 15, 0⟩
/-- `HST_SQ_BASE_LO.BASE` (16_host_control.md). -/
def HST_SQ_BASE_LO.BASE : Field := ⟨0x21000, 32, 0, 31, 0⟩
/-- `HST_STATUS.FROZEN` (16_host_control.md). -/
def HST_STATUS.FROZEN : Field := ⟨0x20000, 0, 0, 2, 2⟩
/-- `HST_STATUS.PORT_UP` (16_host_control.md). -/
def HST_STATUS.PORT_UP : Field := ⟨0x20000, 0, 0, 1, 0⟩
/-- `HST_STATUS.QUIESCED` (16_host_control.md). -/
def HST_STATUS.QUIESCED : Field := ⟨0x20000, 0, 0, 3, 3⟩
/-- `HST_STG_COUNT.ENTRIES` (16_host_control.md). -/
def HST_STG_COUNT.ENTRIES : Field := ⟨0x20604, 0, 0, 12, 0⟩
/-- `HST_STG_STATUS.ARMED` (16_host_control.md). -/
def HST_STG_STATUS.ARMED : Field := ⟨0x20600, 0, 0, 31, 31⟩
/-- `HST_STG_STATUS.CHECKED` (16_host_control.md). -/
def HST_STG_STATUS.CHECKED : Field := ⟨0x20600, 0, 0, 28, 28⟩
/-- `HST_STG_STATUS.CHECK_CODE` (16_host_control.md). -/
def HST_STG_STATUS.CHECK_CODE : Field := ⟨0x20600, 0, 0, 27, 20⟩
/-- `HST_STG_STATUS.ERR_INDEX` (16_host_control.md). -/
def HST_STG_STATUS.ERR_INDEX : Field := ⟨0x20600, 0, 0, 11, 0⟩
/-- `HST_WIN.BASE` (16_host_control.md). -/
def HST_WIN.BASE : Field := ⟨0x20080, 8, 0, 15, 0⟩
/-- `LNK_CFG.EN` (15_tovin_links.md). -/
def LNK_CFG.EN : Field := ⟨0x480000, 256, 0, 31, 31⟩
/-- `LNK_CFG.FFE` (15_tovin_links.md). -/
def LNK_CFG.FFE : Field := ⟨0x480000, 256, 0, 27, 24⟩
/-- `LNK_CFG.IDLE_T` (15_tovin_links.md). -/
def LNK_CFG.IDLE_T : Field := ⟨0x480000, 256, 0, 23, 16⟩
/-- `LNK_CFG.ROLE` (15_tovin_links.md). -/
def LNK_CFG.ROLE : Field := ⟨0x480000, 256, 0, 30, 28⟩
/-- `LNK_CFG.SLEEP_T` (15_tovin_links.md). -/
def LNK_CFG.SLEEP_T : Field := ⟨0x480000, 256, 0, 15, 8⟩
/-- `LNK_CRC_ERR.COUNT` (15_tovin_links.md). -/
def LNK_CRC_ERR.COUNT : Field := ⟨0x480014, 256, 0, 31, 0⟩
/-- `LNK_GW_CFG.CHAN` (15_tovin_links.md). -/
def LNK_GW_CFG.CHAN : Field := ⟨0x482000, 16, 0, 5, 0⟩
/-- `LNK_GW_CFG.EN` (15_tovin_links.md). -/
def LNK_GW_CFG.EN : Field := ⟨0x482000, 16, 0, 31, 31⟩
/-- `LNK_GW_CFG.LINK` (15_tovin_links.md). -/
def LNK_GW_CFG.LINK : Field := ⟨0x482000, 16, 0, 19, 16⟩
/-- `LNK_GW_OVF.COUNT` (15_tovin_links.md). -/
def LNK_GW_OVF.COUNT : Field := ⟨0x482008, 16, 0, 31, 0⟩
/-- `LNK_GW_STAT.RXD` (15_tovin_links.md). -/
def LNK_GW_STAT.RXD : Field := ⟨0x482004, 16, 0, 6, 0⟩
/-- `LNK_GW_STAT.TXD` (15_tovin_links.md). -/
def LNK_GW_STAT.TXD : Field := ⟨0x482004, 16, 0, 22, 16⟩
/-- `LNK_MRING.RX_SIZE` (15_tovin_links.md). -/
def LNK_MRING.RX_SIZE : Field := ⟨0x480048, 256, 0, 4, 0⟩
/-- `LNK_MRING.TX_SIZE` (15_tovin_links.md). -/
def LNK_MRING.TX_SIZE : Field := ⟨0x480048, 256, 0, 12, 8⟩
/-- `LNK_MRX_BASE.BASE` (15_tovin_links.md). -/
def LNK_MRX_BASE.BASE : Field := ⟨0x480040, 256, 0, 31, 0⟩
/-- `LNK_MSG_DROP.COUNT` (15_tovin_links.md). -/
def LNK_MSG_DROP.COUNT : Field := ⟨0x480034, 256, 0, 31, 0⟩
/-- `LNK_MTX_BASE.BASE` (15_tovin_links.md). -/
def LNK_MTX_BASE.BASE : Field := ⟨0x480044, 256, 0, 31, 0⟩
/-- `LNK_PARTNER.ID` (15_tovin_links.md). -/
def LNK_PARTNER.ID : Field := ⟨0x48000c, 256, 0, 31, 0⟩
/-- `LNK_POISON_TX.COUNT` (15_tovin_links.md). -/
def LNK_POISON_TX.COUNT : Field := ⟨0x480038, 256, 0, 31, 0⟩
/-- `LNK_REPLAYS.COUNT` (15_tovin_links.md). -/
def LNK_REPLAYS.COUNT : Field := ⟨0x480018, 256, 0, 31, 0⟩
/-- `LNK_RETRAINS.COUNT` (15_tovin_links.md). -/
def LNK_RETRAINS.COUNT : Field := ⟨0x48001c, 256, 0, 31, 0⟩
/-- `LNK_RTT.RTT` (15_tovin_links.md). -/
def LNK_RTT.RTT : Field := ⟨0x480010, 256, 0, 15, 0⟩
/-- `LNK_RX_BAD.TYPE` (15_tovin_links.md). -/
def LNK_RX_BAD.TYPE : Field := ⟨0x480030, 256, 0, 15, 0⟩
/-- `LNK_RX_BAD.UNBOUND` (15_tovin_links.md). -/
def LNK_RX_BAD.UNBOUND : Field := ⟨0x480030, 256, 0, 31, 16⟩
/-- `LNK_RX_FLITS_LO.COUNT` (15_tovin_links.md). -/
def LNK_RX_FLITS_LO.COUNT : Field := ⟨0x480028, 256, 0, 31, 0⟩
/-- `LNK_STAT.BURST` (15_tovin_links.md). -/
def LNK_STAT.BURST : Field := ⟨0x480008, 256, 0, 17, 17⟩
/-- `LNK_STAT.PARTNER_ROLE` (15_tovin_links.md). -/
def LNK_STAT.PARTNER_ROLE : Field := ⟨0x480008, 256, 0, 24, 22⟩
/-- `LNK_STAT.POL` (15_tovin_links.md). -/
def LNK_STAT.POL : Field := ⟨0x480008, 256, 0, 21, 18⟩
/-- `LNK_STAT.RX_NEXT` (15_tovin_links.md). -/
def LNK_STAT.RX_NEXT : Field := ⟨0x480008, 256, 0, 6, 0⟩
/-- `LNK_STAT.RX_PWR` (15_tovin_links.md). -/
def LNK_STAT.RX_PWR : Field := ⟨0x480008, 256, 0, 26, 25⟩
/-- `LNK_STAT.STATE` (15_tovin_links.md). -/
def LNK_STAT.STATE : Field := ⟨0x480008, 256, 0, 31, 29⟩
/-- `LNK_STAT.TX_PWR` (15_tovin_links.md). -/
def LNK_STAT.TX_PWR : Field := ⟨0x480008, 256, 0, 28, 27⟩
/-- `LNK_STAT.TX_UNACK` (15_tovin_links.md). -/
def LNK_STAT.TX_UNACK : Field := ⟨0x480008, 256, 0, 13, 7⟩
/-- `LNK_TMO.REPLAY_MAX` (15_tovin_links.md). -/
def LNK_TMO.REPLAY_MAX : Field := ⟨0x480004, 256, 0, 15, 8⟩
/-- `LNK_TMO.REPLAY_TO` (15_tovin_links.md). -/
def LNK_TMO.REPLAY_TO : Field := ⟨0x480004, 256, 0, 31, 16⟩
/-- `LNK_TMO.RETRAIN_TO` (15_tovin_links.md). -/
def LNK_TMO.RETRAIN_TO : Field := ⟨0x480004, 256, 0, 7, 0⟩
/-- `LNK_TX_FLITS_LO.COUNT` (15_tovin_links.md). -/
def LNK_TX_FLITS_LO.COUNT : Field := ⟨0x480020, 256, 0, 31, 0⟩
/-- `MEM_BANK_CE_LO.COUNT` (14_memory_system.md). -/
def MEM_BANK_CE_LO.COUNT : Field := ⟨0x41000, 16, 0, 31, 0⟩
/-- `MEM_BANK_CFG.OWNER` (14_memory_system.md). -/
def MEM_BANK_CFG.OWNER : Field := ⟨0x40000, 32, 0, 15, 0⟩
/-- `MEM_BANK_CFG.PWR` (14_memory_system.md). -/
def MEM_BANK_CFG.PWR : Field := ⟨0x40000, 32, 0, 31, 31⟩
/-- `MEM_BANK_FF.UE` (14_memory_system.md). -/
def MEM_BANK_FF.UE : Field := ⟨0x40008, 32, 0, 30, 30⟩
/-- `MEM_BANK_FF.VALID` (14_memory_system.md). -/
def MEM_BANK_FF.VALID : Field := ⟨0x40008, 32, 0, 31, 31⟩
/-- `MEM_BANK_FF.WORD` (14_memory_system.md). -/
def MEM_BANK_FF.WORD : Field := ⟨0x40008, 32, 0, 17, 0⟩
/-- `MEM_BANK_FF_REQ.REQ` (14_memory_system.md). -/
def MEM_BANK_FF_REQ.REQ : Field := ⟨0x4000c, 32, 0, 15, 0⟩
/-- `MEM_BANK_STAT.OWNER` (14_memory_system.md). -/
def MEM_BANK_STAT.OWNER : Field := ⟨0x40004, 32, 0, 15, 0⟩
/-- `MEM_BANK_STAT.REMAPS` (14_memory_system.md). -/
def MEM_BANK_STAT.REMAPS : Field := ⟨0x40004, 32, 0, 20, 16⟩
/-- `MEM_BANK_STAT.STATE` (14_memory_system.md). -/
def MEM_BANK_STAT.STATE : Field := ⟨0x40004, 32, 0, 31, 29⟩
/-- `MEM_BANK_UE.COUNT` (14_memory_system.md). -/
def MEM_BANK_UE.COUNT : Field := ⟨0x41008, 16, 0, 31, 0⟩
/-- `MEM_BANK_VIOL.COUNT` (14_memory_system.md). -/
def MEM_BANK_VIOL.COUNT : Field := ⟨0x4100c, 16, 0, 31, 0⟩
/-- `MEM_HBM_CE.COUNT` (14_memory_system.md). -/
def MEM_HBM_CE.COUNT : Field := ⟨0x44204, 8, 0, 31, 0⟩
/-- `MEM_HBM_STAT.READY` (14_memory_system.md). -/
def MEM_HBM_STAT.READY : Field := ⟨0x44200, 0, 0, 1, 0⟩
/-- `MEM_HBM_UE.COUNT` (14_memory_system.md). -/
def MEM_HBM_UE.COUNT : Field := ⟨0x44208, 8, 0, 31, 0⟩
/-- `MEM_KILN_RES.FAILS` (14_memory_system.md). -/
def MEM_KILN_RES.FAILS : Field := ⟨0x43100, 4, 0, 7, 0⟩
/-- `MEM_KILN_RES.RESULT` (14_memory_system.md). -/
def MEM_KILN_RES.RESULT : Field := ⟨0x43100, 4, 0, 31, 30⟩
/-- `MEM_KILN_STAT.BUSY` (14_memory_system.md). -/
def MEM_KILN_STAT.BUSY : Field := ⟨0x43000, 0, 0, 31, 31⟩
/-- `MEM_PART_CFG.BASE` (14_memory_system.md). -/
def MEM_PART_CFG.BASE : Field := ⟨0x44000, 16, 0, 8, 0⟩
/-- `MEM_PART_CFG.EN` (14_memory_system.md). -/
def MEM_PART_CFG.EN : Field := ⟨0x44000, 16, 0, 31, 31⟩
/-- `MEM_PART_CFG.SIZE` (14_memory_system.md). -/
def MEM_PART_CFG.SIZE : Field := ⟨0x44000, 16, 0, 25, 16⟩
/-- `MEM_PART_OWN.MASK` (14_memory_system.md). -/
def MEM_PART_OWN.MASK : Field := ⟨0x44004, 16, 0, 24, 0⟩
/-- `MEM_PART_VIOL.COUNT` (14_memory_system.md). -/
def MEM_PART_VIOL.COUNT : Field := ⟨0x44008, 16, 0, 31, 0⟩
/-- `MEM_POOL_BAD.COUNT` (14_memory_system.md). -/
def MEM_POOL_BAD.COUNT : Field := ⟨0x45014, 32, 0, 31, 0⟩
/-- `MEM_POOL_BASE.BASE` (14_memory_system.md). -/
def MEM_POOL_BASE.BASE : Field := ⟨0x45004, 32, 0, 31, 0⟩
/-- `MEM_POOL_CFG.COUNT` (14_memory_system.md). -/
def MEM_POOL_CFG.COUNT : Field := ⟨0x45000, 32, 0, 16, 0⟩
/-- `MEM_POOL_CFG.EN` (14_memory_system.md). -/
def MEM_POOL_CFG.EN : Field := ⟨0x45000, 32, 0, 31, 31⟩
/-- `MEM_POOL_CFG.SIZE` (14_memory_system.md). -/
def MEM_POOL_CFG.SIZE : Field := ⟨0x45000, 32, 0, 30, 30⟩
/-- `MEM_POOL_FAIL.COUNT` (14_memory_system.md). -/
def MEM_POOL_FAIL.COUNT : Field := ⟨0x45010, 32, 0, 31, 0⟩
/-- `MEM_POOL_FREE.FREE` (14_memory_system.md). -/
def MEM_POOL_FREE.FREE : Field := ⟨0x45008, 32, 0, 16, 0⟩
/-- `MEM_POOL_MIN.MIN` (14_memory_system.md). -/
def MEM_POOL_MIN.MIN : Field := ⟨0x4500c, 32, 0, 16, 0⟩
/-- `MEM_REMAP.RETIRED` (14_memory_system.md). -/
def MEM_REMAP.RETIRED : Field := ⟨0x42000, 64, 4, 30, 30⟩
/-- `MEM_REMAP.VALID` (14_memory_system.md). -/
def MEM_REMAP.VALID : Field := ⟨0x42000, 64, 4, 31, 31⟩
/-- `MEM_REMAP.WORD` (14_memory_system.md). -/
def MEM_REMAP.WORD : Field := ⟨0x42000, 64, 4, 17, 0⟩
/-- `MEM_TRK_CFG.THRESH` (14_memory_system.md). -/
def MEM_TRK_CFG.THRESH : Field := ⟨0x46000, 0, 0, 3, 0⟩
/-- `MEM_TRK_CFG.WINDOW` (14_memory_system.md). -/
def MEM_TRK_CFG.WINDOW : Field := ⟨0x46000, 0, 0, 19, 4⟩
/-- `MEM_TRK_MISS.COUNT` (14_memory_system.md). -/
def MEM_TRK_MISS.COUNT : Field := ⟨0x40010, 32, 0, 31, 0⟩
/-- `PAIR_CASK_CFG.ELA` (18_pair_mirroring.md). -/
def PAIR_CASK_CFG.ELA : Field := ⟨0x4c0018, 0, 0, 31, 31⟩
/-- `PAIR_CASK_CFG.EVERY` (18_pair_mirroring.md). -/
def PAIR_CASK_CFG.EVERY : Field := ⟨0x4c0018, 0, 0, 30, 16⟩
/-- `PAIR_CASK_CFG.REGIONS` (18_pair_mirroring.md). -/
def PAIR_CASK_CFG.REGIONS : Field := ⟨0x4c0018, 0, 0, 15, 0⟩
/-- `PAIR_CASK_Q_LO.Q` (18_pair_mirroring.md). -/
def PAIR_CASK_Q_LO.Q : Field := ⟨0x4c0058, 0, 0, 31, 0⟩
/-- `PAIR_CASK_RNG.BASE` (18_pair_mirroring.md). -/
def PAIR_CASK_RNG.BASE : Field := ⟨0x4c0020, 8, 0, 31, 0⟩
/-- `PAIR_CASK_RNG_LEN.WORDS` (18_pair_mirroring.md). -/
def PAIR_CASK_RNG_LEN.WORDS : Field := ⟨0x4c0024, 8, 0, 12, 0⟩
/-- `PAIR_CFG.AUTO` (18_pair_mirroring.md). -/
def PAIR_CFG.AUTO : Field := ⟨0x4c0000, 0, 0, 29, 29⟩
/-- `PAIR_CFG.EN` (18_pair_mirroring.md). -/
def PAIR_CFG.EN : Field := ⟨0x4c0000, 0, 0, 31, 31⟩
/-- `PAIR_CFG.REGION` (18_pair_mirroring.md). -/
def PAIR_CFG.REGION : Field := ⟨0x4c0000, 0, 0, 3, 0⟩
/-- `PAIR_CFG.ROLE` (18_pair_mirroring.md). -/
def PAIR_CFG.ROLE : Field := ⟨0x4c0000, 0, 0, 30, 30⟩
/-- `PAIR_DIVERGE.COUNT` (18_pair_mirroring.md). -/
def PAIR_DIVERGE.COUNT : Field := ⟨0x4c0054, 0, 0, 31, 0⟩
/-- `PAIR_GW.GATEWAYS` (18_pair_mirroring.md). -/
def PAIR_GW.GATEWAYS : Field := ⟨0x4c000c, 0, 0, 15, 0⟩
/-- `PAIR_LAG.LAG` (18_pair_mirroring.md). -/
def PAIR_LAG.LAG : Field := ⟨0x4c0004, 0, 0, 19, 0⟩
/-- `PAIR_PINS.BANKS` (18_pair_mirroring.md). -/
def PAIR_PINS.BANKS : Field := ⟨0x4c0008, 0, 0, 15, 0⟩
/-- `PAIR_SLACK.STEPS` (18_pair_mirroring.md). -/
def PAIR_SLACK.STEPS : Field := ⟨0x4c004c, 0, 0, 31, 0⟩
/-- `PAIR_STAT.PARTNER_HB` (18_pair_mirroring.md). -/
def PAIR_STAT.PARTNER_HB : Field := ⟨0x4c0040, 0, 0, 27, 27⟩
/-- `PAIR_STAT.ROLE` (18_pair_mirroring.md). -/
def PAIR_STAT.ROLE : Field := ⟨0x4c0040, 0, 0, 28, 28⟩
/-- `PAIR_STAT.STATE` (18_pair_mirroring.md). -/
def PAIR_STAT.STATE : Field := ⟨0x4c0040, 0, 0, 31, 29⟩
/-- `PAIR_STAT.TB_LOCK` (18_pair_mirroring.md). -/
def PAIR_STAT.TB_LOCK : Field := ⟨0x4c0040, 0, 0, 26, 26⟩
/-- `PAIR_TB_OFS_LO.OFS` (18_pair_mirroring.md). -/
def PAIR_TB_OFS_LO.OFS : Field := ⟨0x4c0044, 0, 0, 31, 0⟩
/-- `PAIR_TMO.HB_TO` (18_pair_mirroring.md). -/
def PAIR_TMO.HB_TO : Field := ⟨0x4c0010, 0, 0, 15, 0⟩
/-- `PAIR_TMO.SEL_T` (18_pair_mirroring.md). -/
def PAIR_TMO.SEL_T : Field := ⟨0x4c0010, 0, 0, 31, 16⟩
/-- `PIN_BANK_CTRL.RELEASE` (05_uut_pins_compare.md). -/
def PIN_BANK_CTRL.RELEASE : Field := ⟨0x302000, 16, 0, 0, 0⟩
/-- `PIN_BANK_STAT.RELEASED` (05_uut_pins_compare.md). -/
def PIN_BANK_STAT.RELEASED : Field := ⟨0x302004, 16, 0, 1, 1⟩
/-- `PIN_BANK_STAT.VIO_GOOD` (05_uut_pins_compare.md). -/
def PIN_BANK_STAT.VIO_GOOD : Field := ⟨0x302004, 16, 0, 0, 0⟩
/-- `PIN_CFG.FAB_MODE` (05_uut_pins_compare.md). -/
def PIN_CFG.FAB_MODE : Field := ⟨0x300000, 16, 0, 3, 2⟩
/-- `PIN_CFG.OWNER` (05_uut_pins_compare.md). -/
def PIN_CFG.OWNER : Field := ⟨0x300000, 16, 0, 1, 0⟩
/-- `PIN_CFG.PULL` (05_uut_pins_compare.md). -/
def PIN_CFG.PULL : Field := ⟨0x300000, 16, 0, 9, 8⟩
/-- `PIN_CMP_CFG.CAPTURE` (05_uut_pins_compare.md). -/
def PIN_CMP_CFG.CAPTURE : Field := ⟨0x304000, 8, 0, 16, 16⟩
/-- `PIN_CMP_CFG.EN` (05_uut_pins_compare.md). -/
def PIN_CMP_CFG.EN : Field := ⟨0x304000, 8, 0, 0, 0⟩
/-- `PIN_CMP_CFG.EVENT` (05_uut_pins_compare.md). -/
def PIN_CMP_CFG.EVENT : Field := ⟨0x304000, 8, 0, 15, 15⟩
/-- `PIN_CMP_CFG.HALT` (05_uut_pins_compare.md). -/
def PIN_CMP_CFG.HALT : Field := ⟨0x304000, 8, 0, 17, 17⟩
/-- `PIN_CMP_CFG.WIDTH` (05_uut_pins_compare.md). -/
def PIN_CMP_CFG.WIDTH : Field := ⟨0x304000, 8, 0, 12, 8⟩
/-- `PIN_CMP_CFG.WSTART` (05_uut_pins_compare.md). -/
def PIN_CMP_CFG.WSTART : Field := ⟨0x304000, 8, 0, 7, 1⟩
/-- `PIN_CMP_CNT.FAILS` (05_uut_pins_compare.md). -/
def PIN_CMP_CNT.FAILS : Field := ⟨0x304004, 8, 0, 31, 0⟩
/-- `PIN_CMP_HALT.REGIONS` (05_uut_pins_compare.md). -/
def PIN_CMP_HALT.REGIONS : Field := ⟨0x302008, 16, 0, 15, 0⟩
/-- `PIN_DCO_CTRL.EN` (05_uut_pins_compare.md). -/
def PIN_DCO_CTRL.EN : Field := ⟨0x306000, 32, 0, 0, 0⟩
/-- `PIN_DCO_CTRL.LOCKED` (05_uut_pins_compare.md). -/
def PIN_DCO_CTRL.LOCKED : Field := ⟨0x306000, 32, 0, 7, 7⟩
/-- `PIN_DCO_CTRL.PROFILE` (05_uut_pins_compare.md). -/
def PIN_DCO_CTRL.PROFILE : Field := ⟨0x306000, 32, 0, 3, 3⟩
/-- `PIN_DCO_CTRL.SSC` (05_uut_pins_compare.md). -/
def PIN_DCO_CTRL.SSC : Field := ⟨0x306000, 32, 0, 2, 1⟩
/-- `PIN_DCO_DIV.D` (05_uut_pins_compare.md). -/
def PIN_DCO_DIV.D : Field := ⟨0x306004, 32, 0, 12, 0⟩
/-- `PIN_DCO_DIV.N` (05_uut_pins_compare.md). -/
def PIN_DCO_DIV.N : Field := ⟨0x306004, 32, 0, 19, 13⟩
/-- `PIN_DCO_FRAC.F` (05_uut_pins_compare.md). -/
def PIN_DCO_FRAC.F : Field := ⟨0x306008, 32, 0, 23, 0⟩
/-- `PIN_DCO_PROF.P_EVEN` (05_uut_pins_compare.md). -/
def PIN_DCO_PROF.P_EVEN : Field := ⟨0x307000, 128, 4, 15, 0⟩
/-- `PIN_DCO_SSC.DEPTH` (05_uut_pins_compare.md). -/
def PIN_DCO_SSC.DEPTH : Field := ⟨0x30600c, 32, 0, 6, 0⟩
/-- `PIN_DCO_SSC.RATE` (05_uut_pins_compare.md). -/
def PIN_DCO_SSC.RATE : Field := ⟨0x30600c, 32, 0, 17, 7⟩
/-- `PIN_FF_FRAME_LO.FRAME` (05_uut_pins_compare.md). -/
def PIN_FF_FRAME_LO.FRAME : Field := ⟨0x303008, 32, 0, 31, 0⟩
/-- `PIN_FF_STAT.EXPECTED` (05_uut_pins_compare.md). -/
def PIN_FF_STAT.EXPECTED : Field := ⟨0x303000, 32, 0, 10, 10⟩
/-- `PIN_FF_STAT.MORE` (05_uut_pins_compare.md). -/
def PIN_FF_STAT.MORE : Field := ⟨0x303000, 32, 0, 30, 30⟩
/-- `PIN_FF_STAT.OBSERVED` (05_uut_pins_compare.md). -/
def PIN_FF_STAT.OBSERVED : Field := ⟨0x303000, 32, 0, 9, 9⟩
/-- `PIN_FF_STAT.PIN` (05_uut_pins_compare.md). -/
def PIN_FF_STAT.PIN : Field := ⟨0x303000, 32, 0, 8, 0⟩
/-- `PIN_FF_STAT.REGION` (05_uut_pins_compare.md). -/
def PIN_FF_STAT.REGION : Field := ⟨0x303000, 32, 0, 15, 12⟩
/-- `PIN_FF_STAT.UNSTABLE` (05_uut_pins_compare.md). -/
def PIN_FF_STAT.UNSTABLE : Field := ⟨0x303000, 32, 0, 11, 11⟩
/-- `PIN_FF_STAT.VALID` (05_uut_pins_compare.md). -/
def PIN_FF_STAT.VALID : Field := ⟨0x303000, 32, 0, 31, 31⟩
/-- `PIN_FF_STEP.STEP` (05_uut_pins_compare.md). -/
def PIN_FF_STEP.STEP : Field := ⟨0x303004, 32, 0, 12, 0⟩
/-- `PIN_FF_TB_LO.TB` (05_uut_pins_compare.md). -/
def PIN_FF_TB_LO.TB : Field := ⟨0x303010, 32, 0, 31, 0⟩
/-- `PIN_STAT.FAB_LATCH` (05_uut_pins_compare.md). -/
def PIN_STAT.FAB_LATCH : Field := ⟨0x300008, 16, 0, 5, 5⟩
/-- `PIN_STAT.IN` (05_uut_pins_compare.md). -/
def PIN_STAT.IN : Field := ⟨0x300008, 16, 0, 0, 0⟩
/-- `PIN_STAT.OE` (05_uut_pins_compare.md). -/
def PIN_STAT.OE : Field := ⟨0x300008, 16, 0, 2, 2⟩
/-- `PIN_STAT.OUT` (05_uut_pins_compare.md). -/
def PIN_STAT.OUT : Field := ⟨0x300008, 16, 0, 1, 1⟩
/-- `PIN_STAT.OWNER` (05_uut_pins_compare.md). -/
def PIN_STAT.OWNER : Field := ⟨0x300008, 16, 0, 4, 3⟩
/-- `PIN_STATIC.OE` (05_uut_pins_compare.md). -/
def PIN_STATIC.OE : Field := ⟨0x300004, 16, 0, 1, 1⟩
/-- `PIN_STATIC.VALUE` (05_uut_pins_compare.md). -/
def PIN_STATIC.VALUE : Field := ⟨0x300004, 16, 0, 0, 0⟩
/-- `RAD_DOM_CFG.EN` (11_radio_engine.md). -/
def RAD_DOM_CFG.EN : Field := ⟨0x389000, 32, 0, 31, 31⟩
/-- `RAD_DOM_CFG.KIND` (11_radio_engine.md). -/
def RAD_DOM_CFG.KIND : Field := ⟨0x389000, 32, 0, 30, 29⟩
/-- `RAD_DOM_CFG.MU` (11_radio_engine.md). -/
def RAD_DOM_CFG.MU : Field := ⟨0x389000, 32, 0, 28, 26⟩
/-- `RAD_DOM_CFG.SPF` (11_radio_engine.md). -/
def RAD_DOM_CFG.SPF : Field := ⟨0x389000, 32, 0, 15, 0⟩
/-- `RAD_DOM_EPOCH_LO.EPOCH` (11_radio_engine.md). -/
def RAD_DOM_EPOCH_LO.EPOCH : Field := ⟨0x389008, 32, 0, 31, 0⟩
/-- `RAD_DOM_NOW.FRAME` (11_radio_engine.md). -/
def RAD_DOM_NOW.FRAME : Field := ⟨0x389010, 32, 0, 31, 22⟩
/-- `RAD_DOM_NOW.SLOT` (11_radio_engine.md). -/
def RAD_DOM_NOW.SLOT : Field := ⟨0x389010, 32, 0, 15, 0⟩
/-- `RAD_DOM_PERIOD.PERIOD` (11_radio_engine.md). -/
def RAD_DOM_PERIOD.PERIOD : Field := ⟨0x389004, 32, 0, 31, 0⟩
/-- `RAD_FIR.COEF` (11_radio_engine.md). -/
def RAD_FIR.COEF : Field := ⟨0x38b000, 128, 4, 17, 0⟩
/-- `RAD_GLB_LEAD.LEAD` (11_radio_engine.md). -/
def RAD_GLB_LEAD.LEAD : Field := ⟨0x38a000, 0, 0, 19, 0⟩
/-- `RAD_RX_CFG.CAP_MARGIN` (11_radio_engine.md). -/
def RAD_RX_CFG.CAP_MARGIN : Field := ⟨0x384000, 256, 0, 15, 12⟩
/-- `RAD_RX_CFG.EN` (11_radio_engine.md). -/
def RAD_RX_CFG.EN : Field := ⟨0x384000, 256, 0, 31, 31⟩
/-- `RAD_RX_CFG.HYPS` (11_radio_engine.md). -/
def RAD_RX_CFG.HYPS : Field := ⟨0x384000, 256, 0, 29, 26⟩
/-- `RAD_RX_CFG.PREEMPT` (11_radio_engine.md). -/
def RAD_RX_CFG.PREEMPT : Field := ⟨0x384000, 256, 0, 30, 30⟩
/-- `RAD_RX_CFG.PRESET` (11_radio_engine.md). -/
def RAD_RX_CFG.PRESET : Field := ⟨0x384000, 256, 0, 11, 8⟩
/-- `RAD_RX_CFG.SLOT` (11_radio_engine.md). -/
def RAD_RX_CFG.SLOT : Field := ⟨0x384000, 256, 0, 23, 16⟩
/-- `RAD_RX_DET.DWELL` (11_radio_engine.md). -/
def RAD_RX_DET.DWELL : Field := ⟨0x384004, 256, 0, 19, 8⟩
/-- `RAD_RX_DET.PMR_TH` (11_radio_engine.md). -/
def RAD_RX_DET.PMR_TH : Field := ⟨0x384004, 256, 0, 7, 0⟩
/-- `RAD_RX_DET.RSSI_TH` (11_radio_engine.md). -/
def RAD_RX_DET.RSSI_TH : Field := ⟨0x384004, 256, 0, 31, 20⟩
/-- `RAD_RX_DROP.COUNT` (11_radio_engine.md). -/
def RAD_RX_DROP.COUNT : Field := ⟨0x384034, 256, 0, 31, 0⟩
/-- `RAD_RX_FALSE.COUNT` (11_radio_engine.md). -/
def RAD_RX_FALSE.COUNT : Field := ⟨0x384024, 256, 0, 31, 0⟩
/-- `RAD_RX_LLR.SHIFT` (11_radio_engine.md). -/
def RAD_RX_LLR.SHIFT : Field := ⟨0x38400c, 256, 0, 4, 0⟩
/-- `RAD_RX_OUT.BASE` (11_radio_engine.md). -/
def RAD_RX_OUT.BASE : Field := ⟨0x384010, 256, 0, 31, 0⟩
/-- `RAD_RX_OUTCFG.SIZE` (11_radio_engine.md). -/
def RAD_RX_OUTCFG.SIZE : Field := ⟨0x384014, 256, 0, 4, 0⟩
/-- `RAD_RX_PKTS.COUNT` (11_radio_engine.md). -/
def RAD_RX_PKTS.COUNT : Field := ⟨0x384020, 256, 0, 31, 0⟩
/-- `RAD_RX_PREEMPT.COUNT` (11_radio_engine.md). -/
def RAD_RX_PREEMPT.COUNT : Field := ⟨0x384028, 256, 0, 31, 0⟩
/-- `RAD_RX_PROF_A.BPS` (11_radio_engine.md). -/
def RAD_RX_PROF_A.BPS : Field := ⟨0x384040, 256, 16, 15, 14⟩
/-- `RAD_RX_PROF_A.MAP` (11_radio_engine.md). -/
def RAD_RX_PROF_A.MAP : Field := ⟨0x384040, 256, 16, 31, 29⟩
/-- `RAD_RX_PROF_A.NCHIP` (11_radio_engine.md). -/
def RAD_RX_PROF_A.NCHIP : Field := ⟨0x384040, 256, 16, 26, 16⟩
/-- `RAD_RX_PROF_A.SPREAD` (11_radio_engine.md). -/
def RAD_RX_PROF_A.SPREAD : Field := ⟨0x384040, 256, 16, 28, 27⟩
/-- `RAD_RX_PROF_A.TAP_BASE` (11_radio_engine.md). -/
def RAD_RX_PROF_A.TAP_BASE : Field := ⟨0x384040, 256, 16, 11, 0⟩
/-- `RAD_RX_PROF_B.OSR` (11_radio_engine.md). -/
def RAD_RX_PROF_B.OSR : Field := ⟨0x384044, 256, 16, 31, 27⟩
/-- `RAD_RX_PROF_B.PRE_SYM` (11_radio_engine.md). -/
def RAD_RX_PROF_B.PRE_SYM : Field := ⟨0x384044, 256, 16, 17, 14⟩
/-- `RAD_RX_PROF_B.PULSE` (11_radio_engine.md). -/
def RAD_RX_PROF_B.PULSE : Field := ⟨0x384044, 256, 16, 26, 26⟩
/-- `RAD_RX_PROF_B.ROLLOFF` (11_radio_engine.md). -/
def RAD_RX_PROF_B.ROLLOFF : Field := ⟨0x384044, 256, 16, 25, 18⟩
/-- `RAD_RX_PROF_C.SFD` (11_radio_engine.md). -/
def RAD_RX_PROF_C.SFD : Field := ⟨0x384048, 256, 16, 31, 0⟩
/-- `RAD_RX_PROF_D.HDR` (11_radio_engine.md). -/
def RAD_RX_PROF_D.HDR : Field := ⟨0x38404c, 256, 16, 27, 26⟩
/-- `RAD_RX_PROF_D.MAXLEN` (11_radio_engine.md). -/
def RAD_RX_PROF_D.MAXLEN : Field := ⟨0x38404c, 256, 16, 15, 0⟩
/-- `RAD_RX_PROF_D.PRE_LEN` (11_radio_engine.md). -/
def RAD_RX_PROF_D.PRE_LEN : Field := ⟨0x38404c, 256, 16, 25, 16⟩
/-- `RAD_RX_PROF_D.SFD_LEN` (11_radio_engine.md). -/
def RAD_RX_PROF_D.SFD_LEN : Field := ⟨0x38404c, 256, 16, 31, 28⟩
/-- `RAD_RX_QUAL.PEND_TO` (11_radio_engine.md). -/
def RAD_RX_QUAL.PEND_TO : Field := ⟨0x384008, 256, 0, 11, 4⟩
/-- `RAD_RX_QUAL.QUAL_N` (11_radio_engine.md). -/
def RAD_RX_QUAL.QUAL_N : Field := ⟨0x384008, 256, 0, 31, 28⟩
/-- `RAD_RX_QUAL.QUAL_TO` (11_radio_engine.md). -/
def RAD_RX_QUAL.QUAL_TO : Field := ⟨0x384008, 256, 0, 27, 20⟩
/-- `RAD_RX_QUAL.SFD_WIN` (11_radio_engine.md). -/
def RAD_RX_QUAL.SFD_WIN : Field := ⟨0x384008, 256, 0, 19, 12⟩
/-- `RAD_RX_RESTART.COUNT` (11_radio_engine.md). -/
def RAD_RX_RESTART.COUNT : Field := ⟨0x38402c, 256, 0, 31, 0⟩
/-- `RAD_RX_SFDTO.COUNT` (11_radio_engine.md). -/
def RAD_RX_SFDTO.COUNT : Field := ⟨0x384030, 256, 0, 31, 0⟩
/-- `RAD_RX_STATUS.PROFILE` (11_radio_engine.md). -/
def RAD_RX_STATUS.PROFILE : Field := ⟨0x384018, 256, 0, 6, 4⟩
/-- `RAD_RX_STATUS.REF` (11_radio_engine.md). -/
def RAD_RX_STATUS.REF : Field := ⟨0x384018, 256, 0, 27, 16⟩
/-- `RAD_RX_STATUS.STATE` (11_radio_engine.md). -/
def RAD_RX_STATUS.STATE : Field := ⟨0x384018, 256, 0, 2, 0⟩
/-- `RAD_SLOT_CFG.DOMAIN` (11_radio_engine.md). -/
def RAD_SLOT_CFG.DOMAIN : Field := ⟨0x380000, 64, 0, 27, 24⟩
/-- `RAD_SLOT_CFG.EN` (11_radio_engine.md). -/
def RAD_SLOT_CFG.EN : Field := ⟨0x380000, 64, 0, 31, 31⟩
/-- `RAD_SLOT_CFG.RX_CHAN` (11_radio_engine.md). -/
def RAD_SLOT_CFG.RX_CHAN : Field := ⟨0x380000, 64, 0, 18, 13⟩
/-- `RAD_SLOT_CFG.RX_EN` (11_radio_engine.md). -/
def RAD_SLOT_CFG.RX_EN : Field := ⟨0x380000, 64, 0, 23, 23⟩
/-- `RAD_SLOT_CFG.RX_LINK` (11_radio_engine.md). -/
def RAD_SLOT_CFG.RX_LINK : Field := ⟨0x380000, 64, 0, 22, 19⟩
/-- `RAD_SLOT_CFG.TX_CHAN` (11_radio_engine.md). -/
def RAD_SLOT_CFG.TX_CHAN : Field := ⟨0x380000, 64, 0, 7, 2⟩
/-- `RAD_SLOT_CFG.TX_EN` (11_radio_engine.md). -/
def RAD_SLOT_CFG.TX_EN : Field := ⟨0x380000, 64, 0, 12, 12⟩
/-- `RAD_SLOT_CFG.TX_LINK` (11_radio_engine.md). -/
def RAD_SLOT_CFG.TX_LINK : Field := ⟨0x380000, 64, 0, 11, 8⟩
/-- `RAD_SLOT_CFG.TX_SRC` (11_radio_engine.md). -/
def RAD_SLOT_CFG.TX_SRC : Field := ⟨0x380000, 64, 0, 29, 28⟩
/-- `RAD_SLOT_CFG.WIDE` (11_radio_engine.md). -/
def RAD_SLOT_CFG.WIDE : Field := ⟨0x380000, 64, 0, 30, 30⟩
/-- `RAD_SLOT_FE.FIRSET` (11_radio_engine.md). -/
def RAD_SLOT_FE.FIRSET : Field := ⟨0x380010, 64, 0, 15, 12⟩
/-- `RAD_SLOT_FE.WIN` (11_radio_engine.md). -/
def RAD_SLOT_FE.WIN : Field := ⟨0x380010, 64, 0, 11, 8⟩
/-- `RAD_SLOT_GAIN.RX_GAIN` (11_radio_engine.md). -/
def RAD_SLOT_GAIN.RX_GAIN : Field := ⟨0x380014, 64, 0, 15, 0⟩
/-- `RAD_SLOT_GAIN.TX_GAIN` (11_radio_engine.md). -/
def RAD_SLOT_GAIN.TX_GAIN : Field := ⟨0x380014, 64, 0, 31, 16⟩
/-- `RAD_SLOT_GD.GD` (11_radio_engine.md). -/
def RAD_SLOT_GD.GD : Field := ⟨0x380030, 64, 0, 19, 0⟩
/-- `RAD_SLOT_NCO.FREQ` (11_radio_engine.md). -/
def RAD_SLOT_NCO.FREQ : Field := ⟨0x380008, 64, 0, 31, 0⟩
/-- `RAD_SLOT_RATE.FL` (11_radio_engine.md). -/
def RAD_SLOT_RATE.FL : Field := ⟨0x380004, 64, 0, 31, 0⟩
/-- `RAD_SLOT_RING.RX_SIZE` (11_radio_engine.md). -/
def RAD_SLOT_RING.RX_SIZE : Field := ⟨0x380028, 64, 0, 4, 0⟩
/-- `RAD_SLOT_RING.TX_SIZE` (11_radio_engine.md). -/
def RAD_SLOT_RING.TX_SIZE : Field := ⟨0x380028, 64, 0, 12, 8⟩
/-- `RAD_SLOT_RSMP.H` (11_radio_engine.md). -/
def RAD_SLOT_RSMP.H : Field := ⟨0x38000c, 64, 0, 31, 29⟩
/-- `RAD_SLOT_RSMP.RATIO` (11_radio_engine.md). -/
def RAD_SLOT_RSMP.RATIO : Field := ⟨0x38000c, 64, 0, 25, 0⟩
/-- `RAD_SLOT_RXRING.BASE` (11_radio_engine.md). -/
def RAD_SLOT_RXRING.BASE : Field := ⟨0x380020, 64, 0, 31, 0⟩
/-- `RAD_SLOT_SAT.RX` (11_radio_engine.md). -/
def RAD_SLOT_SAT.RX : Field := ⟨0x380034, 64, 0, 15, 0⟩
/-- `RAD_SLOT_SAT.TX` (11_radio_engine.md). -/
def RAD_SLOT_SAT.TX : Field := ⟨0x380034, 64, 0, 31, 16⟩
/-- `RAD_SLOT_STALL.COUNT` (11_radio_engine.md). -/
def RAD_SLOT_STALL.COUNT : Field := ⟨0x38003c, 64, 0, 31, 0⟩
/-- `RAD_SLOT_START_LO.TS` (11_radio_engine.md). -/
def RAD_SLOT_START_LO.TS : Field := ⟨0x380018, 64, 0, 31, 0⟩
/-- `RAD_SLOT_STAT.RSSI` (11_radio_engine.md). -/
def RAD_SLOT_STAT.RSSI : Field := ⟨0x38002c, 64, 0, 11, 0⟩
/-- `RAD_SLOT_STAT.RUNNING` (11_radio_engine.md). -/
def RAD_SLOT_STAT.RUNNING : Field := ⟨0x38002c, 64, 0, 31, 31⟩
/-- `RAD_SLOT_TXRING.BASE` (11_radio_engine.md). -/
def RAD_SLOT_TXRING.BASE : Field := ⟨0x380024, 64, 0, 31, 0⟩
/-- `RAD_SLOT_UNDER.COUNT` (11_radio_engine.md). -/
def RAD_SLOT_UNDER.COUNT : Field := ⟨0x380038, 64, 0, 31, 0⟩
/-- `RAD_TMR_CFG.DOMAIN` (11_radio_engine.md). -/
def RAD_TMR_CFG.DOMAIN : Field := ⟨0x389400, 16, 0, 30, 27⟩
/-- `RAD_TMR_CFG.EN` (11_radio_engine.md). -/
def RAD_TMR_CFG.EN : Field := ⟨0x389400, 16, 0, 31, 31⟩
/-- `RAD_TMR_CFG.EVERY` (11_radio_engine.md). -/
def RAD_TMR_CFG.EVERY : Field := ⟨0x389400, 16, 0, 25, 16⟩
/-- `RAD_TMR_CFG.PHASE` (11_radio_engine.md). -/
def RAD_TMR_CFG.PHASE : Field := ⟨0x389400, 16, 0, 9, 0⟩
/-- `RAD_TMR_FIRES.COUNT` (11_radio_engine.md). -/
def RAD_TMR_FIRES.COUNT : Field := ⟨0x389408, 16, 0, 31, 0⟩
/-- `RAD_TMR_OFS.OFS` (11_radio_engine.md). -/
def RAD_TMR_OFS.OFS : Field := ⟨0x389404, 16, 0, 31, 0⟩
/-- `RAD_TX_CFG.EN` (11_radio_engine.md). -/
def RAD_TX_CFG.EN : Field := ⟨0x388000, 64, 0, 31, 31⟩
/-- `RAD_TX_CFG.PRESET` (11_radio_engine.md). -/
def RAD_TX_CFG.PRESET : Field := ⟨0x388000, 64, 0, 11, 8⟩
/-- `RAD_TX_CFG.SLOT` (11_radio_engine.md). -/
def RAD_TX_CFG.SLOT : Field := ⟨0x388000, 64, 0, 23, 16⟩
/-- `RAD_TX_MISSED.COUNT` (11_radio_engine.md). -/
def RAD_TX_MISSED.COUNT : Field := ⟨0x388008, 64, 0, 31, 0⟩
/-- `RAD_TX_PROF_A.BPS` (11_radio_engine.md). -/
def RAD_TX_PROF_A.BPS : Field := ⟨0x388010, 64, 0, 15, 14⟩
/-- `RAD_TX_PROF_A.MAP` (11_radio_engine.md). -/
def RAD_TX_PROF_A.MAP : Field := ⟨0x388010, 64, 0, 31, 29⟩
/-- `RAD_TX_PROF_A.NCHIP` (11_radio_engine.md). -/
def RAD_TX_PROF_A.NCHIP : Field := ⟨0x388010, 64, 0, 26, 16⟩
/-- `RAD_TX_PROF_A.SPREAD` (11_radio_engine.md). -/
def RAD_TX_PROF_A.SPREAD : Field := ⟨0x388010, 64, 0, 28, 27⟩
/-- `RAD_TX_PROF_A.TAP_BASE` (11_radio_engine.md). -/
def RAD_TX_PROF_A.TAP_BASE : Field := ⟨0x388010, 64, 0, 11, 0⟩
/-- `RAD_TX_PROF_B.OSR` (11_radio_engine.md). -/
def RAD_TX_PROF_B.OSR : Field := ⟨0x388014, 64, 0, 31, 27⟩
/-- `RAD_TX_PROF_B.PRE_SYM` (11_radio_engine.md). -/
def RAD_TX_PROF_B.PRE_SYM : Field := ⟨0x388014, 64, 0, 17, 14⟩
/-- `RAD_TX_PROF_B.PULSE` (11_radio_engine.md). -/
def RAD_TX_PROF_B.PULSE : Field := ⟨0x388014, 64, 0, 26, 26⟩
/-- `RAD_TX_PROF_B.ROLLOFF` (11_radio_engine.md). -/
def RAD_TX_PROF_B.ROLLOFF : Field := ⟨0x388014, 64, 0, 25, 18⟩
/-- `RAD_TX_PROF_C.SFD` (11_radio_engine.md). -/
def RAD_TX_PROF_C.SFD : Field := ⟨0x388018, 64, 0, 31, 0⟩
/-- `RAD_TX_PROF_D.HDR` (11_radio_engine.md). -/
def RAD_TX_PROF_D.HDR : Field := ⟨0x38801c, 64, 0, 27, 26⟩
/-- `RAD_TX_PROF_D.MAXLEN` (11_radio_engine.md). -/
def RAD_TX_PROF_D.MAXLEN : Field := ⟨0x38801c, 64, 0, 15, 0⟩
/-- `RAD_TX_PROF_D.PRE_LEN` (11_radio_engine.md). -/
def RAD_TX_PROF_D.PRE_LEN : Field := ⟨0x38801c, 64, 0, 25, 16⟩
/-- `RAD_TX_PROF_D.SFD_LEN` (11_radio_engine.md). -/
def RAD_TX_PROF_D.SFD_LEN : Field := ⟨0x38801c, 64, 0, 31, 28⟩
/-- `RAD_TX_STAT.DEPTH` (11_radio_engine.md). -/
def RAD_TX_STAT.DEPTH : Field := ⟨0x388004, 64, 0, 4, 0⟩
/-- `SC_CTRL.RUN` (08_signal_cores.md). -/
def SC_CTRL.RUN : Field := ⟨0xc0000, 4096, 0, 0, 0⟩
/-- `SC_EXC.CAUSE` (08_signal_cores.md). -/
def SC_EXC.CAUSE : Field := ⟨0xc0010, 4096, 0, 7, 0⟩
/-- `SC_EXC.COUNT` (08_signal_cores.md). -/
def SC_EXC.COUNT : Field := ⟨0xc0010, 4096, 0, 31, 24⟩
/-- `SC_EXC.PC` (08_signal_cores.md). -/
def SC_EXC.PC : Field := ⟨0xc0010, 4096, 0, 20, 8⟩
/-- `SC_IRQ_PEND.PEND` (08_signal_cores.md). -/
def SC_IRQ_PEND.PEND : Field := ⟨0xc001c, 4096, 0, 3, 0⟩
/-- `SC_PC.PC` (08_signal_cores.md). -/
def SC_PC.PC : Field := ⟨0xc000c, 4096, 0, 12, 0⟩
/-- `SC_PIN.PAGES` (08_signal_cores.md). -/
def SC_PIN.PAGES : Field := ⟨0xc0004, 4096, 0, 7, 0⟩
/-- `SC_SEC.PAGES` (08_signal_cores.md). -/
def SC_SEC.PAGES : Field := ⟨0xc0014, 4096, 0, 7, 0⟩
/-- `SC_SEC.XSEC` (08_signal_cores.md). -/
def SC_SEC.XSEC : Field := ⟨0xc0014, 4096, 0, 11, 8⟩
/-- `SC_SEC.YSEC` (08_signal_cores.md). -/
def SC_SEC.YSEC : Field := ⟨0xc0014, 4096, 0, 15, 12⟩
/-- `SC_STATUS.EXL` (08_signal_cores.md). -/
def SC_STATUS.EXL : Field := ⟨0xc0008, 4096, 0, 5, 5⟩
/-- `SC_STATUS.IE` (08_signal_cores.md). -/
def SC_STATUS.IE : Field := ⟨0xc0008, 4096, 0, 6, 6⟩
/-- `SC_STATUS.INLOOP` (08_signal_cores.md). -/
def SC_STATUS.INLOOP : Field := ⟨0xc0008, 4096, 0, 9, 9⟩
/-- `SC_STATUS.INREP` (08_signal_cores.md). -/
def SC_STATUS.INREP : Field := ⟨0xc0008, 4096, 0, 8, 8⟩
/-- `SC_STATUS.MODE` (08_signal_cores.md). -/
def SC_STATUS.MODE : Field := ⟨0xc0008, 4096, 0, 4, 3⟩
/-- `SC_STATUS.STATE` (08_signal_cores.md). -/
def SC_STATUS.STATE : Field := ⟨0xc0008, 4096, 0, 2, 0⟩
/-- `SC_STATUS.TASK` (08_signal_cores.md). -/
def SC_STATUS.TASK : Field := ⟨0xc0008, 4096, 0, 7, 7⟩
/-- `SC_STATUS.VALID` (08_signal_cores.md). -/
def SC_STATUS.VALID : Field := ⟨0xc0008, 4096, 0, 23, 16⟩
/-- `SC_STATUS.XQ` (08_signal_cores.md). -/
def SC_STATUS.XQ : Field := ⟨0xc0008, 4096, 0, 15, 12⟩
/-- `SC_TASK.TAG` (08_signal_cores.md). -/
def SC_TASK.TAG : Field := ⟨0xc0018, 4096, 0, 31, 0⟩
/-- `SEC_AUTH_FAILS.COUNT` (19_security_trace_debug.md). -/
def SEC_AUTH_FAILS.COUNT : Field := ⟨0x4e0090, 0, 0, 31, 0⟩
/-- `SEC_BOOT.CAUSE` (19_security_trace_debug.md). -/
def SEC_BOOT.CAUSE : Field := ⟨0x4e0000, 0, 0, 23, 16⟩
/-- `SEC_BOOT.FW_SVN` (19_security_trace_debug.md). -/
def SEC_BOOT.FW_SVN : Field := ⟨0x4e0000, 0, 0, 15, 8⟩
/-- `SEC_BOOT.STATE` (19_security_trace_debug.md). -/
def SEC_BOOT.STATE : Field := ⟨0x4e0000, 0, 0, 31, 30⟩
/-- `SEC_BOOT.SVN_CTR` (19_security_trace_debug.md). -/
def SEC_BOOT.SVN_CTR : Field := ⟨0x4e0000, 0, 0, 7, 0⟩
/-- `SEC_BOOT_NONCE_LO.NONCE` (19_security_trace_debug.md). -/
def SEC_BOOT_NONCE_LO.NONCE : Field := ⟨0x4e0010, 0, 0, 31, 0⟩
/-- `SEC_CODE_COUNT.COUNT` (19_security_trace_debug.md). -/
def SEC_CODE_COUNT.COUNT : Field := ⟨0x4e0080, 0, 0, 31, 0⟩
/-- `SEC_CTRL.FUSE_EN` (19_security_trace_debug.md). -/
def SEC_CTRL.FUSE_EN : Field := ⟨0x4e0008, 0, 0, 0, 0⟩
/-- `SEC_FUSE_STAT.CKH_PROG` (19_security_trace_debug.md). -/
def SEC_FUSE_STAT.CKH_PROG : Field := ⟨0x4e0004, 0, 0, 10, 7⟩
/-- `SEC_FUSE_STAT.CKH_REVOKE` (19_security_trace_debug.md). -/
def SEC_FUSE_STAT.CKH_REVOKE : Field := ⟨0x4e0004, 0, 0, 14, 11⟩
/-- `SEC_FUSE_STAT.DBG_DIS` (19_security_trace_debug.md). -/
def SEC_FUSE_STAT.DBG_DIS : Field := ⟨0x4e0004, 0, 0, 6, 6⟩
/-- `SEC_FUSE_STAT.ENC_ONLY` (19_security_trace_debug.md). -/
def SEC_FUSE_STAT.ENC_ONLY : Field := ⟨0x4e0004, 0, 0, 4, 4⟩
/-- `SEC_FUSE_STAT.KEY1_DIS` (19_security_trace_debug.md). -/
def SEC_FUSE_STAT.KEY1_DIS : Field := ⟨0x4e0004, 0, 0, 5, 5⟩
/-- `SEC_FUSE_STAT.REQ_CODE` (19_security_trace_debug.md). -/
def SEC_FUSE_STAT.REQ_CODE : Field := ⟨0x4e0004, 0, 0, 3, 3⟩
/-- `SEC_FUSE_STAT.REQ_GRIST` (19_security_trace_debug.md). -/
def SEC_FUSE_STAT.REQ_GRIST : Field := ⟨0x4e0004, 0, 0, 1, 1⟩
/-- `SEC_FUSE_STAT.REQ_STREAM` (19_security_trace_debug.md). -/
def SEC_FUSE_STAT.REQ_STREAM : Field := ⟨0x4e0004, 0, 0, 2, 2⟩
/-- `SEC_FUSE_STAT.VPK_PROG` (19_security_trace_debug.md). -/
def SEC_FUSE_STAT.VPK_PROG : Field := ⟨0x4e0004, 0, 0, 0, 0⟩
/-- `SEC_ID_HASH.HASH` (19_security_trace_debug.md). -/
def SEC_ID_HASH.HASH : Field := ⟨0x4e0040, 4, 0, 31, 0⟩
/-- `SEC_TRC_AUTH.SCOPE` (19_security_trace_debug.md). -/
def SEC_TRC_AUTH.SCOPE : Field := ⟨0x4e0084, 0, 0, 1, 0⟩
/-- `SEC_TRC_AUTH.VALID` (19_security_trace_debug.md). -/
def SEC_TRC_AUTH.VALID : Field := ⟨0x4e0084, 0, 0, 31, 31⟩
/-- `SEC_TRC_AUTH_NA_LO.NOT_AFTER` (19_security_trace_debug.md). -/
def SEC_TRC_AUTH_NA_LO.NOT_AFTER : Field := ⟨0x4e0088, 0, 0, 31, 0⟩
/-- `TRC_BUF_BASE.BASE` (19_security_trace_debug.md). -/
def TRC_BUF_BASE.BASE : Field := ⟨0x4f0014, 0, 0, 31, 0⟩
/-- `TRC_BUF_SIZE.SIZE` (19_security_trace_debug.md). -/
def TRC_BUF_SIZE.SIZE : Field := ⟨0x4f0018, 0, 0, 4, 0⟩
/-- `TRC_CORES_HI.MASK` (19_security_trace_debug.md). -/
def TRC_CORES_HI.MASK : Field := ⟨0x4f0008, 0, 0, 31, 0⟩
/-- `TRC_CORES_LO.MASK` (19_security_trace_debug.md). -/
def TRC_CORES_LO.MASK : Field := ⟨0x4f0004, 0, 0, 31, 0⟩
/-- `TRC_CTRL.DISP` (19_security_trace_debug.md). -/
def TRC_CTRL.DISP : Field := ⟨0x4f0000, 0, 0, 28, 28⟩
/-- `TRC_CTRL.EN` (19_security_trace_debug.md). -/
def TRC_CTRL.EN : Field := ⟨0x4f0000, 0, 0, 31, 31⟩
/-- `TRC_CTRL.SINK` (19_security_trace_debug.md). -/
def TRC_CTRL.SINK : Field := ⟨0x4f0000, 0, 0, 30, 30⟩
/-- `TRC_CTRL.WRAP` (19_security_trace_debug.md). -/
def TRC_CTRL.WRAP : Field := ⟨0x4f0000, 0, 0, 29, 29⟩
/-- `TRC_DATA_HI.MASK` (19_security_trace_debug.md). -/
def TRC_DATA_HI.MASK : Field := ⟨0x4f0010, 0, 0, 31, 0⟩
/-- `TRC_DATA_LO.MASK` (19_security_trace_debug.md). -/
def TRC_DATA_LO.MASK : Field := ⟨0x4f000c, 0, 0, 31, 0⟩
/-- `TRC_LOST.BYTES` (19_security_trace_debug.md). -/
def TRC_LOST.BYTES : Field := ⟨0x4f0100, 4, 0, 31, 0⟩
/-- `TRC_STAT.ACTIVE` (19_security_trace_debug.md). -/
def TRC_STAT.ACTIVE : Field := ⟨0x4f0028, 0, 0, 0, 0⟩
/-- `TRC_STAT.FULL` (19_security_trace_debug.md). -/
def TRC_STAT.FULL : Field := ⟨0x4f0028, 0, 0, 31, 31⟩
/-- `TRC_WPTR_LO.BYTES` (19_security_trace_debug.md). -/
def TRC_WPTR_LO.BYTES : Field := ⟨0x4f0020, 0, 0, 31, 0⟩

end F

end Sys2Proof.Machine
end

