-- ==== Sys2Proof/Machine/State.lean ====
section
/-! DEFINITION. The state of the ABL-6480 as plain data, its faults and refusals, and its value right after power-on
reset (tick 0 of Table CLK-4). -/

namespace Sys2Proof.Machine

/-- Faults. No meaning of this model raises one: the spec gives every row an effect. -/
inductive Fault where
  /-- Kept for the interface; nothing raises it. Safe. -/
  | none
  deriving DecidableEq, Repr

/-- Refusals. -/
inductive Refusal where
  /-- The row has no meaning yet. Raised only by an arm of the dispatcher. Safe. -/
  | notModelled (mnemonic : String)
  deriving DecidableEq, Repr

/-- An event record as management firmware receives it (Table ORG-7). The payload holds bytes 16 to 31. -/
structure EventRec where
  ts : Nat
  code : Nat
  sev : Nat
  nme : Bool
  source : Nat
  payload : Nat
  deriving DecidableEq, Repr

/-- The contents of a completion entry (Table HST-3), PHASE apart. -/
structure Cpl where
  tag : Nat
  index : Nat
  status : Nat
  flag : Bool
  result : Nat
  noirq : Bool
  deriving DecidableEq, Repr

/-- A command outstanding in the command processor (R390). -/
structure Cmd where
  ref : CmdRef
  opcode : Nat
  accepted : Bool
  /-- Past its point of no return (R43). -/
  past : Bool
  desc : List Byte
  deriving DecidableEq, Repr

/-- The state of a ring pair that its registers do not show (R389 to R395, R398, R406). -/
structure RingSt where
  sqTail : Nat := 0
  phase : Bool := true
  /-- Opcode of the command fetched last at each index since the ring was enabled. -/
  last : List (Nat × Nat) := []
  /-- Indices marked by an ABORT before their fetch. -/
  marks : List Nat := []
  /-- Indices whose command was fetched and completed ABORTED before its acceptance: it never starts (R43, R398). -/
  gone : List Nat := []
  held : List Cpl := []
  /-- New entries since the ring's last message, and the TB of the first not yet signalled. -/
  unsignalled : Nat := 0
  firstUnsig : Option Nat := none
  deriving DecidableEq, Repr

/-- A COMMIT between acceptance and completion (R403). -/
structure Armed where
  ref : CmdRef
  mode : Nat
  region : Nat
  t : Nat
  armed : Bool
  c : Option Nat
  late : Bool
  /-- The set as it was sent to the units. -/
  set : List (Nat × Nat)
  deriving DecidableEq, Repr

/-- The host control plane beyond its registers. -/
structure HostSt where
  rings : List (Nat × RingSt) := []
  cmds : List Cmd := []
  /-- The staging set, in order (R401). -/
  stage : List (Nat × BitVec 32) := []
  armed : Option Armed := none
  /-- Offsets included in a COMMIT since the last reset (R11). -/
  committed : List (Nat × Bool) := []
  /-- Shadows of 64-bit pairs: (offset × 4 + reader) of the full ones (R15). -/
  shadows : List (Nat × BitVec 32) := []
  /-- TB at which each port was lost, while its semaphores wait for release (R400). -/
  lostAt : List (Nat × Nat) := []
  /-- Loss mark of each port's event ring (R40), its unsignalled records and the first of them (R394, R395). -/
  evtLoss : List (Nat × Bool) := []
  evtNew : List (Nat × Nat) := []
  evtFirst : List (Nat × Nat) := []
  /-- PFW_N and HS_EARLY_N levels, and the TB of the PFW_N edge while a freeze has not quiesced (R408). -/
  pfw : Bool := true
  hsEarly : Bool := true
  pfwEdge : Option Nat := none
  /-- Transmitters of both ports (R408). -/
  txOn : Bool := true
  /-- BAR0 and BAR4 read data last returned, with its poison. -/
  rdata : Nat := 0
  rpoison : Bool := false
  /-- The last write burst of device data to host memory was sent as poisoned packets, EP set (R351, consumer 9). -/
  wpoison : Bool := false
  /-- Bytes of host memory that reach the device in poisoned packets: port × 2^64 + address (R396; the environment's). -/
  badTlp : List Nat := []
  deriving DecidableEq, Repr

/-- A bank word (R349): the data written, its valid bit, and the stored bits (64 data, then 8 check) that differ from the
code word of that data. Stored poison inverts the eight check bits (R350). -/
structure BankWord where
  data : BitVec 64
  valid : Bool
  flips : BitVec 72
  deriving DecidableEq, Repr

/-- One tracker entry (R353). -/
structure TrkEntry where
  word : Nat
  count : Nat
  watch : Option Nat
  deriving DecidableEq, Repr

/-- A request to a bank or partition. -/
structure MemReq where
  req : Nat
  write : Bool
  addr : Nat
  len : Nat
  data : Nat
  poison : Bool
  rotate : Bool
  /-- It was accepted as its owner's, so a later owner change does not refuse it (R345). -/
  owned : Bool
  deriving DecidableEq, Repr

/-- A response returned to a requester. -/
structure MemResp where
  req : Nat
  addr : Nat
  len : Nat
  data : Nat
  poison : Bool
  refused : Bool
  deriving DecidableEq, Repr

/-- A kiln run in progress (R355, R357). -/
structure KilnRun where
  ref : Option CmdRef
  banks : BitVec 64
  alg : Nat
  preserve : Bool
  bg : Nat
  repair : Bool
  deriving DecidableEq, Repr

/-- The memory system beyond its registers. -/
structure MemSt where
  /-- Bank words by b × 262,144 + w; spare i of bank b by 16,777,216 + 16 b + i. An unlisted word is cleared. -/
  bank : List (Nat × BankWord) := []
  /-- HBM bytes. An unlisted byte is 0 (DESIGN CHOICE). -/
  hbm : List Host.Cell := []
  /-- Poisoned 32-byte granules, and granules holding the stack's own error marker (R359). -/
  hbmPoison : List (Nat × Bool) := []
  hbmMark : List (Nat × Bool) := []
  trackers : List (Nat × List TrkEntry) := []
  /-- Runs of violations: requester × 256 + target, and the TB of the access that began the run (R342). -/
  viol : List (Nat × Nat) := []
  /-- Requests held behind a drain, a clearing or a gate request, in arrival order (R345, R348, R424). -/
  held : List MemReq := []
  resp : Option MemResp := none
  /-- Partitions whose old owners' accepted requests are still being served (R345). -/
  partDrain : BitVec 16 := 0
  /-- The start-up kiln is due from power-on reset (R356). -/
  kiln : Option KilnRun := some ⟨none, BitVec.allOnes 64, 0, false, 0, true⟩
  /-- Free lists of the enabled pools (R360). -/
  pools : List (Nat × List Nat) := []
  /-- Far address of the open task descriptor of a core (R342).  -/
  descs : List (Nat × Nat) := []
  /-- HBM held in self-refresh after a failover, until the PLLs settle (R420). -/
  selfRefresh : Bool := false
  /-- Blocks with a gate request pending: 0x10 + die, 0x20 + island, 0x30 + bank (R424). -/
  gates : List Nat := []
  /-- Blocks gated and powered off. -/
  off : List Nat := []
  /-- Banks whose kiln result marked them FAILED (R356). -/
  failed : BitVec 64 := 0
  deriving DecidableEq, Repr

/-- Clocks, power and reset beyond their registers. -/
structure ClkSt where
  /-- Power-on reset asserted (R422, R487). -/
  por : Bool := false
  /-- Stopped by the 115 °C comparator, until a warm reset by SYS_RST_N (R427). -/
  tripped : Bool := false
  /-- THERMTRIP_N is low. -/
  thermtrip : Bool := false
  /-- A trip waits for its event at the next boot. -/
  tripPending : Bool := false
  /-- The strap delay S has ended, so qualification windows are counted (R414). -/
  strapDone : Bool := false
  /-- Consecutive windows in range. -/
  windows : Nat := 0
  /-- A failover has happened since XTAL_RDY was last set (R421). -/
  failedOver : Bool := false
  /-- XTAL_RDY has been set since power-on reset (R417). -/
  switched : Bool := false
  /-- RCO has failed after start-up, so qualification has stopped (R422). -/
  rcoFailed : Bool := false
  /-- The power manager: windows in the present run at or below CAP − 2 W, holds requested, cap ceiling of the SCI clocks
  in units of 100 MHz, stage 3 (R426). -/
  lowRun : Nat := 0
  holds : Bool := false
  ceiling : Nat := 16
  stage3 : Bool := false
  /-- TB of the last THERMAL_WARN (R427). -/
  warnAt : Option Nat := none
  /-- PLL domains settling after a change of input, by number (R411). -/
  settling : BitVec 26 := 0
  /-- Timebase pulses high: pulse, and the TB at which it ends (R431). -/
  pulses : List (Nat × Nat) := []
  /-- The first instant that the last commit of each pulse acts on. -/
  pulseAt : List (Nat × Nat) := []
  /-- TB of each gate request that is pending, by block (R424). -/
  gateAt : List (Nat × Nat) := []
  /-- HBM training and management initialisation have ended (R430). -/
  hbmTrained : Bool := false
  /-- LTX PLL locked (R368). -/
  ltxLocked : Bool := false
  deriving DecidableEq, Repr

/-- A route record (Table GRI-5). -/
structure Route where
  pstep : Nat
  ptile : Nat
  pcluster : Nat
  pbp : Nat
  pkind : Nat
  ckind : Nat
  ctile : Nat
  ccluster : Nat
  cbp : Nat
  cport : Nat
  inj : Nat
  ej : Nat
  lane : Nat
  hops : Nat
  path : Nat
  pindex : Nat
  cindex : Nat
  tag : Nat
  /-- Some bit that Table GRI-5 reserves is set. -/
  reserved : Bool
  deriving DecidableEq, Repr

/-- A deferred access record (Table GRI-7). -/
structure AccessRec where
  issue : Nat
  collect : Nat
  tile : Nat
  kind : Nat
  unit : Nat
  reserved : Bool
  deriving DecidableEq, Repr

/-- A binding record (Table GRI-8). -/
structure Binding where
  kind : Nat
  tile : Nat
  step : Nat
  arg : Nat
  reserved : Bool
  deriving DecidableEq, Repr

/-- A snapshot-lane entry of a cluster's switch schedule: at a step index it places a snapshot bit on the A3 lane of a BP
(R57). -/
structure SnapLane where
  step : Nat
  bp : Nat
  bitNo : Nat
  deriving DecidableEq, Repr

/-- A value in flight on the switches of a region (R64, R67): its route, the class step count of its producing step, its
tag and its bit. -/
structure Flight where
  region : Nat
  route : Route
  start : Nat
  tag : Nat
  val : Bool
  deriving DecidableEq, Repr

/-- A drive (1), expected value (2) or mask (3) on its way to a pin, taking effect at a step of the step clock (R69). -/
structure PinWrite where
  at_ : Nat
  kind : Nat
  pin : Nat
  val : Bool
  region : Nat
  deriving DecidableEq, Repr

/-- A deferred access between issue and collect (R92). -/
structure Item where
  region : Nat
  acc : AccessRec
  req : Nat
  /-- The anchor of the frame in which the request issued (R94). -/
  anchor : Nat
  /-- The request has been taken by its buffer. -/
  sent : Bool
  present : Bool
  value : Nat
  poison : Bool
  deriving DecidableEq, Repr

/-- A TLQ entry (Table FRM-7) with its instant; `ready` once it has reached the head in time (R95). -/
structure TlqEntry where
  t : Nat
  select : Nat
  enable : Nat
  value : Nat
  ready : Bool
  deriving DecidableEq, Repr

/-- A trigger accepted for a frame that has not begun, or one a deferred region has still to judge (R82). -/
structure Trig where
  e : Nat
  lam : Nat
  anchor : Option Nat
  gap : Nat
  /-- A TIMER or UUTCLK trigger: its frame's snapshot is that of the recognition step (R90). -/
  early : Bool := false
  /-- The snapshot latched for its frame at the recognition step. -/
  snap : Option (List (Nat × Bool)) := none
  deriving DecidableEq, Repr

/-- What FAB_RGN_TRIG, FAB_RGN_PERIOD and the next timer step were before a COMMIT of the step in progress: they judge what is
recognised at that step (R87). -/
structure TrigWas where
  region : Nat
  trig : Nat
  period : Nat
  timerNext : Nat
  deriving DecidableEq, Repr

/-- The state of a region beyond its registers. -/
structure RgnSt where
  accepted : Option Trig := none
  /-- A reflex region's trigger accepted at the step at which the frame of the one before it begins (R82). -/
  next : Option Trig := none
  /-- Triggers whose outcome is not yet fixed, in order (R82). -/
  judge : List Trig := []
  /-- The next frame is the first after FAB_START, FAB_RESTART or a load (R81). -/
  fresh : Bool := true
  timerNext : Nat := 0
  lastTrig : Option Nat := none
  /-- Class step count at which a decided halt takes effect (R72). -/
  haltAt : Option Nat := none
  /-- The frame that runs is the single frame of a FAB_FRAME (R105). -/
  single : Option CmdRef := none
  singleHalt : Bool := false
  /-- STATE and HALT_CAUSE before that FAB_FRAME. -/
  prior : Nat × Nat := (0, 0)
  /-- Halt at the end of the frame (FAB_HALT FRAME_END). -/
  stopAtEnd : Bool := false
  /-- The step at which FAB_HALT wrote its cause: an error cause of that same step is recorded first (R106). -/
  hostHalt : Option Nat := none
  deriving DecidableEq, Repr

/-- A FAB_START waiting for its start step. -/
structure StartCmd where
  ref : CmdRef
  mask : Nat
  t : Nat
  deriving DecidableEq, Repr

/-- A load in progress (R122, R123). `part` and `ofs` name the device's copy of the image: the source in HBM, or STAGE. -/
structure LoadSt where
  ref : CmdRef
  fromHbm : Bool
  verify : Bool
  port : Nat
  addr : Nat
  part : Nat
  ofs : Nat
  length : Nat
  /-- The phase of Table GRI-9. -/
  phase : Nat
  /-- A verified library entry was used. -/
  hit : Bool
  /-- The signature is present where required, and valid. -/
  sigOk : Bool
  image : List Byte
  deriving DecidableEq, Repr

/-- A verified library entry (R137): where the image lies, from byte address `lo`; `used` orders the entries by their last
use. -/
structure VlibEntry where
  part : Nat
  ofs : Nat
  len : Nat
  lo : Nat
  digest : List Byte
  used : Nat
  deriving DecidableEq, Repr

/-- The fabric beyond its registers. -/
structure FabSt where
  /-- Number of the next step of the step clock, and the two class step counts (R63). -/
  g : Nat := 0
  cReflex : Nat := 0
  cDeferred : Nat := 0
  /-- Instruction stores, by BP × 8,192 + address; an unlisted entry is a NOP (R116). -/
  istore : List (Nat × BitVec 64) := []
  /-- Data memories, by BP × 256 + address; 0 after a load (R51). -/
  dm : List (Nat × Bool) := []
  /-- After a thermal trip what an unlisted DM bit or latch bit reads as is undefined, by this seed (R103). -/
  undef : Option Nat := none
  routes : List Route := []
  accesses : List AccessRec := []
  bindings : List Binding := []
  snapLanes : List SnapLane := []
  flights : List Flight := []
  pinWrites : List PinWrite := []
  /-- Exchange latches, by (writing tile × 4 + direction) × 64 + lane (R89). -/
  latches : List (Nat × Bool) := []
  /-- Snapshot registers, by (tile × 16 + cluster) × 128 + bit (R90). -/
  snaps : List (Nat × Bool) := []
  items : List Item := []
  tlq : List (Nat × List TlqEntry) := []
  rgn : List (Nat × RgnSt) := []
  starts : List StartCmd := []
  /-- FAB_HALT commands waiting for their regions. -/
  haltCmds : List (CmdRef × Nat) := []
  /-- The rest controller (Table FRM-9): 0 RUN, 1 REST, 2 HOLD, 3 STOP; steps of the rest, non-power steps, hold steps; a
  deferred frame has ended since the last hold. -/
  rest : Nat := 0
  restLen : Nat := 0
  nonPower : Nat := 0
  holdLen : Nat := 0
  /-- Steps by which each die crossing is late, or if negative early, against its calibration (R27, R64). -/
  drift : List (Nat × Int) := []
  /-- The item that the last rest step found missing (Table FRM-9). -/
  missing : Option Item := none
  /-- Triggers as they were before the commits of the step in progress (R87). -/
  trigWas : List TrigWas := []
  /-- Fabric-to-ELA crossing bits (R70). -/
  elaOut : List (Nat × Bool) := []
  /-- Samples of the last step: pins that were high (R148). -/
  samples : BitVec 512 := 0
  /-- Probe bits last produced (Table GRI-8). -/
  probes : List (Nat × Bool) := []
  load : Option LoadSt := none
  /-- Verified library entries by their number. -/
  vlib : List (Nat × VlibEntry) := []
  vlibUse : Nat := 0
  /-- From the point of no return of a load until the first FAB_START afterwards (R125). -/
  quiet : Bool := false
  deriving DecidableEq, Repr

/-- The pins beyond their registers. -/
structure PinSt where
  /-- The receivers' levels as last given (R142). -/
  recv : BitVec 512 := 0
  /-- Pins whose settings, and banks whose RELEASE, were committed and take effect at step C, the next step of the step clock
  (R145, R146). -/
  changing : List Nat := []
  releasing : List Nat := []
  /-- Expected latches (R151). -/
  expected : List (Nat × Bool) := []
  /-- ELA output and output-enable of each pin. -/
  elaOut : BitVec 512 := 0
  elaOe : BitVec 512 := 0
  /-- Pins whose ELA source lies in a scope with GOE asserted (R173). -/
  elaGoe : BitVec 512 := 0
  /-- Fail lines asserted to the capture engine at the last step (R153). -/
  failLines : List Nat := []
  /-- What each clock output pad does: 0 high impedance, 1 held low, 2 running (R158, R159). -/
  dcoPad : List (Nat × Nat) := []
  /-- The modulation in force at each clock output: SSC, PROFILE, RATE, DEPTH and the profile words taken at the start of its
  last modulation period, and the TB of that start (R157, R158). -/
  dcoMod : List (Nat × List Nat) := []
  dcoStart : List (Nat × Nat) := []
  deriving DecidableEq, Repr

/-- A 32-bit value with its poison bit (R234). -/
structure PWord where
  v : BitVec 32
  p : Bool
  deriving DecidableEq, Repr

/-- A register of a signal core: up to 48 bits, with its poison bit (Table SCR-1). -/
structure CReg where
  v : BitVec 48
  p : Bool
  deriving DecidableEq, Repr

/-- A transfer in a core's queue (R208). -/
structure Xfer where
  toFar : Bool
  space : Bool
  local_ : Nat
  far : Nat
  len : Nat
  irq : Bool
  secure : Bool
  /-- Bytes already transferred, or taken by a window (R207, R260). -/
  done : Nat
  deriving DecidableEq, Repr

/-- An entry of a core's hub queue (R232, R249). -/
inductive HubOp where
  | free (addr : Nat) (poison : Bool) (pool : Nat)
  | swi (core : Nat)
  deriving DecidableEq, Repr

/-- The trace stream of one source (R470 to R477). -/
structure TrcSrc where
  buf : List Byte := []
  /-- Atoms held, oldest first, and the cycle of the newest. -/
  atoms : List Bool := []
  atomCyc : Nat := 0
  /-- Cycle of the last CYC or SYNC. -/
  ref : Nat := 0
  needSync : Bool := true
  /-- Bytes and packets since the last SYNC. -/
  bytes : Nat := 0
  pkts : Nat := 0
  /-- Bytes lost while packets are discarded. -/
  lost : Option Nat := none
  /-- Every byte lost since tracing began. -/
  lostAll : Nat := 0
  /-- Cycle at the end of the last traced bundle, and whether bundles are now excluded. -/
  lastEnd : Nat := 0
  excluded : Bool := false
  /-- TB of the last TRACE_OVERFLOW. -/
  warned : Option Nat := none
  deriving DecidableEq, Repr

/-- A signal core beyond its registers of Table SCR-9. `r` holds the registers of Table SCR-1 by the codes of Table
ISA-4; an unlisted one holds its reset value. -/
structure CoreSt where
  r : List (Nat × CReg) := []
  /-- Values before the last bundle of the registers whose new value a later bundle sees first (Table SCR-4). -/
  old : List (Nat × CReg) := []
  x : List (Nat × PWord) := []
  y : List (Nat × PWord) := []
  pram : List (Nat × BitVec 64) := []
  /-- The code object each page holds, and the TB of each page's last use. -/
  pageObj : List (Nat × Nat) := []
  pageUse : List (Nat × Nat) := []
  /-- Repetitions left of the bundle under REP, and that bundle, which is fetched once (R219). -/
  rep : Nat := 0
  ir : BitVec 64 := 0
  /-- Delay slots left and the address after them (R248). -/
  br : Option (Nat × Nat) := none
  /-- SR and MODE that a return restores after its delay slots, with PC (R222, R249). -/
  back : Option (CReg × Nat) := none
  xq : List Xfer := []
  hub : List HubOp := []
  /-- A failed transfer waits for its exception (R209). -/
  xferExc : Bool := false
  /-- An ALLOC is in flight (R231): its pool. -/
  alloc : Option Nat := none
  /-- RUN has been committed to 0 and the halt is awaited (R233). -/
  halting : Bool := false
  /-- The core's cycle counter. -/
  cyc : Nat := 0
  deriving DecidableEq, Repr

/-- Who submitted a task (Table DSP-2). A SUCC template counts as a core's. -/
inductive Producer where
  | host (ref : CmdRef)
  | core (n : Nat)
  | entry (i : Nat)
  deriving DecidableEq, Repr

/-- The phase of a task: accepted, granted and loading its pages, running, or at DONE, cancelled or failed (R265). -/
inductive TaskPhase where
  | queued | loading | running | ended
  deriving DecidableEq, Repr

/-- A task in its slot (R255 to R268). -/
structure Task where
  slot : Nat
  producer : Producer
  code : Nat
  flow : Nat
  seq : Nat
  prio : Nat
  dlEn : Bool
  domain : Nat
  affinity : Nat
  deadline : Nat
  action : Nat
  cq : Nat
  hpool : Nat
  hmode : Bool
  flagnum : Nat
  flagval : Bool
  succ : Nat
  hbuf : Nat
  phase : TaskPhase := .queued
  core : Nat := 0xFF
  status : Nat := 0
  result : Nat := 0
  cancelSeen : Bool := false
  readyAt : Option Nat := none
  /-- Not 0: a withdrawn grant put the task at the head of its queue, the greatest last (R264). -/
  head : Nat := 0
  deriving DecidableEq, Repr

/-- A code object's pages wanted by DSP_PRELOAD on a core. -/
structure Preload where
  ref : CmdRef
  code : Nat
  left : List (Nat × Nat)
  deriving DecidableEq, Repr

/-- The work dispatcher beyond its registers. -/
structure DspSt where
  /-- Tasks in acceptance order. -/
  tasks : List Task := []
  /-- Next sequence number of each flow. -/
  seq : List (Nat × Nat) := []
  /-- Messages waiting in each mailbox, and the slots whose replies each mailbox awaits, in issue order, with the reply
  once known. -/
  mbox : List (Nat × List Nat) := []
  mboxOut : List (Nat × List (Nat × Option Nat)) := []
  /-- Dispatcher flags 0 to 3, driving H[60] to H[63]. -/
  flags : List (Nat × Bool) := []
  preloads : List Preload := []
  /-- TB up to which DSP_CORE_BUSY and DSP_CORE_GETW are counted, and the thousandths of a cycle not counted yet (R272). -/
  counted : List (Nat × Nat) := []
  countPart : List (Nat × Nat) := []
  deriving DecidableEq, Repr

/-- A flit without its CRC (Table LNK-3). -/
structure Flit where
  typ : Nat
  chan : Nat
  poison : Bool
  sub : Nat
  data : List Byte
  deriving DecidableEq, Repr

/-- A link beyond its registers (R366 to R381). -/
structure LinkSt where
  /-- Flits waiting to be sent, and flits sent and not acknowledged, oldest first. -/
  txq : List Flit := []
  replay : List Flit := []
  /-- Sequence number of the next new flit, and the number of flits of the replay buffer still to be sent again. -/
  seq : Nat := 0
  resend : Nat := 0
  /-- TB at which the oldest unacknowledged flit was last sent, and replays in a row that left it unacknowledged. -/
  oldestAt : Nat := 0
  inRow : Nat := 0
  /-- Receiver: number expected, a NAK is out, its TB, good flits since the last ACK, TB of the first of them. -/
  expect : Nat := 0
  nakOut : Bool := false
  nakAt : Nat := 0
  good : Nat := 0
  goodAt : Option Nat := none
  /-- Ordered sets owed, as (type, value), oldest first. -/
  owed : List (Nat × Nat) := []
  /-- READY has been sent since the last training began; a matching READY has been received. -/
  readyOut : Bool := false
  readyIn : Option Nat := none
  /-- The link was UP before the retrain in progress, and its TB. -/
  retrainAt : Option Nat := none
  /-- TB from which the receiver has had no lock (R369). -/
  noLockAt : Nat := 0
  /-- TB since which the transmitter has had nothing to do, or has been IDLE (R375). -/
  quietAt : Nat := 0
  /-- TB from which data may follow the last wake of the transmitter (R375). -/
  dataAt : Nat := 0
  mismatch : Bool := false
  /-- TB of the last POISON_CONSUMED for the link, and a run of MESSAGE discards (R376, R381). -/
  poisonAt : Option Nat := none
  dropRun : Bool := false
  /-- ECHO out: TB sent (R377). -/
  echoAt : Option Nat := none
  timeAt : Nat := 0
  /-- MESSAGE transmit entries in the replay buffer or queue, still to be acknowledged. -/
  msgs : Nat := 0
  /-- Position in the MESSAGE receive ring: WR_IDX, and RD_IDX as last read without poison (R381). -/
  msgWr : Nat := 0
  msgRd : Nat := 0
  /-- Position in the MESSAGE transmit ring: RD_IDX, and WR_IDX as last read without poison. -/
  txRd : Nat := 0
  txWr : Nat := 0
  /-- The flit sent last, with its sequence number, and the ordered set sent last, as (type, value). -/
  lastFlit : Option (Nat × Flit) := none
  lastSet : Option (Nat × Nat) := none
  deriving DecidableEq, Repr

/-- A link gateway (R380): words to send, the TB at which the first entered, words received. -/
structure GwSt where
  tx : List Nat := []
  txAt : Nat := 0
  rx : List (Nat × Bool) := []
  deriving DecidableEq, Repr

/-- The Tovin links. -/
structure LnkSt where
  links : List (Nat × LinkSt) := []
  gws : List (Nat × GwSt) := []
  deriving DecidableEq, Repr

/-- A replay record (Table PAIR-3) with its whole step. -/
structure PairRec where
  kind : Nat
  step : Nat
  data : Nat
  /-- The receiver's own step count when it arrived. -/
  at_ : Nat := 0
  deriving DecidableEq, Repr

/-- What a device has to send to its partner (Table PAIR-2). -/
inductive PairOut where
  | item (r : PairRec)
  | gateway (g : Nat) (words : List Nat)
  | mailbox (m reply : Nat)
  | commit (first : Nat) (entries : List (Nat × Nat))
  | cask (q v : Nat)
  | control (code step tb : Nat)
  | state (ofs : Nat) (data : List Byte)
  deriving DecidableEq, Repr

/-- The redundant pair beyond its registers (R434 to R454). -/
structure PairSt where
  out : List PairOut := []
  /-- Records received and not used, in step order; the last step covered by what has arrived. -/
  recs : List PairRec := []
  upTo : Nat := 0
  /-- Words of mirrored gateways, replies of mailboxes and commit entries received, in order. -/
  gwIn : List (Nat × Nat) := []
  mbIn : List (Nat × Nat) := []
  commitIn : List (Nat × Nat) := []
  /-- Last sampler word of each forwarded bank. -/
  words : List (Nat × BitVec 32) := []
  seqOut : Nat := 0
  seqIn : Nat := 0
  /-- TB of the last edge of PAIR_HB_IN and of the last mirror flit. -/
  hbAt : Nat := 0
  flitAt : Nat := 0
  hbOut : Bool := false
  hbFault : Bool := false
  /-- PAIR_SEL. -/
  sel : Bool := false
  /-- Outputs are held off (R436, R447): until the designated region ends a frame at or after the instant held here. -/
  releaseAt : Option Nat := none
  /-- A takeover waits for the step after h (R448). -/
  handover : Option Nat := none
  failover : Option CmdRef := none
  /-- The primary owes a handover at the designated region's next frame end (R408, R448). -/
  yielding : Bool := false
  join : Option CmdRef := none
  joinStep : Option Nat := none
  stateIn : List Byte := []
  /-- Own and partner casks not yet compared. -/
  casks : List (Nat × Nat) := []
  theirs : List (Nat × Nat) := []
  /-- Copies for casks not yet complete: cask sequence, part (tile, 64 the ELA, 65 + n range n), bits. -/
  parts : List (Nat × Nat × List Bool) := []
  /-- Flits that arrived before an earlier one of the pair sequence. -/
  early : List (Nat × Flit) := []
  /-- The timebase offset when the pair became SYNCED (R438). -/
  ofsHeld : Nat := 0
  /-- Steps since JOIN_START arrived. -/
  joinWait : Nat := 0
  deriving DecidableEq, Repr

/-- What reaches the Edge Logic Array from outside it (R165, R168): pin receivers, fabric-to-ELA bits, H[63:48], internal
copies of the clock outputs, the ELA system clock. -/
structure ElaIn where
  pins : BitVec 512 := 0
  xbits : BitVec 1024 := 0
  hub : BitVec 16 := 0
  dco : BitVec 8 := 0
  sys : Bool := false
  deriving DecidableEq, Repr

/-- The settled levels of the array: flip-flops, macrocell outputs and output enables, carry-outs of the blocks, long lines. -/
structure ElaVal where
  q : BitVec 8192 := 0
  out : BitVec 8192 := 0
  oe : BitVec 8192 := 0
  co : BitVec 256 := 0
  lines : BitVec 128 := 0
  deriving DecidableEq, Repr

/-- A release sequence (R175): its scope, 16 for the whole array, the command that started it, and whether GWE is
asserted. -/
structure ElaRel where
  scope : Nat
  ref : Option CmdRef
  gwe : Bool
  /-- The TB at which GOE was asserted. -/
  at_ : Nat
  deriving DecidableEq, Repr

/-- A load of a stream (R186): its command, source (1 HOST, 2 HBM, 3 FLASH, 4 SCP), where it lies, the stream bytes taken,
the key in use; after the header phase the scope, the last FAR, frames and map records taken, and the first map record
outside the fence. -/
structure CfgLoad where
  ref : Option CmdRef
  src : Nat
  port : Nat := 0
  part : Nat := 0
  addr : Nat := 0
  length : Nat := 0
  raw : List Byte := []
  key : List Byte := []
  past : Bool := false
  scope : Nat := 16
  far : Option Nat := none
  frames : Nat := 0
  maps : Nat := 0
  mapBad : Option Nat := none
  /-- TB of the last word that the SCP took (R190). -/
  at_ : Nat := 0
  deriving DecidableEq, Repr

/-- The Edge Logic Array beyond its registers (R161 to R200). Scopes 0 to 15 are the partial regions, 16 the whole array. -/
structure ElaSt where
  /-- Configuration frames by FAR; their words' flipped bits, and map words, by 32 × FAR + word; frames all of whose bits
  are essential. -/
  frames : List (Nat × BitVec 2048) := []
  flips : List (Nat × BitVec 72) := []
  map : List (Nat × BitVec 64) := []
  allEss : List (Nat × Bool) := []
  /-- The global section's SCP_CTRL and SCP_D. -/
  scpCtrl : Nat := 0
  scpD : List Nat := []
  goe : BitVec 17 := 0
  gwe : BitVec 17 := 0
  gsr : BitVec 17 := 0x1FFFF
  rel : List ElaRel := []
  load : Option CfgLoad := none
  /-- SCP words of the present stream have been dropped. -/
  dropped : Bool := false
  key0 : List Byte := []
  key1 : List Byte := []
  /-- KEY_CLEARED events owed at the next boot, by their INFO. -/
  owed : List Nat := []
  inp : ElaIn := {}
  val : ElaVal := {}
  /-- Level of each flip-flop's clock; level of each global net, and the TB of its last toggle. -/
  clk : BitVec 8192 := 0
  nets : BitVec 16 := 0
  netAt : List (Nat × Nat) := []
  /-- ELA-to-fabric crossing bits, and H[47:0]. -/
  xout : BitVec 1024 := 0
  hubOut : BitVec 48 := 0
  /-- Rising edges of H[31:0] that their receiving blocks have not yet taken (R172). -/
  hubRise : BitVec 32 := 0
  /-- Words that rising edges of the SCP's clock have presented and the port has not yet taken, oldest first (R196). -/
  scpIn : List Nat := []
  deriving DecidableEq, Repr

/-- An event from outside the channels (R327), with its instant E: kind 6 a compare fail in a bank, 7 a receiver's event
(0 entry to RECEIVE, 1 DONE, 2 PREEMPTED, 3 another record), 8 a transition of an ELA signal (0 rising, 1 falling), 9 HOST,
10 a trigger of a channel; `unit`: the bank, receiver, signal or channel. -/
structure CapEvt where
  at_ : Nat
  kind : Nat
  unit : Nat
  pol : Nat
  /-- The sample it belongs to had been evaluated when it arrived (R327). -/
  late : Bool
  deriving DecidableEq, Repr

/-- A sample that its source has presented and the channel has not yet evaluated: timestamp, value, poison (R319, R320). -/
structure CapSmp where
  ts : Nat
  word : Nat
  poison : Bool
  deriving DecidableEq, Repr

/-- A trigger sequencer (R326): stage, occurrence count, timestamp of entry to the stage. -/
structure CapSeq where
  stage : Nat := 0
  count : Nat := 0
  at_ : Nat := 0
  deriving DecidableEq, Repr

/-- A capture channel beyond its registers (R319 to R336). -/
structure CapCh where
  armT : Nat := 0
  /-- Samples offered since the arm instant, before DIV; those taken that wait to be evaluated, oldest first; index of the next
  one to be evaluated, and timestamp of the last one evaluated. -/
  raw : Nat := 0
  pipe : List CapSmp := []
  idx : Nat := 0
  lastTs : Nat := 0
  /-- Timestamp of the last sample that was taken in PREFILL or POST, where no sequencer runs. -/
  quietTo : Nat := 0
  prev : Option Nat := none
  /-- Sample of the last edge of each stage's INTERVAL bit, and of the histogram's bit (keys 0 to 3, 4). -/
  edges : List (Nat × Nat) := []
  seq : CapSeq := {}
  shadow : CapSeq := {}
  /-- Attributable events that have arrived. -/
  evts : List CapEvt := []
  /-- The open segment: it is open, when it opened, index of its first sample, trigger sample and its timestamp, FORCED, TLATE, poisoned
  sample indices. -/
  isOpen : Bool := false
  openAt : Nat := 0
  start : Nat := 0
  trig : Option (Nat × Nat) := none
  forced : Bool := false
  late : Bool := false
  poison : List Nat := []
  /-- Records closed since the arm; timestamp of the last post-trigger sample while the channel is dead; dead time and lost
  triggers that the open segment's header carries, and those lost in a dead time whose next segment is not yet open. -/
  closed : Nat := 0
  deadFrom : Option Nat := none
  dead : Nat := 0
  lost : Nat := 0
  lostNew : Nat := 0
  /-- MINMAX: samples of the interval, its two accumulators, entries written. PERSIST: position in the sweep, sweeps. -/
  mmN : Nat := 0
  mmA : Nat := 0
  mmB : Nat := 0
  mmWr : Nat := 0
  sweep : Option Nat := none
  sweeps : Nat := 0
  deriving DecidableEq, Repr

/-- A CAP_SNAP that waits for its snapshot sample to be evaluated, or for the channel's first sample (R336). -/
structure CapSnap where
  ref : CmdRef
  ch : Nat
  upto : Nat
  hbm : Bool
  part : Nat
  clear : Bool
  addr : Nat
  len : Nat
  deriving DecidableEq, Repr

/-- The capture engine beyond its registers (R319 to R339). -/
structure CapSt where
  ch : List (Nat × CapCh) := []
  /-- TB at which the trigger output of each channel 0 to 7 ends (Table ELA-2). -/
  trigOut : List (Nat × Nat) := []
  /-- CAP_ARM commands waiting for their instant: command, mask, T. -/
  arms : List (CmdRef × Nat × Nat) := []
  snaps : List CapSnap := []
  deriving DecidableEq, Repr

/-- A stream slot beyond its registers (R274 to R284). -/
structure RadSlot where
  /-- The commit instant that started the slot. -/
  from_ : Nat := 0
  /-- Link samples taken and NCO phase of the receive path; flit number and link samples sent, and phase, of the transmit
  path. -/
  rxK : Nat := 0
  rxPhase : BitVec 32 := 0
  txK : Nat := 0
  txPhase : BitVec 32 := 0
  /-- Filter states of the two paths up to the resampler and half-band stages (opaque to the model), and the last inputs of
  the channel filters, newest first. -/
  rxDfe : Nat := 0
  txDfe : Nat := 0
  rxFir : List (Int × Int) := []
  txFir : List (Int × Int) := []
  /-- Next baseband samples of the two paths. -/
  rxM : Nat := 0
  txM : Nat := 0
  /-- Powers in the RSSI window, newest first. -/
  power : List Nat := []
  /-- Samples of the group being collected, with poison, oldest first; link samples waiting to be sent. -/
  group : List (Nat × Bool) := []
  txOut : List (Nat × Bool) := []
  under : Bool := false
  /-- Samples fetched that have not entered the transmit path, with poison, oldest first; the last is that before `txM`. -/
  txHeld : List (Nat × Bool) := []
  /-- WR_IDX of the transmit ring as last read without poison. -/
  txWr : Nat := 0
  /-- Values before each change of a running slot, in force for samples before its instant, oldest first: instant, FREQ,
  RX_GAIN, TX_GAIN, FIRSET, WIN. -/
  old : List (Nat × Nat × Nat × Nat × Nat × Nat) := []
  deriving DecidableEq, Repr

/-- The search of one profile for its preamble (R294): outputs taken in the present period, their sum and best, the peaks
of the qualifying periods in a row, newest first, the timing confirmed last with its PMR and the sample of confirmation,
and the periods since its timing last had a qualifying peak. -/
structure RxHyp where
  count : Nat := 0
  sum : Nat := 0
  best : Nat := 0
  bestAt : Nat := 0
  run : List Nat := []
  timing : Nat := 0
  pmr : Nat := 0
  at_ : Option Nat := none
  missed : Nat := 0
  deriving DecidableEq, Repr

/-- A receiver beyond its registers (R290 to R297). -/
structure RadRx where
  /-- Samples since EN was set, newest first, and the baseband index of the newest. -/
  x : List Nat := []
  m : Nat := 0
  dwell : Nat := 0
  /-- The main path's own qualification, and sample of entry to the present state. -/
  main : RxHyp := {}
  entered : Nat := 0
  hyps : List (Nat × RxHyp) := []
  timing : Nat := 0
  pmr : Nat := 0
  syms : List Nat := []
  sfdEnd : Nat := 0
  /-- Header bits and payload octets of a packet whose header check has passed. -/
  hdr : Option (Nat × Nat) := none
  written : Nat := 0
  /-- WR_IDX of the record ring, and its RD_IDX as last read without poison. -/
  wr : Nat := 0
  rd : Nat := 0
  deriving DecidableEq, Repr

/-- A job in a queue: its command, descriptor and the descriptor's poison. -/
structure Job where
  ref : Option CmdRef
  desc : List Byte
  poison : Bool
  deriving DecidableEq, Repr

/-- The packet a transmitter sends (R298): first baseband sample, samples, payload octets. -/
structure TxPkt where
  job : Job
  first : Nat
  len : Nat
  data : List Byte
  /-- Its payload was read with poison (R351). -/
  poison : Bool
  deriving DecidableEq, Repr

/-- A setting that a cell timing domain had, or has: the boundaries after `from_`, and up to `upto`, are those of EPOCH and P
(R285). -/
structure DomSpan where
  dom : Nat
  from_ : Nat
  upto : Option Nat
  epoch : Nat
  period : Nat
  deriving DecidableEq, Repr

/-- The radio engine beyond its registers (R274 to R303). -/
structure RadSt where
  slots : List (Nat × RadSlot) := []
  rxs : List (Nat × RadRx) := []
  /-- Correlator taps. -/
  taps : List (Nat × BitVec 32) := []
  /-- Packets waiting at each transmitter, the packet being sent, and the sample after the last packet sent. -/
  txq : List (Nat × List Job) := []
  txNow : List (Nat × TxPkt) := []
  txEnd : List (Nat × Nat) := []
  /-- Transform jobs of each queue. -/
  xq : List (Nat × List Job) := []
  /-- Latest boundary passed by each domain, and the instant of the last commit that changed it (R285). -/
  doms : List (Nat × Nat) := []
  domAt : List (Nat × Nat) := []
  /-- The settings that domains had before commits changed them. -/
  domOld : List DomSpan := []
  /-- The boundaries for which each timer has fired, by 16 × timer + domain, and the instant of the commit that enabled it
  (R286). -/
  tmrs : List (Nat × List Nat) := []
  tmrAt : List (Nat × Nat) := []
  deriving DecidableEq, Repr

/-- A decoder job in its queue (R304 to R307): the job, the far address of its descriptor in the window or 0, the engine
that runs it (0 and 1 LDPC, 2 turbo, 3 encoder), and once it is complete the bytes 0 to 15 of its record (Table DEC-2). -/
structure DecJob where
  job : Job
  far : Nat
  engine : Option Nat
  done : Option (List Byte)
  deriving DecidableEq, Repr

/-- A user table (R311): rows, columns, punctured columns, and entries as row, column, V. -/
structure UserTable where
  m : Nat
  ncol : Nat
  p : Nat
  entries : List (Nat × Nat × Nat)
  deriving DecidableEq, Repr

/-- The channel decoder beyond its registers (R304 to R318). -/
structure DecSt where
  /-- Jobs of each queue not yet released, oldest first. -/
  q : List (Nat × List DecJob) := []
  tables : List (Nat × UserTable) := []
  deriving DecidableEq, Repr

/-- A flash operation in progress (R193, R194, R460, R467): its command, kind, range and data. -/
structure FlashOp where
  ref : Option CmdRef
  /-- 0 READ, 1 PROGRAM, 2 ERASE, 3 firmware update, 4 certificate. -/
  kind : Nat
  ofs : Nat
  len : Nat
  data : List Byte
  result : Nat
  /-- Where a READ goes: device memory or the host's, its partition, its address. -/
  dev : Bool
  part : Nat
  addr : Nat
  deriving DecidableEq, Repr

/-- A fuse field being blown (R456): its command, field and value. -/
structure FuseOp where
  ref : Option CmdRef
  field : Nat
  value : List Byte
  deriving DecidableEq, Repr

/-- Security and test access beyond their registers (R455 to R481). -/
structure SecSt where
  /-- Customer key hashes that are programmed, by n. -/
  ckh : List (Nat × List Byte) := []
  /-- Measurements (R468). -/
  fwMeas : List Byte := []
  elaMeas : List Byte := []
  rgnMeas : List (Nat × List Byte) := []
  codeMeas : List Byte := List.replicate 48 0
  /-- The configuration flash; an unlisted byte is erased, 0xFF. -/
  flash : List Host.Cell := []
  flashOp : Option FlashOp := none
  fuseOp : Option FuseOp := none
  /-- The current JTAG instruction (Table SEC-9), the boundary register, and the DBG data register. -/
  jtag : Nat := 2
  boundary : List Bool := []
  dbg : BitVec 64 := 0
  /-- What the selected data register captured in the last scan, as it was shifted out. -/
  drOut : List Bool := []
  deriving DecidableEq, Repr

/-- The whole machine. -/
structure State where
  /-- The queue of waiting commands, first in, first out. -/
  pending : List Instr := []
  /-- The device timebase (R32). -/
  tb : BitVec 64 := 0
  /-- The model's own counter behind the free values (notes/assumptions/4.md). -/
  free : Nat := 0
  /-- The BAR0 register file. An unlisted offset holds its reset value. -/
  regs : List (Nat × BitVec 32) := []
  /-- Event records delivered to management firmware, newest first (R39). -/
  events : List EventRec := []
  /-- Memory of the two hosts, by port × 2^64 + address. It belongs to the environment; an unlisted byte is 0. -/
  hostMem : List Host.Cell := []
  host : HostSt := {}
  mem : MemSt := {}
  clk : ClkSt := {}
  fab : FabSt := {}
  pin : PinSt := {}
  cores : List (Nat × CoreSt) := []
  dsp : DspSt := {}
  lnk : LnkSt := {}
  pair : PairSt := {}
  /-- Trace sources 0 to 64, the next source in round-robin order, and the cores the loaded token names. -/
  trc : List (Nat × TrcSrc) := []
  trcNext : Nat := 0
  trcCores : BitVec 64 := 0
  /-- The frame that the trace port sent last, and the frames since its last alignment frame (R471). -/
  trcPort : List Byte := []
  trcFrames : Nat := 0
  ela : ElaSt := {}
  cap : CapSt := {}
  rad : RadSt := {}
  dec : DecSt := {}
  sec : SecSt := {}
  deriving DecidableEq, Repr

/-- The machine right after power-on reset is released. -/
def State.reset : State := {}

end Sys2Proof.Machine
end

