-- ==== Sys2Proof/Machine/Ops.lean ====
section
/-! DEFINITION. The named operations over the register file, the timebase, events, host memory, interrupts and command
completions, on which every family's meanings stand. -/

namespace Sys2Proof.Machine

/-! ### One part of the machine set -/

/-- The machine with the state of the event log set. -/
def State.setEvents (s : State) (x : List EventRec) : State := { s with events := x }

/-- The machine with the state of the memory of the hosts set. -/
def State.setHostMem (s : State) (x : List Host.Cell) : State := { s with hostMem := x }

/-- The machine with the state of the host plane set. -/
def State.setHost (s : State) (x : HostSt) : State := { s with host := x }

/-- The machine with the state of the memory system set. -/
def State.setMem (s : State) (x : MemSt) : State := { s with mem := x }

/-- The machine with the state of clocks, power and reset set. -/
def State.setClk (s : State) (x : ClkSt) : State := { s with clk := x }

/-- The machine with the state of the fabric set. -/
def State.setFab (s : State) (x : FabSt) : State := { s with fab := x }

/-- The machine with the state of the pins set. -/
def State.setPins (s : State) (x : PinSt) : State := { s with pin := x }

/-- The machine with the state of the signal cores set. -/
def State.setCores (s : State) (x : List (Nat × CoreSt)) : State := { s with cores := x }

/-- The machine with the state of the work dispatcher set. -/
def State.setDsp (s : State) (x : DspSt) : State := { s with dsp := x }

/-- The machine with the state of the links set. -/
def State.setLnk (s : State) (x : LnkSt) : State := { s with lnk := x }

/-- The machine with the state of the redundant pair set. -/
def State.setPair (s : State) (x : PairSt) : State := { s with pair := x }

/-- PAIR_HB_OUT is held low (R435). -/
def State.heartbeatLow (s : State) : State := s.setPair { s.pair with hbOut := false }

/-- The machine with the state of the trace sources set. -/
def State.setTrcs (s : State) (x : List (Nat × TrcSrc)) : State := { s with trc := x }

/-- The machine with the state of the Edge Logic Array set. -/
def State.setEla (s : State) (x : ElaSt) : State := { s with ela := x }

/-- The machine with the state of the capture engine set. -/
def State.setCap (s : State) (x : CapSt) : State := { s with cap := x }

/-- The machine with the state of the radio engine set. -/
def State.setRad (s : State) (x : RadSt) : State := { s with rad := x }

/-- The machine with the state of the channel decoder set. -/
def State.setDec (s : State) (x : DecSt) : State := { s with dec := x }

/-- The machine with the state of security and test access set. -/
def State.setSec (s : State) (x : SecSt) : State := { s with sec := x }

/-! ### Registers -/

/-- The register row that an offset lies in, if a register occupies it (R36). -/
def regRow (off : Nat) : Option RegDef := (regBlock off).find? fun r => r.holds off

/-- The reset value of the register at an offset, 0 where none lies (R12, R36). -/
def regReset (off : Nat) : BitVec 32 :=
  match regRow off with
  | some r => BitVec.ofNat 32 r.reset
  | none => 0

/-- The register at an offset. -/
def State.rdReg (s : State) (off : Nat) : Nat := (Sparse.get regReset s.regs off).toNat

/-- The machine with the register at an offset set. -/
def State.wrReg (s : State) (off v : Nat) : State :=
  { s with regs := Sparse.set regReset s.regs off (BitVec.ofNat 32 v) }

/-- A register field. -/
def State.rd (s : State) (f : Field) (i : Nat := 0) (j : Nat := 0) : Nat := bits (s.rdReg (f.off i j)) f.hi f.lo

/-- The machine with a register field set. -/
def State.wr (s : State) (f : Field) (v : Nat) (i : Nat := 0) (j : Nat := 0) : State :=
  s.wrReg (f.off i j) (setBits (s.rdReg (f.off i j)) f.hi f.lo v)

/-- A one-bit register field as a truth value. -/
def State.rdb (s : State) (f : Field) (i : Nat := 0) (j : Nat := 0) : Bool := s.rd f i j != 0

/-- The machine with a one-bit field set from a truth value. -/
def State.wrb (s : State) (f : Field) (b : Bool) (i : Nat := 0) (j : Nat := 0) : State := s.wr f (b2n b) i j

/-- A signed register field. -/
def State.rdS (s : State) (f : Field) (i : Nat := 0) (j : Nat := 0) : Int := sint (f.hi + 1 - f.lo) (s.rd f i j)

/-- A 64-bit quantity in a register pair, from its lower field (R15). -/
def State.rd64 (s : State) (f : Field) (i : Nat := 0) : Nat := s.rdReg (f.off i 0) + 2 ^ 32 * s.rdReg (f.off i 0 + 4)

/-- The machine with a register pair set (R15). -/
def State.wr64 (s : State) (f : Field) (v : Nat) (i : Nat := 0) : State :=
  (s.wrReg (f.off i 0) (v % 2 ^ 32)).wrReg (f.off i 0 + 4) (v / 2 ^ 32 % 2 ^ 32)

/-- A counter field that saturates. -/
def State.sat (s : State) (f : Field) (i : Nat := 0) (j : Nat := 0) (n : Nat := 1) : State :=
  s.wr f (satAdd (2 ^ (f.hi + 1 - f.lo) - 1) (s.rd f i j) n) i j

/-- A counter field that wraps. -/
def State.inc (s : State) (f : Field) (i : Nat := 0) (j : Nat := 0) (n : Nat := 1) : State :=
  s.wr f (s.rd f i j + n) i j

/-- A 64-bit counter that saturates. -/
def State.sat64 (s : State) (f : Field) (i : Nat := 0) (n : Nat := 1) : State :=
  s.wr64 f (satAdd (2 ^ 64 - 1) (s.rd64 f i) n) i

/-- An operation repeated over a list of indices, in order. -/
def State.each {α : Type} (s : State) (l : List α) (f : State → α → State) : State := l.foldl f s

/-- An operation made only where a condition holds. -/
def State.onlyIf (s : State) (c : Bool) (f : State → State) : State := if c then f s else s

/-! ### Time and free values -/

/-- The device timebase as a number of ticks (R32). The copies of the islands, which the spec lets differ by up to 1 tick (R33), are
one here, so their difference is always 0 (DESIGN CHOICE, notes/assumptions/132.md). -/
def State.now (s : State) : Nat := s.tb.toNat

/-- The machine past the free value it has just used: the model's own counter advances. -/
def State.burn (s : State) : State := { s with free := s.free + 1 }

/-- The device runs: power-on reset is not asserted and the thermal comparator has not stopped it (R422, R427, R487). -/
def State.alive (s : State) : Bool := !s.clk.por && !s.clk.tripped

/-- An event of a running device: nothing happens in one that is stopped. -/
def State.live (s : State) (f : State → State) : State := if s.alive then f s else s

/-- The machine with a queue of waiting commands. -/
def State.withPending (s : State) (l : List Instr) : State := { s with pending := l }

/-- What happens on an empty queue: one tick of the device timebase (R32, DESIGN CHOICE). -/
def State.idle (s : State) : State := if s.alive then { s with tb := s.tb + 1 } else s

/-! ### Host memory and interrupts -/

/-- The number of a port. -/
def portNat : Port → Nat
  | .p0 => 0
  | .p1 => 1

/-- The key of a byte of port p's host memory. -/
def hostKey (p addr : Nat) : Nat := p * 2 ^ 64 + addr % 2 ^ 64

/-- The `n` bytes of port p's host memory from an address. -/
def State.hostRead (s : State) (p addr n : Nat) : List Byte :=
  (List.range n).map fun k => Sparse.get (fun _ => 0) s.hostMem (hostKey p (addr + k))

/-- Some of those bytes arrive in a poisoned transaction layer packet. -/
def State.hostBad (s : State) (p addr n : Nat) : Bool :=
  (List.range n).any fun k => s.host.badTlp.contains (hostKey p (addr + k))

/-- Bytes written to port p's host memory. -/
def State.hostWrite (s : State) (p addr : Nat) : List Byte → State
  | [] => s
  | b :: bs =>
    (s.setHostMem (Sparse.set (fun _ => 0) s.hostMem (hostKey p addr) b)).hostWrite p (addr + 1) bs

/-- Port p is not lost (R406). -/
def State.portUp (s : State) (p : Nat) : Bool := bit (s.rd F.HST_STATUS.PORT_UP) p

/-- An MSI-X message of port p: the message is the memory write its table entry describes, or sets the pending bit while
the entry's mask bit is 1 or the port is lost (R394, PCI Express). -/
def State.msix (s : State) (p v : Nat) : State :=
  let w (k : Nat) : Nat := s.rd F.HST_MSIX.WORD p (4 * v + k)
  if bit (w 3) 0 || !s.portUp p then
    s.wr F.HST_MSIX_PBA.PEND (s.rd F.HST_MSIX_PBA.PEND p (v / 32) ||| 2 ^ (v % 32)) p (v / 32)
  else s.hostWrite p (w 0 / 4 * 4 + 2 ^ 32 * w 1) (leBytes 4 (w 2))

/-! ### Events -/

/-- Severities (Table ORG-8). -/
abbrev sevInfo : Nat := 0
abbrev sevWarn : Nat := 1
abbrev sevError : Nat := 2
abbrev sevFatal : Nat := 3

/-- An event payload from (byte 16 to 31, length, value) items; every other byte is 0 (Table ORG-7). -/
def payload (l : List (Nat × Nat × Nat)) : Nat :=
  l.foldl (fun n e => setBits n (8 * (e.1 - 16) + 8 * e.2.1 - 1) (8 * (e.1 - 16)) e.2.2) 0

/-- A source identifier (Table ORG-9): the code's subsystem, a die and a unit. -/
def sourceId (code die unit : Nat) : Nat := code / 256 % 256 * 2 ^ 24 + die % 256 * 2 ^ 16 + unit % 2 ^ 16

/-- The 32 bytes of an event record (Table ORG-7). -/
def EventRec.bytes (e : EventRec) (loss : Bool) : List Byte :=
  leBytes 8 e.ts ++ leBytes 2 e.code ++ leBytes 1 e.sev ++ leBytes 1 (b2n loss + 2 * b2n e.nme) ++ leBytes 4 e.source
    ++ leBytes 16 e.payload

/-- Whether port p's event ring takes a record (R39): a FATAL record or an NME passes the filters, never ENABLE. -/
def State.evtWanted (s : State) (p : Nat) (e : EventRec) : Bool :=
  s.rdb F.GLB_EVT_CFG.ENABLE p &&
    (e.sev == sevFatal || e.nme ||
      (bit (s.rd F.GLB_EVT_CFG.SUBSYS p) (e.code / 256 - 1) && decide (s.rd F.GLB_EVT_CFG.MIN_SEV p ≤ e.sev)))

/-- The interrupt of port p's event ring after a record (R395): at once for a FATAL record or an NME, else coalesced. -/
def State.evtSignal (s : State) (p : Nat) (urgent : Bool) : State :=
  let n := (Sparse.get (fun _ => 0) s.host.evtNew p) + 1
  if urgent || decide (2 ^ s.rd F.HST_EVT_CFG.COAL_CNT p ≤ n) || s.rd F.HST_EVT_CFG.COAL_US p == 0 then
    (s.setHost { s.host with evtNew := Sparse.set (fun _ => 0) s.host.evtNew p 0,
                                   evtFirst := Sparse.erase s.host.evtFirst p }).msix p 0
  else
    (s.setHost { s.host with
        evtNew := Sparse.set (fun _ => 0) s.host.evtNew p n,
        evtFirst := if n = 1 then Sparse.insert s.host.evtFirst p s.now else s.host.evtFirst })

/-- Delivery of a record to port p's event ring (R39, R40, R395, R406). -/
def State.evtToPort (s : State) (e : EventRec) (p : Nat) : State :=
  if !s.evtWanted p e then s else
  let size := 2 ^ s.rd F.HST_EVT_CFG.SIZE p
  let tail := s.rd F.HST_EVT_PTR.TAIL p
  let next := (tail + 1) % size
  if !s.portUp p || next == s.rd F.HST_EVT_PTR.HEAD p then
    (s.setHost { s.host with evtLoss := Sparse.set (fun _ => false) s.host.evtLoss p true }).sat F.GLB_EVT_LOST.COUNT p
  else
    let loss := Sparse.get (fun _ => false) s.host.evtLoss p
    let s := s.hostWrite p (s.rd64 F.HST_EVT_BASE_LO.BASE p + 32 * tail) (e.bytes loss)
    let s := (s.setHost { s.host with evtLoss := Sparse.erase s.host.evtLoss p })
    (s.wr F.HST_EVT_PTR.TAIL next p).evtSignal p (e.sev == sevFatal || e.nme)

/-- The boot ROM is in RECOVERY (R458). -/
def State.recovery (s : State) : Bool := s.rd F.SEC_BOOT.STATE == 2

/-- An event is raised: the record goes to management firmware and to each port that takes it (R38, R39). In RECOVERY no
event is raised (R458). -/
def State.event (s : State) (code sev source : Nat) (pay : Nat := 0) (nme : Bool := false) : State :=
  if s.recovery then s else
  let e : EventRec := ⟨s.now, code, sev, nme, source, pay⟩
  (((s.setEvents (e :: s.events))).evtToPort e 0).evtToPort e 1

/-! ### Events for the capture engine -/

/-- An event of instant `at_` is presented to a channel (R327). One that belongs to a sample taken in PREFILL or POST has no
effect; one that belongs to a sample already evaluated is late. -/
def CapCh.present (x : CapCh) (at_ kind unit pol : Nat) : CapCh :=
  let done := decide (0 < x.idx ∧ at_ ≤ x.lastTs)
  if done ∧ at_ ≤ x.quietTo then x else { x with evts := x.evts ++ [(⟨at_, kind, unit, pol, done⟩ : CapEvt)] }

/-- A channel is armed: neither IDLE nor STOPPED (Table CAP-2). -/
def State.capArmed (s : State) (c : Nat) : Bool := s.rd F.CAP_CH_STAT.STATE c != 0 && s.rd F.CAP_CH_STAT.STATE c != 5

/-- The state of capture channel c. -/
def State.capCh (s : State) (c : Nat) : CapCh := Sparse.get (fun _ => {}) s.cap.ch c

/-- What happens at once to the armed channels that pass a test. -/
def State.onArmed (s : State) (p : Nat → Bool) (f : Nat → CapCh → CapCh) : State :=
  s.setCap { s.cap with
    ch := (List.range 16).foldl
      (fun m c => if s.capArmed c && p c then Sparse.set (fun _ => {}) m c (f c (s.capCh c)) else m) s.cap.ch }

/-- An event is presented to every channel that is armed (R327). -/
def State.capNotify (s : State) (kind unit pol : Nat) : State :=
  s.onArmed (fun _ => true) fun _ x => x.present s.now kind unit pol

/-- SEL of a channel. -/
def State.capSel (s : State) (c : Nat) : Nat := s.rd F.CAP_CH_SEL_LO.SEL c + 2 ^ 32 * s.rd F.CAP_CH_SEL_HI.SEL c

/-- A source presents a sample of timestamp `ts` to the armed channels that name it (R319, R320): KIND, UNIT but for pins, POINT
of a radio slot, and what `wants` says of a channel. Of the samples of a PIN or RADIO source every DIV-th is taken. -/
def State.capFeed (s : State) (kind unit point ts : Nat) (poison : Bool) (wants : Nat → Bool) (data : Nat → List Byte) : State :=
  let source (c : Nat) : Bool := s.rd F.CAP_CH_SRC.KIND c == kind && (kind == 1 || s.rd F.CAP_CH_SRC.UNIT c == unit)
    && (kind != 2 || s.rd F.CAP_CH_SRC.POINT c == point)
  let div (c : Nat) : Nat := if kind < 3 then s.rd F.CAP_CH_SRC.DIV_M1 c + 1 else 1
  let take (c : Nat) (x : CapCh) : CapCh := { x with
    raw := x.raw + 1
    pipe := if x.raw % div c = 0 then x.pipe ++ [(⟨ts, leNat (data c), poison⟩ : CapSmp)] else x.pipe }
  s.onArmed (fun c => source c && decide ((s.capCh c).armT ≤ ts) && wants c) take

/-! ### Commands and completions -/

/-- Completion statuses (Table SCO-8). -/
abbrev stDone : Nat := 0x00
abbrev stAborted : Nat := 0x01
abbrev stTooLate : Nat := 0x02
abbrev stRefused : Nat := 0x03
abbrev stCheckFailed : Nat := 0x04
abbrev stRange : Nat := 0x05
abbrev stAuthFailed : Nat := 0x06
abbrev stIncomplete : Nat := 0x07
abbrev stBusy : Nat := 0x08
abbrev stCancelled : Nat := 0x09
abbrev stPreempted : Nat := 0x0A
abbrev stLate : Nat := 0x0B

/-- The state of ring r beyond its registers. -/
def State.ring (s : State) (r : Nat) : RingSt := Sparse.get (fun _ => {}) s.host.rings r

/-- The machine with the state of ring r set. -/
def State.setRing (s : State) (r : Nat) (x : RingSt) : State :=
  (s.setHost { s.host with rings := Sparse.set (fun _ => {}) s.host.rings r x })

/-- The port of a ring (R389). -/
def State.ringPort (s : State) (r : Nat) : Nat := s.rd F.HST_RING_CFG.PORT r

/-- The bytes of a completion entry (Table HST-3). -/
def Cpl.bytes (c : Cpl) (phase : Bool) : List Byte :=
  leBytes 4 c.tag ++ leBytes 2 c.index ++ leBytes 1 c.status ++ leBytes 1 (b2n phase + 2 * b2n c.flag) ++ leBytes 8 c.result

/-- The message of ring r for its unsignalled entries. -/
def State.ringMsg (s : State) (r : Nat) : State :=
  (s.setRing r { s.ring r with unsignalled := 0, firstUnsig := none }).msix (s.ringPort r) (s.rd F.HST_RING_CFG.VECTOR r)

/-- A completion entry is written at the tail of CQ r, and its interrupt counted (R391, R394). -/
def State.postCpl (s : State) (r : Nat) (c : Cpl) : State :=
  let size := 2 ^ s.rd F.HST_RING_CFG.CQ_SIZE r
  let tail := s.rd F.HST_RING_CQ.CQ_TAIL r
  let g := s.ring r
  let s := s.hostWrite (s.ringPort r) (s.rd64 F.HST_CQ_BASE_LO.BASE r + 16 * tail) (c.bytes g.phase)
  let s := s.wr F.HST_RING_CQ.CQ_TAIL ((tail + 1) % size) r
  let g := if (tail + 1) % size = 0 then { g with phase := !g.phase } else g
  if c.noirq || s.rd F.HST_RING_CFG.VECTOR r == 0 then s.setRing r g else
  let n := g.unsignalled + 1
  let s := s.setRing r { g with unsignalled := n, firstUnsig := if n = 1 then some s.now else g.firstUnsig }
  if 2 ^ s.rd F.HST_RING_CFG.COAL_CNT r ≤ n ∨ s.rd F.HST_RING_CFG.COAL_US r = 0 then s.ringMsg r else s

/-- `n` commands of ring r are no longer outstanding (R390). -/
def State.settle (s : State) (r n : Nat) : State := s.wr F.HST_RING_STAT.OUTSTANDING (s.rd F.HST_RING_STAT.OUTSTANDING r - n) r

/-- A completion of ring r is written, or held while the ring's port is lost: its command stays outstanding until then (R390,
R406). A ring disabled meanwhile has no queue to write to. -/
def State.deliverCpl (s : State) (r : Nat) (c : Cpl) : State :=
  if !s.rdb F.HST_RING_CFG.EN r then s.settle r 1
  else if s.portUp (s.ringPort r) then (s.settle r 1).postCpl r c
  else
    let g := s.ring r
    (s.setRing r { g with held := g.held ++ [c] }).wr F.HST_RING_HELD.HELD (g.held.length + 1) r

/-- The same command. -/
def Cmd.is (c : Cmd) (ref : CmdRef) : Bool := c.ref.ring == ref.ring && c.ref.index == ref.index

/-- No command is outstanding: none is in progress, and no completion is held (R390). -/
def State.noneOutstanding (s : State) : Bool := s.host.cmds.isEmpty && s.host.rings.all fun e => e.2.held.isEmpty

/-- When no command is outstanding after a PFW_N edge, the freeze has quiesced (R408). -/
def State.quiesceIfIdle (s : State) : State :=
  if s.host.pfwEdge.isSome && s.noneOutstanding then
    (s.setHost { s.host with pfwEdge := none }).wr F.HST_STATUS.QUIESCED 1
  else s

/-- The one completion of a command (R42, R43, R390): the command leaves the outstanding ones and its entry is written
or held. -/
def State.complete (s : State) (ref : CmdRef) (status : Nat) (result : Nat := 0) (flag : Bool := false) : State :=
  let r := ref.ring.toNat
  let s := (s.setHost { s.host with cmds := s.host.cmds.filter fun c => !c.is ref })
  (s.deliverCpl r ⟨ref.tag.toNat, ref.index.toNat, status, flag, result % 2 ^ 64, ref.noirq⟩).quiesceIfIdle

/-- The completion of a command that may have none (a submission made without one). -/
def State.completeOpt (s : State) (ref : Option CmdRef) (status : Nat) (result : Nat := 0) (flag : Bool := false) : State :=
  match ref with
  | some r => s.complete r status result flag
  | none => s

/-- The command completed before its acceptance, and never starts (R43, R398). -/
def State.isGone (s : State) (ref : CmdRef) : Bool := (s.ring ref.ring.toNat).gone.contains ref.index.toNat

/-- A command that completed before its acceptance is passed over. -/
def State.passOver (s : State) (ref : CmdRef) : State :=
  let g := s.ring ref.ring.toNat
  s.setRing ref.ring.toNat { g with gone := g.gone.filter (· != ref.index.toNat) }

/-- A command still waits behind an earlier one of its ring: itself under FENCE, or an unaccepted one before it (R392). -/
def State.waits (s : State) (ref : CmdRef) : Bool :=
  let earlier := (s.host.cmds.takeWhile fun c => !c.is ref).filter fun c => c.ref.ring == ref.ring
  (ref.fence && !earlier.isEmpty) || earlier.any fun c => !c.accepted

/-- The opcodes executed in RECOVERY (R458): NOP, SEC_ATTEST, and SEC_FW_UPDATE, whose SRC its own meaning judges. -/
def recoveryAllows (op : Nat) : Bool := op == 0x0201 || op == 0x0C01 || op == 0x0C02

/-- A command is recorded as accepted; one that the model was given without its fetch joins the outstanding ones. -/
def State.accept (s : State) (ref : CmdRef) (op : Nat) : State :=
  if s.host.cmds.any fun c => c.is ref then
    (s.setHost { s.host with
        cmds := s.host.cmds.map fun c => if c.is ref then { c with accepted := true } else c })
  else
    let s := (s.setHost { s.host with cmds := s.host.cmds ++ [(⟨ref, op, true, false, []⟩ : Cmd)] })
    let g := s.ring ref.ring.toNat
    (s.setRing ref.ring.toNat { g with last := Sparse.insert g.last ref.index.toNat op }).inc F.HST_RING_STAT.OUTSTANDING
      ref.ring.toNat

/-- The command processor takes a command (R392, R458): in a running device, from an enabled ring, when nothing earlier
holds it back. A command that still waits changes nothing, and one that has completed already is passed over. -/
def State.command (s : State) (ref : CmdRef) (op : Nat) (f : State → State) : State :=
  if !s.alive || !s.rdb F.HST_RING_CFG.EN ref.ring.toNat then s
  else if s.isGone ref then s.passOver ref
  else if s.waits ref then s
  else if s.recovery && !recoveryAllows op then (s.accept ref op).complete ref stRefused
  else f (s.accept ref op)

/-- A command has passed its point of no return (R43). -/
def State.pastPoint (s : State) (ref : CmdRef) : State :=
  (s.setHost { s.host with
      cmds := s.host.cmds.map fun c => if c.is ref then { c with past := true } else c })

/-- The port whose host memory a command's operands name (R396). -/
def State.cmdPort (s : State) (ref : CmdRef) : Nat := s.ringPort ref.ring.toNat

end Sys2Proof.Machine
end

