-- ==== Sys2Proof/Machine/Pins.lean ====
section
/-! DEFINITION. The pins as seen from their owners (R140 to R148, R156 to R160): pads, release, bank supplies, clock
outputs. -/

namespace Sys2Proof.Machine

/-! ### Pads -/

/-- The standby takes run control and loads only by replay (R437). -/
def State.standbyLocked (s : State) : Bool :=
  s.rdb F.PAIR_CFG.EN && s.rd F.PAIR_STAT.ROLE == 1 && (s.rd F.PAIR_STAT.STATE == 1 || s.rd F.PAIR_STAT.STATE == 2)

/-- The pair holds every bank and clock output off: the role is STANDBY, or a takeover has not released them (R436,
R447). -/
def State.pairHeld (s : State) : Bool :=
  (s.rdb F.PAIR_CFG.EN && s.rd F.PAIR_STAT.ROLE == 1) || s.pair.releaseAt.isSome

/-- The boundary register controls the pads it covers: EXTEST, HIGHZ or CLAMP is the current instruction (R479). -/
def State.boundaryHolds (s : State) : Bool := s.sec.jtag == 0x00 || s.sec.jtag == 0x03 || s.sec.jtag == 0x04

/-- Nothing holds the pads in the unreleased state whatever RELEASE says (R159, R436, R479). -/
def State.padsFree (s : State) : Bool := s.host.hsEarly && !s.pairHeld && !s.boundaryHolds

/-- A pad drives a level, or is released with its pull; OUT keeps the level last driven (Table PIN-2). -/
def State.setPad (s : State) (p : Nat) (level oe : Bool) : State :=
  (s.onlyIf oe fun s => s.wrb F.PIN_STAT.OUT level p).wrb F.PIN_STAT.OE oe p

/-- The level and enable that the fabric drive latch gives a pin (Table PIN-5). -/
def State.fabPad (s : State) (p : Nat) : Bool × Bool :=
  let l := s.rdb F.PIN_STAT.FAB_LATCH p
  match s.rd F.PIN_CFG.FAB_MODE p with
  | 1 => (l, !l)
  | 2 => (l, l)
  | _ => (l, true)

/-- The owner in effect at a pad (Table PIN-2). -/
def State.padOwner (s : State) (p : Nat) : Nat := s.rd F.PIN_STAT.OWNER p

/-- The pull that acts on a pad that is not driven (Table PIN-2): none while the main rails are not valid (R488), the weak
pull-down while its bank is not released (R146) or its ELA output is held off by GOE (R173), else PULL. -/
def State.padPull (s : State) (p : Nat) : Nat :=
  if s.clk.por then 0
  else if !s.rdb F.PIN_BANK_STAT.RELEASED (p / 32) || (s.padOwner p == 3 && !s.pin.elaGoe.getLsbD p) then 2
  else s.rd F.PIN_CFG.PULL p

/-- A newly assigned owner sets level and enable from its source; TLQ keeps what the pad had (R145, Table PIN-4). -/
def State.ownerTakes (s : State) (p : Nat) : State :=
  match s.padOwner p with
  | 0 => s.setPad p (s.rdb F.PIN_STATIC.VALUE p) (s.rdb F.PIN_STATIC.OE p)
  | 1 => s.setPad p (s.fabPad p).1 (s.fabPad p).2
  | 2 => s
  | _ => s.setPad p (s.pin.elaOut.getLsbD p) (s.pin.elaOe.getLsbD p)

/-- The pins of a bank (R140). -/
def bankPins (b : Nat) : List Nat := (List.range 32).map fun j => 32 * b + j

/-- RELEASED follows RELEASE, VIO_GOOD and what holds the pads; when it rises the pins follow their owners as if just
assigned, and when it falls every pin is high impedance (R146, R147, R159). -/
def State.showRelease (s : State) (b : Nat) : State :=
  let want := s.rdb F.PIN_BANK_CTRL.RELEASE b && s.rdb F.PIN_BANK_STAT.VIO_GOOD b && s.padsFree
  let was := s.rdb F.PIN_BANK_STAT.RELEASED b
  let s := s.wrb F.PIN_BANK_STAT.RELEASED want b
  if want && !was then s.each (bankPins b) State.ownerTakes
  else if was && !want then s.each (bankPins b) fun s p => s.setPad p false false
  else s

/-- Every bank again, after something that holds them has changed. -/
def State.showReleases (s : State) : State := s.each (List.range 16) State.showRelease

/-- Every bank is unreleased and RELEASE cleared (R159, R427, R479, R487). -/
def State.unreleaseAll (s : State) : State :=
  s.each (List.range 16) fun s b => (s.wr F.PIN_BANK_CTRL.RELEASE 0 b).showRelease b

/-- The owner and settings of a pin have been committed: they take effect at step C, the next step of the step clock (R145). -/
def State.pinCommitted (s : State) (p : Nat) : State :=
  s.onlyIf (!s.pin.changing.contains p) fun s => s.setPins { s.pin with changing := s.pin.changing ++ [p] }

/-- The committed owner and settings of a pin take effect at step C (R145): a new owner takes the pad; STATIC values and
FAB_MODE of an unchanged owner act too. From a load's point of no return until the first FAB_START a pin already
owned FABRIC keeps its level and enable (R125). -/
def State.pinTakes (s : State) (p : Nat) : State :=
  let old := s.padOwner p
  let new := s.rd F.PIN_CFG.OWNER p
  let s := s.wr F.PIN_STAT.OWNER new p
  if !s.rdb F.PIN_BANK_STAT.RELEASED (p / 32) then s
  else if old == new && (new == 2 || new == 3 || (new == 1 && s.fab.quiet)) then s
  else s.ownerTakes p

/-- RELEASE of a bank has been committed: it acts on step C (R146). -/
def State.releaseCommitted (s : State) (b : Nat) : State :=
  s.onlyIf (!s.pin.releasing.contains b) fun s => s.setPins { s.pin with releasing := s.pin.releasing ++ [b] }

/-- A committed RELEASE acts on step C (R146): VIO_GOOD = 0 there overrides it without an event. -/
def State.releaseTakes (s : State) (b : Nat) : State :=
  (s.onlyIf (!s.rdb F.PIN_BANK_STAT.VIO_GOOD b) fun s => s.wr F.PIN_BANK_CTRL.RELEASE 0 b).showRelease b

/-- Step C: what was committed for the pins and banks since the step before takes effect (R145, R146). -/
def State.pinsTake (s : State) : State :=
  let l := s.pin.changing
  let b := s.pin.releasing
  let s := s.setPins { s.pin with changing := [], releasing := [] }
  (s.each l State.pinTakes).each b State.releaseTakes

/-- A drive value takes effect at a pin (R144); on step C the pad is left to the owner that is then in effect (R145). -/
def State.drivePin (s : State) (p : Nat) (v : Bool) : State :=
  let s := s.wrb F.PIN_STAT.FAB_LATCH v p
  if s.rdb F.PIN_BANK_STAT.RELEASED (p / 32) && s.padOwner p == 1 && !s.fab.quiet && !s.pin.changing.contains p then
    s.setPad p (s.fabPad p).1 (s.fabPad p).2
  else s

/-- A launch changes a selected pin whose owner is TLQ (R95); an unreleased pad stays (R146, R436). -/
def State.launchPin (s : State) (p : Nat) (v en : Bool) : State :=
  s.onlyIf (s.padOwner p == 2 && s.rdb F.PIN_BANK_STAT.RELEASED (p / 32)) fun s => s.setPad p v en

/-- The ELA outputs and output enables assigned to the pins change, and with them the pads owned ELA (R143); `goe`: pins whose
source is a scope with GOE asserted (R173). -/
def State.elaDrives (s : State) (out oe goe : BitVec 512) : State :=
  let diff := (s.pin.elaOut ^^^ out) ||| (s.pin.elaOe ^^^ oe)
  let s := (s.setPins { s.pin with elaOut := out, elaOe := oe, elaGoe := goe })
  s.each (maskBits 512 diff.toNat) fun s p =>
    s.onlyIf (s.padOwner p == 3 && s.rdb F.PIN_BANK_STAT.RELEASED (p / 32)) fun s => s.ownerTakes p

/-- What the input samplers and compare inputs read: pins of a bank whose supply is lost read 0 (R147, R148). -/
def State.received (s : State) (pins : BitVec 512) : BitVec 512 :=
  (List.range 16).foldl (fun v b =>
    if s.rdb F.PIN_BANK_STAT.VIO_GOOD b then v else v &&& ~~~(BitVec.ofNat 512 (0xFFFFFFFF * 2 ^ (32 * b)))) pins

/-- The receivers as they now are. -/
def State.setRecv (s : State) (pins : BitVec 512) : State := s.setPins { s.pin with recv := pins }

/-- The input samplers take the receivers (R148). -/
def State.samplePins (s : State) (v : BitVec 512) : State := s.setFab { s.fab with samples := v }

/-- PIN_STAT.IN of pin p, sampled at the time of the read (Table PIN-2). -/
def State.samplePin (s : State) (p : Nat) : State := s.wrb F.PIN_STAT.IN ((s.received s.pin.recv).getLsbD p) p

/-! ### Clock outputs -/

/-- What a clock output pad does: 0 high impedance, 1 held low, 2 running. -/
def State.dcoPad (s : State) (k : Nat) : Nat := Sparse.get (fun _ => 0) s.pin.dcoPad k

/-- The machine with a clock output pad set; nothing but high impedance while the outputs are held (R159, R436). -/
def State.setDco (s : State) (k v : Nat) : State :=
  (s.setPins { s.pin with dcoPad := Sparse.set (fun _ => 0) s.pin.dcoPad k (if s.padsFree then v else 0) })

/-- The modulation that is committed for an output: CTRL, SSC, then the profile words (R157). -/
def State.dcoWords (s : State) (k : Nat) : List Nat :=
  [s.rd F.PIN_DCO_CTRL.SSC k, s.rd F.PIN_DCO_CTRL.PROFILE k, s.rd F.PIN_DCO_SSC.RATE k, s.rd F.PIN_DCO_SSC.DEPTH k]
    ++ (List.range 32).map fun i => s.rdReg (F.PIN_DCO_PROF.P_EVEN.off k i)

/-- The committed modulation takes effect at an output, whose modulation period begins. -/
def State.dcoModulate (s : State) (k : Nat) : State :=
  s.setPins { s.pin with
    dcoMod := Sparse.set (fun _ => []) s.pin.dcoMod k (s.dcoWords k)
    dcoStart := Sparse.set (fun _ => 0) s.pin.dcoStart k s.now }

/-- The word of the modulation in force at an output: 0 SSC, 1 PROFILE, 2 RATE, 3 DEPTH, 4 + i profile word i. -/
def State.dcoWord (s : State) (k w : Nat) : Nat := (Sparse.get (fun _ => []) s.pin.dcoMod k).getD w 0

/-- The built-in triangle: 65,535 × (1 − |i − 32| / 32), rounded down (R157). -/
def dcoTriangle (i : Nat) : Nat := 65535 * (32 - ((i : Int) - 32).natAbs) / 32

/-- Profile value p_i in force at an output (R157, Table PIN-9). -/
def State.dcoProfile (s : State) (k i : Nat) : Nat :=
  if s.dcoWord k 1 = 0 then dcoTriangle i
  else if i % 2 = 0 then bits (s.dcoWord k (4 + i / 2)) 15 0 else bits (s.dcoWord k (4 + i / 2)) 31 16

/-- The nominal frequency f₀ of an output in Hz (R156). -/
def State.dcoNominal (s : State) (k : Nat) : Rat :=
  50000000 * (s.rd F.PIN_DCO_DIV.N k + (s.rd F.PIN_DCO_FRAC.F k : Rat) / 2 ^ 24) / s.rd F.PIN_DCO_DIV.D k

/-- The frequency of an output in interval i of its modulation period, in Hz (R157). -/
def State.dcoFreq (s : State) (k i : Nat) : Rat :=
  let depth : Rat := (s.dcoWord k 3 : Rat) / 2000
  let p : Rat := (s.dcoProfile k i : Rat) / 65535
  match s.dcoWord k 0 with
  | 1 => s.dcoNominal k * (1 - depth * p)
  | 2 => s.dcoNominal k * (1 + depth * (p - 1 / 2))
  | _ => s.dcoNominal k

/-- The interval that an output is in: the period has 64 equal ones, at f_mod = RATE × 100 Hz (R157). -/
def State.dcoInterval (s : State) (k : Nat) : Nat :=
  (s.now - Sparse.get (fun _ => 0) s.pin.dcoStart k) * (64 * (100 * s.dcoWord k 2)) / 10 ^ 9 % 64

/-- A committed change of a clock output (R158); `synth`: N, F or D has changed; `was`: EN before it. -/
def State.dcoCommitted (s : State) (k : Nat) (was synth : Bool) : State :=
  let now := s.rdb F.PIN_DCO_CTRL.EN k
  if !now then s.onlyIf was fun s => (s.wr F.PIN_DCO_CTRL.LOCKED 0 k).setDco k 1
  else s.onlyIf (!was || synth) fun s => (s.wr F.PIN_DCO_CTRL.LOCKED 0 k).setDco k 1

/-- DCO_UNLOCK (R158). -/
def execDcoUnlock (k : BitVec 3) (s : State) : Host.Outcome State Fault Refusal :=
  let k := k.toNat
  .next <| s.live fun s => s.onlyIf (s.rdb F.PIN_DCO_CTRL.EN k && s.rdb F.PIN_DCO_CTRL.LOCKED k) fun s =>
    ((s.wr F.PIN_DCO_CTRL.LOCKED 0 k).setDco k 1).event 0x0604 sevError (sourceId 0x0604 0 (0x100 + k))

/-- DCO_LOCK_ACQUIRED (R158): the output restarts, its modulation with it. -/
def execDcoLockAcquired (k : BitVec 3) (s : State) : Host.Outcome State Fault Refusal :=
  let k := k.toNat
  .next <| s.live fun s => s.onlyIf (s.rdb F.PIN_DCO_CTRL.EN k && !s.rdb F.PIN_DCO_CTRL.LOCKED k) fun s =>
    ((s.wr F.PIN_DCO_CTRL.LOCKED 1 k).setDco k 2).dcoModulate k

/-- DCO_MODULATION_PERIOD_START (R158). -/
def execDcoModulationPeriodStart (k : BitVec 3) (s : State) : Host.Outcome State Fault Refusal :=
  let k := k.toNat
  .next <| s.live fun s => s.onlyIf (s.rdb F.PIN_DCO_CTRL.LOCKED k) fun s => s.dcoModulate k

/-- Every clock output is held in high impedance with EN cleared (R159). -/
def State.dcoHold (s : State) : State :=
  s.each (List.range 8) fun s k =>
    let s := (s.wr F.PIN_DCO_CTRL.EN 0 k).wr F.PIN_DCO_CTRL.LOCKED 0 k
    (s.setPins { s.pin with dcoPad := Sparse.erase s.pin.dcoPad k })

/-- Every clock output that is driven stops low (R159). -/
def State.dcoStop (s : State) : State :=
  s.each (List.range 8) fun s k => s.onlyIf (s.dcoPad k != 0) fun s => s.setPins { s.pin with
    dcoPad := Sparse.insert s.pin.dcoPad k 1 }

/-- Clock outputs after what held them has ended, or begun: a locked output runs, an enabled one without lock is low, one
that is not enabled is not driven (R159, R436). -/
def State.showDco (s : State) : State :=
  s.each (List.range 8) fun s k =>
    s.setDco k (if !s.rdb F.PIN_DCO_CTRL.EN k then 0 else if s.rdb F.PIN_DCO_CTRL.LOCKED k then 2 else 1)

/-! ### HS_EARLY_N -/

/-- HS_EARLY_N falls (R159, R408): pins and clock outputs are held, RELEASE and EN are cleared, both transmitters are
off. -/
def State.hsFall (s : State) : State :=
  ((s.setHost { s.host with hsEarly := false, txOn := false }).unreleaseAll).dcoHold

/-- HS_EARLY_N_FALL (R159). -/
def execHsEarlyNFall (s : State) : Host.Outcome State Fault Refusal :=
  .next (if s.host.hsEarly then s.hsFall else s)

/-- HS_EARLY_N_RISE (R408): the hold ends and both transmitters are on again. -/
def execHsEarlyNRise (s : State) : Host.Outcome State Fault Refusal :=
  .next (if s.host.hsEarly then s
    else ((s.setHost { s.host with hsEarly := true, txOn := true }).showReleases).showDco)

end Sys2Proof.Machine
end

