-- ==== Sys2Proof/Machine/Ela.lean ====
section
/-! DEFINITION. The Edge Logic Array under a loaded configuration (R161 to R180): logic, clocks, long lines, release. -/

namespace Sys2Proof.Machine

open Sys2Proof.Config

/-! ### Scopes (R173, R175, R187) -/

/-- STATE of a scope (Table CFG-4). -/
abbrev scEmpty : Nat := 0
abbrev scLoading : Nat := 1
abbrev scIncomplete : Nat := 2
abbrev scConfigured : Nat := 3

/-- The state of a scope; 16 is the whole array. -/
def State.scope (s : State) (n : Nat) : Nat :=
  if n = 16 then s.rd F.CFG_STATUS.ARRAY else bits (s.rd F.CFG_RGN_STATE.STATE) (2 * n + 1) (2 * n)

/-- The machine with the state of a scope set. -/
def State.setScope (s : State) (n v : Nat) : State :=
  if n = 16 then (s.wr F.CFG_STATUS.ARRAY v).wrb F.ELA_STATUS.CONFIGURED (v == scConfigured)
  else s.wr F.CFG_RGN_STATE.STATE (setBits (s.rd F.CFG_RGN_STATE.STATE) (2 * n + 1) (2 * n) v)

/-- Block k belongs to partial region n (R188). -/
def State.inRegion (s : State) (n k : Nat) : Bool := bit (s.rd F.CFG_RGN_BLK.BLOCKS n (k / 32)) (k % 32)

/-- The partial region of a block. -/
def State.blockRegion (s : State) (k : Nat) : Option Nat := (List.range 16).find? fun n => s.inRegion n k

/-- The scope of an event's SOURCE.UNIT and of CFG_STATUS.SCOPE. -/
def scopeUnit (n : Nat) : Nat := if n = 16 then 0x00FF else n

/-! ### What a block's frames say (Table CFG-1) -/

/-- A block: the line masks of its 192 product terms, its 64 inputs, its 32 macrocells in two parts, its boundary frame. -/
structure ElaBlock where
  pts : List (BitVec 64 × BitVec 64)
  ins : List ElaSrc
  cells : List (ElaCell × ElaSteer)
  bound : ElaBound
  deriving DecidableEq, Repr, Inhabited

/-- The block that 24 frames hold: product terms in frames 0 to 11, inputs in 12 to 15, macrocells in 16 to 19, steering, carry
and long lines in 20 to 22, the boundary in 23. -/
def elaBlock (fr : List (BitVec 2048)) : ElaBlock :=
  let f (n : Nat) : BitVec 2048 := fr.getD n 0
  ⟨(List.range 192).map fun t => elaPt (f (t / 16)) (t % 16), (List.range 64).map fun j => elaInput (f (12 + j / 16)) (j % 16),
    (List.range 32).map fun m => (elaCell (f (16 + m / 8)) (m % 8), elaSteer (f 20) (f 21) (f 22) m), elaBound (f 23)⟩

/-- What governs a block (R175): the whole array's controls, and those of its partial region once that is not EMPTY. -/
structure ElaCtx where
  conf : List ElaBlock
  inp : ElaIn
  goe : BitVec 256
  gwe : BitVec 256
  gsr : BitVec 256
  /-- Blocks of a held partial region, and the region of each block. -/
  held : BitVec 256
  region : List (Option Nat)
  dis : BitVec 128
  seed : Nat

/-- A mask of the blocks that pass a test. -/
def blockMask (p : Nat → Bool) : BitVec 256 :=
  BitVec.ofNat 256 ((List.range 256).foldl (fun n k => n + b2n (p k) * 2 ^ k) 0)

/-- The frames of block k as they are stored (R181). -/
def State.blockFrames (s : State) (k : Nat) : List (BitVec 2048) :=
  (List.range 24).map fun f =>
    (List.range 32).foldl (fun (v : BitVec 2048) w =>
      v ^^^ BitVec.ofNat 2048 (((Sparse.get (fun _ => (0 : BitVec 72)) s.ela.flips ((24 * k + f) * 32 + w)).extractLsb' 0 64).toNat
        * 2 ^ (64 * w)))
      (Sparse.get (fun _ => (0 : BitVec 2048)) s.ela.frames (24 * k + f))

/-- The controls and the configuration in force, for given inputs. -/
def State.elaCtx (s : State) (inp : ElaIn) : ElaCtx :=
  let rg := (List.range 256).map s.blockRegion
  let of (k : Nat) : Option Nat := match rg.getD k none with
    | some n => if s.scope n = scEmpty then none else some n
    | none => none
  let all (v : BitVec 17) (k : Nat) : Bool := v.getLsbD 16 && (match of k with | some n => v.getLsbD n | none => true)
  { conf := (List.range 256).map fun k => elaBlock (s.blockFrames k)
    inp := inp
    goe := blockMask (all s.ela.goe)
    gwe := blockMask (all s.ela.gwe)
    gsr := blockMask fun k => s.ela.gsr.getLsbD 16 || (match of k with | some n => s.ela.gsr.getLsbD n | none => false)
    held := blockMask fun k => match of k with
      | some n => s.scope n != scConfigured || !bit (s.rd F.ELA_REL_RGN.RELEASED) n
      | none => false
    region := rg
    dis := BitVec.ofNat 128 ((List.range 16).foldl (fun n r => n + s.rd F.ELA_LL_DIS.DISABLED r * 2 ^ (8 * r)) 0)
    seed := s.free }

/-- A block, and a macrocell of the array, as configured. -/
def ElaCtx.block (x : ElaCtx) (k : Nat) : ElaBlock := x.conf.getD k default
def ElaCtx.cell (x : ElaCtx) (i : Nat) : ElaCell := ((x.block (i / 32)).cells.getD (i % 32) default).1
def ElaCtx.steer (x : ElaCtx) (i : Nat) : ElaSteer := ((x.block (i / 32)).cells.getD (i % 32) default).2

/-! ### Signals (R165, R168, R187) -/

/-- A signal from outside the array that a block input may take (R165). -/
def ElaCtx.outer (x : ElaCtx) : ElaSrc → Bool
  | .pin p => x.inp.pins.getLsbD p
  | .xbit n => x.inp.xbits.getLsbD n
  | .hub n => decide (48 ≤ n) && x.inp.hub.getLsbD (n - 48)
  | _ => false

/-- The level of global net g: the receiver of a clock-capable pin DP[32b] or DP[32b + 16], a clock output's copy, a crossing
bit, a hub-to-ELA signal, the system clock, or 0 (R140, R168). -/
def ElaCtx.net (x : ElaCtx) (g : Nat) : Bool :=
  decide (g < 16) && match (x.block g).bound.net with
    | .pin p => p % 16 == 0 && x.outer (.pin p)
    | .dco k => x.inp.dco.getLsbD k
    | .sys => x.inp.sys
    | o => x.outer o

/-- A signal as a block sees it: a macrocell of a held region other than the block's own shows its safe level (R187). -/
def ElaCtx.sig (x : ElaCtx) (v : ElaVal) (k : Nat) : ElaSrc → Bool
  | .cell i =>
    if x.held.getLsbD (i / 32) && x.region.getD (i / 32) none != x.region.getD k none then
      (x.block (i / 32)).bound.safe.getLsbD (i % 32)
    else v.out.getLsbD i
  | .line j => v.lines.getLsbD (k / 16 * 8 + j % 8)
  | .net g => x.net g
  | o => x.outer o

/-- Product terms of a block: each is the AND of its true and complement lines (R161). -/
def ElaCtx.terms (x : ElaCtx) (v : ElaVal) (k : Nat) : List Bool :=
  let ins := BitVec.ofNat 64 (((x.block k).ins.map (x.sig v k)).foldr (fun b n => b2n b + 2 * n) 0)
  (x.block k).pts.map fun t => t.1 &&& ~~~ins == 0 && t.2 &&& ins == 0

/-- Term t of a block; a term that no line connects is constant 1 (R161). -/
def termAt (ts : List Bool) (t : Nat) : Bool := ts.getD t true

/-- What local term Lj of a macrocell is given to (R162). -/
def useOf (c : ElaCell) (j : Nat) : ElaUse := c.uses.getD j .off

/-- Control role j of macrocell m: its local term Lj where that is given to the role, else the role's source (Table ELA-1). -/
def roleAt (c : ElaCell) (ts : List Bool) (m j : Nat) (r : ElaRole) : Bool :=
  if useOf c j = .role then termAt ts (5 * m + j) else match r with
  | .const b => b
  | .ct k => termAt ts (160 + k % 32)

/-- The product terms of macrocell m's sum: local terms set to SUM, of which carry mode leaves L4 out, and borrowed terms (R162
to R164). -/
def sumTerms (c : ElaCell) (t : ElaSteer) (m : Nat) : List Nat :=
  (((List.range 5).filter fun j => useOf c j == .sum && !(t.carry && j == 4)).map fun j => 5 * m + j) ++ t.borrowed

/-- What a macrocell makes of its terms. -/
structure CellNow where
  x : Bool
  co : Bool
  ce : Bool
  ar : Bool
  as : Bool
  oe : Bool

/-- A macrocell (Table ELA-1, R164); CT0 is a carry-in of macrocell 0 alone. -/
def cellNow (c : ElaCell) (t : ElaSteer) (ts : List Bool) (m : Nat) (chain : Bool) : CellNow :=
  let sum := (sumTerms c t m).any (termAt ts)
  let l4 := termAt ts (5 * m + 4)
  let cin := match t.cin with
    | 1 => false
    | 2 => true
    | 3 => if m = 0 then termAt ts 160 else chain
    | _ => chain
  let op := if t.carry then cin else match c.xor with
    | 0 => false
    | 1 => true
    | 2 => useOf c 4 == .role && l4
    | _ => cin
  ⟨sum ^^ op, t.carry && (l4 || (sum && cin)), roleAt c ts m 0 c.ce, roleAt c ts m 1 c.ar, roleAt c ts m 2 c.as,
    roleAt c ts m 3 c.oe⟩

/-- The macrocells of a block in order, the carry passed along (R164). -/
def cellsNow (cs : List (ElaCell × ElaSteer)) (ts : List Bool) : Nat → Bool → List CellNow
  | m, chain =>
    match cs with
    | [] => []
    | c :: rest =>
      let r := cellNow c.1 c.2 ts m chain
      r :: cellsNow rest ts (m + 1) r.co

/-- The macrocells of block k; macrocell 0 takes the carry of the block above (R164). -/
def ElaCtx.cells (x : ElaCtx) (v : ElaVal) (k : Nat) : List CellNow :=
  cellsNow (x.block k).cells (x.terms v k) 0 (decide (16 ≤ k) && v.co.getLsbD (k - 16))

/-- A mask of n bits from a list of truth values. -/
def bitsOf (n : Nat) (l : List Bool) : BitVec n := BitVec.ofNat n (l.foldr (fun b k => b2n b + 2 * k) 0)

/-- Every macrocell of the array, in order. -/
def ElaCtx.all (x : ElaCtx) (v : ElaVal) : List CellNow :=
  (List.range 256).flatMap fun k =>
    let l := x.cells v k
    l ++ List.replicate (32 - l.length) ⟨false, false, false, false, false, false⟩

/-! ### Long lines (R166) -/

/-- The macrocells whose drivers of a line are enabled; none while the line is disabled (R167). -/
def ElaCtx.drivers (x : ElaCtx) (oe : BitVec 8192) (line : Nat) : List Nat :=
  if x.dis.getLsbD line then [] else
  ((List.range 512).map fun c => line / 8 * 512 + c).filter fun i =>
    (x.steer i).lines.contains (line % 8) && oe.getLsbD i && x.goe.getLsbD (i / 32)

/-- The level of a line: its drivers' level, the level kept, or a free value where enabled drivers differ. -/
def ElaCtx.line (x : ElaCtx) (v : ElaVal) (line : Nat) : Bool :=
  match x.drivers v.oe line with
  | [] => v.lines.getLsbD line
  | i :: l =>
    if l.all fun j => v.out.getLsbD j == v.out.getLsbD i then v.out.getLsbD i
    else freeNat (x.seed + line) % 2 == 1

/-! ### Settling -/

/-- One pass over the array: what each macrocell, long line and asynchronous term makes of the present levels. -/
def ElaCtx.pass (x : ElaCtx) (v : ElaVal) : ElaVal :=
  let l := x.all v
  let at_ (i : Nat) : CellNow := l.getD i ⟨false, false, false, false, false, false⟩
  let q := bitsOf 8192 ((List.range 8192).map fun i =>
    if x.gsr.getLsbD (i / 32) then (x.cell i).init
    else if (at_ i).ar then false
    else if (at_ i).as then true
    else v.q.getLsbD i)
  let out := bitsOf 8192 ((List.range 8192).map fun i => if (x.cell i).ff = 0 then (at_ i).x else q.getLsbD i)
  { q := q, out := out, oe := bitsOf 8192 (l.map (·.oe))
    co := bitsOf 256 ((List.range 256).map fun k => (at_ (32 * k + 31)).co)
    lines := bitsOf 128 ((List.range 128).map (x.line v)) }

/-- A free value: the spec gives an oscillating loop no levels. -/
def ElaVal.unknown (n : Nat) : ElaVal :=
  ⟨BitVec.ofNat 8192 (freeNat n), BitVec.ofNat 8192 (freeNat (n + 1)), BitVec.ofNat 8192 (freeNat (n + 2)),
    BitVec.ofNat 256 (freeNat (n + 3)), BitVec.ofNat 128 (freeNat (n + 4))⟩

/-- The levels the array settles at. -/
def ElaCtx.settle (x : ElaCtx) : Nat → ElaVal → ElaVal
  | 0, _ => ElaVal.unknown (x.seed + 128)
  | n + 1, v => if x.pass v = v then v else x.settle n (x.pass v)

/-- Passes after which an array that has not settled is taken to oscillate. -/
abbrev elaFuel : Nat := 32768

/-! ### Clocks (R168, R169) -/

/-- The level of a flip-flop's clock; L4 only where it is neither in the sum nor in carry mode (R169). -/
def ElaCtx.clkOf (x : ElaCtx) (v : ElaVal) (i : Nat) : Bool :=
  match (x.cell i).clk with
  | .net g inv => x.net g ^^ inv
  | .l4 => useOf (x.cell i) 4 == .role && !(x.steer i).carry && termAt (x.terms v (i / 32)) (5 * (i % 32) + 4)
  | .ct k => termAt (x.terms v (i / 32)) (160 + k % 32)
  | .wire w => x.sig v (i / 32) w

/-- The levels of every flip-flop's clock. -/
def ElaCtx.clks (x : ElaCtx) (v : ElaVal) : BitVec 8192 := bitsOf 8192 ((List.range 8192).map (x.clkOf v))

/-- The flip-flops after rising clock edges, under their clock enables and GWE, from the levels before the edges
(Table ELA-1, Table ELA-4). -/
def ElaCtx.capture (x : ElaCtx) (before : ElaCtx × ElaVal) (rising q : BitVec 8192) : BitVec 8192 :=
  let l := before.1.all before.2
  bitsOf 8192 ((List.range 8192).map fun i =>
    let c := l.getD i ⟨false, false, false, false, false, false⟩
    if rising.getLsbD i && c.ce && x.gwe.getLsbD (i / 32) && !x.gsr.getLsbD (i / 32) then
      (if (x.cell i).ff = 2 then q.getLsbD i ^^ c.x else c.x)
    else q.getLsbD i)

/-- Settling with every clock edge that it causes: levels and clock levels at rest. -/
def ElaCtx.run (x : ElaCtx) : Nat → ElaCtx × ElaVal → BitVec 8192 → ElaVal → ElaVal × BitVec 8192
  | 0, _, clk, _ => (ElaVal.unknown (x.seed + 133), clk)
  | n + 1, before, clk, v =>
    let v := x.settle elaFuel v
    let now := x.clks v
    let rising := now &&& ~~~clk
    if rising = 0 then (v, now)
    else x.run n (x, v) now { v with q := x.capture before rising v.q }

/-! ### What the array drives -/

/-- The output of a source macrocell in a scope whose outputs are enabled; else 0 (Table ELA-4). -/
def ElaCtx.driven (x : ElaCtx) (v : BitVec 8192) : Option Nat → Bool
  | some i => v.getLsbD i && x.goe.getLsbD (i / 32)
  | none => false

/-- Transitions of H[47:32] reach the capture engine (Table CAP-4). -/
def State.hubEdges (s : State) (hub : BitVec 48) : State :=
  s.each ((List.range 16).filter fun u => s.ela.hubOut.getLsbD (32 + u) != hub.getLsbD (32 + u)) fun s u =>
    s.capNotify 8 u (b2n (!hub.getLsbD (32 + u)))

/-- The array's levels take effect outside it: pins, crossing bits, hub signals (R171 to R173). -/
def State.elaPublish (s : State) (x : ElaCtx) (v : ElaVal) : State :=
  let src (l : List (Option Nat)) (j : Nat) : Option Nat := l.getD j none
  let pinSrc (p : Nat) : Option Nat := src (x.block (p / 2)).bound.pinOut (p % 2)
  let goe := bitsOf 512 ((List.range 512).map fun p => match pinSrc p with
    | some i => x.goe.getLsbD (i / 32)
    | none => true)
  let out := bitsOf 512 ((List.range 512).map fun p => x.driven v.out (pinSrc p))
  let oe := bitsOf 512 ((List.range 512).map fun p =>
    match pinSrc p, src (x.block (p / 2)).bound.pinOe (p % 2) with
    | some i, some e => x.goe.getLsbD (i / 32) && v.oe.getLsbD e
    | _, _ => false)
  let xout := bitsOf 1024 ((List.range 1024).map fun n => x.driven v.out (src (x.block (n / 4)).bound.xbits (n % 4)))
  let hub := bitsOf 48 ((List.range 48).map fun h => x.driven v.out (x.block (h + 16)).bound.hub)
  let s := s.elaDrives out oe goe
  let s := s.hubEdges hub
  let s := (s.setEla { s.ela with
    xout := xout, hubOut := hub
    hubRise := s.ela.hubRise ||| (hub &&& ~~~s.ela.hubOut).setWidth 32 })
  (s.wr F.ELA_HUB_OUT.H hub.toNat).wr F.ELA_HUB_OUT_HI.H (hub.toNat / 2 ^ 32)

/-- Ticks that `n` cycles of the ELA system clock take, at 400 MHz and rounded up; RCO's tolerance shows where one of that clock
and the TB derives from RCO and the other from XREF (R35, R178). -/
def State.elaTicks (s : State) (n : Nat) : Nat :=
  let rco := 98000 + rcoTrim % 4001
  let up (a b : Nat) : Nat := (a + b - 1) / b
  match s.rdb F.CLK_DOM_CFG.SRC 16, s.rdb F.GLB_STATUS.TB_DEGRADED with
  | true, false => up (5 * n * 100000) (2 * rco)
  | false, true => up (5 * n * rco) 200000
  | _, _ => up (5 * n) 2

/-- ELA_GCLK_ACT: the global nets that have toggled within the last 1,024 ELA cycles. -/
def State.showNets (s : State) : State :=
  s.wr F.ELA_GCLK_ACT.ACTIVE
    ((s.ela.netAt.filter fun e => decide (s.now ≤ e.2 + s.elaTicks 1024)).foldl (fun n e => n + 2 ^ e.1) 0)

/-- The levels of the global nets, with the TB at which each last toggled. -/
def State.elaNets (s : State) (x : ElaCtx) : State :=
  let nets := bitsOf 16 ((List.range 16).map x.net)
  let at_ := (maskBits 16 (nets ^^^ s.ela.nets).toNat).foldl (fun m g => Sparse.insert m g s.now) s.ela.netAt
  (s.setEla { s.ela with nets := nets, netAt := at_ }).showNets

/-- The SCP's clock, net SCP_CTRL[4:1], rises from one context to the next: where the write enable is 1 before the edge, the
port is presented with a word (R196). -/
def State.scpEdge (s : State) (old new : ElaCtx) (v : BitVec 8192) : State :=
  let g := bits s.ela.scpCtrl 4 1
  s.onlyIf (bit s.ela.scpCtrl 0 && !old.net g && new.net g && v.getLsbD (bits s.ela.scpCtrl 20 8)) fun s =>
    s.setEla { s.ela with scpIn := s.ela.scpIn ++ [s.ela.scpD.foldr (fun m n => b2n (v.getLsbD m) + 2 * n) 0] }

/-- The inputs that the device itself gives the array: the receivers, 0 where the bank's supply is lost (R147), fabric-to-ELA
bits, 0 from a load's point of no return (R125), and H[63:48] (Table ELA-2). -/
def State.elaOwnIn (s : State) (i : ElaIn) : ElaIn :=
  { i with
    pins := s.received s.pin.recv
    xbits := if s.fab.quiet then 0
      else BitVec.ofNat 1024 ((s.fab.elaOut.filter (·.2)).foldl (fun n e => n + 2 ^ e.1) 0)
    hub := BitVec.ofNat 16 ((s.cap.trigOut.filter fun e => decide (s.now < e.2)).foldl (fun n e => n + 2 ^ e.1) 0
      + ((s.clk.pulses.filter fun e => decide (s.now < e.2)).foldl (fun n e => n + 2 ^ (8 + e.1)) 0)
      + (s.dsp.flags.filter (·.2)).foldl (fun n e => n + 2 ^ (12 + e.1)) 0) }

/-- Without a complete configuration nothing leaves the array, whatever its inputs. -/
def State.elaOff (s : State) (inp : ElaIn) : State :=
  let s := s.hubEdges 0
  let s := (s.setEla { s.ela with inp := inp, val := { lines := s.ela.val.lines }, clk := 0, xout := 0, hubOut := 0 })
  (((s.elaDrives 0 0 0).wr F.ELA_HUB_OUT.H 0).wr F.ELA_HUB_OUT_HI.H 0).elaNets { s.elaCtx inp with conf := [] }

/-- The configured array follows a change of its inputs or controls: asynchronous paths settle, and every clock edge among them
clocks its flip-flops. -/
def State.elaMove (s : State) (inp : ElaIn) : State :=
  let old := s.elaCtx s.ela.inp
  let x := s.elaCtx inp
  let s := s.scpEdge old x s.ela.val.out
  let r := x.run elaFuel (old, s.ela.val) s.ela.clk s.ela.val
  ((s.setEla { s.ela with inp := inp, val := r.1, clk := r.2 }).burn.elaPublish x r.1).elaNets x

/-- The array with the inputs that come from outside the device as given (R161 to R175). What the device itself gives it may
have changed since it was last settled, and acts first. -/
def State.elaStep (s : State) (inp : ElaIn) : State :=
  if s.scope 16 != scConfigured then s.elaOff (s.elaOwnIn inp)
  else (s.elaMove { s.elaOwnIn s.ela.inp with pins := s.ela.inp.pins }).elaMove (s.elaOwnIn inp)

/-- The array again, after something that the device gives it, a control, a scope or a line has changed. -/
def State.elaAgain (s : State) : State := s.elaStep s.ela.inp

/-- The array after its configuration has changed: the clock levels are those of the new one, and no edge results. -/
def State.elaFresh (s : State) : State :=
  if s.scope 16 != scConfigured then s.elaAgain else
  let x := s.elaCtx (s.elaOwnIn s.ela.inp)
  (s.setEla { s.ela with clk := x.clks (x.settle elaFuel s.ela.val) }).elaAgain

/-- ELA_CLOCK_EDGE (R169): receivers, clock-output copies and the system clock as they now are; the flip-flops whose clock rises
are clocked. -/
def execElaClockEdge (pins : BitVec 512) (dco : BitVec 8) (sys : Bool) (s : State) : Host.Outcome State Fault Refusal :=
  .next (s.live fun s => (s.setRecv pins).elaStep { s.ela.inp with dco := dco, sys := sys })

/-- A rising edge of H[n], n below 32, is taken by its receiving block (R172). -/
def State.takeRise (s : State) (n : Nat) (f : State → State) : State :=
  s.onlyIf (s.ela.hubRise.getLsbD n) fun s =>
    f (s.setEla { s.ela with hubRise := s.ela.hubRise &&& ~~~(BitVec.ofNat 32 (2 ^ n)) })

/-! ### Bank supplies (R147, R148) -/

/-- PIN_SUPPLY_LOST (R147, R173): the bank's pins are released, and its receivers read 0. -/
def execPinSupplyLost (b : BitVec 4) (s : State) : Host.Outcome State Fault Refusal :=
  let b := b.toNat
  .next <| s.live fun s => s.onlyIf (s.rdb F.PIN_BANK_STAT.VIO_GOOD b) fun s =>
    ((((s.wr F.PIN_BANK_STAT.VIO_GOOD 0 b).wr F.PIN_BANK_CTRL.RELEASE 0 b).showRelease b).event 0x0602 sevWarn
      (sourceId 0x0602 0 b)).elaAgain

/-- PIN_SUPPLY_OK (R147): the bank's receivers read their pins again. -/
def execPinSupplyOk (b : BitVec 4) (s : State) : Host.Outcome State Fault Refusal :=
  let b := b.toNat
  .next <| s.live fun s => s.onlyIf (!s.rdb F.PIN_BANK_STAT.VIO_GOOD b) fun s =>
    ((s.wr F.PIN_BANK_STAT.VIO_GOOD 1 b).event 0x0603 sevInfo (sourceId 0x0603 0 b)).elaAgain

/-! ### Release and hold (R175 to R178) -/

/-- GOE, GWE and GSR of the whole array, and REL_BUSY, as ELA_STATUS shows them. -/
def State.showEla (s : State) : State :=
  (((s.wrb F.ELA_STATUS.GOE (s.ela.goe.getLsbD 16)).wrb F.ELA_STATUS.GWE (s.ela.gwe.getLsbD 16)).wrb F.ELA_STATUS.GSR
    (s.ela.gsr.getLsbD 16)).wrb F.ELA_STATUS.REL_BUSY (!s.ela.rel.isEmpty)

/-- One control of a scope. -/
def ctlBit (v : BitVec 17) (n : Nat) (b : Bool) : BitVec 17 :=
  if b then v ||| BitVec.ofNat 17 (2 ^ n) else v &&& ~~~(BitVec.ofNat 17 (2 ^ n))

/-- A partial region's bit of ELA_REL_RGN. -/
def State.setReleased (s : State) (n : Nat) (b : Bool) : State :=
  s.onlyIf (n != 16) fun s => s.wr F.ELA_REL_RGN.RELEASED (setBits (s.rd F.ELA_REL_RGN.RELEASED) n n (b2n b))

/-- A scope is put into the held state (R177): a sequence in progress for it is abandoned, and the command that began it
completes INCOMPLETE. -/
def State.holdControls (s : State) (n : Nat) : State :=
  let gone := s.ela.rel.filter fun r => r.scope == n
  let s := (s.setEla { s.ela with
    goe := ctlBit s.ela.goe n false, gwe := ctlBit s.ela.gwe n false, gsr := ctlBit s.ela.gsr n true
    rel := s.ela.rel.filter fun (r : ElaRel) => r.scope != n })
  let s := (s.setReleased n false).showEla
  s.each gone fun s r => s.completeOpt r.ref stIncomplete

/-- A scope is put into the held state, and the array follows. -/
def State.holdScope (s : State) (n : Nat) : State := (s.holdControls n).elaAgain

/-- A release sequence begins: GOE at cycle 0, the point of no return of its command (R175, R176). -/
def State.beginRelease (s : State) (n : Nat) (ref : Option CmdRef) : State :=
  let s := match ref with
    | some r => s.pastPoint r
    | none => s
  ((s.setEla { s.ela with goe := ctlBit s.ela.goe n true, rel := s.ela.rel ++ [(⟨n, ref, false, s.now⟩ : ElaRel)] }).showEla).elaAgain

/-- A scope has been released: GSR is deasserted with GOE and GWE asserted. -/
def State.isReleased (s : State) (n : Nat) : Bool :=
  s.ela.goe.getLsbD n && s.ela.gwe.getLsbD n && !s.ela.gsr.getLsbD n

/-- The scope that a SCOPE operand names. -/
def scopeOf (v : Nat) : Option Nat := if v = 0xFF then some 16 else if v < 16 then some v else none

/-- A load is in progress in a scope. -/
def State.loadingScope (s : State) (n : Nat) : Bool := s.scope n == scLoading

/-- ELA_RELEASE (R176, R437). -/
def execElaRelease (ref : CmdRef) (scope : BitVec 8) (s : State) : Host.Outcome State Fault Refusal :=
  .next <| s.command ref 0x0502 fun s =>
    match scopeOf scope.toNat with
    | none => s.complete ref stRange
    | some n =>
      if s.standbyLocked then
        s.complete ref stRefused
      else if s.loadingScope n || (n != 16 && s.loadingScope 16) then s.complete ref stBusy
      else if s.scope n != scConfigured then s.complete ref stRefused
      else if s.isReleased n then s.complete ref stDone
      else if s.ela.rel.any fun r => r.scope == n then s.complete ref stBusy
      else s.beginRelease n (some ref)

/-- Cycle GAP1 of a release sequence has come (R175, R178). -/
def State.gweDue (s : State) (r : ElaRel) : Bool := decide (r.at_ + s.elaTicks (s.rd F.ELA_REL_GAP.GAP1) ≤ s.now)

/-- Cycle GAP1 + GAP2 of a release sequence has come (R175, R178). -/
def State.gsrDue (s : State) (r : ElaRel) : Bool :=
  decide (r.at_ + s.elaTicks (s.rd F.ELA_REL_GAP.GAP1 + s.rd F.ELA_REL_GAP.GAP2) ≤ s.now)

/-- ELA_GWE_ASSERT: GAP1 cycles after GOE (R175). -/
def execElaGweAssert (scope : BitVec 8) (s : State) : Host.Outcome State Fault Refusal :=
  .next <| s.live fun s =>
    match scopeOf scope.toNat with
    | none => s
    | some n =>
      if s.ela.rel.any fun r => r.scope == n && !r.gwe && s.gweDue r then
        ((s.setEla { s.ela with
            gwe := ctlBit s.ela.gwe n true
            rel := s.ela.rel.map fun (r : ElaRel) => if r.scope == n then { r with gwe := true } else r }).showEla).elaAgain
      else s

/-- ELA_GSR_DEASSERT: GAP2 cycles after GWE (R175, Table ELA-5): the scope is released, ELA_RELEASED is raised, and the
command that began the sequence completes DONE. -/
def execElaGsrDeassert (scope : BitVec 8) (s : State) : Host.Outcome State Fault Refusal :=
  .next <| s.live fun s =>
    match scopeOf scope.toNat with
    | none => s
    | some n =>
      match s.ela.rel.find? fun r => r.scope == n && r.gwe && s.gsrDue r with
      | none => s
      | some r =>
        let s := (s.setEla { s.ela with
          gsr := ctlBit s.ela.gsr n false, rel := s.ela.rel.filter fun (r : ElaRel) => r.scope != n })
        let s := ((s.setReleased n true).showEla).elaAgain
        (s.event 0x0502 sevInfo (sourceId 0x0502 0 (scopeUnit n))).completeOpt r.ref stDone

/-- ELA_HOLD (R177, R192, R437): nothing changes while a load in the scope runs. -/
def execElaHold (ref : CmdRef) (scope : BitVec 8) (s : State) : Host.Outcome State Fault Refusal :=
  .next <| s.command ref 0x0503 fun s =>
    match scopeOf scope.toNat with
    | none => s.complete ref stRange
    | some n =>
      if s.standbyLocked then
        s.complete ref stRefused
      else if s.loadingScope n then s.complete ref stDone
      else (s.holdScope n).complete ref stDone

/-! ### Contention (R167) -/

/-- ELA_CONTENTION: a monitor sample finds two or more enabled drivers on a line; the line is disabled, keeping its level. -/
def execElaContention (line : BitVec 7) (s : State) : Host.Outcome State Fault Refusal :=
  .next <| s.live fun s =>
    let n := line.toNat
    let x := s.elaCtx s.ela.inp
    let d := x.drivers s.ela.val.oe n
    if s.scope 16 != scConfigured || decide (d.length < 2) then s else
    let s := (s.wr F.ELA_LL_DIS.DISABLED (setBits (s.rd F.ELA_LL_DIS.DISABLED (n / 8)) (n % 8) (n % 8) 1) (n / 8)).sat F.ELA_LL_CNT.COUNT
    let s := s.event 0x0501 sevError (sourceId 0x0501 0 n)
      (payload [(16, 1, n / 8), (17, 1, n % 8),
        (18, 2, ((List.range 16).filter fun c => d.any fun i => i / 32 % 16 == c).foldl (fun m c => m + 2 ^ c) 0),
        (20, 1, min d.length 255), (21, 1, b2n (s.ela.val.lines.getLsbD n))])
    s.elaAgain

/-- A write to ELA_LL_DIS of row r: a line whose bit is written 1 is enabled again (R167). -/
def State.llDisWrite (s : State) (r v : Nat) : State :=
  let d := s.rd F.ELA_LL_DIS.DISABLED r
  (s.wr F.ELA_LL_DIS.DISABLED (d - (d &&& v)) r).elaAgain

/-- ELA_LL_DIS (R167). -/
def execElaLlDis (row : BitVec 4) (value : BitVec 32) (s : State) : Host.Outcome State Fault Refusal :=
  .next (s.onlyIf (s.alive && s.rdb F.GLB_STATUS.READY && s.rdb F.GLB_STATUS.BOOT_OK && !s.recovery) fun s => s.llDisWrite row.toNat value.toNat)

/-- Every scope is held at once and ELA_LL_DIS cleared: warm reset, thermal trip (R177). -/
def State.elaHoldAll (s : State) : State :=
  let s := s.each (List.range 17) State.holdControls
  s.each (List.range 16) fun s r => s.wr F.ELA_LL_DIS.DISABLED 0 r

end Sys2Proof.Machine
end

