-- ==== Sys2Proof/Machine/Gateways.lean ====
section
/-! DEFINITION. The send and receive queues of the links and link gateways as their users see them (R380). -/

namespace Sys2Proof.Machine

/-- The state of link k beyond its registers. -/
def State.link (s : State) (k : Nat) : LinkSt := Sparse.get (fun _ => {}) s.lnk.links k

/-- The machine with the state of link k set. -/
def State.setLink (s : State) (k : Nat) (l : LinkSt) : State :=
  (s.setLnk { s.lnk with links := Sparse.set (fun _ => {}) s.lnk.links k l })

/-- A flit joins those that link k has to send. -/
def State.linkQueue (s : State) (k : Nat) (f : Flit) : State :=
  s.setLink k { s.link k with txq := (s.link k).txq ++ [f] }

/-- The FIFOs of gateway g. -/
def State.gw (s : State) (g : Nat) : GwSt := Sparse.get (fun _ => {}) s.lnk.gws g

/-- Words of gateway g in flits that its link has still to send; they keep their places in the send FIFO (R380). -/
def State.gwQueued (s : State) (g : Nat) : Nat :=
  ((s.link (s.rd F.LNK_GW_CFG.LINK g)).txq.filter fun f => f.typ == 2 && f.chan == s.rd F.LNK_GW_CFG.CHAN g).foldl
    (fun n f => n + f.sub) 0

/-- The machine with the FIFOs of gateway g set, and their depths shown (Table LNK-8). -/
def State.setGw (s : State) (g : Nat) (x : GwSt) : State :=
  (((s.setLnk { s.lnk with gws := Sparse.set (fun _ => {}) s.lnk.gws g x })).wr F.LNK_GW_STAT.TXD (x.tx.length + s.gwQueued g) g).wr
    F.LNK_GW_STAT.RXD x.rx.length g

/-- The gateway sends a flit of its oldest words, seven at most (R380, Table LNK-4). -/
def State.gwFlush (s : State) (g : Nat) : State :=
  let x := s.gw g
  if x.tx.isEmpty || !s.rdb F.LNK_GW_CFG.EN g then s else
  let w := x.tx.take 7
  let rest := x.tx.drop 7
  let f : Flit := ⟨2, s.rd F.LNK_GW_CFG.CHAN g, false, w.length, padTo 60 (w.flatMap (leBytes 8))⟩
  (s.linkQueue (s.rd F.LNK_GW_CFG.LINK g) f).setGw g { x with tx := rest, txAt := s.now }

/-- A gateway send (R92, R380): whether its FIFO had room, and the machine after it. -/
def State.gwSend (s : State) (g w : Nat) : Bool × State :=
  let x := s.gw g
  if 64 ≤ x.tx.length + s.gwQueued g then (false, s) else
  let s := s.setGw g { x with tx := x.tx ++ [w], txAt := if x.tx.isEmpty then s.now else x.txAt }
  (true, if x.tx.length + 1 = 7 then s.gwFlush g else s)

/-- GATEWAY_FLUSH_TIMEOUT: 20 ticks after the first word of a flit entered the gateway (R380). -/
def execGatewayFlushTimeout (g : BitVec 4) (s : State) : Host.Outcome State Fault Refusal :=
  .next <| s.live fun s =>
    let x := s.gw g.toNat
    s.onlyIf (!x.tx.isEmpty && decide (x.txAt + 20 ≤ s.now)) fun s => s.gwFlush g.toNat

end Sys2Proof.Machine
end

