-- ==== Sys2Proof/Machine/Memory.lean ====
section
/-! DEFINITION. The device memory space as its requesters see it (R340 to R354, R358, R359): ownership, non-owner
accesses, bank words with their check bits and poison, trackers and remapping, HBM bytes and their poison table. -/

namespace Sys2Proof.Machine

/-- A byte with its poison. -/
abbrev PByte := Byte × Bool

/-! ### Requesters, owners and targets -/

/-- Requester codes (Table MEM-2). -/
def reqCore (n : Nat) : Nat := 0x1000 + n
def reqRadio (k : Nat) : Nat := 0x2000 + k
def reqCapture (c : Nat) : Nat := 0x3000 + c
def reqFabric (region tile : Nat) : Nat := 0x4000 + 64 * region + tile
def reqHost (p : Nat) : Nat := 0x5000 + p
def reqPager : Nat := 0x6000
def reqLink (k : Nat) : Nat := 0x7000 + k
def reqKiln : Nat := 0x8000

/-- An owner code without the bits Table MEM-2 marks as ignored (R341). -/
def ownerNorm (c : Nat) : Nat :=
  match c / 0x1000 with
  | 2 => 0x2000
  | 3 => 0x3000
  | 4 => 0x4000 + bits c 9 6 * 64
  | 5 => 0x5000
  | _ => c

/-- A reserved owner code (R341). -/
def ownerReserved (c : Nat) : Bool :=
  match c / 0x1000 with
  | 0 => c % 0x1000 != 0
  | 1 => decide (63 < c % 0x1000)
  | 2 => false
  | 3 => false
  | 4 => bits c 11 10 != 0
  | 5 => false
  | 6 => c % 0x1000 != 0
  | 7 => decide (15 < c % 0x1000)
  | 8 => c % 0x1000 != 0
  | _ => true

/-- A requester is the owner a code names (R341, R342). -/
def ownerIs (owner req : Nat) : Bool := ownerNorm req == ownerNorm owner && owner != 0

/-- The bit of a partition's owner set that a requester belongs to (R343). -/
def ownerBit (req : Nat) : Option Nat :=
  match req / 0x1000 with
  | 1 => some (16 + req % 0x1000 / 16)
  | 2 => some 20
  | 3 => some 21
  | 4 => some (bits req 9 6)
  | 5 => some 22
  | 6 => some 23
  | 7 => some 24
  | _ => none

/-- Where a byte address lies (Table MEM-1). -/
inductive Target where
  | part (p : Nat)
  | bank (b : Nat)
  | nowhere
  deriving DecidableEq, Repr

/-- The TARGET byte of memory events (Table MEM-8). -/
def Target.code : Target → Nat
  | .part p => 0x40 + p
  | .bank b => b
  | .nowhere => 0x80

/-- The size of the HBM and the first byte address above the bank store (Table MEM-1, in bytes). -/
abbrev hbmBytes : Nat := 0x800000000
abbrev bankEnd : Nat := 0x808000000

/-- The enabled partition that covers an HBM byte (R343). -/
def State.partOf (s : State) (a : Nat) : Option Nat :=
  (List.range 16).find? fun p =>
    s.rdb F.MEM_PART_CFG.EN p && decide (s.rd F.MEM_PART_CFG.BASE p * 2 ^ 26 ≤ a) &&
      decide (a < (s.rd F.MEM_PART_CFG.BASE p + s.rd F.MEM_PART_CFG.SIZE p) * 2 ^ 26)

/-- The target of a byte address. -/
def State.target (s : State) (a : Nat) : Target :=
  if a < hbmBytes then
    match s.partOf a with
    | some p => .part p
    | none => .nowhere
  else if a < bankEnd then .bank ((a - hbmBytes) / 2 ^ 21)
  else .nowhere

/-- The effective owner shown for a target; 0 for partitions (Table MEM-8). -/
def State.ownerCode (s : State) : Target → Nat
  | .bank b => s.rd F.MEM_BANK_STAT.OWNER b
  | _ => 0

/-- The descriptor exception of R342: a core with a task open may reach its own descriptor where PAGER owns it. -/
def State.ownDescriptor (s : State) (req a : Nat) : Bool :=
  req / 0x1000 == 1 &&
    match Sparse.find s.mem.descs (req % 0x1000) with
    | some far => decide (far * 16 ≤ a) && decide (a < far * 16 + 64)
    | none => false

/-- A requester owns the target of a byte address (R342, R343). -/
def State.owns (s : State) (req a : Nat) : Bool :=
  match s.target a with
  | .part p =>
    (match ownerBit req with
     | some k => bit (s.rd F.MEM_PART_OWN.MASK p) k
     | none => false) || (s.ownDescriptor req a && bit (s.rd F.MEM_PART_OWN.MASK p) 23)
  | .bank b =>
    ownerIs (s.rd F.MEM_BANK_STAT.OWNER b) req || (s.ownDescriptor req a && s.rd F.MEM_BANK_STAT.OWNER b == reqPager)
  | .nowhere => false

/-! ### Memory events -/

/-- Payload of a memory event (Table MEM-8). -/
def memPayload (addr op target owner consumer info : Nat) : Nat :=
  payload [(16, 4, addr / 16), (20, 1, addr % 16 + 16 * op), (21, 1, target), (22, 2, owner), (24, 1, consumer), (25, 1, info)]

/-- The die of a requester: the fabric die of a fabric memory port's tile, else the hub (R363). -/
def reqDie (req : Nat) : Nat :=
  if req / 0x1000 = 4 then 0x10 + req % 64 / 32 * 2 + req % 8 / 4 else 0

/-- A non-owner access on a target (R342): counted there, and raised for the first access of a run. -/
def State.violationOn (s : State) (t : Target) (req addr op : Nat) : State :=
  let s := match t with
    | .part p => s.sat F.MEM_PART_VIOL.COUNT p
    | .bank b => s.sat F.MEM_BANK_VIOL.COUNT b
    | .nowhere => s
  let key := req * 256 + t.code
  let running := match Sparse.find s.mem.viol key with
    | some t0 => decide (s.now ≤ t0 + 1000)
    | none => false
  if running then s
  else
    (s.setMem { s.mem with viol := Sparse.insert s.mem.viol key s.now }).event 0x0301 sevError
      (sourceId 0x0301 (reqDie req) req) (memPayload addr op t.code (s.ownerCode t) 0 0)

/-- A non-owner access to a byte address (R342). -/
def State.violation (s : State) (req addr op : Nat) : State := s.violationOn (s.target addr) req addr op

/-- Requests to a byte address are accepted and held: its bank or partition drains, its bank is being cleared, or the
HBM is in self-refresh after a failover (R345, R348, R420). -/
def State.memHolds (s : State) (a : Nat) : Bool :=
  match s.target a with
  | .bank b => s.rd F.MEM_BANK_STAT.STATE b == 1 || s.rd F.MEM_BANK_STAT.STATE b == 2
  | .part p => s.mem.partDrain.getLsbD p || s.mem.selfRefresh
  | .nowhere => false

/-- A gate request for the block of an address is pending, so that its router holds new requests (R424). -/
def State.gatePending (s : State) (a : Nat) : Bool :=
  match s.target a with
  | .bank b => s.mem.gates.contains (0x30 + b)
  | _ => false

/-- An access of `n` bytes would be held somewhere: by a drain, a clearing or a self-refresh if it is the owner's, by a
pending gate request whoever asks. -/
def State.memWaits (s : State) (req a n : Nat) : Bool :=
  decide (n ≠ 0) && (List.range (n / 2 ^ 20 + 2)).any fun k =>
    let x := min (a + k * 2 ^ 20) (a + n - 1)
    (s.memHolds x && s.owns req x) || s.gatePending x

/-- Poison reaches a consumer (R351, Table MEM-4). -/
def State.poisonConsumed (s : State) (req addr consumer : Nat) : State :=
  let t := s.target addr
  s.event 0x0302 sevError (sourceId 0x0302 (reqDie req) req) (memPayload addr 0 t.code (s.ownerCode t) consumer 0)

/-- An event of one bank. -/
def State.bankEvent (s : State) (code sev b w op info : Nat) : State :=
  s.event code sev (sourceId code 0 b)
    (memPayload (hbmBytes + b * 2 ^ 21 + 8 * w) op b (s.rd F.MEM_BANK_STAT.OWNER b) 0 info)

/-! ### Bank words -/

/-- The stored error pattern of stored poison: all eight check bits inverted (R350). -/
def poisonFlips : BitVec 72 := BitVec.ofNat 72 (0xFF * 2 ^ 64)

/-- A bank word that clearing leaves: zero, valid bit 0 (R348). -/
def clearedWord : BankWord := ⟨0, false, 0⟩

/-- The first remap entry of a bank that redirects a word (R354). -/
def State.spareOf (s : State) (b w : Nat) : Option Nat :=
  (List.range 16).find? fun i => s.rdb F.MEM_REMAP.VALID b i && s.rd F.MEM_REMAP.WORD b i == w

/-- The key of spare i of bank b. -/
def spareKey (b i : Nat) : Nat := 64 * 262144 + 16 * b + i

/-- The key under which a word of a bank is stored, remapping included. -/
def State.bankKey (s : State) (b w : Nat) : Nat :=
  match s.spareOf b w with
  | some i => spareKey b i
  | none => b * 262144 + w

/-- A stored word. -/
def State.bankGet (s : State) (key : Nat) : BankWord := Sparse.get (fun _ => clearedWord) s.mem.bank key

/-- The machine with a stored word set. -/
def State.bankSet (s : State) (key : Nat) (w : BankWord) : State :=
  (s.setMem { s.mem with bank := Sparse.set (fun _ => clearedWord) s.mem.bank key w })

/-- What decoding a stored word finds (R349). -/
inductive Ecc where
  | ok
  | corrected (data : Nat)
  | uncorrectable
  | storedPoison
  deriving DecidableEq, Repr

/-- The raw data of a stored word: the data written with its flipped bits. -/
def BankWord.raw (w : BankWord) : Nat := (w.data ^^^ w.flips.extractLsb' 0 64).toNat

/-- The decoding of a stored word (R349). -/
def BankWord.decode (w : BankWord) : Ecc :=
  let n := popcount 72 w.flips.toNat
  if n = 0 then .ok
  else if w.flips = poisonFlips then .storedPoison
  else if n = 1 then .corrected w.data.toNat
  else if n = 2 then (if Config.eccPairFF w.flips then .storedPoison else .uncorrectable)
  else if n % 2 = 1 then
    match Config.eccOdd w.flips with
    | some m => .corrected ((w.data ^^^ (w.flips ^^^ m).extractLsb' 0 64).toNat)
    | none => .uncorrectable
  else
    match Config.eccEven w.flips with
    | 0 => .ok
    | 1 => .uncorrectable
    | 2 => .storedPoison

/-- The first-error record of a bank, filled if it is empty (R349). -/
def State.firstError (s : State) (b w req : Nat) (ue : Bool) : State :=
  if s.rdb F.MEM_BANK_FF.VALID b then s
  else (((s.wr F.MEM_BANK_FF.VALID 1 b).wrb F.MEM_BANK_FF.UE ue b).wr F.MEM_BANK_FF.WORD w b).wr F.MEM_BANK_FF_REQ.REQ req b

/-- The number of remap entries in use or retired, as MEM_BANK_STAT shows it. -/
def State.showRemaps (s : State) (b : Nat) : State :=
  s.wr F.MEM_BANK_STAT.REMAPS
    ((List.range 16).filter fun i => s.rdb F.MEM_REMAP.VALID b i || s.rdb F.MEM_REMAP.RETIRED b i).length b

/-- The lowest free spare of a bank (R354). -/
def State.freeSpare (s : State) (b : Nat) : Option Nat :=
  (List.range 16).find? fun i => !s.rdb F.MEM_REMAP.VALID b i && !s.rdb F.MEM_REMAP.RETIRED b i

/-- A hard fault (R354): the corrected data moves to the lowest free spare, whose entry is set; a failing spare that held
the word is retired. Without a free spare nothing is remapped. -/
def State.hardFault (s : State) (b w data : Nat) : State :=
  match s.freeSpare b with
  | none => s.bankEvent 0x0305 sevError b w 5 0
  | some j =>
    let s := match s.spareOf b w with
      | some i => (s.wr F.MEM_REMAP.VALID 0 b i).wr F.MEM_REMAP.RETIRED 1 b i
      | none => s
    let s := s.bankSet (spareKey b j) ⟨BitVec.ofNat 64 data, true, 0⟩
    let s := ((s.wr F.MEM_REMAP.VALID 1 b j).wr F.MEM_REMAP.WORD w b j).showRemaps b
    s.bankEvent 0x0304 sevWarn b w 5 j

/-- The tracker entries of a bank, oldest first. -/
def State.trk (s : State) (b : Nat) : List TrkEntry := Sparse.get (fun _ => []) s.mem.trackers b

/-- The machine with a bank's tracker entries set. -/
def State.setTrk (s : State) (b : Nat) (l : List TrkEntry) : State :=
  (s.setMem { s.mem with trackers := Sparse.set (fun _ => []) s.mem.trackers b l })

/-- A tracker entry reaches the threshold, or not: the corrected data is written back and the entry watches (R353). An entry
keeps its place among the older and the younger ones. -/
def State.trkCount (s : State) (b w data n : Nat) (l : List TrkEntry) : State :=
  let hot := decide (s.rd F.MEM_TRK_CFG.THRESH ≤ n)
  let e : TrkEntry := ⟨w, n, if hot then some (s.now + s.rd F.MEM_TRK_CFG.WINDOW * 1024) else none⟩
  let l := if l.any fun x => x.word == w then l.map fun x => if x.word = w then e else x else l ++ [e]
  (if hot then s.bankSet (s.bankKey b w) ⟨BitVec.ofNat 64 data, true, 0⟩ else s).setTrk b l

/-- The COUNTING entry with the lowest count, the oldest of those (R353). -/
def trkVictim (l : List TrkEntry) : Option TrkEntry :=
  (l.filter fun e => e.watch.isNone).foldl (init := none) fun best e =>
    match best with
    | none => some e
    | some x => if e.count < x.count then some e else some x

/-- Its WATCH time has ended (R353). -/
def TrkEntry.expired (e : TrkEntry) (now : Nat) : Bool :=
  match e.watch with
  | some t => decide (t ≤ now)
  | none => false

/-- The tracker is told of a correctable error (R353). -/
def State.track (s : State) (b w data : Nat) : State :=
  let l := (s.trk b).filter fun e => !e.expired s.now
  match l.find? fun e => e.word == w with
  | some e =>
    if e.watch.isSome then (s.setTrk b (l.filter fun e => e.word != w)).hardFault b w data
    else s.trkCount b w data (e.count + 1) l
  | none =>
    if l.length < 8 then s.trkCount b w data 1 l
    else match trkVictim l with
      | some v => s.trkCount b w data 1 (l.filter fun e => e.word != v.word)
      | none => s.sat F.MEM_TRK_MISS.COUNT b

/-- A write by the owner frees the word's tracker entry (R353). -/
def State.untrack (s : State) (b w : Nat) : State := s.setTrk b ((s.trk b).filter fun e => e.word != w)

/-- Reading a word of a bank (R349): its data, its poison, and the machine with errors recorded. -/
def State.bankRead (s : State) (req b w : Nat) : Nat × Bool × State :=
  let x := s.bankGet (s.bankKey b w)
  if !x.valid then (0, false, s) else
  match x.decode with
  | .ok => (x.raw, false, s)
  | .storedPoison => (x.raw, true, s)
  | .corrected d => (d, false, ((s.sat64 F.MEM_BANK_CE_LO.COUNT b).firstError b w req false).track b w d)
  | .uncorrectable =>
    (x.raw, true, ((s.sat F.MEM_BANK_UE.COUNT b).firstError b w req true).bankEvent 0x0303 sevWarn b w 0 0)

/-- Writing a whole word of a bank: fresh check bits, or stored poison (R350, R352). -/
def State.bankWrite (s : State) (b w data : Nat) (poison : Bool) : State :=
  (s.bankSet (s.bankKey b w) ⟨BitVec.ofNat 64 data, true, if poison then poisonFlips else 0⟩).untrack b w

/-- `old` with bytes from lane `k` replaced. -/
def mergeBytes (old k : Nat) (l : List Byte) : Nat := setBits old (8 * (k + l.length) - 1) (8 * k) (leNat l)

/-- A write of `l` at byte `k` of a bank word, whole or partial (R352). -/
def State.bankStore (s : State) (req b w k : Nat) (l : List Byte) (poison : Bool) : State :=
  if l.length = 8 then s.bankWrite b w (leNat l) poison
  else
    let x := s.bankGet (s.bankKey b w)
    let r := s.bankRead req b w
    let old := if x.valid then r.1 else 0
    r.2.2.bankWrite b w (mergeBytes old k l) (poison || r.2.1)

/-! ### HBM -/

/-- The HBM stack of a byte address: 256-byte blocks alternate (Table MEM-1). -/
def stackOf (a : Nat) : Nat := a / 256 % 2

/-- A granule is poisoned. -/
def State.granule (s : State) (a : Nat) : Bool := Sparse.get (fun _ => false) s.mem.hbmPoison (a / 32)

/-- Poisoned granules held for a stack. -/
def State.poisonHeld (s : State) (st : Nat) : Nat :=
  (s.mem.hbmPoison.filter fun e => stackOf (e.1 * 32) == st).length

/-- An uncorrectable HBM read (R359). -/
def State.hbmUe (s : State) (a : Nat) : State :=
  (s.sat F.MEM_HBM_UE.COUNT (stackOf a)).event 0x0307 sevWarn
    (sourceId 0x0307 (0x20 + stackOf a) (match s.target a with | .part p => p | _ => 0))
    (memPayload a 0 (s.target a).code 0 0 0)

/-- Reading HBM bytes within one 32-byte granule (R359). -/
def State.hbmRead (s : State) (a n : Nat) : List PByte × State :=
  let mark := Sparse.get (fun _ => false) s.mem.hbmMark (a / 32)
  let p := s.granule a || mark
  ((List.range n).map fun k => (Sparse.get (fun _ => (0 : Byte)) s.mem.hbm (a + k), p), if mark then s.hbmUe a else s)

/-- HBM bytes stored one by one. -/
def State.hbmPut (s : State) (a : Nat) : List Byte → State
  | [] => s
  | b :: bs => (s.setMem { s.mem with hbm := Sparse.set (fun _ => 0) s.mem.hbm a b }).hbmPut (a + 1) bs

/-- Verified library entries that a test picks become invalid (R137). -/
def State.vlibDrop (s : State) (p : VlibEntry → Bool) : State :=
  if s.fab.vlib.any fun e => p e.2 then
    let l := s.fab.vlib.filter fun e => !p e.2
    (s.setFab { s.fab with vlib := l }).wr F.FAB_VLIB_VALID.VALID (l.foldl (fun n (e : Nat × VlibEntry) => n + 2 ^ e.1) 0)
  else s

/-- Writing HBM bytes within one granule: poison is recorded in the stack's table, or by the stack's own marker when the
table is full; a full write clears it (R359). Library entries whose image the write touches become invalid (R137). -/
def State.hbmWrite (s : State) (a : Nat) (l : List PByte) : State :=
  let s' := (s.hbmPut a (l.map (·.1))).vlibDrop fun e => decide (a < e.lo + e.len) && decide (e.lo < a + l.length)
  let g := a / 32
  if l.any (·.2) then
    if s.granule a || decide (s.poisonHeld (stackOf a) < 4096) then
      (s'.setMem { s'.mem with hbmPoison := Sparse.set (fun _ => false) s'.mem.hbmPoison g true })
    else (s'.setMem { s'.mem with hbmMark := Sparse.set (fun _ => false) s'.mem.hbmMark g true })
  else if l.length = 32 then
    (s'.setMem { s'.mem with hbmPoison := Sparse.erase s'.mem.hbmPoison g, hbmMark := Sparse.erase s'.mem.hbmMark g })
  else s'

/-! ### Accesses by a requester -/

/-- What a read answers: bytes with poison, whether a non-owner access was among them, and the machine after it. -/
structure RdRes where
  bytes : List PByte
  bad : Bool
  s : State

/-- What a write answers. -/
structure WrRes where
  bad : Bool
  s : State

/-- A block whose gate has been applied drops an access without a violation (R424). -/
def State.gated (s : State) (a : Nat) : Bool :=
  match s.target a with
  | .bank b => s.mem.off.contains (0x30 + b)
  | _ => false

/-- A non-owner access, or an access to a gated bank (R342, R424). -/
def State.refuse (s : State) (req a op : Nat) : State :=
  if s.gated a then s.sat F.CLK_GATE_STAT.DROPS else s.violation req a op

/-- The bytes from `a` to the end of its unit of access: a bank word, or an HBM granule. -/
def chunkLen (a n : Nat) : Nat :=
  let u := if a < hbmBytes then 32 else 8
  min n (u - a % u)

/-- A read of `n` bytes within one unit of access, by its owner and not held. -/
def State.readHere (s : State) (req a n : Nat) : RdRes :=
  match s.target a with
  | .bank b =>
    let o := (a - hbmBytes) % 2 ^ 21
    let r := s.bankRead req b (o / 8)
    ⟨(slice (leBytes 8 r.1) (o % 8) n).map fun x => (x, r.2.1), false, r.2.2⟩
  | _ =>
    let r := s.hbmRead a n
    ⟨r.1, false, r.2⟩

/-- A write within one unit of access, by its owner and not held. -/
def State.writeHere (s : State) (req a : Nat) (l : List PByte) : State :=
  match s.target a with
  | .bank b =>
    let o := (a - hbmBytes) % 2 ^ 21
    s.bankStore req b (o / 8) (o % 8) (l.map (·.1)) (l.any (·.2))
  | _ => s.hbmWrite a l

/-- Writes held for the unit of access of an address, in arrival order. -/
def State.heldWrites (s : State) (a : Nat) : List MemReq :=
  let u := if a < hbmBytes then 32 else 8
  s.mem.held.filter fun r => r.write && r.owned && !r.rotate && r.addr / u == a / u

/-- The machine as the held requests of a unit will leave it (R345, R348): its word cleared if its bank is being cleared,
then the held writes in arrival order. A read that its owner presents meanwhile is answered with what it will be served. -/
def State.afterHold (s : State) (a : Nat) : State :=
  let s := match s.target a with
    | .bank b => s.onlyIf (s.rd F.MEM_BANK_STAT.STATE b == 2) fun s =>
        s.bankSet (s.bankKey b ((a - hbmBytes) % 2 ^ 21 / 8)) clearedWord
    | _ => s
  s.each (s.heldWrites a) fun s r => s.writeHere r.req r.addr ((leBytes r.len r.data).map fun x => (x, r.poison))

/-- A read of `n` bytes within one unit of access. A block that a gate request has closed answers as a gated one. -/
def State.readUnit (s : State) (req a n : Nat) : RdRes :=
  if s.gatePending a then ⟨List.replicate n (0, true), true, s.sat F.CLK_GATE_STAT.DROPS⟩
  else if !s.owns req a || s.gated a then ⟨List.replicate n (0, true), true, s.refuse req a 0⟩
  else if s.memHolds a then ⟨((s.afterHold a).readHere req a n).bytes, false, s⟩
  else s.readHere req a n

/-- A write accepted and held, until what holds it ends (R345, R348, R424). -/
def State.holdWrite (s : State) (req a : Nat) (l : List PByte) (owned : Bool) : State :=
  s.setMem { s.mem with held := s.mem.held ++ [⟨req, true, a, l.length, leNat (l.map (·.1)), l.any (·.2), false, owned⟩] }

/-- A write within one unit of access. -/
def State.writeUnit (s : State) (req a : Nat) (l : List PByte) : WrRes :=
  if s.gatePending a then ⟨false, s.holdWrite req a l false⟩
  else if !s.owns req a || s.gated a then
    ⟨true, s.refuse req a (if l.length < 8 then 2 else 1)⟩
  else if s.memHolds a then ⟨false, s.holdWrite req a l true⟩
  else ⟨false, s.writeHere req a l⟩

/-- A read of `n` bytes at a byte address, unit by unit; each is judged by its own owner (R340). -/
def State.readGo : Nat → State → Nat → Nat → Nat → RdRes
  | 0, s, _, _, _ => ⟨[], false, s⟩
  | fuel + 1, s, req, a, n =>
    if n = 0 then ⟨[], false, s⟩ else
    let k := chunkLen a n
    let r := s.readUnit req a k
    let q := readGo fuel r.s req (a + k) (n - k)
    ⟨r.bytes ++ q.bytes, r.bad || q.bad, q.s⟩

/-- A read of `n` bytes by a requester. -/
def State.memRead (s : State) (req a n : Nat) : RdRes := State.readGo n s req a n

/-- A write of bytes at a byte address, unit by unit. -/
def State.writeGo : Nat → State → Nat → Nat → List PByte → WrRes
  | 0, s, _, _, _ => ⟨false, s⟩
  | fuel + 1, s, req, a, l =>
    if l.isEmpty then ⟨false, s⟩ else
    let k := chunkLen a l.length
    let r := s.writeUnit req a (l.take k)
    let q := writeGo fuel r.s req (a + k) (l.drop k)
    ⟨r.bad || q.bad, q.s⟩

/-- A write by a requester. -/
def State.memWrite (s : State) (req a : Nat) (l : List PByte) : WrRes := State.writeGo l.length s req a l

/-- A write of unpoisoned bytes, where only the machine after it matters. -/
def State.put (s : State) (req a : Nat) (l : List Byte) : State := (s.memWrite req a (l.map fun b => (b, false))).s

/-- Some byte is poisoned. -/
def poisoned (l : List PByte) : Bool := l.any (·.2)

/-- The bytes without their poison. -/
def plain (l : List PByte) : List Byte := l.map (·.1)

/-- Bytes of port p's host memory with the poison of the packets that bring them. -/
def State.hostBytes (s : State) (p addr n : Nat) : List PByte :=
  (s.hostRead p addr n).mapIdx fun k b => (b, s.hostBad p (addr + k) 1)

/-- The byte address of an offset in a partition (R343). -/
def State.partAddr (s : State) (p ofs : Nat) : Nat := s.rd F.MEM_PART_CFG.BASE p * 2 ^ 26 + ofs

/-- A byte range lies inside enabled partition p. -/
def State.inPart (s : State) (p ofs n : Nat) : Bool :=
  s.rdb F.MEM_PART_CFG.EN p && decide (ofs + n ≤ s.rd F.MEM_PART_CFG.SIZE p * 2 ^ 26)

end Sys2Proof.Machine
end

