-- ==== Sys2Proof/Machine/Host.lean ====
section
/-! DEFINITION. The host control plane (R384 to R410): doorbells, rings, descriptor fetch, DMA, BAR4, semaphores, ports. -/

namespace Sys2Proof.Machine

/-! ### What a port reaches -/

/-- Doorbells and rings are reached: READY has been set, and boot verification has completed or RECOVERY holds
(R384, R429, R458). -/
def State.hostOpen (s : State) : Bool :=
  s.alive && s.rdb F.GLB_STATUS.READY && (s.rdb F.GLB_STATUS.BOOT_OK || s.recovery)

/-- A BAR0 offset is reached (R384, R429, R458). -/
def State.bar0Open (s : State) (off : Nat) : Bool :=
  s.alive && s.rdb F.GLB_STATUS.READY &&
    (if s.recovery then decide (off < 0x40000) || (decide (0x4E0000 ≤ off) && decide (off < 0x4F0000))
     else s.rdb F.GLB_STATUS.BOOT_OK || decide (off < 0x20000))

/-- A command that ends as soon as it is accepted. -/
def State.answer (s : State) (ref : CmdRef) (op status : Nat) (result : Nat := 0) : State :=
  s.command ref op fun s => s.complete ref status result

/-- NOP (R397). -/
def execHostNop (ref : CmdRef) (s : State) : Host.Outcome State Fault Refusal :=
  .next (s.answer ref 0x0201 stDone)

/-! ### Doorbells -/

/-- A doorbell is discarded and counted (R386). -/
def State.badDoorbell (s : State) (p : Nat) : State := s.sat F.HST_PORT_ERR.DB_BAD p

/-- A ring doorbell is taken from the ring's own port while the ring is enabled, with an index inside the ring (R386). -/
def State.ringBell (s : State) (p r v size : Nat) (f : State → State) : State :=
  if !s.hostOpen then s
  else if !s.rdb F.HST_RING_CFG.EN r || s.ringPort r != p || decide (size ≤ v) then s.badDoorbell p
  else f s

/-- Submission tail doorbell (R386, R389). -/
def execSqTailDoorbell (p : Port) (ring : BitVec 8) (value : BitVec 32) (s : State) : Host.Outcome State Fault Refusal :=
  let r := ring.toNat
  .next (s.ringBell (portNat p) r value.toNat (2 ^ s.rd F.HST_RING_CFG.SQ_SIZE r) fun s =>
    s.setRing r { s.ring r with sqTail := value.toNat })

/-- Completion head doorbell (R386, R389). -/
def execCqHeadDoorbell (p : Port) (ring : BitVec 8) (value : BitVec 32) (s : State) : Host.Outcome State Fault Refusal :=
  let r := ring.toNat
  .next (s.ringBell (portNat p) r value.toNat (2 ^ s.rd F.HST_RING_CFG.CQ_SIZE r) fun s =>
    s.wr F.HST_RING_CQ.CQ_HEAD value.toNat r)

/-- Event ring head doorbell: written through port p for the event ring of port q (R386, R395). -/
def execEventRingHeadDoorbell (p q : Port) (value : BitVec 32) (s : State) : Host.Outcome State Fault Refusal :=
  .next (
    if !s.hostOpen then s
    else if !s.rdb F.GLB_EVT_CFG.ENABLE (portNat q) || p ≠ q
        || decide (2 ^ s.rd F.HST_EVT_CFG.SIZE (portNat q) ≤ value.toNat) then s.badDoorbell (portNat p)
    else s.wr F.HST_EVT_PTR.HEAD value.toNat (portNat q))

/-! ### Fetching descriptors -/

/-- The commands of Table HST-5, Table PAIR-5 and Table SEC-10: opcode, EXT, and the operand bytes they name as
(first, length). -/
def opTable : List (Nat × Bool × List (Nat × Nat)) := [
  (0x0201, false, []), (0x0202, false, [(8, 1), (16, 48)]), (0x0203, false, []), (0x0204, false, []),
  (0x0205, false, [(8, 2), (16, 8)]), (0x0206, false, [(8, 4)]), (0x0207, false, [(8, 1), (16, 16)]),
  (0x0301, false, [(8, 12)]), (0x0401, false, [(8, 4), (16, 24)]), (0x0402, false, [(8, 3), (16, 8)]),
  (0x0403, false, [(8, 4)]), (0x0404, false, [(8, 2)]), (0x0405, false, [(8, 1)]), (0x0406, false, [(8, 3)]),
  (0x0501, false, [(8, 2), (16, 12)]), (0x0502, false, [(8, 1)]), (0x0503, false, [(8, 1)])]
  ++ [(0x0504, false, [(8, 3), (16, 4), (24, 12)]), (0x0505, false, [(8, 1), (16, 32)]), (0x0701, true, []),
  (0x0702, false, [(8, 4)]), (0x0703, false, [(8, 2), (16, 16)]), (0x0704, false, [(8, 2), (16, 8)]),
  (0x0705, false, [(8, 2), (16, 8)]), (0x0801, true, [(8, 1)]), (0x0802, false, [(8, 1), (10, 4), (16, 8)]),
  (0x0803, true, [(8, 1)]), (0x0810, true, [(8, 1)]), (0x0811, false, [(8, 2), (16, 12)]),
  (0x0901, false, [(8, 3), (16, 8)]), (0x0902, false, [(8, 2)]), (0x0903, false, [(8, 2)]),
  (0x0904, false, [(8, 4), (16, 12)])]
  ++ [(0x0B01, false, []), (0x0B02, false, []), (0x0C01, true, [(8, 3), (16, 8)]), (0x0C02, false, [(8, 2), (16, 12)]),
  (0x0C03, false, []), (0x0C04, false, [(8, 1), (16, 48)]), (0x0C05, false, [(8, 10)]), (0x0C06, false, [(16, 8)]),
  (0x0C07, false, [(16, 10)])]

/-- A descriptor is malformed (R396): a reserved opcode, an EXT that does not match it, or a reserved bit or unnamed
operand byte that is not 0. -/
def badDescriptor (d : List Byte) : Bool :=
  let op := fieldAt d 0 2
  match opTable.find? fun e => e.1 == op with
  | none => true
  | some e =>
    e.2.1 != bit (fieldAt d 2 1) 2 || bits (fieldAt d 2 1) 7 3 != 0 || fieldAt d 3 1 != 0 ||
      (List.range 56).any fun k =>
        !(e.2.2.any fun x => decide (x.1 ≤ k + 8) && decide (k + 8 < x.1 + x.2)) && d.getD (k + 8) 0 != 0

/-- The free CQ credits of a ring allow a fetch (R390). -/
def State.hasCredit (s : State) (r : Nat) : Bool :=
  let size := 2 ^ s.rd F.HST_RING_CFG.CQ_SIZE r
  let unconsumed := (s.rd F.HST_RING_CQ.CQ_TAIL r + size - s.rd F.HST_RING_CQ.CQ_HEAD r) % size
  decide (s.rd F.HST_RING_STAT.OUTSTANDING r + unconsumed < size - 1)

/-- The header of a descriptor, fetched at an index of a ring (Table HST-4). -/
def descRef (r i : Nat) (d : List Byte) : CmdRef :=
  ⟨BitVec.ofNat 8 r, BitVec.ofNat 16 i, BitVec.ofNat 32 (fieldAt d 4 4), bit (fieldAt d 2 1) 0, bit (fieldAt d 2 1) 1⟩

/-- The fetched command enters the outstanding ones; a marked index completes ABORTED, a malformed descriptor RANGE
(R396, R398). -/
def State.fetched (s : State) (r i : Nat) (d : List Byte) (poisonedTlp : Bool) : State :=
  let ref := descRef r i d
  let g := s.ring r
  let s := s.inc F.HST_RING_STAT.OUTSTANDING r
  let s := (s.setHost { s.host with cmds := s.host.cmds ++ [(⟨ref, fieldAt d 0 2, false, false, d⟩ : Cmd)] })
  let bad := poisonedTlp || badDescriptor d
  let rest := g.gone.filter (· != i)
  let s := s.setRing r { g with
    marks := g.marks.filter (· != i), gone := if g.marks.contains i || bad then rest ++ [i] else rest }
  if g.marks.contains i then s.complete ref stAborted
  else if bad then s.complete ref stRange
  else s

/-- COMMAND_FETCH_COMPLETE: the entry at the head of SQ r, with the payload entry that its EXT bit names, is fetched
(R389, R390, R393, R396). `poisonedTlp`: it arrived in a poisoned transaction layer packet. -/
def State.fetch (s : State) (r : Nat) (poisonedTlp : Bool) : State :=
  let size := 2 ^ s.rd F.HST_RING_CFG.SQ_SIZE r
  let head := s.rd F.HST_RING_STAT.SQ_HEAD r
  let p := s.ringPort r
  let g := s.ring r
  let avail := (g.sqTail + size - head) % size
  let at_ (i : Nat) : List Byte := s.hostRead p (s.rd64 F.HST_SQ_BASE_LO.BASE r + 64 * (i % size)) 64
  let d := at_ head
  let n := if bit (fieldAt d 2 1) 2 then 2 else 1
  if !s.hostOpen || !s.rdb F.HST_RING_CFG.EN r || !s.portUp p || s.rdb F.HST_STATUS.FROZEN || decide (avail < n)
      || !s.hasCredit r then s
  else
    let s := s.wr F.HST_RING_STAT.SQ_HEAD ((head + n) % size) r
    let s := s.setRing r { g with last := Sparse.insert g.last head (fieldAt d 0 2) }
    s.fetched r head (if n = 2 then d ++ at_ (head + 1) else d) poisonedTlp

/-- COMMAND_FETCH_COMPLETE (R392). -/
def execCommandFetchComplete (ring : BitVec 8) (poisonedTlp : Bool) (s : State) : Host.Outcome State Fault Refusal :=
  .next (s.fetch ring.toNat poisonedTlp)

/-! ### Coalesced interrupts -/

/-- COAL_US microseconds have passed since the first unsignalled entry of a ring or record of an event ring (R394). -/
def execMsixCoalesceTimeout (p : Port) (ring : Option (BitVec 8)) (s : State) : Host.Outcome State Fault Refusal :=
  .next <| s.live fun s =>
    match ring with
    | some r =>
      let r := r.toNat
      match (s.ring r).firstUnsig with
      | some t => s.onlyIf (decide (t + 1000 * s.rd F.HST_RING_CFG.COAL_US r ≤ s.now)) fun s => s.ringMsg r
      | none => s
    | none =>
      let q := portNat p
      match Sparse.find s.host.evtFirst q with
      | some t => s.onlyIf (decide (t + 1000 * s.rd F.HST_EVT_CFG.COAL_US q ≤ s.now)) fun s =>
          (s.setHost { s.host with evtNew := Sparse.erase s.host.evtNew q,
                                         evtFirst := Sparse.erase s.host.evtFirst q }).msix q 0
      | none => s

/-! ### DMA and BAR4 -/

/-- Device data leave for host memory: a poisoned burst is sent as poisoned packets, and consumes the poison (R351, Table
MEM-4, 9). `a`: where the data stood. -/
def State.hostSend (s : State) (p host a : Nat) (l : List PByte) : State :=
  let s := s.hostWrite p host (plain l)
  let s := { s with host := { s.host with wpoison := poisoned l } }
  s.onlyIf (poisoned l) fun s => s.poisonConsumed (reqHost p) a 9

/-- DMA (R397): bytes move, with their poison (R351), between host memory and device memory as requester HOST, with RESULT the
bytes moved. A port that is lost ends it INCOMPLETE (R406). -/
def State.dma (s : State) (ref : CmdRef) (toHost : Bool) (host far len : Nat) : State :=
  let p := s.cmdPort ref
  if len = 0 ∨ len % 16 ≠ 0 ∨ (far < 0xFFFE0000 ∧ 0x80800000 < far + len / 16) ∨ 2 ^ 32 < far + len / 16 then s.complete ref stRange
  else if !s.portUp p then s.complete ref stIncomplete
  else if toHost then
    let r := s.memRead (reqHost p) (far * 16) len
    (r.s.hostSend p host (far * 16) r.bytes).complete ref stDone len
  else (s.memWrite (reqHost p) (far * 16) (s.hostBytes p host len)).s.complete ref stDone len

/-- DMA (R397). One whose memory holds its requests completes later. -/
def execDma (ref : CmdRef) (toHost : Bool) (host : BitVec 64) (far len : BitVec 32) (s : State) :
    Host.Outcome State Fault Refusal :=
  .next <| if s.memWaits (reqHost (s.cmdPort ref)) (far.toNat * 16) len.toNat then s else (s.command ref 0x0207 fun s => s.dma ref toHost host.toNat far.toNat len.toNat)

/-- BAR4_ACCESS (R387): the window maps the byte to device memory; the access is made as HOST. A read leaves its data and
poison with the port. One whose memory holds its requests is served later. -/
def execBar4Access (p : Port) (write : Bool) (ofs : BitVec 28) (len : BitVec 12) (data : List Byte) (s : State) :
    Host.Outcome State Fault Refusal :=
  let q := portNat p
  .next (
    if !s.hostOpen then s else
    let a := s.rd F.HST_WIN.BASE q * 65536 * 16 + ofs.toNat
    if s.memWaits (reqHost q) a (if write then data.length else len.toNat) then s else
    if write then s.put (reqHost q) a data
    else
      let r := s.memRead (reqHost q) a len.toNat
      let s := { r.s with host := { r.s.host with rdata := leNat (plain r.bytes), rpoison := poisoned r.bytes } }
      s.onlyIf (poisoned r.bytes) fun s => s.poisonConsumed (reqHost q) a 9)

/-- HST_WIN_WRITE (R388). -/
def State.winWrite (s : State) (q v : Nat) : State := s.wr F.HST_WIN.BASE v q

/-- HST_WIN_WRITE (R388). -/
def execHstWinWrite (q : Port) (value : BitVec 32) (s : State) : Host.Outcome State Fault Refusal :=
  .next (s.onlyIf (s.bar0Open 0x20080) fun s => s.winWrite (portNat q) value.toNat)

/-! ### Semaphores -/

/-- A commit for a TB instant passes its point of no return at C − 32 (R403). -/
def State.commitPast (s : State) : State :=
  match s.host.armed with
  | some a => (match a.c with
    | some c => s.onlyIf (decide (c ≤ s.now + 32)) fun s => s.pastPoint a.ref
    | none => s)
  | none => s

/-- The staging set is emptied; a COMMIT before its point of no return is aborted (R401). -/
def State.dropStage (s : State) : State :=
  let s := s.commitPast
  let s := (s.setHost { s.host with stage := [] })
  let s := (s.wr F.HST_STG_COUNT.ENTRIES 0).wr F.HST_STG_STATUS.CHECKED 0
  match s.host.armed with
  | some a =>
    if s.host.cmds.any fun c => c.is a.ref && c.past then s
    else ((s.setHost { s.host with armed := none }).wr F.HST_STG_STATUS.ARMED 0).complete a.ref stAborted
  | none => s

/-- A semaphore is released: FREE, no owner, no TAG; semaphore 0 takes the staging set with it (R399, R401). -/
def State.semRelease (s : State) (n : Nat) : State :=
  let s := ((s.wr F.HST_SEM.FREE 1 n).wr F.HST_SEM_OWNER.OWNER 0 n).wr F.HST_SEM_OWNER.TAG 0 n
  s.onlyIf (n == 0) State.dropStage

/-- A semaphore is released by force (R400, R385): the event carries the TAG it held. -/
def State.semForce (s : State) (n : Nat) : State :=
  (s.event 0x0203 sevWarn (sourceId 0x0203 0 (0x100 + n)) (payload [(16, 2, s.rd F.HST_SEM_OWNER.TAG n)])).semRelease n

/-- Every semaphore of port p is released by force. -/
def State.semForcePort (s : State) (p : Nat) : State :=
  s.each (List.range 32) fun s n => s.onlyIf (s.rd F.HST_SEM_OWNER.OWNER n == p + 1) fun s => s.semForce n

/-- Reading a semaphore: FREE = 1 grants it to the reader (R399). The reader is 1 for P0, 2 for P1, 3 for firmware. -/
def State.semRead (s : State) (n reader : Nat) : State :=
  let free := s.rd F.HST_SEM.FREE n
  let s := (s.setHost { s.host with rdata := free, rpoison := false })
  s.onlyIf (free == 1) fun s => (s.wr F.HST_SEM.FREE 0 n).wr F.HST_SEM_OWNER.OWNER reader n

/-- HST_SEM (R399); `both`: the two ports read in one cycle, and P0 is served first. -/
def execHstSem (p : Port) (both : Bool) (n : BitVec 5) (s : State) : Host.Outcome State Fault Refusal :=
  .next (s.onlyIf (s.bar0Open 0x20400) fun s =>
    if both then (s.semRead n.toNat 1).semRead n.toNat 2 else s.semRead n.toNat (portNat p + 1))

/-- A write to HST_SEM_REL (R399). -/
def State.semRelWrite (s : State) (p n v : Nat) : State :=
  if !bit v 0 then s
  else if s.rd F.HST_SEM_OWNER.OWNER n == p + 1 then s.semRelease n
  else s.sat F.HST_PORT_ERR.SEM_BAD p

/-- HST_SEM_REL (R399). -/
def execHstSemRel (p : Port) (n : BitVec 5) (value : BitVec 32) (s : State) : Host.Outcome State Fault Refusal :=
  .next (s.onlyIf (s.bar0Open 0x20500) fun s => s.semRelWrite (portNat p) n.toNat value.toNat)

/-- A write to HST_SEM_OWNER.TAG, taken from the owner only (R399). -/
def State.semTagWrite (s : State) (p n v : Nat) : State :=
  s.onlyIf (s.rd F.HST_SEM_OWNER.OWNER n == p + 1) fun s => s.wr F.HST_SEM_OWNER.TAG v n

/-- HST_SEM_OWNER_TAG_WRITE (R399). -/
def execHstSemOwnerTagWrite (p : Port) (n : BitVec 5) (value : BitVec 32) (s : State) : Host.Outcome State Fault Refusal :=
  .next (s.onlyIf (s.bar0Open 0x20404) fun s => s.semTagWrite (portNat p) n.toNat value.toNat)

/-! ### Ring set-up -/

/-- Held completions of a ring are discarded, their number recorded, and CPL_DISCARDED raised (R407). -/
def State.discardHeld (s : State) (r : Nat) : State :=
  let g := s.ring r
  if g.held.isEmpty then s else
  let n := g.held.length
  ((((s.setRing r { g with held := [] }).settle r n).wr F.HST_RING_HELD.HELD n r).event 0x0205 sevWarn
    (sourceId 0x0205 0 (0x200 + r)) (payload [(16, 2, n)])).quiesceIfIdle

/-- The STATE of a ring: OFF, RUNNING, or FROZEN while its port is lost (Table HST-8). -/
def State.showRing (s : State) (r : Nat) : State :=
  s.wr F.HST_RING_STAT.STATE (if !s.rdb F.HST_RING_CFG.EN r then 0 else if s.portUp (s.ringPort r) then 1 else 2) r

/-- A field write that R13 allows. -/
def State.wrEnc (s : State) (f : Field) (lo hi v : Nat) (i : Nat := 0) : State :=
  s.onlyIf (decide (lo ≤ v) && decide (v ≤ hi)) fun s => s.wr f v i

/-- A write to HST_RING_CFG (R389, R407): PORT changes only while EN = 0; setting EN clears the indices; a write of EN = 0
discards held completions, and clears EN unless commands are still outstanding. -/
def State.ringCfgWrite (s : State) (r v : Nat) : State :=
  let was := s.rdb F.HST_RING_CFG.EN r
  let want := bit v 31
  let s := s.onlyIf (was && !want) fun s => s.discardHeld r
  let now := want || (was && s.rd F.HST_RING_STAT.OUTSTANDING r != 0)
  let s := s.onlyIf (!was) fun s => s.wr F.HST_RING_CFG.PORT (bits v 30 30) r
  let s := ((s.wrEnc F.HST_RING_CFG.SQ_SIZE 4 14 (bits v 29 26) r).wrEnc F.HST_RING_CFG.CQ_SIZE 4 15 (bits v 25 22) r)
  let s := ((s.wr F.HST_RING_CFG.VECTOR (bits v 21 15) r).wr F.HST_RING_CFG.COAL_CNT (bits v 14 11) r).wr
    F.HST_RING_CFG.COAL_US (bits v 10 0) r
  let s := s.wrb F.HST_RING_CFG.EN now r
  let s := s.onlyIf (!was && now) fun s =>
    ((((s.setRing r {}).wr F.HST_RING_STAT.SQ_HEAD 0 r).wr F.HST_RING_CQ.CQ_HEAD 0 r).wr F.HST_RING_CQ.CQ_TAIL 0 r).wr
      F.HST_RING_HELD.HELD 0 r
  let s := s.onlyIf (was && !now) fun s => s.setRing r {}
  s.showRing r

/-- RING_CFG_WRITE (R389). -/
def execRingCfgWrite (ring : BitVec 8) (value : BitVec 32) (s : State) : Host.Outcome State Fault Refusal :=
  .next (s.onlyIf (s.bar0Open 0x21000) fun s => s.ringCfgWrite ring.toNat value.toNat)

/-- A write to one of the four base registers of a ring: its held completions are discarded (R407). `k`: 0 SQ low, 1 SQ
high, 2 CQ low, 3 CQ high. -/
def State.ringBaseWrite (s : State) (r k v : Nat) : State := (s.wrReg (0x21000 + 0x20 * r + 4 * k) v).discardHeld r

/-- RING_BASE_WRITE (R407). -/
def execRingBaseWrite (ring : BitVec 8) (k : BitVec 2) (value : BitVec 32) (s : State) : Host.Outcome State Fault Refusal :=
  .next (s.onlyIf (s.bar0Open 0x21000) fun s => s.ringBaseWrite ring.toNat k.toNat value.toNat)

/-- HEAD and TAIL of an event ring are set to 0 (R395). -/
def State.evtRestart (s : State) (q : Nat) : State := (s.wr F.HST_EVT_PTR.HEAD 0 q).wr F.HST_EVT_PTR.TAIL 0 q

/-- A write to an event ring's base or configuration (R395): `k`: 0 low base, 1 high base, 2 HST_EVT_CFG. -/
def State.evtCfgWrite (s : State) (q k v : Nat) : State :=
  let s := if k < 2 then s.wrReg (0x20100 + 0x20 * q + 4 * k) v
    else ((s.wrEnc F.HST_EVT_CFG.SIZE 4 15 (bits v 26 23) q).wr F.HST_EVT_CFG.COAL_CNT (bits v 22 19) q).wr
      F.HST_EVT_CFG.COAL_US (bits v 18 8) q
  s.evtRestart q

/-- EVENT_RING_CONFIG_WRITE (R395). -/
def execEventRingConfigWrite (q : Port) (k : Fin 3) (value : BitVec 32) (s : State) : Host.Outcome State Fault Refusal :=
  .next (s.onlyIf (s.bar0Open 0x20100) fun s => s.evtCfgWrite (portNat q) k.val value.toNat)

/-! ### Losing and restoring a port -/

/-- Every ring of port p, enabled. -/
def State.ringsOf (s : State) (p : Nat) : List Nat :=
  (List.range 256).filter fun r => s.rdb F.HST_RING_CFG.EN r && s.ringPort r == p

/-- Port p is lost (R406): its rings freeze, its completions are held from now on, and PORT_LOST is raised. -/
def State.losePort (s : State) (p : Nat) : State :=
  if !s.portUp p then s else
  let s := s.wr F.HST_STATUS.PORT_UP (setBits (s.rd F.HST_STATUS.PORT_UP) p p 0)
  let s := (s.setHost { s.host with lostAt := Sparse.insert s.host.lostAt p s.now })
  let s := s.each (s.ringsOf p) State.showRing
  s.event 0x0201 sevError (sourceId 0x0201 0 p)

/-- PORT_PERST_ASSERT (R406). -/
def execPortPerstAssert (p : Port) (s : State) : Host.Outcome State Fault Refusal :=
  .next (s.live fun s => s.losePort (portNat p))

/-- LINK_RECOVERY_TIMEOUT (R406). -/
def execLinkRecoveryTimeout (p : Port) (s : State) : Host.Outcome State Fault Refusal :=
  .next (s.live fun s => s.losePort (portNat p))

/-- FUNCTION_LEVEL_RESET (R385): the port is lost, its semaphores are released at once, its rings are disabled and their
held completions discarded. -/
def execFunctionLevelReset (p : Port) (s : State) : Host.Outcome State Fault Refusal :=
  .next <| s.live fun s =>
    let q := portNat p
    let rs := s.ringsOf q
    let s := (s.losePort q).semForcePort q
    let s := s.each rs fun s r => (((s.discardHeld r).setRing r {}).wr F.HST_RING_CFG.EN 0 r).showRing r
    (s.setHost { s.host with lostAt := Sparse.erase s.host.lostAt q })

/-- A restored ring delivers its held completions in order (R407). -/
def State.deliverHeld (s : State) (r : Nat) : State :=
  let l := (s.ring r).held
  let s := ((s.setRing r { s.ring r with held := [] }).settle r l.length).wr F.HST_RING_HELD.HELD 0 r
  (s.each l fun s c => s.postCpl r c).quiesceIfIdle

/-- PORT_RESTORED (R407): the port's next return to L0 with configuration complete. -/
def execPortRestored (p : Port) (s : State) : Host.Outcome State Fault Refusal :=
  .next <| s.live fun s =>
    let q := portNat p
    if s.portUp q then s else
    let s := s.wr F.HST_STATUS.PORT_UP (setBits (s.rd F.HST_STATUS.PORT_UP) q q 1)
    let s := (s.setHost { s.host with lostAt := Sparse.erase s.host.lostAt q })
    let s := s.each (s.ringsOf q) fun s r => (s.deliverHeld r).showRing r
    s.event 0x0202 sevInfo (sourceId 0x0202 0 q)

/-- SEMAPHORE_LOSS_TIMEOUT (R400): 1 ms after the loss of a port not restored meanwhile. -/
def execSemaphoreLossTimeout (p : Port) (s : State) : Host.Outcome State Fault Refusal :=
  .next <| s.live fun s =>
    match Sparse.find s.host.lostAt (portNat p) with
    | some t => s.onlyIf (decide (t + 1000000 ≤ s.now)) fun s =>
        (s.setHost { s.host with lostAt := Sparse.erase s.host.lostAt (portNat p) }).semForcePort (portNat p)
    | none => s

/-! ### The orderly freeze -/

/-- QUIESCE_TIMEOUT (R408): nothing is outstanding, or 5 ms have passed since the PFW_N edge. -/
def execQuiesceTimeout (s : State) : Host.Outcome State Fault Refusal :=
  .next <| s.live fun s =>
    match s.host.pfwEdge with
    | some t => s.onlyIf (decide (t + 5000000 ≤ s.now) || s.noneOutstanding) fun s =>
        (s.setHost { s.host with pfwEdge := none }).wr F.HST_STATUS.QUIESCED 1
    | none => s

/-- A write of 1 to HST_CTRL.UNFREEZE, heeded while PFW_N is high (R408). `level`: PFW_N at the write. -/
def State.unfreeze (s : State) (v : Nat) : State :=
  s.onlyIf (bit v 0 && s.host.pfw) fun s =>
    (s.setHost { s.host with pfwEdge := none }).wr F.HST_STATUS.FROZEN 0 |>.wr F.HST_STATUS.QUIESCED 0

/-- UNFREEZE (R408). `level`: PFW_N at the write. -/
def execUnfreeze (level : Bool) (value : BitVec 32) (s : State) : Host.Outcome State Fault Refusal :=
  .next (s.onlyIf (s.bar0Open 0x20004) fun s =>
    (s.setHost { s.host with pfw := level }).unfreeze value.toNat)

end Sys2Proof.Machine
end

