-- ==== Sys2Proof/Machine/Net.lean ====
section
/-! DEFINITION. The network of the fabric: the virtual grid, routes, travel times, switch lanes (R61 to R71, R89), and the
detection records of a die (R72 to R74). -/

namespace Sys2Proof.Machine

/-! ### The virtual grid (R61) -/

/-- Column and row of a virtual tile. -/
def tileX (t : Nat) : Nat := t % 8
def tileY (t : Nat) : Nat := t / 8

/-- The fabric die of a virtual tile. -/
def tileDie (t : Nat) : Nat := 2 * (tileY t / 4) + tileX t / 4

/-- |a − b|. -/
def dist (a b : Nat) : Nat := if a ≤ b then b - a else a - b

/-- Hop count h_v between two virtual tiles. -/
def hopCount (a b : Nat) : Nat := dist (tileX a) (tileX b) + dist (tileY a) (tileY b)

/-- Die-boundary count d_v between two virtual tiles. -/
def dieCount (a b : Nat) : Nat :=
  b2n (tileX a / 4 != tileX b / 4) + b2n (tileY a / 4 != tileY b / 4)

/-- The virtual neighbour in a direction: 0 east, 1 west, 2 south, 3 north (Table GRI-5). -/
def neighbour (t dir : Nat) : Option Nat :=
  match dir with
  | 0 => if tileX t < 7 then some (t + 1) else none
  | 1 => if 0 < tileX t then some (t - 1) else none
  | 2 => if tileY t < 7 then some (t + 8) else none
  | _ => if 0 < tileY t then some (t - 8) else none

/-- The direction back. -/
def opposite (dir : Nat) : Nat := if dir % 2 = 0 then dir + 1 else dir - 1

/-- The die crossing between two neighbouring tiles, numbered as XCAL_OK numbers them, if their dies differ. -/
def crossing (a b : Nat) : Option Nat :=
  if tileDie a = tileDie b then none
  else if tileX a / 4 ≠ tileX b / 4 then some (tileY a / 4)
  else some (2 + tileX a / 4)

/-- The entry tile of a pin bank (R69). -/
def entryTile (b : Nat) : Nat := 8 * (4 * (b / 4 / 2) + 3) + 4 * (b / 4 % 2) + b % 4

/-- The physical tile within its die that serves a virtual tile (R59, R129). -/
def State.physTile (s : State) (t : Nat) : Nat :=
  let d := tileDie t
  let row := tileY t % 4
  let off := match row with
    | 0 => s.rd F.FAB_REPAIR.ROW0 d
    | 1 => s.rd F.FAB_REPAIR.ROW1 d
    | 2 => s.rd F.FAB_REPAIR.ROW2 d
    | _ => s.rd F.FAB_REPAIR.ROW3 d
  5 * row + (if tileX t % 4 < off then tileX t % 4 else tileX t % 4 + 1)

/-! ### Routes -/

/-- The direction of hop k of a route. -/
def Route.dir (r : Route) (k : Nat) : Nat := r.path / 4 ^ k % 4

/-- The tiles and directions of `n` hops from hop k at tile t. -/
def hopsFrom (r : Route) : Nat → Nat → Nat → List (Nat × Nat × Nat)
  | 0, _, _ => []
  | n + 1, k, t =>
    match neighbour t (r.dir k) with
    | some u => (t, r.dir k, u) :: hopsFrom r n (k + 1) u
    | none => [(t, r.dir k, t)]

/-- The hops of a route: tile, direction, next tile. -/
def Route.hopList (r : Route) : List (Nat × Nat × Nat) := hopsFrom r r.hops 0 r.ptile

/-- The link that an exchange latch route writes (R89): tile, direction, next tile. -/
def Route.latchHop (r : Route) : List (Nat × Nat × Nat) :=
  if r.ckind ≠ 5 then [] else
  match neighbour r.ctile (r.cindex / 64 % 4) with
  | some u => [(r.ctile, r.cindex / 64 % 4, u)]
  | none => []

/-- Producer and consumer share a cluster. -/
def Route.sameCluster (r : Route) : Bool :=
  r.pkind == 0 && r.ckind == 0 && r.ptile == r.ctile && r.pcluster == r.ccluster

/-- The travel time of a route from its producing step (R67, R69, R70, R89). -/
def Route.travel (r : Route) : Nat :=
  if r.ckind = 5 then
    3 + hopCount r.ptile r.ctile + 3 * dieCount r.ptile r.ctile
      + 3 * (r.latchHop.filter fun h => (crossing h.1 h.2.2).isSome).length
  else if r.sameCluster then 1
  else if r.ptile = r.ctile then 2
  else 4 + hopCount r.ptile r.ctile + 3 * dieCount r.ptile r.ctile

/-- Steps that a list of hops adds, or saves, on the crossings it makes, as they have drifted (R64). -/
def State.lateOn (s : State) (l : List (Nat × Nat × Nat)) : Int :=
  l.foldl (fun n h => match crossing h.1 h.2.2 with
    | some x => n + Sparse.get (fun _ => 0) s.fab.drift x
    | none => n) 0

/-- The crossings that a route uses. -/
def Route.crossings (r : Route) : List Nat := (r.hopList ++ r.latchHop).filterMap fun h => crossing h.1 h.2.2

/-- The class step count at which a value arrives. -/
def State.dueAt (s : State) (f : Flight) : Nat :=
  ((f.start + f.route.travel : Nat) + s.lateOn (f.route.hopList ++ f.route.latchHop)).toNat

/-- A lane of a switch: tile, direction (0 to 3, 4 injection, 5 ejection), cluster, lane (Table FAB-11). -/
structure LaneKey where
  tile : Nat
  dir : Nat
  cluster : Nat
  lane : Nat
  deriving DecidableEq, Repr

/-- The output lanes that hops occupy, with the steps after production (R67): `e` steps for the first of them. -/
def State.hopLanes (s : State) (lane : Nat) : List (Nat × Nat × Nat) → Nat → List (Nat × LaneKey)
  | [], _ => []
  | h :: l, e =>
    let next := match crossing h.1 h.2.2 with
      | some x => ((e + 4 : Nat) + Sparse.get (fun _ => 0) s.fab.drift x).toNat
      | none => e + 1
    (e, ⟨h.1, h.2.1, 0, lane⟩) :: s.hopLanes lane l next

/-- Every lane that a route occupies, with the steps after production at which it does (Tables FAB-7 to FAB-9). The lanes are
those that Table FAB-11 names: a pin's drive or compare lane, an ELA crossing bit and a request bit are none of them
(notes/assumptions/128.md). -/
def State.routeLanes (s : State) (r : Route) : List (Nat × LaneKey) :=
  if r.sameCluster then [] else
  let late := s.lateOn (r.hopList ++ r.latchHop)
  (if r.pkind = 0 then [(1, ⟨r.ptile, 4, r.pcluster, r.inj⟩)] else [])
    ++ s.hopLanes r.lane r.hopList 2
    ++ (r.latchHop.map fun h =>
        (((2 + hopCount r.ptile r.ctile + 3 * dieCount r.ptile r.ctile : Nat) + s.lateOn r.hopList).toNat,
          ⟨h.1, h.2.1, 0, r.cindex % 64⟩))
    ++ (if r.ckind = 0 then [((r.travel + late).toNat, ⟨r.ctile, 5, r.ccluster, r.ej⟩)] else [])

/-- Two routes carry the same producer's value (R118). -/
def Route.sameSource (a b : Route) : Bool :=
  a.ptile == b.ptile && a.pkind == b.pkind && a.pcluster == b.pcluster && a.pbp == b.pbp && a.pindex == b.pindex
    && a.pstep == b.pstep

/-- Two flights are branches of one fork. -/
def Flight.forkOf (a b : Flight) : Bool := a.region == b.region && a.start == b.start && a.route.sameSource b.route

/-! ### Regions as the network sees them -/

/-- The state of a region beyond its registers. -/
def State.rgn (s : State) (r : Nat) : RgnSt := Sparse.get (fun _ => {}) s.fab.rgn r

/-- The machine with it set. -/
def State.setRgn (s : State) (r : Nat) (x : RgnSt) : State :=
  (s.setFab { s.fab with rgn := Sparse.set (fun _ => {}) s.fab.rgn r x })

/-- STATE of a region (Table FRM-2). -/
abbrev rgUnloaded : Nat := 0
abbrev rgStopped : Nat := 1
abbrev rgWaiting : Nat := 2
abbrev rgRunning : Nat := 3
abbrev rgHalted : Nat := 4

/-- The STATE of region r. -/
def State.rstate (s : State) (r : Nat) : Nat := s.rd F.FAB_RGN_STATUS.STATE r

/-- A region is WAITING or RUNNING. -/
def State.rlive (s : State) (r : Nat) : Bool := s.rstate r == rgWaiting || s.rstate r == rgRunning

/-- A region is of the deferred class. -/
def State.deferred (s : State) (r : Nat) : Bool := s.rdb F.FAB_RGN_CFG.CLASS r

/-- The step count of a region's class (R63). -/
def State.count (s : State) (r : Nat) : Nat := if s.deferred r then s.fab.cDeferred else s.fab.cReflex

/-- The tiles of a region, as a mask of 64 bits. -/
def State.tiles (s : State) (r : Nat) : Nat := s.rd F.FAB_RGN_TILES_LO.TILES r + 2 ^ 32 * s.rd F.FAB_RGN_TILES_HI.TILES r

/-- The region that a tile belongs to. -/
def State.regionOf (s : State) (t : Nat) : Option Nat :=
  (List.range 16).find? fun r => s.rdb F.FAB_RGN_CFG.EN r && bit (s.tiles r) t

/-- The frame counter of a region. -/
def State.frame (s : State) (r : Nat) : Nat := s.rd64 F.FAB_RGN_FRAME_LO.FRAME r

/-- No cause of a halt has been recorded for a region: no halt is decided, or only one at its frame's end (R79, R105). -/
def State.causeOpen (s : State) (r : Nat) : Bool :=
  !s.rdb F.FAB_RGN_STATUS.HALT_PENDING r || ((s.rgn r).stopAtEnd && (s.rgn r).haltAt.isNone)

/-- A region's halt is decided: it takes effect at a class step count; the first cause stays, but that an error cause comes
before a FAB_HALT of the same step (R72, R79, R106). A region that is not WAITING or RUNNING is unaffected. -/
def State.haltRegion (s : State) (r cause at_ : Nat) : State :=
  if !s.rlive r then s else
  let x := s.rgn r
  let s := s.onlyIf (s.causeOpen r || x.hostHalt == some s.fab.g) fun s =>
    (s.wr F.FAB_RGN_STATUS.HALT_PENDING 1 r).wr F.FAB_RGN_STATUS.HALT_CAUSE cause r
  s.setRgn r { x with
    haltAt := match x.haltAt with | some k => some (min k at_) | none => some at_
    hostHalt := none }

/-! ### Network detections -/

/-- A detection of Table FAB-10. -/
structure Detection where
  kind : Nat
  region : Nat
  tile : Nat
  cluster : Nat
  port : Nat
  bp : Nat
  expTag : Nat
  gotTag : Nat
  dir : Nat
  lane : Nat

/-- The first-fail record of a die is filled, or shows MORE (R74). -/
def State.netFirstFail (s : State) (d : Detection) : State :=
  let n := tileDie d.tile
  if s.rdb F.FAB_NETFF_STAT.VALID n then s.wr F.FAB_NETFF_STAT.MORE 1 n else
  let s := ((s.wr F.FAB_NETFF_STAT.VALID 1 n).wr F.FAB_NETFF_STAT.KIND d.kind n).wr F.FAB_NETFF_STAT.REGION d.region n
  let s := (s.wr F.FAB_NETFF_STAT.VTILE d.tile n).wr F.FAB_NETFF_STAT.PTILE (s.physTile d.tile) n
  let s := ((s.wr F.FAB_NETFF_LOC.CLUSTER d.cluster n).wr F.FAB_NETFF_LOC.BP d.bp n).wr F.FAB_NETFF_LOC.PORT d.port n
  let s := (s.wr F.FAB_NETFF_LOC.EXP_TAG d.expTag n).wr F.FAB_NETFF_LOC.GOT_TAG d.gotTag n
  let s := (s.wr F.FAB_NETFF_LOC.DIR d.dir n).wr F.FAB_NETFF_LOC.LANE d.lane n
  ((s.wr F.FAB_NETFF_STEP.STEP (s.rd F.FAB_RGN_STATUS.STEP d.region) n).wr64 F.FAB_NETFF_FRAME_LO.FRAME
    (s.frame d.region) n).wr64 F.FAB_NETFF_TB_LO.TB s.now n

/-- A network detection at this step (R72 to R74): event, first-fail record, and the region's halt. -/
def State.detect (s : State) (d : Detection) : State :=
  let s := s.event (0x0400 + d.kind) sevError (sourceId 0x0400 (0x10 + tileDie d.tile) d.region)
    (payload [(16, 6, s.frame d.region), (22, 2, s.rd F.FAB_RGN_STATUS.STEP d.region), (24, 1, d.tile),
      (25, 1, s.physTile d.tile), (26, 1, d.cluster + 16 * d.port), (27, 1, d.bp), (28, 1, d.expTag + 16 * d.gotTag),
      (29, 1, d.dir), (30, 1, d.lane)])
  (s.netFirstFail d).haltRegion d.region d.kind (s.count d.region + 32)

end Sys2Proof.Machine
end

