-- ==== Sys2Proof/Machine/CoreRegs.lean ====
section
/-! DEFINITION. The registers and local memories of a signal core (R203 to R207, Tables SCR-1 and SCR-9). -/

namespace Sys2Proof.Machine

/-! ### Registers -/

/-- Reset values of the registers of Table SCR-1, by code. -/
def coreReset (code : Nat) : CReg := ⟨if code = 51 then 0x2000 else if code = 53 then 1 else 0, false⟩

/-- A register by its code; an accumulator by 40 to 43 (Table ISA-4). -/
def CoreSt.reg (c : CoreSt) (code : Nat) : CReg := Sparse.get coreReset c.r code

/-- The value of a register. -/
def CoreSt.val (c : CoreSt) (code : Nat) : Nat := (c.reg code).v.toNat

/-- The core with a register set. -/
def CoreSt.setReg (c : CoreSt) (code : Nat) (x : CReg) : CoreSt := { c with r := Sparse.set coreReset c.r code x }

/-- The core with a register's value set and its poison cleared. -/
def CoreSt.setVal (c : CoreSt) (code v : Nat) : CoreSt := c.setReg code ⟨BitVec.ofNat 48 v, false⟩

/-- The value that a consumer of the late class of a register sees: the one before the last bundle where that bundle wrote
it (R210, Table SCR-4). -/
def CoreSt.seen (c : CoreSt) (code : Nat) : CReg :=
  match Sparse.find c.old code with
  | some x => x
  | none => c.reg code

/-- Register codes with a use of their own. -/
abbrev rLC : Nat := 48
abbrev rLS : Nat := 49
abbrev rLE : Nat := 50
abbrev rSR : Nat := 51
abbrev rPC : Nat := 52
abbrev rMODE : Nat := 53
abbrev rXPC : Nat := 54
abbrev rXSR : Nat := 55
abbrev rXMODE : Nat := 56
abbrev rXCAUSE : Nat := 57

/-- SR with the fields that show the state of the core (Table SCR-2). -/
def CoreSt.fix (c : CoreSt) : CoreSt :=
  let r := c.reg rSR
  let v := setBits (setBits (setBits r.v.toNat 19 16 c.xq.length) 15 15 (b2n (c.val rLC != 0))) 14 14 (b2n (c.rep != 0))
  c.setReg rSR ⟨BitVec.ofNat 48 v, r.p⟩

/-- A core. -/
def State.core (s : State) (n : Nat) : CoreSt := Sparse.get (fun _ => {}) s.cores n

/-- The status registers of core n show it (Table SCR-9). -/
def State.showCore (s : State) (n : Nat) (c : CoreSt) : State :=
  ((((((s.wr F.SC_STATUS.XQ c.xq.length n).wr F.SC_STATUS.INLOOP (bits (c.val rSR) 15 15) n).wr F.SC_STATUS.INREP
    (bits (c.val rSR) 14 14) n).wr F.SC_STATUS.IE (bits (c.val rSR) 12 12) n).wr F.SC_STATUS.EXL
    (bits (c.val rSR) 13 13) n).wr F.SC_STATUS.MODE (c.val rMODE) n).wr F.SC_PC.PC (c.val rPC) n

/-- The machine with a core set, and its status registers showing it (Table SCR-9). -/
def State.setCore (s : State) (n : Nat) (c : CoreSt) : State :=
  (s.setCores (Sparse.set (fun _ => {}) s.cores n c.fix)).showCore n c.fix

/-- The STATE of a core (Table SCR-9): 0 RESET, 1 RUNNING, 2 GET_WAIT, 3 BLOCKED, 4 WAIT, 5 HALTED, 6 FAULTED. -/
def State.coreState (s : State) (n : Nat) : Nat := s.rd F.SC_STATUS.STATE n

/-- The frequency in force of clock domain d, in MHz: what its PLL is programmed to on either reference (R411), no higher
for an SCI domain than the power manager's ceiling (R426). -/
def State.domMHz (s : State) (d : Nat) : Nat :=
  let f := s.rd F.CLK_DOM_CFG.FREQ (d - 1)
  if 6 ≤ d ∧ d ≤ 9 then min f (100 * s.clk.ceiling) else f

/-- The busy and GET-wait counters of a core are brought up to the present, in cycles of its island's clock, the part of a
cycle that is left over being kept (R272). -/
def State.countCore (s : State) (n : Nat) : State :=
  let m := (s.now - Sparse.get (fun _ => 0) s.dsp.counted n) * s.domMHz (6 + n / 16)
    + Sparse.get (fun _ => 0) s.dsp.countPart n
  let k := m / 1000
  let s := (s.setDsp { s.dsp with
    counted := Sparse.set (fun _ => 0) s.dsp.counted n s.now
    countPart := Sparse.set (fun _ => 0) s.dsp.countPart n (m % 1000) })
  let s := s.onlyIf (s.rdb F.SC_STATUS.TASK n) fun s => s.sat64 F.DSP_CORE_BUSY_LO.CYCLES n k
  s.onlyIf (s.coreState n == 2) fun s => s.sat64 F.DSP_CORE_GETW_LO.CYCLES n k

/-- The machine with the STATE of a core set. -/
def State.setCoreState (s : State) (n v : Nat) : State := (s.countCore n).wr F.SC_STATUS.STATE v n

/-- An interrupt line of a core becomes pending; a request on a pending line merges (R221). -/
def State.raiseLine (s : State) (n line : Nat) : State :=
  s.wr F.SC_IRQ_PEND.PEND (setBits (s.rd F.SC_IRQ_PEND.PEND n) line line 1) n

/-- A transfer or a submission of a core fails (R209, R260): XERR, and exception XFER when it can be taken. -/
def State.xferError (s : State) (n : Nat) : State :=
  let c := s.core n
  let sr := c.reg rSR
  s.setCore n { c.setReg rSR ⟨BitVec.ofNat 48 (setBits sr.v.toNat 20 20 1), sr.p⟩ with xferExc := true }

/-- The cores of a block are off or gated (R424, R425). -/
def State.islandOff (s : State) (n : Nat) : Bool :=
  s.mem.off.contains (0x20 + n / 16) || s.mem.gates.contains (0x20 + n / 16)

/-! ### Local memories -/

/-- A word of X or Y. -/
def CoreSt.word (c : CoreSt) (y : Bool) (w : Nat) : PWord := Sparse.get (fun _ => ⟨0, false⟩) (if y then c.y else c.x) w

/-- The core with a word of X or Y set. -/
def CoreSt.setWord (c : CoreSt) (y : Bool) (w : Nat) (x : PWord) : CoreSt :=
  if y then { c with y := Sparse.set (fun _ => ⟨0, false⟩) c.y w x }
  else { c with x := Sparse.set (fun _ => ⟨0, false⟩) c.x w x }

/-- The bytes of a local range, with the poison of their words. -/
def CoreSt.localRead (c : CoreSt) (y : Bool) (a n : Nat) : List PByte :=
  (List.range n).map fun k =>
    let w := c.word y ((a + k) / 4)
    (BitVec.ofNat 8 (w.v.toNat / 256 ^ ((a + k) % 4)), w.p)

/-- The four bytes of a list as a word; any poisoned byte poisons it. -/
def wordOf (l : List PByte) : PWord := ⟨BitVec.ofNat 32 (leNat (plain l)), poisoned l⟩

/-- Words written to a local range, from a word address; `deny` names words a write may not reach. -/
def CoreSt.localWrite (c : CoreSt) (y : Bool) (w : Nat) (deny : Nat → Bool) (l : List PByte) : CoreSt :=
  (List.range (l.length / 4)).foldl (fun c k =>
    if deny (w + k) then c else c.setWord y (w + k) (wordOf ((l.drop (4 * k)).take 4))) c

/-- A byte address of X or Y lies in the secure top range (R227). -/
def State.secureRange (s : State) (n : Nat) (y : Bool) (a : Nat) : Bool :=
  decide (0x10000 ≤ a + 4096 * (if y then s.rd F.SC_SEC.YSEC n else s.rd F.SC_SEC.XSEC n))

end Sys2Proof.Machine
end

