-- ==== Sys2Proof/Machine/Pools.lean ====
section
/-! DEFINITION. The hardware buffer pools (R360, R361). -/

namespace Sys2Proof.Machine

/-- The size of a pool's buffers in far-address units. -/
def State.poolUnit (s : State) (k : Nat) : Nat := if s.rdb F.MEM_POOL_CFG.SIZE k then 4096 else 256

/-- The free list of a pool. -/
def State.poolList (s : State) (k : Nat) : List Nat := Sparse.get (fun _ => []) s.mem.pools k

/-- The machine with a pool's free list set, as MEM_POOL_FREE and MEM_POOL_MIN show it. -/
def State.setPool (s : State) (k : Nat) (l : List Nat) : State :=
  let s := (s.setMem { s.mem with pools := Sparse.set (fun _ => []) s.mem.pools k l })
  let s := s.wr F.MEM_POOL_FREE.FREE l.length k
  if l.length < s.rd F.MEM_POOL_MIN.MIN k then s.wr F.MEM_POOL_MIN.MIN l.length k else s

/-- Enabling a pool builds its free list; disabling discards it (R360). -/
def State.poolEnable (s : State) (k : Nat) (on : Bool) : State :=
  let n := if on then s.rd F.MEM_POOL_CFG.COUNT k else 0
  let s := s.wr F.MEM_POOL_MIN.MIN n k
  s.setPool k ((List.range n).map fun i => s.rd F.MEM_POOL_BASE.BASE k + i * s.poolUnit k)

/-- ALLOC: the head of the list, or 0 from an empty one (R360). -/
def State.poolAlloc (s : State) (k : Nat) : Nat × State :=
  match s.poolList k with
  | [] => (0, s.sat F.MEM_POOL_FAIL.COUNT k)
  | a :: l => (a, s.setPool k l)

/-- Why a FREE is rejected (R361): 0 not a buffer, 1 already free, 2 poisoned. -/
def State.poolReject (s : State) (k a : Nat) (poison : Bool) : Option Nat :=
  let base := s.rd F.MEM_POOL_BASE.BASE k
  if poison then some 2
  else if !s.rdb F.MEM_POOL_CFG.EN k || decide (a < base) || (a - base) % s.poolUnit k != 0
      || decide (s.rd F.MEM_POOL_CFG.COUNT k ≤ (a - base) / s.poolUnit k) then some 0
  else if (s.poolList k).contains a then some 1
  else none

/-- FREE: the buffer is appended to the list, or the FREE is rejected (R361). A poisoned address is consumed there
(Table MEM-4, consumer 10). `req`: the requester code. -/
def State.poolFree (s : State) (k a : Nat) (poison : Bool) (req : Nat) : State :=
  match s.poolReject k a poison with
  | none => s.setPool k (s.poolList k ++ [a])
  | some why =>
    let s := s.onlyIf poison fun s =>
      s.event 0x0302 sevError (sourceId 0x0302 0 req) (memPayload (a * 16) 3 (0xC0 + k) 0 10 0)
    (s.sat F.MEM_POOL_BAD.COUNT k).event 0x0308 sevWarn (sourceId 0x0308 0 k) (memPayload (a * 16) 3 (0xC0 + k) 0 0 why)

end Sys2Proof.Machine
end

