-- ==== Sys2Proof/Machine/Trace.lean ====
section
/-! DEFINITION. Trace packets (R470 to R477): what a traced bundle or dispatcher step puts into its source's buffer. -/

namespace Sys2Proof.Machine

/-- Where a packet is emitted: program counter, mode, task-open state, timebase and cycle counter of the source. -/
structure TrcCtx where
  pc : Nat
  mode : Nat
  task : Bool
  tb : Nat
  cyc : Nat
  disp : Bool

/-- An unsigned varint (R472). -/
def varint : Nat → Nat → List Byte
  | 0, n => [BitVec.ofNat 8 (n % 128)]
  | fuel + 1, n => if n < 128 then [BitVec.ofNat 8 n] else BitVec.ofNat 8 (n % 128 + 128) :: varint fuel (n / 128)

/-- A SYNC packet (Table SEC-6). -/
def TrcCtx.sync (c : TrcCtx) : List Byte :=
  leBytes 1 1 ++ (if c.disp then [] else leBytes 2 (c.pc + c.mode * 2 ^ 13 + b2n c.task * 2 ^ 15)) ++ leBytes 8 c.tb
    ++ leBytes 4 c.cyc

/-- An ATOM byte of the held atoms, oldest in bit 0, with its marker (R472). -/
def atomByte (l : List Bool) : Byte :=
  BitVec.ofNat 8 (l.foldr (fun b n => b2n b + 2 * n) 1 + 128)

/-- A packet enters the buffer if it fits; else packets are discarded from here on (R477). -/
def TrcSrc.put (t : TrcSrc) (p : List Byte) : TrcSrc :=
  match t.lost with
  | some n => { t with lost := some (n + p.length), lostAll := t.lostAll + p.length }
  | none =>
    if t.buf.length + p.length ≤ 256 then
      { t with buf := t.buf ++ p, bytes := t.bytes + p.length, pkts := t.pkts + 1 }
    else { t with lost := some p.length, lostAll := t.lostAll + p.length }

/-- A SYNC packet is emitted. -/
def TrcSrc.sync (t : TrcSrc) (c : TrcCtx) : TrcSrc :=
  { (t.put c.sync) with needSync := false, bytes := 0, pkts := 0, ref := c.cyc }

/-- A CYC packet stands before a packet whose bundle lies at another cycle than the last CYC or SYNC (R472). -/
def TrcSrc.cyc (t : TrcSrc) (c : Nat) : TrcSrc :=
  if c = t.ref then t else { (t.put (leBytes 1 3 ++ varint 5 (c - t.ref))) with ref := c }

/-- Held atoms are flushed. -/
def TrcSrc.flush (t : TrcSrc) : TrcSrc :=
  if t.atoms.isEmpty then t else { ((t.cyc t.atomCyc).put [atomByte t.atoms]) with atoms := [] }

/-- After an overflow, with 64 bytes free, OVERFLOW and SYNC are emitted (R477); atoms that were held are lost with the rest. -/
def TrcSrc.recover (t : TrcSrc) (c : TrcCtx) : TrcSrc :=
  if t.lost.isSome ∧ t.buf.length ≤ 192 then
    let t := t.flush
    (({ t with lost := none }.put (leBytes 1 8 ++ varint 5 (t.lost.getD 0)))).sync c
  else t

/-- A SYNC is due (R470, R473). -/
def TrcSrc.due (t : TrcSrc) : Bool := t.needSync || decide (4096 ≤ t.bytes) || decide (1024 ≤ t.pkts)

/-- What must stand before a packet: held atoms, and a SYNC that is due. -/
def TrcSrc.ready (t : TrcSrc) (c : TrcCtx) : TrcSrc :=
  let t := (t.recover c).flush
  if t.due then t.sync c else t

/-- A packet of a source. `timed`: CYC precedes it. -/
def TrcSrc.packet (t : TrcSrc) (c : TrcCtx) (timed : Bool) (p : List Byte) : TrcSrc :=
  let t := t.ready c
  (if timed then t.cyc c.cyc else t).put p

/-- An atom of a source: six held atoms make a byte. -/
def TrcSrc.atom (t : TrcSrc) (c : TrcCtx) (b : Bool) : TrcSrc :=
  let t := { (t.recover c) with atoms := t.atoms ++ [b], atomCyc := c.cyc }
  if t.atoms.length = 6 then t.flush else t

/-- The stream of a source. -/
def State.trcSrc (s : State) (n : Nat) : TrcSrc := Sparse.get (fun _ => {}) s.trc n

/-- The machine with the stream of a source set; a new loss is counted and raised (R477). -/
def State.setTrc (s : State) (n : Nat) (t : TrcSrc) : State :=
  let more := t.lostAll - (s.trcSrc n).lostAll
  let s := (s.setTrcs (Sparse.set (fun _ => {}) s.trc n t))
  if more = 0 then s else
  let s := s.sat F.TRC_LOST.BYTES n 0 more
  let quiet := match t.warned with | some w => decide (s.now < w + 1000000) | none => false
  if quiet then s
  else (s.setTrcs (Sparse.set (fun _ => {}) s.trc n { t with warned := some s.now })).event 0x0C03 sevWarn
    (sourceId 0x0C03 0 n) (payload [(24, 8, t.lost.getD more)])

/-- A core is a trace source (R470). -/
def State.traced (s : State) (n : Nat) : Bool :=
  s.rdb F.TRC_CTRL.EN && bit (if n < 32 then s.rd F.TRC_CORES_LO.MASK else s.rd F.TRC_CORES_HI.MASK) (n % 32)

/-- A bundle of a core in a mode is excluded (R474). -/
def State.trcExcluded (s : State) (n mode : Nat) : Bool :=
  let scope := s.rd F.SEC_TRC_AUTH.SCOPE
  let named := s.rdb F.SEC_TRC_AUTH.VALID && s.trcCores.getLsbD n
  match mode with
  | 1 => !(named && bit scope 0)
  | 2 => !(named && bit scope 1)
  | _ => false

/-- The data trace of a core (R472). -/
def State.trcData (s : State) (n : Nat) : Bool :=
  bit (if n < 32 then s.rd F.TRC_DATA_LO.MASK else s.rd F.TRC_DATA_HI.MASK) (n % 32)

/-- A core's bundle begins: exclusion, EXCL and SYNC are handled (R470, R473, R474). -/
def State.trcBegin (s : State) (n : Nat) (c : TrcCtx) : State :=
  if !s.traced n then s else
  let t := s.trcSrc n
  if s.trcExcluded n c.mode then s.setTrc n { (if t.excluded then t else t.flush) with excluded := true }
  else if t.excluded then
    s.setTrc n ({ ((t.recover c).put (leBytes 1 4 ++ varint 5 (c.cyc - t.lastEnd))) with excluded := false }.sync c)
  else if t.needSync || (t.due && t.atoms.isEmpty) then s.setTrc n ((t.recover c).sync c)
  else s

/-- A traced bundle ends. -/
def State.trcEnd (s : State) (n mode cyc : Nat) : State :=
  if !s.traced n || s.trcExcluded n mode then s else s.setTrc n { s.trcSrc n with lastEnd := cyc }

/-- A packet of a core's bundle executed in `c.mode`. -/
def State.trcPacket (s : State) (n : Nat) (c : TrcCtx) (timed : Bool) (p : List Byte) : State :=
  if !s.traced n || s.trcExcluded n c.mode then s else s.setTrc n ((s.trcSrc n).packet c timed p)

/-- An atom of a core's bundle. -/
def State.trcAtom (s : State) (n : Nat) (c : TrcCtx) (b : Bool) : State :=
  if !s.traced n || s.trcExcluded n c.mode then s else s.setTrc n ((s.trcSrc n).atom c b)

/-- A core gates itself: PWRDN, and a SYNC before its next packet (R476). -/
def State.trcGate (s : State) (n : Nat) (c : TrcCtx) : State :=
  if !s.traced n || s.trcExcluded n c.mode then s else
  let t := (s.trcSrc n).ready c
  s.setTrc n { (t.put (leBytes 1 5 ++ varint 5 (c.cyc - t.ref))) with needSync := true }

/-- A packet of the dispatcher (source 64). -/
def State.trcDisp (s : State) (p : List Byte) : State :=
  if !s.rdb F.TRC_CTRL.EN || !s.rdb F.TRC_CTRL.DISP then s else
  let t := s.trcSrc 64
  s.setTrc 64 (t.packet ⟨0, 0, false, s.now, Config.nocCycles s.now, true⟩ false p)

end Sys2Proof.Machine
end

