-- ==== Sys2Proof/Machine/Tasks.lean ====
section
/-! DEFINITION. The work dispatcher's operations on tasks (R255 to R269): descriptors, acceptance, readiness, ordered
release and its effects, mailboxes, cancellation. -/

namespace Sys2Proof.Machine

/-! ### Descriptors -/

/-- The reserved fields of a descriptor are 0 (Table DSP-1, R258). SEQ and CANCEL are ignored (R257). -/
def descReserved (d : List Byte) : Bool :=
  bits (fieldAt d 0 2) 15 12 == 0 && bits (fieldAt d 2 2) 15 9 == 0 && bits (fieldAt d 7 1) 7 1 == 0
    && bits (fieldAt d 32 1) 7 5 == 0 && bits (fieldAt d 33 1) 7 4 == 0 && bits (fieldAt d 34 1) 7 7 == 0
    && fieldAt d 35 1 == 0 && fieldAt d 44 4 == 0

/-- The task that a descriptor describes, in no slot yet (Table DSP-1). -/
def taskOf (p : Producer) (d : List Byte) : Task :=
  { slot := 0, producer := p, code := bits (fieldAt d 0 2) 11 0, flow := bits (fieldAt d 2 2) 8 0, seq := 0,
    prio := bits (fieldAt d 6 1) 2 0, dlEn := bit (fieldAt d 6 1) 3, domain := bits (fieldAt d 6 1) 7 4,
    affinity := fieldAt d 8 8, deadline := fieldAt d 24 8, action := bits (fieldAt d 32 1) 4 0,
    cq := bits (fieldAt d 33 1) 3 0, hpool := bits (fieldAt d 34 1) 2 0, hmode := bit (fieldAt d 34 1) 3,
    flagnum := bits (fieldAt d 34 1) 5 4, flagval := bit (fieldAt d 34 1) 6, succ := fieldAt d 36 4,
    hbuf := fieldAt d 40 4 }

/-- Completion actions (Table DSP-1, ACTION). -/
def Task.record (t : Task) : Bool := bit t.action 0
def Task.succSet (t : Task) : Bool := bit t.action 1
def Task.handoff (t : Task) : Bool := bit t.action 2
def Task.reply (t : Task) : Bool := bit t.action 3
def Task.flag (t : Task) : Bool := bit t.action 4

/-- The tag of a task (Table DSP-5). -/
def Task.tag (t : Task) : Nat := b2n t.dlEn * 2 ^ 31 + t.prio * 2 ^ 28 + t.flow * 2 ^ 16 + t.seq

/-- The entry of a code object (Table DSP-4), read by the pager, with its poison. -/
def State.codeEntry (s : State) (i : Nat) : List PByte := (s.memRead reqPager ((s.rd F.DSP_COT.BASE + i) * 16) 16).bytes

/-- A code object's entry is valid. -/
def State.codeValid (s : State) (i : Nat) : Bool := bit (fieldAt (plain (s.codeEntry i)) 4 1) 7

/-- The cores that AFFINITY allows (Table DSP-1). -/
def Task.allows (t : Task) (n : Nat) : Bool := t.affinity == 0 || bit t.affinity n

/-- The check of a descriptor at acceptance (R258). HBUF, like SUCC, is 64-byte aligned (notes/assumptions/20.md). -/
def State.descOk (s : State) (t : Task) (d : List Byte) : Bool :=
  descReserved d && s.codeValid t.code && (List.range 64).any (fun n => t.allows n && !s.islandOff n)
    && !(t.succSet && t.succ % 4 != 0) && !(t.handoff && t.hbuf % 4 != 0)

/-! ### Slots and readiness -/

/-- The machine with the task list set, and DSP_STATUS and a flow's OUTSTANDING showing it. -/
def State.setTasks (s : State) (l : List Task) (flow : Nat) : State :=
  let s := (s.setDsp { s.dsp with tasks := l })
  (s.wr F.DSP_STATUS.SLOTS l.length).wr F.DSP_FLOW.OUTSTANDING (l.filter fun t => t.flow == flow).length flow

/-- The tasks with one replaced. -/
def State.updTask (s : State) (slot : Nat) (f : Task → Task) : State :=
  (s.setDsp { s.dsp with tasks := s.dsp.tasks.map fun t => if t.slot == slot then f t else t })

/-- The task in a slot. -/
def State.taskAt (s : State) (slot : Nat) : Option Task := s.dsp.tasks.find? fun t => t.slot == slot

/-- Tasks of a flow that are running, from grant to DONE (R262). -/
def State.flowRunning (s : State) (f : Nat) : Nat :=
  (s.dsp.tasks.filter fun t => t.flow == f && (t.phase == .running || t.phase == .loading)).length

/-- A task is ready (R262). -/
def State.taskReady (s : State) (t : Task) : Bool :=
  t.phase == .queued && decide (s.flowRunning t.flow < s.rd F.DSP_FLOW.MAX_PAR t.flow) &&
    ((s.dsp.tasks.takeWhile fun x => x.slot != t.slot).all fun x => x.flow != t.flow || x.phase != .queued)

/-- The ready tasks of priority p. -/
def State.readyCount (s : State) (p : Nat) : Nat := (s.dsp.tasks.filter fun t => t.prio == p && s.taskReady t).length

/-- A task with the instant it became ready (R272). -/
def State.stampReady (s : State) (t : Task) : Task :=
  if s.taskReady t then { t with readyAt := some (match t.readyAt with | some x => x | none => s.now) }
  else { t with readyAt := none }

/-- The queue registers show the ready tasks, and each task keeps the instant it became ready (R271, R272). -/
def State.refresh (s : State) : State :=
  let s := (s.setDsp { s.dsp with tasks := s.dsp.tasks.map s.stampReady })
  s.each (List.range 8) fun s p =>
    let n := s.readyCount p
    (s.wr F.DSP_Q_DEPTH.DEPTH n p).onlyIf (decide (s.rd F.DSP_Q_DEPTH.MAX p < n)) fun s => s.wr F.DSP_Q_DEPTH.MAX n p

/-- The lowest free slot. -/
def State.freeSlot (s : State) : Nat :=
  (List.range (s.dsp.tasks.length + 1)).foldl
    (fun k _ => if s.dsp.tasks.any fun t => t.slot == k then k + 1 else k) 0

/-- A flow has room, and a slot is free (R255). -/
def State.hasRoom (s : State) (f : Nat) : Bool :=
  decide (s.dsp.tasks.length < 16384) && decide ((s.dsp.tasks.filter fun t => t.flow == f).length < 256)

/-- The far address of a slot's descriptor (R255). -/
def State.descFar (s : State) (slot : Nat) : Nat := s.rd F.DSP_DTAB.BASE + 4 * slot

/-- A checked task takes a slot and the next number of its flow, and its descriptor is written to the table (R256, R257). -/
def State.acceptTask (s : State) (t : Task) (d : List Byte) : Nat × State :=
  let slot := s.freeSlot
  let q := Sparse.get (fun _ => 0) s.dsp.seq t.flow
  let t := { t with slot := slot, seq := q }
  let d := slice d 0 4 ++ leBytes 2 q ++ slice d 6 1 ++ leBytes 1 0 ++ slice d 8 56
  let s := s.put reqPager (s.descFar slot * 16) d
  let s := (s.setDsp { s.dsp with seq := Sparse.set (fun _ => 0) s.dsp.seq t.flow ((q + 1) % 65536) })
  (slot, (s.setTasks (s.dsp.tasks ++ [t]) t.flow).refresh)

/-- How an offered descriptor fares. -/
inductive Offer where
  | taken (slot : Nat)
  | badDescriptor
  | noRoom

/-- A descriptor is offered by a producer (R258, R259). -/
def State.offer (s : State) (p : Producer) (d : List Byte) : Offer × State :=
  let t := taskOf p d
  if !s.descOk t d then (.badDescriptor, s)
  else if !s.hasRoom t.flow then (.noRoom, s)
  else let r := s.acceptTask t d; (.taken r.1, r.2)

/-- A descriptor read from memory by the dispatcher; poison in it is consumed and fails the check (R258). -/
def State.fetchDesc (s : State) (far : Nat) : List Byte × Bool × State :=
  let r := s.memRead reqPager (far * 16) 64
  (plain r.bytes, poisoned r.bytes,
    r.s.onlyIf (poisoned r.bytes) fun s => s.poisonConsumed reqPager (far * 16) 3)

/-- DSP_SUBMIT_REFUSED (R273): a submission as a core's is refused. -/
def State.submitRefused (s : State) (unit : Nat) : State := s.event 0x0711 sevWarn (sourceId 0x0711 0 unit)

/-- A core's submission, or a SUCC template's: a refusal drops the descriptor and raises the event (Table DSP-3). The
answer says whether it was accepted. -/
def State.coreSubmit (s : State) (unit : Nat) (d : List Byte) (poison : Bool) : Bool × State :=
  if poison then (false, s.submitRefused unit)
  else match s.offer (.core unit) d with
    | (.taken _, s) => (true, s)
    | (_, s) => (false, s.submitRefused unit)

/-- DSP_PRODUCER_DROP (R273). -/
def State.producerDrop (s : State) (i : Nat) : State := s.event 0x0712 sevWarn (sourceId 0x0712 0 i)

/-- An occurrence of producer entry i, a slot timer's, a capture event's or a doorbell's (R259): the template is copied,
`fill` fills its fields, and a refusal drops the occurrence. A disabled entry drops it silently. -/
def State.produce (s : State) (i : Nat) (fill : List Byte → List Byte) : State :=
  if !s.rdb F.DSP_PROD.EN i then s else
  let f := s.fetchDesc (s.rd F.DSP_PROD.TEMPLATE i * 4)
  if f.2.1 then f.2.2.producerDrop i
  else match f.2.2.offer (.entry i) (fill f.1) with
    | (.taken _, s) => s
    | (_, s) => s.producerDrop i

/-! ### Mailboxes -/

/-- The messages waiting in a mailbox. -/
def State.mbox (s : State) (m : Nat) : List Nat := Sparse.get (fun _ => []) s.dsp.mbox m

/-- The machine with a mailbox's waiting messages set. -/
def State.setMbox (s : State) (m : Nat) (l : List Nat) : State :=
  (s.setDsp { s.dsp with mbox := Sparse.set (fun _ => []) s.dsp.mbox m l })

/-- The replies a mailbox awaits. -/
def State.mboxOut (s : State) (m : Nat) : List (Nat × Option Nat) := Sparse.get (fun _ => []) s.dsp.mboxOut m

/-- The machine with them set. -/
def State.setMboxOut (s : State) (m : Nat) (l : List (Nat × Option Nat)) : State :=
  (s.setDsp { s.dsp with mboxOut := Sparse.set (fun _ => []) s.dsp.mboxOut m l })

/-- The device is a pair's standby that replays (R437, R440). -/
def State.replaying (s : State) : Bool :=
  s.rdb F.PAIR_CFG.EN && s.rd F.PAIR_STAT.ROLE == 1 && (s.rd F.PAIR_STAT.STATE == 2 || s.rd F.PAIR_STAT.STATE == 3)

/-- The device forwards its inputs to a standby (R439). -/
def State.forwards (s : State) : Bool :=
  s.rdb F.PAIR_CFG.EN && s.rd F.PAIR_STAT.ROLE == 0 && (s.rd F.PAIR_STAT.STATE == 1 || s.rd F.PAIR_STAT.STATE == 2)

/-- Something to send to the pair partner. -/
def State.pairOut (s : State) (x : PairOut) : State := (s.setPair { s.pair with out := s.pair.out ++ [x] })

/-- A reply reaches the fabric: the oldest mailbox access that awaits it has its item (R261). -/
def fabReply (m v : Nat) : List Item → List Item
  | [] => []
  | x :: l =>
    if x.acc.kind == 4 && x.acc.unit == m && x.sent && !x.present then { x with present := true, value := v } :: l
    else x :: fabReply m v l

/-- A reply is delivered to a fabric mailbox: forwarded by a primary, discarded by a replaying standby (R439, R440). -/
def State.deliverReply (s : State) (m v : Nat) : State :=
  if s.replaying then s else
  let s := s.onlyIf s.forwards fun s => s.pairOut (.mailbox m v)
  (s.setFab { s.fab with items := fabReply m v s.fab.items })

/-- Replies that have been given are delivered in issue order (R261). -/
def State.drainReplies (s : State) (m : Nat) : State :=
  let l := s.mboxOut m
  let ready := l.takeWhile fun e => e.2.isSome
  let s := s.setMboxOut m (l.drop ready.length)
  s.each ready fun s e => match e.2 with | some v => s.deliverReply m v | none => s

/-- A message is offered as a task of its mailbox's entry (R259, R261). The answer says whether it left the queue. -/
def State.mailTask (s : State) (m msg : Nat) : Bool × State :=
  let i := 80 + m
  if !s.rdb F.DSP_PROD.EN i then (true, s) else
  let f := s.fetchDesc (s.rd F.DSP_PROD.TEMPLATE i * 4)
  let s := f.2.2
  let drop (s : State) : State := (((s.producerDrop i).setMboxOut m (s.mboxOut m ++ [(16384, some 0)]))).drainReplies m
  if f.2.1 then (true, drop s)
  else
    let d := slice f.1 0 32 ++ leBytes 1 (setBits (fieldAt f.1 32 1) 3 3 1) ++ slice f.1 33 15 ++ leBytes 8 msg
      ++ slice f.1 56 8
    match s.offer (.entry i) d with
    | (.taken slot, s) => (true, s.setMboxOut m (s.mboxOut m ++ [(slot, none)]))
    | (.badDescriptor, s) => (true, drop s)
    | (.noRoom, s) => (false, s)

/-- Waiting messages of a mailbox are taken in issue order while there is room (R261). -/
def State.mailDrain : Nat → State → Nat → State
  | 0, s, _ => s
  | k + 1, s, m =>
    match s.mbox m with
    | [] => s
    | x :: l =>
      match s.mailTask m x with
      | (true, s) => mailDrain k (s.setMbox m l) m
      | (false, s) => s

/-- A message that has room enters a mailbox queue (R261): the answer says whether it was accepted. -/
def State.mailPush (s : State) (m msg : Nat) : Bool × State :=
  if (s.mbox m).length < 4 then (true, (s.setMbox m (s.mbox m ++ [msg])).mailDrain 4 m) else (false, s)

/-! ### Release -/

/-- The completion record of a task (Table DSP-7). -/
def Task.recordBytes (t : Task) (status : Nat) (late : Bool) (tb : Nat) : List Byte :=
  leBytes 4 t.tag ++ leBytes 1 status ++ leBytes 1 t.core ++ leBytes 1 (b2n late + 2 * b2n t.cancelSeen) ++ leBytes 1 0
    ++ leBytes 3 t.result ++ leBytes 1 0 ++ leBytes 4 tb

/-- A record is written to a completion queue, or dropped from a full one (R267). -/
def State.cqWrite (s : State) (t : Task) (q : Nat) (b : List Byte) : State :=
  let size := 2 ^ s.rd F.DSP_CQ_CFG.SIZE q
  let tail := s.rd F.DSP_CQ_TAIL.TAIL q
  let next := (tail + 1) % size
  if next = s.rd F.DSP_CQ_HEAD.HEAD q then
    (s.sat F.DSP_CQ_CFG.DROPS q).event 0x0713 sevWarn (sourceId 0x0713 0 q) (payload [(16, 4, t.tag), (20, 1, t.status)])
  else (s.put reqPager ((s.rd F.DSP_CQ_BASE.BASE q + tail) * 16) b).wr F.DSP_CQ_TAIL.TAIL next q

/-- SOURCE.UNIT of a task's events: its core, or 0x00FF (R273). -/
def Task.unit (t : Task) : Nat := t.core

/-- The effects of Table DSP-6 that a task which ran has before its completion. -/
def State.releaseRan (s : State) (t : Task) : State :=
  let s := s.onlyIf (t.handoff && t.hmode) fun s => s.poolFree t.hpool t.hbuf false reqPager
  let s := s.onlyIf t.flag fun s =>
    (s.setDsp { s.dsp with flags := Sparse.set (fun _ => false) s.dsp.flags t.flagnum t.flagval }).elaAgain
  s.onlyIf t.succSet fun s =>
    let f := s.fetchDesc t.succ
    let d := if t.handoff && !t.hmode then slice f.1 0 16 ++ leBytes 4 t.hbuf ++ slice f.1 20 44 else f.1
    let r := f.2.2.coreSubmit t.unit d f.2.1
    if r.1 then r.2 else r.2.xferError t.unit

/-- The reply of a task whose producer is a mailbox (Table DSP-6, order 1). -/
def State.releaseReply (s : State) (t : Task) : State :=
  match t.producer with
  | .entry i =>
    if t.reply && decide (80 ≤ i) && decide (i < 336) then
      let m := i - 80
      let r := s.memRead reqPager (s.descFar t.slot * 16 + 56) 8
      let v := if t.core = 0xFF then 0 else leNat (plain r.bytes)
      let s := if t.core = 0xFF then s else r.s
      (s.setMboxOut m ((s.mboxOut m).map fun e => if e.1 == t.slot then (16384, some v) else e)).drainReplies m
    else s
  | _ => s

/-- A task is released (R265 to R267): its effects in order, its completion, and its slot freed. -/
def State.release (s : State) (t : Task) : State :=
  let late := t.dlEn && decide (t.deadline < s.now)
  let status := if late && t.status == stDone then stLate else t.status
  let t := { t with status := status }
  let s := s.onlyIf late fun s =>
    s.event 0x0710 sevWarn (sourceId 0x0710 0 t.unit) (payload [(16, 4, t.tag), (20, 1, status), (24, 8, s.now)])
  let s := s.trcDisp (leBytes 1 0x11 ++ leBytes 4 t.tag ++ leBytes 1 status)
  let s := s.releaseReply t
  let s := if t.core = 0xFF then s else s.releaseRan t
  let s := match t.producer with
    | .host ref => s.complete ref status (t.tag + t.result * 2 ^ 32 + t.core * 2 ^ 56) t.cancelSeen
    | _ => s.onlyIf t.record fun s => s.cqWrite t t.cq (t.recordBytes status late s.now)
  s.setTasks (s.dsp.tasks.filter fun x => x.slot != t.slot) t.flow

/-- The earliest task of its flow that has ended, if it is the flow's earliest (R265). -/
def State.releasable (s : State) : Option Task :=
  s.dsp.tasks.find? fun t => t.phase == .ended &&
    ((s.dsp.tasks.takeWhile fun x => x.slot != t.slot).all fun x => x.flow != t.flow)

/-- Every release that is due, and the messages that then find room. -/
def State.releaseAll : Nat → State → State
  | 0, s => s.refresh
  | k + 1, s =>
    match s.releasable with
    | some t =>
      let s := s.release t
      let s := s.each (s.dsp.mbox.map (·.1)) fun s m => s.mailDrain 4 m
      releaseAll k s
    | none => s.refresh

/-- A task ends with a status: its release follows in its flow's order (R265). -/
def State.endTask (s : State) (slot status result : Nat) : State :=
  let s := s.updTask slot fun t => { t with phase := .ended, status := status, result := result }
  s.releaseAll s.dsp.tasks.length

/-- The open task of a core. -/
def State.openTask (s : State) (n : Nat) : Option Task :=
  if s.rdb F.SC_STATUS.TASK n then s.dsp.tasks.find? fun t => t.core == n && t.phase == .running else none

/-- A core's task-open state becomes 0. -/
def State.closeTask (s : State) (n : Nat) : State :=
  (((s.countCore n).wr F.SC_STATUS.TASK 0 n).wr F.SC_TASK.TAG 0 n).setMem { s.mem with descs := Sparse.erase s.mem.descs n }

/-- The open task of a core that halts or double-faults ends INCOMPLETE (R230, R267). -/
def State.failOpenTask (s : State) (n : Nat) : State :=
  match s.openTask n with
  | some t => (s.closeTask n).endTask t.slot stIncomplete 0
  | none => s

/-! ### Cancellation -/

/-- How a cancel fares (R268). -/
inductive CancelRes where
  | queued
  | running
  | refused

/-- A task named by flow and sequence number is cancelled (R268, R269): removed from its queue, or flagged to the core that
runs it. A granted task runs (R262); its copy in X is written only when its pages are loaded, and never in a secure range
(R227). -/
def State.cancelTask (s : State) (flow seq : Nat) : CancelRes × State :=
  match s.dsp.tasks.find? fun t => t.flow == flow && t.seq == seq with
  | none => (.refused, s)
  | some t =>
    let traced (s : State) : State := s.trcDisp (leBytes 1 0x12 ++ leBytes 4 t.tag)
    match t.phase with
    | .ended => (.refused, s)
    | .queued =>
      let s := s.updTask t.slot fun t => { t with core := 0xFF }
      (.queued, (traced s).endTask t.slot stCancelled 0)
    | p =>
      let far := s.descFar t.slot
      let s := s.put reqPager (far * 16 + 7) [1]
      let c := s.core t.core
      let a := s.rd F.DSP_XDESC.ADDR + 4
      let w := c.word false (a / 4)
      let c := c.setWord false (a / 4) ⟨BitVec.ofNat 32 (setBits w.v.toNat 24 24 1), w.p⟩
      let s := (if p = .running && !s.secureRange t.core false a then s.setCore t.core c else s).raiseLine t.core 2
      (.running, traced (s.updTask t.slot fun t => { t with cancelSeen := true }))

end Sys2Proof.Machine
end

