-- ==== Sys2Proof/Machine/Regions.lean ====
section
/-! DEFINITION. Regions (R76 to R106): halts, triggers, timed launch queues, deferred accesses and run control. -/

namespace Sys2Proof.Machine

/-! ### Halts -/

/-- A FRAME commit whose region halts before its point of no return completes ABORTED; the set stays staged (R403). -/
def State.commitRegionHalted (s : State) (r : Nat) : State :=
  match s.host.armed with
  | some a =>
    if a.mode = 1 ∧ a.region = r ∧ a.c = none then
      ((s.setHost { s.host with armed := none }).wr F.HST_STG_STATUS.ARMED 0).complete a.ref stAborted
    else s
  | none => s

/-- The regions of a mask. -/
def maskRegions (m : Nat) : List Nat := maskBits 16 m

/-- FAB_HALT commands complete when all their regions are HALTED (R105). -/
def State.haltsDone (s : State) : State :=
  let done := s.fab.haltCmds.filter fun c => (maskRegions c.2).all fun r => s.rstate r == rgHalted
  let s := (s.setFab { s.fab with haltCmds := s.fab.haltCmds.filter fun c => !done.contains c })
  s.each done fun s c => s.complete c.1 stDone

/-- A region executes nothing from here on (Table FRM-2): its switches carry nothing, its accesses are lost, and the
commands that wait for it are told (R72, R105, R403). -/
def State.stopRegion (s : State) (r : Nat) : State :=
  let x := s.rgn r
  let s := ((s.wr F.FAB_RGN_STATUS.STATE rgHalted r).wr F.FAB_RGN_STATUS.HALT_PENDING 0 r).wr F.FAB_RGN_STATUS.RESTING 0 r
  let s := s.setRgn r { fresh := x.fresh, timerNext := x.timerNext, lastTrig := x.lastTrig }
  let s := (s.setFab { s.fab with
    flights := s.fab.flights.filter fun f => f.region != r
    items := s.fab.items.filter fun i => i.region != r })
  let s := s.completeOpt x.single stIncomplete
  (s.commitRegionHalted r).haltsDone

/-- A region halts at once with a cause, which a halt already pending keeps out of HALT_CAUSE, but for an error cause on the
step of a FAB_HALT (R79, R106). -/
def State.stopNow (s : State) (r cause : Nat) : State :=
  (s.onlyIf (s.causeOpen r || (decide (cause < 0xFE) && (s.rgn r).hostHalt == some s.fab.g)) fun s =>
    s.wr F.FAB_RGN_STATUS.HALT_CAUSE cause r).stopRegion r

/-- The decided halt of a region has reached its class step count (R72). -/
def State.haltDue (s : State) (r : Nat) : Bool :=
  s.rlive r && match (s.rgn r).haltAt with
    | some k => decide (k ≤ s.count r)
    | none => false

/-- A halt that is due takes effect. -/
def State.takeHalt (s : State) (r : Nat) : State := s.onlyIf (s.haltDue r) fun s => s.stopRegion r

/-- REGION_HALT_TAKES_EFFECT (R72). -/
def execRegionHaltTakesEffect (r : BitVec 4) (s : State) : Host.Outcome State Fault Refusal :=
  .next (s.live fun s => s.takeHalt r.toNat)

/-- A rest is in progress. -/
def State.resting (s : State) : Bool := s.fab.rest == 1 || s.fab.rest == 2

/-- RESTING of a region: 1 while a rest holds it, WAITING or RUNNING (Table FRM-1). -/
def State.showResting (s : State) (r : Nat) : State :=
  s.wrb F.FAB_RGN_STATUS.RESTING (s.resting && s.deferred r && s.rlive r) r

/-! ### Events of regions -/

/-- An event of Table FRM-14 with the payload of Table FRM-15, for a frame and a step index of a region. -/
def State.rgnEventAt (s : State) (frame step code die unit a b c : Nat) : State :=
  s.event code sevError (sourceId code die unit)
    (payload [(16, 6, frame), (22, 2, step), (24, 1, a), (25, 1, b), (26, 6, c)])

/-- The same for the present frame and step index of region r. -/
def State.rgnEvent (s : State) (code die unit r a b c : Nat) : State :=
  s.rgnEventAt (s.frame r) (s.rd F.FAB_RGN_STATUS.STEP r) code die unit a b c

/-- The die named for a region: that of its lowest tile (notes/assumptions/23.md). -/
def State.rgnDie (s : State) (r : Nat) : Nat := 0x10 + tileDie (((maskBits 64 (s.tiles r)).head?).getD 0)

/-- A replay record of the step about to execute, where a primary forwards its inputs (R439). -/
def State.pairRec (s : State) (kind data : Nat) : State :=
  s.onlyIf s.forwards fun s => s.pairOut (.item ⟨kind, s.fab.cReflex % 2 ^ 32, data, 0⟩)

/-! ### Triggers (R82 to R87, R106) -/

/-- A field of FAB_RGN_TRIG, or FAB_RGN_PERIOD, as it judges what is recognised at the present step: a COMMIT of this step
applies to what is recognised after it (R87). -/
def State.trigNow (s : State) (f : Field) (r : Nat) : Nat :=
  match s.fab.trigWas.find? fun w => w.region == r with
  | some w => bits (if f.base == F.FAB_RGN_PERIOD.PERIOD.base then w.period else w.trig) f.hi f.lo
  | none => s.rd f r

/-- The frame counter of a region's next frame (R81). -/
def State.nextFrame (s : State) (r : Nat) : Nat := if (s.rgn r).fresh then 0 else (s.frame r + 1) % 2 ^ 48

/-- The frame of an accepted trigger is due at this step. -/
def State.frameDue (s : State) (r : Nat) : Bool :=
  s.rstate r == rgWaiting && match (s.rgn r).accepted with
    | some t => decide (t.e + t.lam ≤ s.fab.g)
    | none => false

/-- The frame counter of a reflex region on the step about to execute. -/
def State.frameAhead (s : State) (r : Nat) : Nat :=
  if s.frameDue r || (s.rstate r == rgRunning && s.rd F.FAB_RGN_STATUS.STEP r == 0) then s.nextFrame r else s.frame r

/-- A missed trigger (R82): counted, FRAME_OVERRUN with the frame and step index of the step of judgement, and the halt
timeline from here. -/
def State.missTrigger (s : State) (r gap frame step : Nat) : State :=
  ((s.sat F.FAB_RGN_MISSED.COUNT r).rgnEventAt frame step 0x0405 (s.rgnDie r) r (s.trigNow F.FAB_RGN_TRIG.MODE r) 0 gap).haltRegion r 0x05
    (s.count r + 32)

/-- The gap before a trigger recognised at step e, recorded in FAB_RGN_GAP (Table FRM-1). No trigger before it is a gap that
saturates (Table FRM-15, notes/assumptions/129.md). -/
def State.recordGap (s : State) (r e : Nat) : Nat × State :=
  let x := s.rgn r
  let s' := s.setRgn r { x with lastTrig := some e }
  match x.lastTrig with
  | some e0 =>
    let gap := min 0xFFFF (e - e0)
    (gap, (s'.wr F.FAB_RGN_GAP.LAST_GAP gap r).wr F.FAB_RGN_GAP.MIN_GAP (min gap (s.rd F.FAB_RGN_GAP.MIN_GAP r)) r)
  | none => (0xFFFF, s')

/-- A region that has not been started shows WAITING for the single frame of a FAB_FRAME only: it recognises no other trigger
before that frame (R105, notes/assumptions/84.md). -/
def State.pendingSingle (s : State) (r : Nat) : Bool :=
  let x := s.rgn r
  s.rstate r == rgWaiting && x.accepted.isSome && (x.singleHalt || (x.single.isSome && x.prior.1 != rgWaiting))

/-- A trigger recognised at the step about to execute, with its latency (R82, R87). A reflex region's is judged here; a
deferred region's outcome may lie ahead, and one that comes less than λ steps after an accepted one has none but to be missed
when it is judged. -/
def State.trigger (s : State) (r lam : Nat) (early : Bool := false) : State :=
  if !s.rlive r || s.haltDue r || s.pendingSingle r then s else
  let e := s.fab.g
  let (gap, s) := s.recordGap r e
  let x := s.rgn r
  let t : Trig := { e := e, lam := lam, anchor := some s.now, gap := gap, early := early }
  let step := s.rd F.FAB_RGN_STATUS.STEP r
  let len := s.rd F.FAB_RGN_CFG.LEN r
  let accept (s : State) : State := s.setRgn r { x with accepted := some t }
  let judge (s : State) : State := s.setRgn r { x with judge := x.judge ++ [t] }
  match x.accepted with
  | some a =>
    if s.deferred r then judge s
    -- the frame of the trigger before begins at this very step
    else if a.e + a.lam ≤ e ∧ x.next.isNone = true ∧ len ≤ lam then s.setRgn r { x with next := some t }
    else s.missTrigger r gap (s.frameAhead r) step
  | none =>
    if s.rstate r = rgWaiting then accept s
    else if s.deferred r then judge s
    else if len ≤ step + lam then accept s
    else s.missTrigger r gap (s.frameAhead r) step

/-- A CHAIN trigger recognised at the step that has just executed (R82); `step`: the step index that the region had on it. -/
def State.chainTrigger (s : State) (r e step : Nat) : State :=
  if !s.rlive r || s.pendingSingle r then s else
  let (gap, s) := s.recordGap r e
  let x := s.rgn r
  if x.accepted.isNone && s.rstate r == rgWaiting then
    s.setRgn r { x with accepted := some { e := e, lam := 1, anchor := some s.now, gap := gap } }
  else s.missTrigger r gap (s.frame r) step

/-- The step at which a TIMER region's period next expires, as it judges the present step (R87). -/
def State.timerStep (s : State) (r : Nat) : Nat :=
  match s.fab.trigWas.find? fun w => w.region == r with
  | some w => w.timerNext
  | none => (s.rgn r).timerNext

/-- A TIMER region's period has expired at the step about to execute (Table FRM-4). A region that runs a single frame and was
never started has no period. -/
def State.timerDue (s : State) (r : Nat) : Bool :=
  let next := s.timerStep r
  s.trigNow F.FAB_RGN_TRIG.MODE r == 1 && decide (next ≤ s.fab.g) && !((s.rgn r).singleHalt && next == 0) &&
    decide ((s.fab.g - next) % s.trigNow F.FAB_RGN_PERIOD.PERIOD r = 0)

/-- TIMER_TRIGGER (R82). -/
def State.timerTrigger (s : State) (r : Nat) : State :=
  if !s.rlive r || !s.timerDue r then s else
  let next := s.fab.g + s.trigNow F.FAB_RGN_PERIOD.PERIOD r
  let s := s.setRgn r { s.rgn r with timerNext := next }
  (s.setFab { s.fab with
    trigWas := s.fab.trigWas.map fun w => if w.region = r then { w with timerNext := next } else w }).trigger r 1 true

/-- TIMER_TRIGGER (R82). -/
def execTimerTrigger (r : BitVec 4) (s : State) : Host.Outcome State Fault Refusal :=
  .next (s.live fun s => s.timerTrigger r.toNat)

/-- An edge at clock-capable pin n triggers the regions that select it (R85). -/
def State.clkEdge (s : State) (n : Nat) (rising : Bool) : State :=
  s.each (List.range 16) fun s r =>
    s.onlyIf (s.trigNow F.FAB_RGN_TRIG.MODE r == 2 && s.trigNow F.FAB_RGN_TRIG.CLKPIN r == n
        && bit (s.trigNow F.FAB_RGN_TRIG.EDGE r) (b2n !rising)) fun s => s.trigger r 4 true

/-- UUTCLK_EDGE (R85). A lost supply samples 0 (R147); while replaying, a forwarded bank's edges come from its replayed
words (R440). -/
def execUutclkEdge (clk : BitVec 5) (rising : Bool) (s : State) : Host.Outcome State Fault Refusal :=
  .next <| s.live fun s =>
    let b := clk.toNat / 2
    s.onlyIf (s.rdb F.PIN_BANK_STAT.VIO_GOOD b && !(s.replaying && bit (s.rd F.PAIR_PINS.BANKS) b)) fun s =>
      s.clkEdge clk.toNat rising

/-- A HOST trigger, forwarded to a standby (R106, R439). -/
def State.hostTrigger (s : State) (r : Nat) : State := (s.pairRec 3 r).trigger r 1

/-- FRAME_DOORBELL (R106): a HOST trigger of a WAITING or RUNNING region in HOST mode; else discarded and counted. A
replaying standby takes HOST triggers from its records (R440). -/
def execFrameDoorbell (p : Port) (r : BitVec 4) (s : State) : Host.Outcome State Fault Refusal :=
  let r := r.toNat
  .next (
    if !s.hostOpen then s
    else if s.trigNow F.FAB_RGN_TRIG.MODE r == 4 && s.rlive r && !s.pendingSingle r then s.onlyIf (!s.replaying) fun s => s.hostTrigger r
    else s.badDoorbell (portNat p))

/-! ### Timed launch queues (R94 to R96) -/

/-- The entries of queue q. -/
def State.tlq (s : State) (q : Nat) : List TlqEntry := Sparse.get (fun _ => []) s.fab.tlq q

/-- The machine with a queue set, and its depth shown. -/
def State.setTlq (s : State) (q : Nat) (l : List TlqEntry) : State :=
  let s := ((s.setFab { s.fab with tlq := Sparse.set (fun _ => []) s.fab.tlq q l })).wr F.FAB_TLQ_STAT.DEPTH l.length q
  s.wr F.FAB_TLQ_STAT.MAX (max l.length (s.rd F.FAB_TLQ_STAT.MAX q)) q

/-- Entries that reach the head too late are discarded; one in time waits there for its instant (R95). -/
def State.tlqHead : Nat → State → Nat → State
  | 0, s, _ => s
  | k + 1, s, q =>
    match s.tlq q with
    | [] => s
    | e :: l =>
      if e.ready then s
      else if s.now + 16 ≤ e.t then s.setTlq q ({ e with ready := true } :: l)
      else
        let r := s.rd F.FAB_TLQ_STAT.REGION q
        tlqHead k (((s.setTlq q l).sat F.FAB_TLQ_LATE.COUNT q).rgnEvent 0x0408 0 r r q 0 (e.t % 2 ^ 48)) q

/-- A store to a queue (R94, R96): whether it was accepted, and the machine after it. -/
def State.tlqPush (s : State) (q anchor v : Nat) : Bool × State :=
  let l := s.tlq q
  if 256 ≤ l.length then (false, s) else
  let e : TlqEntry := ⟨(anchor + v / 2 ^ 24) % 2 ^ 64, bits v 23 16, bits v 15 8, bits v 7 0, false⟩
  (true, (s.setTlq q (l ++ [e])).tlqHead 257 q)

/-- TLQ_LAUNCH (R95): at the head entry's instant the selected pins owned TLQ change. -/
def State.tlqLaunch (s : State) (q : Nat) : State :=
  match s.tlq q with
  | [] => s
  | e :: l =>
    if !e.ready || decide (s.now < e.t) then s else
    let s := s.each (maskBits 8 e.select) fun s j => s.launchPin (8 * q + j) (bit e.value j) (bit e.enable j)
    (s.setTlq q l).tlqHead 257 q

/-- TLQ_LAUNCH (R95). -/
def execTlqLaunch (q : BitVec 6) (s : State) : Host.Outcome State Fault Refusal :=
  .next (s.live fun s => s.tlqLaunch q.toNat)

/-- The queues of a region are emptied without launching (R96). -/
def State.tlqFlush (s : State) (r : Nat) : State :=
  s.each (List.range 64) fun s q =>
    s.onlyIf (s.rdb F.FAB_TLQ_STAT.BOUND q && s.rd F.FAB_TLQ_STAT.REGION q == r) fun s => s.setTlq q []

/-! ### Deferred accesses (R92) -/

/-- The memory window a tile binds (R121): its target, and the byte address and size of the window. -/
def State.window (s : State) (tile : Nat) : Option (Target × Nat × Nat) :=
  match s.fab.bindings.find? fun b => b.kind == 1 && b.tile == tile with
  | some b =>
    if bit b.arg 7 then some (.part (b.arg % 128), s.partAddr (b.arg % 128) 0, s.rd F.MEM_PART_CFG.SIZE (b.arg % 128) * 2 ^ 26)
    else some (.bank (b.arg % 128), hbmBytes + b.arg % 128 * 2 ^ 21, 2 ^ 21)
  | none => none

/-- A memory request of a tile (R120, R342): the item with its answer, and the machine after it. A request that a drain
holds stays unsent (R345). An access that is refused halts the region (R80). -/
def State.issueMemory (s : State) (i : Item) : Item × State :=
  let tile := i.acc.tile
  let req := reqFabric i.region tile
  let ofs := bits i.req 103 64 / 8 * 8
  let store := i.acc.kind == 1
  match s.window tile with
  | none => (i, s)
  | some (t, base, size) =>
    let a := base + ofs
    if size ≤ ofs then
      ({ i with sent := true },
        (s.violationOn t req a (b2n store)).haltRegion i.region 0x10 (s.count i.region + 32))
    else if s.memHolds a && s.owns req a then (i, s)
    else if store then
      let w := s.memWrite req a ((leBytes 8 (i.req % 2 ^ 64)).map fun b => (b, false))
      ({ i with sent := true }, if w.bad then w.s.haltRegion i.region 0x10 (s.count i.region + 32) else w.s)
    else
      let r := s.memRead req a 8
      ({ i with sent := true, value := leNat (plain r.bytes), poison := poisoned r.bytes && !r.bad },
        if r.bad then r.s.haltRegion i.region 0x10 (s.count i.region + 32) else r.s)

/-- A request is presented to its buffer (R92): the item, taken or not, and the machine after it. -/
def State.issueItem (s : State) (i : Item) : Item × State :=
  match i.acc.kind with
  | 0 => s.issueMemory i
  | 1 => s.issueMemory i
  | 2 => let r := s.gwSend i.acc.unit (i.req % 2 ^ 64); ({ i with sent := r.1 }, r.2)
  | 3 => ({ i with sent := true }, s)
  | 4 => let r := s.mailPush i.acc.unit (i.req % 2 ^ 64); ({ i with sent := r.1 }, r.2)
  | _ => let r := s.tlqPush i.acc.unit i.anchor (i.req % 2 ^ 64); ({ i with sent := r.1 }, r.2)

/-- The word a gateway receive takes: the oldest received one, or, for a mirrored gateway of a replaying standby, the
oldest replayed one (R380, R440). -/
def State.gwReceive (s : State) (g : Nat) : Option (Nat × State) :=
  if s.replaying && bit (s.rd F.PAIR_GW.GATEWAYS) g then
    match s.pair.gwIn.find? fun e => e.1 == g with
    | some e => some (e.2, (s.setPair { s.pair with gwIn := s.pair.gwIn.erase e }))
    | none => none
  else
    match (s.gw g).rx with
    | [] => none
    | w :: l => some (w.1, s.setGw g { s.gw g with rx := l })

/-- The reply a replaying standby has received for a mailbox (R440). -/
def State.mailReceive (s : State) (m : Nat) : Option (Nat × State) :=
  if !s.replaying then none else
  match s.pair.mbIn.find? fun e => e.1 == m with
  | some e => some (e.2, (s.setPair { s.pair with mbIn := s.pair.mbIn.erase e }))
  | none => none

/-- The state of an item is replaced. -/
def State.putItem (s : State) (old new : Item) : State :=
  (s.setFab { s.fab with items := s.fab.items.map fun i => if i == old then new else i })

/-- An item that has been taken or returned: what is present of it (R92, R351). -/
def State.itemArrives (s : State) (i : Item) : State :=
  let (j, s) := if i.sent then (i, s) else s.issueItem i
  match j.acc.kind with
  | 3 =>
    (match s.gwReceive j.acc.unit with
     | some (v, s) => s.putItem i { j with present := true, value := v }
     | none => s.putItem i j)
  | 4 =>
    (match if j.sent then s.mailReceive j.acc.unit else none with
     | some (v, s) => s.putItem i { j with present := true, value := v }
     | none => s.putItem i j)
  | _ =>
    let s := s.putItem i { j with present := j.sent }
    if j.sent && j.poison then
      (s.poisonConsumed (reqFabric j.region j.acc.tile) (match s.window j.acc.tile with
        | some (_, b, _) => b + bits j.req 103 64 / 8 * 8
        | none => 0) 2).haltRegion j.region 0x12 (s.count j.region + 32)
    else s

/-- DEFERRED_ITEM_ARRIVAL (R98): the oldest access of a tile with a collect step that is not yet present. -/
def execDeferredItemArrival (tile : BitVec 6) (collect : BitVec 13) (s : State) : Host.Outcome State Fault Refusal :=
  .next <| s.live fun s =>
    match s.fab.items.find? fun i => i.acc.tile == tile.toNat && i.acc.collect == collect.toNat && !i.present with
    | some i => s.itemArrives i
    | none => s

/-! ### Rests (R97 to R101) -/

/-- RESTING of the global status and of every deferred region that is not stopped. -/
def State.showRest (s : State) : State :=
  ((s.wrb F.FAB_GLB_STATUS.RESTING s.resting).wrb F.FAB_GLB_STATUS.POWER_HOLD (s.fab.rest == 2)).each (List.range 16)
    State.showResting

/-- The item that a rest step finds missing: the one a REST_TIMEOUT of that step names. -/
def State.restMissing (s : State) (i : Item) : State := s.setFab { s.fab with missing := some i }

/-- A rest begins, charged to a source (Tables FRM-9, FRM-10). -/
def State.beginRest (s : State) (mode src : Nat) : State :=
  let s := (s.setFab { s.fab with rest := mode, restLen := 0, nonPower := 0, holdLen := 0, missing := none })
  ((s.sat64 F.FAB_REST_COUNT_LO.COUNT).sat F.FAB_REST_SRC.COUNT src).showRest

/-- A rest step is counted. -/
def State.restStep (s : State) : State :=
  let n := s.fab.restLen + 1
  let s := (s.setFab { s.fab with
    restLen := n
    nonPower := if s.fab.rest = 1 then s.fab.nonPower + 1 else s.fab.nonPower
    holdLen := if s.fab.rest = 2 then s.fab.holdLen + 1 else s.fab.holdLen })
  (s.sat64 F.FAB_REST_TOTAL_LO.TOTAL).wr F.FAB_REST_NOW.LENGTH (min n (2 ^ 32 - 1))

/-- A rest ends in RUN (0) or STOP (3); FAB_REST_MAX keeps the longest. -/
def State.endRest (s : State) (mode : Nat) : State :=
  let n := min s.fab.restLen (2 ^ 32 - 1)
  let s := (s.setFab { s.fab with rest := mode, restLen := 0, nonPower := 0, holdLen := 0 })
  ((s.wr F.FAB_REST_MAX.MAX (max n (s.rd F.FAB_REST_MAX.MAX))).wr F.FAB_REST_NOW.LENGTH 0).showRest

/-- The source an access waits for (Table FRM-10). -/
def State.restSource (s : State) (i : Item) : Nat :=
  match i.acc.kind with
  | 0 => (match s.window i.acc.tile with | some (.bank _, _) => 1 | _ => 0)
  | 1 => (match s.window i.acc.tile with | some (.bank _, _) => 1 | _ => 0)
  | 2 => 2
  | 3 => 2
  | 4 => 3
  | _ => 5

/-- The items that collect steps due on the next deferred step lack (R97). -/
def State.absentItems (s : State) : List Item :=
  s.fab.items.filter fun i => !i.present && s.rstate i.region == rgRunning && !s.haltDue i.region
    && i.acc.collect == s.rd F.FAB_RGN_STATUS.STEP i.region

/-- The first of a list of absent items by source (Table FRM-10). -/
def State.firstMissing (s : State) (l : List Item) : Option Item :=
  l.foldl (init := none) fun best i =>
    match best with
    | none => some i
    | some b => if s.restSource i < s.restSource b then some i else some b

/-- REST_TIMEOUT is due: the non-power steps of the rest have passed LIMIT (Table FRM-9). -/
def State.restLate (s : State) : Bool :=
  let lim := s.rd F.FAB_REST_LIMIT.LIMIT
  s.fab.rest == 1 && lim != 0 && decide (lim < s.fab.nonPower)

/-- REST_TIMEOUT (R99): every deferred region halts at once with cause 0x07; what arrives afterwards is discarded. The event
names the item that rest step LIMIT + 1 found missing, whatever has arrived since that step. -/
def State.restTimeout (s : State) : State :=
  if !s.restLate then s else
  let s := match s.fab.missing with
    | some i => s.rgnEvent 0x0407 0 0x0010 i.region (s.restSource i) i.acc.tile (s.rd F.FAB_REST_LIMIT.LIMIT)
    | none => s
  let s := s.each (List.range 16) fun s r => s.onlyIf (s.deferred r && s.rlive r) fun s => s.stopNow r 0x07
  (s.setFab { s.fab with items := [] }).endRest 3

/-- REST_TIMEOUT (R99). -/
def execRestTimeout (s : State) : Host.Outcome State Fault Refusal := .next (s.live State.restTimeout)

/-- A power hold has run its LEN steps (Table FRM-9). -/
def State.holdEnd (s : State) : State :=
  if s.fab.rest ≠ 2 ∨ s.fab.holdLen < s.rd F.FAB_PWR_HOLD.LEN then s
  else if s.absentItems.isEmpty then s.endRest 0
  else (s.setFab { s.fab with rest := 1, nonPower := 0 }).showRest

/-- POWER_HOLD_END (R101). -/
def execPowerHoldEnd (s : State) : Host.Outcome State Fault Refusal := .next (s.live State.holdEnd)

/-- A write of 1 to FAB_REST_CLR (R99). -/
def State.restClear (s : State) : State :=
  let s := ((s.wr F.FAB_REST_MAX.MAX 0).wr64 F.FAB_REST_TOTAL_LO.TOTAL 0).wr64 F.FAB_REST_COUNT_LO.COUNT 0
  s.each (List.range 6) fun s k => s.wr F.FAB_REST_SRC.COUNT 0 k

/-- FAB_REST_CLR (R99). -/
def execFabRestClr (value : BitVec 32) (s : State) : Host.Outcome State Fault Refusal :=
  .next (s.onlyIf (s.bar0Open 0x101038 && value.getLsbD 0) State.restClear)

/-! ### Clock failover (R102) -/

/-- Every WAITING or RUNNING region halts with cause 0x09 and raises CLOCK_FAIL (R102). -/
def State.clockFail (s : State) : State :=
  s.each (List.range 16) fun s r =>
    s.onlyIf (s.rlive r) fun s => (s.rgnEvent 0x0409 (s.rgnDie r) r r 0 0 0).stopNow r 0x09

/-! ### Run control (R105) -/

/-- Every region of a mask passes a test. -/
def State.allRegions (_s : State) (m : Nat) (p : Nat → Bool) : Bool := (maskRegions m).all p

/-- A region begins to wait, as FAB_START leaves it: no trigger before, no cause, gaps afresh (Table FRM-1,
notes/assumptions/129.md). -/
def State.startRegion (s : State) (r : Nat) : State :=
  let s := (s.wr F.FAB_RGN_STATUS.STATE rgWaiting r).wr F.FAB_RGN_STATUS.HALT_CAUSE 0 r
  let s := ((s.wr F.FAB_RGN_STATUS.STEP 0 r).wr F.FAB_RGN_GAP.MIN_GAP 0xFFFF r).wr F.FAB_RGN_GAP.LAST_GAP 0 r
  let s := (s.setRgn r { fresh := true }).showResting r
  match s.trigNow F.FAB_RGN_TRIG.MODE r with
  | 0 => s.setRgn r { s.rgn r with accepted := some { e := s.fab.g, lam := 0, anchor := none, gap := 0 } }
  | 1 => (s.setRgn r { s.rgn r with timerNext := s.fab.g + s.trigNow F.FAB_RGN_PERIOD.PERIOD r }).trigger r 1 true
  | _ => s

/-- From the first FAB_START after a load, pins owned FABRIC follow their latches again (R125). -/
def State.endQuiet (s : State) : State :=
  if !s.fab.quiet then s else
  let s := (s.setFab { s.fab with quiet := false })
  s.each (List.range 16) fun s b => s.onlyIf (s.rdb F.PIN_BANK_STAT.RELEASED b) fun s =>
    s.each (bankPins b) fun s p => s.onlyIf (s.padOwner p == 1) fun s => s.ownerTakes p

/-- The start step of a FAB_START is reached (R105). -/
def State.startRegions (s : State) (m : Nat) : State :=
  (s.endQuiet).each (maskRegions m) State.startRegion

/-- The operation of run control that a replay record carries (Table PAIR-3). -/
def runctl (op mask when_ keep : Nat) : Nat := op % 256 + mask * 2 ^ 8 + when_ % 4 * 2 ^ 24 + keep % 2 * 2 ^ 26

/-- WHEN of a command: 0 IMMEDIATE or 2 TB instant (R397). -/
def whenOk (w : Nat) : Bool := w == 0 || w == 2

/-- FAB_START (R105). -/
def execFabStart (ref : CmdRef) (mask : BitVec 16) (when_ : BitVec 8) (t : BitVec 64) (s : State) :
    Host.Outcome State Fault Refusal :=
  .next <| s.command ref 0x0402 fun s =>
    if mask = 0 ∨ !whenOk when_.toNat then s.complete ref stRange
    else if s.standbyLocked || !s.allRegions mask.toNat fun r => s.rstate r == rgStopped then s.complete ref stRefused
    else (s.setFab { s.fab with
      starts := s.fab.starts ++ [(⟨ref, mask.toNat, if when_ = 0 then 0 else t.toNat⟩ : StartCmd)] })

/-- FAB_START_STEP: a start step is reached, the next step of the step clock (R105). -/
def execFabStartStep (s : State) : Host.Outcome State Fault Refusal :=
  .next <| s.live fun s =>
    match s.fab.starts.find? fun c => decide (c.t ≤ s.now) with
    | none => s
    | some c =>
      let s := (s.setFab { s.fab with starts := s.fab.starts.erase c })
      if s.allRegions c.mask fun r => s.rstate r == rgStopped then
        ((s.pairRec 4 (runctl 0x02 c.mask 0 0)).startRegions c.mask).complete c.ref stDone s.now
      else s.complete c.ref stRefused

/-- FAB_HALT IMMEDIATE at the step about to execute, whose error causes come before its own (R105, R106). -/
def State.hostHalt (s : State) (r : Nat) : State :=
  let first := s.causeOpen r || (s.rgn r).hostHalt == some s.fab.g
  let s := s.haltRegion r 0xFF (s.count r + 32)
  s.onlyIf first fun s => s.setRgn r { s.rgn r with hostHalt := some s.fab.g }

/-- Regions are told to halt (R105): `atEnd` FRAME_END, which leaves the cause open until the frame ends, `flush` their queues. HALTED regions are unaffected. -/
def State.haltRegions (s : State) (m : Nat) (atEnd flush : Bool) : State :=
  s.each (maskRegions m) fun s r =>
    if !s.rlive r then s else
    let s := s.onlyIf flush fun s => s.tlqFlush r
    if !atEnd then s.hostHalt r
    else if s.rstate r = rgWaiting then s.stopNow r 0xFE
    else (s.setRgn r { s.rgn r with stopAtEnd := true }).wr F.FAB_RGN_STATUS.HALT_PENDING 1 r

/-- FAB_HALT (R105). -/
def execFabHalt (ref : CmdRef) (mask : BitVec 16) (when_ flush : BitVec 8) (s : State) :
    Host.Outcome State Fault Refusal :=
  .next <| s.command ref 0x0403 fun s =>
    if mask = 0 ∨ 1 < when_.toNat ∨ 1 < flush.toNat then s.complete ref stRange
    else if s.standbyLocked || !s.allRegions mask.toNat fun r => s.rlive r || s.rstate r == rgHalted then
      s.complete ref stRefused
    else
      let s := (s.pairRec 4 (runctl 0x03 mask.toNat (when_.toNat + 2 * flush.toNat) 0)).pastPoint ref
      let s := (s.setFab { s.fab with haltCmds := s.fab.haltCmds ++ [(ref, mask.toNat)] })
      (s.haltRegions mask.toNat (when_ = 1) (flush = 1)).haltsDone

/-- A region HALTED with cause 0xFE. -/
def State.haltedCleanly (s : State) (r : Nat) : Bool :=
  s.rstate r == rgHalted && s.rd F.FAB_RGN_STATUS.HALT_CAUSE r == 0xFE

/-- A region resumes (R105). -/
def State.resumeRegion (s : State) (r : Nat) : State :=
  let s := (s.wr F.FAB_RGN_STATUS.HALT_CAUSE 0 r).wr F.FAB_RGN_STATUS.STEP 0 r
  (s.wr F.FAB_RGN_STATUS.STATE (if s.rd F.FAB_RGN_TRIG.MODE r = 0 then rgRunning else rgWaiting) r).showResting r

/-- FAB_RESUME (R105). -/
def execFabResume (ref : CmdRef) (mask : BitVec 16) (s : State) : Host.Outcome State Fault Refusal :=
  .next <| s.command ref 0x0404 fun s =>
    if mask = 0 then s.complete ref stRange
    else if s.standbyLocked || !s.allRegions mask.toNat fun r => s.haltedCleanly r then s.complete ref stRefused
    else ((s.pairRec 4 (runctl 0x04 mask.toNat 0 0)).each (maskRegions mask.toNat) State.resumeRegion).complete ref stDone

/-- One frame of a region, or one HOST trigger (R105). A WAITING region in HOST mode whose accepted trigger's frame has not
begun misses this one; the anchor of a single frame is the TB at the command (notes/assumptions/130.md). -/
def State.frameOnce (s : State) (r : Nat) (ref : Option CmdRef) : State :=
  let mode := s.trigNow F.FAB_RGN_TRIG.MODE r
  let idle := s.rstate r != rgWaiting
  let prior := (s.rstate r, s.rd F.FAB_RGN_STATUS.HALT_CAUSE r)
  let s := s.onlyIf idle fun s =>
    (((s.wr F.FAB_RGN_STATUS.STATE rgWaiting r).wr F.FAB_RGN_STATUS.HALT_CAUSE 0 r).wr F.FAB_RGN_STATUS.STEP 0 r).showResting r
  if mode = 4 then
    if (s.rgn r).accepted.isSome then (s.trigger r 1).completeOpt ref stIncomplete
    else
      let s := s.trigger r 1
      s.setRgn r { s.rgn r with single := ref, prior := prior }
  else s.setRgn r { s.rgn r with
    accepted := some { e := s.fab.g, lam := 1, anchor := some s.now, gap := 0, early := mode == 1 || mode == 2 }
    single := ref, singleHalt := true, prior := prior }

/-- FAB_FRAME (R105). -/
def execFabFrame (ref : CmdRef) (region : BitVec 8) (s : State) : Host.Outcome State Fault Refusal :=
  let r := region.toNat
  .next <| s.command ref 0x0405 fun s =>
    if 15 < r then s.complete ref stRange
    else if s.standbyLocked || !(s.rstate r == rgStopped || s.haltedCleanly r
        || (s.rstate r == rgWaiting && s.rd F.FAB_RGN_TRIG.MODE r == 4)) then s.complete ref stRefused
    else (s.pairRec 4 (runctl 0x05 (2 ^ r) 0 0)).frameOnce r (some ref)

/-- The die crossing on a tile's link in a direction, if the link makes one. -/
def linkCrossing (tile dir : Nat) : Option Nat := (neighbour tile dir).bind (crossing tile)

/-- The crossings that a region of the loaded image uses: routes, and exchange latches that it writes, or reads by a route or
through a snapshot bit (R27, R89, R90, R127). -/
def State.usesCrossing (s : State) (r x : Nat) : Bool :=
  (s.fab.routes.any fun t => bit (s.tiles r) t.ptile &&
    (t.crossings.contains x || (t.pkind == 3 && linkCrossing t.ptile (t.pindex / 64 % 4) == some x)))
  || s.fab.bindings.any fun b => b.kind == 5 && bits b.arg 12 11 == 1 && bit (s.tiles r) b.tile
      && linkCrossing b.tile (bits b.arg 22 13 / 64 % 4) == some x

/-- Crossings that fail calibration (R127): XCAL_OK, the halted regions, and XCAL_FAIL. -/
def State.xcalFail (s : State) (failed : Nat) : State :=
  let hit := (List.range 16).filter fun r =>
    s.rdb F.FAB_RGN_CFG.EN r && (maskBits 4 failed).any fun x => s.usesCrossing r x
  let s := s.wr F.FAB_GLB_STATUS.XCAL_OK (s.rd F.FAB_GLB_STATUS.XCAL_OK &&& (15 - failed % 16))
  let s := s.each hit fun s r => (s.wr F.FAB_RGN_STATUS.STATE rgHalted r).wr F.FAB_RGN_STATUS.HALT_CAUSE 0x08 r
  s.event 0x040B sevError (sourceId 0x040B 0 0x0020)
    (payload [(16, 1, failed), (17, 2, hit.foldl (fun n r => n + 2 ^ r) 0)])

/-- What an unlisted DM bit (`kind` 0) or latch bit (1) reads as: 0, or undefined after a thermal trip (R103). -/
def State.fabDflt (s : State) (kind k : Nat) : Bool :=
  match s.fab.undef with
  | some seed => Config.freeBit seed kind k
  | none => false

/-- What a queue holds after a thermal trip: undefined, at most 256 entries (R94, R103). -/
def freeQueue (seed q : Nat) : List TlqEntry :=
  ((Config.freeTlq seed q).take 256).map fun e => ⟨e.1, e.2.1.toNat, e.2.2.1.toNat, e.2.2.2.toNat, false⟩

/-- The tile of an entry of the DM list, and of the latch list. -/
def dmTile (k : Nat) : Nat := k / 256 / 1024
def latchTile (k : Nat) : Nat := k / 64 / 4

/-- A region restarts (Table FRM-13). -/
def State.restartRegion (s : State) (r : Nat) (keepDm : Bool) : State :=
  let mine := bit (s.tiles r)
  let s := ((s.wr F.FAB_RGN_STATUS.STATE rgStopped r).wr F.FAB_RGN_STATUS.HALT_CAUSE 0 r).wr F.FAB_RGN_STATUS.STEP 0 r
  let s := (s.wr64 F.FAB_RGN_FRAME_LO.FRAME 0 r).wr64 F.FAB_RGN_ANCHOR_LO.ANCHOR 0 r
  let s := (s.wr F.FAB_RGN_GAP.MIN_GAP 0xFFFF r).wr F.FAB_RGN_GAP.LAST_GAP 0 r
  let s := (s.setRgn r {}).tlqFlush r
  let s := s.each (List.range 64) fun s q =>
    s.onlyIf (s.rdb F.FAB_TLQ_STAT.BOUND q && s.rd F.FAB_TLQ_STAT.REGION q == r) fun s => s.wr F.FAB_TLQ_STAT.MAX 0 q
  (s.setFab { s.fab with
      dm := if keepDm then s.fab.dm else Sparse.keep (fun k => !mine (dmTile k)) s.fab.dm
      latches := Sparse.keep (fun k => !mine (latchTile k)) s.fab.latches
      flights := s.fab.flights.filter fun f => f.region != r
      items := s.fab.items.filter fun i => i.region != r })

/-- Regions restart, and the die crossings that no RUNNING or WAITING region uses are calibrated again; `failing`: those
that fail (R105, R127). The answer is the mask of the failures. -/
def State.restartRegions (s : State) (m : Nat) (keepDm : Bool) (failing : Nat) : Nat × State :=
  let s := s.each (maskRegions m) fun s r => s.restartRegion r keepDm
  let free := (List.range 4).filter fun x => !(List.range 16).any fun r => s.rlive r && s.usesCrossing r x
  let failed := (free.filter (bit failing)).foldl (fun n x => n + 2 ^ x) 0
  let s := (s.setFab { s.fab with drift := Sparse.keep (fun x => !free.contains x) s.fab.drift })
  let s := s.wr F.FAB_GLB_STATUS.XCAL_OK (free.foldl (fun n x => n ||| 2 ^ x) (s.rd F.FAB_GLB_STATUS.XCAL_OK))
  (failed, s.onlyIf (failed != 0) fun s => s.xcalFail failed)

/-- FAB_RESTART (R105). `failing`: the die crossings whose calibration would fail. -/
def execFabRestart (ref : CmdRef) (mask : BitVec 16) (keepDm : BitVec 8) (failing : BitVec 4) (s : State) :
    Host.Outcome State Fault Refusal :=
  .next <| s.command ref 0x0406 fun s =>
    if mask = 0 ∨ 1 < keepDm.toNat then s.complete ref stRange
    else if s.standbyLocked || !s.allRegions mask.toNat fun r => s.rstate r == rgStopped || s.rstate r == rgHalted then
      s.complete ref stRefused
    else
      let r := (s.pairRec 4 (runctl 0x06 mask.toNat 0 keepDm.toNat)).restartRegions mask.toNat (keepDm = 1) failing.toNat
      r.2.complete ref (if r.1 = 0 then stDone else stIncomplete)

/-- Run control as a replay record carries it (R440, Table PAIR-3), where its precondition holds. -/
def State.replayRunctl (s : State) (data : Nat) : State :=
  let m := bits data 23 8
  match data % 256 with
  | 0x02 => s.onlyIf (s.allRegions m fun r => s.rstate r == rgStopped) fun s => s.startRegions m
  | 0x03 => s.onlyIf (s.allRegions m fun r => s.rlive r || s.rstate r == rgHalted) fun s =>
      s.haltRegions m (bit data 24) (bit data 25)
  | 0x04 => s.onlyIf (s.allRegions m fun r => s.haltedCleanly r) fun s => s.each (maskRegions m) State.resumeRegion
  | 0x05 => s.each (maskRegions m) fun s r => s.frameOnce r none
  | 0x06 => s.onlyIf (s.allRegions m fun r => s.rstate r == rgStopped || s.rstate r == rgHalted) fun s =>
      (s.restartRegions m (bit data 26) 0).2
  | _ => s

/-! ### Committed changes (R87) -/

/-- A committed FAB_RGN_TRIG or FAB_RGN_PERIOD of region r at step c, the next step of the step clock: until that step has
executed, `trig` and `period`, the words before the commit, judge what is recognised (R87). -/
def State.trigCommitted (s : State) (r trig period : Nat) : State :=
  s.onlyIf (!s.fab.trigWas.any fun w => w.region == r) fun s =>
    s.setFab { s.fab with trigWas := s.fab.trigWas ++ [⟨r, trig, period, (s.rgn r).timerNext⟩] }

/-- Step c has executed: a TIMER region restarts its period count at step c + 1, and a WAITING region whose MODE became FREE
begins its next frame (R87). -/
def State.trigTakes (s : State) (w : TrigWas) : State :=
  let r := w.region
  let mode := s.rd F.FAB_RGN_TRIG.MODE r
  if mode = 1 then
    s.setRgn r { s.rgn r with timerNext := s.fab.g + 1 + s.rd F.FAB_RGN_PERIOD.PERIOD r }
  else if mode = 0 ∧ bits w.trig 2 0 ≠ 0 ∧ s.rstate r = rgWaiting then
    s.setRgn r { s.rgn r with accepted := some { e := s.fab.g, lam := 1, anchor := none, gap := 0 } }
  else s

/-- The triggers committed for the step that has executed. -/
def State.trigsTake (s : State) : State :=
  let s := s.each s.fab.trigWas State.trigTakes
  s.setFab { s.fab with trigWas := [] }

end Sys2Proof.Machine
end

