-- ==== Sys2Proof/Machine/Fabric.lean ====
section
/-! DEFINITION. One step of the fabric (R46 to R58, R63 to R72, R81, R90 to R101, R148 to R155). -/

namespace Sys2Proof.Machine

/-! ### What a Boolean processor reads (R46 to R58) -/

/-- Fields of a BP instruction (Table FAB-1). -/
def iTT (w : Nat) : Nat := bits w 63 48
def iOps (w : Nat) : List Nat := [bits w 47 39, bits w 38 30, bits w 29 21, bits w 20 12]
def iDST (w : Nat) : Nat := bits w 11 4
def iWEN (w : Nat) : Bool := bit w 3
def iSEND (w : Nat) : Bool := bit w 2
def iLAST (w : Nat) : Bool := bit w 1
def iNOP (w : Nat) : Bool := bit w 0

/-- A value that has reached an arrival port: BP, port, tag, bit. -/
structure Arrival where
  bp : Nat
  port : Nat
  tag : Nat
  val : Bool

/-- What an arrival port holds at a step. -/
inductive PortState where
  | empty
  | collided
  | value (tag : Nat) (v : Bool)
  | snapshot (v : Bool)

/-- The content of port p of a BP, from what is delivered to it (R55, R57, R58). -/
def portState (arr : List Arrival) (snap : List (Nat × Bool)) (bp p : Nat) : PortState :=
  let a := arr.filter fun x => x.bp == bp && x.port == p
  let b := if p = 3 then snap.filter fun x => x.1 == bp else []
  match a, b with
  | [], [] => .empty
  | [x], [] => .value x.tag x.val
  | [], [y] => .snapshot y.2
  | _, _ => .collided

/-- The value of an operand, and the port it finds without the content expected (R48, R56, R57). -/
def readOperand (dm : Nat → Bool) (ports : Nat → PortState) (first : Bool) (sel : Nat) : Bool × Option Nat :=
  if sel < 256 then (dm sel, none)
  else if sel < 260 then
    match ports (sel - 256) with
    | .value _ v => (v, none)
    | .collided => (false, none)
    | _ => (false, some (sel - 256))
  else if sel = 261 then (true, none)
  else if sel = 262 then (first, none)
  else if sel = 263 then
    match ports 3 with
    | .snapshot v => (v, none)
    | .collided => (false, none)
    | _ => (false, some 3)
  else (false, none)

/-- The result of a truth table (R47). -/
def ttResult (tt : Nat) (ops : List Bool) : Bool := bit tt (ops.foldr (fun b n => b2n b + 2 * n) 0)

/-- What one instruction does at a step. -/
structure BpOut where
  bp : Nat
  word : Nat
  val : Bool
  found : List Detection

/-- A detection at an arrival port (Table FAB-10). -/
def portDetection (kind r bp port exp got : Nat) : Detection :=
  ⟨kind, r, bp / 1024, bp / 64 % 16, port, bp % 64, exp, got, 0, 0⟩

/-- What the arrival ports of the BPs that execute an instruction find in what reaches them: a tag that is not the class step
count modulo 16 (R64), then two deliveries at one port (R58). -/
def arrivalChecks (r tag : Nat) (arr : List Arrival) (snap : List (Nat × Bool)) : List Detection :=
  (arr.filter fun x => x.tag != tag).map (fun x => portDetection 1 r x.bp x.port tag x.tag)
    ++ ((arr.map fun (x : Arrival) => (x.bp, x.port)) ++ snap.map fun (x : Nat × Bool) => (x.1, 3)).eraseDups.filterMap
      fun (k : Nat × Nat) =>
      match portState arr snap k.1 k.2 with
      | .collided => some (portDetection 2 r k.1 k.2 0 0)
      | _ => none

/-- One instruction of a BP of a region (R50). -/
def State.bpStep (s : State) (r : Nat) (arr : List Arrival) (snap : List (Nat × Bool)) (first : Bool) (bp word : Nat) : BpOut :=
  let ops := (iOps word).map (readOperand (fun a => Sparse.get (s.fabDflt 0) s.fab.dm (bp * 256 + a)) (portState arr snap bp) first)
  ⟨bp, word, ttResult (iTT word) (ops.map (·.1)),
    (ops.filterMap (·.2)).eraseDups.map fun p => portDetection 3 r bp p 0 0⟩

/-- The instructions that a region executes at its step index: every entry of its tiles' stores at B + i that is no NOP
(R52, R76). -/
def State.fetchBps (s : State) (r i : Nat) : List (Nat × Nat) :=
  let a := s.rd F.FAB_RGN_CFG.BASE r + i
  (s.fab.istore.filter fun e => e.1 % 8192 == a && bit (s.tiles r) (e.1 / 8192 / 1024) && !iNOP e.2.toNat).map
    fun e => (e.1 / 8192, e.2.toNat)

/-! ### Snapshots (R90) -/

/-- The latch that a reading tile sees on its side `dir`, in a lane (R89). -/
def State.latchSeen (s : State) (tile dir lane : Nat) : Bool :=
  match neighbour tile dir with
  | some w => Sparse.get (s.fabDflt 1) s.fab.latches ((w * 4 + opposite dir) * 64 + lane)
  | none => false

/-- The snapshot bits of a region as they are at this step, from the samples and the ELA signals. -/
def State.snapshot (s : State) (r : Nat) (samples : BitVec 512) (ela : BitVec 1024) : List (Nat × Bool) :=
  (s.fab.bindings.filter fun b => b.kind == 5 && bit (s.tiles r) b.tile).map fun b =>
    let x := bits b.arg 22 13
    ((b.tile * 16 + bits b.arg 10 7) * 128 + bits b.arg 6 0,
      match bits b.arg 12 11 with
      | 0 => samples.getLsbD x
      | 1 => s.latchSeen b.tile (x / 64 % 4) (x % 64)
      | _ => ela.getLsbD x)

/-- Snapshot bits are latched. -/
def State.setSnaps (s : State) (l : List (Nat × Bool)) : State :=
  (s.setFab { s.fab with snaps := l.foldl (fun m e => Sparse.set (fun _ => false) m e.1 e.2) s.fab.snaps })

/-- At the recognition step of a TIMER or UUTCLK trigger the snapshot of its frame is latched (R90). -/
def State.latchRecognised (s : State) (r : Nat) (samples : BitVec 512) (ela : BitVec 1024) : State :=
  let x := s.rgn r
  let latch (t : Trig) : Trig := if t.early && t.e == s.fab.g then { t with snap := some (s.snapshot r samples ela) } else t
  s.onlyIf (s.deferred r && ((x.accepted.toList ++ x.judge).any fun t => t.early && t.e == s.fab.g)) fun s =>
    s.setRgn r { x with accepted := x.accepted.map latch, judge := x.judge.map latch }

/-! ### Frames (R81, R83) -/

/-- Step index 0 executes: frame counter, anchor and snapshots (R81, R83, R90). `anchors`: replayed anchors by region. -/
def State.beginFrame (s : State) (r : Nat) (anchors : List (Nat × Nat)) (samples : BitVec 512) (ela : BitVec 1024) : State :=
  let x := s.rgn r
  let own := match x.accepted with
    | some t => t.anchor.getD s.now
    | none => s.now
  let anchor := match anchors.find? fun e => e.1 == r with
    | some e => e.2
    | none => own
  let s := s.wr64 F.FAB_RGN_FRAME_LO.FRAME (s.nextFrame r) r
  let s := s.wr64 F.FAB_RGN_ANCHOR_LO.ANCHOR anchor r
  let s := s.onlyIf (s.deferred r) fun s => s.setSnaps ((x.accepted.bind (·.snap)).getD (s.snapshot r samples ela))
  let s := match x.single with
    | some ref => s.pastPoint ref
    | none => s
  (s.setRgn r { x with accepted := x.next, next := none, fresh := false }).pairRec 2 (r * 2 ^ 32 + anchor % 2 ^ 32)

/-- A FRAME commit gets its instant from the frame end of its region (R403). -/
def State.commitFrame (s : State) (r : Nat) : State :=
  match s.host.armed with
  | some a =>
    if a.mode = 1 ∧ a.region = r ∧ a.armed = true ∧ a.c = none then
      (s.setHost { s.host with armed := some { a with c := some (s.now + 32) } }).pastPoint a.ref
    else s
  | none => s

/-- A frame that ends at step g accepts the first trigger still to be judged, if it ends by step e + λ − 1 (R82). -/
def RgnSt.acceptJudged (x : RgnSt) (g : Nat) : RgnSt :=
  match x.judge with
  | t :: l => if x.accepted.isNone && decide (g < t.e + t.lam) then { x with accepted := some t, judge := l } else x
  | [] => x

/-- The PROBE sample of a region's frame for a channel (Table CAP-1): anchor, frame counter, the selected groups of probe bits;
a bit that no binding of the region feeds reads 0. -/
def State.probeSample (s : State) (r c : Nat) : List Byte :=
  let probe (k : Nat) : Bool := Sparse.get (fun _ => false) s.fab.probes k &&
    s.fab.bindings.any fun b => b.kind == 6 && bits b.arg 11 0 == k && bit (s.tiles r) b.tile
  leBytes 8 (s.rd64 F.FAB_RGN_ANCHOR_LO.ANCHOR r) ++ leBytes 6 (s.frame r) ++ leBytes 2 0
    ++ (maskBits 64 (s.capSel c)).flatMap fun g => packBits ((List.range 64).map fun j => probe (64 * g + j))

/-- Step index L − 1 has executed at step g (R81, R82, R105), and a PROBE source presents its sample (R319). -/
def State.endFrame (s : State) (r : Nat) : State :=
  let s := s.capFeed 4 r 0 s.now false (fun _ => true) (s.probeSample r)
  let s := (s.commitFrame r).wr F.FAB_RGN_STATUS.STEP 0 r
  let x := s.rgn r
  if x.stopAtEnd || x.singleHalt then
    let s := s.setRgn r { x with single := none }
    (s.completeOpt x.single stDone).stopNow r 0xFE
  else
    let s := s.setRgn r { x.acceptJudged s.fab.g with single := none }
    let s := s.completeOpt x.single stDone
    if s.rd F.FAB_RGN_TRIG.MODE r = 0 then s else s.wr F.FAB_RGN_STATUS.STATE rgWaiting r

/-- The triggers of a deferred region whose outcome is fixed at this step as missed (R82). `step`: the step index that the
region had on this step. -/
def State.judgeMissed (s : State) (r step : Nat) : State :=
  let due (t : Trig) : Bool := decide (t.e + t.lam ≤ s.fab.g + 1)
  let x := s.rgn r
  s.onlyIf (x.judge.any due) fun s =>
    (s.setRgn r { x with judge := x.judge.filter fun t => !due t }).each (x.judge.filter due) fun s t => s.missTrigger r t.gap (s.frame r) step

/-! ### Pins (R144, R151 to R155) -/

/-- The receiver samples of a pin during a step, tap by tap from its start: those given, else the level sampled throughout. -/
def tapsOf (inp : StepIn) (samples : BitVec 512) (p : Nat) : Nat :=
  match inp.windows.find? fun e => e.1.toNat == p with
  | some e => e.2.toNat
  | none => if samples.getLsbD p then 2 ^ 160 - 1 else 0

/-- The window of a pin's compare: the WIDTH + 1 samples from tap WSTART to tap WSTART + WIDTH (R152). -/
def State.windowOf (s : State) (inp : StepIn) (samples : BitVec 512) (p : Nat) : Nat :=
  let w := s.rd F.PIN_CMP_CFG.WSTART p
  bits (tapsOf inp samples p) (w + s.rd F.PIN_CMP_CFG.WIDTH p) w

/-- A failing compare: its mask, the expected value and the window's samples. -/
structure CmpFail where
  w : PinWrite
  expect : Bool
  win : Nat

/-- The compare that a mask strobes, if it takes place and fails (R151, R152): none while the strobing region does not run, or
from a load's point of no return until the first FAB_START (R155). -/
def State.compare (s : State) (inp : StepIn) (samples : BitVec 512) (w : PinWrite) : Option CmpFail :=
  let p := w.pin
  if !w.val || !s.rdb F.PIN_CMP_CFG.EN p || !s.rdb F.PIN_BANK_STAT.VIO_GOOD (p / 32) || s.fab.quiet
      || s.rstate w.region != rgRunning then none else
  let n := s.rd F.PIN_CMP_CFG.WIDTH p + 1
  let win := s.windowOf inp samples p
  let expect := Sparse.get (fun _ => false) s.pin.expected p
  if win = (if expect then 2 ^ n - 1 else 0) then none else some ⟨w, expect, win⟩

/-- The first-fail record of a bank is filled, or shows MORE (R154); the answer says whether it was filled. -/
def State.pinFirstFail (s : State) (f : CmpFail) : Bool × State :=
  let p := f.w.pin
  let b := p / 32
  let r := f.w.region
  if s.rdb F.PIN_FF_STAT.VALID b then (false, s.wr F.PIN_FF_STAT.MORE 1 b) else
  let n := s.rd F.PIN_CMP_CFG.WIDTH p + 1
  let s := ((s.wr F.PIN_FF_STAT.VALID 1 b).wr F.PIN_FF_STAT.REGION r b).wrb F.PIN_FF_STAT.UNSTABLE
    (f.win != 0 && f.win != 2 ^ n - 1) b
  let s := ((s.wrb F.PIN_FF_STAT.EXPECTED f.expect b).wrb F.PIN_FF_STAT.OBSERVED (bit f.win 0) b).wr F.PIN_FF_STAT.PIN p b
  (true, ((s.wr F.PIN_FF_STEP.STEP (s.rd F.FAB_RGN_STATUS.STEP r) b).wr64 F.PIN_FF_FRAME_LO.FRAME (s.frame r) b).wr64
    F.PIN_FF_TB_LO.TB s.now b)

/-- The effects of a fail (R153). `go`: whether the deferred count advances on this step. -/
def State.compareFail (s : State) (go : Bool) (f : CmpFail) : State :=
  let p := f.w.pin
  let b := p / 32
  let s := s.sat F.PIN_CMP_CNT.FAILS p
  let s := s.onlyIf (s.rdb F.PIN_CMP_CFG.CAPTURE p) fun s =>
    (s.setPins { s.pin with failLines := s.pin.failLines ++ [p] }).capNotify 6 b 0
  let hit := if s.rdb F.PIN_CMP_CFG.HALT p then
    (maskRegions (s.rd F.PIN_CMP_HALT.REGIONS b)).filter fun r => s.rlive r else []
  let (filled, s) := s.pinFirstFail f
  let r := f.w.region
  let s := s.onlyIf (filled && s.rdb F.PIN_CMP_CFG.EVENT p) fun s =>
    s.event 0x0601 sevInfo (sourceId 0x0601 0 b)
      (payload [(16, 6, s.frame r), (22, 2, s.rd F.FAB_RGN_STATUS.STEP r), (24, 2, p),
        (26, 1, r + 16 * s.rd F.PIN_FF_STAT.OBSERVED b + 32 * b2n f.expect + 64 * s.rd F.PIN_FF_STAT.UNSTABLE b
          + 128 * b2n (!hit.isEmpty))])
  s.each hit fun s r => s.haltRegion r 0x11 (s.count r + (if s.deferred r && !go then 0 else 1) + 32)

/-- What takes effect at the pins at this step: expected values, then compares, then drives, then the settings committed for
it, which so find the latch as the drives leave it (R144, R145, R146, R151). -/
def State.pinEffects (s : State) (inp : StepIn) (samples : BitVec 512) (go : Bool) : State :=
  let now := s.fab.pinWrites.filter fun w : PinWrite => w.at_ == s.fab.g
  let s := (s.setFab { s.fab with pinWrites := s.fab.pinWrites.filter fun w => w.at_ != s.fab.g })
  let s := (s.setPins { s.pin with
    failLines := []
    expected := (now.filter fun w : PinWrite => w.kind == 2).foldl
      (fun m (w : PinWrite) => Sparse.set (fun _ => false) m w.pin w.val) s.pin.expected })
  let fails := (List.range 512).filterMap fun p =>
    match now.find? fun w : PinWrite => w.kind == 3 && w.pin == p with
    | some w => s.compare inp samples w
    | none => none
  let s := s.each fails fun s f => s.compareFail go f
  (s.each (now.filter fun w : PinWrite => w.kind == 1) fun s w => s.drivePin w.pin w.val).pinsTake

/-! ### The step -/

/-- Values that meet another one in an output lane at this step (R71). -/
def State.laneClash (s : State) (l : List Flight) : List (Flight × LaneKey) :=
  let at_ (f : Flight) : Option LaneKey :=
    ((s.routeLanes f.route).find? fun e => e.1 == s.count f.region - f.start).map (·.2)
  l.filterMap fun f =>
    match at_ f with
    | some k => if l.any fun f' => !f.forkOf f' && at_ f' == some k then some (f, k) else none
    | none => none

/-- New flights of a region at its step index (R64, R69, R70, R89, R92): the routes of its producing steps. -/
def State.launch (s : State) (r i : Nat) (outs : List BpOut) (old : BitVec 512) (ela : BitVec 1024) : List Flight :=
  let c := s.count r
  let mk (t : Route) (v : Bool) : Flight := ⟨r, t, c, (c + t.tag + 16 - t.pstep % 16) % 16, v⟩
  s.fab.routes.filterMap fun t =>
    if t.pstep ≠ i ∨ !bit (s.tiles r) t.ptile then none else
    match t.pkind with
    | 0 =>
      (match outs.find? fun o => o.bp == t.ptile * 1024 + t.pcluster * 64 + t.pbp && iSEND o.word with
       | some o => some (mk t o.val)
       | none => none)
    | 1 => some (mk t (old.getLsbD t.pindex))
    | 2 => some (mk t (ela.getLsbD t.pindex))
    | 3 => some (mk t (s.latchSeen t.ptile (t.pindex / 64 % 4) (t.pindex % 64)))
    | _ =>
      (match s.fab.items.find? fun x => x.acc.tile == t.ptile && x.acc.collect == i with
       | some x => some (mk t (bit x.value (t.pindex % 64)))
       | none => none)

/-- A value that arrives elsewhere than at a BP's port (Table GRI-5): a pin, an ELA crossing bit or an exchange latch. -/
def State.deliver (s : State) (f : Flight) : State :=
  let t := f.route
  match t.ckind with
  | 0 => s
  | 4 => (s.setFab { s.fab with elaOut := Sparse.set (fun _ => false) s.fab.elaOut t.cindex f.val })
  | 5 => (s.setFab { s.fab with
      latches := Sparse.set (s.fabDflt 1) s.fab.latches ((t.ctile * 4 + t.cindex / 64 % 4) * 64 + t.cindex % 64) f.val })
  | 6 => s
  | k => (s.setFab { s.fab with
      pinWrites := s.fab.pinWrites ++ [(⟨s.fab.g + 2, k, t.cindex, f.val, f.region⟩ : PinWrite)] })

/-- The 128-bit request that routes deliver to a tile at this step (R120). -/
def requestOf (arrived : List Flight) (tile : Nat) : Nat :=
  (arrived.filter fun f => f.route.ckind == 6 && f.route.ctile == tile && f.val).foldl
    (fun n f => setBits n (f.route.cindex % 128) (f.route.cindex % 128) 1) 0

/-- The accesses of a deferred region at its step index: collected items leave, new ones issue (R92). -/
def State.accessStep (s : State) (r i : Nat) (arrived : List Flight) : State :=
  let s := (s.setFab { s.fab with items := s.fab.items.filter fun x => !(x.region == r && x.acc.collect == i) })
  s.each (s.fab.accesses.filter fun a => a.issue == i && bit (s.tiles r) a.tile) fun s a =>
    let x := s.issueItem ⟨r, a, requestOf arrived a.tile, s.rd64 F.FAB_RGN_ANCHOR_LO.ANCHOR r, false, false, 0, false⟩
    { x.2 with fab := { x.2.fab with items := x.2.fab.items ++ [x.1] } }

/-- Probe bits fed by BP results at this step index (Table GRI-8). -/
def State.probeStep (s : State) (r i : Nat) (outs : List BpOut) : State :=
  s.each (s.fab.bindings.filter fun b => b.kind == 6 && b.step == i && bit (s.tiles r) b.tile) fun s b =>
    match outs.find? fun o => o.bp == b.tile * 1024 + bits b.arg 15 12 * 64 + bits b.arg 21 16 with
    | some o => (s.setFab { s.fab with probes := Sparse.set (fun _ => false) s.fab.probes (bits b.arg 11 0) o.val })
    | none => s

/-- What the instructions of a region do (R50 to R58): detections, DM writes, sends, probes and accesses. What arrives at a BP
whose step is a NOP is discarded (R52). -/
def State.regionStep (s : State) (r : Nat) (arrived : List Flight) (old : BitVec 512) (ela : BitVec 1024) : State :=
  let i := s.rd F.FAB_RGN_STATUS.STEP r
  let mine := arrived.filter fun f => f.region == r
  let code := s.fetchBps r i
  let awake (bp : Nat) : Bool := code.any fun e => e.1 == bp
  let arr := ((mine.filter fun f => f.route.ckind == 0).map fun f =>
    (⟨f.route.ctile * 1024 + f.route.ccluster * 64 + f.route.cbp, f.route.cport, f.tag, f.val⟩ : Arrival)).filter fun x => awake x.bp
  let snap := (s.fab.snapLanes.filter fun x => x.step == i && bit (s.tiles r) (x.bp / 1024) && awake x.bp).map fun x =>
    (x.bp, Sparse.get (fun _ => false) s.fab.snaps (x.bp / 64 * 128 + x.bitNo))
  let outs := code.map fun e => s.bpStep r arr snap (i == 0 && s.frame r == 0) e.1 e.2
  let new := s.launch r i outs old ela
  let s := s.each (arrivalChecks r (s.count r % 16) arr snap ++ outs.flatMap (·.found)) State.detect
  let dm := (outs.filter fun o => iWEN o.word).foldl
    (fun m o => Sparse.set (s.fabDflt 0) m (o.bp * 256 + iDST o.word) o.val) s.fab.dm
  let s := (s.setFab { s.fab with dm := dm, flights := s.fab.flights ++ new })
  let s := s.probeStep r i outs
  s.onlyIf (s.deferred r) fun s => s.accessStep r i mine

/-- A faulty reflex tile presents a deferred-only request (R88): dropped, raised, and the region halts. -/
def State.reflexViolation (s : State) (tile kind : Nat) : State :=
  match s.regionOf tile with
  | some r => s.onlyIf (!s.deferred r && s.rstate r == rgRunning) fun s =>
      (s.rgnEvent 0x0406 (0x10 + tileDie tile) r r tile kind 0).haltRegion r 0x06 (s.count r + 32)
  | none => s

/-- Whether the deferred set executes on this step, with the rest controller's move (Table FRM-9). -/
def State.restGate (s : State) : Bool × State :=
  if s.fab.rest = 2 then (false, s.restStep)
  else
    match s.firstMissing s.absentItems with
    | some i => (false,
        ((if s.fab.rest = 1 then s else s.beginRest 1 (s.restSource i)).restMissing i).restStep)
    | none => (true, if s.fab.rest = 1 then s.endRest 0 else s)

/-- The drift of the die crossings is what it now is. -/
def State.setDrift (s : State) (l : List (BitVec 2 × Int)) : State :=
  (s.setFab { s.fab with drift := l.foldl (fun m e => Sparse.set (fun _ => 0) m e.1.toNat e.2) s.fab.drift })

/-- One step of the step clock (R50, R63, R81, R97). `pins`: what the input samplers take, and `anchors`: replayed anchors
by region (R440). The answer names the regions whose frame ended on it. -/
def State.fabStep (s : State) (inp : StepIn) (pins : BitVec 512) (anchors : List (Nat × Nat)) : List Nat × State :=
  let all := List.range 16
  let s := (((s.setDrift inp.drift).each all State.takeHalt).holdEnd).restTimeout
  let old := s.fab.samples
  let s := s.setRecv pins
  let s := s.samplePins (s.received pins)
  let new := s.fab.samples
  let s := s.capFeed 1 0 0 s.now false (fun _ => true) fun c =>
    (maskBits 16 (s.capSel c)).flatMap fun b => leBytes 4 (new.extractLsb' (32 * b) 32).toNat
  let s := s.elaAgain
  let ela := s.ela.xout
  let s := s.each all fun s r => s.latchRecognised r new ela
  let (go, s) := s.restGate
  let moves (s : State) (r : Nat) : Bool := !s.deferred r || go
  let s := s.each all fun s r => s.onlyIf (moves s r && s.frameDue r) fun s =>
    (s.wr F.FAB_RGN_STATUS.STATE rgRunning r).wr F.FAB_RGN_STATUS.STEP 0 r
  let run := all.filter fun r => s.rstate r == rgRunning && moves s r
  let s := s.each run fun s r => s.onlyIf (s.rd F.FAB_RGN_STATUS.STEP r == 0) fun s => s.beginFrame r anchors new ela
  -- values in flight
  let there := s.fab.flights.filter fun f => moves s f.region
  let clash := s.laneClash (there.filter fun f => run.contains f.region)
  let s := s.each (clash.map fun e => (e.1.region, e.2)).eraseDups fun s e =>
    s.detect ⟨4, e.1, e.2.tile, e.2.cluster, 0, 0, 0, 0, e.2.dir, e.2.lane⟩
  let alive := there.filter fun f => !clash.any fun e => e.1 == f
  let arrived := alive.filter fun f => decide (s.dueAt f ≤ s.count f.region) && run.contains f.region
  let s := (s.setFab { s.fab with
    flights := (s.fab.flights.filter fun f : Flight => !moves s f.region) ++ alive.filter fun f : Flight =>
      decide (s.count f.region < s.dueAt f) })
  let s := s.each inp.faults fun s e => s.reflexViolation e.1.toNat e.2.val
  -- processors, accesses, then what their values reach
  let s := s.each run fun s r => s.regionStep r arrived old ela
  let s := s.each arrived State.deliver
  let s := s.onlyIf (arrived.any fun f => f.route.ckind == 4) State.elaAgain
  let s := s.pinEffects inp new go
  -- step indices; `was`: those of this step
  let was := all.map fun r => s.rd F.FAB_RGN_STATUS.STEP r
  let last (r : Nat) : Bool := s.rd F.FAB_RGN_STATUS.STEP r + 1 == s.rd F.FAB_RGN_CFG.LEN r
  let ended := run.filter last
  let s := s.each run fun s r =>
    if ended.contains r then s.endFrame r else s.inc F.FAB_RGN_STATUS.STEP r
  let s := s.each all fun s r => s.judgeMissed r (was.getD r 0)
  let s := s.each all fun s r =>
    s.onlyIf (s.trigNow F.FAB_RGN_TRIG.MODE r == 3 && ended.contains (s.trigNow F.FAB_RGN_TRIG.SRC r)) fun s =>
      s.chainTrigger r s.fab.g (was.getD r 0)
  let s := s.trigsTake
  let s := s.onlyIf (s.clk.holds && go && ended.any fun r => s.deferred r) fun s => s.beginRest 2 4
  (ended, (s.setFab { s.fab with
    g := s.fab.g + 1, cReflex := s.fab.cReflex + 1, cDeferred := s.fab.cDeferred + b2n go }))

end Sys2Proof.Machine
end

