-- ==== Sys2Proof/Machine/Cores.lean ====
section
/-! DEFINITION. A signal core as a machine (R203 to R236, R237 to R242, R252 to R254): registers and their late
visibility, moves, exceptions, and what executing one bundle does. -/

namespace Sys2Proof.Machine

/-! ### Exceptions, interrupts -/

/-- Exception causes (Table SCR-8). -/
abbrev xILLEGAL : Nat := 1
abbrev xPRIVILEGE : Nat := 2
abbrev xSECURITY : Nat := 3
abbrev xALIGN : Nat := 4
abbrev xADDRESS : Nat := 5
abbrev xPAGE : Nat := 6
abbrev xPOISON : Nat := 7
abbrev xREP_RANGE : Nat := 8
abbrev xHUB_STATE : Nat := 9
abbrev xXFER : Nat := 10

/-- Entry to an interrupt, exception or TRAP (R222): the return address, SR and MODE are saved, the mode becomes `mode`,
EXL 1 and IE 0, and execution continues at the vector. -/
def CoreSt.enter (c : CoreSt) (ret vector mode : Nat) : CoreSt :=
  let sr := c.reg rSR
  let c := ((c.setVal rXPC ret).setReg rXSR sr).setVal rXMODE (c.val rMODE)
  let c := c.setReg rSR ⟨BitVec.ofNat 48 (setBits (setBits sr.v.toNat 13 13 1) 12 12 0), sr.p⟩
  { ((c.setVal rMODE mode).setVal rPC vector) with rep := 0, br := none, back := none, old := [], alloc := none, cyc := c.cyc + 7 }

/-- Where a core's packets are emitted (R472). -/
def State.trcCtx (s : State) (n : Nat) : TrcCtx :=
  let c := s.core n
  ⟨c.val rPC, c.val rMODE, s.rdb F.SC_STATUS.TASK n, s.now, c.cyc, false⟩

/-- An ENTRY packet for the handler that begins (Table SEC-6). -/
def State.trcEntry (s : State) (n ret cause : Nat) : State :=
  s.trcPacket n (s.trcCtx n) true (leBytes 1 0x0A ++ leBytes 2 ret ++ leBytes 1 cause)

/-- A core enters a vector. -/
def State.coreEnter (s : State) (n ret vector mode cause : Nat) : State :=
  ((s.setCore n ((s.core n).enter ret vector mode)).setCoreState n 1).trcEntry n ret cause

/-- A poisoned value is consumed by a core (R234): `far` is the address it named, if any. -/
def State.corePoison (s : State) (n : Nat) (far : Option Nat) : State :=
  let t : Target := match far with | some a => s.target (a * 16) | none => .nowhere
  s.event 0x0302 sevError (sourceId 0x0302 0 (reqCore n))
    (memPayload ((match far with | some a => a | none => 0) * 16) 0 t.code (s.ownerCode t) 1 0)

/-- CORE_DOUBLE_FAULT (R222, Table SCR-11): the core halts FAULTED, and its open task ends INCOMPLETE (R230). -/
def State.doubleFault (s : State) (n cause pc : Nat) : State :=
  let c := s.core n
  ((s.setCoreState n 6).event 0x0701 sevError (sourceId 0x0701 0 n)
    (payload [(16, 1, c.val rXCAUSE), (17, 1, cause), (18, 2, pc), (20, 4, s.rd F.SC_TASK.TAG n),
      (24, 1, c.val rMODE)])).failOpenTask n

/-- An exception is raised at a bundle (R222, R223). A double fault leaves STATE FAULTED. -/
def State.coreRaise (s : State) (n cause : Nat) (far : Option Nat := none) : State :=
  let c := s.core n
  let pc := c.val rPC
  let s := s.onlyIf (cause == xPOISON) fun s => s.corePoison n far
  if bit (c.val rSR) 13 then s.doubleFault n cause pc
  else
    let s := s.setCore n (c.setVal rXCAUSE cause)
    let s := ((s.sat F.SC_EXC.COUNT n).wr F.SC_EXC.PC pc n).wr F.SC_EXC.CAUSE cause n
    s.coreEnter n pc 8 1 cause

/-! ### Address generation and moves -/

/-- The least k with n ≤ 2^k. -/
def clog2 (n : Nat) : Nat := (List.range 17).foldl (fun k i => if 2 ^ k < n then i + 1 else k) 0

/-- The low k bits of a number in reverse order. -/
def revBits : Nat → Nat → Nat
  | 0, _ => 0
  | k + 1, n => n % 2 * 2 ^ k + revBits k (n / 2)

/-- A mode word of Ln is one of those R218 lists. -/
def agMode (l : Nat) : Bool := decide (l ≤ 65535) || (decide (0x80000001 ≤ l) && decide (l ≤ 0x80000010))

/-- Post-modification of An by m under Ln (R218). -/
def agStep (a : Nat) (m : Int) (l : Nat) : Nat :=
  if l = 0 then toBits 32 (a + m)
  else if l ≤ 65535 then
    let b := a / 2 ^ clog2 l * 2 ^ clog2 l
    (b + ((((a : Int) - b + m) % (l : Int)).toNat)) % 2 ^ 32
  else
    let k := l - 0x80000000
    a / 2 ^ k * 2 ^ k + revBits k ((revBits k (a % 2 ^ k) + revBits k (toBits k m)) % 2 ^ k)

/-- A move field (Table ISA-2). -/
structure Move where
  kind : Nat
  reg : Nat
  an : Nat
  pm : Nat
  mm : Nat

/-- The move that 17 bits spell. -/
def moveOf (w : BitVec 17) : Move :=
  let n := w.toNat
  ⟨bits n 16 14, bits n 13 8, bits n 7 5, bits n 4 3, bits n 2 0⟩

/-- A code of Table ISA-4 that may be read. -/
def regReadable (code : Nat) : Bool := decide (code ≤ 57)

/-- A code of Table ISA-4 that may be written. -/
def regWritable (code : Nat) : Bool := decide (code ≤ 57) && code != 52 && code != 53

/-- The registers user mode may not touch (R225, R239). -/
def regPrivileged (code : Nat) : Bool := decide (54 ≤ code) && decide (code ≤ 57)

/-- Reading a register code, as moves and MOV see it (R239, Table SCR-4). -/
def CoreSt.read (c : CoreSt) (code : Nat) : CReg :=
  if 40 ≤ code ∧ code ≤ 43 then let x := c.seen code; ⟨BitVec.ofNat 48 (x.v.toNat % 2 ^ 32), x.p⟩
  else if 44 ≤ code ∧ code ≤ 47 then
    let x := c.seen (code - 4)
    ⟨BitVec.ofNat 48 (toBits 32 (sint 16 (x.v.toNat / 2 ^ 32))), x.p⟩
  else c.reg code

/-- SR after a write of a value (R250). -/
def srWrite (old v : Nat) (poison : Bool) : Nat :=
  let n := setBits (setBits old 3 0 (bits v 3 0)) 9 8 (bits v 9 8)
  let n := if bits v 11 10 = 3 then n else setBits n 11 10 (bits v 11 10)
  let n := setBits (setBits n 13 12 (bits v 13 12)) 27 24 (bits v 27 24)
  let n := setBits n 6 6 (b2n poison)
  let n := if bit v 20 then setBits n 20 20 0 else n
  let n := if bit v 5 then setBits n 5 5 0 else n
  if bit v 4 then setBits n 4 4 0 else n

/-- A write of SR that user mode may not make (R250). -/
def srPrivileged (old v : Nat) : Bool :=
  bits old 13 12 != bits v 13 12 || bits old 27 24 != bits v 27 24

/-- The register and value that a write of a code makes (R239, R250). -/
def CoreSt.writeOf (c : CoreSt) (code v : Nat) (p : Bool) : Nat × CReg :=
  let w (k n : Nat) (q : Bool) : Nat × CReg := (k, ⟨BitVec.ofNat 48 n, q⟩)
  if code < 40 then w code (v % 2 ^ 32) p
  else if code ≤ 43 then w code (toBits 48 (sint 32 v)) p
  else if code ≤ 47 then
    let a := c.reg (code - 4)
    w (code - 4) (a.v.toNat % 2 ^ 32 + v % 2 ^ 16 * 2 ^ 32) (a.p || p)
  else if code = rLC then w code (v % 2 ^ 32) p
  else if code = rSR then w code (srWrite (c.val rSR) v p) p
  else if code = rXSR then w code (v % 2 ^ 32) p
  else if code = rXMODE then w code (v % 4) p
  else if code = rXCAUSE then w code (v % 256) p
  else w code (v % 2 ^ 13) p

/-- A write of this register is seen late by its late class of consumers (Table SCR-4): A, M and L, and the loop, status and
saved registers. -/
def lateCode (code : Nat) : Bool := (decide (16 ≤ code) && decide (code ≤ 39)) || (decide (48 ≤ code) && decide (code ≤ 56))

/-- What a move does, before anything takes effect. -/
structure MoveRes where
  /-- The causes it raises. -/
  faults : List Nat := []
  /-- The value of An after post-modification. -/
  post : Option (Nat × CReg) := none
  /-- The bus value. -/
  bus : Option (Nat × Bool) := none
  load : Option (Nat × CReg) := none
  /-- Word address, new word, byte address, value and half-word flag of a store. -/
  store : Option (Nat × PWord × Nat × Nat × Bool) := none

/-- A cause in a list, if a condition holds. -/
def causeIf (b : Bool) (x : Nat) : List Nat := if b then [x] else []

/-- The half of a word that a byte address selects. -/
def halfOf (w : PWord) (a : Nat) : Nat := w.v.toNat / 2 ^ (8 * (a % 4)) % 2 ^ 16

/-- A word with the half at a byte address replaced; a 16-bit store keeps the word's poison, and a poisoned one sets it
(R234). -/
def withHalf (w : PWord) (a v : Nat) (p : Bool) : PWord :=
  ⟨BitVec.ofNat 32 (setBits w.v.toNat (8 * (a % 4) + 15) (8 * (a % 4)) v), w.p || p⟩

/-- The static checks of a move (R238, R239). -/
def moveIllegal (m : Move) : Bool :=
  if m.kind = 0 then m.reg != 0 || m.an != 0 || m.pm != 0 || m.mm != 0
  else
    (m.pm != 3 && m.mm != 0) ||
      (match m.kind with
       | 1 => !(regWritable m.reg || m.reg == 63)
       | 2 => !regReadable m.reg
       | _ => decide (15 < m.reg))

/-- The access size of a move kind. -/
def moveSize (mk : Nat) : Nat := if mk = 1 ∨ mk = 2 then 4 else 2

/-- A move of a bundle, evaluated on the core before the bundle (R206, R218, R238 to R240). `sec` judges a secure
address. -/
def CoreSt.move (c : CoreSt) (y : Bool) (sec : Nat → Bool) (m : Move) : MoveRes :=
  if moveIllegal m then { faults := [xILLEGAL] }
  else if m.kind = 0 then {}
  else
    let user := c.val rMODE == 0
    let size := moveSize m.kind
    let a := c.seen (16 + m.an)
    let l := c.seen (32 + m.an)
    let mr := c.seen (24 + m.mm)
    let addr := a.v.toNat
    let badMode := m.pm != 0 && !agMode l.v.toNat
    let step : Int := match m.pm with
      | 1 => size
      | 2 => -(size : Int)
      | _ => sint 32 mr.v.toNat
    let ap := a.p || (m.pm == 3 && mr.p) || (m.pm != 0 && l.p)
    let post : Option (Nat × CReg) :=
      if m.pm = 0 || badMode then none
      else some (16 + m.an, ⟨BitVec.ofNat 48 (agStep addr step l.v.toNat), ap⟩)
    let w := c.word y (addr / 4)
    let d := c.read m.reg
    let half := halfOf w addr
    let sx := toBits 32 (sint 16 half)
    let srv := c.val rSR
    let priv := user && (regPrivileged m.reg || (m.kind == 1 && m.reg == rSR && srPrivileged srv w.v.toNat))
    let faults := causeIf priv xPRIVILEGE ++ causeIf ap xPOISON ++ causeIf (addr % size != 0) xALIGN
      ++ causeIf (decide (0x10000 ≤ addr) || badMode) xADDRESS ++ causeIf (c.val rMODE != 2 && sec addr) xSECURITY
    let res : MoveRes := { faults := faults, post := post }
    match m.kind with
    | 1 => { res with bus := some (w.v.toNat, w.p),
                      load := if m.reg = 63 then none else some (c.writeOf m.reg w.v.toNat w.p) }
    | 2 => { res with store := some (addr / 4, ⟨BitVec.ofNat 32 d.v.toNat, d.p⟩, addr, d.v.toNat % 2 ^ 32, false) }
    | 3 => { res with bus := some (sx, w.p),
                      load := some (m.reg, ⟨BitVec.ofNat 48 (setBits d.v.toNat 15 0 half), d.p || w.p⟩) }
    | 4 => { res with bus := some (sx, w.p),
                      load := some (m.reg, ⟨BitVec.ofNat 48 (setBits d.v.toNat 31 16 half), d.p || w.p⟩) }
    | 5 => { res with bus := some (sx, w.p), load := some (m.reg, ⟨BitVec.ofNat 48 sx, w.p⟩) }
    | 6 => { res with store := some (addr / 4, withHalf w addr (d.v.toNat % 2 ^ 16) d.p, addr, d.v.toNat % 2 ^ 16, true) }
    | _ => { res with store := some (addr / 4, withHalf w addr (d.v.toNat / 2 ^ 16 % 2 ^ 16) d.p, addr,
                                     d.v.toNat / 2 ^ 16 % 2 ^ 16, true) }

/-! ### One bundle -/

/-- What an operation is evaluated in: the core before the bundle, its number, the bundle's fields and its moves' buses. -/
structure OpCtx where
  n : Nat
  c : CoreSt
  opf : Nat
  pc : Nat
  xb : Option (Nat × Bool)
  yb : Option (Nat × Bool)
  xmk : Nat
  ymk : Nat
  slot : Bool
  s : State

/-- Where execution goes after a bundle. -/
inductive Flow where
  | seq
  /-- Two delay slots, then the target. -/
  | slots (target : Nat)
  /-- Two delay slots, then the target with SR and MODE restored. -/
  | back (target : Nat) (sr : CReg) (mode : Nat)
  | go (next : Nat)
  | rep (count : Nat) (bundle : BitVec 64)

/-- What an operation does (R243 to R250). -/
structure Fx where
  faults : List Nat := []
  /-- Far address of a poisoned operand, for POISON_CONSUMED. -/
  far : Option Nat := none
  w : List (Nat × CReg) := []
  /-- Accumulators written by a producer of the MAC class. -/
  late : List Nat := []
  sr : Nat → Nat := id
  flow : Flow := .seq
  store : Option (Bool × Nat × PWord) := none
  /-- The operation blocks in this STATE (R226). -/
  block : Option Nat := none
  cycles : Nat := 1
  atom : Option Bool := none
  /-- ADDR packet: kind and target. -/
  addr : Option (Nat × Nat) := none
  /-- What else happens, once the bundle has taken effect. -/
  act : State → State := id

/-- The order of causes within one bundle (Table ISA-14); PAGE here is that of the bundle a REP repeats. -/
def faultOrder : List Nat := [xPAGE, xILLEGAL, xPRIVILEGE, xREP_RANGE, xHUB_STATE, xPOISON, xALIGN, xADDRESS, xSECURITY]

/-- The first cause that applies. -/
def firstFault (l : List Nat) : Option Nat := faultOrder.find? fun x => l.contains x

/-- The operations that may not stand in a delay slot (R252). -/
def slotIllegal (opc : Nat) : Bool :=
  (decide (0x60 ≤ opc) && decide (opc ≤ 0x6B)) || (decide (0x70 ≤ opc) && decide (opc ≤ 0x7D))

/-- A register write that loses to one made before it is not made (R240): writes in rising precedence. -/
def CoreSt.writeAll (c : CoreSt) (l : List (Nat × CReg)) : CoreSt := l.foldl (fun c e => c.setReg e.1 e.2) c

/-- An optional write as a list. -/
def optW (o : Option (Nat × CReg)) : List (Nat × CReg) := match o with | some e => [e] | none => []

/-- A return takes effect with the last of its delay slots (R222). -/
def CoreSt.takeBack (c : CoreSt) : CoreSt :=
  match c.back with
  | some (sr, mode) => { ((c.setReg rSR sr).setVal rMODE mode) with back := none }
  | none => c

/-- The program counter after a bundle (R219, R220, R248), with the loop's atom. A poisoned LC stays so (R234). -/
def CoreSt.advance (c : CoreSt) (b : CoreSt) (flow : Flow) : CoreSt × Option Bool :=
  let pc := b.val rPC
  let next := (pc + 1) % 8192
  if 1 < b.rep then ({ c with rep := b.rep - 1 }, none)
  else if b.rep = 1 then ({ c with rep := 0 }.setVal rPC next, none)
  else match flow with
    | .slots t => ({ c with br := some (2, t) }.setVal rPC next, none)
    | .back t sr mode => ({ c with br := some (2, t), back := some (sr, mode) }.setVal rPC next, none)
    | .go t => (c.setVal rPC (t % 8192), none)
    | .rep n w =>
      if n = 0 then (c.setVal rPC ((pc + 2) % 8192), none) else ({ c with rep := n, ir := w }.setVal rPC next, none)
    | .seq =>
      match b.br with
      | some (k, t) =>
        if k ≤ 1 then (({ c with br := none }.takeBack).setVal rPC (t % 8192), none)
        else ({ c with br := some (k - 1, t) }.setVal rPC next, none)
      | none =>
        let lc := (b.seen rLC).v.toNat
        let count (v : Nat) : CoreSt := c.setReg rLC ⟨BitVec.ofNat 48 v, (b.seen rLC).p⟩
        if lc ≠ 0 ∧ pc = (b.seen rLE).v.toNat then
          if 1 < lc then ((count (lc - 1)).setVal rPC (b.seen rLS).v.toNat, some true)
          else ((count 0).setVal rPC next, some false)
        else (c.setVal rPC next, none)

/-- A store of a move, and its DATA packet (R472). -/
def State.coreStore (s : State) (n : Nat) (t : TrcCtx) (y : Bool) (e : Option (Nat × PWord × Nat × Nat × Bool)) : State :=
  match e with
  | none => s
  | some (w, x, a, v, half) =>
    let s := s.setCore n ((s.core n).setWord y w x)
    if !s.trcData n then s
    else s.trcPacket n t true (leBytes 1 (if y then 7 else 6) ++ leBytes 2 a ++ leBytes 4 v ++ leBytes 1 (b2n half + 2 * b2n x.p))

/-- The effects of a bundle that raises nothing and does not block (R210, R240). -/
def State.commitBundle (s : State) (n : Nat) (xm ym : MoveRes) (fx : Fx) : State :=
  let b := s.core n
  let t := s.trcCtx n
  let s := s.coreStore n t false xm.store
  let s := s.coreStore n t true ym.store
  let s := match fx.store with
    | some (y, w, x) => s.coreStore n t y (some (w, x, 4 * w, x.v.toNat, false))
    | none => s
  let c := s.core n
  let ops := optW ym.load ++ optW xm.load ++ fx.w
  let c := c.writeAll (optW ym.post ++ optW xm.post ++ ops)
  let sr := c.reg rSR
  let c := c.setReg rSR ⟨BitVec.ofNat 48 (fx.sr sr.v.toNat), sr.p⟩
  let written := (ops.map (·.1)).filter fun k => lateCode k || fx.late.contains k
  let srOld : List Nat := if srPrivileged (b.val rSR) (c.val rSR) then [rSR] else []
  let old := (written ++ srOld).foldl (fun l k => Sparse.insert l k (b.reg k)) []
  let c := { c with old := old, cyc := c.cyc + fx.cycles }
  let a := c.advance b fx.flow
  let s := (s.setCore n a.1).setCoreState n 1
  let s := match fx.atom, a.2 with
    | some x, _ => s.trcAtom n t x
    | none, some x => s.trcAtom n t x
    | none, none => s
  let s := match fx.addr with
    | some (k, target) => s.trcPacket n t true (leBytes 1 2 ++ leBytes 2 (target + k * 2 ^ 13))
    | none => s
  fx.act (s.trcEnd n t.mode (s.core n).cyc)

/-- The post-modifications that a faulting move has made (R223, R253). -/
def State.faultMoves (s : State) (n cause : Nat) (xm ym : MoveRes) : State :=
  if cause = xALIGN ∨ cause = xADDRESS ∨ cause = xSECURITY ∨ cause = xPOISON then
    let f (m : MoveRes) : List (Nat × CReg) := if m.faults.contains cause then optW m.post else []
    s.setCore n ((s.core n).writeAll (f ym ++ f xm))
  else s

/-- The bundle that core n runs next: what PRAM holds at PC, or the one that a REP has fetched (R219). -/
def CoreSt.nextBundle (c : CoreSt) : BitVec 64 :=
  if c.rep ≠ 0 then c.ir else Sparse.get (fun _ => (0 : BitVec 64)) c.pram (c.val rPC)

/-- Bundle `w` is what core n runs next. -/
def State.fetches (s : State) (n w : Nat) : Bool := (s.core n).nextBundle == BitVec.ofNat 64 w

/-- Core n is at a bundle: running, or blocked at one that is tried again (R226). -/
def State.coreReady (s : State) (n : Nat) : Bool :=
  s.alive && !s.islandOff n && (s.coreState n == 1 || s.coreState n == 3) && (s.core n).alloc.isNone

/-- The words of a bundle (Table ISA-1). -/
def bundleWord (opc : Nat) (b : Bundle) : Nat := opc * 2 ^ 56 + b.opf.toNat * 2 ^ 34 + b.xmv.toNat * 2 ^ 17 + b.ymv.toNat

/-! ### Transfers in progress -/

/-- The first far address of the job and submission windows (R260, R277, R298, R304). -/
abbrev windowBase : Nat := 0xFFFE0000

/-- The next `k` bytes of a transfer from far to local memory: reads of a window return zero with poison (R260); outside
secure mode secure ranges are not written (R227). -/
def State.xferIn (s : State) (n : Nat) (x : Xfer) (k : Nat) : State :=
  let r : RdRes :=
    if windowBase ≤ x.far then ⟨List.replicate k (0, true), false, s⟩ else s.memRead (reqCore n) (x.far * 16 + x.done) k
  let s := r.s
  let deny (w : Nat) : Bool := !x.secure && s.secureRange n x.space (4 * w)
  let s := s.setCore n ((s.core n).localWrite x.space ((x.local_ + x.done) / 4) deny r.bytes)
  s.onlyIf r.bad fun s => s.xferError n

/-- The next `k` bytes of a transfer from local to far memory. -/
def State.xferOut (s : State) (n : Nat) (x : Xfer) (k : Nat) : State :=
  if windowBase ≤ x.far then s else
  let w := s.memWrite (reqCore n) (x.far * 16 + x.done) ((s.core n).localRead x.space (x.local_ + x.done) k)
  w.s.onlyIf w.bad fun s => s.xferError n

/-- The next `k` bytes of a transfer. -/
def State.xferMove (s : State) (n : Nat) (x : Xfer) (k : Nat) : State := if x.toFar then s.xferOut n x k else s.xferIn n x k

/-- How many of a transfer's bytes have moved after a free choice `k` beyond those that had: up to the end of a bank word or
an HBM granule. -/
def Xfer.upTo (x : Xfer) (k : Nat) : Nat :=
  let u := if x.far * 16 < hbmBytes then 32 else 8
  let e := x.far * 16 + x.done + k % (x.len - x.done + 1)
  e - e % u - x.far * 16

/-- The transfer at the head of a core's queue moves words of its own choosing by the time of a bundle (R207), so a core reads
old and new words mixed in a range while a transfer into it is outstanding. What port B writes in the cycle of the bundle
counts as before it where the bundle writes the word (port A's data is kept), and as after it where the bundle reads the word
(the read returns the old data); a word moves whole. A transfer that its memory holds does not move (R345). -/
def State.xferAdvance (s : State) (n : Nat) : State :=
  match (s.core n).xq with
  | x :: l =>
    if windowBase ≤ x.far ∨ s.memWaits (reqCore n) (x.far * 16) x.len then s else
    let e := x.upTo (Config.freeNat s.free)
    let s := s.burn
    if e ≤ x.done then s
    else
      let s := s.xferMove n x (e - x.done)
      s.setCore n { s.core n with xq := { x with done := e } :: l }
  | [] => s

/-- The machine as a bundle finds it: its trace packets begun, the bundle's page marked as used last (R263), and the words
moved that its transfers have moved. -/
def State.bundleStart (s : State) (n : Nat) : State :=
  let s := (s.xferAdvance n).trcBegin n (s.trcCtx n)
  let c := s.core n
  s.setCore n { c with pageUse := Sparse.insert c.pageUse (c.val rPC / 1024) s.now }

/-- The move of a bundle on the X or the Y side of core n. -/
def State.bundleMove (s : State) (n : Nat) (b : Bundle) (y : Bool) : MoveRes :=
  (s.core n).move y (s.secureRange n y) (moveOf (if y then b.ymv else b.xmv))

/-- What the operation of a bundle is evaluated in. -/
def State.bundleCtx (s : State) (n : Nat) (b : Bundle) : OpCtx :=
  let c := s.core n
  ⟨n, c, b.opf.toNat, c.val rPC, (s.bundleMove n b false).bus, (s.bundleMove n b true).bus, (moveOf b.xmv).kind,
    (moveOf b.ymv).kind, c.br.isSome, s⟩

/-- Every cause that the parts of a bundle raise (R252, R253). -/
def State.bundleFaults (s : State) (n opc : Nat) (b : Bundle) (fx : Fx) : List Nat :=
  causeIf ((s.core n).br.isSome && slotIllegal opc) xILLEGAL ++ fx.faults ++ (s.bundleMove n b false).faults
    ++ (s.bundleMove n b true).faults

/-- A bundle whose page is valid and allowed runs: it raises its first cause, blocks, or takes effect (R223, R226, R253). -/
def State.bundleRun (s : State) (n opc : Nat) (b : Bundle) (op : OpCtx → Fx) : State :=
  let xm := s.bundleMove n b false
  let ym := s.bundleMove n b true
  let fx := op (s.bundleCtx n b)
  match firstFault (s.bundleFaults n opc b fx) with
  | some cause => (s.faultMoves n cause xm ym).coreRaise n cause fx.far
  | none =>
    match fx.block with
    | some st => fx.act (s.setCoreState n st)
    | none => s.commitBundle n xm ym fx

/-- The page of the bundle that core n fetches is valid (R263). A bundle under REP has been fetched (R219). -/
def State.pageValid (s : State) (n : Nat) : Bool :=
  (s.core n).rep != 0 || bit (s.rd F.SC_STATUS.VALID n) ((s.core n).val rPC / 1024)

/-- A core outside secure mode fetches from a secure page (R227). -/
def State.pageDenied (s : State) (n : Nat) : Bool :=
  (s.core n).rep == 0 && (s.core n).val rMODE != 2 && bit (s.rd F.SC_SEC.PAGES n) ((s.core n).val rPC / 1024)

/-- The core executes one bundle (R210, R223, R237, R253, R254). The bundle named is the one PRAM holds at the core's
program counter; for another one the core does nothing. -/
def State.bundle (s : State) (n opc : Nat) (b : Bundle) (op : OpCtx → Fx) : State :=
  if !s.coreReady n then s
  else if !s.pageValid n then (s.trcBegin n (s.trcCtx n)).coreRaise n xPAGE
  else if s.pageDenied n then (s.trcBegin n (s.trcCtx n)).coreRaise n xSECURITY
  else if !s.fetches n (bundleWord opc b) then s
  else (s.bundleStart n).bundleRun n opc b op

end Sys2Proof.Machine
end

