-- ==== Sys2Proof/Machine/Flags.lean ====
section
/-! DEFINITION. Every flag computation of the signal-core operations (R243), and what an operation leaves in SR. -/

namespace Sys2Proof.Machine

/-- The flags an operation writes; an absent one is left unchanged (R243). `sv` and `av` set the sticky bits. -/
structure FlagW where
  n : Option Bool := none
  z : Option Bool := none
  c : Option Bool := none
  v : Option Bool := none
  sv : Bool := false
  av : Bool := false

/-- One optional bit written. -/
def putFlag (sr k : Nat) (b : Option Bool) : Nat :=
  match b with
  | some x => setBits sr k k (b2n x)
  | none => sr

/-- Some flag among V, C, N, Z is written. -/
def FlagW.any (f : FlagW) : Bool := f.n.isSome || f.z.isSome || f.c.isSome || f.v.isSome

/-- SR after an operation (R243): its flags, FP from its operands' poison if it writes any flag, and the sticky bits. -/
def FlagW.apply (f : FlagW) (poison : Bool) (sr : Nat) : Nat :=
  let sr := putFlag (putFlag (putFlag (putFlag sr 0 f.z) 1 f.n) 2 f.c) 3 f.v
  let sr := if f.any then setBits sr 6 6 (b2n poison) else sr
  let sr := if f.sv then setBits sr 4 4 1 else sr
  if f.av then setBits sr 5 5 1 else sr

/-- N and Z of a 32-bit result. -/
def flagsNZ (r : Nat) : FlagW := { n := some (bit r 31), z := some (r % 2 ^ 32 == 0) }

/-- NZCV of a 32-bit sum: C the carry out, V signed overflow. -/
def flagsAdd (a b cin : Nat) : FlagW :=
  let r := (a + b + cin) % 2 ^ 32
  { flagsNZ r with
    c := some (decide (2 ^ 32 ≤ a + b + cin)),
    v := some (bit a 31 == bit b 31 && bit r 31 != bit a 31) }

/-- NZCV of a 32-bit difference: C is 1 when no borrow occurs. -/
def flagsSub (a b bin : Nat) : FlagW :=
  let r := toBits 32 ((a : Int) - b - bin)
  { flagsNZ r with
    c := some (decide (b + bin ≤ a)),
    v := some (bit a 31 != bit b 31 && bit r 31 != bit a 31) }

/-- NZC of a shift: C the last bit shifted out, unchanged for a count of 0. -/
def flagsShift (r k : Nat) (out : Bool) : FlagW :=
  { flagsNZ r with c := if k = 0 then none else some out }

/-- NZV of a saturating result, V and SV set where it saturated. -/
def flagsSat (r : Nat) (ovf : Bool) : FlagW := { flagsNZ r with v := some ovf, sv := ovf }

/-- A condition of BR (Table ISA-7) on SR; none for the reserved code. -/
def condHolds (cond sr : Nat) : Option Bool :=
  let z := bit sr 0
  let n := bit sr 1
  let c := bit sr 2
  let v := bit sr 3
  match cond with
  | 0 => some true
  | 1 => some z
  | 2 => some (!z)
  | 3 => some (n != v)
  | 4 => some (n == v)
  | 5 => some (!z && n == v)
  | 6 => some (z || n != v)
  | 7 => some c
  | 8 => some (!c)
  | 9 => some n
  | 10 => some (!n)
  | 11 => some v
  | 12 => some (!v)
  | 13 => some (c && !z)
  | 14 => some (!c || z)
  | _ => none

end Sys2Proof.Machine
end

