-- ==== Sys2Proof/Machine/Operands.lean ====
section
/-! DEFINITION. The operand forms of the signal-core operations (R241, R242, Tables ISA-5 and ISA-6): source selectors, the
operation formats, and what an operation of each form writes. -/

namespace Sys2Proof.Machine

/-- A 32-bit operand with its poison. -/
abbrev Opnd := Nat × Bool

/-- A source selector (Table ISA-6); none where it is illegal. -/
def OpCtx.src (x : OpCtx) (sel : Nat) : Option Opnd :=
  if sel < 16 then let r := x.c.reg sel; some (r.v.toNat % 2 ^ 32, r.p)
  else if sel = 16 then (if x.xmk = 1 ∨ (3 ≤ x.xmk ∧ x.xmk ≤ 5) then some (match x.xb with | some b => b | none => (0, false)) else none)
  else if sel = 17 then (if x.ymk = 1 ∨ (3 ≤ x.ymk ∧ x.ymk ≤ 5) then some (match x.yb with | some b => b | none => (0, false)) else none)
  else if sel = 18 then some (0, false)
  else none

/-- A D register as an operand. -/
def OpCtx.dReg (x : OpCtx) (d : Nat) : Opnd := let r := x.c.reg d; (r.v.toNat % 2 ^ 32, r.p)

/-- SR before the bundle. -/
def OpCtx.srv (x : OpCtx) : Nat := x.c.val rSR

/-- An operation that raises ILLEGAL. -/
def fxIllegal : Fx := { faults := [xILLEGAL] }

/-- A register write of a 32-bit value. -/
def dWrite (d v : Nat) (p : Bool) : Nat × CReg := (d, ⟨BitVec.ofNat 48 (v % 2 ^ 32), p⟩)

/-- The result of an arithmetic operation: a 32-bit value, its flags, and poison beyond its operands'. -/
structure AluRes where
  v : Nat := 0
  f : FlagW := {}
  p : Bool := false

/-- Operations with two sources, one source (St = 0) or flags only (Dd = 0). -/
inductive Shape where
  | two | one | test
  deriving DecidableEq

/-- An operation's effect from its result: the destination written unless it only tests. -/
def aluFx (sh : Shape) (d : Nat) (r : AluRes) (p : Bool) : Fx :=
  let p := p || r.p
  { w := if sh = .test then [] else [dWrite d r.v p], sr := r.f.apply p }

/-- Format R3: Dd, Ss, St. -/
def OpCtx.r3 (x : OpCtx) (sh : Shape) (f : Nat → Nat → AluRes) : Fx :=
  let d := bits x.opf 21 18
  let st := bits x.opf 12 8
  match x.src (bits x.opf 17 13), x.src st with
  | some a, some b =>
    if bits x.opf 7 0 ≠ 0 ∨ (sh = .one ∧ st ≠ 0) ∨ (sh = .test ∧ d ≠ 0) then fxIllegal
    else aluFx sh d (f a.1 b.1) (a.2 || (sh != .one && b.2))
  | _, _ => fxIllegal

/-- The immediate of format RI: sign-extended, zero-extended, or a count up to a bound. -/
inductive ImmKind where
  | sext | zext
  | upTo (n : Nat)

/-- The value of an immediate; none above its range (R246). -/
def ImmKind.value (k : ImmKind) (imm : Nat) : Option Nat :=
  match k with
  | .sext => some (toBits 32 (sint 13 imm))
  | .zext => some imm
  | .upTo n => if imm ≤ n then some imm else none

/-- Format RI: Dd, Ss, IMM. -/
def OpCtx.ri (x : OpCtx) (sh : Shape) (k : ImmKind) (f : Nat → Nat → AluRes) : Fx :=
  let d := bits x.opf 21 18
  match x.src (bits x.opf 17 13), k.value (bits x.opf 12 0) with
  | some a, some b => if sh = .test ∧ d ≠ 0 then fxIllegal else aluFx sh d (f a.1 b) a.2
  | _, _ => fxIllegal

/-- The fields of format SY (Table ISA-5). -/
structure SyFields where
  r1 : Nat
  r2 : Nat
  an : Nat
  dir : Bool
  sp : Bool
  irq : Bool
  b7 : Nat
  imm : Nat

/-- Format SY. -/
def OpCtx.sy (x : OpCtx) : SyFields :=
  ⟨bits x.opf 21 18, bits x.opf 17 14, bits x.opf 13 11, bit x.opf 10, bit x.opf 9, bit x.opf 8, bits x.opf 7 7, bits x.opf 6 0⟩

/-- The fields of SY that an operation does not name are 0 (R249): `r1` and `imm` say which of those two it names. -/
def SyFields.zero (y : SyFields) (r1 imm : Bool) : Bool :=
  (r1 || y.r1 == 0) && y.r2 == 0 && y.an == 0 && !y.dir && !y.sp && !y.irq && y.b7 == 0 && (imm || y.imm == 0)

end Sys2Proof.Machine
end

