-- ==== Sys2Proof/Machine/Control.lean ====
section
/-! DEFINITION. Control, system and hub operations of the signal cores (R219 to R232, R248, R249, Tables ISA-11 and
ISA-12), and the events a core takes between bundles. -/

namespace Sys2Proof.Machine

/-! ### Branches -/

/-- A branch may not stand at LE − 2 to LE while INLOOP is 1 (R220). -/
def OpCtx.loopBranch (x : OpCtx) : List Nat :=
  causeIf (x.c.val rLC != 0 && decide (x.c.val rLE ≤ x.pc + 2) && decide (x.pc ≤ x.c.val rLE)) xILLEGAL

/-- The bundle after the two delay slots. -/
def OpCtx.afterSlots (x : OpCtx) : Nat := (x.pc + 3) % 8192

/-- The fields of format BR: COND or Ds, DL, bit 13, TARGET. -/
def OpCtx.brDs (x : OpCtx) : Nat := bits x.opf 21 18
def OpCtx.brDl (x : OpCtx) : Nat := bits x.opf 17 14
def OpCtx.brTarget (x : OpCtx) : Nat := bits x.opf 12 0

/-- A conditional branch: taken or not, two bundles follow as delay slots. With FP = 1 it consumes poison (R234). -/
def OpCtx.condBranch (x : OpCtx) (taken : Bool) (faults : List Nat) : Fx :=
  { faults := faults ++ x.loopBranch ++ causeIf (bit x.srv 6) xPOISON,
    flow := .slots (if taken then x.brTarget else x.afterSlots), atom := some taken }

/-- BR (R244, R248). -/
def opBr (x : OpCtx) : Fx :=
  match condHolds x.brDs x.srv with
  | none => fxIllegal
  | some t =>
    if x.brDl ≠ 0 ∨ bit x.opf 13 then fxIllegal
    else if x.brDs = 0 then { faults := x.loopBranch, flow := .slots x.brTarget }
    else x.condBranch t []

/-- BRZ (R248). -/
def opBrz (x : OpCtx) : Fx :=
  if x.brDl ≠ 0 ∨ bit x.opf 13 then fxIllegal
  else x.condBranch ((x.dReg x.brDs).1 == 0) (causeIf (x.dReg x.brDs).2 xPOISON)

/-- BRNZ (R248). -/
def opBrnz (x : OpCtx) : Fx :=
  if x.brDl ≠ 0 ∨ bit x.opf 13 then fxIllegal
  else x.condBranch ((x.dReg x.brDs).1 != 0) (causeIf (x.dReg x.brDs).2 xPOISON)

/-- CALL (R248). -/
def opCall (x : OpCtx) : Fx :=
  if x.brDs ≠ 0 ∨ bit x.opf 13 then fxIllegal
  else { faults := x.loopBranch, w := [dWrite x.brDl x.afterSlots false], flow := .slots x.brTarget }

/-- JMP (R248): a poisoned Ds raises POISON. -/
def opJmp (x : OpCtx) : Fx :=
  if x.brDl ≠ 0 ∨ bit x.opf 13 ∨ x.brTarget ≠ 0 then fxIllegal
  else
    let t := (x.dReg x.brDs).1 % 8192
    { faults := x.loopBranch ++ causeIf (x.dReg x.brDs).2 xPOISON, flow := .slots t, addr := some (0, t) }

/-- CALLR (R248). -/
def opCallr (x : OpCtx) : Fx :=
  if bit x.opf 13 ∨ x.brTarget ≠ 0 then fxIllegal
  else
    let t := (x.dReg x.brDs).1 % 8192
    { faults := x.loopBranch, w := [dWrite x.brDl x.afterSlots false], flow := .slots t, addr := some (0, t) }

/-! ### Loops and repeats -/

/-- A LOOP with a count and an end (R220): a body of fewer than two bundles is ILLEGAL. -/
def OpCtx.loop (x : OpCtx) (count : Nat) (poison : Bool) : Fx :=
  let e := bits x.opf 12 0
  let w (k v : Nat) : Nat × CReg := (k, ⟨BitVec.ofNat 48 v, false⟩)
  { faults := causeIf (decide (e < x.pc + 2)) xILLEGAL ++ causeIf poison xPOISON,
    w := [w rLS ((x.pc + 1) % 8192), w rLE e, w rLC count],
    flow := if count = 0 then .go (e + 1) else .seq }

/-- LOOPI (R248). -/
def opLoopi (x : OpCtx) : Fx := x.loop (bits x.opf 21 13) false

/-- LOOPD (R248). -/
def opLoopd (x : OpCtx) : Fx :=
  if bits x.opf 17 13 ≠ 0 then fxIllegal else x.loop (x.dReg (bits x.opf 21 18)).1 (x.dReg (bits x.opf 21 18)).2

/-- The bundles that may not be repeated (R219). -/
def repIllegal (opc : Nat) : Bool :=
  (decide (0x60 ≤ opc) && decide (opc ≤ 0x65)) || (decide (0x68 ≤ opc) && decide (opc ≤ 0x6B))
    || (decide (0x70 ≤ opc) && decide (opc ≤ 0x74)) || (decide (0x78 ≤ opc) && decide (opc ≤ 0x7D))

/-- A REP of the next bundle, which is fetched here, once (R219): the faults of that fetch are found at the REP (R223). -/
def OpCtx.repeat_ (x : OpCtx) (n : Nat) (poison : Bool) : Fx :=
  let next := (x.pc + 1) % 8192
  let w := Sparse.get (fun _ => (0 : BitVec 64)) x.c.pram next
  let valid := bit (x.s.rd F.SC_STATUS.VALID x.n) (next / 1024)
  let denied := x.c.val rMODE != 2 && bit (x.s.rd F.SC_SEC.PAGES x.n) (next / 1024)
  { faults := causeIf (valid && !denied && repIllegal (w.toNat / 2 ^ 56)) xILLEGAL
      ++ causeIf (x.c.val rLC != 0 && next == x.c.val rLE) xILLEGAL ++ causeIf (decide (4096 < n)) xREP_RANGE
      ++ causeIf poison xPOISON ++ causeIf (!valid && n != 0) xPAGE ++ causeIf (denied && n != 0) xSECURITY,
    flow := .rep n w }

/-- REPI (R248). -/
def opRepi (x : OpCtx) : Fx := if bits x.opf 21 13 ≠ 0 then fxIllegal else x.repeat_ (bits x.opf 12 0) false

/-- REPD (R248). -/
def opRepd (x : OpCtx) : Fx :=
  if bits x.opf 17 0 ≠ 0 then fxIllegal else x.repeat_ (x.dReg (bits x.opf 21 18)).1 (x.dReg (bits x.opf 21 18)).2

/-! ### Entering and leaving modes -/

/-- TRAP (R222, R249): entry to vector 48 with XCAUSE 0x80 + code. R222 names TRAP beside exceptions, and only an exception
raised with EXL = 1 is a double fault. -/
def opTrap (x : OpCtx) : Fx :=
  let y := x.sy
  if !y.zero false true || y.r1 ≠ 0 then fxIllegal
  else
    let cause := 0x80 + y.imm
    { act := fun s =>
        let c := s.core x.n
        (s.setCore x.n (c.setVal rXCAUSE cause)).coreEnter x.n (c.val rPC) 48 1 0x20 }

/-- SCALL (R228): secure mode at bundle 7,168, with XPC, XSR and XMODE saved; EXL and IE stay (notes/assumptions/21.md). -/
def opScall (x : OpCtx) : Fx :=
  if !x.sy.zero false false then fxIllegal
  else
    { faults := causeIf (!bit (x.s.rd F.SC_SEC.PAGES x.n) 7) xSECURITY,
      act := fun s =>
        let c := s.core x.n
        let ret := c.val rPC
        let sr := c.reg rSR
        let c' := c.enter ret 7168 2
        (s.setCore x.n ((c'.setReg rSR sr).setReg rXSR sr)).trcEntry x.n ret 0x21 }

/-- A return: PC, SR and MODE are restored together, after two delay slots that still run as the handler's (R222, R249, Table
SEC-8). The saved registers are those RTI sees (Table SCR-4). -/
def OpCtx.ret (x : OpCtx) (faults : List Nat) (kind : Nat) : Fx :=
  if !x.sy.zero false false then fxIllegal
  else
    let t := (x.c.seen rXPC).v.toNat
    { faults := faults, flow := .back t (x.c.seen rXSR) (x.c.seen rXMODE).v.toNat, addr := some (kind, t) }

/-- SRET (R249). -/
def opSret (x : OpCtx) : Fx :=
  x.ret (causeIf (x.c.val rMODE == 0) xPRIVILEGE ++ causeIf (x.c.val rMODE == 1) xSECURITY) 2

/-- RTI (R222). -/
def opRti (x : OpCtx) : Fx := x.ret (causeIf (x.c.val rMODE == 0) xPRIVILEGE) 1

/-- WAIT (R232, R249): the core gates itself after the bundle. -/
def opWait (x : OpCtx) : Fx :=
  if !x.sy.zero false false then fxIllegal
  else
    { faults := causeIf (x.c.val rMODE == 0) xPRIVILEGE,
      act := fun s => (s.trcGate x.n (s.trcCtx x.n)).setCoreState x.n 4 }

/-! ### Hub operations -/

/-- Software interrupts at the head of a core's hub queue are delivered; a FREE waits for POOL_FREE. -/
def State.drainHub : Nat → State → Nat → State
  | 0, s, _ => s
  | k + 1, s, n =>
    match (s.core n).hub with
    | .swi t :: l => drainHub k ((s.setCore n { s.core n with hub := l }).raiseLine t 3) n
    | _ => s

/-- An entry joins a core's hub queue (R232). -/
def State.hubPush (s : State) (n : Nat) (x : HubOp) : State :=
  (s.setCore n { s.core n with hub := (s.core n).hub ++ [x] }).drainHub 9 n

/-- A posted operation finds its queue of 8 full (R226). -/
def OpCtx.hubFull (x : OpCtx) : Option Nat := if x.c.hub.length < 8 then none else some 3

/-- SWI (R249). -/
def opSwi (x : OpCtx) : Fx :=
  let y := x.sy
  if !y.zero false true || decide (63 < y.imm) then fxIllegal
  else
    { block := x.hubFull, act := if x.hubFull.isSome then id else fun s => s.hubPush x.n (.swi y.imm) }

/-- GET (R229): the core waits in GET_WAIT for a task. -/
def opGet (x : OpCtx) : Fx :=
  if !x.sy.zero false false then fxIllegal
  else
    { faults := causeIf (x.s.rdb F.SC_STATUS.TASK x.n) xHUB_STATE, block := some 2,
      act := fun s => s.trcGate x.n (s.trcCtx x.n) }

/-- A task status that Table SCO-8 lists; a reserved one is recorded as INCOMPLETE (R267). -/
def taskStatus (v : Nat) : Nat := if v ≤ 0x0B then v else stIncomplete

/-- DONE (R230): it waits for the core's transfers, then the open task ends with the status and result word of Dn. -/
def opDone (x : OpCtx) : Fx :=
  let y := x.sy
  if !y.zero true false then fxIllegal
  else
    let d := x.dReg y.r1
    { faults := causeIf (!x.s.rdb F.SC_STATUS.TASK x.n) xHUB_STATE ++ causeIf d.2 xPOISON,
      cycles := 2,
      block := if x.c.xq.isEmpty then none else some 3,
      act := if !x.c.xq.isEmpty then id else fun s =>
        match s.openTask x.n with
        | some t => ((s.closeTask x.n).sat F.DSP_CORE_TASKS.COUNT x.n).endTask t.slot (taskStatus (d.1 % 256)) (d.1 / 256)
        | none => s }

/-- ALLOC (R231): the request goes out, and the core blocks until the pool answers. -/
def opAlloc (x : OpCtx) : Fx :=
  let y := x.sy
  if !y.zero true true || decide (7 < y.imm) then fxIllegal
  else { block := some 3, act := fun s => s.setCore x.n { s.core x.n with alloc := some y.imm } }

/-- FREE (R232): the return is posted; a poisoned address is consumed at the core (R234). -/
def opFree (x : OpCtx) : Fx :=
  let y := x.sy
  if !y.zero true true || decide (7 < y.imm) then fxIllegal
  else
    let d := x.dReg y.r1
    { faults := causeIf d.2 xPOISON, far := some d.1, block := x.hubFull,
      act := if x.hubFull.isSome then id else fun s => s.hubPush x.n (.free d.1 false y.imm) }

/-- XFER (R208): checked at issue and queued; the local start is the A register that address generation sees. A length of
0 counts as misaligned. -/
def opXfer (x : OpCtx) : Fx :=
  let y := x.sy
  if y.b7 ≠ 0 ∨ y.imm ≠ 0 then fxIllegal
  else
    let far := x.dReg y.r1
    let len := x.dReg y.r2
    let a := x.c.seen (16 + y.an)
    let start := a.v.toNat
    let full := decide (8 ≤ x.c.xq.length)
    { faults := causeIf (far.2 || len.2 || a.p) xPOISON
        ++ causeIf (start % 16 != 0 || len.1 % 16 != 0 || len.1 == 0) xALIGN
        ++ causeIf (decide (0x10000 < start + len.1)) xADDRESS
        ++ causeIf (x.c.val rMODE != 2 && x.s.secureRange x.n y.sp (start + len.1 - 1)) xSECURITY,
      far := some far.1,
      block := if full then some 3 else none,
      act := if full then id else fun s =>
        let c := s.core x.n
        s.setCore x.n { c with xq := c.xq ++ [⟨y.dir, y.sp, start, far.1, len.1, y.irq, x.c.val rMODE == 2, 0⟩] } }

/-- XWAIT (R208). -/
def opXwait (x : OpCtx) : Fx :=
  let y := x.sy
  if !y.zero false true || decide (8 < y.imm) then fxIllegal
  else { block := if x.c.xq.length ≤ y.imm then none else some 3 }

/-- BR (R248, Table ISA-11). -/
def execOpBr (core : BitVec 6) (b : Bundle) (s : State) : Host.Outcome State Fault Refusal :=
  .next (s.bundle core.toNat 0x60 b opBr)

/-- BRZ (R248, Table ISA-11). -/
def execOpBrz (core : BitVec 6) (b : Bundle) (s : State) : Host.Outcome State Fault Refusal :=
  .next (s.bundle core.toNat 0x61 b opBrz)

/-- BRNZ (R248, Table ISA-11). -/
def execOpBrnz (core : BitVec 6) (b : Bundle) (s : State) : Host.Outcome State Fault Refusal :=
  .next (s.bundle core.toNat 0x62 b opBrnz)

/-- CALL (R248, Table ISA-11). -/
def execOpCall (core : BitVec 6) (b : Bundle) (s : State) : Host.Outcome State Fault Refusal :=
  .next (s.bundle core.toNat 0x63 b opCall)

/-- JMP (R248, Table ISA-11). -/
def execOpJmp (core : BitVec 6) (b : Bundle) (s : State) : Host.Outcome State Fault Refusal :=
  .next (s.bundle core.toNat 0x64 b opJmp)

/-- CALLR (R248, Table ISA-11). -/
def execOpCallr (core : BitVec 6) (b : Bundle) (s : State) : Host.Outcome State Fault Refusal :=
  .next (s.bundle core.toNat 0x65 b opCallr)

/-- LOOPI (R248, Table ISA-11). -/
def execOpLoopi (core : BitVec 6) (b : Bundle) (s : State) : Host.Outcome State Fault Refusal :=
  .next (s.bundle core.toNat 0x68 b opLoopi)

/-- LOOPD (R248, Table ISA-11). -/
def execOpLoopd (core : BitVec 6) (b : Bundle) (s : State) : Host.Outcome State Fault Refusal :=
  .next (s.bundle core.toNat 0x69 b opLoopd)

/-- REPI (R248, Table ISA-11). -/
def execOpRepi (core : BitVec 6) (b : Bundle) (s : State) : Host.Outcome State Fault Refusal :=
  .next (s.bundle core.toNat 0x6A b opRepi)

/-- REPD (R248, Table ISA-11). -/
def execOpRepd (core : BitVec 6) (b : Bundle) (s : State) : Host.Outcome State Fault Refusal :=
  .next (s.bundle core.toNat 0x6B b opRepd)

/-- TRAP (R249, Table ISA-12). -/
def execOpTrap (core : BitVec 6) (b : Bundle) (s : State) : Host.Outcome State Fault Refusal :=
  .next (s.bundle core.toNat 0x70 b opTrap)

/-- SCALL (R249, Table ISA-12). -/
def execOpScall (core : BitVec 6) (b : Bundle) (s : State) : Host.Outcome State Fault Refusal :=
  .next (s.bundle core.toNat 0x71 b opScall)

/-- SRET (R249, Table ISA-12). -/
def execOpSret (core : BitVec 6) (b : Bundle) (s : State) : Host.Outcome State Fault Refusal :=
  .next (s.bundle core.toNat 0x72 b opSret)

/-- RTI (R249, Table ISA-12). -/
def execOpRti (core : BitVec 6) (b : Bundle) (s : State) : Host.Outcome State Fault Refusal :=
  .next (s.bundle core.toNat 0x73 b opRti)

/-- WAIT (R249, Table ISA-12). -/
def execOpWait (core : BitVec 6) (b : Bundle) (s : State) : Host.Outcome State Fault Refusal :=
  .next (s.bundle core.toNat 0x74 b opWait)

/-- SWI (R249, Table ISA-12). -/
def execOpSwi (core : BitVec 6) (b : Bundle) (s : State) : Host.Outcome State Fault Refusal :=
  .next (s.bundle core.toNat 0x75 b opSwi)

/-- GET (R249, Table ISA-12). -/
def execOpGet (core : BitVec 6) (b : Bundle) (s : State) : Host.Outcome State Fault Refusal :=
  .next (s.bundle core.toNat 0x78 b opGet)

/-- DONE (R249, Table ISA-12). -/
def execOpDone (core : BitVec 6) (b : Bundle) (s : State) : Host.Outcome State Fault Refusal :=
  .next (s.bundle core.toNat 0x79 b opDone)

/-- ALLOC (R249, Table ISA-12). -/
def execOpAlloc (core : BitVec 6) (b : Bundle) (s : State) : Host.Outcome State Fault Refusal :=
  .next (s.bundle core.toNat 0x7A b opAlloc)

/-- FREE (R249, Table ISA-12). -/
def execOpFree (core : BitVec 6) (b : Bundle) (s : State) : Host.Outcome State Fault Refusal :=
  .next (s.bundle core.toNat 0x7B b opFree)

/-- XFER (R249, Table ISA-12). -/
def execOpXfer (core : BitVec 6) (b : Bundle) (s : State) : Host.Outcome State Fault Refusal :=
  .next (s.bundle core.toNat 0x7C b opXfer)

/-- XWAIT (R249, Table ISA-12). -/
def execOpXwait (core : BitVec 6) (b : Bundle) (s : State) : Host.Outcome State Fault Refusal :=
  .next (s.bundle core.toNat 0x7D b opXwait)

/-! ### Between bundles -/

/-- A core is at a boundary outside a REP and outside delay slots (R221). -/
def State.atBoundary (s : State) (n : Nat) : Bool :=
  s.alive && !s.islandOff n && (s.core n).rep == 0 && (s.core n).br.isNone && decide (1 ≤ s.coreState n) &&
    decide (s.coreState n ≤ 4)

/-- A blocking operation is withdrawn (R226, R264): a task being granted returns to the head of its priority queue. -/
def State.withdraw (s : State) (n : Nat) : State :=
  let s := s.setCore n { s.core n with alloc := none }
  match s.dsp.tasks.find? fun t => t.core == n && t.phase == .loading with
  | some t =>
    let top := s.dsp.tasks.foldl (fun m t => max m t.head) 0
    (s.updTask t.slot fun t => { t with phase := .queued, core := 0xFF, head := top + 1 }).refresh
  | none => s

/-- The line that qualifies at a core (R221): the lowest pending and enabled one, with IE = 1, EXL = 0, MODE not secure. -/
def State.lineQualifies (s : State) (n : Nat) : Option Nat :=
  let sr := ((s.core n).seen rSR).v.toNat
  if !bit sr 12 || bit sr 13 || (s.core n).val rMODE == 2 then none
  else (maskBits 4 (s.rd F.SC_IRQ_PEND.PEND n &&& bits sr 27 24)).head?

/-- INTERRUPT_ENTRY (R221, R222). -/
def State.takeInterrupt (s : State) (n : Nat) : State :=
  if !s.atBoundary n then s else
  match s.lineQualifies n with
  | none => s
  | some k =>
    let s := s.wr F.SC_IRQ_PEND.PEND (setBits (s.rd F.SC_IRQ_PEND.PEND n) k k 0) n
    let s := s.withdraw n
    s.coreEnter n ((s.core n).val rPC) (16 + 8 * k) 1 (0x10 + k)

/-- INTERRUPT_ENTRY (R222). -/
def execInterruptEntry (core : BitVec 6) (s : State) : Host.Outcome State Fault Refusal := .next (s.takeInterrupt core.toNat)

/-- XFER_EXCEPTION_TAKEN (R209, R254): at a boundary with EXL = 0. -/
def execXferExceptionTaken (core : BitVec 6) (s : State) : Host.Outcome State Fault Refusal :=
  let n := core.toNat
  .next (
    if !s.atBoundary n || !(s.core n).xferExc || bit ((s.core n).val rSR) 13 then s
    else
      let s := s.withdraw n
      (s.setCore n { s.core n with xferExc := false }).coreRaise n xXFER)

/-- HUB_SIGNAL_INTERRUPT (R172, R221): a rising edge of H[h] raises line 0 of four cores. -/
def execHubSignalInterrupt (h : BitVec 4) (s : State) : Host.Outcome State Fault Refusal :=
  .next <| s.live fun s => s.takeRise h.toNat fun s =>
    s.each (List.range 4) fun s k => s.raiseLine (4 * h.toNat + k) 0

/-- SOFTWARE_INTERRUPT_DOORBELL (R221, R386). -/
def execSoftwareInterruptDoorbell (core : BitVec 6) (s : State) : Host.Outcome State Fault Refusal :=
  .next (s.onlyIf s.hostOpen fun s => s.raiseLine core.toNat 3)

/-- CORE_HALT (R233): after RUN has been committed to 0, at the next boundary that qualifies. The open task ends
INCOMPLETE. -/
def execCoreHalt (core : BitVec 6) (s : State) : Host.Outcome State Fault Refusal :=
  let n := core.toNat
  .next (
    if !(s.core n).halting || !s.atBoundary n then s
    else
      let s := s.withdraw n
      let s := s.setCore n { s.core n with halting := false }
      (s.setCoreState n 5).failOpenTask n)

/-- Core reset and start (R233): every register of Table SCR-1 at its reset value, the transfer queue empty; X, Y and PRAM
stay (R206), and so does the hub queue. A core that had not come to its halt leaves its task as a halt does (R230). -/
def State.coreStart (s : State) (n : Nat) : State :=
  let s := ((s.withdraw n).failOpenTask n).closeTask n
  let c := s.core n
  let s := s.setCore n { x := c.x, y := c.y, pram := c.pram, pageObj := c.pageObj, pageUse := c.pageUse, cyc := c.cyc, hub := c.hub }
  (s.wr F.SC_IRQ_PEND.PEND 0 n).setCoreState n 1

/-- A committed change of SC_CTRL.RUN (R233). A halt of a core that runs nothing is at once. -/
def State.coreRun (s : State) (n : Nat) (was now : Bool) : State :=
  if was == now then s
  else if now then s.coreStart n
  else if s.coreState n = 6 ∨ s.coreState n = 0 then s.setCoreState n 5
  else s.setCore n { s.core n with halting := true }

/-! ### The transfer unit and the pools -/

/-- The head transfer of a core leaves its queue: XQ falls, and line 1 is raised if it was marked (R208). -/
def State.endXfer (s : State) (n : Nat) (x : Xfer) : State :=
  let c := s.core n
  (s.setCore n { c with xq := c.xq.drop 1 }).onlyIf x.irq fun s => s.raiseLine n 1

/-- The bytes of the next descriptor that the head transfer of a core writes into a window, of `size` bytes each, and the
machine with it taken. -/
def State.windowTake (s : State) (n lo hi size : Nat) : Option (Xfer × List PByte × State) :=
  match (s.core n).xq with
  | x :: l =>
    if s.alive ∧ x.toFar ∧ lo ≤ x.far ∧ x.far < hi ∧ x.done + size ≤ x.len then
      let c := s.core n
      some (x, c.localRead x.space (x.local_ + x.done) size,
        s.setCore n { c with xq := { x with done := x.done + size } :: l })
    else none
  | [] => none

/-- TRANSFER_COMPLETE (R208, R260): the head transfer completes. One into a window completes only after every descriptor
it carries has been taken; one that its memory holds completes later. -/
def execTransferComplete (core : BitVec 6) (s : State) : Host.Outcome State Fault Refusal :=
  let n := core.toNat
  .next <| s.live fun s =>
    match (s.core n).xq with
    | [] => s
    | x :: _ =>
      if x.toFar ∧ windowBase ≤ x.far ∧ x.done + 64 ≤ x.len then s
      else if s.memWaits (reqCore n) (x.far * 16) x.len then s
      else
        (s.xferMove n x (x.len - x.done)).endXfer n x

/-- POOL_ALLOC_RESPONSE (R231, R360): the pool answers, and the bundle that holds the ALLOC completes. -/
def execPoolAllocResponse (core : BitVec 6) (s : State) : Host.Outcome State Fault Refusal :=
  let n := core.toNat
  .next <| s.live fun s =>
    match (s.core n).alloc with
    | none => s
    | some p =>
      let empty := (s.poolList p).isEmpty
      let r := s.poolAlloc p
      let s := r.2.setCore n { r.2.core n with alloc := none }
      let c := s.core n
      let w := (Sparse.get (fun _ => (0 : BitVec 64)) c.pram (c.val rPC)).toNat
      let mv (v : Nat) : Move := moveOf (BitVec.ofNat 17 v)
      let xm := c.move false (s.secureRange n false) (mv (bits w 33 17))
      let ym := c.move true (s.secureRange n true) (mv (bits w 16 0))
      s.commitBundle n xm ym
        { w := [dWrite (bits w 55 52) r.1 false], sr := FlagW.apply { z := some empty } false }

/-- POOL_FREE (R232, R361): the head of a core's hub queue reaches its pool. -/
def execPoolFree (core : BitVec 6) (s : State) : Host.Outcome State Fault Refusal :=
  let n := core.toNat
  .next <| s.live fun s =>
    match (s.core n).hub with
    | .free a p k :: l => ((s.setCore n { s.core n with hub := l }).poolFree k a p (reqCore n)).drainHub 9 n
    | _ => s

end Sys2Proof.Machine
end

