-- ==== Sys2Proof/Machine/Trig.lean ====
section
/-! DEFINITION. Sines, cosines and roundings of exact integers, for the radio engine (R277, R287, R290). A sine has 48 bits
after the point: every use rounds it further. -/

namespace Sys2Proof.Machine

/-- π in units of 2⁻⁶⁰. -/
abbrev pi60 : Int := 3622009729038561421

/-- sin(π/2 · r / d) in units of 2⁻⁴⁸, for 0 ≤ r ≤ d: twelve terms of its series. -/
def sinQuarter (r d : Nat) : Int :=
  let x := pi60 * r / (2 * d)
  let y := x * x / 2 ^ 60
  let z := (List.range 12).foldr (fun n (a : Int) => 2 ^ 60 - y * a / 2 ^ 60 / (((2 * n + 2) * (2 * n + 3) : Nat) : Int)) (2 ^ 60)
  (x * z / 2 ^ 60 + 2 ^ 11) / 2 ^ 12

/-- sin(2π · n / d) in units of 2⁻⁴⁸. -/
def turnSin (n : Int) (d : Nat) : Int :=
  let r := (4 * n % (d : Int)).toNat
  match (4 * n / (d : Int) % 4).toNat with
  | 0 => sinQuarter r d
  | 1 => sinQuarter (d - r) d
  | 2 => -sinQuarter r d
  | _ => -sinQuarter (d - r) d

/-- cos(2π · n / d) in units of 2⁻⁴⁸. -/
def turnCos (n : Int) (d : Nat) : Int := turnSin (4 * n + d) (4 * d)

/-- v / 2^k rounded half up. -/
def roundUp (k : Nat) (v : Int) : Int := (2 * v + 2 ^ k) / 2 ^ (k + 1)

/-- v / 2^k rounded half to even. -/
def roundEven (k : Nat) (v : Int) : Int :=
  let q := v / 2 ^ k
  let r := v % 2 ^ k
  if 2 * r < 2 ^ k ∨ (2 * r = 2 ^ k ∧ q % 2 = 0) then q else q + 1

/-- A free deviation, held to one unit either way. -/
def oneUnit (e : Int) : Int := max (-1) (min 1 e)

/-- The product of two complex numbers. -/
def cMul (a b : Int × Int) : Int × Int := (a.1 * b.1 - a.2 * b.2, a.1 * b.2 + a.2 * b.1)

/-- The complex conjugate. -/
def cConj (a : Int × Int) : Int × Int := (a.1, -a.2)

/-- Σ f k for k below n, of complex numbers. -/
def cSum (n : Nat) (f : Nat → Int × Int) : Int × Int :=
  (List.range n).foldl (fun a k => (a.1 + (f k).1, a.2 + (f k).2)) (0, 0)

/-- exp(2πj · n / d) in units of 2⁻⁴⁸. -/
def turn (n : Int) (d : Nat) : Int × Int := (turnCos n d, turnSin n d)

end Sys2Proof.Machine
end

