-- ==== Sys2Proof/Machine/Modem.lean ====
section
/-! DEFINITION. The arithmetic of the radio engine that touches no state: the mixer (R277), the transforms (R287), and the
spread-PSK modulation, despreading and soft outputs (R290, R291, R293, R298). -/

namespace Sys2Proof.Machine

open Sys2Proof.Config

/-- The components of a complex sample word (R274). -/
def cplx (w : Nat) : Int × Int := (sint 16 w, sint 16 (w / 65536))

/-- A complex sample word from its components, each saturated to 16 bits; how many saturated. -/
def packCplx (x : Int × Int) : Nat × Nat :=
  (toBits 16 (satS 16 x.1) + 65536 * toBits 16 (satS 16 x.2), b2n (satS 16 x.1 != x.1) + b2n (satS 16 x.2 != x.2))

/-! ### Mixer and transforms -/

/-- Cosine and sine of an NCO phase to 18 bits, in units of 2⁻¹⁷. Their last bit is free: R277 gives no rounding
(notes/assumptions/143.md). -/
def ncoTurn (phase : Nat) : Int × Int :=
  let e := turn phase (2 ^ 32)
  let t := ncoTrim phase
  (roundUp 31 e.1 + oneUnit t.1, roundUp 31 e.2 + oneUnit t.2)

/-- A link sample times exp(∓j2πφ / 2³²), the upper sign where not `tx`, in units of 2⁻¹⁷ (R277). -/
def mixed (tx : Bool) (w phase : Nat) : Int × Int :=
  let e := ncoTurn phase
  cMul (cplx w) (if tx then e else cConj e)

/-- One component of a transform output from its exact sum in units of 2⁻⁴⁸: exact to 24 bits, rounded half to even to a
16-bit component, not yet saturated (R287). Where 24 bits do not hold the value, the last is free
(notes/assumptions/144.md). -/
def xformRound (scale : Nat) (sum trim : Int) : Int :=
  let k := 40 + scale
  roundEven 8 (roundUp k sum + (if sum % 2 ^ k = 0 then 0 else oneUnit trim))

/-- Output k of a transform of N inputs: s · Σ x[n] exp(∓j2πnk/N), the upper sign for FFT and DFT (R287). -/
def xform (op n scale : Nat) (input : List Nat) (k : Nat) : Int × Int :=
  let sum := cSum n fun i => cMul (cplx (input.getD i 0)) (turn (if op % 2 = 0 then -((i * k : Nat) : Int) else (i * k : Nat)) n)
  let t := xformTrim op n scale input k
  (xformRound scale sum.1 t.1, xformRound scale sum.2 t.2)

/-! ### Profiles (R290, Table RAD-12) -/

/-- A profile of a receiver or a transmitter. -/
structure Profile where
  map : Nat
  spread : Nat
  nchip : Nat
  bps : Nat
  base : Nat
  osr : Nat
  rrc : Bool
  rolloff : Nat
  preSym : Nat
  sfd : Nat
  sfdLen : Nat
  hdr : Nat
  preLen : Nat
  maxLen : Nat

/-- Taps that a profile uses: one pattern or sequence, or the codewords of its table (R290). -/
def Profile.taps (p : Profile) : Nat := if p.spread = 2 then p.nchip * 2 ^ p.bps else p.nchip

/-- A preamble symbol period in samples (R294). -/
def Profile.period (p : Profile) : Nat := p.nchip * p.osr

/-- The packet's data is that of the HRP UWB PHY: burst position and polarity (Table RAD-4, preset 2). -/
def Profile.uwb (p : Profile) : Bool := p.hdr == 2

/-- Bits of a data symbol (R290): of a code table, BPS; else by MAP, O-QPSK putting single chips on I and Q in turn; for UWB a
burst's position and polarity. -/
def Profile.symBits (p : Profile) : Nat :=
  if p.uwb then 2 else if p.spread = 2 then p.bps else match p.map with | 2 => 2 | 4 => 3 | _ => 1

/-- Chips of a data symbol (R290): one without spreading; for UWB the 32 burst positions of a symbol at 0.85 Mbit/s
(notes/assumptions/145.md). -/
def Profile.dataChips (p : Profile) : Nat := if p.uwb then 32 else if p.spread = 0 then 1 else p.nchip

/-- The length of a data symbol in samples. -/
def Profile.symLen (p : Profile) : Nat := p.dataChips * p.osr

/-- Header bits by HDR (R290), as they are sent: 19 of a UWB PHR, each with its polarity bit. -/
def Profile.hdrBits (p : Profile) : Nat := match p.hdr with | 0 => 0 | 2 => 38 | _ => 8

/-- Bits sent for a payload of n octets. -/
def Profile.dataBits (p : Profile) (n : Nat) : Nat := if p.uwb then 2 * uwbSymbols n else 8 * n

/-- The header that received bits spell: the systematic bits of a UWB PHR, else all of them. -/
def Profile.headerOf (p : Profile) (b : Nat → Bool) : Nat :=
  if p.uwb then (List.range 19).foldl (fun n j => n + b2n (b (2 * j)) * 2 ^ j) 0
  else (List.range p.hdrBits).foldl (fun n j => n + b2n (b j) * 2 ^ j) 0

/-- The header check (R290, Table RAD-4): payload octets of a header that passes. -/
def Profile.header (p : Profile) (bits_ : Nat) : Option Nat :=
  match p.hdr with
  | 0 => some p.maxLen
  | 1 => if bit bits_ 7 = false ∧ 5 ≤ bits_ % 128 then some (bits_ % 128) else none
  | 2 => match uwbHeader bits_ with
    | some n => if n ≤ p.maxLen then some n else none
    | none => none
  | _ => some bits_

/-! ### Chips (R290) -/

/-- The constellation point of a symbol's bits, in units of 2⁻¹⁴, by the usual Gray mapping (notes/assumptions/145.md). -/
def Profile.point (p : Profile) (v : Nat) : Int × Int :=
  let at_ (k : Nat) : Int × Int := ((turnCos k 8 + 2 ^ 33) / 2 ^ 34, (turnSin k 8 + 2 ^ 33) / 2 ^ 34)
  match p.map with
  | 2 => at_ (match v % 4 with | 0 => 1 | 1 => 3 | 2 => 7 | _ => 5)
  | 4 => at_ ((v ^^^ (v / 2) ^^^ (v / 4)) % 8)
  | _ => if bit v 0 then (-16384, 0) else (16384, 0)

/-- A number times j^k. -/
def quarterTurns (k : Nat) (z : Int × Int) : Int × Int :=
  match k % 4 with
  | 0 => z
  | 1 => (-z.2, z.1)
  | 2 => (-z.1, -z.2)
  | _ => (z.2, -z.1)

/-- A chip at its place c in the packet: in O-QPSK even chips go on I and odd chips on Q, whose pulse begins a chip period
later; chips of a code table under π/2-BPSK rotate as symbols do (R290). -/
def Profile.place (p : Profile) (c : Nat) (z : Int × Int) : Int × Int :=
  if p.map = 3 then (if c % 2 = 0 then (z.1, 0) else (0, z.1))
  else if p.map = 1 ∧ p.spread = 2 then quarterTurns c z
  else z

/-- Chip i of codeword k, from the taps of a profile. -/
def chipOf (p : Profile) (taps : List (BitVec 32)) (k i : Nat) : Int × Int :=
  cplx (taps.getD (k * p.nchip + i) 0).toNat

/-- Chip i of a symbol of the preamble or the SFD, in units of 2⁻¹⁴: a codeword, or the pattern or sequence by the sign that
the symbol's value gives it: 0 none, 1 plus, 2 minus (R290). -/
def Profile.syncChip (p : Profile) (taps : List (BitVec 32)) (v i : Nat) : Int × Int :=
  let sign : Int := if p.spread = 2 then 16384 else match v with | 0 => 0 | 2 => -16384 | _ => 16384
  let z := chipOf p taps (if p.spread = 2 then v else 0) i
  (sign * z.1, sign * z.2)

/-- Chip i of data symbol q with value v, in units of 2⁻¹⁴ (R290). `level`: the amplitude of a chip that no tap gives. For
UWB, a burst at the position that bit 0 and the scrambler's hop give, of the polarity that bit 1 and the scrambler give. -/
def Profile.dataChip (p : Profile) (taps : List (BitVec 32)) (level : Int) (q v i : Nat) : Int × Int :=
  if p.uwb then
    let h := uwbHop q
    if i = 16 * (v % 2) + h.1 % 8 then ((if bit v 1 != h.2 then -16384 else 16384) * level, 0) else (0, 0)
  else if p.spread = 2 then cMul (16384, 0) (chipOf p taps v i)
  else
    let s := quarterTurns (if p.map = 1 then q else 0) (p.point v)
    if p.spread = 0 then (s.1 * level, s.2 * level) else cMul s (chipOf p taps 0 i)

/-! ### Transmission (R290, R298) -/

/-- The amplitude of a chip pulse at sample k from its start, in units of 2⁻¹⁴ (R290): half-sine of one chip period, two for
O-QPSK; or root-raised-cosine of unit symbol energy over 8 chips. UWB pulses are formed by the converter. Where in a chip
period its samples lie is free. -/
def Profile.pulse (p : Profile) (k : Nat) : Int :=
  if p.osr ≤ 1 then (if k = 0 then 16384 else 0)
  else if !p.rrc then
    let n := if p.map = 3 then 2 * p.osr else p.osr
    if k < n then (turnSin (65536 * k + pulseOffset % 65536) (131072 * n) + 2 ^ 33) / 2 ^ 34 else 0
  else
    let n : Int := 65536 * k + pulseOffset % 65536 - 262144 * p.osr
    let d := 65536 * p.osr
    let a := p.rolloff
    let c (x : Int) (y : Nat) : Int := turnCos x y
    if 8 * p.osr < k then 0
    else if n = 0 then 16384 * (256 - a) / 256 + 16384 * 4 * a * 2 ^ 60 / (256 * pi60)
    else if (a * n).natAbs = 64 * d then
      let s := turnSin 32 a + c 32 a + 2 * (turnSin 32 a - c 32 a) * 2 ^ 60 / pi60
      a * s * 11585 / (256 * 2 ^ 48)
    else
      let num := turnSin (n * (256 - a)) (512 * d) + 4 * a * n * c (n * (256 + a)) (512 * d) / (256 * d)
      let e : Int := (64 * d : Nat)
      num * 2 ^ 26 * d * (e * e) / (pi60 * n * (e * e - a * n * (a * n)))

/-- Symbols of preamble and SFD. -/
def Profile.syncSymbols (p : Profile) : Nat := (if p.preLen = 0 then 1024 else p.preLen) + p.sfdLen

/-- The value of symbol k of preamble and SFD. -/
def Profile.syncValue (p : Profile) (k : Nat) : Nat :=
  let n := if p.preLen = 0 then 1024 else p.preLen
  if k < n then (if p.spread = 2 then p.preSym else 1) else p.sfd / 16 ^ (k - n) % 16

/-- The bits sent after the SFD (R290): header and octets, least significant bit first. -/
def Profile.bitsSent (p : Profile) (data : List Byte) : List Bool :=
  let octets := data.flatMap fun b => (List.range 8).map fun i => b.getLsbD i
  match p.hdr with
  | 0 => octets
  | 2 => uwbCode data
  | _ => (List.range 8).map (bit data.length) ++ octets

/-- The samples of a packet of n octets. -/
def Profile.length (p : Profile) (n : Nat) : Nat :=
  p.syncSymbols * p.period + ceilDiv (p.hdrBits + p.dataBits n) p.symBits * p.symLen

/-- Chip c of a packet, in units of 2⁻¹⁴; none after its last. -/
def Profile.chip (p : Profile) (taps : List (BitVec 32)) (data : List Byte) (c : Nat) : Int × Int :=
  let sync := p.syncSymbols * p.nchip
  if c < sync then p.place c (p.syncChip taps (p.syncValue (c / p.nchip)) (c % p.nchip))
  else
    let b := p.bitsSent data
    let q := (c - sync) / p.dataChips
    let v := (List.range p.symBits).foldl (fun n j => n + b2n (b.getD (q * p.symBits + j) false) * 2 ^ j) 0
    if p.hdrBits + p.dataBits data.length ≤ q * p.symBits then (0, 0)
    else p.place c (p.dataChip taps txLevel q v ((c - sync) % p.dataChips))

/-- Sample n of a packet: the chips whose pulses reach it, rounded half up (R290, R298). -/
def Profile.txSample (p : Profile) (taps : List (BitVec 32)) (data : List Byte) (n : Nat) : Int × Int :=
  let z := cSum 9 fun k =>
    if n / p.osr < k then (0, 0)
    else
      let c := n / p.osr - k
      let z := p.chip taps data c
      let a := p.pulse (n - c * p.osr)
      (z.1 * a, z.2 * a)
  (roundUp 28 z.1, roundUp 28 z.2)

/-! ### Reception (R291, R294) -/

/-- The correlation with chips r of the samples x, newest first, of which the newest is the last chip's (R294). -/
def correlate (n osr : Nat) (r : Nat → Int × Int) (x : List Nat) : Int × Int :=
  cSum n fun i => cMul (cConj (r i)) (cplx (x.getD ((n - 1 - i) * osr) 0))

/-- The coherent correlation: along the carrier phase that the receiver has estimated and tracked, in 2⁻³² turns. -/
def coherent (c : Int × Int) (phase : Nat) : Int :=
  let e := turn phase (2 ^ 32)
  (c.1 * e.1 + c.2 * e.2) / 2 ^ 48

/-- The greatest of some numbers. -/
def greatest (l : List Int) : Int := l.foldl max (l.headD 0)

/-- The coherent correlation with value v of data symbol q, whose last chip is the newest sample of x, in units of
2⁻²⁹ of a component's least significant bit. -/
def Profile.symCorr (p : Profile) (taps : List (BitVec 32)) (x : List Nat) (phase q v : Nat) : Int :=
  coherent (correlate p.dataChips p.osr (fun i => p.place (q * p.dataChips + i) (p.dataChip taps 32768 q v i)) x) phase

/-- M_j of bit j of a data symbol, in the same units (R291): the largest coherent correlation over the hypotheses in which
the bit is 0, less the largest over those in which it is 1. -/
def Profile.metric (p : Profile) (taps : List (BitVec 32)) (x : List Nat) (phase q j : Nat) : Int :=
  let vs := List.range (2 ^ p.symBits)
  let top (b : Bool) : Int := greatest ((vs.filter fun v => bit v j == b).map (p.symCorr taps x phase q))
  top false - top true

/-- The symbol of the SFD decided from samples whose newest is its last chip's (R290): the codeword that correlates best, or
the sign of the preamble symbol; none below a threshold that the spec does not give. -/
def Profile.decideSfd (p : Profile) (taps : List (BitVec 32)) (x : List Nat) (phase : Nat) : Nat :=
  let corr (v : Nat) : Int := coherent (correlate p.nchip p.osr (fun i => p.place i (p.syncChip taps v i)) x) phase
  if p.spread = 2 then
    ((List.range (2 ^ p.bps)).foldl (fun (b : Nat × Int) v => if b.2 < corr v then (v, corr v) else b) (0, corr 0)).1
  else if corr 1 < sfdFloor x ∧ -corr 1 < sfdFloor x then 0
  else if 0 ≤ corr 1 then 1 else 2

end Sys2Proof.Machine
end

