-- ==== Sys2Proof/Machine/Radio.lean ====
section
/-! DEFINITION. The radio engine (R274 to R303): stream slots, cell timing, transmitters, transforms. -/

namespace Sys2Proof.Machine

open Sys2Proof.Config

/-- Stream slot i. -/
def State.slot (s : State) (i : Nat) : RadSlot := Sparse.get (fun _ => {}) s.rad.slots i

/-- The machine with stream slot i set. -/
def State.setSlot (s : State) (i : Nat) (x : RadSlot) : State :=
  s.setRad { s.rad with slots := Sparse.set (fun _ => {}) s.rad.slots i x }

/-- A radio event (R303). -/
def State.radEvent (s : State) (code unit v : Nat) : State :=
  s.event code sevWarn (sourceId code 0 unit) (payload [(16, 8, v)])

/-! ### Rates and times (R276, R281) -/

/-- f_B of a slot, as a numerator and a denominator in samples per second. -/
def State.fbNum (s : State) (i : Nat) : Nat := s.rd F.RAD_SLOT_RATE.FL i * s.rd F.RAD_SLOT_RSMP.RATIO i
def State.fbDen (s : State) (i : Nat) : Nat := 2 ^ (24 + s.rd F.RAD_SLOT_RSMP.H i)

/-- T_s of a slot. -/
def State.slotStart (s : State) (i : Nat) : Nat := s.rd64 F.RAD_SLOT_START_LO.TS i

/-- The nominal time of link sample k, rounded down to a tick (R281). -/
def State.linkTime (s : State) (i k : Nat) : Nat := s.slotStart i + k * 1000000000 / s.rd F.RAD_SLOT_RATE.FL i

/-- The nominal time of baseband sample m in units of 2⁻¹⁶ tick (R281). -/
def State.bbTime16 (s : State) (i m : Nat) : Nat := s.slotStart i * 65536 + m * 65536000000000 * s.fbDen i / s.fbNum i

/-- The nominal time of baseband sample m, rounded down to a tick. -/
def State.bbTime (s : State) (i m : Nat) : Nat := s.bbTime16 i m / 65536

/-- The first baseband sample at or after a TB instant (R281). -/
def State.bbAt (s : State) (i t : Nat) : Nat := ceilDiv ((t - s.slotStart i) * s.fbNum i) (1000000000 * s.fbDen i)

/-- The instant at which the group of baseband sample m is fetched for transmission (R283). -/
def State.fetchTime (s : State) (i m : Nat) : Nat := s.bbTime i (m / 16 * 16) - s.rd F.RAD_GLB_LEAD.LEAD

/-- What resampler and half-band stages are set to. -/
def State.resampling (s : State) (i : Nat) : Nat × Nat := (s.rd F.RAD_SLOT_RSMP.RATIO i, s.rd F.RAD_SLOT_RSMP.H i)

/-- The settings a COMMIT may change while a slot runs, in force at a nominal time: FREQ, RX_GAIN, TX_GAIN, FIRSET, WIN
(R284). -/
def State.slotSet (s : State) (i t : Nat) : Nat × Nat × Nat × Nat × Nat :=
  let now := (s.rd F.RAD_SLOT_NCO.FREQ i, s.rd F.RAD_SLOT_GAIN.RX_GAIN i, s.rd F.RAD_SLOT_GAIN.TX_GAIN i,
    s.rd F.RAD_SLOT_FE.FIRSET i, s.rd F.RAD_SLOT_FE.WIN i)
  match (s.slot i).old.find? fun e => decide (t < e.1) with
  | some e => e.2
  | none => now

/-- RAD_SLOT_GD shows the delay of the receive chain as it is set (R281). -/
def State.showDelay (s : State) (i : Nat) : State :=
  s.wr F.RAD_SLOT_GD.GD (radDelay (s.resampling i) (s.rd F.RAD_SLOT_RATE.FL i) (s.rd F.RAD_SLOT_FE.FIRSET i)) i

/-- RAD_SLOT_STAT.RUNNING: 1 from the start instant of an enabled slot (Table RAD-10). -/
def State.showRunning (s : State) (i : Nat) : State :=
  s.wrb F.RAD_SLOT_STAT.RUNNING (s.rdb F.RAD_SLOT_CFG.EN i && decide (s.slotStart i ≤ s.now)) i

/-! ### Front end (R276 to R280) -/

/-- Coefficient h_i of a set (R278). -/
def State.firCoef (s : State) (set i : Nat) : Int := s.rdS F.RAD_FIR.COEF set (if i < 32 then i else 63 - i)

/-- The channel FIR over the last 64 inputs, newest first, rounded half up; FIRSET 15 bypasses it (R278). -/
def State.fir (s : State) (set : Nat) (x : List (Int × Int)) : Int × Int :=
  if set = 15 then x.getD 0 (0, 0)
  else
    let sum := (List.range 64).foldl (fun (a : Int × Int) i =>
      let c := s.firCoef set i
      let v := x.getD i (0, 0)
      (a.1 + c * v.1, a.2 + c * v.2)) (0, 0)
    ((sum.1 + 65536) / 131072, (sum.2 + 65536) / 131072)

/-- The gain stage before saturation: G = GAIN / 4,096, rounded half up (R279). -/
def applyGain (g : Nat) (x : Int × Int) : Int × Int := ((x.1 * g + 2048) / 4096, (x.2 * g + 2048) / 4096)

/-- Steps of 0.125 dB, rounded down, of a ratio a / b: the greatest n from −2,048 to `top` with 10^n · b^80 ≤ a^80; −2,048
for a ratio of 0 (R280). -/
def eighthDb (top : Nat) (a b : Nat) : Int :=
  if a = 0 then -2048
  else (List.range (top + 2048)).foldl (fun (n : Int) (k : Nat) =>
    let v : Int := (k : Int) - 2047
    let ok := if v < 0 then decide (b ^ 80 ≤ a ^ 80 * 10 ^ v.natAbs) else decide (10 ^ v.natAbs * b ^ 80 ≤ a ^ 80)
    if ok then v else n) (-2048)

/-- The RSSI of a window of powers (R280). -/
def rssiOf (win : Nat) (p : List Nat) : Int := eighthDb 2047 ((p.take (2 ^ win)).foldl (· + ·) 0) (2 ^ win * 2 ^ 30)

/-! ### Receive rings (R282) -/

/-- A group of samples, whose first has index m, is written to the receive ring of slot i, and WR_IDX, the index of the next
sample to be written, after it. The first group of a slot that started within one is shorter. -/
def State.ringGroup (s : State) (i m : Nat) (g : List (Nat × Bool)) : State :=
  let base := s.rd F.RAD_SLOT_RXRING.BASE i * 16
  let pos := m % 2 ^ s.rd F.RAD_SLOT_RING.RX_SIZE i
  let w := s.memWrite (reqRadio 0) (base + 64 + 4 * pos) (g.flatMap fun x => (leBytes 4 x.1).map fun b => (b, x.2))
  w.s.put (reqRadio 0) base (leBytes 8 (m + g.length))

/-! ### Spread-PSK receivers (R290 to R297) -/

/-- Receiver r. -/
def State.radRx (s : State) (r : Nat) : RadRx := Sparse.get (fun _ => {}) s.rad.rxs r

/-- The machine with receiver r set. -/
def State.setRadRx (s : State) (r : Nat) (x : RadRx) : State :=
  s.setRad { s.rad with rxs := Sparse.set (fun _ => {}) s.rad.rxs r x }

/-- A tap. -/
def State.tap (s : State) (i : Nat) : BitVec 32 := Sparse.get (fun _ => 0) s.rad.taps i

/-- A receiver's profile. -/
def State.rxProfile (s : State) (r h : Nat) : Profile :=
  { map := s.rd F.RAD_RX_PROF_A.MAP r h, spread := s.rd F.RAD_RX_PROF_A.SPREAD r h, nchip := s.rd F.RAD_RX_PROF_A.NCHIP r h
    bps := s.rd F.RAD_RX_PROF_A.BPS r h + 1, base := s.rd F.RAD_RX_PROF_A.TAP_BASE r h, osr := s.rd F.RAD_RX_PROF_B.OSR r h
    rrc := s.rdb F.RAD_RX_PROF_B.PULSE r h, rolloff := s.rd F.RAD_RX_PROF_B.ROLLOFF r h
    preSym := s.rd F.RAD_RX_PROF_B.PRE_SYM r h, sfd := s.rd F.RAD_RX_PROF_C.SFD r h
    sfdLen := s.rd F.RAD_RX_PROF_D.SFD_LEN r h, hdr := s.rd F.RAD_RX_PROF_D.HDR r h
    preLen := s.rd F.RAD_RX_PROF_D.PRE_LEN r h, maxLen := s.rd F.RAD_RX_PROF_D.MAXLEN r h }

/-- A transmitter's profile. -/
def State.txProfile (s : State) (t : Nat) : Profile :=
  { map := s.rd F.RAD_TX_PROF_A.MAP t, spread := s.rd F.RAD_TX_PROF_A.SPREAD t, nchip := s.rd F.RAD_TX_PROF_A.NCHIP t
    bps := s.rd F.RAD_TX_PROF_A.BPS t + 1, base := s.rd F.RAD_TX_PROF_A.TAP_BASE t, osr := s.rd F.RAD_TX_PROF_B.OSR t
    rrc := s.rdb F.RAD_TX_PROF_B.PULSE t, rolloff := s.rd F.RAD_TX_PROF_B.ROLLOFF t
    preSym := s.rd F.RAD_TX_PROF_B.PRE_SYM t, sfd := s.rd F.RAD_TX_PROF_C.SFD t
    sfdLen := s.rd F.RAD_TX_PROF_D.SFD_LEN t, hdr := s.rd F.RAD_TX_PROF_D.HDR t
    preLen := s.rd F.RAD_TX_PROF_D.PRE_LEN t, maxLen := s.rd F.RAD_TX_PROF_D.MAXLEN t }

/-- The taps of a profile. -/
def State.profTaps (s : State) (p : Profile) : List (BitVec 32) := (List.range p.taps).map fun k => s.tap (p.base + k)

/-- |c|² of the correlation with the preamble symbol that ends at the newest sample (R294). -/
def State.corr (s : State) (p : Profile) (x : List Nat) : Nat :=
  let taps := s.profTaps p
  let c := correlate p.nchip p.osr (fun i => p.place i (chipOf p taps (if p.spread = 2 then p.preSym else 0) i)) x
  (c.1 * c.1 + c.2 * c.2).toNat

/-- Circular distance of two sample indices on a grid of period n. -/
def ringDist (n a b : Nat) : Nat := let d := (a + n - b % n) % n; min d (n - d)

/-- PMR in units of 0.25 dB, rounded down, of best · n / sum: half the number of 0.125 dB steps (R294, Table RAD-7). -/
def pmrOf (best n sum : Nat) : Nat := (eighthDb 2047 (best * n) sum / 2).toNat

/-- Peaks that lie within one sample of one another, on a grid of n samples (R294). -/
def peaksAgree (n : Nat) (l : List Nat) : Bool := l.all fun a => l.all fun b => decide (ringDist n a b ≤ 1)

/-- One correlator output at sample m enters a search: at the end of a period the profile may confirm, when the last `qual`
periods in a row had peaks that agree; a confirmation dies once `pend` periods pass without one at its timing (R294). `skip`:
the peak is ignored. -/
def RxHyp.step (h : RxHyp) (n th qual pend : Nat) (m c : Nat) (skip : Bool) : RxHyp × Bool :=
  let better := !skip && decide (h.best < c)
  let h := { h with
    count := h.count + 1, sum := h.sum + c, best := if better then c else h.best, bestAt := if better then m else h.bestAt }
  if h.count < n then (h, false)
  else
    let pmr := if h.best = 0 then 0 else pmrOf h.best n h.sum
    let ok := h.best != 0 && decide (th ≤ pmr)
    let run := if ok then (h.bestAt :: h.run).take qual else []
    let missed := if ok && decide (ringDist n h.bestAt h.timing ≤ 1) then 0 else h.missed + 1
    let h := { h with
      count := 0, sum := 0, best := 0, run := run, missed := missed, at_ := if pend ≤ missed then none else h.at_ }
    if run.length = qual ∧ peaksAgree n run then ({ h with timing := h.bestAt, pmr := pmr, at_ := some m, missed := 0 }, true) else (h, false)

/-- States of the main path (Table RAD-11). -/
abbrev rxOff : Nat := 0
abbrev rxIdle : Nat := 1
abbrev rxDwell : Nat := 2
abbrev rxQualify : Nat := 3
abbrev rxSfdWait : Nat := 4
abbrev rxReceive : Nat := 5

/-- The state of the main path is set; the sample of entry is the newest. -/
def State.rxGo (s : State) (r st : Nat) : State :=
  (s.setRadRx r { s.radRx r with entered := (s.radRx r).m, main := {}, syms := [], hdr := none }).wr F.RAD_RX_STATUS.STATE st r

/-- Entry to SFD_WAIT with profile h at a timing (R295, R296). -/
def State.rxHold (s : State) (r h timing pmr rssi : Nat) : State :=
  let s := s.rxGo r rxSfdWait
  let s := s.setRadRx r { s.radRx r with timing := timing, pmr := pmr }
  (s.wr F.RAD_RX_STATUS.REF rssi r).wr F.RAD_RX_STATUS.PROFILE h r

/-- SFD_WAIT on the pending hypothesis, the latest confirmation still alive, or IDLE (Table RAD-5). -/
def State.rxRelease (s : State) (r rssi : Nat) : State :=
  let x := s.radRx r
  let live := x.hyps.filter fun e => e.2.at_.isSome
  let best := live.foldl (init := (none : Option (Nat × RxHyp))) fun b e =>
    match b with
    | none => some e
    | some y => if y.2.at_.getD 0 < e.2.at_.getD 0 then some e else some y
  match best with
  | some e => s.rxHold r e.1 e.2.timing e.2.pmr rssi
  | none => s.rxGo r rxIdle

/-- The samples of the packet held, newest first. -/
def RadRx.packet (x : RadRx) : List Nat := x.x.take (x.m + 1 - x.timing)

/-- LLR of bit j of the packet held (R291): M_j of its symbol, whose last chip is the newest sample taken here. -/
def State.rxLlr (s : State) (r : Nat) (p : Profile) (x : RadRx) (j : Nat) : Int :=
  let taps := s.profTaps p
  let q := j / p.symBits
  let samples := x.packet.drop (x.m - (x.sfdEnd + (q + 1) * p.symLen))
  max (-127) (min 127 (roundUp (29 + s.rd F.RAD_RX_LLR.SHIFT r) (p.metric taps samples (rxPhase taps samples) q (j % p.symBits))))

/-- RD_IDX of a ring read as the radio engine; a poisoned field is taken as unchanged (Table MEM-4, 6). -/
def State.radIdx (s : State) (req far ofs was : Nat) : Nat × State :=
  let r := s.memRead req (far * 16 + ofs) 8
  if poisoned r.bytes then (was, r.s.poisonConsumed req (far * 16 + ofs) 6)
  else (leNat (plain r.bytes), r.s)

/-- A record is written to the receiver's ring, or dropped (R297, Table RAD-7). -/
def State.rxRecord (s : State) (r status : Nat) (p : Profile) (llrs : List Byte) : State :=
  let x := s.radRx r
  let slot := s.rd F.RAD_RX_CFG.SLOT r
  let t := s.bbTime16 slot x.sfdEnd
  let frac := (t % 65536 + rxFrac (s.profTaps p) x.packet) % 65536
  let phr := match x.hdr with | some h => h.1 | none => 0
  let h := leBytes 8 (t / 65536) ++ leBytes 2 frac ++ leBytes 1 status ++ leBytes 1 (s.rd F.RAD_RX_STATUS.PROFILE r)
    ++ leBytes 2 (s.rd F.RAD_RX_STATUS.REF r) ++ leBytes 2 x.pmr ++ leBytes 4 llrs.length ++ leBytes 4 phr
    ++ leBytes 4 (toBits 32 (rxCfo (s.profTaps p) x.packet)) ++ leBytes 4 x.written
  let data := h ++ padTo (ceilDiv llrs.length 16 * 16) llrs
  let base := s.rd F.RAD_RX_OUT.BASE r
  let size := 2 ^ s.rd F.RAD_RX_OUTCFG.SIZE r
  let q := s.radIdx (reqRadio 1) base 8 x.rd
  let s := q.2.setRadRx r { x with rd := q.1 }
  if q.1 + size < x.wr + data.length then (s.sat F.RAD_RX_DROP.COUNT r).radEvent 0x0803 (0x100 + r) x.timing
  else
    let s := (List.range data.length).foldl (fun s k =>
      s.put (reqRadio 1) (base * 16 + 64 + (x.wr + k) % size) [data.getD k 0]) s
    let s := s.put (reqRadio 1) (base * 16) (leBytes 8 (x.wr + data.length))
    let s := s.setRadRx r { s.radRx r with wr := x.wr + data.length, written := (x.written + 1) % 2 ^ 32 }
    s.capNotify 7 r (if status = stDone then 1 else if status = stPreempted then 2 else 3)

/-- Receiver r with nothing received: only its ring and its count of records go on (R297). -/
def State.rxBlank (s : State) (r : Nat) : State :=
  let x := s.radRx r
  s.setRadRx r { wr := x.wr, rd := x.rd, written := x.written }

/-- A receiver stops (Table RAD-5, first row): a packet in RECEIVE is recorded INCOMPLETE. -/
def State.rxStop (s : State) (r : Nat) : State :=
  let s := s.onlyIf (s.rd F.RAD_RX_STATUS.STATE r == rxReceive) fun s =>
    s.rxRecord r stIncomplete (s.rxProfile r (s.rd F.RAD_RX_STATUS.PROFILE r)) []
  (s.rxBlank r).wr F.RAD_RX_STATUS.STATE rxOff r

/-- A committed EN of a receiver. -/
def State.rxEnabled (s : State) (r : Nat) (was now : Bool) : State :=
  if now && !was then (s.rxBlank r).wr F.RAD_RX_STATUS.STATE rxIdle r
  else if was && !now then s.rxStop r
  else s

/-- SFD_WAIT at the end of a symbol: the SFD is complete, or the wait has lasted SFD_WIN symbols. -/
def State.rxSfd (s : State) (r : Nat) (p : Profile) (pre : Bool) (act : State → State) (rssi : Nat) : State :=
  let x := s.radRx r
  let end_ := decide (x.entered < x.m) && (x.m + p.period - x.timing % p.period) % p.period == 0
  let taps := s.profTaps p
  let syms := if end_ then p.decideSfd taps x.packet (rxPhase taps x.packet) :: x.syms else x.syms
  let s := s.setRadRx r { x with syms := syms }
  let want := ((List.range p.sfdLen).map fun k => p.sfd / 16 ^ k % 16).reverse
  if end_ && decide (syms.take p.sfdLen = want) then
    let s := (s.rxGo r rxReceive).capNotify 7 r 0
    s.setRadRx r { s.radRx r with sfdEnd := (s.radRx r).m }
  else if pre then act s
  else if s.rd F.RAD_RX_QUAL.SFD_WIN r ≤ syms.length then (s.sat F.RAD_RX_SFDTO.COUNT r).rxRelease r rssi
  else s

/-- RECEIVE: the header check once its bits are there, the record after the last bit, or a pre-emption. -/
def State.rxPacket (s : State) (r : Nat) (p : Profile) (pre : Bool) (act : State → State) (rssi : Nat) : State :=
  let x := s.radRx r
  let got := (x.m - x.sfdEnd) / p.symLen * p.symBits
  let llr (j : Nat) : Int := s.rxLlr r p x j
  let hdr := x.hdr.isNone && decide (p.hdrBits ≤ got)
  let bits_ := p.headerOf fun j => decide (llr j < 0)
  let bad := hdr && (p.header bits_).isNone
  let h := if hdr then (p.header bits_).map fun n => (bits_, n) else x.hdr
  let s := s.setRadRx r { x with hdr := h }
  let last := match h with | some e => decide (p.hdrBits + p.dataBits e.2 ≤ got) | none => false
  if last then
    let n := match h with | some e => p.dataBits e.2 | none => 0
    let l := (List.range n).map fun j => BitVec.ofInt 8 (llr (p.hdrBits + j))
    ((s.rxRecord r stDone p l).sat F.RAD_RX_PKTS.COUNT r).rxRelease r rssi
  else if bad then (s.sat F.RAD_RX_FALSE.COUNT r).rxRelease r rssi
  else if pre then act ((s.rxRecord r stPreempted p []).sat F.RAD_RX_PREEMPT.COUNT r)
  else s

/-- The main path at one sample: the first row of Table RAD-5 that holds. `fb`: the profile that the fall-back confirms;
`mainOk`: the main path confirms profile 0. -/
def State.rxMain (s : State) (r : Nat) (rssi : Int) (fb : Option Nat) (mainOk : Bool) : State :=
  let x := s.radRx r
  let raw := toBits 12 rssi
  let th := s.rdS F.RAD_RX_DET.RSSI_TH r
  let rise := decide (s.rdS F.RAD_RX_STATUS.REF r + 8 * s.rd F.RAD_RX_CFG.CAP_MARGIN r ≤ rssi)
  let p0 := s.rxProfile r 0
  let hold (s : State) : State :=
    match fb with
    | some h => let y := Sparse.get (fun _ => ({} : RxHyp)) (s.radRx r).hyps h; s.rxHold r h y.timing y.pmr raw
    | none => s
  let qualify (s : State) : State := (s.rxGo r rxQualify).wr F.RAD_RX_STATUS.REF raw r
  let dwell (s : State) : State := let s := s.rxGo r rxDwell; s.setRadRx r { s.radRx r with dwell := 1 }
  let pre := rise && fb.isSome && s.rdb F.RAD_RX_CFG.PREEMPT r
  match s.rd F.RAD_RX_STATUS.STATE r with
  | 1 =>
    if fb.isSome then hold s
    else if th ≤ rssi then (if s.rd F.RAD_RX_DET.DWELL r = 0 then qualify s else dwell s) else s
  | 2 =>
    if fb.isSome then hold s
    else if rssi < th then s.rxGo r rxIdle
    else if s.rd F.RAD_RX_DET.DWELL r ≤ x.dwell then qualify s
    else s.setRadRx r { x with dwell := x.dwell + 1 }
  | 3 =>
    if rise && fb.isSome then hold s
    else if rise then dwell (s.sat F.RAD_RX_RESTART.COUNT r)
    else if mainOk then s.rxHold r 0 x.main.timing x.main.pmr raw
    else if fb.isSome then hold s
    else if s.rd F.RAD_RX_QUAL.QUAL_TO r * p0.period ≤ x.m - x.entered then s.rxGo r rxIdle
    else s
  | 4 => s.rxSfd r (s.rxProfile r (s.rd F.RAD_RX_STATUS.PROFILE r)) pre hold raw
  | 5 => s.rxPacket r (s.rxProfile r (s.rd F.RAD_RX_STATUS.PROFILE r)) pre hold raw
  | _ => s

/-- A baseband sample reaches a receiver of its slot (R294 to R296). -/
def State.rxSample (s : State) (r m w : Nat) (rssi : Int) : State :=
  let x := s.radRx r
  let x := { x with x := w :: x.x, m := m }
  let st := s.rd F.RAD_RX_STATUS.STATE r
  let held := s.rxProfile r (s.rd F.RAD_RX_STATUS.PROFILE r)
  let th := s.rd F.RAD_RX_DET.PMR_TH r
  let qual := s.rd F.RAD_RX_QUAL.QUAL_N r
  let pend := s.rd F.RAD_RX_QUAL.PEND_TO r
  let search (h : Nat) : RxHyp × Bool :=
    let p := s.rxProfile r h
    let skip := (st == rxSfdWait || st == rxReceive) && decide (ringDist held.period m x.timing ≤ held.osr)
    (Sparse.get (fun _ => ({} : RxHyp)) x.hyps h).step p.period th qual pend m (s.corr p x.x) skip
  let l := (List.range (min 8 (s.rd F.RAD_RX_CFG.HYPS r))).map fun h => (h, search h)
  let fb := (l.find? fun e => e.2.2).map (·.1)
  let p0 := s.rxProfile r 0
  let main := if st = rxQualify then x.main.step p0.period th qual pend m (s.corr p0 x.x) false else (x.main, false)
  let s := s.setRadRx r { x with
    hyps := l.foldl (fun t e => Sparse.set (fun _ => ({} : RxHyp)) t e.1 e.2.1) x.hyps, main := main.1 }
  s.rxMain r rssi fb main.2

/-! ### The receive path of a slot -/

/-- A baseband sample leaves the front end: ring, RSSI, receivers (R280, R282). -/
def State.bbSample (s : State) (i m : Nat) (x : Int × Int) (poison : Bool) : State :=
  let set := s.slotSet i (s.bbTime i m)
  let l := s.slot i
  let fir := (x :: l.rxFir).take 64
  let w := packCplx (applyGain set.2.1 (s.fir set.2.2.2.1 fir))
  let c := cplx w.1
  let power := ((c.1 * c.1 + c.2 * c.2).toNat :: l.power).take 4096
  let rssi := rssiOf set.2.2.2.2 power
  let group := l.group ++ [(w.1, poison)]
  let full := (m + 1) % 16 == 0
  let s := s.setSlot i { l with rxFir := fir, rxM := m + 1, power := power, group := if full then [] else group }
  let s := s.onlyIf (w.2 != 0) fun s => s.sat F.RAD_SLOT_SAT.RX i
  let s := s.wr F.RAD_SLOT_STAT.RSSI (toBits 12 rssi) i
  let s := s.capFeed 2 i 0 (s.bbTime i m) poison (fun _ => true) fun _ => leBytes 4 w.1
  let s := s.onlyIf full fun s => s.ringGroup i (m + 1 - group.length) group
  s.each ((List.range 64).filter fun r => s.rdb F.RAD_RX_CFG.EN r && s.rd F.RAD_RX_CFG.SLOT r == i) fun s r =>
    s.rxSample r m w.1 rssi

/-- A link sample enters the receive path (R276, R277, R284): those before the commit that started the slot are discarded. -/
def State.linkSample (s : State) (i w : Nat) (poison : Bool) : State :=
  let l := s.slot i
  let k := l.rxK
  let t := s.linkTime i k
  let dfe := radFilter (s.resampling i) l.rxDfe (mixed false w l.rxPhase.toNat)
  let s := s.setSlot i { l with rxK := k + 1, rxPhase := l.rxPhase + BitVec.ofNat 32 (s.slotSet i t).1 }
  if t < l.from_ then s.setSlot i { s.slot i with rxM := (k + 1) * s.rd F.RAD_SLOT_RSMP.RATIO i / s.fbDen i }
  else
    let s := s.setSlot i { s.slot i with rxDfe := dfe }
    let s := s.capFeed 2 i 1 t poison (fun _ => true) fun _ => leBytes 4 w
    let upto := (k + 1) * s.rd F.RAD_SLOT_RSMP.RATIO i / s.fbDen i
    s.each ((List.range (upto - l.rxM)).map (l.rxM + ·)) fun s m =>
      s.bbSample i m (radFiltered (s.resampling i) dfe m) poison

/-- A SAMPLES flit of slot i (R282, R379): its number follows from SUB; the samples of skipped flits are missing. Those before
the slot's start are discarded, and none of them is expected (R284). -/
def State.sampleFlit (s : State) (i sub : Nat) (data : List Byte) (poison : Bool) : State :=
  let next := (s.slot i).rxK / 15
  let skip := (sub + 64 - next % 64) % 64
  let missed := ((List.range (15 * skip)).map (15 * next + ·)).filter fun k => decide ((s.slot i).from_ ≤ s.linkTime i k)
  let s := match missed with
    | k :: _ => (s.sat F.RAD_SLOT_STALL.COUNT i 0 missed.length).radEvent 0x0802 i k
    | [] => s
  let s := s.each (List.range (15 * skip)) fun s _ => s.linkSample i 0 false
  s.each (List.range 15) fun s j => s.linkSample i (fieldAt data (4 * j) 4) poison

/-! ### The transmit path (R283, R298) -/

/-- Packets waiting at transmitter t. -/
def State.txQueue (s : State) (t : Nat) : List Job := Sparse.get (fun _ => []) s.rad.txq t

/-- The machine with them set, and DEPTH. -/
def State.setTxQueue (s : State) (t : Nat) (l : List Job) : State :=
  (s.setRad { s.rad with txq := Sparse.set (fun _ => []) s.rad.txq t l }).wr F.RAD_TX_STAT.DEPTH l.length t

/-- A packet ends: its record, and the completion of its command (Table RAD-8). -/
def State.txDone (s : State) (j : Job) (status : Nat) : State :=
  let s := s.onlyIf (bit (fieldAt j.desc 14 1) 0) fun s =>
    s.put (reqRadio 1) (fieldAt j.desc 16 4 * 16) (padTo 4 (leBytes 1 status) ++ leBytes 4 (fieldAt j.desc 20 4))
  s.completeOpt j.ref status

/-- TX_PACKET_START (R298): the packet at the head of a transmitter's queue is built, or discarded: as missed when its first
sample's fetch time has passed, as RANGE for a poisoned descriptor or a LEN above MAXLEN. -/
def execTxPacketStart (t : BitVec 6) (s : State) : Host.Outcome State Fault Refusal :=
  let k := t.toNat
  .next <| s.live fun s =>
    match s.txQueue k, Sparse.find s.rad.txNow k with
    | j :: l, none =>
      if !s.rdb F.RAD_TX_CFG.EN k then s else
      let slot := s.rd F.RAD_TX_CFG.SLOT k
      let p := s.txProfile k
      let asap := bit (fieldAt j.desc 14 1) 1
      let start := fieldAt j.desc 0 8
      let next := max (Sparse.get (fun _ => 0) s.rad.txEnd k) (max (s.slot slot).txM (s.bbAt slot (s.now + s.rd F.RAD_GLB_LEAD.LEAD)))
      let first := if asap then next else s.bbAt slot start
      let n := fieldAt j.desc 12 2
      let s := s.setTxQueue k l
      if j.poison then (s.poisonConsumed (reqRadio 1) 0 5).txDone j stRange
      else if p.maxLen < n then s.txDone j stRange
      else if !asap && decide (s.fetchTime slot first < s.now ∨ first < (s.slot slot).txM) then
        ((s.sat F.RAD_TX_MISSED.COUNT k).radEvent 0x0804 (0x140 + k) start).txDone j stRefused
      else
        let r := s.memRead (reqRadio 1) (fieldAt j.desc 8 4 * 16) n
        r.s.setRad { r.s.rad with txNow := Sparse.insert r.s.rad.txNow k ⟨j, first, p.length n, plain r.bytes, poisoned r.bytes⟩ }
    | _, _ => s

/-- The sample of a packet from which on its payload is on the air: the symbol of the first payload bit. -/
def Profile.payloadFrom (p : Profile) : Nat := p.syncSymbols * p.period + p.hdrBits / p.symBits * p.symLen

/-- What the transmitters of a slot add at baseband sample m, with the poison that a packet's payload carries (R351). -/
def State.txSum (s : State) (i m : Nat) : (Int × Int) × Bool :=
  (s.rad.txNow.filter fun e => s.rd F.RAD_TX_CFG.SLOT e.1 == i && s.rdb F.RAD_TX_CFG.EN e.1 && decide (e.2.first ≤ m)
      && decide (m < e.2.first + e.2.len)).foldl (fun (a : (Int × Int) × Bool) e =>
    let p := s.txProfile e.1
    let x := p.txSample (s.profTaps p) e.2.data (m - e.2.first)
    ((a.1.1 + x.1, a.1.2 + x.2), a.2 || (e.2.poison && decide (e.2.first + p.payloadFrom ≤ m)))) ((0, 0), false)

/-- Packets whose last sample has been fetched end DONE. -/
def State.txEnds (s : State) (i m : Nat) : State :=
  s.each (s.rad.txNow.filter fun e => s.rd F.RAD_TX_CFG.SLOT e.1 == i && decide (e.2.first + e.2.len ≤ m)) fun s e =>
    (s.setRad { s.rad with
      txNow := Sparse.erase s.rad.txNow e.1, txEnd := Sparse.set (fun _ => 0) s.rad.txEnd e.1 (e.2.first + e.2.len) }).txDone
        e.2.job stDone

/-- Link samples that wait leave in flits of fifteen (Table LNK-4). -/
def State.txFlits : Nat → State → Nat → State
  | 0, s, _ => s
  | n + 1, s, i =>
    let x := s.slot i
    if x.txOut.length < 15 then s else
    let l := x.txOut.take 15
    let f : Flit := ⟨1, s.rd F.RAD_SLOT_CFG.TX_CHAN i, l.any (·.2), x.txK / 15 % 64, l.flatMap fun e => leBytes 4 e.1⟩
    txFlits n ((s.setSlot i { x with txOut := x.txOut.drop 15, txK := x.txK + 15 }).linkQueue (s.rd F.RAD_SLOT_CFG.TX_LINK i) f) i

/-- A baseband sample enters the transmit path: gain, channel FIR, interpolation, mixer (R276). -/
def State.txSampleOut (s : State) (i m : Nat) (w : Nat) (poison : Bool) : State :=
  let set := s.slotSet i (s.bbTime i m)
  let x := s.slot i
  let g := packCplx (applyGain set.2.2.1 (cplx w))
  let fir := (cplx g.1 :: x.txFir).take 64
  let dfe := radFilter (s.resampling i) x.txDfe (s.fir set.2.2.2.1 fir)
  let s := s.onlyIf (g.2 != 0) fun s => s.sat F.RAD_SLOT_SAT.TX i
  let s := s.capFeed 2 i 2 (s.bbTime i m) poison (fun _ => true) fun _ => leBytes 4 w
  let have_ := x.txK + x.txOut.length
  let upto := (m + 1) * s.fbDen i / s.rd F.RAD_SLOT_RSMP.RATIO i
  let s := s.setSlot i { x with txFir := fir, txDfe := dfe }
  s.each ((List.range (upto - have_)).map (have_ + ·)) fun s k =>
    let x := s.slot i
    let out := radFiltered (s.resampling i) dfe k
    let z := mixed true (packCplx out).1 x.txPhase.toNat
    let y := (packCplx (roundUp 17 z.1, roundUp 17 z.2)).1
    (s.capFeed 2 i 3 (s.linkTime i k) poison (fun _ => true) fun _ => leBytes 4 y).setSlot i { x with
      txOut := x.txOut ++ [(y, poison)], txPhase := x.txPhase + BitVec.ofNat 32 (s.slotSet i (s.linkTime i k)).1 }

/-- Samples that have been fetched pass the transmit path once their nominal time, before `t`, is past: no COMMIT that is still
to come changes what they meet (R284). Full flits of their link samples leave. -/
def State.txFlow (s : State) (i t : Nat) : State :=
  let l := (s.slot i).txHeld
  let first := (s.slot i).txM - l.length
  let n := ((List.range l.length).takeWhile fun k => decide (s.bbTime i (first + k) < t)).length
  if n = 0 then s else
  let s := s.setSlot i { s.slot i with txHeld := l.drop n }
  (s.each (List.range n) fun s k => let e := l.getD k (0, false); s.txSampleOut i (first + k) e.1 e.2).txFlits 64 i

/-- The transmit paths bound to link k, up to the present. -/
def State.txLink (s : State) (k : Nat) : State :=
  s.each ((List.range 256).filter fun i => !(s.slot i).txHeld.isEmpty && s.rd F.RAD_SLOT_CFG.TX_LINK i == k) fun s i =>
    s.txFlow i s.now

/-- The settings in force before a commit at instant c are kept for the samples before it (R284). `old`: their values. -/
def State.slotChanged (s : State) (i c : Nat) (old : Nat × Nat × Nat × Nat × Nat) : State :=
  ((s.setSlot i { s.slot i with old := (s.slot i).old ++ [(c, old)] }).txFlow i s.now).showDelay i

/-- A committed EN of a slot (R284): 1 starts both paths, 0 stops them at the commit instant c. -/
def State.slotEnabled (s : State) (i : Nat) (was now : Bool) (c : Nat) : State :=
  if now && !was then ((s.setSlot i { from_ := c }).showRunning i).showDelay i
  else if was && !now then ((s.txFlow i c).setSlot i {}).showRunning i
  else s

/-- Samples of a group from the transmit ring, zeros on an underrun (R283): the words with poison, and the machine. -/
def State.ringFetch (s : State) (i m : Nat) : List (Nat × Bool) × State :=
  let zeros := List.replicate 16 (0, false)
  if s.fetchTime i m < (s.slot i).from_ then (zeros, s)
  else
    let base := s.rd F.RAD_SLOT_TXRING.BASE i
    let q := s.radIdx (reqRadio 0) base 0 (s.slot i).txWr
    let s := q.2.setSlot i { q.2.slot i with txWr := q.1 }
    if q.1 < m + 16 then
      let s := s.sat F.RAD_SLOT_UNDER.COUNT i
      let s := s.onlyIf (!(s.slot i).under) fun s => s.radEvent 0x0801 i m
      (zeros, s.setSlot i { s.slot i with under := true })
    else
      let pos := m % 2 ^ s.rd F.RAD_SLOT_RING.TX_SIZE i
      let r := s.memRead (reqRadio 0) (base * 16 + 64 + 4 * pos) 64
      let s := r.s.setSlot i { r.s.slot i with under := false }
      ((List.range 16).map fun k => (leNat (plain (r.bytes.drop (4 * k) |>.take 4)), poisoned (r.bytes.drop (4 * k) |>.take 4)), s)

/-- TX_GROUP_FETCH (R283): the next group of a slot is fetched at the nominal time of its first sample minus LEAD. -/
def execTxGroupFetch (slot : BitVec 8) (s : State) : Host.Outcome State Fault Refusal :=
  let i := slot.toNat
  .next <| s.live fun s =>
    let m := (s.slot i).txM
    if !s.rdb F.RAD_SLOT_CFG.EN i || !s.rdb F.RAD_SLOT_CFG.TX_EN i || decide (s.now < s.fetchTime i m) then s
    else
      let src := s.rd F.RAD_SLOT_CFG.TX_SRC i
      let g := if src = 1 then (List.replicate 16 (0, false), s) else s.ringFetch i m
      let s := g.2
      let s := s.each (List.range 16) fun s k =>
        let e := g.1.getD k (0, false)
        let c := cplx e.1
        let a := if src = 0 then ((0, 0), false) else s.txSum i (m + k)
        let w := packCplx (c.1 + a.1.1, c.2 + a.1.2)
        let s := s.onlyIf (w.2 != 0) fun s => s.sat F.RAD_SLOT_SAT.TX i
        s.setSlot i { s.slot i with txHeld := (s.slot i).txHeld ++ [(w.1, e.2 || a.2)], txM := m + k + 1 }
      let s := s.onlyIf (src != 1) fun s =>
        s.put (reqRadio 0) (s.rd F.RAD_SLOT_TXRING.BASE i * 16 + 8) (leBytes 8 (m + 16))
      (s.txEnds i (m + 16)).txFlow i s.now

/-- A descriptor is queued at a transmitter; false when its queue is full (R298). -/
def State.txSubmit (s : State) (t : Nat) (j : Job) : Option State :=
  if 16 ≤ (s.txQueue t).length then none else some (s.setTxQueue t (s.txQueue t ++ [j]))

/-- RAD_TX (R298): the packet's completion is the command's. -/
def execRadTx (ref : CmdRef) (t : BitVec 8) (desc : List Byte) (s : State) : Host.Outcome State Fault Refusal :=
  .next <| s.command ref 0x0803 fun s =>
    if 63 < t.toNat then s.complete ref stRange
    else match s.txSubmit t.toNat ⟨some ref, padTo 64 desc, false⟩ with
      | some s => s
      | none => s.complete ref stBusy

/-- TX_JOB_WINDOW_WRITE (R298): the head transfer of a core writes a descriptor; into a full queue it stays outstanding. -/
def execTxJobWindowWrite (core : BitVec 6) (s : State) : Host.Outcome State Fault Refusal :=
  .next (
    match s.windowTake core.toNat 0xFFFE8000 0xFFFEC000 64 with
    | none => s
    | some (x, d, s') =>
      match s'.txSubmit ((x.far + x.done / 16 - 0xFFFE8000) / 0x100) ⟨none, plain d, poisoned d⟩ with
      | some t => t
      | none => s)

/-! ### Cell timing (R285, R286) -/

/-- P of a domain (Table RAD-1). -/
def State.domPeriod (s : State) (d : Nat) : Nat :=
  match s.rd F.RAD_DOM_CFG.KIND d with
  | 0 => 1000000 / 2 ^ s.rd F.RAD_DOM_CFG.MU d
  | 1 => 500000
  | _ => s.rd F.RAD_DOM_PERIOD.PERIOD d

/-- S of a domain (Table RAD-1). -/
def State.domSlots (s : State) (d : Nat) : Nat :=
  match s.rd F.RAD_DOM_CFG.KIND d with
  | 0 => 10 * 2 ^ s.rd F.RAD_DOM_CFG.MU d
  | 1 => 20
  | _ => s.rd F.RAD_DOM_CFG.SPF d

/-- Instant of boundary n. -/
def State.boundary (s : State) (d n : Nat) : Nat := s.rd64 F.RAD_DOM_EPOCH_LO.EPOCH d + n * s.domPeriod d

/-- A committed change of a domain (R285): the boundaries up to it are those of the setting before, which `old` holds. -/
def State.domCommitted (s : State) (d c : Nat) (old : State) : State :=
  let span : DomSpan := ⟨d, Sparse.get (fun _ => 0) s.rad.domAt d, some c, old.boundary d 0, old.domPeriod d⟩
  s.setRad { s.rad with
    doms := Sparse.erase s.rad.doms d, domAt := Sparse.insert s.rad.domAt d c
    domOld := if old.rdb F.RAD_DOM_CFG.EN d then s.rad.domOld ++ [span] else s.rad.domOld }

/-- DOMAIN_SLOT_BOUNDARY (R285): the latest boundary after the last commit, not passed before. -/
def execDomainSlotBoundary (domain : BitVec 4) (s : State) : Host.Outcome State Fault Refusal :=
  let d := domain.toNat
  .next <| s.live fun s =>
    let n := (s.now - s.boundary d 0) / s.domPeriod d
    let new := match Sparse.find s.rad.doms d with | some k => decide (k < n) | none => true
    s.onlyIf (s.rdb F.RAD_DOM_CFG.EN d && decide (s.boundary d 0 ≤ s.now) && new
        && decide (Sparse.get (fun _ => 0) s.rad.domAt d < s.boundary d n)) fun s =>
      let s := s.setRad { s.rad with doms := Sparse.insert s.rad.doms d n }
      (s.wr F.RAD_DOM_NOW.FRAME (n / s.domSlots d) d).wr F.RAD_DOM_NOW.SLOT (n % s.domSlots d) d

/-- A committed EN of a timer (R286). -/
def State.tmrEnabled (s : State) (t : Nat) (was now : Bool) (c : Nat) : State :=
  if now && !was then s.setRad { s.rad with tmrAt := Sparse.insert s.rad.tmrAt t c } else s

/-- The boundaries for which timer t has fired, of the domain it belongs to. -/
def State.tmrFired (s : State) (t : Nat) : List Nat :=
  Sparse.get (fun _ => []) s.rad.tmrs (t * 16 + s.rd F.RAD_TMR_CFG.DOMAIN t)

/-- The first of n, n + step, n + 2 · step … that a list does not hold. -/
def firstFree (step : Nat) (l : List Nat) : Nat → Nat → Nat
  | 0, n => n
  | k + 1, n => if l.contains n then firstFree step l k (n + step) else n

/-- The next boundary of a span for which a timer fires, and the firing instant (R286): n mod EVERY = PHASE, within the span,
the instant after the commit that enabled the timer, and not fired before. -/
def State.timerIn (s : State) (t : Nat) (x : DomSpan) : Option (Nat × Int) :=
  let every := s.rd F.RAD_TMR_CFG.EVERY t
  let phase := s.rd F.RAD_TMR_CFG.PHASE t
  let ofs := s.rdS F.RAD_TMR_OFS.OFS t
  let since : Int := (Sparse.get (fun _ => (0 : Nat)) s.rad.tmrAt t : Nat)
  let after (v : Int) : Nat := ((v - x.epoch) / (x.period : Int) + 1).toNat
  let low := max (after x.from_) (after (since - ofs))
  let fired := s.tmrFired t
  let n := firstFree every fired fired.length (low + (phase + every - low % every) % every)
  let b := x.epoch + n * x.period
  if every ≤ phase then none
  else match x.upto with
    | some c => if c < b then none else some (n, (b : Int) + ofs)
    | none => some (n, (b : Int) + ofs)

/-- The spans of a domain: its settings before each commit that changed it, and the one in force. -/
def State.domSpans (s : State) (d : Nat) : List DomSpan :=
  (s.rad.domOld.filter fun x => x.dom == d) ++
    if s.rdb F.RAD_DOM_CFG.EN d then
      [⟨d, Sparse.get (fun _ => 0) s.rad.domAt d, none, s.boundary d 0, s.domPeriod d⟩]
    else []

/-- The boundary for which a timer fires next, and the firing instant. -/
def State.timerNext (s : State) (t : Nat) : Option (Nat × Int) :=
  (s.domSpans (s.rd F.RAD_TMR_CFG.DOMAIN t)).foldl (init := none) fun best x =>
    match s.timerIn t x, best with
    | none, b => b
    | some e, none => some e
    | some e, some b => if e.2 < b.2 then some e else some b

/-- SLOT_TIMER_FIRE (R286): the timer's producer entry submits its template, with the instant added to its DEADLINE. -/
def execSlotTimerFire (timer : BitVec 6) (s : State) : Host.Outcome State Fault Refusal :=
  let t := timer.toNat
  .next <| s.live fun s =>
    match s.timerNext t with
    | none => s
    | some f => s.onlyIf (s.rdb F.RAD_TMR_CFG.EN t && decide (f.2 ≤ (s.now : Int))) fun s =>
      let key := t * 16 + s.rd F.RAD_TMR_CFG.DOMAIN t
      let s := (s.setRad { s.rad with tmrs := Sparse.insert s.rad.tmrs key (f.1 :: s.tmrFired t) }).inc F.RAD_TMR_FIRES.COUNT t
      s.produce t fun d => slice d 0 24 ++ leBytes 8 ((fieldAt d 24 8 + f.2.toNat) % 2 ^ 64) ++ slice d 32 32

/-! ### Transforms (R287 to R289) -/

/-- Jobs of transform queue q. -/
def State.xformQueue (s : State) (q : Nat) : List Job := Sparse.get (fun _ => []) s.rad.xq q

/-- The machine with them set. -/
def State.setXformQueue (s : State) (q : Nat) (l : List Job) : State :=
  s.setRad { s.rad with xq := Sparse.set (fun _ => []) s.rad.xq q l }

/-- A transform job is queued; none when its queue is full (R288). -/
def State.xformSubmit (s : State) (q : Nat) (j : Job) : Option State :=
  if 64 ≤ (s.xformQueue q).length then none else some (s.setXformQueue q (s.xformQueue q ++ [j]))

/-- RAD_XFORM (R288). -/
def execRadXform (ref : CmdRef) (q : BitVec 8) (desc : List Byte) (s : State) : Host.Outcome State Fault Refusal :=
  .next <| s.command ref 0x0801 fun s =>
    if 7 < q.toNat then s.complete ref stRange
    else match s.xformSubmit q.toNat ⟨some ref, padTo 64 desc, false⟩ with
      | some s => s
      | none => s.complete ref stBusy

/-- XFORM_JOB_WINDOW_WRITE (R288). -/
def execXformJobWindowWrite (core : BitVec 6) (s : State) : Host.Outcome State Fault Refusal :=
  .next (
    match s.windowTake core.toNat 0xFFFE0000 0xFFFE8000 64 with
    | none => s
    | some (x, d, s') =>
      match s'.xformSubmit ((x.far + x.done / 16 - 0xFFFE0000) / 0x1000) ⟨none, plain d, poisoned d⟩ with
      | some t => t
      | none => s)

/-- The deadline of a job with DL_EN, at bits 2 of byte 0 and bytes 16 to 23 (Table RAD-2). -/
def Job.deadline (j : Job) : Option Nat := if bit (fieldAt j.desc 0 1) 2 then some (fieldAt j.desc 16 8) else none

/-- The queue whose head the engine takes next: the earliest deadline, else the first head without one (R289). -/
def State.xformPick (s : State) : Option (Nat × Job) :=
  let heads := (List.range 8).filterMap fun q => (s.xformQueue q).head?.map fun j => (q, j)
  let dl := heads.foldl (init := (none : Option (Nat × Nat × Job))) fun b e =>
    match e.2.deadline, b with
    | some t, none => some (t, e)
    | some t, some x => if t < x.1 then some (t, e) else some x
    | none, x => x
  match dl with
  | some x => some x.2
  | none => heads.head?

/-- A number is 12 · 2^a · 3^b · 5^c (R287). -/
def smoothDft (n : Nat) : Bool :=
  n % 12 == 0 && (List.range 9).any fun a => (List.range 6).any fun b => (List.range 4).any fun c => n == 12 * 2 ^ a * 3 ^ b * 5 ^ c

/-- The fields of a transform job are valid (R288). Bits that no field of Table RAD-2 covers, beside SIZE, CP and COUNT, count
with the field they stand beside, so a set one is out of range (DESIGN CHOICE, notes/assumptions/131.md). -/
def xformValid (d : List Byte) : Bool :=
  let op := fieldAt d 0 1 % 4
  let n := fieldAt d 2 2
  let cp := fieldAt d 4 2
  let cnt := fieldAt d 6 2
  decide (fieldAt d 1 1 % 16 ≤ 12) && decide (1 ≤ cnt ∧ cnt ≤ 64) &&
    (if op < 2 then decide (64 ≤ n ∧ n ≤ 4096) && (List.range 13).any (fun p => n == 2 ^ p) && decide (cp < n)
     else decide (12 ≤ n ∧ n ≤ 3240) && smoothDft n && cp == 0)

/-- One block of a transform: its output words with poison, and the components that saturated. -/
def xformBlock (op n scale cp : Nat) (input : List (Nat × Bool)) : List (Nat × Bool) × Nat :=
  let p := input.any (·.2)
  let out := (List.range n).map fun k => packCplx (xform op n scale (input.map (·.1)) k)
  let sats := out.foldl (fun a e => a + e.2) 0
  let w := out.map fun e => (e.1, p)
  (if op = 1 then w.drop (n - cp) ++ w else w, sats)

/-- The blocks of a transform job, read, transformed and written one after the other: the saturated components. -/
def State.xformRun (s : State) (d : List Byte) : Nat × State :=
  let op := fieldAt d 0 1 % 4
  let n := fieldAt d 2 2
  let cp := fieldAt d 4 2
  let inLen := if op = 0 then cp + n else n
  let outLen := if op = 1 then cp + n else n
  (List.range (fieldAt d 6 2)).foldl (fun (a : Nat × State) b =>
    let skip := if op = 0 then cp else 0
    let r := a.2.memRead (reqRadio 0) (fieldAt d 8 4 * 16 + 4 * (b * inLen + skip)) (4 * n)
    let ws := (List.range n).map fun k =>
      let l := r.bytes.drop (4 * k) |>.take 4
      (leNat (plain l), poisoned l)
    let o := xformBlock op n (fieldAt d 1 1 % 16) cp ws
    let w := r.s.memWrite (reqRadio 0) (fieldAt d 12 4 * 16 + 4 * b * outLen)
      (o.1.flatMap fun x => (leBytes 4 x.1).map fun y => (y, x.2))
    (a.1 + o.2, w.s)) (0, s)

/-- A radio job ends (R289): lateness, its record (Table RAD-3), its successor, its command. `unit`: of DEADLINE_MISS. -/
def State.xformEnd (s : State) (j : Job) (unit status sats : Nat) : State :=
  let d := j.desc
  let late := match j.deadline with | some t => decide (t < s.now) | none => false
  let st := if late && status == stDone then stLate else status
  let sats := min sats 0xFFFF
  let s := s.onlyIf (bit (fieldAt d 24 1) 0) fun s => s.put (reqRadio 0) (fieldAt d 32 4 * 16)
    (leBytes 1 st ++ leBytes 1 (b2n late) ++ leBytes 2 sats ++ leBytes 4 (fieldAt d 36 4) ++ leBytes 8 s.now)
  let s := s.onlyIf late fun s => s.event 0x0710 sevWarn (sourceId 0x0710 0 unit) (payload [(20, 1, st), (24, 8, s.now)])
  let s := s.onlyIf (bit (fieldAt d 24 1) 1) fun s =>
    let f := s.fetchDesc (fieldAt d 28 4)
    (f.2.2.coreSubmit 0xFF f.1 f.2.1).2
  s.completeOpt j.ref st sats

/-- A transform job reaches memory that holds its requests (R345, R348). -/
def State.xformWaits (s : State) (d : List Byte) : Bool :=
  let len := 4 * (fieldAt d 2 2 + fieldAt d 4 2) * fieldAt d 6 2
  s.memWaits (reqRadio 0) (fieldAt d 8 4 * 16) len || s.memWaits (reqRadio 0) (fieldAt d 12 4 * 16) len

/-- XFORM_JOB_COMPLETE (R288, R289). -/
def execXformJobComplete (s : State) : Host.Outcome State Fault Refusal :=
  .next <| s.live fun s =>
    match s.xformPick with
    | none => s
    | some (q, j) =>
      if !j.poison && xformValid j.desc && s.xformWaits j.desc then s else
      let s := s.setXformQueue q ((s.xformQueue q).drop 1)
      if j.poison then (s.poisonConsumed (reqRadio 0) 0 5).xformEnd j (0x200 + q) stRange 0
      else if !xformValid j.desc then s.xformEnd j (0x200 + q) stRange 0
      else
        let r := s.xformRun j.desc
        r.2.xformEnd j (0x200 + q) stDone r.1

/-! ### Taps (R292) and presets (R293) -/

/-- Tap ranges of enabled modems overlap [a, b). -/
def State.tapsBusy (s : State) (a b : Nat) : Bool :=
  let hit (p : Profile) : Bool := decide (p.base < b) && decide (a < p.base + p.taps)
  (List.range 64).any fun r =>
    (s.rdb F.RAD_RX_CFG.EN r && (List.range (s.rd F.RAD_RX_CFG.HYPS r)).any fun h => hit (s.rxProfile r h))
      || (s.rdb F.RAD_TX_CFG.EN r && hit (s.txProfile r))

/-- RAD_TAPS (R292). -/
def execRadTaps (ref : CmdRef) (device : BitVec 8) (first count : BitVec 16) (addr : BitVec 64) (s : State) :
    Host.Outcome State Fault Refusal :=
  let a := first.toNat
  let n := count.toNat
  .next <| s.command ref 0x0802 fun s =>
    if 1 < device.toNat ∨ 4096 < a + n then s.complete ref stRange
    else if s.tapsBusy a (a + n) then s.complete ref stBusy
    else if device = 0 ∧ !s.portUp (s.cmdPort ref) then s.complete ref stIncomplete
    else
      let p := s.cmdPort ref
      let r : RdRes := if device = 1 then s.memRead (reqHost p) (addr.toNat * 16) (4 * n)
        else ⟨s.hostBytes p addr.toNat (4 * n), false, s⟩
      let taps := (List.range n).foldl (fun t k =>
        Sparse.set (fun _ => (0 : BitVec 32)) t (a + k) (BitVec.ofNat 32 (fieldAt (plain r.bytes) (4 * k) 4))) r.s.rad.taps
      (r.s.setRad { r.s.rad with taps := taps }).complete ref stDone

/-- A committed PRESET of a receiver loads its profile 0 (Table RAD-4). -/
def State.rxPreset (s : State) (r : Nat) : State :=
  match s.rd F.RAD_RX_CFG.PRESET r with
  | 1 =>
    let s := (((s.wr F.RAD_RX_PROF_A.MAP 3 r).wr F.RAD_RX_PROF_A.SPREAD 2 r).wr F.RAD_RX_PROF_A.NCHIP 32 r).wr F.RAD_RX_PROF_A.BPS 3 r
    let s := ((s.wr F.RAD_RX_PROF_B.OSR 4 r).wr F.RAD_RX_PROF_B.PULSE 0 r).wr F.RAD_RX_PROF_B.PRE_SYM 0 r
    (((s.wr F.RAD_RX_PROF_C.SFD 0xA7 r).wr F.RAD_RX_PROF_D.SFD_LEN 2 r).wr F.RAD_RX_PROF_D.HDR 1 r).wr F.RAD_RX_PROF_D.PRE_LEN 8 r
  | 2 =>
    let s := (((s.wr F.RAD_RX_PROF_A.MAP 0 r).wr F.RAD_RX_PROF_A.SPREAD 1 r).wr F.RAD_RX_PROF_A.NCHIP 31 r).wr
      F.RAD_RX_PROF_B.OSR 1 r
    ((s.wr F.RAD_RX_PROF_C.SFD 0x20012010 r).wr F.RAD_RX_PROF_D.SFD_LEN 8 r).wr F.RAD_RX_PROF_D.HDR 2 r
  | _ => s

/-- A committed PRESET of a transmitter loads its profile (Table RAD-4). -/
def State.txPreset (s : State) (t : Nat) : State :=
  match s.rd F.RAD_TX_CFG.PRESET t with
  | 1 =>
    let s := (((s.wr F.RAD_TX_PROF_A.MAP 3 t).wr F.RAD_TX_PROF_A.SPREAD 2 t).wr F.RAD_TX_PROF_A.NCHIP 32 t).wr F.RAD_TX_PROF_A.BPS 3 t
    let s := ((s.wr F.RAD_TX_PROF_B.OSR 4 t).wr F.RAD_TX_PROF_B.PULSE 0 t).wr F.RAD_TX_PROF_B.PRE_SYM 0 t
    (((s.wr F.RAD_TX_PROF_C.SFD 0xA7 t).wr F.RAD_TX_PROF_D.SFD_LEN 2 t).wr F.RAD_TX_PROF_D.HDR 1 t).wr F.RAD_TX_PROF_D.PRE_LEN 8 t
  | 2 =>
    let s := (((s.wr F.RAD_TX_PROF_A.MAP 0 t).wr F.RAD_TX_PROF_A.SPREAD 1 t).wr F.RAD_TX_PROF_A.NCHIP 31 t).wr
      F.RAD_TX_PROF_B.OSR 1 t
    ((s.wr F.RAD_TX_PROF_C.SFD 0x20012010 t).wr F.RAD_TX_PROF_D.SFD_LEN 8 t).wr F.RAD_TX_PROF_D.HDR 2 t
  | _ => s

end Sys2Proof.Machine
end

