-- ==== Sys2Proof/Machine/Capture.lean ====
section
/-! DEFINITION. The capture and trigger engine (R319 to R339): arming, samples, trigger sequencers, segments, reductions,
snapshots. -/

namespace Sys2Proof.Machine

/-! ### State and registers -/

/-- The machine with capture channel c set. -/
def State.setCapCh (s : State) (c : Nat) (x : CapCh) : State :=
  s.setCap { s.cap with ch := Sparse.set (fun _ => {}) s.cap.ch c x }

/-- Channel states (Table CAP-2). -/
abbrev capIdle : Nat := 0
abbrev capPrefill : Nat := 1
abbrev capWait : Nat := 2
abbrev capPost : Nat := 3
abbrev capDead : Nat := 4
abbrev capStopped : Nat := 5

/-- The STATE of a channel. -/
def State.capState (s : State) (c : Nat) : Nat := s.rd F.CAP_CH_STAT.STATE c

/-- Sample bytes (Table CAP-1). -/
def State.capBytes (s : State) (c : Nat) : Nat :=
  match s.rd F.CAP_CH_SRC.KIND c with
  | 1 => 4 * popcount 16 (s.capSel c)
  | 2 => 4
  | 3 => 72
  | _ => 16 + 8 * popcount 64 (s.capSel c)

/-- Counted samples per second, as a numerator and denominator (R321). -/
def State.capRate (s : State) (c : Nat) : Nat × Nat :=
  let u := s.rd F.CAP_CH_SRC.UNIT c
  let div := s.rd F.CAP_CH_SRC.DIV_M1 c + 1
  match s.rd F.CAP_CH_SRC.KIND c with
  | 1 => (s.rd F.GLB_GRADE.FSTEP_MAX * 10000000, div)
  | 2 => if s.rd F.CAP_CH_SRC.POINT c % 2 = 0 then (s.fbNum u, s.fbDen u * div) else (s.rd F.RAD_SLOT_RATE.FL u, div)
  | 3 => (109090000000, 512)
  | _ => (s.domMHz 13 * 1000000, s.rd F.FAB_RGN_CFG.LEN u)

/-- Stored rate of a channel in bit/s, rounded up; 0 with RAW = 0 (R321). -/
def State.capStored (s : State) (c : Nat) : Nat :=
  if !s.rdb F.CAP_CH_MODE.RAW c then 0 else
  let r := s.capRate c
  ceilDiv (8 * s.capBytes c * r.1) r.2

/-- CAP_GLB_RATE shows the armed channels (R338). -/
def State.showCapRate (s : State) : State :=
  let t := ((List.range 16).filter s.capArmed).foldl (fun n c => n + s.capStored c) 0
  s.wr F.CAP_GLB_RATE.GBPS (ceilDiv t 1000000000)

/-- SEGLEN × 4 KiB. -/
def State.segBytes (s : State) (c : Nat) : Nat := s.rd F.CAP_CH_SEGLEN.SEGLEN c * 4096

/-- The capacity C of a segment (R322). -/
def State.capC (s : State) (c : Nat) : Nat := (s.segBytes c - 64) / s.capBytes c

/-- The partition range of a channel's segments. -/
def State.capRange (s : State) (c : Nat) : Nat × Nat :=
  let b := s.rd F.CAP_CH_BASE.BASE c * 4096
  (b, b + (s.rd F.CAP_CH_NSEG.NSEG_M1 c + 1) * s.segBytes c)

/-- The byte address of the open segment. -/
def State.segAddr (s : State) (c : Nat) : Nat :=
  s.partAddr (s.rd F.CAP_GLB_PART.PART) ((s.capRange c).1 + s.rd F.CAP_CH_STAT.SEG c * s.segBytes c)

/-! ### Reduction destinations (R332 to R335) -/

/-- The byte address of a reduction's destination. -/
def State.redAddr (s : State) (c : Nat) : Nat :=
  if s.rdb F.CAP_RED_DST.HBM c then s.partAddr (s.rd F.CAP_GLB_PART.PART) (s.rd F.CAP_RED_OFS.OFS c)
  else hbmBytes + s.rd F.CAP_RED_DST.BANK c * 2 ^ 21 + s.rd F.CAP_RED_OFS.OFS c

/-- Bytes of one MINMAX entry. -/
def State.mmEntry (s : State) (c : Nat) : Nat := if s.rdb F.CAP_RED_FIELD.BITWISE c then 2 * s.capBytes c else 4

/-- Bytes that a reduction fills. -/
def State.redBytes (s : State) (c : Nat) : Nat :=
  match s.rd F.CAP_CH_MODE.RED c with
  | 1 => 64 + 2 ^ s.rd F.CAP_RED_DEC.SIZE c * s.mmEntry c
  | 2 => 8 * 4098
  | 3 => 2 ^ 21
  | _ => 0

/-- Bytes that a clearing sets to 0, and a snapshot copies: the MINMAX control block, the entries or the cells. -/
def State.redState (s : State) (c : Nat) : Nat := if s.rd F.CAP_CH_MODE.RED c = 1 then 64 else s.redBytes c

/-- The state that a reduction keeps at its destination is cleared (R336). What it knows of samples not yet in that state stays:
the interval of MINMAX that is running, the last edge of a histogram, the sweep and the count of sweeps. -/
def State.redClear (s : State) (c : Nat) : State :=
  let s := s.put (reqCapture c) (s.redAddr c) (List.replicate (s.redState c) 0)
  s.setCapCh c { s.capCh c with mmWr := 0 }

/-- The reductions of a channel as an arm finds them (Table CAP-3, R335). -/
def State.redArm (s : State) (c : Nat) : State :=
  let s := s.redClear c
  s.setCapCh c { s.capCh c with sweep := if s.rdb F.CAP_CH_MODE.SWEEP_TRIG c then none else some 0 }

/-- A little-endian number of `n` bytes in memory. -/
def State.capLoad (s : State) (c a n : Nat) : Nat × State :=
  let r := s.memRead (reqCapture c) a n
  (leNat (plain r.bytes), r.s)

/-- An entry of a histogram counts one more (R334). -/
def State.histAdd (s : State) (c k : Nat) : State :=
  let a := s.redAddr c + 8 * k
  let x := s.capLoad c a 8
  let n := bits x.1 47 0
  let v := if n = 2 ^ 48 - 1 then setBits x.1 63 63 1 else setBits x.1 47 0 (n + 1)
  x.2.put (reqCapture c) a (leBytes 8 (if n + 1 = 2 ^ 48 - 1 then setBits v 63 63 1 else v))

/-- A value u enters the histogram. -/
def State.histValue (s : State) (c : Nat) (u : Int) : State :=
  let b := (u - s.rdS F.CAP_RED_LO.LO c) / (2 ^ s.rd F.CAP_RED_SCALE.SHIFT c : Int)
  s.histAdd c (if b < 0 then 4096 else if 4095 < b then 4097 else b.toNat)

/-- The cells decay (R335). -/
def State.persistDecay (s : State) (c : Nat) : State :=
  let k := s.rd F.CAP_RED_DECAY.DSHIFT c
  if k = 0 then s else
  s.each (List.range (1024 * 1024)) fun s i =>
    let a := s.redAddr c + 2 * i
    let x := s.capLoad c a 2
    x.2.put (reqCapture c) a (leBytes 2 (x.1 - ceilDiv x.1 (2 ^ k)))

/-- A sample at place j of a sweep (R335), and the end of the sweep. -/
def State.persistAdd (s : State) (c j : Nat) (v : Int) : State :=
  let w := s.rd F.CAP_RED_SWEEP.W c
  let y := (v - s.rdS F.CAP_RED_LO.LO c) / (2 ^ s.rd F.CAP_RED_SCALE.SHIFT c : Int)
  let s := s.onlyIf (decide (0 ≤ y ∧ y ≤ 1023)) fun s =>
    let a := s.redAddr c + 2 * (1024 * y.toNat + 1024 * j / w)
    let x := s.capLoad c a 2
    x.2.put (reqCapture c) a (leBytes 2 (satAdd 65535 x.1 1))
  let x := s.capCh c
  if j + 1 < w then s.setCapCh c { x with sweep := some (j + 1) }
  else
    let s := s.setCapCh c { x with sweeps := x.sweeps + 1, sweep := if s.rdb F.CAP_CH_MODE.SWEEP_TRIG c then none else some 0 }
    s.onlyIf ((x.sweeps + 1) % s.rd F.CAP_RED_DECAY.DPERIOD c == 0) fun s => s.persistDecay c

/-- The MINMAX interval that holds samples is written to its ring (R333). -/
def State.mmFlush (s : State) (c : Nat) : State :=
  let x := s.capCh c
  if x.mmN = 0 then s else
  let bitwise := s.rdb F.CAP_RED_FIELD.BITWISE c
  let n := s.capBytes c
  let e := if bitwise then leBytes n x.mmA ++ leBytes n x.mmB else leBytes 2 x.mmA ++ leBytes 2 x.mmB
  let s := s.put (reqCapture c) (s.redAddr c + 64 + x.mmWr % 2 ^ s.rd F.CAP_RED_DEC.SIZE c * s.mmEntry c) e
  let s := s.put (reqCapture c) (s.redAddr c) (leBytes 8 (x.mmWr + 1))
  s.setCapCh c { x with mmN := 0, mmWr := x.mmWr + 1 }

/-- The field v of a sample (R332). -/
def State.redField (s : State) (c sample : Nat) : Int :=
  let k := s.rd F.CAP_RED_FIELD.FOFS c
  let n := bits sample (k + 15) k
  if s.rdb F.CAP_RED_FIELD.UNSIGNED c then n else sint 16 n

/-- A sample enters a MINMAX interval. -/
def State.mmAdd (s : State) (c sample : Nat) : State :=
  let x := s.capCh c
  let v := s.redField c sample
  let bitwise := s.rdb F.CAP_RED_FIELD.BITWISE c
  let old (n : Nat) : Int := if s.rdb F.CAP_RED_FIELD.UNSIGNED c then (n : Int) else sint 16 n
  let a := if x.mmN = 0 then (if bitwise then sample else toBits 16 v)
    else if bitwise then x.mmA &&& sample else toBits 16 (min (old x.mmA) v)
  let b := if x.mmN = 0 then (if bitwise then sample else toBits 16 v)
    else if bitwise then x.mmB ||| sample else toBits 16 (max (old x.mmB) v)
  let s := s.setCapCh c { x with mmN := x.mmN + 1, mmA := a, mmB := b }
  s.onlyIf (decide (s.rd F.CAP_RED_DEC.D c ≤ x.mmN + 1)) fun s => s.mmFlush c

/-- An edge between two samples at a bit, of a polarity: 0 rising, 1 falling, else either (Table CAP-4). -/
def edgeAt (prev : Option Nat) (cur k pol : Nat) : Bool :=
  match prev with
  | none => false
  | some p =>
    match pol with
    | 0 => !bit p k && bit cur k
    | 1 => bit p k && !bit cur k
    | _ => bit p k != bit cur k

/-- A sample enters the channel's reduction (R332 to R335). `fired`: a trigger, or a lost one, at this sample. -/
def State.reduce (s : State) (c i sample : Nat) (prev : Option Nat) (poison fired : Bool) : State :=
  let red := s.rd F.CAP_CH_MODE.RED c
  if red = 0 then s else
  let s := s.onlyIf poison fun s => s.wr F.CAP_CH_STAT.RPOISON 1 c
  match red with
  | 1 => s.mmAdd c sample
  | 2 =>
    if !s.rdb F.CAP_RED_FIELD.HKIND c then s.histValue c (s.redField c sample)
    else if edgeAt prev sample (s.rd F.CAP_RED_FIELD.FOFS c) (s.rd F.CAP_RED_FIELD.IEDGE c) then
      let x := s.capCh c
      let t := s.setCapCh c { x with edges := Sparse.insert x.edges 4 i }
      match Sparse.find x.edges 4 with
      | some k => t.histValue c ((i - k : Nat) : Int)
      | none => t
    else s
  | _ =>
    let x := s.capCh c
    let j := if fired && s.rdb F.CAP_CH_MODE.SWEEP_TRIG c then some 0 else x.sweep
    match j with
    | some j => s.persistAdd c j (s.redField c sample)
    | none => s

/-! ### Stages (R326, Table CAP-4) -/

/-- The last stage F: the lowest with FINAL = 1. -/
def State.capFinal (s : State) (c : Nat) : Option Nat := (List.range 4).find? fun i => s.rdb F.CAP_STG_CFG.FINAL c i

/-- Stage i names channel d in LINKED. -/
def State.linkedTo (s : State) (c d : Nat) : Bool :=
  c != d && (List.range ((s.capFinal c).getD 0 + 1)).any fun i =>
    s.rd F.CAP_STG_CFG.KIND c i == 10 && s.rd F.CAP_STG_CFG.UNIT c i == d

/-- v lies in [a, b], or outside it. -/
def inRange (v a b : Int) (outside : Bool) : Bool := decide (a ≤ v ∧ v ≤ b) != outside

/-- The condition of stage i holds at a sample (Table CAP-4). `last`: the previous edge of the stage's bit; `evts`: the
events attributed to the sample. -/
def State.stageHolds (s : State) (c i idx sample : Nat) (prev : Option Nat) (last : Option Nat) (evts : List CapEvt) : Bool :=
  let k := s.rd F.CAP_STG_CFG.FOFS c i
  let pol := s.rd F.CAP_STG_CFG.POL c i
  let u := s.rd F.CAP_STG_CFG.UNIT c i
  let a := s.rd F.CAP_STG_A.A c i
  let b := s.rd F.CAP_STG_B.B c i
  match s.rd F.CAP_STG_CFG.KIND c i with
  | 1 => (bits sample (k + 31) k &&& b) == (a &&& b)
  | 2 => edgeAt prev sample k pol
  | 3 =>
    let v := bits sample (k + 15) k
    if bit pol 1 then inRange v a b (bit pol 0) else inRange (sint 16 v) (sint 32 a) (sint 32 b) (bit pol 0)
  | 4 => true
  | 5 => edgeAt prev sample k (pol % 4) && (match last with
      | some x => inRange ((idx - x : Nat) : Int) a b (bit pol 2)
      | none => false)
  | 6 => evts.any fun e => e.kind == 6 && bit a e.unit
  | 7 => evts.any fun e => e.kind == 7 && e.unit == u && (e.pol == pol || (pol == 3 && e.pol != 0))
  | 8 => evts.any fun e => e.kind == 8 && e.unit == u && (e.pol == pol || decide (2 ≤ pol))
  | 9 => evts.any fun e => e.kind == 9
  | 10 => u != c && evts.any fun e => e.kind == 10 && e.unit == u
  | _ => false

/-- The sequencer at one sample: its next state, and whether it triggers (R326). -/
def State.seqStep (s : State) (c : Nat) (q : CapSeq) (holds : Nat → Bool) (ts : Nat) : CapSeq × Bool :=
  let n := if holds q.stage then q.count + 1 else q.count
  let to_ := s.rd F.CAP_STG_TO.TO c q.stage
  if s.rd F.CAP_STG_N.N c q.stage ≤ n then
    if s.rdb F.CAP_STG_CFG.FINAL c q.stage then ({ at_ := ts }, true) else ({ stage := q.stage + 1, at_ := ts }, false)
  else if to_ ≠ 0 ∧ q.at_ + to_ < ts then ({ at_ := ts }, false)
  else ({ q with count := n }, false)

/-! ### Segments (R322, R323, R328 to R330) -/

/-- A segment opens at instant t: byte 5 of its header is 0 (R329). It takes the samples from t on; triggers lost before it are
its own to report (R330). -/
def State.segOpen (s : State) (c t : Nat) : State :=
  let x := s.capCh c
  let s := s.setCapCh c { x with
    isOpen := true, openAt := t, start := x.idx + (x.pipe.filter fun p => decide (p.ts < t)).length, trig := none, forced := false
    late := false, poison := [], dead := 0, lost := x.lostNew, lostNew := 0, seq := { at_ := t } }
  let pre := s.rdb F.CAP_CH_MODE.PREFILL c && decide (0 < s.rd F.CAP_CH_PRE.PRE c)
  let s := s.wr F.CAP_CH_STAT.STATE (if pre then capPrefill else capWait) c
  s.onlyIf (s.rdb F.CAP_CH_MODE.RAW c) fun s => s.put (reqCapture c) (s.segAddr c + 5) [0]

/-- The samples that the open segment holds: from its first to the last one evaluated, or to the last of its record. -/
def State.segSamples (s : State) (c : Nat) : Nat :=
  let x := s.capCh c
  let all := x.idx - x.start
  match x.trig with
  | some t => min all (t.1 + s.rd F.CAP_CH_POST.POST c - x.start)
  | none => all

/-- The header of the open segment (Table CAP-5). `flags`: OVERFLOW and STOPPED; `n`: samples of the segment; `good`:
LAST_GOOD. -/
def State.segHeader (s : State) (c : Nat) (overflow stopped : Bool) (n good : Nat) : List Byte :=
  let x := s.capCh c
  let pre := s.rd F.CAP_CH_PRE.PRE c
  let t := match x.trig with | some t => t.1 | none => x.start + n
  let preValid := min (t - x.start) pre
  let post := x.start + n - t
  let first := t - preValid
  let poison := x.poison.any fun i => decide (first ≤ i)
  let flags := 1 + 2 * b2n overflow + 4 * b2n stopped + 8 * b2n x.forced + 16 * b2n x.late + 32 * b2n poison
    + 64 * b2n x.trig.isNone
  leBytes 4 0x47455343 ++ leBytes 1 (c + 16 * s.rd F.CAP_CH_SRC.KIND c) ++ leBytes 1 flags ++ leBytes 2 (s.capBytes c)
    ++ leBytes 8 x.closed ++ leBytes 8 (match x.trig with | some t => t.1 | none => 0)
    ++ leBytes 8 (match x.trig with | some t => t.2 | none => 0) ++ leBytes 4 preValid ++ leBytes 4 post
    ++ leBytes 4 (64 + (first - x.start) % s.capC c * s.capBytes c) ++ leBytes 4 (min x.dead 0xFFFFFFFF)
    ++ leBytes 4 (min x.lost 0xFFFFFFFF) ++ leBytes 4 0 ++ leBytes 8 good

/-- The open segment closes: header, event, capture event to the dispatcher (R328, R329, R339). -/
def State.segClose (s : State) (c : Nat) (overflow stopped : Bool) (good : Nat) : State :=
  let x := s.capCh c
  let a := s.segAddr c
  let s := s.onlyIf (s.rdb F.CAP_CH_MODE.RAW c) fun s =>
    s.put (reqCapture c) a (s.segHeader c overflow stopped (s.segSamples c) good)
  let s := (s.setCapCh c { x with isOpen := false, closed := x.closed + 1 }).sat F.CAP_CH_DONE.COUNT c
  let s := s.onlyIf (s.rdb F.CAP_CH_MODE.EVT c) fun s =>
    s.event 0x0901 sevInfo (sourceId 0x0901 0 c)
      (payload [(16, 8, x.closed), (24, 8, match x.trig with | some t => t.2 | none => 0)])
  let s := s.onlyIf x.trig.isSome fun s => s.produce (64 + c) fun d =>
    slice d 0 48 ++ leBytes 8 (a / 16 + s.rd F.CAP_CH_STAT.SEG c * 2 ^ 32) ++ slice d 56 8
  let last := !s.rdb F.CAP_CH_MODE.RING c && s.rd F.CAP_CH_STAT.SEG c == s.rd F.CAP_CH_NSEG.NSEG_M1 c
  s.onlyIf last fun s =>
    (s.event 0x0903 sevInfo (sourceId 0x0903 0 c) (payload [(16, 8, x.closed), (24, 8, s.now)])).wr F.CAP_CH_STAT.STATE capStopped c

/-- The reduction of a channel stops: an incomplete MINMAX interval is written, and WR_IDX marked (R333). -/
def State.redStop (s : State) (c : Nat) : State :=
  s.onlyIf (s.rd F.CAP_CH_MODE.RED c == 1) fun s =>
    let s := s.mmFlush c
    s.put (reqCapture c) (s.redAddr c) (leBytes 8 ((s.capCh c).mmWr + 2 ^ 63))

/-- The reduction state is copied after sample s (R336). -/
def State.capSnapNow (s : State) (q : CapSnap) : State :=
  let c := q.ch
  let x := s.capCh c
  let r := s.memRead (reqCapture c) (s.redAddr c) (s.redState c)
  let i := x.idx - 1
  let out := (leBytes 8 i ++ leBytes 8 x.lastTs).map (fun b => (b, false)) ++ r.bytes
  if !q.hbm && !s.portUp (s.cmdPort q.ref) then r.s.complete q.ref stIncomplete
  else
    let s := if q.hbm then (r.s.memWrite (reqCapture c) (s.partAddr q.part q.addr) out).s
      else r.s.hostSend (s.cmdPort q.ref) q.addr (s.redAddr c) out
    (s.onlyIf q.clear fun s => s.redClear c).complete q.ref stDone i

/-- A channel goes to STOPPED: it takes no further sample. Snapshots that waited for one follow the last sample it took, or are
refused where it took none (notes/assumptions/106.md). -/
def State.capStop (s : State) (c : Nat) : State :=
  let s := (s.wr F.CAP_CH_STAT.STATE capStopped c).redStop c
  let s := (s.setCapCh c { s.capCh c with pipe := [] }).showCapRate
  let due := s.cap.snaps.filter fun q => q.ch == c
  let s := s.setCap { s.cap with snaps := s.cap.snaps.filter fun q => q.ch != c }
  s.each due fun s q => if (s.capCh c).idx = 0 then s.complete q.ref stRefused else s.capSnapNow q

/-- SEGMENT_CLOSE (R329): the record of a channel in DEAD is closed; the next segment opens, or the channel stops. -/
def execSegmentClose (channel : BitVec 4) (s : State) : Host.Outcome State Fault Refusal :=
  let c := channel.toNat
  .next <| s.live fun s =>
    if s.capState c != capDead || !(s.capCh c).isOpen then s else
    let s := s.segClose c false false 0
    if s.capState c == capStopped then s.capStop c
    else
      let n := s.rd F.CAP_CH_STAT.SEG c
      (s.wr F.CAP_CH_STAT.SEG (if n = s.rd F.CAP_CH_NSEG.NSEG_M1 c then 0 else n + 1) c).segOpen c s.now

/-! ### Samples (R319, R320, R326, R327, R330, R331) -/

/-- A channel triggers at a sample (R328): linked channels, its hub signal, which the trigger's decision drives, and the state
that follows. -/
def State.capTrigger (s : State) (c i ts : Nat) (forced late : Bool) : State :=
  let x := s.capCh c
  let s := s.setCapCh c { x with trig := some (i, ts), forced := forced, late := late, seq := {} }
  let s := s.setCap { s.cap with
    trigOut := if c < 8 then Sparse.insert s.cap.trigOut c (s.now + 16) else s.cap.trigOut
    ch := (s.onArmed (fun k => s.linkedTo k c) fun _ x => x.present ts 10 c 0).cap.ch }
  let s := (s.wr F.CAP_CH_STAT.STATE capPost c).wr F.CAP_CH_STAT.STAGE 0 c
  s.onlyIf (decide (c < 8)) State.elaAgain

/-- The dead time ends with the first sample in WAIT (R330). -/
def State.deadEnd (s : State) (c ts : Nat) : State :=
  let x := s.capCh c
  match x.deadFrom with
  | none => s
  | some p =>
    let d := min (ts - p) 0xFFFFFFFF
    let s := s.setCapCh c { x with deadFrom := none, dead := ts - p }
    let s := s.onlyIf (decide (d < s.rd F.CAP_CH_DEAD_MIN.TICKS c)) fun s => s.wr F.CAP_CH_DEAD_MIN.TICKS d c
    let s := s.onlyIf (decide (s.rd F.CAP_CH_DEAD_MAX.TICKS c < d)) fun s => s.wr F.CAP_CH_DEAD_MAX.TICKS d c
    s.wr F.CAP_CH_DEAD_LAST.TICKS d c

/-- A sample in the sequencer: the machine, and whether a trigger or a lost trigger falls on it (R326, R330). One from before
the open segment falls into the dead time. -/
def State.capSequence (s : State) (c i ts : Nat) (holds : Nat → Bool) (evts : List CapEvt) : Bool × State :=
  let x := s.capCh c
  let host := evts.any fun e => e.kind == 9
  let linked := evts.any fun e => e.kind == 10 && s.linkedTo c e.unit
  if s.capState c = capWait ∧ x.openAt ≤ ts then
    let q := s.seqStep c x.seq holds ts
    if q.2 || host || linked then
      (true, s.capTrigger c i ts (host || (linked && q.2)) (evts.any (·.late)))
    else
      (false, (s.setCapCh c { x with seq := q.1 }).wr F.CAP_CH_STAT.STAGE q.1.stage c)
  else if x.deadFrom.isSome && s.capState c != capPost then
    let q := s.seqStep c x.shadow holds ts
    let next := decide (s.capState c = capDead)
    if q.2 || host || linked then
      (true, (s.setCapCh c { x with
        shadow := { at_ := ts }, lost := x.lost + b2n (!next), lostNew := x.lostNew + b2n next }).sat F.CAP_CH_LOST.COUNT c)
    else (false, s.setCapCh c { x with shadow := q.1 })
  else (false, s)

/-- Raw storage of a sample in the open segment's ring (R323). -/
def State.capStore (s : State) (c i n : Nat) (data : List Byte) (poison : Bool) : State :=
  let x := s.capCh c
  if !s.rdb F.CAP_CH_MODE.RAW c || !x.isOpen || s.capState c == capDead || decide (i < x.start) then s else
  let s := s.setCapCh c { x with poison := if poison then x.poison ++ [i] else x.poison }
  (s.memWrite (reqCapture c) (s.segAddr c + 64 + (i - x.start) % s.capC c * n) ((padTo n data).map fun b => (b, poison))).s

/-- Overflow (R331): the sample is lost and the channel stops. -/
def State.capOverflow (s : State) (c : Nat) : State :=
  let x := s.capCh c
  let good := (x.idx + 2 ^ 64 - 1) % 2 ^ 64
  let seq := x.closed
  let s := (s.wr F.CAP_CH_STAT.OVF 1 c).wr64 F.CAP_CH_LASTGOOD_LO.INDEX good c
  let s := s.onlyIf x.isOpen fun s => s.segClose c true false good
  (s.capStop c).event 0x0902 sevError (sourceId 0x0902 0 c) (payload [(16, 8, seq), (24, 8, good)])

/-- The prefill of a segment is complete with the sample before this one: the sequencer waits from its timestamp on (R326). -/
def State.waitBegins (s : State) (c ts : Nat) : State :=
  let x := s.capCh c
  s.onlyIf (s.capState c == capPrefill && decide (x.openAt ≤ ts) && decide (s.rd F.CAP_CH_PRE.PRE c ≤ x.idx - x.start)) fun s =>
    (s.wr F.CAP_CH_STAT.STATE capWait c).setCapCh c { x with seq := { at_ := ts } }

/-- No sequencer looks at the next sample: it falls into a first prefill or into POST (R326, R330). -/
def State.capCalm (s : State) (c : Nat) : Bool :=
  s.capState c == capPost || (s.capState c == capPrefill && (s.capCh c).deadFrom.isNone)

/-- A sample is evaluated (R320, R326): sequencer, reduction, storage, and the end of the record. -/
def State.capTake (s : State) (c : Nat) (smp : CapSmp) : State :=
  let s := s.waitBegins c smp.ts
  let x := s.capCh c
  let i := x.idx
  let ts := smp.ts
  let n := s.capBytes c
  let sample := smp.word % 256 ^ n
  let evts := x.evts.filter fun e => decide (e.at_ ≤ ts)
  let calm := s.capCalm c
  let s := s.setCapCh c { x with evts := x.evts.filter fun e => decide (ts < e.at_), quietTo := if calm then ts else x.quietTo }
  let s := s.onlyIf (s.capState c == capWait && decide (x.openAt ≤ ts)) fun s => s.deadEnd c ts
  let s := s.capStore c i n (leBytes n sample) smp.poison
  let holds (k : Nat) : Bool := s.stageHolds c k i sample x.prev (Sparse.find x.edges k) evts
  let r := s.capSequence c i ts holds evts
  let s := r.2.reduce c i sample x.prev smp.poison r.1
  let edge (k : Nat) : Bool := edgeAt x.prev sample (s.rd F.CAP_STG_CFG.FOFS c k) (s.rd F.CAP_STG_CFG.POL c k % 4)
  let y := s.capCh c
  let s := s.setCapCh c { y with
    idx := i + 1, lastTs := ts, prev := some sample
    edges := ((List.range 4).filter edge).foldl (fun m k => Sparse.insert m k i) y.edges }
  match (s.capCh c).trig with
  | some t =>
    if s.capState c = capPost ∧ t.1 + s.rd F.CAP_CH_POST.POST c ≤ i + 1 then
      (s.wr F.CAP_CH_STAT.STATE capDead c).setCapCh c { s.capCh c with deadFrom := some ts, shadow := { at_ := ts } }
    else s
  | none => s

/-- The oldest sample that waits is evaluated, and the snapshots that it completes are copied (R336). -/
def State.capOne (s : State) (c : Nat) (smp : CapSmp) : State :=
  let i := (s.capCh c).idx
  let s := (s.setCapCh c { s.capCh c with pipe := (s.capCh c).pipe.drop 1 }).capTake c smp
  let done (q : CapSnap) : Bool := q.ch == c && decide (q.upto ≤ i)
  let due := s.cap.snaps.filter done
  (s.setCap { s.cap with snaps := s.cap.snaps.filter fun q => !done q }).each due State.capSnapNow

/-- The channels that channel c names in LINKED, and those that they name, and so on. -/
def State.linkSet (s : State) (c : Nat) : List Nat :=
  let names (d : Nat) : List Nat := (List.range 16).filter (s.linkedTo d)
  (List.range 16).foldl (fun l _ => (l ++ l.flatMap names).eraseDups) (names c)

/-- A channel that c names has a sample to evaluate first, whose trigger would belong to the sample of timestamp ts: an earlier
one, or one of the same tick; of channels that name each other the lower goes first (R327, R328). -/
def State.linkWaits (s : State) (c ts : Nat) : Bool :=
  (List.range 16).any fun d => s.linkedTo c d && s.capArmed d &&
    match (s.capCh d).pipe with
    | p :: _ => decide (p.ts < ts) || (p.ts == ts && (decide (d < c) || !(s.linkSet d).contains c))
    | [] => false

/-- An event that a sample of timestamp ts has to evaluate arrived after the sample of its own instant was evaluated (R327). -/
def CapCh.lateAt (x : CapCh) (ts : Nat) : Bool := x.evts.any fun e => decide (e.at_ ≤ ts) && e.late

/-- CAPTURE_SAMPLE: the oldest sample that a channel has taken, which the row names by its value, poison, timestamp and whether a
late event belongs to it, is evaluated (R319, R320): 256 ticks after its timestamp, where a sequencer looks at it, with what the
channels that it names have to say by then (R327). `full`: it found the ingest buffer full (R331). -/
def execCaptureSample (channel : BitVec 4) (data : BitVec 512) (poison : Bool) (time : BitVec 64) (full late : Bool)
    (s : State) : Host.Outcome State Fault Refusal :=
  let c := channel.toNat
  .next <| s.live fun s =>
    match (s.capCh c).pipe with
    | [] => s
    | smp :: _ =>
      if !s.capArmed c || smp != ⟨time.toNat, data.toNat, poison⟩ || (s.capCh c).lateAt smp.ts != late then s else
      let s := s.waitBegins c smp.ts
      if !s.capCalm c && (decide (s.now < smp.ts + 256) || s.linkWaits c smp.ts) then s
      else if full && s.rdb F.CAP_CH_MODE.RAW c then s.capOverflow c
      else s.capOne c smp

/-! ### Commands (Table CAP-3) -/

/-- The partition belongs to the capture engine (R322). -/
def State.capPartOwned (s : State) : Bool :=
  let p := s.rd F.CAP_GLB_PART.PART
  s.rdb F.MEM_PART_CFG.EN p && bit (s.rd F.MEM_PART_OWN.MASK p) 21

/-- The source of a channel is enabled, bound or defined: of a slot, the path that the tap lies on. -/
def State.capSourceOk (s : State) (c : Nat) : Bool :=
  let u := s.rd F.CAP_CH_SRC.UNIT c
  match s.rd F.CAP_CH_SRC.KIND c with
  | 2 => decide (255 < u) || (s.rdb F.RAD_SLOT_CFG.EN u &&
      (if s.rd F.CAP_CH_SRC.POINT c < 2 then s.rdb F.RAD_SLOT_CFG.RX_EN u else s.rdb F.RAD_SLOT_CFG.TX_EN u))
  | 3 => decide (15 < u) || s.rdb F.LNK_CFG.EN u
  | 4 => decide (15 < u) || s.rdb F.FAB_RGN_CFG.EN u
  | _ => true

/-- CAP_ARM of a channel would be refused. -/
def State.capArmRefused (s : State) (c : Nat) : Bool :=
  s.capArmed c || s.cap.arms.any (fun a => bit a.2.1 c) || !s.capPartOwned || !s.capSourceOk c ||
    (s.rd F.CAP_CH_MODE.RED c != 0 && !s.rdb F.CAP_RED_DST.HBM c && decide (s.rd F.CAP_RED_DST.BANK c < 64) &&
      s.rd F.MEM_BANK_STAT.OWNER (s.rd F.CAP_RED_DST.BANK c) / 0x1000 != 3)

/-- The source fields are in range (Table CAP-1). -/
def State.capSourceRange (s : State) (c : Nat) : Bool :=
  let u := s.rd F.CAP_CH_SRC.UNIT c
  match s.rd F.CAP_CH_SRC.KIND c with
  | 1 => decide (s.capSel c % 65536 ≠ 0)
  | 2 => decide (u ≤ 255)
  | 3 => decide (u ≤ 15)
  | 4 => decide (u ≤ 15)
  | _ => false

/-- The stages are valid (R326, Table CAP-4, Table CAP-8). -/
def State.capStagesOk (s : State) (c : Nat) : Bool :=
  let width := 8 * s.capBytes c
  match s.capFinal c with
  | none => false
  | some f => (List.range (f + 1)).all fun i =>
    let k := s.rd F.CAP_STG_CFG.KIND c i
    let o := s.rd F.CAP_STG_CFG.FOFS c i
    let p := s.rd F.CAP_STG_CFG.POL c i
    decide (1 ≤ k ∧ k ≤ 10) && decide (0 < s.rd F.CAP_STG_N.N c i) &&
      (match k with
       | 1 => decide (o + 32 ≤ width)
       | 2 => decide (o < width ∧ p < 3)
       | 3 => decide (o + 16 ≤ width ∧ p < 4)
       | 5 => decide (o < width ∧ p % 4 < 3)
       | 7 => decide (s.rd F.CAP_STG_CFG.UNIT c i < 64 ∧ p < 4)
       | 8 => decide (s.rd F.CAP_STG_CFG.UNIT c i < 16 ∧ p < 3)
       | 10 => decide (s.rd F.CAP_STG_CFG.UNIT c i < 16)
       | _ => true)

/-- The reduction fields are valid (R332 to R335). -/
def State.capRedOk (s : State) (c : Nat) : Bool :=
  let red := s.rd F.CAP_CH_MODE.RED c
  let hbm := s.rdb F.CAP_RED_DST.HBM c
  let ofs := s.rd F.CAP_RED_OFS.OFS c
  let r := s.capRate c
  let width := 8 * s.capBytes c
  let field := if red = 1 ∧ s.rdb F.CAP_RED_FIELD.BITWISE c then true
    else if red = 2 ∧ s.rdb F.CAP_RED_FIELD.HKIND c then decide (s.rd F.CAP_RED_FIELD.FOFS c < width ∧ s.rd F.CAP_RED_FIELD.IEDGE c < 3)
    else decide (s.rd F.CAP_RED_FIELD.FOFS c + 16 ≤ width)
  red == 0 || (field && ofs % 64 == 0 && decide (r.1 ≤ 1250000000 * r.2)
    && (if hbm then s.inPart (s.rd F.CAP_GLB_PART.PART) ofs (s.redBytes c)
        else decide (s.rd F.CAP_RED_DST.BANK c < 64 ∧ ofs + s.redBytes c ≤ 2 ^ 21))
    && decide (s.rd F.CAP_RED_SCALE.SHIFT c ≤ 20)
    && (red != 1 || decide (8 ≤ s.rd F.CAP_RED_DEC.SIZE c ∧ s.rd F.CAP_RED_DEC.SIZE c ≤ 24
          ∧ 2 ≤ s.rd F.CAP_RED_DEC.D c ∧ s.rd F.CAP_RED_DEC.D c ≤ 16777216))
    && (red != 3 || (!hbm && decide (1024 ≤ s.rd F.CAP_RED_SWEEP.W c ∧ 1 ≤ s.rd F.CAP_RED_DECAY.DPERIOD c))))

/-- Two ranges overlap. -/
def rangesMeet (a b : Nat × Nat) : Bool := decide (a.1 < b.2 ∧ b.1 < a.2)

/-- One channel of an arm is in range (R322). `others`: the channels armed or being armed. -/
def State.capRangeOk (s : State) (others : List Nat) (c : Nat) : Bool :=
  let r := s.capRange c
  s.capSourceRange c && decide (1 ≤ s.rd F.CAP_CH_SEGLEN.SEGLEN c)
    && decide (0 < s.rd F.CAP_CH_POST.POST c ∧ s.rd F.CAP_CH_PRE.PRE c + s.rd F.CAP_CH_POST.POST c ≤ s.capC c)
    && s.inPart (s.rd F.CAP_GLB_PART.PART) r.1 (r.2 - r.1)
    && (others.all fun d => d == c || !rangesMeet r (s.capRange d))
    && s.capStagesOk c && s.capRedOk c

/-- The channels that would be armed fit together (R321, R322). -/
def State.capTotalOk (s : State) (l : List Nat) : Bool :=
  decide (l.foldl (fun n c => n + s.capStored c) 0 ≤ 1600000000000) &&
    decide (l.foldl (fun n c => n + s.rd F.CAP_CH_NSEG.NSEG_M1 c + 1) 0 ≤ 65536)

/-- The channels start at an arm instant (Table CAP-3). -/
def State.capStart (s : State) (mask t : Nat) : State :=
  let s := s.each (maskBits 16 mask) fun s c =>
    let s := s.setCapCh c { armT := t }
    let s := ((s.wr F.CAP_CH_STAT.STAGE 0 c).wr F.CAP_CH_STAT.OVF 0 c).wr F.CAP_CH_STAT.RPOISON 0 c
    let s := ((s.wr F.CAP_CH_STAT.SEG 0 c).wr F.CAP_CH_DONE.COUNT 0 c).wr F.CAP_CH_DEAD_MIN.TICKS 0xFFFFFFFF c
    let s := (s.wr F.CAP_CH_DEAD_MAX.TICKS 0 c).wr F.CAP_CH_DEAD_LAST.TICKS 0 c
    (s.redArm c).segOpen c t
  s.showCapRate

/-- The arm of a mask at T, or at once (R324). -/
def State.capArm (s : State) (ref : CmdRef) (mask when_ t : Nat) : State :=
  let l := maskBits 16 mask
  let waiting := (s.cap.arms.flatMap fun a => maskBits 16 a.2.1)
  let all := ((List.range 16).filter fun c => s.capArmed c || waiting.contains c || l.contains c)
  if l.isEmpty || (when_ != 0 && when_ != 2) then s.complete ref stRange
  else if l.any s.capArmRefused then s.complete ref stRefused
  else if !(l.all (s.capRangeOk all)) || !s.capTotalOk all then s.complete ref stRange
  else if when_ = 2 ∧ s.now < t then s.setCap { s.cap with arms := s.cap.arms ++ [(ref, mask, t)] }
  else (s.capStart mask s.now).complete ref stDone s.now

/-- CAP_ARM (R324). -/
def execCapArm (ref : CmdRef) (mask : BitVec 16) (when_ : BitVec 8) (t : BitVec 64) (s : State) :
    Host.Outcome State Fault Refusal :=
  .next (s.command ref 0x0901 fun s => s.capArm ref mask.toNat when_.toNat t.toNat)

/-- CAP_ARM_INSTANT (R324): the channels of a waiting CAP_ARM start. -/
def execCapArmInstant (ref : CmdRef) (s : State) : Host.Outcome State Fault Refusal :=
  .next <| s.live fun s =>
    match s.cap.arms.find? fun a => a.1 == ref with
    | some a =>
      if s.now < a.2.2 then s else
      let s := s.setCap { s.cap with arms := s.cap.arms.filter fun x => x.1 != ref }
      (s.capStart a.2.1 a.2.2).complete ref stDone a.2.2
    | none => s

/-- A CAP_ARM or CAP_SNAP that waits is given up (R398). -/
def State.capCancel (s : State) (ref : CmdRef) : State :=
  s.setCap { s.cap with arms := s.cap.arms.filter fun a => a.1 != ref, snaps := s.cap.snaps.filter fun q => q.ref != ref }

/-- Every sample of a channel whose timestamp lies before the present is evaluated. -/
def State.capFlush (s : State) (c : Nat) : State :=
  s.each ((s.capCh c).pipe.filter fun p => decide (p.ts < s.now)) fun s p => s.onlyIf (s.capArmed c) fun s => s.capOne c p

/-- The channels of a mask stop (Table CAP-3), with the samples from before the stop. -/
def State.capStopMask (s : State) (mask : Nat) : State :=
  s.each ((maskBits 16 mask).filter s.capArmed) fun s c =>
    let s := s.capFlush c
    (s.onlyIf (s.capCh c).isOpen fun s => s.segClose c false true 0).capStop c

/-- CAP_STOP (R324). -/
def execCapStop (ref : CmdRef) (mask : BitVec 16) (s : State) : Host.Outcome State Fault Refusal :=
  .next <| s.command ref 0x0902 fun s =>
    if mask = 0 then s.complete ref stRange else (s.capStopMask mask.toNat).complete ref stDone

/-- HOST events for the channels of a mask (Table CAP-4). -/
def State.capForce (s : State) (mask : Nat) : State :=
  s.each ((maskBits 16 mask).filter s.capArmed) fun s c =>
    s.setCapCh c ((s.capCh c).present s.now 9 0 0)

/-- CAP_FORCE (R324). -/
def execCapForce (ref : CmdRef) (mask : BitVec 16) (s : State) : Host.Outcome State Fault Refusal :=
  .next <| s.command ref 0x0903 fun s =>
    if mask = 0 then s.complete ref stRange else (s.capForce mask.toNat).complete ref stDone

/-- CAP_FORCE_REGISTER_WRITE (R338). -/
def execCapForceRegisterWrite (value : BitVec 32) (s : State) : Host.Outcome State Fault Refusal :=
  .next (s.onlyIf (s.bar0Open 0x441008) fun s => s.capForce (value.toNat % 65536))

/-- CAP_SNAP (R336): the snapshot sample is the last one taken, or the first if none has been; a channel that has stopped without
one has nothing to copy. -/
def execCapSnap (ref : CmdRef) (channel dest part : BitVec 8) (clear : Bool) (addr : BitVec 64) (len : BitVec 32) (s : State) :
    Host.Outcome State Fault Refusal :=
  let c := channel.toNat
  .next <| s.command ref 0x0904 fun s =>
    if 15 < c ∨ 1 < dest.toNat ∨ (dest = 1 ∧ 15 < part.toNat) then s.complete ref stRange
    else if s.rd F.CAP_CH_MODE.RED c == 0 || s.capState c == capIdle then s.complete ref stRefused
    else if len.toNat < 16 + s.redState c then s.complete ref stRange
    else if dest = 1 ∧ !s.inPart part.toNat addr.toNat (16 + s.redState c) then s.complete ref stRange
    else
      let x := s.capCh c
      let n := x.idx + x.pipe.length
      let q : CapSnap := ⟨ref, c, n - 1, dest == 1, part.toNat, clear, addr.toNat, len.toNat⟩
      if n = 0 ∧ s.capState c = capStopped then s.complete ref stRefused
      else if n = 0 ∨ x.pipe ≠ [] then s.setCap { s.cap with snaps := s.cap.snaps ++ [q] }
      else s.capSnapNow q

end Sys2Proof.Machine
end

