-- ==== Sys2Proof/Machine/Banks.lean ====
section
/-! DEFINITION. Requests to the memory system one by one, drains, clearing, the kiln (R342 to R359). -/

namespace Sys2Proof.Machine

/-! ### Single requests (R342 to R352) -/

/-- The first far address of the windows that accept only the writes of transfer units (Table MEM-1), in bytes. -/
abbrev windowBytes : Nat := 0xFFFE00000

/-- Bits flipped in the stored word under a byte address, before an access finds them. -/
def State.upset (s : State) (a : Nat) (flips : BitVec 72) : State :=
  match s.target a with
  | .bank b =>
    let k := s.bankKey b ((a - hbmBytes) % 2 ^ 21 / 8)
    let w := s.bankGet k
    s.onlyIf (flips != 0 && w.valid) fun s => s.bankSet k { w with flips := w.flips ^^^ flips }
  | _ => s

/-- A word rotated right by `k` bytes (R347). -/
def rotBytes (k : Nat) (l : List Byte) : List Byte := (List.range 8).map fun i => l.getD ((i + k) % 8) 0

/-- A rotated write: lane i of the data goes to byte (k + i) mod 8 of the word (R347). -/
def rotMerge (old : List Byte) (k : Nat) (data : List Byte) : List Byte :=
  (List.range 8).map fun j => if (j + 8 - k) % 8 < data.length then data.getD ((j + 8 - k) % 8) 0 else old.getD j 0

/-- A rotated access to a bank word by its owner (R347): read data, their poison, and the machine. -/
def State.rotAccess (s : State) (r : MemReq) (b : Nat) : List Byte × Bool × State :=
  let o := (r.addr - hbmBytes) % 2 ^ 21
  let data := leBytes r.len r.data
  if !r.write then
    let x := s.bankRead r.req b (o / 8)
    (rotBytes (o % 8) (leBytes 8 x.1), x.2.1, x.2.2)
  else if r.len = 8 then ([], false, s.bankWrite b (o / 8) (leNat (rotMerge [] (o % 8) data)) r.poison)
  else
    let x := s.bankRead r.req b (o / 8)
    ([], false, x.2.2.bankWrite b (o / 8) (leNat (rotMerge (leBytes 8 x.1) (o % 8) data)) (r.poison || x.2.1))

/-- A response to a requester is recorded. -/
def State.respond (s : State) (r : MemReq) (data : List Byte) (poison refused : Bool) : State :=
  s.setMem { s.mem with resp := some ⟨r.req, r.addr, r.len, leNat data, poison, refused⟩ }

/-- The bytes of a request's data, with its poison. -/
def MemReq.bytes (r : MemReq) : List PByte := (leBytes r.len r.data).map fun x => (x, r.poison)

/-- A request is served, or handled as a non-owner access (R342). One that was accepted as its owner's is served as such
(R345), within its first unit of access. A rotated one touches one word whatever becomes of it (R347). -/
def State.serve (s : State) (r : MemReq) : State :=
  let k := chunkLen r.addr r.len
  let mine := (r.owned || s.owns r.req r.addr) && !s.gated r.addr
  match s.target r.addr, r.rotate with
  | .bank b, true =>
    if mine then
      let x := s.rotAccess r b
      x.2.2.respond r x.1 x.2.1 false
    else (s.refuse r.req r.addr (if r.write then 2 - r.len / 8 else 0)).respond r
      (if r.write then [] else List.replicate r.len 0) (!r.write) true
  | _, _ =>
    if r.write then
      let w : WrRes := if mine ∧ r.owned then
          let q := (s.writeHere r.req r.addr (r.bytes.take k)).memWrite r.req (r.addr + k) (r.bytes.drop k)
          ⟨q.bad, q.s⟩
        else s.memWrite r.req r.addr r.bytes
      w.s.respond r [] false w.bad
    else
      let x : RdRes := if mine ∧ r.owned then
          let h := s.readHere r.req r.addr k
          let q := h.s.memRead r.req (r.addr + k) (r.len - k)
          ⟨h.bytes ++ q.bytes, q.bad, q.s⟩
        else s.memRead r.req r.addr r.len
      x.s.respond r (plain x.bytes) (poisoned x.bytes) x.bad

/-- What the stack reports with a read (R358, R359): 1 a corrected error, 2 an uncorrectable one, whose data is poisoned. -/
def State.hbmReport (s : State) (r : MemReq) (err : Nat) : State :=
  if r.write ∨ hbmBytes ≤ r.addr ∨ s.owns r.req r.addr = false then s
  else if err = 1 then s.sat F.MEM_HBM_CE.COUNT (stackOf r.addr)
  else if err = 2 then
    let s := s.hbmUe r.addr
    match s.mem.resp with
    | some x => s.setMem { s.mem with resp := some { x with poison := true } }
    | none => s
  else s

/-- One request of a requester: held in arrival order where it must wait, else served. A write of a transfer unit to a window
belongs to the rows of that window. -/
def State.request (s : State) (r : MemReq) (hbmErr : Nat) : State :=
  if windowBytes ≤ r.addr ∧ r.req / 0x1000 = 1 ∧ r.write then s
  else if s.memHolds r.addr ∧ s.owns r.req r.addr then
    s.setMem { s.mem with held := s.mem.held ++ [{ r with owned := true }] }
  else if s.gatePending r.addr then s.setMem { s.mem with held := s.mem.held ++ [r] }
  else (s.serve r).hbmReport r hbmErr

/-- The lanes of its bank word that a write sets: its bytes by lane, none for the others. -/
def MemReq.lanes (r : MemReq) : List (Option Byte) :=
  let k := r.addr % 8
  (List.range 8).map fun j =>
    let i := if r.rotate then (j + 8 - k) % 8 else j - k
    if (r.rotate || decide (k ≤ j)) && decide (i < r.len) then (leBytes r.len r.data)[i]? else none

/-- Two writes of one cycle to one bank word are one write (R346): bytewise, port 0's byte where both write one. What an
access of fewer than 8 lanes finds in the word is logged once, and the word is poisoned if either write carries poison, or if
lanes are left of a word that held it (R352). -/
def State.mergedWrite (s : State) (r0 r1 : MemReq) (b : Nat) : State :=
  let w := (r0.addr - hbmBytes) % 2 ^ 21 / 8
  let l := (r0.lanes.zip r1.lanes).map fun x => x.1.or x.2
  let poison := r0.poison || r1.poison
  let s := if l.all Option.isSome then s.bankWrite b w (leNat (l.map fun x => x.getD 0)) poison
    else
      let x := s.bankRead r0.req b w
      let old := leBytes 8 x.1
      x.2.2.bankWrite b w (leNat ((List.range 8).map fun j => ((l.getD j none).getD (old.getD j 0)))) (poison || x.2.1)
  (s.respond r0 [] false false).respond r1 [] false false

/-- Two requests on the ports 0 and 1 of their banks in one cycle (R346). On one word, a read is served before a write, and
two writes of the owner's are merged. -/
def State.request2 (s : State) (r0 r1 : MemReq) (hbmErr : Nat) : State :=
  let open_ (r : MemReq) : Bool := s.owns r.req r.addr && !s.gated r.addr && !s.memHolds r.addr && !s.gatePending r.addr
  match s.target r0.addr with
  | .bank b =>
    if r0.addr / 8 = r1.addr / 8 ∧ r0.write ∧ r1.write ∧ open_ r0 ∧ open_ r1 then s.mergedWrite r0 r1 b
    else if r0.addr / 8 = r1.addr / 8 ∧ r0.write ∧ ¬r1.write then (s.request r1 0).request r0 0
    else (s.request r0 0).request r1 0
  | _ => (s.request r0 hbmErr).request r1 0

/-- MEMORY_ACCESS (R342): one request of a requester, with the upsets that its word has met since the last access, and the
error that the stack reports with HBM data; and the request that takes the other port in the same cycle, if any (R346). -/
def execMemoryAccess (req : BitVec 16) (write rotate poison : Bool) (addr : BitVec 36) (len : BitVec 12) (data : List Byte)
    (upset : Upset) (port1 : Option MemPort) (s : State) : Host.Outcome State Fault Refusal :=
  .next <| s.live fun s =>
    let r : MemReq := ⟨req.toNat, write, addr.toNat, len.toNat, leNat (padTo len.toNat data), poison, rotate, false⟩
    let s := s.upset r.addr upset.bank
    match port1 with
    | none => s.request r upset.hbm.val
    | some p => s.request2 r ⟨p.req.toNat, p.write, p.addr.toNat, p.len.toNat, leNat (padTo p.len.toNat p.data), p.poison,
        p.rotate, false⟩ upset.hbm.val

/-- Held requests that nothing holds any more are served in arrival order. -/
def State.serveHeld (s : State) : State :=
  let ready := s.mem.held.filter fun r => !s.memHolds r.addr && !s.gatePending r.addr
  let s := s.setMem { s.mem with held := s.mem.held.filter fun r => s.memHolds r.addr || s.gatePending r.addr }
  s.each ready State.serve

/-! ### Drains and clearing (R345, R348) -/

/-- BANK_DRAIN_END (R345): the old owner's accepted requests have completed; target 0 to 63 a bank, 64 + p a partition. -/
def execBankDrainEnd (target : BitVec 7) (s : State) : Host.Outcome State Fault Refusal :=
  let t := target.toNat
  .next <| s.live fun s =>
    if t < 64 then
      s.onlyIf (s.rd F.MEM_BANK_STAT.STATE t == 1) fun s => (s.wr F.MEM_BANK_STAT.STATE 0 t).serveHeld
    else (s.setMem { s.mem with partDrain := s.mem.partDrain &&& ~~~(1#16 <<< (t - 64)) }).serveHeld

/-- Every word of a bank and its spares, as clearing leaves them (R348). -/
def State.bankClear (s : State) (b : Nat) : State :=
  (s.setMem { s.mem with bank := s.mem.bank.filter fun e =>
    !(decide (b * 262144 ≤ e.1) && decide (e.1 < (b + 1) * 262144)) &&
      !(decide (spareKey b 0 ≤ e.1) && decide (e.1 < spareKey (b + 1) 0)) }).setTrk b []

/-- BANK_CLEARING_DONE (R348): a powered-on bank is READY, every word zero with its valid bit 0. -/
def execBankClearingDone (bank : BitVec 6) (s : State) : Host.Outcome State Fault Refusal :=
  let b := bank.toNat
  .next <| s.live fun s => s.onlyIf (s.rd F.MEM_BANK_STAT.STATE b == 2) fun s =>
    ((s.bankClear b).wr F.MEM_BANK_STAT.STATE 0 b).serveHeld

/-- TRACKER_WATCH_EXPIRY (R353): an entry whose WATCH time has ended is freed. -/
def execTrackerWatchExpiry (bank : BitVec 6) (word : BitVec 18) (s : State) : Host.Outcome State Fault Refusal :=
  .next <| s.live fun s =>
    s.setTrk bank.toNat ((s.trk bank.toNat).filter fun e => !(e.word == word.toNat && e.expired s.now))

/-- ECS_RESULTS_READ (R359): the corrections that the stacks' error check and scrub has made are added. -/
def execEcsResultsRead (m0 m1 : BitVec 32) (s : State) : Host.Outcome State Fault Refusal :=
  .next <| s.live fun s => (s.sat F.MEM_HBM_CE.COUNT 0 0 m0.toNat).sat F.MEM_HBM_CE.COUNT 1 0 m1.toNat

/-! ### The kiln (R355 to R357) -/

/-- A bank that MEM_KILN may not test. -/
def State.kilnRefuses (s : State) (b : Nat) : Bool :=
  let st := s.rd F.MEM_BANK_STAT.STATE b
  s.rd F.MEM_BANK_STAT.OWNER b != reqKiln || (decide (1 ≤ st ∧ st ≤ 5) && st != 4)

/-- MEM_KILN (R357). Its first access, the point of no return, follows its acceptance. -/
def execMemKiln (ref : CmdRef) (banks : BitVec 64) (alg : BitVec 8) (preserve : Bool) (bg : BitVec 8) (repair : Bool)
    (s : State) : Host.Outcome State Fault Refusal :=
  .next <| s.command ref 0x0301 fun s =>
    let l := maskBits 64 banks.toNat
    if l.isEmpty || decide (2 ≤ alg.toNat) || decide (3 ≤ bg.toNat) then s.complete ref stRange
    else if l.any s.kilnRefuses then s.complete ref stRefused
    else if s.rdb F.MEM_KILN_STAT.BUSY then s.complete ref stBusy
    else
      let s := (s.setMem { s.mem with kiln := some ⟨some ref, banks, alg.toNat, preserve, bg.toNat, repair⟩ }).pastPoint ref
      (s.each l fun s b => s.wr F.MEM_BANK_STAT.STATE 4 b).wr F.MEM_KILN_STAT.BUSY 1

/-- What the kiln found in a bank: failing words and failing spares. -/
structure KilnFind where
  words : List Nat
  spares : List Nat

/-- A failing spare in use is retired. -/
def State.retire (s : State) (b i : Nat) : State := (s.wr F.MEM_REMAP.VALID 0 b i).wr F.MEM_REMAP.RETIRED 1 b i

/-- Repair of a bank (R355): failing free spares are retired; then every failing word not yet remapped and every word on a
failing spare gets a free spare in ascending word order, or none does. True if the bank is whole. -/
def State.kilnRepair (s : State) (b : Nat) (x : KilnFind) : Bool × State :=
  let used (i : Nat) : Bool := s.rdb F.MEM_REMAP.VALID b i
  let bad := x.spares.filter used
  let s := s.each (x.spares.filter fun i => !used i) fun s i => s.retire b i
  let moved := (bad.filter fun i => s.spareOf b (s.rd F.MEM_REMAP.WORD b i) == some i).map fun i => s.rd F.MEM_REMAP.WORD b i
  let cands := (x.words.filter fun w => (s.spareOf b w).isNone) ++ moved
  let need := (cands.foldl (fun m w => Sparse.insert m w ()) ([] : List (Nat × Unit))).map (·.1)
  let free := (List.range 16).filter fun i => !s.rdb F.MEM_REMAP.VALID b i && !s.rdb F.MEM_REMAP.RETIRED b i
  if free.length < need.length then (false, s.showRemaps b)
  else
    let s := s.each bad fun s i => s.retire b i
    let s := s.each (need.zip free) fun s e => (s.wr F.MEM_REMAP.VALID 1 b e.2).wr F.MEM_REMAP.WORD e.1 b e.2
    (true, s.showRemaps b)

/-- A bank is marked FAILED, and KILN_FAIL is raised (R356). -/
def State.kilnFail (s : State) (b fails : Nat) : State :=
  let s := s.event 0x0306 sevError (sourceId 0x0306 0 b)
    (memPayload 0 4 b (s.rd F.MEM_BANK_STAT.OWNER b) 0 (min fails 255))
  ((s.wr F.MEM_BANK_STAT.STATE 5 b).wr F.MEM_BANK_STAT.OWNER 0 b).setMem
    { s.mem with failed := s.mem.failed ||| (1#64 <<< b) }

/-- The end of a kiln run in one bank. -/
def State.kilnBank (s : State) (k : KilnRun) (b : Nat) (x : KilnFind) : State :=
  let fails := x.words.length + x.spares.length
  let s := if k.preserve then s.setTrk b [] else s.bankClear b
  let s := (s.wr F.MEM_KILN_RES.FAILS (min fails 255) b).wr F.MEM_BANK_STAT.STATE 0 b
  if fails = 0 then s.wr F.MEM_KILN_RES.RESULT 1 b
  else if !k.repair then s.wr F.MEM_KILN_RES.RESULT 3 b
  else
    let r := s.kilnRepair b x
    if r.1 then r.2.wr F.MEM_KILN_RES.RESULT 2 b else (r.2.wr F.MEM_KILN_RES.RESULT 3 b).kilnFail b fails

/-- KILN_COMPLETE (R355, R356). `found`: the failing words and failing spares of each bank that has any. -/
def execKilnComplete (found : List (BitVec 6 × List (BitVec 18) × BitVec 16)) (s : State) :
    Host.Outcome State Fault Refusal :=
  let of_ (b : Nat) : KilnFind :=
    match found.find? fun e => e.1.toNat == b with
    | some e => ⟨(e.2.1.map (·.toNat)).eraseDups, maskBits 16 e.2.2.toNat⟩
    | none => ⟨[], []⟩
  .next <| s.live fun s =>
    match s.mem.kiln with
    | none => s
    | some k =>
      let s := s.setMem { s.mem with kiln := none }
      let s := s.each (maskBits 64 k.banks.toNat) fun s b => s.kilnBank k b (of_ b)
      (s.wr F.MEM_KILN_STAT.BUSY 0).completeOpt k.ref stDone

end Sys2Proof.Machine
end

