-- ==== Sys2Proof/Machine/Crypto.lean ====
section
/-! DEFINITION. The hash, cipher and signature standards that the spec names (R185, R197, R462, R466): SHA-384 (FIPS 180-4),
HMAC (FIPS 198-1), AES-256 (FIPS 197) in Galois/Counter Mode (SP 800-38D), ECDSA (FIPS 186-5) on brainpoolP384r1 (RFC 5639).
PRESUMED: their content is general knowledge (notes/assumptions/72.md). -/

namespace Sys2Proof.Machine

/-- The bytes of a number, most significant first. -/
def beBytes (n v : Nat) : List Byte := (leBytes n v).reverse

/-- The number that bytes spell, most significant first. -/
def beNat (l : List Byte) : Nat := leNat l.reverse

/-! ### SHA-384 -/

/-- The largest number of up to `n` bits whose `k`-th power is at most `m`. -/
def rootBelow (k m : Nat) : Nat → Nat
  | 0 => 0
  | n + 1 =>
    let r := 2 * rootBelow k (m / 2 ^ k) n
    if (r + 1) ^ k ≤ m then r + 1 else r

/-- The first 80 primes. -/
def shaPrimes : List Nat :=
  (List.range 410).filter fun n => decide (2 ≤ n) && (List.range 21).all fun d => decide (d < 2) || decide (n ≤ d) || n % d != 0

/-- The first 64 bits of the fractional part of the `k`-th root of a prime. -/
def shaRoot (k p : Nat) : Word64 := BitVec.ofNat 64 (rootBelow k (p * 2 ^ (64 * k)) 69)

/-- The round constants. -/
def shaRounds : List Word64 := shaPrimes.map (shaRoot 3)

/-- The eight working variables. -/
structure ShaVars where
  a : Word64
  b : Word64
  c : Word64
  d : Word64
  e : Word64
  f : Word64
  g : Word64
  h : Word64
  deriving DecidableEq, Repr

/-- Three rotations to the right, added without carry. -/
def rot3 (x : Word64) (i j k : Nat) : Word64 := x.rotateRight i ^^^ x.rotateRight j ^^^ x.rotateRight k

/-- One round; `kw`: its constant plus its word of the schedule. -/
def ShaVars.round (v : ShaVars) (kw : Word64) : ShaVars :=
  let pick := (v.e &&& v.f) ^^^ (~~~v.e &&& v.g)
  let most := (v.a &&& v.b) ^^^ (v.a &&& v.c) ^^^ (v.b &&& v.c)
  let t := v.h + rot3 v.e 14 18 41 + pick + kw
  ⟨t + rot3 v.a 28 34 39 + most, v.a, v.b, v.c, v.d + t, v.e, v.f, v.g⟩

/-- The sum of two sets of variables. -/
def ShaVars.sum (v w : ShaVars) : ShaVars :=
  ⟨v.a + w.a, v.b + w.b, v.c + w.c, v.d + w.d, v.e + w.e, v.f + w.f, v.g + w.g, v.h + w.h⟩

/-- `n` further words of the schedule, newest first. -/
def shaWords : Nat → List Word64 → List Word64
  | 0, w => w
  | n + 1, w =>
    let x := w.getD 1 0
    let y := w.getD 14 0
    let small := x.rotateRight 19 ^^^ x.rotateRight 61 ^^^ (x >>> 6)
    let large := y.rotateRight 1 ^^^ y.rotateRight 8 ^^^ (y >>> 7)
    shaWords n ((small + w.getD 6 0 + large + w.getD 15 0) :: w)

/-- One block of 128 bytes. -/
def ShaVars.block (v : ShaVars) (b : List Byte) : ShaVars :=
  let first := (List.range 16).map fun k => BitVec.ofNat 64 (beNat (slice b (8 * k) 8))
  let words := (shaWords 64 first.reverse).reverse
  v.sum ((List.zipWith (· + ·) shaRounds words).foldl ShaVars.round v)

/-- The variables before the first block: from the square roots of the ninth to the sixteenth prime. -/
def shaStart : ShaVars :=
  let r (k : Nat) : Word64 := shaRoot 2 (shaPrimes.getD (8 + k) 0)
  ⟨r 0, r 1, r 2, r 3, r 4, r 5, r 6, r 7⟩

/-- A message with its padding. -/
def shaPad (l : List Byte) : List Byte :=
  l ++ [0x80] ++ List.replicate ((239 - l.length % 128) % 128) 0 ++ beBytes 16 (8 * l.length)

/-- SHA-384: 48 bytes. -/
def sha384 (l : List Byte) : List Byte :=
  let p := shaPad l
  let v := (List.range (p.length / 128)).foldl (fun v k => ShaVars.block v (slice p (128 * k) 128)) shaStart
  [v.a, v.b, v.c, v.d, v.e, v.f].flatMap fun w => beBytes 8 w.toNat

/-- HMAC-SHA-384 under a key of at most 128 bytes. -/
def hmac384 (key m : List Byte) : List Byte :=
  let pad (c : Byte) : List Byte := (padTo 128 key).map (c ^^^ ·)
  sha384 (pad 0x5C ++ sha384 (pad 0x36 ++ m))

/-! ### AES-256 -/

/-- A byte times x in the field of AES. -/
def aesDouble (a : Byte) : Byte := if a.getLsbD 7 then (a <<< 1) ^^^ 0x1B else a <<< 1

/-- The product in the field of AES, by `n` bits of the second factor. -/
def aesTimes : Nat → Byte → Byte → Byte
  | 0, _, _ => 0
  | n + 1, a, b => (if b.getLsbD 0 then a else 0) ^^^ aesTimes n (aesDouble a) (b >>> 1)

/-- The substitution of a byte: its inverse (0 for 0), then the affine map. -/
def aesSub (a : Byte) : Byte :=
  let sq (x : Byte) : Byte := aesTimes 8 x x
  let a2 := sq a
  let a3 := aesTimes 8 a2 a
  let a12 := sq (sq a3)
  let a15 := aesTimes 8 a12 a3
  let a240 := sq (sq (sq (sq a15)))
  let i := aesTimes 8 a240 (aesTimes 8 a12 a2)
  i ^^^ i.rotateLeft 1 ^^^ i.rotateLeft 2 ^^^ i.rotateLeft 3 ^^^ i.rotateLeft 4 ^^^ 0x63

/-- Two byte lists, added without carry. -/
def xorBytes (l m : List Byte) : List Byte := List.zipWith (· ^^^ ·) l m

/-- `n` further words of the key schedule, newest first; `i`: the next word's index, `r`: the next round constant. -/
def aesWords : Nat → Nat → Byte → List (List Byte) → List (List Byte)
  | 0, _, _, w => w
  | n + 1, i, r, w =>
    let p := w.getD 0 []
    let t := if i % 8 = 0 then xorBytes ((p.drop 1 ++ p.take 1).map aesSub) [r, 0, 0, 0]
      else if i % 8 = 4 then p.map aesSub
      else p
    aesWords n (i + 1) (if i % 8 = 0 then aesDouble r else r) (xorBytes (w.getD 7 []) t :: w)

/-- The fifteen round keys of 16 bytes. -/
def aesKeys (key : List Byte) : List (List Byte) :=
  let w := (aesWords 52 8 1 ((List.range 8).map fun k => slice key (4 * k) 4).reverse).reverse
  (List.range 15).map fun k => ((w.drop (4 * k)).take 4).flatten

/-- Rows shifted: byte 4c + r comes from column c + r. -/
def aesShift (l : List Byte) : List Byte := (List.range 16).map fun i => l.getD ((i + 4 * (i % 4)) % 16) 0

/-- Columns mixed. -/
def aesMix (l : List Byte) : List Byte :=
  (List.range 16).map fun i =>
    let b (k : Nat) : Byte := l.getD (i / 4 * 4 + (i + k) % 4) 0
    aesDouble (b 0) ^^^ aesDouble (b 1) ^^^ b 1 ^^^ b 2 ^^^ b 3

/-- AES-256 of a block of 16 bytes under a key of 32 bytes. -/
def aes256 (key block : List Byte) : List Byte :=
  let k := aesKeys key
  let first := xorBytes (padTo 16 block) (k.getD 0 [])
  let mid := (List.range 13).foldl (fun l i => xorBytes (aesMix (aesShift (l.map aesSub))) (k.getD (i + 1) [])) first
  xorBytes (aesShift (mid.map aesSub)) (k.getD 14 [])

/-! ### Galois/Counter Mode, with an IV of 96 bits -/

/-- Byte `i` of the key stream. -/
def gcmByte (key iv : List Byte) (i : Nat) : Byte := (aes256 key (padTo 12 iv ++ beBytes 4 (i / 16 + 2))).getD (i % 16) 0

/-- The product in the field of GHASH, by `n` bits of the first factor, whose leading bit is of the lowest power. -/
def ghashTimes : Nat → BitVec 128 → BitVec 128 → BitVec 128
  | 0, _, _ => 0
  | n + 1, x, v =>
    (if x.getMsbD 0 then v else 0)
      ^^^ ghashTimes n (x <<< 1) (if v.getLsbD 0 then (v >>> 1) ^^^ BitVec.ofNat 128 (0xE1 * 2 ^ 120) else v >>> 1)

/-- GHASH of whole blocks under a hash key. -/
def ghash (h : BitVec 128) (l : List Byte) : BitVec 128 :=
  (List.range (l.length / 16)).foldl (fun y k => ghashTimes 128 (y ^^^ BitVec.ofNat 128 (beNat (slice l (16 * k) 16))) h) 0

/-- Bytes filled up to whole blocks. -/
def toBlocks (l : List Byte) : List Byte := padTo (16 * ceilDiv l.length 16) l

/-- The tag of a ciphertext with its additional authenticated data. -/
def gcmTag (key iv aad ct : List Byte) : List Byte :=
  let h := BitVec.ofNat 128 (beNat (aes256 key (List.replicate 16 0)))
  let y := ghash h (toBlocks aad ++ toBlocks ct ++ beBytes 8 (8 * aad.length) ++ beBytes 8 (8 * ct.length))
  xorBytes (beBytes 16 y.toNat) (aes256 key (padTo 12 iv ++ [0, 0, 0, 1]))

/-! ### brainpoolP384r1 -/

/-- The field's prime, the curve's coefficients, and the order of its group. -/
def bpPrime : Nat := 0x8CB91E82A3386D280F5D6F7E50E641DF152F7109ED5456B412B1DA197FB71123ACD3A729901D1A71874700133107EC53
def bpA : Nat := 0x7BC382C63D8C150C3C72080ACE05AFA0C2BEA28E4FB22787139165EFBA91F90F8AA5814A503AD4EB04A8C7DD22CE2826
def bpB : Nat := 0x04A8C7DD22CE28268B39B55416F0447C2FB77DE107DCD2A62E880EA53EEB62D57CB4390295DBC9943AB78696FA504C11
def bpOrder : Nat := 0x8CB91E82A3386D280F5D6F7E50E641DF152F7109ED5456B31F166E6CAC0425A7CF3AB6AF6B7FC3103B883202E9046565

/-- The base point. -/
def bpBase : Nat × Nat :=
  (0x1D1C64F068CF45FFA2A63A81B7C13F6B8847A3E77EF14FE3DB7FCAFE0CBD10E8E826E03436D646AAEF87B2E247D4AF1E,
    0x8ABE1D7520F9C2A45CB1EB8E95CFD55262B70B29FEEC5864E19C054FF99129280E4646217791811142820341263C5315)

/-- b to the power e modulo m, by `n` bits of the exponent. -/
def powMod (m : Nat) : Nat → Nat → Nat → Nat
  | 0, _, _ => 1
  | n + 1, b, e => powMod m n (b * b % m) (e / 2) * (if e % 2 = 1 then b else 1) % m

/-- The inverse modulo a prime of 384 bits. -/
def invMod (m a : Nat) : Nat := powMod m 384 (a % m) (m - 2)

/-- A point lies on the curve. -/
def bpOn (q : Nat × Nat) : Bool := q.2 * q.2 % bpPrime == (q.1 * q.1 * q.1 + bpA * q.1 + bpB) % bpPrime

/-- The sum of two points; `none` is the neutral one. -/
def bpAdd : Option (Nat × Nat) → Option (Nat × Nat) → Option (Nat × Nat)
  | none, q => q
  | p, none => p
  | some p, some q =>
    let p' := bpPrime
    if p.1 = q.1 ∧ (p.2 + q.2) % p' = 0 then none
    else
      let l := (if p = q then (3 * p.1 * p.1 + bpA) * invMod p' (2 * p.2)
        else (q.2 + p' - p.2) * invMod p' (q.1 + p' - p.1)) % p'
      let x := (l * l + 2 * p' - p.1 - q.1) % p'
      some (x, (l * (p.1 + p' - x) + p' - p.2) % p')

/-- A multiple of a point, by `n` bits of the factor. -/
def bpTimes : Nat → Nat → Option (Nat × Nat) → Option (Nat × Nat)
  | 0, _, _ => none
  | n + 1, k, q => bpAdd (if k % 2 = 1 then q else none) (bpTimes n (k / 2) (bpAdd q q))

/-- The point that an uncompressed encoding of 97 bytes gives: 0x04, X, Y, each most significant byte first. -/
def bpDecode (l : List Byte) : Option (Nat × Nat) :=
  let q := (beNat (slice l 1 48), beNat (slice l 49 48))
  if fieldAt l 0 1 = 4 ∧ q.1 < bpPrime ∧ q.2 < bpPrime ∧ bpOn q = true then some q else none

/-- The public key is a point on the curve (R462). -/
def onCurve (pub : List Byte) : Bool := (bpDecode pub).isSome

/-- ECDSA verification of (r, s) over a digest of 48 bytes (R462). -/
def ecdsaVerify (pub digest : List Byte) (r s : Nat) : Bool :=
  let n := bpOrder
  let w := invMod n s
  let u := bpTimes 384 (beNat digest * w % n) (some bpBase)
  decide (1 ≤ r ∧ r < n ∧ 1 ≤ s ∧ s < n) &&
    match bpDecode pub, bpAdd u (bpTimes 384 (r * w % n) (bpDecode pub)) with
    | some _, some v => v.1 % n == r
    | _, _ => false

/-! ### The device's identity (R466) -/

/-- The identity private key. -/
def identityKey : Nat :=
  beNat (hmac384 (padTo 48 Config.idSeed) [0x01] ++ hmac384 (padTo 48 Config.idSeed) [0x02]) % (bpOrder - 1) + 1

/-- The encoding of the identity public key Q. -/
def identityPub : List Byte :=
  match bpTimes 384 identityKey (some bpBase) with
  | some q => 0x04 :: beBytes 48 q.1 ++ beBytes 48 q.2
  | none => []

/-- SIG_R and SIG_S over a digest with the identity key; `draw`: what the random bit generator gives (R466, R469). -/
def identitySign (digest : List Byte) (draw : Nat) : List Byte :=
  let n := bpOrder
  let k := draw % (n - 1) + 1
  let r := match bpTimes 384 k (some bpBase) with
    | some q => q.1 % n
    | none => 0
  leBytes 48 r ++ leBytes 48 (invMod n k * (beNat digest + r * identityKey) % n)

end Sys2Proof.Machine
end

