-- ==== Sys2Proof/Machine/Auth.lean ====
section
/-! DEFINITION. Hashes and signature blocks (R462, Tables GRI-6 and SEC-4). -/

namespace Sys2Proof.Machine

/-- The digest that every hash of chapter 19 is. -/
def hash (l : List Byte) : List Byte := sha384 l

/-- The hash that a key selector names, if it is programmed and not revoked (R462). -/
def State.keyHash (s : State) (sel : Nat) : Option (List Byte) :=
  if sel = 0 then (if s.rdb F.SEC_FUSE_STAT.VPK_PROG then some (padTo 48 Config.vpkHash) else none)
  else if bit (s.rd F.SEC_FUSE_STAT.CKH_REVOKE) (sel - 1) then none
  else Sparse.find s.sec.ckh (sel - 1)

/-- A signature block verifies over a digest (R462): `magic` and `sels` are those of its artifact. -/
def State.sigOk (s : State) (magic : Nat) (sels : List Nat) (digest block : List Byte) : Bool :=
  let sel := fieldAt block 4 1
  let pub := slice block 16 97
  fieldAt block 0 4 == magic && sels.contains sel &&
    (match s.keyHash sel with
     | some h => decide (hash pub = h)
     | none => false) &&
    onCurve pub && ecdsaVerify pub digest (fieldAt block 128 48) (fieldAt block 176 48)

/-- A verification failure: SEC_AUTH_FAIL, with the artifact's number and the block's KEY_SEL (R462, R483). -/
def State.authFail (s : State) (artifact : Nat) (block : List Byte) : State :=
  (s.sat F.SEC_AUTH_FAILS.COUNT).event 0x0C01 sevWarn (sourceId 0x0C01 0 artifact) (payload [(16, 1, fieldAt block 4 1)])

end Sys2Proof.Machine
end

