-- ==== Sys2Proof/Machine/ElaConfig.lean ====
section
/-! DEFINITION. Configuration of the Edge Logic Array (R181 to R200): streams, loads, the self-configuration port, keys,
flash, scrubbing. -/

namespace Sys2Proof.Machine

open Sys2Proof.Config

/-! ### The flash (R193, R461) -/

/-- The bytes of the configuration flash from an offset; an unlisted byte is erased. -/
def State.flashRead (s : State) (ofs n : Nat) : List Byte :=
  (List.range n).map fun k => Sparse.get (fun _ => (0xFF : Byte)) s.sec.flash (ofs + k)

/-- A flash byte is set. -/
def State.flashByte (s : State) (ofs : Nat) (b : Byte) : State :=
  (s.setSec { s.sec with flash := Sparse.set (fun _ => (0xFF : Byte)) s.sec.flash ofs b })

/-- Bytes are programmed into the flash. What programming a byte that is not erased leaves is a free value. -/
def State.flashProgram (s : State) (ofs : Nat) (l : List Byte) : State :=
  ((List.range l.length).foldl (fun s k =>
    s.flashByte (ofs + k) (if s.flashRead (ofs + k) 1 = [0xFF] then l.getD k 0
      else BitVec.ofNat 8 (freeNat (s.free + k)))) s).burn

/-- The 64 KiB blocks that a range touches are erased (Table CFG-6). -/
def State.flashErase (s : State) (ofs n : Nat) : State :=
  (s.setSec { s.sec with
    flash := Sparse.keep (fun k => decide (k / 2 ^ 16 < ofs / 2 ^ 16) || decide ((ofs + n - 1) / 2 ^ 16 < k / 2 ^ 16)) s.sec.flash })

/-- A range touches the firmware region or the certificate block (R461). -/
def flashProtected (ofs n : Nat) : Bool :=
  decide (ofs < 0x00400000) || (decide (ofs < 0x00420000) && decide (0x00410000 < ofs + n))

/-- The flash operation in progress, if any, replaced. -/
def State.setFlashOp (s : State) (o : Option FlashOp) : State := (s.setSec { s.sec with flashOp := o })

/-- A partition is enabled and owned by host DMA (R343). -/
def State.hostPart (s : State) (p : Nat) : Bool := s.rdb F.MEM_PART_CFG.EN p && bit (s.rd F.MEM_PART_OWN.MASK p) 22

/-- CFG_FLASH (R194, R461): the operation runs until FLASH_OPERATION_COMPLETE. What PROGRAM writes is read at acceptance. -/
def execCfgFlash (ref : CmdRef) (op dev part : BitVec 8) (ofs : BitVec 32) (addr : BitVec 64) (len : BitVec 32) (s : State) :
    Host.Outcome State Fault Refusal :=
  .next <| s.command ref 0x0504 fun s =>
    let o := ofs.toNat
    let n := len.toNat
    let p := s.cmdPort ref
    if 2 < op.toNat ∨ 1 < dev.toNat ∨ (op.toNat ≠ 2 ∧ dev = 1 ∧ (15 < part.toNat ∨ !s.inPart part.toNat addr.toNat n))
        ∨ (op = 2 ∧ o % 2 ^ 16 ≠ 0) ∨ (op = 1 ∧ o % 256 ≠ 0) then s.complete ref stRange
    else if op ≠ 0 ∧ flashProtected o n then s.complete ref stRefused
    else if s.sec.flashOp.isSome || (match s.ela.load with | some l => l.src == 3 | none => false) then s.complete ref stBusy
    else if op = 1 ∧ dev = 0 ∧ !s.portUp p then s.complete ref stIncomplete
    else
      let r := if op = 1 ∧ dev = 1 then s.memRead (reqHost p) (s.partAddr part.toNat addr.toNat) n else ⟨[], false, s⟩
      let data := if op = 1 then (if dev = 1 then plain r.bytes else s.hostRead p addr.toNat n) else []
      r.s.setFlashOp (some ⟨some ref, op.toNat, o, n, data, 0, dev = 1, part.toNat, addr.toNat⟩)

/-- The end of a CFG_FLASH operation (R194). -/
def State.cfgFlashEnd (s : State) (o : FlashOp) : State :=
  let p := match o.ref with
    | some r => s.cmdPort r
    | none => 0
  let s := match o.kind with
    | 0 =>
      if o.dev then s.put (reqHost p) (s.partAddr o.part o.addr) (s.flashRead o.ofs o.len)
      else s.hostWrite p o.addr (s.flashRead o.ofs o.len)
    | 1 => s.flashProgram o.ofs o.data
    | _ => if o.len = 0 then s else s.flashErase o.ofs o.len
  (s.setFlashOp none).completeOpt o.ref (if o.kind == 0 && !o.dev && !s.portUp p then stIncomplete else stDone)

/-! ### Keys (R197, R198) -/

/-- The key check value: the first 4 bytes of AES-256 of a zero block. -/
def kcv (key : List Byte) : Nat := fieldAt (aes256 key (List.replicate 16 0)) 0 4

/-- A key is written into slot 1 (R197). -/
def State.setKey1 (s : State) (key : List Byte) : State :=
  ((s.setEla { s.ela with key1 := key }).wr F.CFG_KEY_STATUS.KEY1_VALID 1).wr F.CFG_KEY1_KCV.KCV (kcv key)

/-- The slot-0 key has been blown (R197). -/
def State.setKey0 (s : State) (key : List Byte) : State :=
  (((s.setEla { s.ela with key0 := key }).wr F.CFG_KEY_STATUS.KEY0_VALID 1).wr F.CFG_FUSE.KEY0_PROG 1).wr
    F.CFG_KEY0_KCV.KCV (kcv key)

/-- The number under which a fuse operation names the slot-0 key. -/
abbrev fuseKey0 : Nat := 0x100

/-- CFG_KEY (R197, R456). The slot-0 key is blown until FUSE_PROGRAMMING_COMPLETE. -/
def execCfgKey (ref : CmdRef) (slot : BitVec 8) (key : BitVec 256) (s : State) : Host.Outcome State Fault Refusal :=
  let k := leBytes 32 key.toNat
  .next <| s.command ref 0x0505 fun s =>
    if 1 < slot.toNat then s.complete ref stRange
    else if slot = 0 then
      if !s.rdb F.SEC_CTRL.FUSE_EN || s.rdb F.CFG_FUSE.KEY0_PROG then s.complete ref stRefused
      else if s.sec.fuseOp.isSome then s.complete ref stBusy
      else (s.setSec { s.sec with fuseOp := some ⟨ref, fuseKey0, k⟩ }).pastPoint ref
    else if s.rdb F.CFG_FUSE.KEY1_DIS then s.complete ref stRefused
    else (s.setKey1 k).complete ref stDone (kcv k)

/-! ### Streams (R183 to R185) -/

/-- LEN of the stream that a header begins (R183). -/
def streamLen (h : List Byte) : Nat := 144 + fieldAt h 0x20 4 + (if bit (fieldAt h 0x0E 1) 0 then 256 else 0)

/-- The stream's payload is encrypted. -/
def streamEnc (h : List Byte) : Bool := fieldAt h 0x0D 1 != 0xFF

/-- `n` payload bytes of the stream in clear text from payload offset `o` (R185). -/
def CfgLoad.plain (l : CfgLoad) (o n : Nat) : List Byte :=
  let iv := slice l.raw 0x10 12
  (List.range n).map fun k =>
    let b := l.raw.getD (128 + o + k) 0
    if streamEnc l.raw then b ^^^ gcmByte l.key iv (o + k) else b

/-- Bytes of the global section before the frame records of a stream. -/
def CfgLoad.glob (l : CfgLoad) : Nat := if l.scope = 16 then 1024 else 0

/-- Fields of the header that the records follow. -/
def CfgLoad.frameRecs (l : CfgLoad) : Nat := fieldAt l.raw 0x24 2
def CfgLoad.mapRecs (l : CfgLoad) : Nat := fieldAt l.raw 0x28 2
def CfgLoad.payLen (l : CfgLoad) : Nat := fieldAt l.raw 0x20 4

/-- Payload bytes taken so far. -/
def CfgLoad.taken (l : CfgLoad) : Nat := l.raw.length - 128

/-- What fetching stream bytes finds: the bytes, poison among them, and an ended source. -/
structure Fetched where
  bytes : List Byte
  poison : Bool
  ended : Bool
  s : State

/-- The next `n` bytes of a stream from its source (R192); the SCP's words have been taken already. -/
def State.cfgFetch (s : State) (l : CfgLoad) (n : Nat) : Fetched :=
  let at_ := l.addr + l.raw.length
  match l.src with
  | 1 =>
    let bad := s.portUp l.port && s.hostBad l.port at_ n
    ⟨s.hostRead l.port at_ n, bad, !s.portUp l.port, s.onlyIf bad fun s => s.poisonConsumed (reqHost l.port) 0 7⟩
  | 2 =>
    let a := s.partAddr l.part at_
    let r := s.memRead (reqHost l.port) a n
    ⟨plain r.bytes, poisoned r.bytes, false, r.s.onlyIf (poisoned r.bytes) fun s => s.poisonConsumed (reqHost l.port) a 7⟩
  | _ => ⟨s.flashRead at_ n, false, false, s⟩

/-- The next `n` bytes of a stream stand in memory that holds the read (R345, R348). -/
def State.cfgWaits (s : State) (l : CfgLoad) (n : Nat) : Bool :=
  l.src == 2 && s.memWaits (reqHost l.port) (s.partAddr l.part (l.addr + l.raw.length)) n

/-- The load in progress replaced. -/
def State.setLoad (s : State) (l : Option CfgLoad) : State := (s.setEla { s.ela with load := l })

/-! ### Ends of a load (R186, R190, Table CFG-5) -/

/-- The completion status of a load error (Table CFG-5); what R163 and R166 say of their own checks stands beside it
(notes/assumptions/136.md). -/
def cfgStatus (code : Nat) : Nat :=
  if code ≤ 0x03 then stCheckFailed
  else if code = 0x04 then stRange
  else if code = 0x05 ∨ code = 0x06 ∨ code = 0x13 ∨ code = 0x14 ∨ code = 0x16 then stAuthFailed
  else stIncomplete

/-- An event of Table CFG-11 with the payload of Table CFG-12. -/
def State.cfgEvent (s : State) (code sev unit far bitNo info src frames : Nat) : State :=
  s.event code sev (sourceId code 0 unit)
    (payload [(16, 2, far), (18, 1, far / 24), (19, 1, far % 24), (20, 2, bitNo), (22, 1, info), (23, 1, src), (24, 2, frames)])

/-- A load ends with an error: before its point of no return nothing changes; after it the scope is INCOMPLETE and held,
and CFG_LOAD_FAILED is raised. `far`: the record that failed. -/
def State.cfgFail (s : State) (l : CfgLoad) (code : Nat) (far : Option Nat := none) (status : Nat := cfgStatus code) : State :=
  let s := (s.setLoad none).wr F.CFG_STATUS.ERR_CODE code
  let s := match far with
    | some f => s.wr F.CFG_LOAD_ERR_FAR.FAR f
    | none => s
  let s := s.wr F.CFG_STATUS.BUSY 0
  let s := s.onlyIf l.past fun s =>
    ((s.setScope l.scope scIncomplete).cfgEvent 0x0511 sevError (scopeUnit l.scope) (far.getD 0) 0 code l.src l.frames).elaAgain
  s.completeOpt l.ref status

/-- The measurement of a scope (R468). -/
def State.setMeas (s : State) (n : Nat) (m : List Byte) : State :=
  if n = 16 then (s.setSec { s.sec with elaMeas := m })
  else (s.setSec { s.sec with rgnMeas := Sparse.set (fun _ => []) s.sec.rgnMeas n m })

/-- A load ends with its scope CONFIGURED (R186, R191), and with AUTO its release begins (R175). -/
def State.cfgDone (s : State) (l : CfgLoad) : State :=
  let s := (s.setLoad none).wr F.CFG_STATUS.BUSY 0
  let s := (s.setScope l.scope scConfigured).setMeas l.scope (hash l.raw)
  let s := s.onlyIf (l.scope == 16) fun s => (s.setEla { s.ela with val := { s.ela.val with lines := 0 } })
  let s := s.elaFresh.cfgEvent 0x0510 sevInfo (scopeUnit l.scope) 0 0 0 l.src l.frames
  let s := s.completeOpt l.ref stDone l.frames
  s.onlyIf (s.rdb F.ELA_REL_CTRL.AUTO) fun s => s.beginRelease l.scope none

/-! ### The header phase -/

/-- ELA_LOAD (R192, R437). -/
def execElaLoad (ref : CmdRef) (src part : BitVec 8) (addr : BitVec 64) (len : BitVec 32) (s : State) :
    Host.Outcome State Fault Refusal :=
  .next <| s.command ref 0x0501 fun s =>
    if 2 < src.toNat ∨ (src = 1 ∧ 15 < part.toNat) then s.complete ref stRange
    else if s.standbyLocked then s.complete ref stRefused
    else if s.ela.load.isSome then s.complete ref stBusy
    else if src = 1 ∧ !s.hostPart part.toNat then s.complete ref stRefused
    else if src = 1 ∧ !s.inPart part.toNat addr.toNat len.toNat then s.complete ref stRange
    else s.setLoad (some { ref := some ref, src := src.toNat + 1, port := s.cmdPort ref, part := part.toNat,
                           addr := addr.toNat, length := len.toNat })

/-- Blocks of partial region n. -/
def State.regionBlocks (s : State) (n : Nat) : Nat :=
  (List.range 8).foldl (fun c w => c + popcount 32 (s.rd F.CFG_RGN_BLK.BLOCKS n w)) 0

/-- The key of the slot that a header names, if the slot may be used (Table CFG-5, 0x05; plaintext needs none). -/
def State.slotKey (s : State) (slot : Nat) : Option (List Byte) :=
  match slot with
  | 0 => if s.rdb F.CFG_KEY_STATUS.KEY0_VALID then some s.ela.key0 else none
  | 1 => if s.rdb F.CFG_KEY_STATUS.KEY1_VALID && !s.rdb F.CFG_FUSE.KEY1_DIS then some s.ela.key1 else none
  | 0xFF => if s.rdb F.CFG_FUSE.ENC_ONLY then none else some []
  | _ => none

/-- The record counts and lengths of a header agree (R183, R184), and with LENGTH for a command or boot load (R192). -/
def State.lengthsOk (s : State) (l : CfgLoad) (h : List Byte) : Bool :=
  let full := fieldAt h 0x0C 1 == 0xFF
  let pay := fieldAt h 0x20 4
  let fr := fieldAt h 0x24 2
  let mr := fieldAt h 0x28 2
  let least := (if full then 1024 else 0) + 264 * fr + 8 * mr
  pay % 8 == 0 && (bit (fieldAt h 0x0E 1) 1 || mr == 0)
    && fr == (if full then 6144 else 23 * s.regionBlocks (fieldAt h 0x0C 1))
    && decide (least ≤ pay) && decide (pay ≤ least + 256 * mr) && (l.src == 4 || l.length == streamLen h)

/-- The first error of a header, 0 for none (Table CFG-5, codes 0x01 to 0x06). Reserved bytes and flags are not judged
(notes/assumptions/138.md). -/
def State.headerError (s : State) (l : CfgLoad) (h : List Byte) : Nat :=
  let id := fieldAt h 0x08 4
  let target := fieldAt h 0x0C 1
  let signed := bit (fieldAt h 0x0E 1) 0
  if fieldAt h 0 4 ≠ 0x4E525053 ∨ fieldAt h 4 2 ≠ 1 then 0x01
  else if bits id 27 0 ≠ bits (s.rdReg 0) 27 0 ∨ (bits id 31 28 ≠ 0 ∧ bits id 31 28 ≠ bits (s.rdReg 0) 31 28) then 0x02
  else if (if target = 0xFF then l.src == 4
      else decide (15 < target) || s.scope 16 != scConfigured || s.regionBlocks target == 0) then 0x03
  else if !s.lengthsOk l h then 0x04
  else if (s.slotKey (fieldAt h 0x0D 1)).isNone then 0x05
  else if s.rdb F.SEC_FUSE_STAT.REQ_STREAM && !signed then 0x06
  else 0

/-- The point of no return (R186 step 2, R191, R468): the scope is held and LOADING, its map memory cleared; for a full
stream every region becomes EMPTY and every release sequence is abandoned. -/
def State.cfgBegin (s : State) (l : CfgLoad) : State :=
  let full := l.scope == 16
  let inScope (far : Nat) : Bool := full || (s.inRegion l.scope (far / 24) && decide (far % 24 < 23))
  let s := match l.ref with
    | some r => s.pastPoint r
    | none => s
  let s := s.each (if full then List.range 17 else [l.scope]) State.holdControls
  let s := s.onlyIf full fun s => (s.wr F.CFG_RGN_STATE.STATE 0).each (List.range 16) fun s n => s.setMeas n []
  let s := (s.setScope l.scope scLoading).setMeas l.scope []
  let s := (s.setEla { s.ela with
    map := Sparse.keep (fun k => !inScope (k / 32)) s.ela.map
    allEss := Sparse.keep (fun k => !inScope k) s.ela.allEss })
  let s := ((s.wr F.CFG_STATUS.BUSY 1).wr F.CFG_STATUS.ERR_CODE 0).wr F.CFG_STATUS.SCOPE (if full then 0xFF else l.scope)
  (((s.wr F.CFG_LOAD_FRAMES.COUNT 0).wr F.CFG_LOAD_ERR_FAR.FAR 0).setLoad (some l)).elaAgain

/-- CFG_STREAM_HEADER (R186): the header of the load in progress is taken, checked, and on a pass the scope is held. -/
def State.streamHeader (s : State) : State :=
  match s.ela.load with
  | none => s
  | some l =>
    if l.past || (l.src == 4 && decide (l.raw.length < 128)) || s.cfgWaits l 128 then s else
    let f : Fetched := if l.src = 4 then ⟨l.raw, false, false, s⟩ else s.cfgFetch l 128
    let h := f.bytes
    let s := ((f.s.wr F.CFG_STATUS.SRC l.src).wr F.CFG_LOAD_FRAMES.COUNT 0).wr F.CFG_LOAD_ERR_FAR.FAR 0
    if f.ended then s.cfgFail l 0x12
    else if f.poison then s.cfgFail l 0x17
    else
      let e := s.headerError l h
      if e ≠ 0 then s.cfgFail l e
      else
        let t := fieldAt h 0x0C 1
        s.cfgBegin { l with raw := h, past := true, scope := (if t = 0xFF then 16 else t),
                            key := (s.slotKey (fieldAt h 0x0D 1)).getD [] }

/-- CFG_STREAM_HEADER (R186). -/
def execCfgStreamHeader (s : State) : Host.Outcome State Fault Refusal := .next (s.live State.streamHeader)

/-! ### The payload phase -/

/-- The next `n` bytes of the payload are in hand, or have been fetched; or the load has ended. -/
def State.cfgTake (s : State) (l : CfgLoad) (pos n : Nat) (f : State → CfgLoad → State) : State :=
  if pos + n ≤ l.taken then f s l
  else if l.src = 4 ∨ s.cfgWaits l n then s
  else
    let r := s.cfgFetch l n
    if r.ended then r.s.cfgFail l 0x12
    else if r.poison then r.s.cfgFail l 0x17
    else f r.s { l with raw := l.raw ++ r.bytes }

/-- Payload offset of the first frame record not yet taken. -/
def CfgLoad.framePos (l : CfgLoad) : Nat := l.glob + 264 * l.frames

/-- The global section of a full stream takes effect (Table CFG-3). -/
def State.globalSection (s : State) (g : List Byte) : State :=
  let s := s.each (List.range 128) fun s e => s.wr F.CFG_RGN_BLK.BLOCKS (fieldAt g (4 * e) 4) (e / 8) (e % 8)
  (s.setEla { s.ela with
    scpCtrl := fieldAt g 0x200 4, scpD := (List.range 32).map fun i => bits (fieldAt g (0x204 + 4 * i) 4) 12 0 })

/-- A frame is inside the fence of a scope (R188). -/
def State.inFence (s : State) (scope far : Nat) : Bool :=
  decide (far < 6144) && (scope == 16 || (decide (far % 24 < 23) && s.inRegion scope (far / 24)))

/-- A frame is written: its 32 words, with fresh check bits (R181); without a map every bit of it is essential (R191). -/
def State.writeFrame (s : State) (far : Nat) (v : BitVec 2048) (noMap : Bool) : State :=
  (s.setEla { s.ela with
    frames := Sparse.set (fun _ => 0) s.ela.frames far v
    flips := Sparse.keep (fun k => k / 32 != far) s.ela.flips
    allEss := if noMap then Sparse.insert s.ela.allEss far true else s.ela.allEss })

/-- A frame record in clear text is checked and written (R184, R188). Bytes 4 to 7 or FAR bits [31:13] that are not 0 put a
record outside the fence (notes/assumptions/138.md). -/
def State.frameRecord (s : State) (l : CfgLoad) (r : List Byte) : State :=
  let far := fieldAt r 0 4
  if fieldAt r 4 4 ≠ 0 ∨ !s.inFence l.scope far then s.cfgFail l 0x10 (some (far % 8192))
  else if (match l.far with | some f => decide (far ≤ f) | none => false) then s.cfgFail l 0x11 (some far)
  else
    let s := s.writeFrame far (BitVec.ofNat 2048 (leNat (slice r 8 256))) (!bit (fieldAt l.raw 0x0E 1) 1)
    (s.wr F.CFG_LOAD_FRAMES.COUNT (l.frames + 1)).setLoad (some { l with frames := l.frames + 1, far := some far })

/-- CFG_FRAME_RECORD (R188): the next frame record, the first of a full stream behind its global section. -/
def execCfgFrameRecord (s : State) : Host.Outcome State Fault Refusal :=
  .next <| s.live fun s =>
    match s.ela.load with
    | none => s
    | some l =>
      if !l.past || decide (l.frameRecs ≤ l.frames) then s
      else if l.scope = 16 ∧ l.frames = 0 then
        s.cfgTake l 0 (1024 + 264) fun s l => (s.globalSection (l.plain 0 1024)).frameRecord l (l.plain 1024 264)
      else s.cfgTake l l.framePos 264 fun s l => s.frameRecord l (l.plain l.framePos 264)

/-- The size of a map record, from its head. -/
def mapSize (head : List Byte) : Nat := 8 + 8 * popcount 32 (fieldAt head 4 4)

/-- The payload offset after `n` map records from offset `o`. -/
def CfgLoad.mapPos (l : CfgLoad) : Nat → Nat → Nat
  | 0, o => o
  | n + 1, o => l.mapPos n (o + mapSize (l.plain o 8))

/-- Map masks of a record are written (R184). -/
def State.writeMap (s : State) (far mask : Nat) (body : List Byte) : State :=
  let ws := maskBits 32 mask
  (s.setEla { s.ela with map := (List.range ws.length).foldl (fun m j =>
      Sparse.set (fun _ => (0 : BitVec 64)) m (32 * far + ws.getD j 0) (BitVec.ofNat 64 (fieldAt body (8 * j) 8))) s.ela.map })

/-- CFG_MAP_RECORD (R184): the next map record, after every frame record. A record outside the fence is not written, and
fails the load at its end (R189); bits [31:13] of its head's first word count to its FAR (notes/assumptions/138.md). -/
def execCfgMapRecord (s : State) : Host.Outcome State Fault Refusal :=
  .next <| s.live fun s =>
    match s.ela.load with
    | none => s
    | some l =>
      if !l.past || decide (l.frames < l.frameRecs) || decide (l.mapRecs ≤ l.maps) then s else
      let pos := l.mapPos l.maps l.framePos
      s.cfgTake l pos 8 fun s l =>
        let head := l.plain pos 8
        let far := fieldAt head 0 4
        let n := mapSize head
        if l.payLen < pos + n then s.cfgFail l 0x12 (some (far % 8192)) else
        s.cfgTake l (pos + 8) (n - 8) fun s l =>
          let first := l.maps == 0
          if !first && (match l.far with | some f => decide (far ≤ f) | none => false) then s.cfgFail l 0x11 (some (far % 8192))
          else
            let inside := s.inFence l.scope far
            let s := s.onlyIf inside fun s => s.writeMap far (fieldAt head 4 4) (l.plain (pos + 8) (n - 8))
            s.setLoad (some { l with maps := l.maps + 1, far := some far,
                                     mapBad := if inside || l.mapBad.isSome then l.mapBad else some (far % 8192) })

/-! ### The configuration checker (R163, R166, R189) -/

/-- A macrocell uses its own local term Lj: in its sum, in a control role, or L4 as G in carry mode. -/
def cellUses (c : ElaCell) (t : ElaSteer) (j : Nat) : Bool := useOf c j != .off || (j == 4 && t.carry)

/-- The borrowing limits of R163 hold in a block. -/
def borrowOk (b : ElaBlock) : Bool :=
  let at_ (m : Nat) : ElaCell × ElaSteer := b.cells.getD m default
  (List.range 32).all fun m =>
    let lent := (at_ m).2.borrowed
    decide (lent.length ≤ 15) && decide ((sumTerms (at_ m).1 (at_ m).2 m).length ≤ 20) && lent.all fun t =>
      let o := t / 5
      decide (t < 160) && o != m && decide (o ≤ m + 3) && decide (m ≤ o + 3) && !cellUses (at_ o).1 (at_ o).2 (t % 5)
        && (List.range 32).all fun m' => m' == m || !(at_ m').2.borrowed.contains t

/-- The static condition of an output enable (R166): constant 1, or its block's number with the lines of its term. -/
def staticOe (b : ElaBlock) (k m : Nat) (c : ElaCell) : Option (Option (Nat × BitVec 64 × BitVec 64)) :=
  let pt (t : Nat) := let p := b.pts.getD t (0, 0); some (some (k, p.1, p.2))
  if useOf c 3 = .role then pt (5 * m + 3) else match c.oe with
  | .const true => some none
  | .const false => none
  | .ct n => pt (160 + n % 32)

/-- The long-line rule of R166 holds on a line. -/
def lineOk (conf : List ElaBlock) (line : Nat) : Bool :=
  let l := ((List.range 512).filterMap fun c =>
    let k := line / 8 * 16 + c / 32
    let b := conf.getD k default
    let x := b.cells.getD (c % 32) default
    if x.2.lines.contains (line % 8) then staticOe b k (c % 32) x.1 else none)
  decide (l.eraseDups.length = l.length)

/-- The block that hosts a source of a global net: that of a pin or crossing bit; no other source lies in a block
(notes/assumptions/137.md). -/
def srcBlock : ElaSrc → Option Nat
  | .pin p => some (p / 2)
  | .xbit n => some (n / 4)
  | _ => none

/-- The SCP's source macrocells and its clock's source lie outside every partial region (R189). -/
def State.scpOutside (s : State) (conf : List ElaBlock) : Bool :=
  let out (k : Nat) : Bool := (s.blockRegion k).isNone
  (bits s.ela.scpCtrl 20 8 :: s.ela.scpD).all (fun i => out (i / 32))
    && (srcBlock (conf.getD (bits s.ela.scpCtrl 4 1) default).bound.net).all out

/-- The configuration checker (R189): none if the configuration passes, else the completion status: CHECK_FAILED where R163 or
R166 refuses the stream, INCOMPLETE for its other checks (Table CFG-5, notes/assumptions/136.md). -/
def State.checker (s : State) (l : CfgLoad) : Option Nat :=
  let conf := (List.range 256).map fun k => elaBlock (s.blockFrames k)
  if !(conf.all borrowOk && (List.range 128).all (lineOk conf)) then some stCheckFailed
  else if (bit s.ela.scpCtrl 0 && !s.scpOutside conf) || l.mapBad.isSome then some (cfgStatus 0x15)
  else none

/-! ### The end of a load -/

/-- The tag of a stream is right (R185). -/
def tagOk (raw key : List Byte) (pay : Nat) : Bool :=
  let t := slice raw (128 + pay) 16
  if streamEnc raw then t == padTo 16 (gcmTag key (slice raw 0x10 12) (slice raw 0 128) (slice raw 128 pay))
  else t == slice (hash (slice raw 0 (128 + pay))) 0 16

/-- The whole stream is in hand: tag, signature, checker (R186 step 4). -/
def State.cfgJudge (s : State) (l : CfgLoad) : State :=
  let block := slice l.raw (144 + l.payLen) 256
  if !tagOk l.raw l.key l.payLen then s.cfgFail l 0x13
  else if bit (fieldAt l.raw 0x0E 1) 0 &&
      !s.sigOk 0x47495353 [1, 2, 3, 4] (hash (slice l.raw 0 (128 + l.payLen))) block then (s.authFail 3 block).cfgFail l 0x14
  else match s.checker l with
    | some st => s.cfgFail l 0x15 l.mapBad st
    | none => s.cfgDone l

/-- CFG_LOAD_END (R186): the rest of the stream is taken once every record has been, and the load is judged. -/
def execCfgLoadEnd (s : State) : Host.Outcome State Fault Refusal :=
  .next <| s.live fun s =>
    match s.ela.load with
    | none => s
    | some l =>
      if !l.past || decide (l.frames < l.frameRecs) || decide (l.maps < l.mapRecs) then s
      else s.cfgTake l l.taken (streamLen l.raw - l.raw.length) fun s l =>
        s.onlyIf (l.raw.length == streamLen l.raw) fun s => s.cfgJudge l

/-! ### The self-configuration port (R196) -/

/-- A word while a load runs: fed to an SCP load until its LEN bytes are in, else dropped and counted. -/
def State.scpBusy (s : State) (l : CfgLoad) (w : Nat) : State :=
  if l.src = 4 ∧ (l.raw.length < 128 ∨ l.raw.length < streamLen l.raw) then
    s.setLoad (some { l with raw := l.raw ++ leBytes 4 w, at_ := s.now })
  else
    let news := w == 0x4E525053 || !s.ela.dropped
    let s := (s.setEla { s.ela with dropped := true }).sat F.CFG_SCP_DROP.COUNT
    s.onlyIf news fun s => s.cfgEvent 0x0516 sevWarn 0x0100 0 0 0 0 0

/-- SCP_WORD (R196): the port takes the next word that a rising edge of its clock has presented, if any. -/
def execScpWord (s : State) : Host.Outcome State Fault Refusal :=
  .next <| s.live fun s =>
    match s.ela.scpIn with
    | [] => s
    | w :: l =>
      let s := s.setEla { s.ela with scpIn := l }
      match s.ela.load with
      | some l => s.scpBusy l w
      | none =>
        let s := (s.setEla { s.ela with dropped := false })
        if w = 0x4E525053 then s.setLoad (some { ref := none, src := 4, raw := leBytes 4 w, at_ := s.now }) else s

/-- SCP_IDLE_TIMEOUT (Table CFG-5, 0x12): 1 ms without a word in the middle of a stream. -/
def execScpIdleTimeout (s : State) : Host.Outcome State Fault Refusal :=
  .next <| s.live fun s =>
    match s.ela.load with
    | none => s
    | some l =>
      s.onlyIf (l.src == 4 && (decide (l.raw.length < 128) || decide (l.raw.length < streamLen l.raw))
        && decide (l.at_ + 1000000 ≤ s.now)) fun s => s.cfgFail l 0x12

/-! ### Boot (R195) -/

/-- One step of CRC-32 of IEEE 802.3, reflected. -/
def crc32Bit (c : BitVec 32) : BitVec 32 := if c.getLsbD 0 then (c >>> 1) ^^^ 0xEDB88320#32 else c >>> 1

/-- CRC-32 of IEEE 802.3. -/
def crc32 (l : List Byte) : BitVec 32 :=
  ~~~(l.foldl (fun c b => (List.range 8).foldl (fun c _ => crc32Bit c) (c ^^^ b.setWidth 32)) (0xFFFFFFFF : BitVec 32))

/-- The load that a valid boot record with AUTOLOAD names begins (R195). -/
def State.bootLoad (s : State) : State :=
  let r := s.flashRead 0x00400000 32
  if fieldAt r 0 4 = 0x54425053 ∧ fieldAt r 0x1C 4 = (crc32 (slice r 0 28)).toNat ∧ bit (fieldAt r 4 4) 0 = true
      ∧ s.ela.load = none then
    s.setLoad (some { ref := none, src := 3, addr := fieldAt r 8 4, length := fieldAt r 0x0C 4 })
  else s

/-- KEY_CLEARED events owed since the device was last ON (R198). -/
def State.bootKeyEvents (s : State) : State :=
  let l := s.ela.owed
  (s.setEla { s.ela with owed := [] }).each l fun s k => s.cfgEvent 0x0515 sevWarn 0 0 0 k 0 0

/-! ### Key RAM is lost (R198) -/

/-- Key RAM is cleared, in every power state; `info`: 1 tamper, 2 VBAT. -/
def State.keyLost (s : State) (info : Nat) : State :=
  let s := ((s.setEla { s.ela with key1 := [] }).wr F.CFG_KEY_STATUS.KEY1_VALID 0).wr F.CFG_KEY1_KCV.KCV 0
  let s := if info = 1 then s.wr F.CFG_KEY_STATUS.TAMPER_SEEN 1 else s.wr F.CFG_KEY_STATUS.VBAT_LOST 1
  let s := if s.alive && s.rd F.CLK_STATUS.PSTATE == 0 then s.cfgEvent 0x0515 sevWarn 0 0 0 info 0 0
    else (s.setEla { s.ela with owed := s.ela.owed ++ [info] })
  match s.ela.load with
  | some l => if l.past && fieldAt l.raw 0x0D 1 == 1 then s.cfgFail l 0x16 else s
  | none => s

/-- TAMPER_N_LOW (R198). -/
def execTamperNLow (s : State) : Host.Outcome State Fault Refusal := .next (s.keyLost 1)

/-- VBAT_LOSS (R198). -/
def execVbatLoss (s : State) : Host.Outcome State Fault Refusal := .next (s.keyLost 2)

/-! ### The sparge engine (R199, R200) -/

/-- What a (72,64) word with flipped bits shows (R181): no error, a double error, or a single error at a bit. -/
def elaSyn (flips : BitVec 72) : Option (Option (Fin 72)) :=
  match maskBits 72 flips.toNat with
  | [] => none
  | [i] => some (if h : i < 72 then some ⟨i, h⟩ else none)
  | [_, _] => some none
  | _ => elaSyndrome flips

/-- The flipped bits of a configuration word. -/
def State.flip (s : State) (k : Nat) : BitVec 72 := Sparse.get (fun _ => 0) s.ela.flips k

/-- The machine with the flipped bits of a configuration word set. -/
def State.setFlip (s : State) (k : Nat) (v : BitVec 72) : State :=
  (s.setEla { s.ela with flips := Sparse.set (fun _ => 0) s.ela.flips k v })

/-- The mask of essential bits of a configuration word. -/
def State.essential (s : State) (k : Nat) : BitVec 64 :=
  if Sparse.get (fun _ => false) s.ela.allEss (k / 32) then BitVec.allOnes 64 else Sparse.get (fun _ => 0) s.ela.map k

/-- The scope that a frame belongs to (R199): the region whose fence holds it, else the whole array. -/
def State.frameScope (s : State) (far : Nat) : Nat :=
  if far % 24 = 23 then 16 else (s.blockRegion (far / 24)).getD 16

/-- An essential upset with RGN_RESET in a region's fence: the region is held, and released again (R199). -/
def State.spargeReset (s : State) (n : Nat) : State := (s.holdScope n).beginRelease n none

/-- One word of the frame read (Table CFG-9). -/
def State.spargeWord (s : State) (far w : Nat) : State :=
  let k := 32 * far + w
  let sc := s.frameScope far
  let f := s.flip k
  match elaSyn f with
  | none => s
  | some none =>
    let hold := s.rdb F.CFG_SPG_CTRL.UE_HOLD
    let s := s.sat F.CFG_SPG_UE_CNT.COUNT
    let s := s.onlyIf hold fun s => ((s.setScope sc scIncomplete).setMeas sc []).holdScope sc
    s.cfgEvent 0x0513 sevError (scopeUnit sc) far (64 * w) (b2n hold) 0 0
  | some (some i) =>
    let s := s.setFlip k (f ^^^ BitVec.ofNat 72 (2 ^ i.val))
    if 64 ≤ i.val || !(s.essential k).getLsbD i.val then s.sat F.CFG_SPG_NE_CNT.COUNT
    else
      let again := s.rdb F.CFG_SPG_CTRL.RGN_RESET && sc != 16
      let s := (s.sat F.CFG_SPG_E_CNT.COUNT).cfgEvent 0x0512 sevWarn (scopeUnit sc) far (64 * w + i.val) (b2n again) 0 0
      s.onlyIf again fun s => s.spargeReset sc

/-- A map word read by the engine (R200): a single error is corrected and counted; a double error makes every bit of its
word essential. -/
def State.spargeMap (s : State) (far w : Nat) (flips : BitVec 72) : State :=
  match elaSyn flips with
  | none => s
  | some (some _) => s.sat F.CFG_SPG_MAP_CNT.CE
  | some none =>
    let s := (s.setEla { s.ela with map := Sparse.set (fun _ => (0 : BitVec 64)) s.ela.map (32 * far + w) (BitVec.allOnes 64) })
    (s.sat F.CFG_SPG_MAP_CNT.UE).cfgEvent 0x0514 sevWarn (scopeUnit (s.frameScope far)) far (64 * w) 0 0 0

/-- One frame slot (R199): the frame at the position, if its scope is scrubbed, then the next position. `upsets`: bits that
have flipped in its words since they were last read; `mapUpsets`: likewise in its map words. -/
def State.spargeSlot (s : State) (upsets mapUpsets : List (BitVec 5 × BitVec 72)) : State :=
  let far := s.rd F.CFG_SPG_POS.FAR
  let s := s.each upsets fun s u => s.setFlip (32 * far + u.1.toNat) (s.flip (32 * far + u.1.toNat) ^^^ u.2)
  let s := s.onlyIf (s.scope (s.frameScope far) == scConfigured) fun s =>
    let s := s.each mapUpsets fun s u => s.spargeMap far u.1.toNat u.2
    s.each (List.range 32) fun s w => s.spargeWord far w
  if far + 1 < 6144 then s.wr F.CFG_SPG_POS.FAR (far + 1) else (s.wr F.CFG_SPG_POS.FAR 0).inc F.CFG_SPG_PASS.COUNT

/-- SPARGE_FRAME_SLOT (R199). `votes`: disagreements that the voters of the engine's own state have corrected (R200). -/
def execSpargeFrameSlot (upsets mapUpsets : List (BitVec 5 × BitVec 72)) (votes : BitVec 8) (s : State) :
    Host.Outcome State Fault Refusal :=
  .next <| s.live fun s =>
    let s := s.sat F.CFG_SPG_TMR_CNT.COUNT (n := votes.toNat)
    s.onlyIf (s.rdb F.CFG_SPG_CTRL.EN) fun s => s.spargeSlot upsets mapUpsets

end Sys2Proof.Machine
end

