-- ==== Sys2Proof/Machine/Fuses.lean ====
section
/-! DEFINITION. The fuses, and what a loss of power leaves of fuse and flash operations (R455, R456, R459, R197). -/

namespace Sys2Proof.Machine

open Sys2Proof.Config

/-! ### Fuses (R455, R456, R459) -/

/-- The number under which a fuse operation names SVN_CTR. -/
abbrev fuseSvn : Nat := 8

/-- Bits of a fuse field of up to eight bits are blown: every bit of `v` is set. -/
def State.fuseOr (s : State) (f : Field) (v : Nat) : State := s.wr f (s.rd f ||| v)

/-- A fuse field takes a value (Table SEC-1): 1 to 4 CKH0 to CKH3, 5 CKH_REVOKE, 6 the requirement bits, 7 ENC_ONLY,
KEY1_DIS and DBG_DIS, then SVN_CTR and the slot-0 key. -/
def State.blowFuse (s : State) (field : Nat) (v : List Byte) : State :=
  let n := leNat v
  match field with
  | 5 => s.fuseOr F.SEC_FUSE_STAT.CKH_REVOKE n
  | 6 => ((s.fuseOr F.SEC_FUSE_STAT.REQ_GRIST (bits n 0 0)).fuseOr F.SEC_FUSE_STAT.REQ_STREAM (bits n 1 1)).fuseOr
      F.SEC_FUSE_STAT.REQ_CODE (bits n 2 2)
  | 7 =>
    let s := ((s.fuseOr F.SEC_FUSE_STAT.ENC_ONLY (bits n 0 0)).fuseOr F.SEC_FUSE_STAT.KEY1_DIS (bits n 1 1)).fuseOr
      F.SEC_FUSE_STAT.DBG_DIS (bits n 2 2)
    (s.fuseOr F.CFG_FUSE.ENC_ONLY (bits n 0 0)).fuseOr F.CFG_FUSE.KEY1_DIS (bits n 1 1)
  | 8 => s.wr F.SEC_BOOT.SVN_CTR n
  | 0x100 => s.setKey0 v
  | k =>
    if n = 0 then s else
    (s.setSec { s.sec with ckh := Sparse.insert s.sec.ckh (k - 1) (padTo 48 v) }).fuseOr F.SEC_FUSE_STAT.CKH_PROG
      (2 ^ (k - 1))

/-- The fuses as they stand, to tell a change. -/
def State.fuseState (s : State) : List Nat × List (Nat × List Byte) × List Byte :=
  ([s.rdReg 0x4E0000 % 256, s.rdReg 0x4E0004, s.rdReg 0x280010], s.sec.ckh, s.ela.key0)

/-- FUSE_BLOWN (R456): FIELD of SEC_FUSE; a field that no FIELD names leaves the byte open (notes/assumptions/28.md). -/
def State.fuseBlown (s : State) (field : Nat) : State :=
  if 1 ≤ field ∧ field ≤ 7 then s.event 0x0C02 sevInfo (sourceId 0x0C02 0 0) (payload [(16, 1, field)])
  else (s.event 0x0C02 sevInfo (sourceId 0x0C02 0 0) (payload [(16, 1, freeNat s.free)])).burn

/-- A fuse operation begins, past its point of no return. -/
def State.fuseBegin (s : State) (ref : CmdRef) (field : Nat) (v : List Byte) : State :=
  (s.setSec { s.sec with fuseOp := some ⟨some ref, field, v⟩ }).pastPoint ref

/-! ### Power lost while fuses are blown (R456) -/

/-- A field left partly blown keeps the bits that were blown: any part of them (free values). A CKH written in part is in
no list of keys, so it never matches. -/
def State.fusePartly (s : State) : State :=
  match s.sec.fuseOp with
  | none => s
  | some o =>
    let part := freeNat s.free
    let s := s.burn
    match o.field with
    | 8 =>
      let c := s.rd F.SEC_BOOT.SVN_CTR
      s.wr F.SEC_BOOT.SVN_CTR (c + part % (leNat o.value - c + 1))
    | 0x100 => s.onlyIf (part % 2 == 1) fun s => s.setKey0 (leBytes 32 (leNat o.value &&& (part / 2)))
    | k =>
      if k ≤ 4 then s.fuseOr F.SEC_FUSE_STAT.CKH_PROG (if leNat o.value = 0 then 0 else part % 2 * 2 ^ (k - 1))
      else s.blowFuse k (leBytes 1 (leNat o.value &&& part))

/-- Flash bytes of a range hold what an interrupted or failed operation left: free values. -/
def State.flashScramble (s : State) (ofs n : Nat) : State :=
  ((List.range n).foldl (fun s k => s.flashByte (ofs + k) (BitVec.ofNat 8 (freeNat (s.free + k)))) s).burn

/-- A flash operation that writes, cut short by a loss of power (notes/assumptions/28.md). -/
def State.flashPartly (s : State) : State :=
  match s.sec.flashOp with
  | some o => s.onlyIf (o.kind != 0) fun s => s.flashScramble o.ofs o.len
  | none => s

end Sys2Proof.Machine
end

