-- ==== Sys2Proof/Machine/Grist.lean ====
section
/-! DEFINITION. Grist images (R108 to R121, R129 to R134): layout, decoding, and the checks of Table GRI-10. -/

namespace Sys2Proof.Machine

/-! ### Records (Tables GRI-3, GRI-5, GRI-7, GRI-8) -/

/-- A section table entry. -/
structure Sec where
  n : Nat
  typ : Nat
  index : Nat
  comp : Bool
  ofs : Nat
  stored : Nat
  raw : Nat
  digest : List Byte

/-- The section table of an image. -/
def sections (img : List Byte) : List Sec :=
  (List.range (fieldAt img 0x00E 2)).map fun n =>
    let o := 0x200 + 80 * n
    ⟨n, fieldAt img o 2, fieldAt img (o + 2) 2, bit (fieldAt img (o + 4) 4) 0, fieldAt img (o + 8) 8, fieldAt img (o + 16) 8,
      fieldAt img (o + 24) 8, slice img (o + 32) 48⟩

/-- The stored bytes of a section. -/
def Sec.bytes (x : Sec) (img : List Byte) : List Byte := slice img x.ofs x.stored

/-- Decoding of a compressed section (R115); none where a token or the lengths are wrong. -/
def decodeTokens : Nat → List Byte → Nat → Option (List Byte)
  | 0, _, _ => none
  | fuel + 1, l, room =>
    if l.isEmpty then (if room = 0 then some [] else none)
    else if l.length < 8 then none
    else
      let t := fieldAt l 0 8
      let n := bits t 31 0
      let rest := l.drop 8
      if n = 0 ∨ room < 8 * n then none else
      match bits t 63 62 with
      | 0 => if rest.length < 8 * n then none
          else (decodeTokens fuel (rest.drop (8 * n)) (room - 8 * n)).map (rest.take (8 * n) ++ ·)
      | 1 => if rest.length < 8 then none
          else (decodeTokens fuel (rest.drop 8) (room - 8 * n)).map ((List.replicate n (rest.take 8)).flatten ++ ·)
      | 2 => (decodeTokens fuel rest (room - 8 * n)).map ((List.replicate n (leBytes 8 1)).flatten ++ ·)
      | _ => none

/-- The raw contents of a section (R112, R115). -/
def Sec.contents (x : Sec) (img : List Byte) : Option (List Byte) :=
  if x.comp then decodeTokens (x.stored + 1) (x.bytes img) x.raw
  else if x.stored = x.raw then some (x.bytes img) else none

/-- The raw contents of the section of a type and index, empty where the image has none. -/
def rawOf (img : List Byte) (typ index : Nat) : List Byte :=
  match (sections img).find? fun x => x.typ == typ && x.index == index with
  | some x => (x.contents img).getD []
  | none => []

/-- A route record (Table GRI-5). -/
def routeOf (v : Nat) : Route :=
  { pstep := bits v 12 0, ptile := bits v 21 16, pcluster := bits v 25 22, pbp := bits v 31 26, pkind := bits v 34 32
    ckind := bits v 38 36, ctile := bits v 45 40, ccluster := bits v 49 46, cbp := bits v 55 50, cport := bits v 57 56
    inj := bits v 60 58, ej := bits v 63 61, lane := bits v 69 64, hops := bits v 73 70, path := bits v 101 74
    pindex := bits v 111 102, cindex := bits v 121 112, tag := bits v 125 122
    reserved := bits v 15 13 != 0 || bit v 35 || bit v 39 || bits v 127 126 != 0 }

/-- An access record (Table GRI-7). -/
def accessOf (v : Nat) : AccessRec :=
  { issue := bits v 12 0, collect := bits v 28 16, tile := bits v 37 32, kind := bits v 42 40, unit := bits v 55 48
    reserved := bits v 15 13 != 0 || bits v 31 29 != 0 || bits v 39 38 != 0 || bits v 47 43 != 0 || bits v 63 56 != 0 }

/-- The bits of ARG that a binding kind uses (Table GRI-8). -/
def argBits (kind : Nat) : Nat :=
  match kind with
  | 1 => 8
  | 2 => 4
  | 3 => 8
  | 4 => 6
  | 5 => 23
  | _ => 22

/-- A binding record (R121). -/
def bindingOf (v : Nat) : Binding :=
  { kind := bits v 7 0, tile := bits v 15 8, step := bits v 28 16, arg := bits v 63 32
    reserved := bits v 31 29 != 0 || decide (2 ^ argBits (bits v 7 0) ≤ bits v 63 32) }

/-- Records of `n` bytes each. -/
def records (l : List Byte) (n : Nat) : List Nat := (List.range (l.length / n)).map fun i => fieldAt l (n * i) n

/-! ### A region entry (Table GRI-2) -/

/-- Region r of an image. -/
structure RgnDef where
  en : Bool
  deferred : Bool
  len : Nat
  base : Nat
  tiles : Nat
  mode : Nat
  edge : Nat
  clkpin : Nat
  src : Nat
  period : Nat

/-- The five words of region entry r. -/
def rgnWord (img : List Byte) (r k : Nat) : Nat := fieldAt img (0x040 + 24 * r + 4 * k) 4

/-- Region r of an image. -/
def rgnOf (img : List Byte) (r : Nat) : RgnDef :=
  let c := rgnWord img r 0
  let t := rgnWord img r 3
  ⟨bit c 31, bit c 30, bits c 27 14, bits c 12 0, rgnWord img r 1 + 2 ^ 32 * rgnWord img r 2, bits t 2 0, bits t 8 7,
    bits t 13 9, bits t 17 14, rgnWord img r 4⟩

/-- A parsed image: what the checks and the write phase read. -/
structure Image where
  bytes : List Byte
  secs : List Sec
  rgns : List RgnDef
  routes : List Route
  accesses : List AccessRec
  bindings : List Binding
  /-- Raw BP_STREAM of each tile. -/
  streams : List (Array Byte)

/-- The image that bytes spell. -/
def imageOf (img : List Byte) : Image :=
  let tiles := List.range 64
  { bytes := img, secs := sections img, rgns := (List.range 16).map (rgnOf img)
    routes := tiles.flatMap fun t => (records (rawOf img 2 t) 16).map routeOf
    accesses := tiles.flatMap fun t => (records (rawOf img 3 t) 8).map accessOf
    bindings := (records (rawOf img 4 0) 8).map bindingOf
    streams := tiles.map fun t => (rawOf img 1 t).toArray }

/-- Region r. -/
def Image.rgn (m : Image) (r : Nat) : RgnDef := m.rgns.getD r ⟨false, false, 0, 0, 0, 0, 0, 0, 0, 0⟩

/-- The region of a tile. -/
def Image.regionOf (m : Image) (t : Nat) : Option Nat :=
  (List.range 16).find? fun r => (m.rgn r).en && bit (m.rgn r).tiles t

/-- The regions that are defined. -/
def Image.defined (m : Image) : List Nat := (List.range 16).filter fun r => (m.rgn r).en

/-- The number in bytes `i` to `i + n - 1` of a section. -/
def wordIn (a : Array Byte) (i n : Nat) : Nat := leNat ((List.range n).map fun k => a.getD (i + k) 0)

/-- FIRST and COUNT of a tile's BP_STREAM (R116). -/
def Image.first (m : Image) (t : Nat) : Nat := wordIn (m.streams.getD t #[]) 0 2
def Image.rows (m : Image) (t : Nat) : Nat := wordIn (m.streams.getD t #[]) 2 2

/-- The instruction of BP `j` of a tile at an address (R116). -/
def Image.instr (m : Image) (t j a : Nat) : Nat :=
  let f := m.first t
  if f ≤ a ∧ a < f + m.rows t then wordIn (m.streams.getD t #[]) (16 + 8192 * (a - f) + 8 * j) 8 else 1

/-- The target: its grid, its tiles, its banks (R23, R132). -/
def Image.target (m : Image) : Nat := fieldAt m.bytes 0x008 1
def gridOf (target : Nat) : Option (Nat × Nat) :=
  match target with
  | 1 => some (4, 4)
  | 2 => some (8, 4)
  | 4 => some (8, 8)
  | _ => none
def Image.inGrid (m : Image) (t : Nat) : Bool :=
  match gridOf m.target with
  | some (w, h) => decide (tileX t < w) && decide (tileY t < h)
  | none => false
def Image.banks (m : Image) : Nat := 4 * m.target

/-! ### Errors -/

/-- A failed check, with its place (Table GRI-13). -/
structure LoadErr where
  code : Nat
  sect : Nat := 0x7FF
  rec_ : Nat := 0
  vtile : Nat := 0
  cluster : Nat := 0
  bp : Nat := 0
  addr : Nat := 0

/-- The first error that a list of checks finds. -/
def firstOf {α : Type} (l : List α) (f : α → Option LoadErr) : Option LoadErr := l.findSome? f

/-- A check that fails where a condition holds. -/
def failIf (c : Bool) (e : LoadErr) : Option LoadErr := if c then some e else none

/-- The section of a type and index. -/
def Image.secOf (m : Image) (typ index : Nat) : Nat :=
  match m.secs.find? fun x => x.typ == typ && x.index == index with
  | some x => x.n
  | none => 0x7FF

/-- Records with their number within their section. -/
def numbered {α : Type} (l : List α) (tile : α → Nat) : List (Nat × α) :=
  (List.range l.length).filterMap fun i =>
    match l[i]? with
    | some a => some (((l.take i).filter fun b => tile b == tile a).length, a)
    | none => none

/-- Every route, access and binding satisfies a check, or the first that does not fails with a code. -/
def Image.routeCheck (m : Image) (code : Nat) (bad : Route → Bool) : Option LoadErr :=
  firstOf (numbered m.routes (·.ptile)) fun e =>
    failIf (bad e.2) { code := code, sect := m.secOf 2 e.2.ptile, rec_ := e.1, vtile := e.2.ptile, cluster := e.2.pcluster,
                       bp := e.2.pbp, addr := e.2.pstep }
def Image.accessCheck (m : Image) (code : Nat) (bad : AccessRec → Bool) : Option LoadErr :=
  firstOf (numbered m.accesses (·.tile)) fun e =>
    failIf (bad e.2) { code := code, sect := m.secOf 3 e.2.tile, rec_ := e.1, vtile := e.2.tile, addr := e.2.issue }
def Image.bindingCheck (m : Image) (code : Nat) (bad : Binding → Bool) : Option LoadErr :=
  firstOf (numbered m.bindings (fun _ => 0)) fun e =>
    failIf (bad e.2) { code := code, sect := m.secOf 4 0, rec_ := e.1, vtile := e.2.tile % 64, addr := e.2.step }

/-- Every instruction that the image holds, as (tile, BP within the tile, address, word), satisfies a check. -/
def Image.instrCheck (m : Image) (code : Nat) (bad : Nat → Nat → Nat → Nat → Bool) : Option LoadErr :=
  firstOf (List.range 64) fun t => firstOf (List.range (m.rows t)) fun k => firstOf (List.range 1024) fun j =>
    failIf (bad t j (m.first t + k) (m.instr t j (m.first t + k)))
      { code := code, sect := m.secOf 1 t, rec_ := 2 + 1024 * k + j, vtile := t, cluster := j / 64, bp := j % 64,
        addr := m.first t + k }

/-! ### Header and sections (0x01 to 0x08) -/

/-- Bytes of an image before its signature block. -/
def signedAt (img : List Byte) : Nat := fieldAt img 0x010 8 - (if bit (fieldAt img 0x00B 1) 0 then 256 else 0)

/-- The header digest as it should be (R114). -/
def headerDigest (img : List Byte) : List Byte :=
  hash (slice img 0 0x1C0 ++ List.replicate 48 0 ++ slice img 0x1F0 (0x10 + 80 * fieldAt img 0x00E 2))

/-- The header's DIGEST field. -/
def imgDigest (img : List Byte) : List Byte := slice img 0x1C0 48

/-- Digests (R114). -/
def Image.digests (m : Image) : Option LoadErr :=
  if headerDigest m.bytes ≠ imgDigest m.bytes then some { code := 0x05 }
  else firstOf m.secs fun x => failIf (decide (hash (x.bytes m.bytes) ≠ x.digest)) { code := 0x05, sect := x.n }

/-- A section lies where R112 lets it lie. -/
def Image.placed (m : Image) (x : Sec) : Bool :=
  decide (x.ofs % 64 = 0) && decide (0x200 + 80 * m.secs.length ≤ x.ofs) && decide (x.ofs + x.stored ≤ signedAt m.bytes)
    && m.secs.all fun y => y.n == x.n || decide (x.ofs + x.stored ≤ y.ofs) || decide (y.ofs + y.stored ≤ x.ofs)

/-- Route records stand in ascending PSTEP (Table GRI-4). -/
def ascending : List Nat → Bool
  | [] => true
  | [_] => true
  | a :: b :: l => decide (a ≤ b) && ascending (b :: l)

/-- The contents of a listed section type are decoded and laid out as R112, R113, R115 and R116 say. -/
def Image.sectionOk (m : Image) (x : Sec) : Bool :=
  let perTile := decide (x.typ < 4)
  let raw := (x.contents m.bytes).getD []
  m.placed x && !(m.secs.any fun y => y.n != x.n && y.typ == x.typ && y.index == x.index) &&
    (bit x.typ 15 ||
      (decide (1 ≤ x.typ ∧ x.typ ≤ 4) && decide (x.index < 64) && (perTile || x.index == 0) && x.raw % 8 == 0
        && (x.contents m.bytes).isSome && (!perTile || (m.regionOf x.index).isSome)
        && match x.typ with
          | 1 => decide (16 ≤ raw.length) && decide (raw.length = 16 + 8192 * fieldAt raw 2 2)
              && decide (fieldAt raw 0 2 + fieldAt raw 2 2 ≤ 8192)
          | 2 => raw.length % 16 == 0 && ascending ((records raw 16).map fun v => bits v 12 0)
          | _ => true))

/-- Decoding (0x07): sections, then the records that name another tile or have a reserved bit set. -/
def Image.decoding (m : Image) : Option LoadErr :=
  if m.secs.length = 0 ∨ 1024 < m.secs.length then some { code := 0x07 } else
  (firstOf m.secs fun x => failIf (!m.sectionOk x) { code := 0x07, sect := x.n }).or
    (firstOf (List.range 64) fun t =>
      (firstOf (List.range ((rawOf m.bytes 2 t).length / 16)) fun i =>
        let r := routeOf (fieldAt (rawOf m.bytes 2 t) (16 * i) 16)
        failIf (r.reserved || r.ptile != t) { code := 0x07, sect := m.secOf 2 t, rec_ := i, vtile := t }).or
      (firstOf (List.range ((rawOf m.bytes 3 t).length / 8)) fun i =>
        let a := accessOf (fieldAt (rawOf m.bytes 3 t) (8 * i) 8)
        failIf (a.reserved || a.tile != t) { code := 0x07, sect := m.secOf 3 t, rec_ := i, vtile := t }))

/-- A region entry keeps the rules of R76, R84 and Table FRM-1; a reserved MODE or EDGE breaks them
(notes/assumptions/133.md). -/
def Image.rgnOk (m : Image) (r : Nat) : Bool :=
  let x := m.rgn r
  if !x.en then (List.range 5).all fun k => rgnWord m.bytes r k == 0
  else
    decide (4 ≤ x.len ∧ x.len ≤ 8192) && decide (x.base + x.len ≤ 8192) && decide (x.mode < 5) && x.edge != 0
      && (maskBits 64 x.tiles).all m.inGrid
      && ((List.range 16).all fun q => q == r || !(m.rgn q).en || (m.rgn q).tiles &&& x.tiles == 0)
      && (x.mode != 1 || decide (x.len ≤ x.period))
      && (x.mode != 3 || (x.src != r && (m.rgn x.src).en && (x.deferred || !(m.rgn x.src).deferred)))

/-- The region table and the two step limits (0x08). -/
def Image.regionTable (m : Image) : Option LoadErr :=
  let rest := fieldAt m.bytes 0x018 4
  let pwr := fieldAt m.bytes 0x01C 2
  (firstOf (List.range 16) fun r => failIf (!m.rgnOk r) { code := 0x08, rec_ := r }).or
    (failIf ((rest != 0 && decide (rest < 16)) || (pwr != 0 && decide (pwr < 64))) { code := 0x08 })

/-! ### Instructions (0x09 to 0x0B) -/

/-- Operand selectors of an instruction word (Table FAB-1). -/
def wordOps (w : Nat) : List Nat := [bits w 47 39, bits w 38 30, bits w 29 21, bits w 20 12]

/-- LAST stands in the instruction at B + L − 1 of every BP of a region and in no other of its frame (R53). -/
def Image.lastPlaced (m : Image) : Option LoadErr :=
  firstOf m.defined fun r =>
    let x := m.rgn r
    firstOf (maskBits 64 x.tiles) fun t => firstOf (List.range x.len) fun i => firstOf (List.range 1024) fun j =>
      failIf (bit (m.instr t j (x.base + i)) 1 != (i + 1 == x.len))
        { code := 0x0A, sect := m.secOf 1 t, rec_ := 2 + 1024 * (x.base + i - m.first t) + j, vtile := t, cluster := j / 64,
          bp := j % 64, addr := x.base + i }

/-- The region of a route's producing tile. -/
def Image.rr (m : Image) (t : Route) : RgnDef := m.rgn ((m.regionOf t.ptile).getD 16)

/-- A route takes a step that does not send (R54). A PSTEP outside the frame is judged with 0x0C. -/
def Image.takesSilent (m : Image) (t : Route) : Bool :=
  let w := m.instr t.ptile (t.pcluster * 64 + t.pbp) ((m.rr t).base + t.pstep)
  t.pkind == 0 && decide (t.pstep < (m.rr t).len) && (bit w 0 || !bit w 2)

/-! ### Routes (0x0C to 0x10) -/

/-- The x-hops of a path form one unbroken run (R110). -/
def xRunOk (t : Route) : Bool :=
  let x := (List.range t.hops).filter fun k => decide (t.dir k < 2)
  match x with
  | [] => true
  | a :: _ => x == (List.range x.length).map (a + ·)

/-- The producer tile, and the consumer tile, match their kinds (Table GRI-5). -/
def endsOk (t : Route) : Bool :=
  (match t.pkind with
   | 0 => true
   | 1 => t.ptile == entryTile (t.pindex / 32)
   | 2 => t.ptile == t.pindex / 16
   | k => decide (k < 5)) &&
  (match t.ckind with
   | 0 => true
   | 4 => t.ctile == t.cindex / 16
   | 5 => true
   | 6 => true
   | 7 => false
   | _ => t.ctile == entryTile (t.cindex / 32))

/-- Route shape (R66, R110, R117). -/
def Image.shapeBad (m : Image) (t : Route) : Bool :=
  let own := m.regionOf t.ptile
  decide ((m.rr t).len ≤ t.pstep) || t.hops != hopCount t.ptile t.ctile || !endsOk t || !xRunOk t || m.regionOf t.ctile != own
    || !(t.hopList.all fun h => m.regionOf h.2.2 == own)
    || (match t.hopList.getLast? with | some h => h.2.2 != t.ctile | none => t.ptile != t.ctile)

/-- The step index at which a route arrives, counted without wrapping (R118). -/
def Route.arrival (t : Route) : Nat := t.pstep + t.travel

/-- Arrival beyond the frame outside mode FREE (R119). -/
def Image.late (m : Image) (t : Route) : Bool := decide ((m.rr t).len ≤ t.arrival) && (m.rr t).mode != 0

/-- The output lanes that a route occupies with the steps after production, without drift (Tables FAB-7 to FAB-9). -/
def hopLanes0 (lane : Nat) : List (Nat × Nat × Nat) → Nat → List (Nat × LaneKey)
  | [], _ => []
  | h :: l, e => (e, ⟨h.1, h.2.1, 0, lane⟩) :: hopLanes0 lane l (if (crossing h.1 h.2.2).isSome then e + 4 else e + 1)

/-- What a route delivers to: a place that takes one value a step (R58, R62). -/
def Route.sink (t : Route) : Nat × Nat :=
  match t.ckind with
  | 0 => (0, ((t.ctile * 16 + t.ccluster) * 64 + t.cbp) * 4 + t.cport)
  | 6 => (6, t.ctile * 128 + t.cindex % 128)
  | 5 => (5, (t.ctile * 4 + t.cindex / 64 % 4) * 64 + t.cindex % 64)
  | k => (k, t.cindex)

/-- Every lane of a route with the step after production. -/
def Route.lanes (t : Route) : List (Nat × LaneKey) :=
  if t.sameCluster then [] else
  (if t.pkind = 0 then [(1, ⟨t.ptile, 4, t.pcluster, t.inj⟩)] else []) ++ hopLanes0 t.lane t.hopList 2
    ++ (if t.ckind = 0 then [(t.travel, ⟨t.ctile, 5, t.ccluster, t.ej⟩)] else [])

/-- Two routes of one region meet on a lane, or deliver to one place at one step (R58, R71, R118). Branches of one fork
share lanes, never an arrival port. -/
def Image.meets (m : Image) (a b : Route) : Bool :=
  let l := (m.rr a).len
  m.regionOf a.ptile == m.regionOf b.ptile &&
    ((a.sink == b.sink && a.arrival % l == b.arrival % l) ||
      (!a.sameSource b && a.lanes.any fun x => b.lanes.any fun y => x.2 == y.2 && (a.pstep + x.1) % l == (b.pstep + y.1) % l))

/-- Routes that meet (0x0E): the later record of the first pair. -/
def Image.collisions (m : Image) : List Route → List Route → Option LoadErr
  | _, [] => none
  | before, t :: l =>
    if before.any fun b => m.meets b t then
      some { code := 0x0E, sect := m.secOf 2 t.ptile, rec_ := (before.filter fun b => b.ptile == t.ptile).length, vtile := t.ptile,
             cluster := t.ccluster, bp := t.cbp, addr := t.arrival % 8192 }
    else m.collisions (before ++ [t]) l

/-- Instructions of a tile that read a snapshot bit at a step index of the tile's region: the BPs that do (R57). -/
def Image.snapReaders (m : Image) (t i : Nat) : List Nat :=
  match m.regionOf t with
  | some r => (List.range 1024).filter fun j =>
      let w := m.instr t j ((m.rgn r).base + i)
      !bit w 0 && (wordOps w).contains 263
  | none => []

/-- Snapshot lanes: at most 8 of a cluster at a step, and no network value on the A3 lane of a BP that reads one
(R58, R62). -/
def Image.snapLanesBad (m : Image) : Option LoadErr :=
  firstOf (List.range 64) fun t =>
    match m.regionOf t with
    | none => none
    | some r => firstOf (List.range (m.rgn r).len) fun i =>
      let l := m.snapReaders t i
      (firstOf (List.range 16) fun c => failIf (decide (8 < (l.filter fun j => j / 64 == c).length))
          { code := 0x0E, sect := m.secOf 1 t, vtile := t, cluster := c, addr := i }).or
        (firstOf l fun j => failIf (m.routes.any fun q =>
            q.sink == (0, (t * 1024 + j) * 4 + 3) && q.arrival % (m.rgn r).len == i)
          { code := 0x0E, sect := m.secOf 1 t, vtile := t, cluster := j / 64, bp := j % 64, addr := i })

/-- A tile of a deferred region. -/
def Image.deferredTile (m : Image) (t : Nat) : Bool := (m.rgn ((m.regionOf t).getD 16)).deferred

/-- A route that its region's class may not use (R88). -/
def Image.classBad (m : Image) (t : Route) : Bool :=
  if m.deferredTile t.ptile then t.pkind == 1 || t.pkind == 2 || decide (1 ≤ t.ckind ∧ t.ckind ≤ 4)
  else t.pkind == 4 || t.ckind == 6

/-- A pin, or a crossing bit, of the image's target (R23, R70). -/
def Image.pinIn (m : Image) (p : Nat) : Bool := decide (p / 32 < m.banks)
def Image.bitIn (m : Image) (n : Nat) : Bool := m.inGrid (n / 16)

/-- A route to or from a pin or a crossing bit outside the target (0x10). -/
def Image.outside (m : Image) (t : Route) : Bool :=
  (t.pkind == 1 && !m.pinIn t.pindex) || (t.pkind == 2 && !m.bitIn t.pindex)
    || (decide (1 ≤ t.ckind ∧ t.ckind ≤ 3) && !m.pinIn t.cindex) || (t.ckind == 4 && !m.bitIn t.cindex)

/-- A binding of a queue whose pins DP[8q + 7:8q] lie outside the target's banks (R23, R94, R132). -/
def Image.queueOutside (m : Image) (b : Binding) : Bool := b.kind == 4 && decide (b.arg < 64) && decide (m.banks ≤ b.arg / 4)

/-! ### Snapshots, accesses, bindings (0x11 to 0x13) -/

/-- Snapshot rules (R91), of the bindings whose TILE lies in a region and whose pin is one of the 512: the others are refused
with 0x13 (R121). -/
def Image.snapshots (m : Image) : Option LoadErr :=
  (m.bindingCheck 0x11 fun b => b.kind == 5 && (m.regionOf b.tile).isSome && (!m.deferredTile b.tile
      || (bits b.arg 12 11 == 0 && decide (bits b.arg 22 13 < 512) && !m.pinIn (bits b.arg 22 13)))).or
    (m.instrCheck 0x11 fun t _ a w =>
      match m.regionOf t with
      | some r => !bit w 0 && (wordOps w).contains 263 && decide ((m.rgn r).base ≤ a) && decide (a < (m.rgn r).base + 4)
      | none => false)

/-- A binding of a kind, in a tile or with a number. -/
def Image.binds (m : Image) (kind : Nat) (p : Binding → Bool) : Bool := m.bindings.any fun b => b.kind == kind && p b

/-- An access breaks R120. -/
def Image.accessBad (m : Image) (a : AccessRec) : Bool :=
  let len := (m.rgn ((m.regionOf a.tile).getD 16)).len
  decide (5 < a.kind) || decide (len ≤ a.collect) || decide (a.collect < a.issue + 8)
    || decide (1 < (m.accesses.filter fun b => b.tile == a.tile && b.issue == a.issue).length)
    || decide (1 < (m.accesses.filter fun b => b.tile == a.tile && b.collect == a.collect).length)
    || !(match a.kind with
      | 0 => m.binds 1 fun b => b.tile == a.tile
      | 1 => m.binds 1 fun b => b.tile == a.tile
      | 2 => m.binds 2 fun b => b.tile == a.tile && b.arg == a.unit
      | 3 => m.binds 2 fun b => b.tile == a.tile && b.arg == a.unit
      | 4 => m.binds 3 fun b => b.tile == a.tile && b.arg == a.unit
      | _ => m.binds 4 fun b => b.arg == a.unit && m.regionOf (b.tile % 64) == m.regionOf a.tile)

/-- Deferred returns are matched, and units bound (0x12). -/
def Image.accessRules (m : Image) : Option LoadErr :=
  (m.accessCheck 0x12 m.accessBad).or
    (m.routeCheck 0x12 fun t => t.pkind == 4 && !(m.accesses.any fun a =>
      a.tile == t.ptile && a.collect == t.pstep && (a.kind == 0 || a.kind == 3 || a.kind == 4)))

/-- The number that a binding binds once (R121). -/
def Binding.unit (b : Binding) : Nat :=
  match b.kind with
  | 1 => b.tile
  | 5 => b.tile * 2048 + b.arg % 2048
  | 6 => b.arg % 4096
  | _ => b.arg

/-- A binding breaks R121. An exchange latch on a side of its tile that has no neighbour counts as a value out of range
(notes/assumptions/134.md). -/
def Image.bindingBad (m : Image) (b : Binding) : Bool :=
  b.kind == 0 || decide (6 < b.kind) || b.reserved || decide (63 < b.tile) || (m.regionOf b.tile).isNone
    || (b.kind == 1 && (if bit b.arg 7 then decide (15 < b.arg % 128) else decide (63 < b.arg % 128)))
    || (b.kind == 5 && (match bits b.arg 12 11 with
        | 0 => decide (511 < bits b.arg 22 13)
        | 1 => decide (255 < bits b.arg 22 13) || (neighbour b.tile (bits b.arg 22 13 / 64 % 4)).isNone
        | 2 => bits b.arg 22 13 / 16 != b.tile
        | _ => true))
    || decide (1 < (m.bindings.filter fun c => c.kind == b.kind && c.unit == b.unit).length)

/-! ### Pads and latches (0x14, 0x15) -/

/-- Physical hops of a route beyond its virtual ones: x-hops within a die that pass its disabled tile (R131). -/
def State.extraHops (s : State) (t : Route) : Nat :=
  (t.hopList.filter fun h => decide (h.2.1 < 2) && tileDie h.1 == tileDie h.2.2
    && dist (s.physTile h.1) (s.physTile h.2.2) == 2).length

/-- The writing tile of an exchange latch that a route reads (Table GRI-5). -/
def Route.latchWriter (t : Route) : Option Nat := neighbour t.ptile (t.pindex / 64 % 4)

/-- An exchange latch that does not lie between two regions of one class (R89). -/
def Image.latchBad (m : Image) (t : Route) : Bool :=
  let other (a : Nat) (b : Option Nat) : Bool :=
    match b with
    | some u => (m.regionOf u).isSome && m.regionOf u != m.regionOf a
    | none => false
  (t.ckind == 5 && !other t.ctile (neighbour t.ctile (t.cindex / 64 % 4)))
    || (t.pkind == 3 && (!other t.ptile t.latchWriter || (match t.latchWriter with
        | some u => m.deferredTile u != m.deferredTile t.ptile
        | none => true)))

/-! ### All checks (R134) -/

/-- The first failed check of Table GRI-10, 0x06 and 0x16 apart from their own phases. `sigOk`: what authentication found. -/
def State.gristCheck (s : State) (length : Nat) (sigOk : Bool) (img : List Byte) : Option LoadErr :=
  let m := imageOf img
  let w := fieldAt img 0x009 1
  let h := fieldAt img 0x00A 1
  let step := fieldAt img 0x00C 1
  firstOf (List.range 21) fun k => match k with
    | 0 => failIf (fieldAt img 0 4 != 0x54535247 || fieldAt img 4 2 != 1) { code := 0x01 }
    | 1 => failIf (fieldAt img 0x010 8 != length) { code := 0x02 }
    | 2 => failIf (gridOf m.target != some (w, h)) { code := 0x03 }
    | 3 => failIf (step == 0 || decide (s.rd F.GLB_GRADE.FSTEP_MAX < step)) { code := 0x04 }
    | 4 => m.digests
    | 5 => failIf (!sigOk) { code := 0x06 }
    | 6 => m.decoding
    | 7 => m.regionTable
    | 8 => m.instrCheck 0x09 fun _ _ _ w => (wordOps w).any fun o => decide (264 ≤ o)
    | 9 => m.lastPlaced
    | 10 => m.routeCheck 0x0B m.takesSilent
    | 11 => m.routeCheck 0x0C m.shapeBad
    | 12 => m.routeCheck 0x0D m.late
    | 13 => (m.collisions [] m.routes).or m.snapLanesBad
    | 14 => ((m.routeCheck 0x0F m.classBad).or (m.accessCheck 0x0F fun a => !m.deferredTile a.tile)).or
        (m.bindingCheck 0x0F fun b => decide (1 ≤ b.kind ∧ b.kind ≤ 4) && (m.regionOf b.tile).isSome && !m.deferredTile b.tile)
    | 15 => ((m.routeCheck 0x10 m.outside).or (m.bindingCheck 0x10 m.queueOutside)).or (firstOf m.defined fun r =>
        failIf ((m.rgn r).mode == 2 && decide (m.banks ≤ (m.rgn r).clkpin / 2)) { code := 0x10, rec_ := r })
    | 16 => m.snapshots
    | 17 => m.accessRules
    | 18 => m.bindingCheck 0x13 m.bindingBad
    | 19 => m.routeCheck 0x14 fun t => t.ptile != t.ctile && decide (1 < s.extraHops t)
    | _ => m.routeCheck 0x15 m.latchBad

end Sys2Proof.Machine
end

