-- ==== Sys2Proof/Machine/Loader.lean ====
section
/-! DEFINITION. LOAD_GRIST and the verified library (R122 to R128, R137 to R139, Table GRI-9). -/

namespace Sys2Proof.Machine

/-! ### The library (R137) -/

/-- The library replaced, and shown. -/
def State.setVlib (s : State) (l : List (Nat × VlibEntry)) : State :=
  (s.setFab { s.fab with vlib := l }).wr F.FAB_VLIB_VALID.VALID (l.foldl (fun n (e : Nat × VlibEntry) => n + 2 ^ e.1) 0)

/-- The valid entry for a partition, offset and length. -/
def State.vlibFind (s : State) (part ofs len : Nat) : Option (Nat × VlibEntry) :=
  s.fab.vlib.find? fun e => e.2.part == part && e.2.ofs == ofs && e.2.len == len

/-- The entry that a new one takes: a free number, else the least recently used. -/
def State.vlibSlot (s : State) : Nat :=
  match (List.range 16).find? fun n => !(s.fab.vlib.any fun e => e.1 == n) with
  | some n => n
  | none =>
    match s.fab.vlib with
    | [] => 0
    | e :: l => (l.foldl (fun b e => if e.2.used < b.2.used then e else b) e).1

/-- An entry is recorded for the device's copy of the image of a load. -/
def State.vlibRecord (s : State) (l : LoadSt) : State :=
  let s := s.vlibDrop fun e => e.part == l.part && e.ofs == l.ofs && e.len == l.length
  let n := s.vlibSlot
  let u := s.fab.vlibUse + 1
  let e : VlibEntry := ⟨l.part, l.ofs, l.length, s.partAddr l.part l.ofs, imgDigest l.image, u⟩
  (s.setFab { s.fab with vlibUse := u }).setVlib (Sparse.insert s.fab.vlib n e)

/-- An entry is used. -/
def State.vlibTouch (s : State) (n : Nat) : State :=
  let u := s.fab.vlibUse + 1
  (s.setFab { s.fab with
    vlibUse := u, vlib := s.fab.vlib.map fun e => if e.1 = n then (e.1, { e.2 with used := u }) else e })

/-- FAB_VLIB_INV (R137): each 1 written makes that entry invalid. -/
def State.vlibInvWrite (s : State) (v : Nat) : State :=
  s.setVlib (s.fab.vlib.filter fun e => !bit v e.1)

/-- FAB_VLIB_INV (R137). -/
def execFabVlibInv (value : BitVec 32) (s : State) : Host.Outcome State Fault Refusal :=
  .next (s.onlyIf (s.bar0Open 0x103054) fun s => s.vlibInvWrite value.toNat)

/-! ### The load in progress -/

/-- The load in progress, shown in FAB_LOAD_STATUS (Table GRI-13). -/
def State.setGrist (s : State) (l : Option LoadSt) : State :=
  let s := (s.setFab { s.fab with load := l })
  match l with
  | some x => (s.wr F.FAB_LOAD_STATUS.BUSY 1).wr F.FAB_LOAD_STATUS.PHASE x.phase
  | none => (s.wr F.FAB_LOAD_STATUS.BUSY 0).wr F.FAB_LOAD_STATUS.PHASE 0

/-- A load ends. -/
def State.gristEnd (s : State) (l : LoadSt) (status : Nat) : State := (s.setGrist none).complete l.ref status

/-- The completion status of a load error (Table GRI-10). -/
def gristStatus (code : Nat) : Nat :=
  if code = 0x02 then stRange else if code = 0x05 ∨ code = 0x06 then stAuthFailed else stCheckFailed

/-- A failed check is recorded (Table GRI-13). -/
def State.gristErr (s : State) (e : LoadErr) : State :=
  let s := ((s.wr F.FAB_LOAD_STATUS.ERR_CODE e.code).wr F.FAB_LOAD_STATUS.ERR_SECTION e.sect).wr F.FAB_LOAD_ERR_REC.RECORD e.rec_
  (((s.wr F.FAB_LOAD_ERR_LOC.VTILE e.vtile).wr F.FAB_LOAD_ERR_LOC.CLUSTER e.cluster).wr F.FAB_LOAD_ERR_LOC.BP e.bp).wr
    F.FAB_LOAD_ERR_LOC.ADDR e.addr

/-- A load ends with an error before its point of no return. -/
def State.gristFail (s : State) (l : LoadSt) (e : LoadErr) : State := (s.gristErr e).gristEnd l (gristStatus e.code)

/-- The device's copy of the image, with a poisoned word consumed by the load (R123, R126, R351). -/
def State.gristRead (s : State) (l : LoadSt) : List Byte × Bool × State :=
  let a := s.partAddr l.part l.ofs
  let r := s.memRead (reqHost l.port) a l.length
  let bad := poisoned r.bytes
  (plain r.bytes, bad, r.s.onlyIf bad fun s =>
    s.poisonConsumed (reqHost l.port) (a + (r.bytes.takeWhile fun b => !b.2).length) 7)

/-- The start of the write phase, the point of no return (R123, R125, R96): TLQ entries are discarded, every region is
UNLOADED, pins owned FABRIC hold, and fabric-to-ELA bits read 0. -/
def State.gristPoint (s : State) (l : LoadSt) : State :=
  let all := List.range 16
  let s := (s.pastPoint l.ref).setGrist (some { l with phase := 4 })
  let s := s.each all fun s r => s.onlyIf (s.rlive r) fun s => s.stopRegion r
  let s := s.each all fun s r =>
    ((s.wr F.FAB_RGN_STATUS.STATE rgUnloaded r).wr F.FAB_RGN_STATUS.HALT_CAUSE 0 r).setRgn r {}
  let s := s.each (List.range 64) fun s q => s.setTlq q []
  let s := (s.setFab { s.fab with quiet := true, flights := [], items := [], pinWrites := [] })
  ((s.wr F.FAB_GLB_STATUS.LOADED 0).wr F.FAB_IMG_INFO.MIN_FSTEP 0).elaAgain

/-! ### The command and its phases -/

/-- Some region is RUNNING or WAITING, or has a halt pending (R122). -/
def State.fabBusy (s : State) : Bool :=
  (List.range 16).any fun r => s.rlive r || s.rdb F.FAB_RGN_STATUS.HALT_PENDING r

/-- LOAD_GRIST (R122, R137, R437). -/
def execLoadGrist (ref : CmdRef) (src mode part stage : BitVec 8) (addr stageOfs len : BitVec 64) (s : State) :
    Host.Outcome State Fault Refusal :=
  .next <| s.command ref 0x0401 fun s =>
    let hbm := src = 1
    let p := if hbm then part.toNat else stage.toNat
    let ofs := if hbm then addr.toNat else stageOfs.toNat
    let n := len.toNat
    let l : LoadSt := ⟨ref, hbm, mode = 1, s.cmdPort ref, addr.toNat, p, ofs, n, 1, false, false, []⟩
    if 1 < src.toNat ∨ 1 < mode.toNat ∨ 15 < p then s.complete ref stRange
    else if s.fab.load.isSome then s.complete ref stBusy
    else if s.standbyLocked || s.fabBusy || !s.hostPart p then s.complete ref stRefused
    else if 2 ^ 33 < n ∨ !s.inPart p ofs n then (s.gristErr { code := 0x02 }).complete ref stRange
    else
      let s := s.gristErr { code := 0, sect := 0 }
      match if hbm then s.vlibFind p ofs n else none with
      | some e =>
        let s := s.vlibTouch e.1
        if mode = 1 then s.complete ref stDone else s.gristPoint { l with hit := true }
      | none => s.setGrist (some l)

/-- The load in progress is in a phase. -/
def State.inPhase (s : State) (k : Nat) (f : State → LoadSt → State) : State :=
  match s.fab.load with
  | some l => if l.phase = k then f s l else s
  | none => s

/-- GRIST_FETCH_COMPLETE (R123): the image is read, and copied to STAGE from a host; poison in it, in a host's packets too,
ends the load (R126). -/
def execGristFetchComplete (s : State) : Host.Outcome State Fault Refusal :=
  .next <| s.live fun s => s.inPhase 1 fun s l =>
    if s.memWaits (reqHost l.port) (s.partAddr l.part l.ofs) l.length then s
    else if l.fromHbm then
      let r := s.gristRead l
      if r.2.1 then r.2.2.gristFail l { code := 0x16 }
      else r.2.2.setGrist (some { l with phase := 2, image := r.1 })
    else if !s.portUp l.port then s.gristEnd l stIncomplete
    else if s.hostBad l.port l.addr l.length then
      (s.poisonConsumed (reqHost l.port) (s.partAddr l.part l.ofs) 7).gristFail l { code := 0x16 }
    else
      let img := s.hostRead l.port l.addr l.length
      (s.put (reqHost l.port) (s.partAddr l.part l.ofs) img).setGrist (some { l with phase := 2, image := img })

/-- GRIST_AUTHENTICATE_COMPLETE (R114, R462): a signature block is verified, one that is required must be there. -/
def execGristAuthenticateComplete (s : State) : Host.Outcome State Fault Refusal :=
  .next <| s.live fun s => s.inPhase 2 fun s l =>
    let img := l.image
    let signed := fieldAt img 0 4 == 0x54535247 && bit (fieldAt img 0x00B 1) 0
    let block := slice img (signedAt img) 256
    let ok := if signed then s.sigOk 0x47495347 [1, 2, 3, 4] (imgDigest img) block else !s.rdb F.SEC_FUSE_STAT.REQ_GRIST
    let s := s.onlyIf (signed && !ok) fun s => s.authFail 2 block
    s.setGrist (some { l with phase := 3, sigOk := ok })

/-- GRIST_CHECK_COMPLETE (R134, R137): the checks of Table GRI-10; a load that passes reaches its point of no return, a
VERIFY ends. -/
def execGristCheckComplete (s : State) : Host.Outcome State Fault Refusal :=
  .next <| s.live fun s => s.inPhase 3 fun s l =>
    match s.gristCheck l.length l.sigOk l.image with
    | some e => s.gristFail l e
    | none =>
      let s := s.onlyIf (l.verify || !l.fromHbm) fun s => s.vlibRecord l
      if l.verify then s.gristEnd l stDone else s.gristPoint l

/-- The instruction stores that an image fills; NOP words stand in no list (R116). -/
def Image.istore (m : Image) : List (Nat × BitVec 64) :=
  (List.range 64).flatMap fun t => (List.range 1024).flatMap fun j => (List.range (m.rows t)).filterMap fun k =>
    let w := m.instr t j (m.first t + k)
    if w = 1 then none else some ((t * 1024 + j) * 8192 + m.first t + k, BitVec.ofNat 64 w)

/-- The registers of region r after a load (R124); its STATE changes when the load ends. -/
def State.loadRegion (s : State) (img : List Byte) (r : Nat) : State :=
  let x := rgnOf img r
  let s := (((s.wrb F.FAB_RGN_CFG.EN x.en r).wrb F.FAB_RGN_CFG.CLASS x.deferred r).wr F.FAB_RGN_CFG.LEN x.len r).wr
    F.FAB_RGN_CFG.BASE x.base r
  let s := (s.wr F.FAB_RGN_TILES_LO.TILES (rgnWord img r 1) r).wr F.FAB_RGN_TILES_HI.TILES (rgnWord img r 2) r
  let s := (((s.wr F.FAB_RGN_TRIG.MODE x.mode r).wr F.FAB_RGN_TRIG.EDGE x.edge r).wr F.FAB_RGN_TRIG.CLKPIN x.clkpin r).wr
    F.FAB_RGN_TRIG.SRC x.src r
  let s := s.wr F.FAB_RGN_PERIOD.PERIOD x.period r
  let s := (s.wr F.FAB_RGN_STATUS.STEP 0 r).wr F.FAB_RGN_STATUS.HALT_CAUSE 0 r
  (s.wr64 F.FAB_RGN_FRAME_LO.FRAME 0 r).wr64 F.FAB_RGN_ANCHOR_LO.ANCHOR 0 r

/-- The offsets whose first commit a load is (R11, R124). -/
def loadedOffsets : List Nat :=
  ((List.range 16).flatMap fun r => [0, 4, 8, 12, 16].map fun k => 0x100000 + 0x40 * r + k) ++ [0x101004, 0x101008]

/-- Offsets have been included in a commit (R11). -/
def State.markCommitted (s : State) (l : List Nat) : State :=
  (s.setHost { s.host with committed := l.foldl (fun m o => Sparse.insert m o true) s.host.committed })

/-- The image is written (R124): stores, switch schedules, bindings, region registers, limits, information. -/
def State.gristWrite (s : State) (img : List Byte) (snap : List SnapLane) : State :=
  let m := imageOf img
  let s := (s.setFab { s.fab with
    istore := m.istore, routes := m.routes, accesses := m.accesses, bindings := m.bindings, snapLanes := snap
    dm := [], undef := none, latches := [], snaps := [], flights := [], items := [], pinWrites := [], elaOut := []
    probes := [], rgn := [], cReflex := 0, cDeferred := 0, rest := 0, restLen := 0, nonPower := 0, holdLen := 0 })
  let s := (s.setPins { s.pin with expected := [] }).each (List.range 512) fun s p => s.wr F.PIN_STAT.FAB_LATCH 0 p
  let s := s.each (List.range 16) fun s r => s.loadRegion img r
  let s := s.each (List.range 64) fun s q =>
    let b := m.bindings.find? fun b => b.kind == 4 && b.arg == q
    let s := (s.setTlq q []).wr F.FAB_TLQ_STAT.MAX 0 q
    (s.wrb F.FAB_TLQ_STAT.BOUND b.isSome q).wr F.FAB_TLQ_STAT.REGION ((b.bind fun b => m.regionOf b.tile).getD 0) q
  let pwr := fieldAt img 0x01C 2
  let s := (s.wr F.FAB_REST_LIMIT.LIMIT (fieldAt img 0x018 4)).wr F.FAB_PWR_HOLD.LEN (if pwr = 0 then 1024 else pwr)
  let s := (((s.wr F.FAB_IMG_INFO.MIN_FSTEP (fieldAt img 0x00C 1)).wr F.FAB_IMG_INFO.GRID_H (fieldAt img 0x00A 1)).wr
    F.FAB_IMG_INFO.GRID_W (fieldAt img 0x009 1)).wr F.FAB_IMG_INFO.TARGET (fieldAt img 0x008 1)
  let s := s.each (List.range 12) fun s k => s.wr F.FAB_IMG_DIGEST.DIGEST (fieldAt (imgDigest img) (4 * k) 4) k
  ((s.wr F.FAB_GLB_STATUS.LOADED 1).markCommitted loadedOffsets).showRest

/-- The fabric holds no image (R126): every region is UNLOADED. -/
def State.fabUnload (s : State) : State :=
  let s := s.each (List.range 16) fun s r => (s.wr F.FAB_RGN_STATUS.STATE rgUnloaded r).setRgn r {}
  (s.wr F.FAB_GLB_STATUS.LOADED 0).wr F.FAB_IMG_INFO.MIN_FSTEP 0

/-- GRIST_WRITE_COMPLETE (R123, R124, R126). `snap`: the snapshot lanes of the clusters' switch schedules (R57), as (step
index, BP, snapshot bit); the image holds no record of them. -/
def execGristWriteComplete (snap : List (BitVec 13 × BitVec 16 × BitVec 7)) (s : State) : Host.Outcome State Fault Refusal :=
  .next <| s.live fun s => s.inPhase 4 fun s l =>
    if s.memWaits (reqHost l.port) (s.partAddr l.part l.ofs) l.length then s else
    let r := s.gristRead l
    if r.2.1 then (r.2.2.fabUnload).gristEnd l stIncomplete
    else (r.2.2.gristWrite r.1 (snap.map fun e => ⟨e.1.toNat, e.2.1.toNat, e.2.2.toNat⟩)).setGrist (some { l with phase := 5 })

/-- The end of a load leaves every defined region STOPPED, and both class step counts 0 (R63, R124). -/
def State.gristRegions (s : State) : State :=
  (s.setFab { s.fab with cReflex := 0, cDeferred := 0 }).each (List.range 16) fun s r =>
    s.wr F.FAB_RGN_STATUS.STATE (if s.rdb F.FAB_RGN_CFG.EN r then rgStopped else rgUnloaded) r

/-- GRIST_CALIBRATE_COMPLETE (R27, R127, R139). `failing`: the die crossings that fail. -/
def execGristCalibrateComplete (failing : BitVec 4) (s : State) : Host.Outcome State Fault Refusal :=
  .next <| s.live fun s => s.inPhase 5 fun s l =>
    let s := (s.setFab { s.fab with drift := [] }).gristRegions.wr F.FAB_GLB_STATUS.XCAL_OK 15
    if failing ≠ 0 then (s.xcalFail failing.toNat).gristEnd l stIncomplete
    else
      let d := (List.range 12).map fun k => s.rd F.FAB_IMG_DIGEST.DIGEST k
      let s := s.event 0x040A sevInfo (sourceId 0x040A 0 0x0020)
        (payload [(16, 4, d.getD 0 0), (20, 4, d.getD 1 0), (24, 4, d.getD 2 0), (28, 1, b2n l.fromHbm + 2 * b2n l.hit),
          (29, 1, s.rd F.FAB_IMG_INFO.TARGET), (30, 1, s.rd F.FAB_IMG_INFO.MIN_FSTEP)])
      s.gristEnd l stDone

end Sys2Proof.Machine
end

