-- ==== Sys2Proof/Machine/Clocks.lean ====
section
/-! DEFINITION. Clocks, power, resets and start-up (R411 to R433, R456 to R458, R486 to R488). -/

namespace Sys2Proof.Machine

open Sys2Proof.Config

/-- The PLL domains: those whose reference is XREF or RCO and that have an SRC field (Table CLK-2). -/
def pllDomains : List Nat := [4, 5, 6, 7, 8, 9, 10, 11, 12, 13, 14, 15, 16, 17, 18, 19, 20, 25]

/-- Events of Table CLK-7. -/
def State.clkEvent (s : State) (code sev unit pay : Nat) (nme : Bool := false) : State :=
  s.event code sev (sourceId code 0 unit) pay nme

/-- The clock monitor is armed while RCO_RDY and XTAL_RDY are 1 (R419). -/
def State.showArmed (s : State) : State := s.wrb F.CLK_STATUS.MON_ARMED (s.rdb F.CLK_STATUS.RCO_RDY && s.rdb F.CLK_STATUS.XTAL_RDY)

/-- Some PLL domains change their input: their SRC is written and their loops settle (R411). -/
def State.moveDomains (s : State) (l : List Nat) (src : Nat) : State :=
  let s := s.each l fun s d => s.wr F.CLK_DOM_CFG.SRC src (d - 1)
  s.setClk { s.clk with settling := l.foldl (fun m d => m ||| (1#26 <<< d)) s.clk.settling }

/-- PLL_SETTLED (R411, R420): the loop of a domain has settled. HBM leaves self-refresh when both its controllers' have. -/
def execPllSettled (domain : BitVec 5) (s : State) : Host.Outcome State Fault Refusal :=
  let d := domain.toNat
  .next <| s.live fun s => s.onlyIf (decide (1 ≤ d ∧ d ≤ 25)) fun s =>
    let s := s.setClk { s.clk with settling := s.clk.settling &&& ~~~(1#26 <<< d) }
    let s := s.onlyIf (pllDomains.contains d || [21, 23, 24].contains d) fun s => s.wr F.CLK_DOM_CFG.LOCKED 1 (d - 1)
    s.onlyIf (s.mem.selfRefresh && !s.clk.settling.getLsbD 19 && !s.clk.settling.getLsbD 20) fun s =>
      (s.setMem { s.mem with selfRefresh := false }).serveHeld

/-! ### Qualification, the monitor and failover (R412 to R422) -/

/-- The strap delay S in ticks (R413). -/
def State.strapDelay (s : State) : Nat := 2 ^ s.rd F.CLK_STRAP.XSTART * 1000000

/-- CRYSTAL_START_DELAY_EXPIRY (R414). -/
def execCrystalStartDelayExpiry (s : State) : Host.Outcome State Fault Refusal :=
  .next <| s.live fun s => s.onlyIf (decide (s.strapDelay ≤ s.now)) fun s =>
    s.setClk { s.clk with strapDone := true }

/-- A window's count lies within 6 % (R414). -/
def xrefOk (count : Nat) : Bool := decide (1003 ≤ count ∧ count ≤ 1130)

/-- XTAL_RDY is set: for the first time with the start-up switch of every PLL domain and the TB to XREF (R414, R417). -/
def State.qualify (s : State) : State :=
  let first := !s.clk.switched
  let s := (s.wr F.CLK_STATUS.XTAL_RDY 1).showArmed
  let s := s.setClk { s.clk with windows := 0, switched := true, failedOver := false }
  s.onlyIf first fun s => (s.moveDomains pllDomains 0).wr F.GLB_STATUS.TB_DEGRADED 0

/-- XREF has failed (R420): the failover. -/
def State.failXref (s : State) (count kind : Nat) : State :=
  let s := ((s.wr F.CLK_STATUS.XTAL_RDY 0).showArmed.wr F.CLK_STATUS.XREF_FAILED 1).wr F.CLK_MON.XCOUNT count
  let s := s.moveDomains (pllDomains.filter fun d => s.rd F.CLK_DOM_CFG.SRC (d - 1) == 0) 1
  let s := s.wr F.GLB_STATUS.TB_DEGRADED 1
  let hbm := s.clk.settling.getLsbD 19 || s.clk.settling.getLsbD 20
  let s := (s.setClk { s.clk with windows := 0, failedOver := true }).setMem { s.mem with selfRefresh := hbm }
  let s := s.wr F.CLK_NME.XREF_FAIL 1
  (s.clkEvent 0x0101 sevWarn 0 (payload [(16, 2, count), (18, 1, kind)]) true).clockFail

/-- XREF_WINDOW_END (R414, R419, R421): four windows in range qualify XREF, 1,024 after a failover; an armed monitor fails
it on one out of range. -/
def execXrefWindowEnd (count : BitVec 11) (s : State) : Host.Outcome State Fault Refusal :=
  let n := count.toNat
  .next <| s.live fun s => s.onlyIf (s.clk.strapDone && !s.clk.rcoFailed) fun s =>
    let s := s.wr F.CLK_MON.XCOUNT n
    if s.rdb F.CLK_STATUS.MON_ARMED then s.onlyIf (!xrefOk n) fun s => s.failXref n 0
    else
      let w := if xrefOk n then s.clk.windows + 1 else 0
      let s := s.setClk { s.clk with windows := w }
      s.onlyIf (!s.rdb F.CLK_STATUS.XTAL_RDY && decide ((if s.clk.failedOver then 1024 else 4) ≤ w)) State.qualify

/-- XREF_NO_EDGE_DETECTION (R419): eight RCO cycles without an edge; `count`: that of the window in progress. -/
def execXrefNoEdgeDetection (count : BitVec 11) (s : State) : Host.Outcome State Fault Refusal :=
  .next <| s.live fun s => s.onlyIf (s.rdb F.CLK_STATUS.MON_ARMED) fun s => s.failXref count.toNat 1

/-- XTAL_TIMEOUT (R416): 4 × S after power-on reset release without qualification. -/
def execXtalTimeout (s : State) : Host.Outcome State Fault Refusal :=
  .next <| s.live fun s =>
    s.onlyIf (decide (4 * s.strapDelay ≤ s.now) && !s.clk.switched && !s.rdb F.CLK_STATUS.XTAL_TIMEOUT) fun s =>
      (s.wr F.CLK_STATUS.XTAL_TIMEOUT 1).clkEvent 0x0103 sevWarn 0 0

/-- AON_PERIOD_END (R412, R422): the RCO count of the period, and whether the three reference clocks are present within 6 %. -/
def execAonPeriodEnd (count : BitVec 11) (p0 p1 lref : Bool) (s : State) : Host.Outcome State Fault Refusal :=
  let n := count.toNat
  .next <| s.live fun s =>
    let s := s.wr F.CLK_MON.RCOCOUNT n
    let s := ((s.wrb F.CLK_STATUS.P0REF_RDY p0).wrb F.CLK_STATUS.P1REF_RDY p1).wrb F.CLK_STATUS.LREF_RDY lref
    let out := decide (n < 1318 ∨ 1611 < n)
    let was := s.clk.rcoFailed
    let s := (s.wrb F.CLK_STATUS.RCO_RDY (decide (1377 ≤ n ∧ n ≤ 1552))).showArmed
    let s := s.setClk { s.clk with rcoFailed := out, windows := if out then 0 else s.clk.windows }
    s.onlyIf (out && !was) fun s =>
      (s.wr F.CLK_NME.RCO_FAIL 1).clkEvent 0x0102 sevWarn 0 (payload [(16, 2, n)]) true

/-- A write to CLK_NME: a bit written 1 is cleared (R423). -/
def State.nmeWrite (s : State) (v : Nat) : State :=
  let s := s.onlyIf (bit v 0) fun s => s.wr F.CLK_NME.XREF_FAIL 0
  s.onlyIf (bit v 1) fun s => s.wr F.CLK_NME.RCO_FAIL 0

/-- CLK_NME_CLEAR (R423). -/
def execClkNmeClear (value : BitVec 32) (s : State) : Host.Outcome State Fault Refusal :=
  .next (s.onlyIf (s.bar0Open 0x10008) fun s => s.nmeWrite value.toNat)

/-! ### Power and temperature (R426, R427) -/

/-- The frequency setting of the SCI clocks, in units of 100 MHz: the highest of the four. -/
def State.sciFreq (s : State) : Nat := ([5, 6, 7, 8].map fun d => s.rd F.CLK_DOM_CFG.FREQ d / 100).foldl max 0

/-- STAGE and SCI_NOW follow the measures in force. -/
def State.showPower (s : State) : State :=
  let f := s.sciFreq
  let st := if s.clk.stage3 then 3 else if s.clk.ceiling < f then 2 else if s.clk.holds then 1 else 0
  (s.wr F.CLK_PWR_STAT.STAGE st).wr F.CLK_PWR_STAT.SCI_NOW (min f s.clk.ceiling)

/-- The cap ceiling of the SCI clocks changes; the cores' cycle counts are taken first. -/
def State.setCeiling (s : State) (v : Nat) : State :=
  let s := s.each (List.range 64) State.countCore
  s.setClk { s.clk with ceiling := v }

/-- Measured power exceeds the cap: the next measure (R426). -/
def State.powerOver (s : State) (power : Nat) : State :=
  let eff := min s.sciFreq s.clk.ceiling
  let s := s.setClk { s.clk with lowRun := 0 }
  if !s.clk.holds then s.setClk { s.clk with holds := true }
  else if s.rd F.CLK_PWR_CAP.SCI_MIN < eff then s.setCeiling (eff - 1)
  else if s.clk.stage3 then s
  else (s.setClk { s.clk with stage3 := true }).clkEvent 0x0105 sevWarn 0
    (payload [(16, 4, power), (20, 2, s.rd F.CLK_PWR_CAP.CAP)])

/-- Ten windows at or below CAP − 2 W: the last measure taken is undone by one step (R426). -/
def State.powerUndo (s : State) : State :=
  let s := s.setClk { s.clk with lowRun := 0 }
  if s.clk.stage3 then s.setClk { s.clk with stage3 := false }
  else if s.clk.ceiling < s.sciFreq then s.setCeiling (s.clk.ceiling + 1)
  else s.setClk { s.clk with holds := false, ceiling := 16 }

/-- POWER_WINDOW_END (R426, R427): the power of the window in units of 10 mW, and its hottest reading. -/
def execPowerWindowEnd (power temp : BitVec 16) (s : State) : Host.Outcome State Fault Refusal :=
  let p := power.toNat
  .next <| s.live fun s =>
    let s := (s.wr F.CLK_PWR_STAT.POWER p).wr F.CLK_TEMP.TJ temp.toNat
    let cap := 100 * s.rd F.CLK_PWR_CAP.CAP
    let s :=
      if cap < p then s.powerOver p
      else if p + 200 ≤ cap then
        (if 10 ≤ s.clk.lowRun + 1 then s.powerUndo else s.setClk { s.clk with lowRun := s.clk.lowRun + 1 })
      else s.setClk { s.clk with lowRun := 0 }
    let s := s.showPower
    let due := match s.clk.warnAt with
      | some t => decide (t + 1000000000 ≤ s.now)
      | none => true
    s.onlyIf (decide ((8 * s.rd F.CLK_TEMP.TWARN : Int) ≤ temp.toInt) && due) fun s =>
      (s.setClk { s.clk with warnAt := some s.now }).clkEvent 0x0106 sevWarn 0 (payload [(16, 2, temp.toNat)])

/-- Both ports are lost with the device, which raises nothing (R427, R487). -/
def State.portsDown (s : State) : State :=
  let s := s.wr F.HST_STATUS.PORT_UP 0
  s.each (List.range 256) State.showRing

/-- TEMPERATURE_TRIP (R427, R103, R159): everything but AON and RCO stops, clock outputs low. DM, exchange latches and TLQs are
undefined from here. -/
def execTemperatureTrip (s : State) : Host.Outcome State Fault Refusal :=
  .next <| s.live fun s =>
    let s := s.unreleaseAll.dcoStop.elaHoldAll.portsDown
    let seed := s.free
    let s := (s.setFab { s.fab with dm := [], latches := [], undef := some seed }).burn
    let s := s.each (List.range 64) fun s q => s.setTlq q (freeQueue seed q)
    s.heartbeatLow.setClk { s.clk with tripped := true, thermtrip := true, tripPending := true }

/-! ### Gates and STANDBY (R348, R424, R425) -/

/-- The bits of CLK_GATE_STAT.OPEN and CLK_GATE_BANK for a block. -/
def State.showOpen (s : State) (b : Nat) (v : Nat) : State :=
  if b < 0x20 then s.wr F.CLK_GATE_STAT.OPEN (setBits (s.rd F.CLK_GATE_STAT.OPEN) (b % 16) (b % 16) v)
  else if b < 0x30 then s.wr F.CLK_GATE_STAT.OPEN (setBits (s.rd F.CLK_GATE_STAT.OPEN) (4 + b % 16) (4 + b % 16) v)
  else if b < 0x50 then s.wr F.CLK_GATE_BANK_LO.BANKS (setBits (s.rd F.CLK_GATE_BANK_LO.BANKS) (b - 0x30) (b - 0x30) v)
  else s.wr F.CLK_GATE_BANK_HI.BANKS (setBits (s.rd F.CLK_GATE_BANK_HI.BANKS) (b - 0x50) (b - 0x50) v)

/-- PSTATE reads STANDBY once no gate of a die or island is pending (R425). -/
def State.standbyReached (s : State) : State :=
  s.onlyIf (s.rd F.CLK_STATUS.PSTATE == 2 && !s.mem.gates.any fun g => decide (g < 0x30)) fun s => s.wr F.CLK_STATUS.PSTATE 1

/-- A block loses its power, and its memories their contents (R348, R425). -/
def State.powerOff (s : State) (b : Nat) : State :=
  let s := s.setMem { s.mem with off := b :: s.mem.off }
  if b < 0x20 then
    let here (tile : Nat) : Bool := tileDie (s.physTile tile) == b - 0x10
    (s.setFab { s.fab with
      istore := s.fab.istore.filter fun e => !here (e.1 / 8192 / 1024)
      dm := s.fab.dm.filter fun e => !here (e.1 / 256 / 1024) })
  else if b < 0x30 then
    s.each (List.range 16) fun s k =>
      let n := 16 * (b - 0x20) + k
      (s.setCore n { s.core n with x := [], y := [], pram := [], pageObj := [], pageUse := [] }).wr F.SC_STATUS.VALID 0 n
  else
    ((s.bankClear (b - 0x30)).wr F.MEM_BANK_STAT.STATE 3 (b - 0x30)).wr F.MEM_BANK_STAT.OWNER 0 (b - 0x30)

/-- Gate requests for some blocks (R424): from here on their routers hold what is new. -/
def State.gateRequest (s : State) (l : List Nat) : State :=
  (s.setMem { s.mem with gates := s.mem.gates ++ l }).setClk { s.clk with
    gateAt := l.foldl (fun m b => Sparse.insert m b s.now) s.clk.gateAt }

/-- A gate request is no longer pending. -/
def State.gateEnds (s : State) (b : Nat) : State :=
  (s.setMem { s.mem with gates := s.mem.gates.erase b }).setClk { s.clk with gateAt := Sparse.erase s.clk.gateAt b }

/-- The clock of a block in MHz: the step clock of a die, the effective clock of an island, the hub network's of a bank. -/
def State.blockMHz (s : State) (b : Nat) : Nat := s.domMHz (if b < 0x20 then b - 0x10 + 13 else if b < 0x30 then b - 0x20 + 6 else 5)

/-- 4,096 cycles of a block's clock have passed since its gate request (R424). -/
def State.gateDue (s : State) (b : Nat) : Bool :=
  decide (4096 * 1000 ≤ (s.now - Sparse.get (fun _ => 0) s.clk.gateAt b) * s.blockMHz b)

/-- GATE_APPLIED (R424): the block's interface is idle. Held transactions complete as non-owner accesses, counted in DROPS. -/
def execGateApplied (block : BitVec 8) (s : State) : Host.Outcome State Fault Refusal :=
  let b := block.toNat
  .next <| s.live fun s => s.onlyIf (s.mem.gates.contains b) fun s =>
    let s := (s.gateEnds b).showOpen b 0
    (s.powerOff b).standbyReached.serveHeld

/-- GATE_TIMEOUT (R424): 4,096 cycles of the block's clock after its request the gate is not applied, and what it held is
released. A bank is GATE_OPEN with no owner. -/
def execGateTimeout (block : BitVec 8) (s : State) : Host.Outcome State Fault Refusal :=
  let b := block.toNat
  .next <| s.live fun s => s.onlyIf (s.mem.gates.contains b && s.gateDue b) fun s =>
    let s := (s.gateEnds b).showOpen b 1
    let s := s.onlyIf (decide (0x30 ≤ b)) fun s =>
      (s.wr F.MEM_BANK_STAT.STATE 6 (b - 0x30)).wr F.MEM_BANK_STAT.OWNER 0 (b - 0x30)
    ((s.sat F.CLK_GATE_STAT.TIMEOUTS).clkEvent 0x0104 sevWarn b 0).standbyReached.serveHeld

/-- The dies and islands, as gate requests name them. -/
def gateBlocks : List Nat := [0x10, 0x11, 0x12, 0x13, 0x20, 0x21, 0x22, 0x23]

/-- A committed STANDBY (R425): entry puts the links' transmitters to SLEEP and requests the
gates of the dies and islands; exit powers them. -/
def State.standbyCommitted (s : State) (was now : Bool) : State :=
  if now && !was then
    let s := s.each (List.range 16) fun s k => s.wr F.LNK_STAT.TX_PWR 2 k
    (s.gateRequest gateBlocks).wr F.CLK_STATUS.PSTATE 2
  else if was && !now then
    ((s.setMem { s.mem with gates := s.mem.gates.filter fun g => !gateBlocks.contains g }).wr F.CLK_STATUS.PSTATE 3).serveHeld
  else s

/-- The fabric without an image: step counts go on, every region is UNLOADED (R425, R429). -/
def State.fabEmpty (s : State) : State :=
  (s.setFab { g := s.fab.g, cReflex := s.fab.cReflex, cDeferred := s.fab.cDeferred, drift := s.fab.drift })

/-- The fabric after its dies have been off: no image is loaded. The library stays (R137), and so does a load that has not reached
its point of no return; one that has completes INCOMPLETE (R126, notes/assumptions/140.md). -/
def State.fabWake (s : State) : State :=
  let old := s.fab
  let s := s.each (List.range 64) fun s q => s.setTlq q []
  let s := s.fabEmpty
  let s := s.setFab { s.fab with vlib := old.vlib, vlibUse := old.vlibUse, quiet := old.quiet, samples := old.samples }
  let s := s.fabUnload
  match old.load with
  | some l => if l.phase < 4 then s.setFab { s.fab with load := some l } else s.gristEnd l stIncomplete
  | none => s

/-- STANDBY_EXIT_COMPLETE (R425): dies and islands are ON, no region is loaded, the core memories are cleared. -/
def execStandbyExitComplete (s : State) : Host.Outcome State Fault Refusal :=
  .next <| s.live fun s => s.onlyIf (s.rd F.CLK_STATUS.PSTATE == 3) fun s =>
    let s := (s.setMem { s.mem with off := s.mem.off.filter fun g => !gateBlocks.contains g }).wr F.CLK_STATUS.PSTATE 0
    let s := (s.wr F.CLK_GATE_STAT.OPEN 0).fabWake
    s.each (List.range 64) fun s n =>
      (s.setCore n { s.core n with x := [], y := [], pram := [], pageObj := [], pageUse := [] }).wr F.SC_STATUS.VALID 0 n

/-! ### Timebase pulses (R431) -/

/-- TB_PULSE (R431): pulse i goes high for 8 ticks from its latest instant. -/
def execTbPulse (i : BitVec 2) (s : State) : Host.Outcome State Fault Refusal :=
  let k := i.toNat
  .next <| s.live fun s =>
    let phase := s.rd64 F.CLK_TBP_PHASE_LO.PHASE k
    let at_ := s.now - (s.now - phase) % s.rd F.CLK_TBP_PERIOD.PERIOD k
    s.onlyIf (s.rdb F.CLK_TBP_CFG.EN k && decide (phase ≤ s.now) && decide (s.now < at_ + 8)
        && decide (Sparse.get (fun _ => 0) s.clk.pulseAt k ≤ at_)) fun s =>
      (s.setClk { s.clk with pulses := Sparse.insert s.clk.pulses k (at_ + 8) }).elaAgain

/-! ### Boot (R457, R458) -/

/-- The checks of a firmware image, read by (offset, length): 0, or the cause of Table SEC-11. -/
def State.fwCheck (s : State) (get : Nat → Nat → List Byte) : Nat :=
  let h := get 0 128
  let n := fieldAt h 0x10 4
  if fieldAt h 0 4 ≠ 0x4D495746 ∨ fieldAt h 4 2 ≠ 1 ∨ n % 16 ≠ 0 ∨ 4 * 2 ^ 20 - 384 < n then 2
  else if fieldAt h 8 1 < s.rd F.SEC_BOOT.SVN_CTR then 3
  else
    let sig := get (128 + n) 256
    if hash (slice sig 16 97) ≠ padTo 48 vpkHash then 4
    else if s.sigOk 0x47495346 [0] (hash (get 0 (128 + n))) sig then 0 else 5

/-- The digest of a firmware image that passes: its measurement (R457). -/
def fwMeasure (get : Nat → Nat → List Byte) : List Byte := hash (get 0 (128 + fieldAt (get 0 128) 0x10 4))

/-- Key and identity as the boot derives them (R466, Table SEC-11). -/
def State.bootIdentity (s : State) : State :=
  let h := hash identityPub
  s.each (List.range 12) fun s k => s.wr F.SEC_ID_HASH.HASH (fieldAt h (4 * k) 4) k

/-- The firmware runs (R457, R195, R198, R427). -/
def State.bootOk (s : State) (get : Nat → Nat → List Byte) : State :=
  let s := (s.wr F.SEC_BOOT.STATE 1).wr F.SEC_BOOT.CAUSE 0
  let s := (s.wr F.SEC_BOOT.FW_SVN (fieldAt (get 0 128) 8 1)).wr F.GLB_STATUS.BOOT_OK 1
  let s := (s.setSec { s.sec with fwMeas := fwMeasure get })
  let s := s.onlyIf s.clk.tripPending fun s =>
    (s.setClk { s.clk with tripPending := false }).clkEvent 0x0107 sevFatal 0 (payload [(16, 2, s.rd F.CLK_TEMP.TJ)])
  let s := (s.setPair { s.pair with hbAt := s.now, flitAt := s.now })
  s.bootKeyEvents.bootLoad

/-- BOOT_COMPLETE (R457, R458): the boot ROM has ended. `flash`: none without a flash, else its mode (R193); `readFail`: the
flash could not be read. -/
def execBootComplete (flash : Option Bool) (readFail : Bool) (s : State) : Host.Outcome State Fault Refusal :=
  .next <| s.live fun s => s.onlyIf (!s.rdb F.GLB_STATUS.BOOT_OK && s.rd F.SEC_BOOT.STATE == 0) fun s =>
    let s := (s.wrb F.CFG_FLASH.PRESENT flash.isSome).wrb F.CFG_FLASH.MODE (flash == some true)
    let s := s.bootIdentity
    let cause := if flash.isNone then 1 else if readFail then 6 else s.fwCheck s.flashRead
    if cause = 0 then s.bootOk s.flashRead
    else (s.wr F.SEC_BOOT.STATE 2).wr F.SEC_BOOT.CAUSE cause

/-- HBM_TRAINING_COMPLETE (R358, R430): begun when BOOT_OK is 1 and XTAL_RDY or XTAL_TIMEOUT is set. -/
def execHbmTrainingComplete (s : State) : Host.Outcome State Fault Refusal :=
  .next <| s.live fun s =>
    s.onlyIf (s.rdb F.GLB_STATUS.BOOT_OK && (s.rdb F.CLK_STATUS.XTAL_RDY || s.rdb F.CLK_STATUS.XTAL_TIMEOUT)) fun s =>
      (s.wr F.MEM_HBM_STAT.READY 3).setClk { s.clk with hbmTrained := true }

/-- DEVICE_READY (R430, R458): kiln, boot and training have ended; in RECOVERY the kiln alone. -/
def execDeviceReady (s : State) : Host.Outcome State Fault Refusal :=
  .next <| s.live fun s =>
    s.onlyIf (s.mem.kiln.isNone && (s.recovery || (s.rdb F.GLB_STATUS.BOOT_OK && s.clk.hbmTrained))) fun s =>
      s.wr F.GLB_STATUS.READY 1

/-! ### Power-on reset (R428, R430, R487) -/

/-- Registers that outlive the main supplies: fuses and the VBAT domain (R197, R198, R455). -/
def State.lastingRegs (s t : State) : State :=
  let copy (t : State) (f : Field) (i : Nat) : State := t.wr f (s.rd f i) i
  let t := copy (copy (copy t F.CFG_KEY_STATUS.VBAT_LOST 0) F.CFG_KEY_STATUS.TAMPER_SEEN 0) F.CFG_KEY_STATUS.KEY1_VALID 0
  let t := copy (copy (copy t F.CFG_KEY_STATUS.KEY0_VALID 0) F.CFG_KEY0_KCV.KCV 0) F.CFG_KEY1_KCV.KCV 0
  let t := copy (copy (copy t F.CFG_FUSE.KEY0_PROG 0) F.CFG_FUSE.KEY1_DIS 0) F.CFG_FUSE.ENC_ONLY 0
  let t := copy (copy (copy t F.SEC_BOOT.SVN_CTR 0) F.SEC_FUSE_STAT.CKH_REVOKE 0) F.SEC_FUSE_STAT.CKH_PROG 0
  let t := copy (copy (copy t F.SEC_FUSE_STAT.DBG_DIS 0) F.SEC_FUSE_STAT.KEY1_DIS 0) F.SEC_FUSE_STAT.ENC_ONLY 0
  let t := copy (copy (copy t F.SEC_FUSE_STAT.REQ_CODE 0) F.SEC_FUSE_STAT.REQ_STREAM 0) F.SEC_FUSE_STAT.REQ_GRIST 0
  copy t F.SEC_FUSE_STAT.VPK_PROG 0

/-- POWER_ON_RESET_RELEASE (R413, R428, R430): everything outside the VBAT domain, the fuses and the flash is as
`State.reset` has it; the straps are sampled and the power cycle's nonce is drawn (R475). -/
def execPowerOnResetRelease (xstart : BitVec 3) (s : State) : Host.Outcome State Fault Refusal :=
  let s := s.fusePartly.flashPartly
  let t : State := { State.reset with pending := s.pending, free := s.free, hostMem := s.hostMem }
  let t := s.lastingRegs t
  let t := { t with
    ela := { t.ela with key0 := s.ela.key0, key1 := s.ela.key1, owed := s.ela.owed }
    sec := { t.sec with ckh := s.sec.ckh, flash := s.sec.flash }
    host := { t.host with pfw := s.host.pfw, hsEarly := s.host.hsEarly, txOn := s.host.hsEarly } }
  .next ((t.wr F.CLK_STRAP.XSTART xstart.toNat).wr64 F.SEC_BOOT_NONCE_LO.NONCE (freeNat t.free % 2 ^ 64)).burn

/-- RAIL_LOSS (R487): power-on reset is asserted; pins, clock outputs and pair signals let go, both ports are lost, and no
event is raised. -/
def execRailLoss (s : State) : Host.Outcome State Fault Refusal :=
  let s := s.unreleaseAll.dcoHold
  let s := (s.setPins { s.pin with dcoPad := (List.range 8).map fun k => (k, 1) })
  let s := (s.setPair { s.pair with sel := false, hbOut := false }).portsDown
  .next (s.setClk { s.clk with por := true })

/-! ### Warm reset (R429) -/

/-- A register after a warm reset: the fields marked as kept, and the others at their reset values. -/
def RegDef.warm (r : RegDef) (v : Nat) : Nat :=
  r.fields.foldl (fun n f => setBits n f.hi f.lo (if f.kept then bits v f.hi f.lo else f.reset)) 0

/-- The register file after a warm reset. -/
def warmRegs (m : List (Nat × BitVec 32)) : List (Nat × BitVec 32) :=
  m.foldl (fun l e => Sparse.set regReset l e.1
    (match regRow e.1 with
     | some r => BitVec.ofNat 32 (r.warm e.2.toNat)
     | none => 0)) []

/-- Every outstanding command on an enabled ring of a port that is not lost completes ABORTED. -/
def State.abortOutstanding (s : State) : State :=
  let l := s.host.cmds.filter fun c => s.rdb F.HST_RING_CFG.EN c.ref.ring.toNat && s.portUp (s.ringPort c.ref.ring.toNat)
  s.each l fun s c => s.complete c.ref stAborted

/-- The banks after a warm reset: owners return to KILN; a FAILED bank stays FAILED, a kiln run goes on, an OFF bank is
powered on and cleared, a GATE_OPEN one is READY. `st`: the state of each bank before. -/
def State.warmBank (s : State) (st : List Nat) (b : Nat) : State :=
  match st.getD b 0 with
  | 2 => s.wr F.MEM_BANK_STAT.STATE 2 b
  | 3 => (s.setMem { s.mem with off := s.mem.off.erase (0x30 + b) }).wr F.MEM_BANK_STAT.STATE 2 b
  | 4 => s.wr F.MEM_BANK_STAT.STATE 4 b
  | 5 => (s.wr F.MEM_BANK_STAT.STATE 5 b).wr F.MEM_BANK_STAT.OWNER 0 b
  | _ => s

/-- What a warm reset leaves of the memory system: contents, remapping, failed banks, the power of dies and islands, and a
kiln run, which completes no command any more. -/
def MemSt.warm (m : MemSt) : MemSt :=
  { bank := m.bank, hbm := m.hbm, hbmPoison := m.hbmPoison, hbmMark := m.hbmMark, failed := m.failed, off := m.off
    gates := m.gates.filter fun g => decide (g < 0x30), selfRefresh := m.selfRefresh
    kiln := m.kiln.map fun k => { k with ref := none } }

/-- A warm reset (R429): outstanding commands first, then every register not marked as kept; each link trains (R370). -/
def State.warmReset (s : State) (cause : Nat) : State :=
  let s := s.abortOutstanding
  let st := (List.range 64).map fun b => s.rd F.MEM_BANK_STAT.STATE b
  let up := s.rd F.HST_STATUS.PORT_UP
  let ready := s.rd F.GLB_STATUS.READY
  let slow := s.rd F.GLB_STATUS.TB_DEGRADED
  let cores := s.cores.map fun e => (e.1, ({ x := e.2.x, y := e.2.y, pram := e.2.pram, cyc := e.2.cyc } : CoreSt))
  let t : State := { s with
    regs := warmRegs s.regs
    host := { lostAt := s.host.lostAt, pfw := s.host.pfw, hsEarly := s.host.hsEarly, txOn := s.host.txOn }
    mem := s.mem.warm
    fab := (s.fabEmpty).fab, pin := {}, cores := cores.filter fun e => e.2 != {}, dsp := {}, pair := {}
    lnk := { links := if s.clk.ltxLocked then (List.range 16).map fun k => (k, { noLockAt := s.now, lastSet := some (0x1E, 0) }) else [] }
    trc := [], trcNext := 0, trcCores := 0
    ela := { key0 := s.ela.key0, key1 := s.ela.key1, owed := s.ela.owed, inp := s.ela.inp }
    cap := {}, rad := { taps := s.rad.taps }, dec := {}
    sec := { ckh := s.sec.ckh, flash := s.sec.flash, jtag := s.sec.jtag, boundary := s.sec.boundary
             flashOp := s.sec.flashOp.map fun o => { o with ref := none }
             fuseOp := s.sec.fuseOp.map fun o => { o with ref := none } }
    clk := { s.clk with tripped := false, hbmTrained := false } }
  let t := (List.range 64).foldl (fun t b => t.warmBank st b) t
  let t := ((t.wr F.HST_STATUS.PORT_UP up).wr F.GLB_STATUS.READY ready).wr F.GLB_STATUS.TB_DEGRADED slow
  let t := t.wrb F.MEM_KILN_STAT.BUSY t.mem.kiln.isSome
  let t := t.onlyIf s.clk.ltxLocked fun t => (List.range 16).foldl (fun t k => t.wr F.LNK_STAT.STATE 1 k) t
  (t.wr F.CLK_RST_CAUSE.CAUSE cause).showReleases.showDco

/-- WARM_RESET (R427, R428, R429): cause 1 SYS_RST_N, from its rising edge, 2 a write of 1 to CLK_RST_CTRL.WARM from either
port. Only SYS_RST_N ends a thermal stop, and that recovery is cause 3. -/
def execWarmReset (register : Bool) (s : State) : Host.Outcome State Fault Refusal :=
  .next (
    if s.clk.por then s
    else if s.clk.tripped then (if register then s else s.warmReset 3)
    else if register then s.onlyIf (s.bar0Open 0x10010) fun s => s.warmReset 2
    else s.warmReset 1)

end Sys2Proof.Machine
end

