-- ==== Sys2Proof/Machine/Pair.lean ====
section
/-! DEFINITION. Redundant pairs (R434 to R454): heartbeat, mirror flits, replay records, casks, takeover, joining. -/

namespace Sys2Proof.Machine

open Sys2Proof.Config

/-- STATE of the pair (Table PAIR-6). -/
abbrev prOff : Nat := 0
abbrev prJoining : Nat := 1
abbrev prSynced : Nat := 2
abbrev prHoldover : Nat := 3
abbrev prDegraded : Nat := 4

/-- PAIR_STAT.STATE is set. -/
def State.pairState (s : State) (v : Nat) : State := s.wr F.PAIR_STAT.STATE v

/-- An event of Table PAIR-7. -/
def State.pairEvent (s : State) (code sev a b : Nat) : State :=
  s.event code sev (sourceId code 0 0) (payload [(16, 8, a), (24, 8, b)])

/-- The reflex step count as replay records carry it. -/
def State.step32 (s : State) : Nat := s.fab.cReflex % 2 ^ 32

/-- Step a, of 32 bits, comes before step b. -/
def before32 (a b : Nat) : Bool := decide (a ≠ b) && decide ((b + 2 ^ 32 - a) % 2 ^ 32 < 2 ^ 31)

/-! ### Outputs (R436, R447, R448) -/

/-- The outputs follow what holds them, and PAIR_SEL is driven. -/
def State.pairShow (s : State) (sel : Bool) : State := (s.setPair { s.pair with sel := sel }).showReleases.showDco

/-- Pair commands that still wait can no longer end otherwise, and complete INCOMPLETE (R43, notes/assumptions/139.md). -/
def State.pairDrop (s : State) : State :=
  let p := s.pair
  ((s.setPair { p with join := none, joinStep := none, failover := none, yielding := false }).completeOpt p.join
    stIncomplete).completeOpt p.failover stIncomplete

/-- The device lets go of the UUT: STANDBY in state DEGRADED, outputs held off, PAIR_SEL low (R448). -/
def State.pairYield (s : State) : State :=
  let s := s.pairDrop
  (((s.wr F.PAIR_STAT.ROLE 1).pairState prDegraded).setPair { s.pair with releaseAt := none, words := [] }).pairShow false

/-- A takeover (R447): the role is PRIMARY, PAIR_FAILOVER is raised, PAIR_SEL goes high, own samplers are used from the
next step; the outputs stay held off until the designated region ends a frame at or after F + SEL_T. The release TB that the
event's payload holds lies ahead of the event, so it is a free value. -/
def State.pairTakeover (s : State) : State :=
  let j := s.pair.join
  let s := ((s.wr F.PAIR_STAT.ROLE 0).pairState prDegraded).completeOpt j stIncomplete
  let s := s.setPair { s.pair with
    releaseAt := some (s.now + s.rd F.PAIR_TMO.SEL_T), handover := none, recs := [], gwIn := [], mbIn := [], commitIn := [], words := [],
    join := none, joinStep := none, stateIn := [], parts := [], casks := [], theirs := [] }
  ((s.pairEvent 0x0B03 sevWarn (freeNat s.free % 2 ^ 64) 0).burn).pairShow true

/-- The designated region has ended a frame at or after the instant of a takeover: the outputs are released, and a
PAIR_FAILOVER completes with the TB of release (R447, R452). -/
def State.pairReleased (s : State) : State :=
  match s.pair.releaseAt with
  | some t =>
    if s.now < t then s else
    let f := s.pair.failover
    let s := (s.setPair { s.pair with releaseAt := none, failover := none }).pairShow true
    s.completeOpt f stDone s.now
  | none => s

/-- A committed PAIR_CFG (R434): setting EN sets the role, clearing it ends pair mode and
leaves the role. `was`: EN before. -/
def State.pairCommitted (s : State) (was : Bool) : State :=
  let now := s.rdb F.PAIR_CFG.EN
  let s := s.wrb F.GLB_STATUS.PAIR_MODE now
  if now && !was then
    let role := s.rd F.PAIR_CFG.ROLE
    (((s.wr F.PAIR_STAT.ROLE role).pairState prOff).setPair { s.pair with hbAt := s.now, flitAt := s.now }).pairShow (role == 0)
  else if was && !now then
    (((s.pairDrop.pairState prOff).wr F.PAIR_STAT.PARTNER_HB 0).setPair {}).pairShow false
  else s

/-! ### Heartbeat (R435, R446) -/

/-- PAIR_HB_OUT toggles (R435). -/
def State.heartbeatOn (s : State) : Bool :=
  s.alive && s.rdb F.PAIR_CFG.EN && s.rdb F.GLB_STATUS.BOOT_OK && !s.rdb F.HST_STATUS.FROZEN && !s.recovery

/-- HEARTBEAT_TOGGLE (R435). -/
def execHeartbeatToggle (s : State) : Host.Outcome State Fault Refusal :=
  .next (s.setPair { s.pair with hbOut := s.heartbeatOn && !s.pair.hbOut })

/-- PAIR_HB_IN_EDGE (R435, R446): ignored until BOOT_OK. -/
def execPairHbInEdge (s : State) : Host.Outcome State Fault Refusal :=
  .next <| s.live fun s => s.onlyIf (s.rdb F.GLB_STATUS.BOOT_OK) fun s =>
    (s.wr F.PAIR_STAT.PARTNER_HB 1).setPair { s.pair with hbAt := s.now, hbFault := false }

/-- HB_TO in ticks. -/
def State.hbTo (s : State) : Nat := s.rd F.PAIR_TMO.HB_TO * 1000

/-- No edge of PAIR_HB_IN for HB_TO. -/
def State.hbLost (s : State) : Bool :=
  s.rdb F.PAIR_CFG.EN && s.rdb F.GLB_STATUS.BOOT_OK && decide (s.pair.hbAt + s.hbTo ≤ s.now)

/-- HEARTBEAT_TIMEOUT (R446): the partner's heartbeat is absent; while mirror flits still arrive, PAIR_HB_FAULT is raised
once. -/
def execHeartbeatTimeout (s : State) : Host.Outcome State Fault Refusal :=
  .next <| s.live fun s => s.onlyIf s.hbLost fun s =>
    let s := s.wr F.PAIR_STAT.PARTNER_HB 0
    s.onlyIf (decide (s.now < s.pair.flitAt + s.hbTo) && !s.pair.hbFault) fun s =>
      (s.setPair { s.pair with hbFault := true }).pairEvent 0x0B04 sevWarn 0 0

/-- PAIR_TAKEOVER (R446, R447): neither an edge nor a mirror flit for HB_TO, with AUTO = 1 on a standby. -/
def execPairTakeover (s : State) : Host.Outcome State Fault Refusal :=
  .next <| s.live fun s =>
    s.onlyIf (s.hbLost && decide (s.pair.flitAt + s.hbTo ≤ s.now) && s.rdb F.PAIR_CFG.AUTO && s.rd F.PAIR_STAT.ROLE == 1)
      State.pairTakeover

/-! ### Mirror flits (R443, Table PAIR-2) -/

/-- A MIRROR flit; every SUB but REPLAY and STATE carries the pair sequence in payload byte 59. -/
def State.mirrorFlit (s : State) (sub : Nat) (data : List Byte) : Flit × State :=
  if sub = 1 ∨ sub = 6 then (⟨3, 0, false, sub, padTo 60 data⟩, s)
  else (⟨3, 0, false, sub, padTo 59 data ++ [BitVec.ofNat 8 s.pair.seqOut]⟩,
    s.setPair { s.pair with seqOut := (s.pair.seqOut + 1) % 256 })

/-- The payload of a CONTROL flit. -/
def controlBytes (code step tb : Nat) : List Byte := padTo 4 (leBytes 1 code) ++ leBytes 4 step ++ leBytes 8 tb

/-- A replay record as eight bytes (Table PAIR-3). -/
def recBytes (base : Nat) (r : PairRec) : List Byte :=
  leBytes 8 (r.kind * 2 ^ 60 + (r.step + 2 ^ 32 - base) % 2 ^ 32 % 4096 * 2 ^ 48 + r.data % 2 ^ 48)

/-- The records at the head of what is to be sent that fit one REPLAY flit: seven, within 4,096 steps of the first. -/
def headRecords (base : Nat) : Nat → List PairOut → List PairRec
  | n + 1, .item r :: l => if (r.step + 2 ^ 32 - base) % 2 ^ 32 < 4096 then r :: headRecords base n l else []
  | _, _ => []

/-- The replies at the head that fit one MAILBOX flit. -/
def headReplies : Nat → List PairOut → List (Nat × Nat)
  | n + 1, .mailbox m v :: l => (m, v) :: headReplies n l
  | _, _ => []

/-- The next MIRROR flit of what is to be sent. -/
def State.mirrorNext (s : State) : Option (Flit × State) :=
  let rest (n : Nat) : State := s.setPair { s.pair with out := s.pair.out.drop n }
  match s.pair.out with
  | [] => none
  | .item r :: l =>
    let rs := headRecords r.step 7 (.item r :: l)
    some ((rest rs.length).mirrorFlit 1 (leBytes 4 r.step ++ rs.flatMap (recBytes r.step)))
  | .gateway g ws :: _ =>
    some ((rest 1).mirrorFlit 2 (padTo 8 (leBytes 1 g ++ leBytes 1 ws.length) ++ ws.flatMap (leBytes 8)))
  | .mailbox m v :: l =>
    let rs := headReplies 5 (.mailbox m v :: l)
    some ((rest rs.length).mirrorFlit 3 (padTo 2 (leBytes 1 rs.length) ++ rs.flatMap fun e => leBytes 2 e.1 ++ leBytes 8 e.2))
  | .commit n es :: _ =>
    some ((rest 1).mirrorFlit 4 (padTo 8 (leBytes 2 n) ++ es.flatMap fun e => leBytes 4 e.1 ++ leBytes 4 e.2))
  | .cask q v :: _ => some ((rest 1).mirrorFlit 5 (leBytes 8 q ++ leBytes 8 v))
  | .control c n t :: _ => some ((rest 1).mirrorFlit 0 (controlBytes c n t))
  | .state o d :: _ => some ((rest 1).mirrorFlit 6 (leBytes 4 o ++ d))

/-- CONTROL_FLIT_INTERVAL (R435): a keepalive goes out on mirror link L14 or L15 while it is UP. -/
def execControlFlitInterval (second : Bool) (s : State) : Host.Outcome State Fault Refusal :=
  let k := if second then 15 else 14
  .next <| s.live fun s => s.onlyIf (s.rdb F.PAIR_CFG.EN && s.rd F.LNK_STAT.STATE k == 3) fun s =>
    let r := s.mirrorFlit 0 (controlBytes 0 s.step32 s.now)
    r.2.linkQueue k r.1

/-! ### Receiving (R440, R442) -/

/-- The standby's replay has failed (R442): MIRROR_OVERRUN, DEGRADED. -/
def State.pairOverrun (s : State) (step : Nat) : State := (s.pairEvent 0x0B02 sevError step 0).pairState prDegraded

/-- A record arrives at the standby: late, or kept in step order. -/
def State.pairRecord (s : State) (r : PairRec) : State :=
  let st := s.rd F.PAIR_STAT.STATE
  if s.rd F.PAIR_STAT.ROLE ≠ 1 ∨ !(st = prJoining ∨ st = prSynced ∨ st = prHoldover) then s
  else if st = prHoldover ∨ (st = prSynced ∧ before32 r.step s.step32 = true) then s.pairOverrun r.step
  else
    let r := { r with at_ := s.step32 }
    let s := s.setPair { s.pair with
      recs := (s.pair.recs.takeWhile fun x => !before32 r.step x.step) ++ r :: s.pair.recs.dropWhile fun x => !before32 r.step x.step }
    s.onlyIf (before32 s.pair.upTo r.step) fun s => s.setPair { s.pair with upTo := r.step }

/-- The primary's TB translated to this device's (R438): minus the offset held since the pair became SYNCED. -/
def State.toOwnTb (s : State) (t : Nat) : Nat := (t + 2 ^ 64 - s.pair.ofsHeld % 2 ^ 64) % 2 ^ 64

/-- A CONTROL flit (Table PAIR-2, R448, R451). -/
def State.pairControl (s : State) (d : List Byte) : State :=
  let step := fieldAt d 4 4
  let s := s.onlyIf (before32 s.pair.upTo step) fun s => s.setPair { s.pair with upTo := step }
  match fieldAt d 0 1 with
  | 1 => s.onlyIf (s.rd F.PAIR_STAT.ROLE == 1) fun s => s.setPair { s.pair with handover := some step }
  | 2 => s.onlyIf (s.rd F.PAIR_STAT.ROLE == 0) State.pairYield
  | 3 => s.onlyIf (s.rd F.PAIR_STAT.ROLE == 1) fun s =>
      (s.setPair { s.pair with joinStep := some step, joinWait := 0, stateIn := [], recs := [], upTo := step, words := [] }).pairState prJoining
  | 4 => s.onlyIf (s.rd F.PAIR_STAT.ROLE == 0 && s.rd F.PAIR_STAT.STATE == prJoining) fun s =>
      let j := s.pair.join
      let n := s.pair.joinStep
      ((s.setPair { s.pair with join := none, joinStep := none }).pairState prSynced).completeOpt j stDone (n.getD 0)
  | _ => s

/-- Casks that both devices have are compared (R445). -/
def State.caskCompare (s : State) : State :=
  match s.pair.casks.find? fun c => s.pair.theirs.any fun t => t.1 == c.1 with
  | none => s
  | some c =>
    let t := (s.pair.theirs.find? fun t => t.1 == c.1).getD c
    let s := (s.setPair { s.pair with casks := s.pair.casks.erase c, theirs := s.pair.theirs.erase t }).wr64 F.PAIR_CASK_Q_LO.Q c.1
    if t.2 = c.2 then s
    else
      let s := (s.sat F.PAIR_DIVERGE.COUNT).pairEvent 0x0B01 sevError c.1 t.2
      s.onlyIf (s.rd F.PAIR_STAT.ROLE == 1) fun s => s.pairState prDegraded

/-- What a MIRROR flit carries, once the flits before it in the pair sequence have come. -/
def State.mirrorTake (s : State) (f : Flit) : State :=
  let d := f.data
  match f.sub with
  | 0 => s.pairControl d
  | 1 => s.each (List.range 7) fun s i =>
      let v := fieldAt d (4 + 8 * i) 8
      s.onlyIf (decide (1 ≤ bits v 63 60 ∧ bits v 63 60 ≤ 5)) fun s =>
        s.pairRecord ⟨bits v 63 60, (fieldAt d 0 4 + bits v 59 48) % 2 ^ 32, bits v 47 0, 0⟩
  | 2 => s.setPair { s.pair with gwIn := s.pair.gwIn ++ (List.range (min 6 (fieldAt d 1 1))).map fun i =>
      (fieldAt d 0 1 % 16, fieldAt d (8 + 8 * i) 8) }
  | 3 => s.setPair { s.pair with mbIn := s.pair.mbIn ++ (List.range (min 5 (fieldAt d 0 1))).map fun i =>
      (fieldAt d (2 + 10 * i) 2 % 256, fieldAt d (4 + 10 * i) 8) }
  | 4 => s.setPair { s.pair with commitIn := s.pair.commitIn ++ (List.range 6).map fun i =>
      (fieldAt d (8 + 8 * i) 4, fieldAt d (12 + 8 * i) 4) }
  | 5 => (s.setPair { s.pair with theirs := s.pair.theirs ++ [(fieldAt d 0 8, fieldAt d 8 8)] }).caskCompare
  | 6 =>
    let o := 56 * fieldAt d 0 4
    s.setPair { s.pair with stateIn := padTo (max s.pair.stateIn.length o) s.pair.stateIn |>.take o |> (· ++ slice d 4 56
      ++ s.pair.stateIn.drop (o + 56)) }
  | _ => s

/-- Flits that waited for an earlier one of the sequence. -/
def State.mirrorDrain : Nat → State → State
  | 0, s => s
  | n + 1, s =>
    match s.pair.early.find? fun e => e.1 == s.pair.seqIn with
    | some e => mirrorDrain n ((s.setPair { s.pair with
        early := s.pair.early.erase e, seqIn := (s.pair.seqIn + 1) % 256 }).mirrorTake e.2)
    | none => s

/-- A MIRROR flit is received on a mirror link (R443, R446). -/
def State.mirrorReceive (s : State) (f : Flit) : State :=
  if !s.rdb F.PAIR_CFG.EN then s else
  let s := s.setPair { s.pair with flitAt := s.now }
  if f.sub = 1 ∨ f.sub = 6 then s.mirrorTake f
  else (s.setPair { s.pair with early := s.pair.early ++ [(fieldAt f.data 59 1, f)] }).mirrorDrain 256

/-! ### Commands (R448, R451, R452) -/

/-- PAIR_FAILOVER (R448, R452): a handover waits for the next frame end of the designated region; on the standby RELEASE is
sent and the takeover follows at once. -/
def execPairFailover (ref : CmdRef) (s : State) : Host.Outcome State Fault Refusal :=
  .next <| s.command ref 0x0B01 fun s =>
    let primary := s.rd F.PAIR_STAT.ROLE == 0
    if !s.rdb F.PAIR_CFG.EN || (primary && !s.rdb F.PAIR_STAT.PARTNER_HB) then s.complete ref stRefused
    else if s.pair.failover.isSome then s.complete ref stBusy
    else
      let s := s.setPair { s.pair with failover := some ref, yielding := primary }
      if primary then s else ((s.pairOut (.control 2 s.step32 s.now)).pastPoint ref).pairTakeover

/-- PAIR_JOIN (R451, R452). `same`: the partner is a standby in pair mode whose image and stream are this device's. -/
def execPairJoin (ref : CmdRef) (same : Bool) (s : State) : Host.Outcome State Fault Refusal :=
  .next <| s.command ref 0x0B02 fun s =>
    if !s.rdb F.PAIR_CFG.EN || s.rd F.PAIR_STAT.ROLE != 0 || !s.rdb F.PAIR_STAT.PARTNER_HB || !same then s.complete ref stRefused
    else if s.pair.join.isSome then s.complete ref stBusy
    else s.setPair { s.pair with join := some ref, joinStep := none }

/-! ### The copy (R451) -/

/-- Region registers that the copy takes: the sixteen words of each region. -/
def copyOffsets : List Nat := (List.range 256).map fun k => 0x100000 + 4 * k

/-- Addresses of the words of the cask ranges. -/
def State.caskWords (s : State) (n : Nat) : List Nat :=
  (List.range (s.rd F.PAIR_CASK_RNG_LEN.WORDS n)).map fun k => s.rd F.PAIR_CASK_RNG.BASE n * 16 + 8 * k

/-- The raw 64-bit word at a bank address. -/
def State.rawWord (s : State) (a : Nat) : Nat :=
  let o := a - hbmBytes
  let w := s.bankGet (s.bankKey (o / 2 ^ 21) (o % 2 ^ 21 / 8))
  if w.valid then w.raw else 0

/-- The copy of the fabric state at a step. -/
def State.pairCopy (s : State) : PairCopy :=
  { dm := s.fab.dm, latches := s.fab.latches, regs := copyOffsets.map fun o => (o, s.rdReg o)
    trigs := (List.range 16).filterMap fun r => (s.rgn r).accepted.map fun t => (r, t.e + t.lam - s.fab.g, t.anchor.getD 0)
    cReflex := s.fab.cReflex, cDeferred := s.fab.cDeferred
    tlq := (List.range 64).flatMap fun q => (s.tlq q).map fun e => (q, e.t, e.select, e.enable, e.value)
    q := s.ela.val.q
    ranges := (List.range 4).flatMap fun n => (s.caskWords n).map fun a => (a, s.rawWord a) }

/-- The standby takes the copy. -/
def State.pairLoad (s : State) (c : PairCopy) : State :=
  let s := s.each c.regs fun s e => s.wrReg e.1 e.2
  let s := (s.setFab { s.fab with
    dm := c.dm.foldl (fun m (e : Nat × Bool) => Sparse.set (s.fabDflt 0) m e.1 e.2) []
    latches := c.latches.foldl (fun m (e : Nat × Bool) => Sparse.set (s.fabDflt 1) m e.1 e.2) []
    flights := [], items := [], pinWrites := [], cReflex := c.cReflex, cDeferred := c.cDeferred, rgn := [] })
  let s := s.each c.trigs fun s e =>
    s.setRgn e.1 { s.rgn e.1 with accepted := some { e := s.fab.g, lam := e.2.1, anchor := some (s.toOwnTb e.2.2), gap := 0 }, fresh := false }
  let s := s.each (List.range 64) fun s q => s.setTlq q ((c.tlq.filter fun e => e.1 == q).map fun (e : Nat × Nat × Nat × Nat × Nat) =>
    ⟨s.toOwnTb e.2.1, e.2.2.1, e.2.2.2.1, e.2.2.2.2, false⟩)
  let s := s.each c.ranges fun s e =>
    s.bankWrite ((e.1 - hbmBytes) / 2 ^ 21) ((e.1 - hbmBytes) % 2 ^ 21 / 8) e.2 false
  (s.setEla { s.ela with val := { s.ela.val with q := c.q } })

/-- The copy in STATE flits of 56 bytes. -/
def stateOuts (l : List Byte) : List PairOut :=
  (List.range (ceilDiv l.length 56)).map fun k => .state k (slice l (56 * k) 56)

/-! ### Casks (R444) -/

/-- One bit into CRC-64, reflected. -/
def crc64Bit (c : BitVec 64) (b : Bool) : BitVec 64 :=
  let f := c.getLsbD 0 ^^ b
  if f then (c >>> 1) ^^^ 0xC96C5795D7870F42#64 else c >>> 1

/-- The CRC-64 of a cask. -/
def crc64 (l : List Bool) : Nat := (~~~(l.foldl crc64Bit (BitVec.allOnes 64))).toNat

/-- The DM of a tile, BPs ascending, bits 0 to 255. -/
def State.tileDm (s : State) (t : Nat) : List Bool :=
  (List.range (1024 * 256)).map fun k => Sparse.get (s.fabDflt 0) s.fab.dm (t * 1024 * 256 + k)

/-- Bits of a word, least significant first. -/
def wordBits (n v : Nat) : List Bool := (List.range n).map (bit v)

/-- Regions that casks cover. -/
def State.caskRegions (s : State) : List Nat := maskBits 16 (s.rd F.PAIR_CASK_CFG.REGIONS)

/-- The region that owns the bank of a range. -/
def State.rangeRegion (s : State) (n : Nat) : Nat :=
  s.rd F.MEM_BANK_STAT.OWNER ((s.rd F.PAIR_CASK_RNG.BASE n * 16 - hbmBytes) / 2 ^ 21) / 64 % 16

/-- Parts of a cask that are present when it is complete, in order (R444). -/
def State.caskKeys (s : State) : List Nat :=
  ((List.range 64).filter fun t => s.caskRegions.any fun r => bit (s.tiles r) t)
    ++ (if s.rdb F.PAIR_CASK_CFG.ELA then [64] else [])
    ++ ((List.range 4).filter fun n => s.rd F.PAIR_CASK_RNG_LEN.WORDS n != 0).map (65 + ·)

/-- The copies that the end of a frame of region r adds. -/
def State.caskCopies (s : State) (r : Nat) : List (Nat × List Bool) :=
  let first := (s.caskRegions.filter fun q => !s.deferred q).head?
  ((maskBits 64 (s.tiles r)).map fun t => (t, s.tileDm t))
    ++ (if s.rdb F.PAIR_CASK_CFG.ELA && first == some r then [(64, (List.range 8192).map fun i => s.ela.val.q.getLsbD i)] else
      ([] : List (Nat × List Bool)))
    ++ ((List.range 4).filter fun n => s.rd F.PAIR_CASK_RNG_LEN.WORDS n != 0 && s.rangeRegion n == r).map fun n =>
      (65 + n, (s.caskWords n).flatMap fun a => wordBits 64 (s.rawWord a))

/-- Region r has ended a frame: its part of a cask is copied at the end of frame (Q + 1) N − 1, and a complete cask is
computed, sent and compared (R444, R445). -/
def State.caskFrame (s : State) (r : Nat) : State :=
  let n := s.rd F.PAIR_CASK_CFG.EVERY
  let f := s.frame r + 1
  if !s.rdb F.PAIR_CFG.EN || s.rd F.PAIR_STAT.STATE != prSynced || !s.caskRegions.contains r || f % n != 0 then s else
  let q := f / n - 1
  let s := s.setPair { s.pair with parts := s.pair.parts ++ (s.caskCopies r).map fun (e : Nat × List Bool) => (q, e.1, e.2) }
  let mine := s.pair.parts.filter fun e => e.1 == q
  let got := s.caskKeys.map fun k => mine.find? fun e => e.2.1 == k
  if !got.all (·.isSome) then s else
  let v := crc64 (got.flatMap fun e => match e with | some x => x.2.2 | none => [])
  let s := s.setPair { s.pair with parts := s.pair.parts.filter fun e => e.1 != q, casks := s.pair.casks ++ [(q, v)] }
  (s.pairOut (.cask q v)).caskCompare

end Sys2Proof.Machine
end

