-- ==== Sys2Proof/Machine/Dispatcher.lean ====
section
/-! DEFINITION. The rows of the work dispatcher (R259 to R272): grants, paging, submissions, cancellation, code objects. -/

namespace Sys2Proof.Machine

/-! ### Grants -/

/-- A code object's entry (Table DSP-4). -/
structure CodeObj where
  far : Nat
  home : Nat
  npages : Nat
  secure : Bool
  entry : Nat

/-- The fields of an entry. -/
def codeObjOf (e : List Byte) : CodeObj :=
  let b := fieldAt e 4 1
  ⟨fieldAt e 0 4, bits b 2 0, bits b 5 3, bit b 6, bits (fieldAt e 6 2) 12 0⟩

/-- The pages of an object. -/
def CodeObj.pages (o : CodeObj) : List Nat := (List.range o.npages).map fun k => o.home + k

/-- Page k of core n is valid and holds object i. -/
def State.pageHolds (s : State) (n k i : Nat) : Bool :=
  bit (s.rd F.SC_STATUS.VALID n) k && Sparse.find (s.core n).pageObj k == some i

/-- A core is eligible for an object (R263): no page it needs is pinned while it holds a different object, and secure
markings agree. A page that is not valid holds none (notes/assumptions/141.md). -/
def State.eligible (s : State) (n i : Nat) (o : CodeObj) : Bool :=
  o.pages.all fun k =>
    (!bit (s.rd F.SC_PIN.PAGES n) k || s.pageHolds n k i || !bit (s.rd F.SC_STATUS.VALID n) k) &&
      bit (s.rd F.SC_SEC.PAGES n) k == o.secure

/-- A core waits in GET with no grant under way. -/
def State.getWaits (s : State) (n : Nat) : Bool :=
  s.coreState n == 2 && !s.islandOff n && !(s.dsp.tasks.any fun t => t.core == n && t.phase == .loading)

/-- The pages of an object that a core misses. -/
def State.missing (s : State) (n i : Nat) (o : CodeObj) : List Nat := o.pages.filter fun k => !s.pageHolds n k i

/-- The last use of the pages a grant would overwrite. -/
def State.missingUse (s : State) (n i : Nat) (o : CodeObj) : Nat :=
  (s.missing n i o).foldl (fun m k => max m (Sparse.get (fun _ => 0) (s.core n).pageUse k)) 0

/-- The core chosen for a task (R262, step 2). -/
def State.chooseCore (s : State) (t : Task) (o : CodeObj) : Option Nat :=
  let cs := (List.range 64).filter fun n => t.allows n && s.getWaits n && s.eligible n t.code o
  match cs.find? fun n => (s.missing n t.code o).isEmpty with
  | some n => some n
  | none => cs.foldl (init := none) fun best n =>
      match best with
      | none => some n
      | some m => if s.missingUse n t.code o < s.missingUse m t.code o then some n else some m

/-- A task takes its place in a priority queue: at the head, the last first, where its grant was withdrawn (R264). -/
def queuePut (t : Task) : List Task → List Task
  | [] => [t]
  | x :: l => if x.head ≤ t.head then t :: x :: l else x :: queuePut t l

/-- The ready tasks in the order R262 takes them: by priority, then those withdrawn, then by acceptance. -/
def State.readyTasks (s : State) : List Task :=
  (List.range 8).flatMap fun p => (s.dsp.tasks.filter fun t => t.prio == p && s.taskReady t).foldr queuePut []

/-- The histogram bin of a waiting time (R272). -/
def waitBin (w : Nat) : Nat :=
  (List.range 15).foldl (fun b k => if 64 * 2 ^ k ≤ w then k + 1 else b) 0

/-- The entry of a task's object as the pager reads it. -/
def State.objOf (s : State) (i : Nat) : CodeObj := codeObjOf (plain (s.codeEntry i))

/-- GET returns (R229, R263): the descriptor copy is written to X, D13 to D15 are set and the task is open. -/
def State.getReturn (s : State) (n : Nat) (t : Task) (o : CodeObj) : State :=
  let far := s.descFar t.slot
  let r := s.memRead reqPager (far * 16) 64
  let s := r.s
  let deny (w : Nat) : Bool := s.secureRange n false (4 * w)
  let s := s.setCore n ((s.core n).localWrite false (s.rd F.DSP_XDESC.ADDR / 4) deny r.bytes)
  let s := (s.updTask t.slot fun t => { t with phase := .running }).countCore n |>.wr F.SC_STATUS.TASK 1 n
  let s := { s.wr F.SC_TASK.TAG t.tag n with mem := { s.mem with descs := Sparse.insert s.mem.descs n far } }
  let c := s.core n
  let w := (Sparse.get (fun _ => (0 : BitVec 64)) c.pram (c.val rPC)).toNat
  let mv (v : Nat) : Move := moveOf (BitVec.ofNat 17 v)
  let s := s.commitBundle n (c.move false (s.secureRange n false) (mv (bits w 33 17)))
    (c.move true (s.secureRange n true) (mv (bits w 16 0)))
    { w := [dWrite 13 (1024 * o.home + o.entry) false, dWrite 14 t.tag false, dWrite 15 far false], cycles := 4 }
  s.trcPacket n (s.trcCtx n) true (leBytes 1 9 ++ leBytes 4 t.tag ++ leBytes 2 (1024 * o.home + o.entry))

/-- PITCH (R262): the first ready task for which a core is eligible is granted to the core chosen for it. With its pages
resident GET returns at once. -/
def State.pitch (s : State) : State :=
  match s.readyTasks.findSome? fun t => (s.chooseCore t (s.objOf t.code)).map fun n => (t, n) with
  | none => s
  | some (t, n) =>
    let o := s.objOf t.code
    let w := s.now - (match t.readyAt with | some x => x | none => s.now)
    let s := s.sat F.DSP_Q_HIST.COUNT t.prio (waitBin w)
    let s := s.trcDisp (leBytes 1 0x10 ++ leBytes 4 t.tag ++ leBytes 1 n)
    let s := (s.updTask t.slot fun t => { t with phase := .loading, core := n }).refresh
    if (s.missing n t.code o).isEmpty then s.getReturn n { t with core := n } o else s

/-- PITCH (R262). -/
def execPitch (s : State) : Host.Outcome State Fault Refusal := .next (s.live State.pitch)

/-! ### Paging -/

/-- One page of an object is read through the pager's port into page k of core n; the answer says whether it arrived
without poison (R205, R263). A page overwritten by what did not arrive whole holds nothing. -/
def State.loadPage (s : State) (n k i : Nat) (o : CodeObj) : Bool × State :=
  let far := o.far + (k - o.home) * 512
  let r := s.memRead reqPager (far * 16) 8192
  let s := r.s
  if poisoned r.bytes then
    let s := (s.poisonConsumed reqPager (far * 16) 3).wr F.SC_STATUS.VALID (setBits (s.rd F.SC_STATUS.VALID n) k k 0) n
    (false, s.setCore n { s.core n with pageObj := Sparse.erase (s.core n).pageObj k })
  else
    let c := s.core n
    let l := plain r.bytes
    let pram := (List.range 1024).foldl (fun m j =>
      Sparse.set (fun _ => (0 : BitVec 64)) m (1024 * k + j) (BitVec.ofNat 64 (fieldAt l (8 * j) 8))) c.pram
    let s := s.setCore n { c with pram := pram, pageObj := Sparse.insert c.pageObj k i,
                                  pageUse := Sparse.insert c.pageUse k s.now }
    (true, s.wr F.SC_STATUS.VALID (setBits (s.rd F.SC_STATUS.VALID n) k k 1) n)

/-- A page of a grant is loaded, and counted as a miss; after the last, GET returns. A poisoned page ends the task INCOMPLETE
without running. A page that was pinned or marked since the grant is neither evicted nor written (R205, R227): the grant is
withdrawn (notes/assumptions/142.md). -/
def State.pageForGrant (s : State) (n : Nat) (t : Task) : State :=
  let o := s.objOf t.code
  match s.missing n t.code o with
  | [] => s.getReturn n t o
  | k :: rest =>
    if !s.eligible n t.code o then s.withdraw n else
    let r := s.loadPage n k t.code o
    if !r.1 then (r.2.updTask t.slot fun t => { t with core := 0xFF }).endTask t.slot stIncomplete 0
    else
      let s := r.2.sat F.DSP_CORE_PMISS.COUNT n
      if rest.isEmpty then s.getReturn n t o else s

/-- A page of a DSP_PRELOAD is loaded; after the last the command completes (R270). On a core that has become ineligible the
page is not loaded, as a poisoned one is not. -/
def State.pageForPreload (s : State) (p : Preload) (n k : Nat) : State :=
  let o := s.objOf p.code
  let r := if s.eligible n p.code o then s.loadPage n k p.code o else (false, s)
  let left := p.left.filter fun e => e != (n, k)
  let others := r.2.dsp.preloads.filter fun q => !(q.ref == p.ref)
  let s := r.2
  if !r.1 then (s.setDsp { s.dsp with preloads := others }).complete p.ref stIncomplete
  else if left.isEmpty then (s.setDsp { s.dsp with preloads := others }).complete p.ref stDone
  else (s.setDsp { s.dsp with preloads := others ++ [{ p with left := left }] })

/-- The pager's read of page k of object i waits for memory that holds it (R345, R348). -/
def State.pageWaits (s : State) (i k : Nat) : Bool :=
  s.memWaits reqPager (((s.objOf i).far + (k - (s.objOf i).home) * 512) * 16) 8192

/-- PAGE_LOAD (R263, R270): the next missing page of a core, for its grant or for a preload. -/
def execPageLoad (core : BitVec 6) (s : State) : Host.Outcome State Fault Refusal :=
  let n := core.toNat
  .next <| s.live fun s =>
    match s.dsp.tasks.find? fun t => t.core == n && t.phase == .loading with
    | some t =>
      if (s.missing n t.code (s.objOf t.code)).head?.any (s.pageWaits t.code) then s else s.pageForGrant n t
    | none =>
      match s.dsp.preloads.findSome? fun p => (p.left.find? fun e => e.1 == n).map fun e => (p, e.2) with
      | some (p, k) => if s.pageWaits p.code k then s else s.pageForPreload p n k
      | none => s

/-! ### Submissions -/

/-- SUBMISSION_WINDOW_WRITE (R260): the next 64 bytes of a core's transfer into the submission window are a submission. -/
def execSubmissionWindowWrite (core : BitVec 6) (s : State) : Host.Outcome State Fault Refusal :=
  let n := core.toNat
  .next (
    match s.windowTake n 0xFFFF0000 (2 ^ 32) 64 with
    | none => s
    | some (_, d, s) =>
      let s := s.onlyIf (poisoned d) fun s => s.poisonConsumed (reqCore n) 0 3
      let r := s.coreSubmit n (plain d) (poisoned d)
      if r.1 then r.2 else r.2.xferError n)

/-- DSP_SUBMIT (R259, R269). -/
def execDspSubmit (ref : CmdRef) (desc : List Byte) (s : State) : Host.Outcome State Fault Refusal :=
  .next (s.command ref 0x0701 fun s =>
    match s.offer (.host ref) (padTo 64 desc) with
    | (.taken _, s) => s.pastPoint ref
    | (.badDescriptor, s) => s.complete ref stRange
    | (.noRoom, s) => s.complete ref stBusy)

/-- DSP_CANCEL (R268). -/
def execDspCancel (ref : CmdRef) (flow seq : BitVec 16) (s : State) : Host.Outcome State Fault Refusal :=
  .next (s.command ref 0x0702 fun s =>
    if 511 < flow.toNat then s.complete ref stRange
    else match s.cancelTask flow.toNat seq.toNat with
      | (.queued, s) => s.complete ref stDone 0
      | (.running, s) => s.complete ref stDone 1
      | (.refused, s) => s.complete ref stRefused)

/-- A write of a tag to DSP_CANCEL_REQ (R268). -/
def State.cancelReq (s : State) (tag : Nat) : State := (s.cancelTask (bits tag 24 16) (bits tag 15 0)).2

/-- DSP_CANCEL_REQ (R268). -/
def execDspCancelReq (tag : BitVec 32) (s : State) : Host.Outcome State Fault Refusal :=
  .next (s.onlyIf (s.bar0Open 0x80010) fun s => s.cancelReq tag.toNat)

/-- ELA_DOORBELL (R172, R259): a rising edge of H[16 + d]. -/
def execElaDoorbell (d : BitVec 4) (s : State) : Host.Outcome State Fault Refusal :=
  .next (s.live fun s => s.takeRise (16 + d.toNat) fun s => s.produce (336 + d.toNat) id)

/-! ### Code objects -/

/-- The (core, page) pairs that hold valid pages of an object. -/
def State.objPages (s : State) (i : Nat) : List (Nat × Nat) :=
  (List.range 64).flatMap fun n => ((List.range 8).filter fun k => s.pageHolds n k i).map fun k => (n, k)

/-- While REQ_CODE is blown, an object lies in a bank owned by PAGER or a partition whose owner set is PAGER alone (R464). -/
def State.pagerOnly (s : State) (a n : Nat) : Bool :=
  [a, a + n - 1].all fun x =>
    match s.target x with
    | .bank b => s.rd F.MEM_BANK_STAT.OWNER b == reqPager
    | .part p => s.rd F.MEM_PART_OWN.MASK p == 2 ^ 23
    | .nowhere => false

/-- An object's entry is defined (R270, R463, R468). -/
def State.codeDefine (s : State) (ref : CmdRef) (i : Nat) (e : List Byte) : State :=
  let o := codeObjOf e
  let a := o.far * 16
  let n := o.npages * 8192
  let req := s.rdb F.SEC_FUSE_STAT.REQ_CODE
  if s.dsp.tasks.any fun t => t.code == i then s.complete ref stBusy
  else if (s.objPages i).any fun x => bit (s.rd F.SC_PIN.PAGES x.1) x.2 then s.complete ref stRefused
  else if 8 < o.home + o.npages ∨ o.npages = 0 ∨ 4 < o.npages ∨ o.far % 512 ≠ 0 then s.complete ref stCheckFailed
  else if req && !s.pagerOnly a (n + 256) then s.complete ref stRefused
  else
    let r := s.memRead reqPager a (n + 256)
    let s := r.s
    let image := (plain r.bytes).take n
    let block := (plain r.bytes).drop n
    let signed := fieldAt block 0 4 == 0x47495343
    let digest := hash (image ++ setAt (slice e 4 4) 0 (BitVec.ofNat 8 (setBits (fieldAt e 4 1) 7 7 1)))
    if signed && !s.sigOk 0x47495343 [1, 2, 3, 4] digest block then (s.authFail 4 block).complete ref stAuthFailed
    else if !signed && (req || o.secure) then s.complete ref stAuthFailed
    else
      let s := s.each (s.objPages i) fun s x =>
        s.wr F.SC_STATUS.VALID (setBits (s.rd F.SC_STATUS.VALID x.1) x.2 x.2 0) x.1
      let s := s.put reqPager ((s.rd F.DSP_COT.BASE + i) * 16) e
      let s := (s.setSec { s.sec with codeMeas := hash (s.sec.codeMeas ++ leBytes 2 i ++ hash image ++ e) })
      (s.inc F.SEC_CODE_COUNT.COUNT).complete ref stDone

/-- DSP_CODE_DEFINE (R270, R463, R464). -/
def execDspCodeDefine (ref : CmdRef) (object : BitVec 16) (entry : List Byte) (s : State) :
    Host.Outcome State Fault Refusal :=
  let e := padTo 16 entry
  .next (s.command ref 0x0703 fun s =>
    if 4095 < object.toNat ∨ fieldAt e 5 1 ≠ 0 ∨ bits (fieldAt e 6 2) 15 13 ≠ 0 ∨ fieldAt e 8 8 ≠ 0 then s.complete ref stRange
    else s.codeDefine ref object.toNat e)

/-- DSP_PRELOAD (R270): REFUSED where a core of the mask is not eligible or the object is not valid
(notes/assumptions/22.md); else the pages load one by one, and the command completes with the last. -/
def execDspPreload (ref : CmdRef) (object : BitVec 16) (mask : BitVec 64) (s : State) : Host.Outcome State Fault Refusal :=
  let i := object.toNat
  .next (s.command ref 0x0704 fun s =>
    let cs := maskBits 64 mask.toNat
    let o := s.objOf i
    if 4095 < i ∨ cs.isEmpty then s.complete ref stRange
    else if !s.codeValid i || cs.any fun n => !s.eligible n i o || s.islandOff n then s.complete ref stRefused
    else
      let left := cs.flatMap fun n => (s.missing n i o).map fun k => (n, k)
      if left.isEmpty then s.complete ref stDone
      else (s.setDsp { s.dsp with preloads := s.dsp.preloads ++ [(⟨ref, i, left⟩ : Preload)] }).pastPoint ref)

/-- DSP_FLOW_RESET (R270). -/
def execDspFlowReset (ref : CmdRef) (first : BitVec 16) (mask : BitVec 64) (s : State) : Host.Outcome State Fault Refusal :=
  .next (s.command ref 0x0705 fun s =>
    let fs := (maskBits 64 mask.toNat).map fun k => first.toNat + k
    if first.toNat % 64 ≠ 0 ∨ 448 < first.toNat then s.complete ref stRange
    else if s.dsp.tasks.any fun t => fs.contains t.flow then s.complete ref stRefused
    else
      (s.setDsp { s.dsp with seq := Sparse.keep (fun f => !fs.contains f) s.dsp.seq }).complete ref stDone)

/-- Every dispatcher counter, MAX and histogram is cleared (Table DSP-9, DSP_CNT_CLR). -/
def State.dspClear (s : State) : State :=
  let s := s.each (List.range 64) fun s n =>
    ((((s.countCore n).wr64 F.DSP_CORE_BUSY_LO.CYCLES 0 n).wr64 F.DSP_CORE_GETW_LO.CYCLES 0 n).wr F.DSP_CORE_TASKS.COUNT 0 n).wr
      F.DSP_CORE_PMISS.COUNT 0 n
  let s := s.each (List.range 16) fun s q => s.wr F.DSP_CQ_CFG.DROPS 0 q
  s.each (List.range 8) fun s p =>
    (s.wr F.DSP_Q_DEPTH.MAX 0 p).each (List.range 16) fun s b => s.wr F.DSP_Q_HIST.COUNT 0 p b

/-- DSP_CNT_CLR (R271). -/
def execDspCntClr (value : BitVec 32) (s : State) : Host.Outcome State Fault Refusal :=
  .next (s.onlyIf (s.bar0Open 0x89000 && bit value.toNat 0) State.dspClear)

end Sys2Proof.Machine
end

