-- ==== Sys2Proof/Machine/Links.lean ====
section
/-! DEFINITION. The Tovin links (R364 to R383): bring-up, ordered sets, flits, replay, power states, delivery. -/

namespace Sys2Proof.Machine

/-- LNK_STAT.STATE (Table LNK-7). -/
abbrev lkOff : Nat := 0
abbrev lkTraining : Nat := 1
abbrev lkLocked : Nat := 2
abbrev lkUp : Nat := 3
abbrev lkRetrain : Nat := 4

/-- The state of link k. -/
def State.lkState (s : State) (k : Nat) : Nat := s.rd F.LNK_STAT.STATE k

/-- Link k is UP. -/
def State.lkIsUp (s : State) (k : Nat) : Bool := s.lkState k == lkUp

/-- The role of link k (Table LNK-6). -/
def State.lkRole (s : State) (k : Nat) : Nat := s.rd F.LNK_CFG.ROLE k

/-- An event of link k with the payload of R383. -/
def State.lnkEvent (s : State) (code sev unit k hdr : Nat) : State :=
  s.event code sev (sourceId code 0 unit) (payload [(16, 1, s.lkRole k), (17, 1, s.rd F.LNK_STAT.PARTNER_ROLE k),
    (18, 4, s.rd F.LNK_PARTNER.ID k), (22, 2, hdr)])

/-! ### Flits (R371, Table LNK-3) -/

/-- One byte into CRC-16, polynomial 0x1021, most significant bit first. -/
def crc16Byte (c : BitVec 16) (b : Byte) : BitVec 16 :=
  (List.range 8).foldl (fun c _ => if c.getLsbD 15 then (c <<< 1) ^^^ 0x1021#16 else c <<< 1) (c ^^^ (b.setWidth 16 <<< 8))

/-- The CRC of a flit with a sequence number, over its bytes 0 to 61 (Table LNK-3). -/
def flitCrc (seq : Nat) (l : List Byte) : Nat :=
  ((BitVec.ofNat 8 (seq % 128) :: l.take 62).foldl crc16Byte 0xFFFF#16).toNat

/-- A flit's header. -/
def Flit.header (f : Flit) : Nat := f.typ * 8192 + f.chan * 128 + b2n f.poison * 64 + f.sub

/-- The 64 bytes of a flit with its sequence number. -/
def Flit.bytes (f : Flit) (seq : Nat) : List Byte :=
  let l := leBytes 2 f.header ++ padTo 60 f.data
  l ++ leBytes 2 (flitCrc seq l)

/-- The flit that bytes hold. -/
def flitOf (l : List Byte) : Flit :=
  let h := fieldAt l 0 2
  ⟨bits h 15 13, bits h 12 7, bit h 6, bits h 5 0, slice l 2 60⟩

/-! ### Sending -/

/-- TX_UNACK shows the replay buffer. -/
def State.showUnack (s : State) (k : Nat) : State := s.wr F.LNK_STAT.TX_UNACK (s.link k).replay.length k

/-- An ordered set goes out at once on an ACTIVE direction; otherwise it is owed, and wakes the direction (R375). -/
def State.sendSet (s : State) (k typ v : Nat) : State :=
  let l := s.link k
  if s.rd F.LNK_STAT.TX_PWR k = 0 then s.setLink k { l with lastSet := some (typ, v), quietAt := s.now }
  else s.setLink k { l with owed := l.owed ++ [(typ, v)] }

/-- An ACK for everything good so far (R373). -/
def State.sendAck (s : State) (k : Nat) : State :=
  (s.setLink k { s.link k with good := 0, goodAt := none }).sendSet k 0x33 (s.link k).expect

/-- A NAK (R373). -/
def State.sendNak (s : State) (k : Nat) : State :=
  (s.setLink k { s.link k with nakOut := true, nakAt := s.now }).sendSet k 0x4B (s.link k).expect

/-- The ECHO that measures the round trip goes out (R377). -/
def State.sendEcho (s : State) (k : Nat) : State :=
  (s.setLink k { s.link k with echoAt := some s.now }).sendSet k 0x87 (s.now % 2 ^ 56)

/-- The replay buffer of link k is discarded, and its sequence numbers start again (R370). MESSAGE entries not yet acknowledged
will be sent again from RD_IDX on, in order. -/
def State.discardReplay (s : State) (k : Nat) : State :=
  let l := s.link k
  (s.setLink k { l with
    txq := l.txq.filter fun f => f.typ != 4, replay := [], seq := 0, resend := 0, inRow := 0, expect := 0, nakOut := false, good := 0, goodAt := none
    owed := [], readyOut := false, readyIn := none, retrainAt := none, msgs := 0 }).showUnack k
    |>.wr F.LNK_STAT.RX_NEXT 0 k

/-- Link k begins to train from nothing (R368). -/
def State.train (s : State) (k : Nat) : State :=
  let s := s.setLink k { s.link k with readyOut := false, readyIn := none, noLockAt := s.now, lastSet := some (0x1E, 0) }
  let s := (s.wr F.LNK_STAT.STATE lkTraining k).wr F.LNK_STAT.BURST 0 k
  (s.wr F.LNK_STAT.TX_PWR 0 k).wr F.LNK_STAT.RX_PWR 0 k

/-- A failed retrain (R370): buffers are discarded, LINK_DOWN, bring-up from the start. -/
def State.linkDown (s : State) (k : Nat) : State :=
  (((s.discardReplay k).lnkEvent 0x0A02 sevError k k 0).train k)

/-- A retrain begins (R370): replay buffers and sequence numbers are kept. -/
def State.retrain (s : State) (k : Nat) : State :=
  let s := (s.sat F.LNK_RETRAINS.COUNT k).train k
  let s := s.wr F.LNK_STAT.STATE lkRetrain k
  (s.setLink k { s.link k with retrainAt := some s.now }).lnkEvent 0x0A03 sevWarn k k 0

/-- A committed LNK_CFG (R370): a changed ROLE or FFE, or EN set after having been cleared, acts as a failed retrain. `was`,
`changed`: EN before, and whether ROLE or FFE differ. -/
def State.linkCommitted (s : State) (k : Nat) (was changed : Bool) : State :=
  let now := s.rdb F.LNK_CFG.EN k
  if !now then (if was then s.wr F.LNK_STAT.STATE lkOff k else s)
  else if !was || changed then (if s.clk.ltxLocked then s.linkDown k else s)
  else s

/-- TX_PLL_LOCK (R368): every enabled link sends TRAIN. -/
def execTxPllLock (s : State) : Host.Outcome State Fault Refusal :=
  .next <| s.live fun s =>
    let s := (s.setClk { s.clk with ltxLocked := true }).wr F.CLK_DOM_CFG.LOCKED 1 20
    s.each (List.range 16) fun s k => s.onlyIf (s.rdb F.LNK_CFG.EN k && s.lkState k == lkOff) fun s => s.train k

/-! ### Bring-up (R368, R370, R373, R378) -/

/-- Position of a sequence number in the replay buffer: how many flits come before it. -/
def LinkSt.position (l : LinkSt) (next : Nat) : Nat := (next + 128 - (l.seq + 128 - l.replay.length) % 128) % 128

/-- Flits are acknowledged: they leave the replay buffer, and MESSAGE entries among them their ring (R373, R381). -/
def State.acked (s : State) (k n : Nat) : State :=
  if n = 0 then s else
  let l := s.link k
  let m := ((l.replay.take n).filter fun f => f.typ == 4).length
  let s := (s.setLink k { l with
    replay := l.replay.drop n, resend := min l.resend (l.replay.length - n), inRow := 0, oldestAt := s.now, quietAt := s.now
    msgs := l.msgs - m, txRd := l.txRd + m }).showUnack k
  s.onlyIf (m != 0) fun s => s.put (reqLink k) (s.rd F.LNK_MTX_BASE.BASE k * 16 + 8) (leBytes 8 (l.txRd + m))

/-- Roles match (R378). -/
def rolesMatch (a b : Nat) : Bool := a == b || a == 0 || b == 0

/-- Link k becomes UP (R368, R370, R377): from TRAINING with sequence number 0; after a retrain its transmitter resumes from
the number in READY. -/
def State.linkUp (s : State) (k next : Nat) : State :=
  let l := s.link k
  let fresh := s.lkState k != lkRetrain
  let s := if fresh then s.discardReplay k
    else
      let n := l.position next
      let s := s.acked k (if n ≤ l.replay.length then n else 0)
      let l := s.link k
      s.setLink k { l with resend := l.replay.length, nakOut := false, inRow := 0, oldestAt := s.now, retrainAt := none }
  let s := s.setLink k { s.link k with quietAt := s.now, timeAt := s.now, mismatch := false }
  let s := s.wr F.LNK_STAT.STATE lkUp k
  let s := s.onlyIf fresh fun s => s.lnkEvent 0x0A01 sevInfo k k 0
  s.sendEcho k

/-- A locked link that has heard READY becomes UP if the roles match; a mismatch is raised once each time it is found. -/
def State.tryUp (s : State) (k : Nat) : State :=
  let l := s.link k
  match l.readyIn with
  | none => s
  | some next =>
    if !l.readyOut then s
    else if rolesMatch (s.lkRole k) (s.rd F.LNK_STAT.PARTNER_ROLE k) then s.linkUp k next
    else if l.mismatch then s
    else (s.setLink k { l with mismatch := true }).lnkEvent 0x0A04 sevError k k 0

/-- RECEIVER_LOCK (R365, R368, R370): the lanes' polarity, and READY in place of TRAIN. -/
def execReceiverLock (link pol : BitVec 4) (s : State) : Host.Outcome State Fault Refusal :=
  let k := link.toNat
  .next <| s.live fun s =>
    let st := s.lkState k
    s.onlyIf (st == lkTraining || st == lkRetrain) fun s =>
      let s := (s.wr F.LNK_STAT.POL pol.toNat k).wr F.LNK_STAT.BURST 0 k
      let s := s.onlyIf (st == lkTraining) fun s => s.wr F.LNK_STAT.STATE lkLocked k
      (s.setLink k { s.link k with readyOut := true, lastSet := some (0x2D, (s.link k).expect) }).tryUp k

/-- The partner's role and identifier, from TRAIN or READY (R367). -/
def State.partner (s : State) (k role id : Nat) : State :=
  let s := s.onlyIf (s.rd F.LNK_STAT.PARTNER_ROLE k != role) fun s => s.setLink k { s.link k with mismatch := false }
  (s.wr F.LNK_STAT.PARTNER_ROLE role k).wr F.LNK_PARTNER.ID id k

/-- TRAIN (R370, R375): from a partner that wakes, or else while UP the start of a retrain. -/
def execTrain (link : BitVec 4) (role : BitVec 8) (id : BitVec 32) (s : State) : Host.Outcome State Fault Refusal :=
  let k := link.toNat
  .next <| s.live fun s => s.onlyIf (s.lkState k != lkOff) fun s =>
    let s := s.partner k role.toNat id.toNat
    if !s.lkIsUp k then s
    else if s.rd F.LNK_STAT.RX_PWR k = 0 then s.retrain k
    else s.wr F.LNK_STAT.RX_PWR 0 k

/-- READY (R368, R370, R378). -/
def execReady (link : BitVec 4) (next : BitVec 7) (role : BitVec 8) (id : BitVec 32) (s : State) :
    Host.Outcome State Fault Refusal :=
  let k := link.toNat
  .next <| s.live fun s => s.onlyIf (decide (lkLocked ≤ s.lkState k)) fun s =>
    let s := s.partner k role.toNat id.toNat
    s.onlyIf (!s.lkIsUp k) fun s => (s.setLink k { s.link k with readyIn := some next.toNat }).tryUp k

/-- LOSS_OF_BLOCK_LOCK (R370, R375): on any lane, or of the forwarded clock; a partner in IDLE has squelched its data, one in
SLEEP its clock as well. -/
def execLossOfBlockLock (link : BitVec 4) (clock : Bool) (s : State) : Host.Outcome State Fault Refusal :=
  let k := link.toNat
  .next <| s.live fun s =>
    match s.lkState k with
    | 2 => s.train k
    | 3 => s.onlyIf (s.rd F.LNK_STAT.RX_PWR k == 0 || (s.rd F.LNK_STAT.RX_PWR k == 1 && clock)) fun s => s.retrain k
    | 4 => s.setLink k { s.link k with readyOut := false, readyIn := none, noLockAt := s.now }
    | _ => s

/-- RETRAIN_TIMEOUT (R370). -/
def execRetrainTimeout (link : BitVec 4) (s : State) : Host.Outcome State Fault Refusal :=
  let k := link.toNat
  .next <| s.live fun s =>
    match (s.link k).retrainAt with
    | some t => s.onlyIf (s.lkState k == lkRetrain && decide (t + s.rd F.LNK_TMO.RETRAIN_TO k * 100000 ≤ s.now)) fun s =>
        s.linkDown k
    | none => s

/-- Link k trains without receiver lock. -/
def State.unlocked (s : State) (k : Nat) : Bool :=
  s.lkState k == lkTraining || (s.lkState k == lkRetrain && !(s.link k).readyOut)

/-- BURST_MODE_ENTRY (R369): 10 ms without receiver lock. -/
def execBurstModeEntry (link : BitVec 4) (s : State) : Host.Outcome State Fault Refusal :=
  let k := link.toNat
  .next <| s.live fun s => s.onlyIf (s.unlocked k && decide ((s.link k).noLockAt + 10000000 ≤ s.now)) fun s =>
    s.wr F.LNK_STAT.BURST 1 k

/-- TRAINING_BURST (R369): 100 µs of TRAIN every 10 ms. -/
def execTrainingBurst (link : BitVec 4) (s : State) : Host.Outcome State Fault Refusal :=
  let k := link.toNat
  .next <| s.live fun s => s.onlyIf (s.unlocked k && s.rdb F.LNK_STAT.BURST k) fun s =>
    s.setLink k { s.link k with lastSet := some (0x1E, 0) }

/-! ### Delivery (R372, R376, R379 to R381) -/

/-- TYPEs that a role carries (Table LNK-6). -/
def roleCarries (role typ : Nat) : Bool :=
  match role with
  | 1 => typ == 1 || typ == 2 || typ == 4
  | 2 => typ == 2 || typ == 4
  | 3 => typ == 3 || typ == 4
  | _ => false

/-- The gateway bound to a GATEWAY channel of link k (R380). -/
def State.gwOf (s : State) (k chan : Nat) : Option Nat :=
  (List.range 16).find? fun g => s.rdb F.LNK_GW_CFG.EN g && s.rd F.LNK_GW_CFG.LINK g == k && s.rd F.LNK_GW_CFG.CHAN g == chan

/-- Words of a GATEWAY flit enter the receive FIFO of gateway g, or the flit is discarded whole (R380). A primary forwards
those of a mirrored gateway (R439). -/
def State.gwDeliver (s : State) (k g : Nat) (f : Flit) : State :=
  let ws := (List.range f.sub).map fun i => fieldAt f.data (8 * i) 8
  let x := s.gw g
  if 64 < x.rx.length + ws.length then
    (s.sat F.LNK_GW_OVF.COUNT g).lnkEvent 0x0A05 sevError (0x100 + g) k f.header
  else
    let s := s.setGw g { x with rx := x.rx ++ ws.map fun w => (w, f.poison) }
    s.onlyIf (s.forwards && bit (s.rd F.PAIR_GW.GATEWAYS) g) fun s => s.pairOut (.gateway g ws)

/-- A MESSAGE flit goes to the link's receive ring (R381). -/
def State.msgDeliver (s : State) (k : Nat) (f : Flit) : State :=
  let l := s.link k
  let base := s.rd F.LNK_MRX_BASE.BASE k
  let size := 2 ^ s.rd F.LNK_MRING.RX_SIZE k
  let q := s.radIdx (reqLink k) base 8 l.msgRd
  let s := q.2.setLink k { l with msgRd := q.1 }
  if q.1 + size ≤ l.msgWr then
    let s := s.sat F.LNK_MSG_DROP.COUNT k
    (s.onlyIf (!l.dropRun) fun s => s.lnkEvent 0x0A06 sevWarn k k f.header).setLink k { s.link k with dropRun := true }
  else
    let e := leBytes 2 f.header ++ padTo 60 f.data ++ leBytes 2 0
    let w := s.memWrite (reqLink k) (base * 16 + 64 + 64 * (l.msgWr % size)) (e.map fun b => (b, f.poison))
    let s := w.s.put (reqLink k) (base * 16) (leBytes 8 (l.msgWr + 1))
    s.setLink k { s.link k with msgWr := l.msgWr + 1, dropRun := false }

/-- A good flit is delivered, or discarded and counted (R372). -/
def State.flitDeliver (s : State) (k : Nat) (f : Flit) : State :=
  let unbound (s : State) : State := s.sat F.LNK_RX_BAD.UNBOUND k
  if !roleCarries (s.lkRole k) f.typ then s.sat F.LNK_RX_BAD.TYPE k
  else match f.typ with
    | 1 =>
      match (List.range 256).find? fun i => s.rdb F.RAD_SLOT_CFG.EN i && s.rdb F.RAD_SLOT_CFG.RX_EN i
          && s.rd F.RAD_SLOT_CFG.RX_LINK i == k && s.rd F.RAD_SLOT_CFG.RX_CHAN i == f.chan with
      | some i => s.sampleFlit i f.sub f.data f.poison
      | none => unbound s
    | 2 =>
      if f.sub < 1 ∨ 7 < f.sub then s.sat F.LNK_RX_BAD.TYPE k
      else match s.gwOf k f.chan with
        | some g => s.gwDeliver k g f
        | none => unbound s
    | 3 => s.mirrorReceive f
    | _ => if s.rd F.LNK_MRING.RX_SIZE k = 0 then unbound s else s.msgDeliver k f

/-- LINK_FLIT_RECEIVE (R371 to R373): a CRC failure is answered by one NAK, and what follows is discarded until the replay
arrives; a good flit is acknowledged, the sixteenth at once. -/
def execLinkFlitReceive (link : BitVec 4) (bytes : List Byte) (s : State) : Host.Outcome State Fault Refusal :=
  let k := link.toNat
  .next <| s.live fun s => s.onlyIf (s.lkIsUp k) fun s =>
    let l := s.link k
    let b := padTo 64 bytes
    if fieldAt b 62 2 ≠ flitCrc l.expect b then
      if l.nakOut then s else (s.sat F.LNK_CRC_ERR.COUNT k).sendNak k
    else
      let next := (l.expect + 1) % 128
      let s := s.setLink k { l with
        expect := next, nakOut := false, good := l.good + 1, goodAt := if l.goodAt.isSome then l.goodAt else some s.now }
      let s := (s.wr F.LNK_STAT.RX_NEXT next k).sat64 F.LNK_RX_FLITS_LO.COUNT k
      let s := s.onlyIf (decide (16 ≤ l.good + 1)) fun s => s.sendAck k
      let s := s.capFeed 3 k 0 s.now (flitOf b).poison
        (fun c => (fieldAt b 0 2 &&& bits (s.capSel c) 31 16) == bits (s.capSel c) 15 0) fun _ => leBytes 8 s.now ++ b
      s.flitDeliver k (flitOf b)

/-- ACK_DUE_TIMEOUT (R373): 128 ticks after a good flit not yet acknowledged. -/
def execAckDueTimeout (link : BitVec 4) (s : State) : Host.Outcome State Fault Refusal :=
  let k := link.toNat
  .next <| s.live fun s =>
    match (s.link k).goodAt with
    | some t => s.onlyIf (s.lkIsUp k && decide (t + 128 ≤ s.now)) fun s => s.sendAck k
    | none => s

/-! ### Transmission and replay (R373, R376) -/

/-- ACK (R373): one outside the unacknowledged range is ignored. -/
def execAck (link : BitVec 4) (next : BitVec 7) (s : State) : Host.Outcome State Fault Refusal :=
  let k := link.toNat
  .next <| s.live fun s => s.onlyIf (s.lkIsUp k) fun s =>
    let n := (s.link k).position next.toNat
    s.onlyIf (decide (n ≤ (s.link k).replay.length)) fun s => s.acked k n

/-- A replay from the oldest unacknowledged flit; after REPLAY_MAX in a row that left it so, a retrain (R373). -/
def State.replay (s : State) (k : Nat) : State :=
  let l := s.link k
  if l.replay.isEmpty then s
  else if s.rd F.LNK_TMO.REPLAY_MAX k ≤ l.inRow then s.retrain k
  else (s.setLink k { l with resend := l.replay.length, inRow := l.inRow + 1, oldestAt := s.now }).sat F.LNK_REPLAYS.COUNT k

/-- NAK (R373). -/
def execNak (link : BitVec 4) (next : BitVec 7) (s : State) : Host.Outcome State Fault Refusal :=
  let k := link.toNat
  .next <| s.live fun s => s.onlyIf (s.lkIsUp k) fun s =>
    let n := (s.link k).position next.toNat
    s.onlyIf (decide (n ≤ (s.link k).replay.length)) fun s => (s.acked k n).replay k

/-- REPLAY_TIMEOUT (R373): the oldest flit has stayed unacknowledged for REPLAY_TO, or a replay asked for has not begun. -/
def execReplayTimeout (link : BitVec 4) (s : State) : Host.Outcome State Fault Refusal :=
  let k := link.toNat
  .next <| s.live fun s => s.onlyIf (s.lkIsUp k) fun s =>
    let tmo := s.rd F.LNK_TMO.REPLAY_TO k
    let s := s.onlyIf ((s.link k).nakOut && decide ((s.link k).nakAt + tmo ≤ s.now)) fun s => s.sendNak k
    s.onlyIf (!(s.link k).replay.isEmpty && decide ((s.link k).oldestAt + tmo ≤ s.now)) fun s => s.replay k

/-- A flit carries poison out of the device (R376). -/
def State.poisonSent (s : State) (k : Nat) : State :=
  let s := s.sat F.LNK_POISON_TX.COUNT k
  let due := match (s.link k).poisonAt with | some t => decide (t + 1000 ≤ s.now) | none => true
  s.onlyIf due fun s => (s.setLink k { s.link k with poisonAt := some s.now }).poisonConsumed (reqLink k) 0 8

/-- The next new flit of link k: what waits, whose words leave their gateway's FIFO, or a MIRROR flit on a PAIR link. -/
def State.nextFlit (s : State) (k : Nat) : Option (Flit × State) :=
  match (s.link k).txq with
  | f :: q =>
    let s := s.setLink k { s.link k with txq := q }
    some (f, match if f.typ = 2 then s.gwOf k f.chan else none with
      | some g => s.setGw g (s.gw g)
      | none => s)
  | [] => if s.lkRole k = 3 then s.mirrorNext else none

/-- FLIT_TRANSMIT (R373): a flit of a replay, or a new one that joins the 64 kept until they are acknowledged. -/
def execFlitTransmit (link : BitVec 4) (s : State) : Host.Outcome State Fault Refusal :=
  let k := link.toNat
  .next <| s.live fun s => s.onlyIf (s.lkIsUp k && s.rd F.LNK_STAT.TX_PWR k == 0 && decide ((s.link k).dataAt ≤ s.now)) fun s =>
    let s := s.txLink k
    let l := s.link k
    let n := l.replay.length
    if l.resend ≠ 0 then
      let i := n - l.resend
      match l.replay[i]? with
      | some f => s.setLink k { l with
          resend := l.resend - 1, lastFlit := some ((l.seq + 128 - l.resend) % 128, f), quietAt := s.now
          oldestAt := if i = 0 then s.now else l.oldestAt }
      | none => s
    else if 64 ≤ n then s.setLink k { l with lastSet := some (0x55, 0) }
    else match s.nextFlit k with
      | none => s.setLink k { l with lastSet := some (0x55, 0) }
      | some (f, s) =>
        let l := s.link k
        let s := s.setLink k { l with
          replay := l.replay ++ [f], seq := (l.seq + 1) % 128, lastFlit := some (l.seq, f), quietAt := s.now
          oldestAt := if n = 0 then s.now else l.oldestAt }
        ((s.showUnack k).sat64 F.LNK_TX_FLITS_LO.COUNT k).onlyIf f.poison fun s => s.poisonSent k

/-- MESSAGE_RING_SEND (R381): the next entry of the transmit ring joins what link k has to send. -/
def execMessageRingSend (link : BitVec 4) (s : State) : Host.Outcome State Fault Refusal :=
  let k := link.toNat
  .next <| s.live fun s =>
    s.onlyIf (s.lkIsUp k && s.lkRole k != 0 && s.rd F.LNK_MRING.TX_SIZE k != 0) fun s =>
      let base := s.rd F.LNK_MTX_BASE.BASE k
      let q := s.radIdx (reqLink k) base 0 (s.link k).txWr
      let s := q.2.setLink k { q.2.link k with txWr := q.1 }
      let l := s.link k
      let i := l.txRd + l.msgs
      let a := base * 16 + 64 + 64 * (i % 2 ^ s.rd F.LNK_MRING.TX_SIZE k)
      if q.1 ≤ i ∨ s.memWaits (reqLink k) a 64 then s
      else
        let r := s.memRead (reqLink k) a 64
        let f := flitOf (plain r.bytes)
        (r.s.setLink k { r.s.link k with msgs := l.msgs + 1 }).linkQueue k { f with typ := 4, poison := f.poison || poisoned r.bytes }

/-! ### Other ordered sets and power states (R367, R374, R375, R377, R438) -/

/-- IDLE (R367): fills a column and asks nothing. -/
def execIdle (_link : BitVec 4) (s : State) : Host.Outcome State Fault Refusal := .next s

/-- The offset that a standby measures from its partner's timebase (R438). -/
def State.timeFrom (s : State) (v : Nat) : State :=
  let d := sint 56 (v + 2 ^ 56 - s.now % 2 ^ 56)
  let s := s.wr64 F.PAIR_TB_OFS_LO.OFS (toBits 64 d)
  let e := sint 64 (toBits 64 d + 2 ^ 64 - s.pair.ofsHeld % 2 ^ 64)
  s.wrb F.PAIR_STAT.TB_LOCK (s.rd F.PAIR_STAT.STATE == prSynced && decide (-4 ≤ e ∧ e ≤ 4))

/-- TIME (R377, R438): ignored on a link whose role is not PAIR; the standby measures its offset with it. -/
def execTime (link : BitVec 4) (value : BitVec 56) (s : State) : Host.Outcome State Fault Refusal :=
  let k := link.toNat
  .next <| s.live fun s =>
    s.onlyIf (s.lkRole k == 3 && s.lkIsUp k && s.rdb F.PAIR_CFG.EN && s.rd F.PAIR_STAT.ROLE == 1) fun s => s.timeFrom value.toNat

/-- SQUELCH (R375): the partner's direction is in IDLE, or in SLEEP. -/
def execSquelch (link : BitVec 4) (sleep : Bool) (s : State) : Host.Outcome State Fault Refusal :=
  let k := link.toNat
  .next <| s.live fun s => s.onlyIf (s.lkIsUp k) fun s => s.wr F.LNK_STAT.RX_PWR (1 + b2n sleep) k

/-- ECHO (R377): the device's own gives the round trip; another's is returned unchanged. -/
def execEcho (link : BitVec 4) (value : BitVec 56) (s : State) : Host.Outcome State Fault Refusal :=
  let k := link.toNat
  .next <| s.live fun s => s.onlyIf (s.lkIsUp k) fun s =>
    match (s.link k).echoAt with
    | some t =>
      if t % 2 ^ 56 = value.toNat then
        (s.setLink k { s.link k with echoAt := none }).wr F.LNK_RTT.RTT (min 65535 (s.now - t)) k
      else s.sendSet k 0x87 value.toNat
    | none => s.sendSet k 0x87 value.toNat

/-- TIME_SEND_INTERVAL (R367, R377): every 1,024 ticks on an ACTIVE direction of a link whose role is not ANY. -/
def execTimeSendInterval (link : BitVec 4) (s : State) : Host.Outcome State Fault Refusal :=
  let k := link.toNat
  .next <| s.live fun s =>
    s.onlyIf (s.lkIsUp k && s.rd F.LNK_STAT.TX_PWR k == 0 && s.lkRole k != 0 && decide ((s.link k).timeAt + 1024 ≤ s.now)) fun s =>
      s.setLink k { s.link k with timeAt := s.now, lastSet := some (0x66, (s.now + s.rd F.LNK_RTT.RTT k / 2) % 2 ^ 56) }

/-- The transmit direction of link k has nothing to send and owes nothing (R375). -/
def State.lkQuiet (s : State) (k : Nat) : Bool :=
  let l := s.link k
  l.txq.isEmpty && l.replay.isEmpty && l.good == 0 && !l.nakOut && !(s.lkRole k == 3 && !s.pair.out.isEmpty)

/-- IDLE_TIMEOUT (R375). -/
def execIdleTimeout (link : BitVec 4) (s : State) : Host.Outcome State Fault Refusal :=
  let k := link.toNat
  .next <| s.live fun s =>
    let t := s.rd F.LNK_CFG.IDLE_T k
    let s := s.txLink k
    s.onlyIf (s.lkIsUp k && s.rd F.LNK_STAT.TX_PWR k == 0 && t != 0 && s.lkQuiet k
        && decide ((s.link k).quietAt + t * 64 ≤ s.now)) fun s =>
      (s.setLink k { s.link k with lastSet := some (0x78, 0), quietAt := s.now }).wr F.LNK_STAT.TX_PWR 1 k

/-- SLEEP_TIMEOUT (R375). -/
def execSleepTimeout (link : BitVec 4) (s : State) : Host.Outcome State Fault Refusal :=
  let k := link.toNat
  .next <| s.live fun s =>
    let t := s.rd F.LNK_CFG.SLEEP_T k
    s.onlyIf (s.rd F.LNK_STAT.TX_PWR k == 1 && t != 0 && decide ((s.link k).quietAt + t * 1000 ≤ s.now)) fun s =>
      (s.setLink k { s.link k with lastSet := some (0x78, 1), quietAt := s.now }).wr F.LNK_STAT.TX_PWR 2 k

/-- LINK_WAKE (R375): a flit to send, or an ordered set owed, wakes the direction; data follows 40 ns later from IDLE, 2 µs later
from SLEEP. In STANDBY it sleeps (R425). -/
def execLinkWake (link : BitVec 4) (s : State) : Host.Outcome State Fault Refusal :=
  let k := link.toNat
  .next <| s.live fun s =>
    let s := s.txLink k
    let l := s.link k
    s.onlyIf (s.lkIsUp k && s.rd F.LNK_STAT.TX_PWR k != 0 && s.rd F.CLK_STATUS.PSTATE == 0
        && (!l.owed.isEmpty || !l.txq.isEmpty || (s.lkRole k == 3 && !s.pair.out.isEmpty))) fun s =>
      (s.setLink k { l with
        owed := [], quietAt := s.now, dataAt := s.now + if s.rd F.LNK_STAT.TX_PWR k = 1 then 40 else 2000, lastSet := match l.owed.getLast? with | some e => some e | none => some (0x1E, 0) }).wr
        F.LNK_STAT.TX_PWR 0 k

end Sys2Proof.Machine
end

