-- ==== Sys2Proof/Machine/Staging.lean ====
section
/-! DEFINITION. The staging set and CHECK (R399, R401, R402, Table HST-6, and the rules that name a CHECK code). -/

namespace Sys2Proof.Machine

/-! ### The state with the whole set applied (R402) -/

/-- A staged register write: BAR0 offset and value. -/
abbrev Entry := Nat × Nat

/-- The register at an offset takes the RW and RWL fields of a value (R13, R402). -/
def State.writeFields (s : State) (off v : Nat) : State :=
  match regRow off with
  | some r => s.wrReg off (r.write (s.rdReg off) v)
  | none => s

/-- The register state as it would stand with a set applied, presets included (R293). -/
def State.staged (s : State) (set : List Entry) : State :=
  let t := set.foldl (fun t e => t.writeFields e.1 e.2) s
  let t := t.each ((List.range 64).filter fun r => set.any fun e => e.1 == 0x384000 + 256 * r) State.rxPreset
  t.each ((List.range 64).filter fun r => set.any fun e => e.1 == 0x388000 + 64 * r) State.txPreset

/-- The staging set. -/
def State.stageSet (s : State) : List Entry := s.host.stage.map fun e => (e.1, e.2.toNat)

/-! ### Findings

A rule of CHECK that the state with the set applied breaks is a finding: its code, and the entries that take part in it. The
failure reported is the first by entry order; a rule about the FSTEP domains together involves no single entry. A broken rule
in which no entry of the set takes part is not a failure of the set (notes/assumptions/25.md). -/

/-- A finding. -/
structure Finding where
  code : Nat
  at_ : Nat → Bool
  whole : Bool := false

/-- The unit of an array of `n` blocks of `stride` bytes from `base` that an offset lies in. -/
def unitOf (base stride n off : Nat) : Option Nat :=
  if base ≤ off ∧ off < base + stride * n then some ((off - base) / stride) else none

/-- An offset lies in block i of an array. -/
def inUnit (base stride i off : Nat) : Bool := decide (base + stride * i ≤ off) && decide (off < base + stride * (i + 1))

/-- One finding if a condition holds. -/
def finding (c : Bool) (code : Nat) (at_ : Nat → Bool) : List Finding := if c then [⟨code, at_, false⟩] else []

/-- The register at an offset changes. -/
def State.changes (s t : State) (off : Nat) : Bool := s.rdReg off != t.rdReg off

/-- A timer's PHASE that is not less than its EVERY is not one that Table RAD-13 lists. -/
def phaseBad (e : Entry) : Bool :=
  match (List.range 64).find? fun t => e.1 == 0x389400 + 16 * t with
  | some _ => decide (bits e.2 25 16 ≤ bits e.2 9 0)
  | none => false

/-- 0x01: the entry names no register, one without an RW or RWL field, or a reserved encoding (R13). -/
def entryBad (e : Entry) : Bool :=
  match regRow e.1 with
  | none => true
  | some r => phaseBad e || !r.fields.any FieldDef.isSet || r.fields.any fun f => f.isSet && !f.lists (bits e.2 f.hi f.lo)

/-- 0x02: region fields that only a load changes (R78), and capture fields of a channel that is armed (R325). -/
def State.loadOnly (s t : State) (off : Nat) : Bool :=
  s.changes t off &&
    ((match unitOf 0x100000 0x40 16 off with
      | some _ => decide (off % 0x40 < 12)
      | none => false) ||
     (match unitOf 0x440000 0x100 16 off with
      | some c => s.capArmed c
      | none => false))

/-- 0x03: an owner for a bank that will be OFF or has FAILED, the owner of a bank that the kiln tests, a reserved owner code
(R344, R356). -/
def State.bankFindings (s t : State) (set : List Entry) : List Finding :=
  (List.range 64).flatMap fun b =>
    let off := 0x40000 + 32 * b
    if !set.any fun e => e.1 == off then [] else
    let o := t.rd F.MEM_BANK_CFG.OWNER b
    let kiln := match s.mem.kiln with | some k => k.banks.getLsbD b | none => false
    finding ((o != 0 && (!t.rdb F.MEM_BANK_CFG.PWR b || s.rd F.MEM_BANK_STAT.STATE b == 5))
      || (kiln && ownerNorm o != ownerNorm (s.rd F.MEM_BANK_STAT.OWNER b)) || ownerReserved o) 0x03 (· == off)

/-- Two byte ranges, or ranges of 64 MiB units, overlap. -/
def overlap (a n b m : Nat) : Bool := decide (a < b + m) && decide (b < a + n)

/-- 0x04: enabled partitions that overlap or reach beyond 32 GiB (R344). -/
def State.partFindings (t : State) : List Finding :=
  let on := (List.range 16).filter fun p => t.rdb F.MEM_PART_CFG.EN p
  let base (p : Nat) := t.rd F.MEM_PART_CFG.BASE p
  let size (p : Nat) := t.rd F.MEM_PART_CFG.SIZE p
  on.flatMap fun p =>
    let others := on.filter fun q => q != p && overlap (base p) (size p) (base q) (size q)
    finding (size p == 0 || decide (512 < base p + size p) || !others.isEmpty) 0x04
      fun off => off == 0x44000 + 16 * p || others.any fun q => off == 0x44000 + 16 * q

/-- 0x05: RELEASE for a bank without its supply (R146). -/
def State.releaseFindings (s t : State) : List Finding :=
  (List.range 16).flatMap fun b =>
    finding (t.rdb F.PIN_BANK_CTRL.RELEASE b && !s.rdb F.PIN_BANK_STAT.VIO_GOOD b) 0x05 (· == 0x302000 + 16 * b)

/-- The loaded image holds a route of region r that arrives beyond its frame (R119). -/
def State.wrapsIn (s : State) (r : Nat) : Bool :=
  s.fab.routes.any fun t => bit (s.tiles r) t.ptile && decide (s.rd F.FAB_RGN_CFG.LEN r ≤ t.arrival)

/-- Pin banks of the loaded image's target (R23). -/
def State.targetBanks (s : State) : Nat := if s.rdb F.FAB_GLB_STATUS.LOADED then 4 * s.rd F.FAB_IMG_INFO.TARGET else 16

/-- 0x06: PERIOD, CHAIN, MODE and CLKPIN of a region (R78, R84, R119, R132). -/
def State.trigFindings (s t : State) : List Finding :=
  (List.range 16).flatMap fun r =>
    let m := t.rd F.FAB_RGN_TRIG.MODE r
    let src := t.rd F.FAB_RGN_TRIG.SRC r
    let trig := fun off => off == 0x10000C + 64 * r
    finding (m == 1 && decide (t.rd F.FAB_RGN_PERIOD.PERIOD r < t.rd F.FAB_RGN_CFG.LEN r)) 0x06
        (fun off => trig off || off == 0x100010 + 64 * r)
      ++ finding (m == 3 && (src == r || !t.rdb F.FAB_RGN_CFG.EN src
          || (!t.rdb F.FAB_RGN_CFG.CLASS r && t.rdb F.FAB_RGN_CFG.CLASS src))) 0x06 trig
      ++ finding (s.rd F.FAB_RGN_TRIG.MODE r == 0 && m != 0 && s.wrapsIn r) 0x06 trig
      ++ finding (m == 2 && decide (s.targetBanks ≤ t.rd F.FAB_RGN_TRIG.CLKPIN r / 2)) 0x06 trig

/-- Domains with an SRC field (Table CLK-2), and those whose FREQ is programmable. -/
def srcDomain (d : Nat) : Bool := (decide (4 ≤ d) && decide (d ≤ 20)) || d == 25
def sciDomain (d : Nat) : Bool := decide (6 ≤ d) && decide (d ≤ 9)
def fstepDomain (d : Nat) : Bool := decide (13 ≤ d) && decide (d ≤ 16)

/-- A FREQ is in range and a whole step (Table CLK-2). -/
def State.freqOk (s : State) (d f : Nat) : Bool :=
  if sciDomain d then decide (400 ≤ f) && decide (f ≤ 1600) && f % 100 == 0
  else decide (100 ≤ f) && decide (f ≤ 10 * s.rd F.GLB_GRADE.FSTEP_MAX) && f % 10 == 0

/-- No region runs or waits, and none has a halt pending. -/
def State.fabricIdle (s : State) : Bool :=
  (List.range 16).all fun r => !s.rlive r && !s.rdb F.FAB_RGN_STATUS.HALT_PENDING r

/-- 0x07: clock domains (R418). A set writes FREQ of a fixed domain when it changes it; a domain that is no PLL has nothing
to write (notes/assumptions/26.md). -/
def State.clockFindings (s t : State) (set : List Entry) : List Finding :=
  let src (d : Nat) := t.rd F.CLK_DOM_CFG.SRC (d - 1)
  let freq (d : Nat) := t.rd F.CLK_DOM_CFG.FREQ (d - 1)
  let here (d : Nat) := fun off => off == 0x10100 + 4 * (d - 1)
  (if [14, 15, 16].any fun d => src d != src 13 || freq d != freq 13 then [⟨0x07, fun _ => false, true⟩] else [])
    ++ ((List.range 26).drop 1).flatMap fun d =>
      if !set.any fun e => here d e.1 then [] else
      let moved := freq d != s.rd F.CLK_DOM_CFG.FREQ (d - 1)
      finding (!srcDomain d || (moved && !sciDomain d && !fstepDomain d)
        || ((sciDomain d || fstepDomain d) && !s.freqOk d (freq d)) || (moved && fstepDomain d && !s.fabricIdle)) 0x07 (here d)

/-- 0x07: STANDBY while a region is loading, waiting or running, or while a core runs (R425). -/
def State.standbyFindings (s t : State) : List Finding :=
  let idle := ((List.range 16).all fun r => s.rstate r == rgUnloaded || s.rstate r == rgStopped || s.rstate r == rgHalted)
    && (List.range 64).all fun n => !t.rdb F.SC_CTRL.RUN n
  finding (t.rdb F.CLK_PWR_CTRL.STANDBY && !s.rdb F.CLK_PWR_CTRL.STANDBY && !idle) 0x07 (· == 0x10020)

/-- 0x08: an enabled clock output with N, D or f₀ out of range (R156). -/
def State.dcoFindings (t : State) : List Finding :=
  (List.range 8).flatMap fun k =>
    let n := t.rd F.PIN_DCO_DIV.N k
    let d := t.rd F.PIN_DCO_DIV.D k
    let f := 50 * (n * 2 ^ 24 + t.rd F.PIN_DCO_FRAC.F k)
    finding (t.rdb F.PIN_DCO_CTRL.EN k && !(decide (80 ≤ n ∧ n ≤ 127) && decide (20 ≤ d ∧ d ≤ 6400)
      && decide (d * 2 ^ 24 ≤ f ∧ f ≤ 200 * d * 2 ^ 24))) 0x08 fun off => decide (0x306000 + 32 * k ≤ off ∧ off ≤ 0x306008 + 32 * k)

/-- The offset of LNK_CFG of a link. -/
def lnkCfg (k off : Nat) : Bool := off == 0x480000 + 256 * k

/-- 0x09: link roles and gateways (R378). -/
def State.linkFindings (t : State) : List Finding :=
  let role (k : Nat) := t.rd F.LNK_CFG.ROLE k
  let pair := t.rdb F.PAIR_CFG.EN
  let gws := (List.range 16).filter fun g => t.rdb F.LNK_GW_CFG.EN g
  let bind (g : Nat) := (t.rd F.LNK_GW_CFG.LINK g, t.rd F.LNK_GW_CFG.CHAN g)
  let gw (g off : Nat) : Bool := off == 0x482000 + 16 * g
  ((List.range 16).flatMap fun k =>
      finding (role k == 3 && (decide (k < 14) || !pair)) 0x09 (fun off => lnkCfg k off || off == 0x4C0000))
    ++ finding (pair && !(role 14 == 3 && role 15 == 3)) 0x09 (fun off => lnkCfg 14 off || lnkCfg 15 off || off == 0x4C0000)
    ++ ((List.range 256).flatMap fun i =>
      let rx := t.rd F.RAD_SLOT_CFG.RX_LINK i
      let tx := t.rd F.RAD_SLOT_CFG.TX_LINK i
      finding (t.rdb F.RAD_SLOT_CFG.RX_EN i && role rx != 1) 0x09 (fun off => lnkCfg rx off || off == 0x380000 + 64 * i)
        ++ finding (t.rdb F.RAD_SLOT_CFG.TX_EN i && role tx != 1) 0x09 (fun off => lnkCfg tx off || off == 0x380000 + 64 * i))
    ++ gws.flatMap fun g =>
      finding (role (bind g).1 == 3) 0x09 (fun off => gw g off || lnkCfg (bind g).1 off)
        ++ gws.flatMap fun h => finding (h != g && bind h == bind g) 0x09 (fun off => gw g off || gw h off)

/-! ### The radio engine (R275, R284, R290, R292) -/

/-- An offset in the block of a slot. -/
def atSlot (i off : Nat) : Bool := inUnit 0x380000 64 i off

/-- 0x0A: an enabled slot that breaks R275. -/
def State.slotFindings (t : State) : List Finding :=
  let slots := List.range 256
  let fl (i : Nat) := t.rd F.RAD_SLOT_RATE.FL i
  let rx (i : Nat) := (t.rd F.RAD_SLOT_CFG.RX_LINK i, t.rd F.RAD_SLOT_CFG.RX_CHAN i)
  let tx (i : Nat) := (t.rd F.RAD_SLOT_CFG.TX_LINK i, t.rd F.RAD_SLOT_CFG.TX_CHAN i)
  let rxs := slots.filter fun i => t.rdb F.RAD_SLOT_CFG.RX_EN i
  let txs := slots.filter fun i => t.rdb F.RAD_SLOT_CFG.TX_EN i
  let shares (l : List Nat) (f : Nat → Nat × Nat) (i : Nat) := l.filter fun j => (f j).1 == (f i).1
  let bad (l : List Nat) (f : Nat → Nat × Nat) (i : Nat) : Bool :=
    let m := shares l f i
    l.contains i && (m.any (fun j => j != i && f j == f i) || decide (96000000000 < (m.map fun j => 32 * fl j).foldl (· + ·) 0))
  (slots.filter fun i => t.rdb F.RAD_SLOT_CFG.EN i).flatMap fun i =>
    let wide := t.rdb F.RAD_SLOT_CFG.WIDE i
    let dom := t.rd F.RAD_SLOT_CFG.DOMAIN i
    let top := if wide then 122880000 else 30720000
    finding (!decide (1000000 ≤ fl i ∧ fl i ≤ top) || decide (t.fbDen i < t.rd F.RAD_SLOT_RSMP.RATIO i)) 0x0A (atSlot i)
      ++ finding (wide && (i % 4 != 0 || [1, 2, 3].any fun k => t.rdb F.RAD_SLOT_CFG.EN (i + k))) 0x0A
          (fun off => decide (0x380000 + 64 * i ≤ off ∧ off < 0x380000 + 64 * (i + 4)))
      ++ finding (bad rxs rx i) 0x0A (fun off => (i :: shares rxs rx i).any fun j => atSlot j off)
      ++ finding (bad txs tx i) 0x0A (fun off => (i :: shares txs tx i).any fun j => atSlot j off)
      ++ finding (!t.rdb F.RAD_DOM_CFG.EN dom) 0x0A (fun off => atSlot i off || off == 0x389000 + 32 * dom)

/-- 0x0A: a slot that stays enabled changes in another field than FREQ, RX_GAIN, TX_GAIN, FIRSET and WIN (R284). -/
def State.slotFixed (s t : State) (off : Nat) : Bool :=
  match unitOf 0x380000 64 256 off with
  | some i => s.rdb F.RAD_SLOT_CFG.EN i && t.rdb F.RAD_SLOT_CFG.EN i && s.changes t off
      && !(off % 64 == 0x08 || off % 64 == 0x10 || off % 64 == 0x14)
  | none => false

/-- A profile may be enabled: OSR, taps and SFD_LEN in range (R290). The one sample for each position of preset 2 (Table RAD-4)
is in range for its data. -/
def Profile.ok (p : Profile) : Bool :=
  (decide (2 ≤ p.osr ∧ p.osr ≤ 16) || (p.osr == 1 && p.uwb)) && decide (1 ≤ p.sfdLen ∧ p.sfdLen ≤ 8) && decide (p.base + p.taps ≤ 4096)
    && (match p.spread with
        | 1 => decide (2 ≤ p.nchip ∧ p.nchip ≤ 1024)
        | 2 => decide (1 ≤ p.nchip ∧ p.nchip ≤ 32)
        | _ => decide (1 ≤ p.nchip ∧ p.nchip ≤ 1024))

/-- 0x0A: modems (R290): a profile of a modem that stays enabled changes, or one is enabled with a profile out of range. -/
def State.modemFindings (s t : State) : List Finding :=
  ((List.range 64).flatMap fun r =>
    if !t.rdb F.RAD_RX_CFG.EN r then [] else
    let at_ := inUnit 0x384000 256 r
    let words := (List.range 8).flatMap fun h => (List.range 4).map fun k => 0x384040 + 256 * r + 16 * h + 4 * k
    if s.rdb F.RAD_RX_CFG.EN r then finding (words.any (s.changes t)) 0x0A at_
    else finding (!(List.range (t.rd F.RAD_RX_CFG.HYPS r)).all fun h => (t.rxProfile r h).ok) 0x0A at_)
  ++ (List.range 64).flatMap fun r =>
    if !t.rdb F.RAD_TX_CFG.EN r then [] else
    let at_ := inUnit 0x388000 64 r
    if s.rdb F.RAD_TX_CFG.EN r then finding ((List.range 4).any fun k => s.changes t (0x388010 + 64 * r + 4 * k)) 0x0A at_
    else finding (!(t.txProfile r).ok) 0x0A at_

/-- 0x0A: the correlator load of the enabled receivers, in units of 2⁻³¹ products per second (R292). -/
def State.correlatorFindings (t : State) : List Finding :=
  let load := ((List.range 64).filter fun r => t.rdb F.RAD_RX_CFG.EN r).map fun r =>
    let i := t.rd F.RAD_RX_CFG.SLOT r
    let n := ((List.range (t.rd F.RAD_RX_CFG.HYPS r)).map fun h => (t.rxProfile r h).nchip).foldl (· + ·) 0
    t.fbNum i * 2 ^ 31 / t.fbDen i * n
  finding (decide (65536000000000 * 2 ^ 31 < load.foldl (· + ·) 0)) 0x0A fun off => decide (0x380000 ≤ off ∧ off < 0x388000)

/-! ### Cores, pools, pair, code (R233, R360, R444, R447, R464) -/

/-- 0x0B: RUN for a core whose page 0 is not valid and pinned (R233). -/
def State.coreFindings (s t : State) : List Finding :=
  (List.range 64).flatMap fun n =>
    finding (t.rdb F.SC_CTRL.RUN n && !(bit (s.rd F.SC_STATUS.VALID n) 0 && bit (t.rd F.SC_PIN.PAGES n) 0)) 0x0B
      (· == 0xC0000 + 4096 * n)

/-- The buffers of a pool, as first byte and bytes. -/
def State.poolSpan (t : State) (k : Nat) : Nat × Nat :=
  (t.rd F.MEM_POOL_BASE.BASE k * 16, t.rd F.MEM_POOL_CFG.COUNT k * t.poolUnit k * 16)

/-- 0x0C: an enabled pool that is misaligned, leaves one bank or one enabled partition, or overlaps another (R360). -/
def State.poolFindings (t : State) : List Finding :=
  let on := (List.range 8).filter fun k => t.rdb F.MEM_POOL_CFG.EN k
  on.flatMap fun k =>
    let x := t.poolSpan k
    let last := x.1 + x.2 - 1
    let inside := match t.target x.1, t.target last with
      | .bank b, .bank c => b == c
      | .part p, .part q => p == q
      | _, _ => false
    let others := on.filter fun j => j != k && overlap x.1 x.2 (t.poolSpan j).1 (t.poolSpan j).2
    finding (t.rd F.MEM_POOL_BASE.BASE k % t.poolUnit k != 0 || !inside || !others.isEmpty) 0x0C
      fun off => (k :: others).any fun j => inUnit 0x45000 32 j off

/-- 0x0D: the designated region of a pair is a defined reflex region that is not in HOST mode (R447); a cask range lies in
banks that regions of the mask own (R444). -/
def State.pairFindings (t : State) : List Finding :=
  let r := t.rd F.PAIR_CFG.REGION
  finding (t.rdb F.PAIR_CFG.EN && (!t.rdb F.FAB_RGN_CFG.EN r || t.rdb F.FAB_RGN_CFG.CLASS r || t.rd F.FAB_RGN_TRIG.MODE r == 4)) 0x0D
      (fun off => off == 0x4C0000 || off == 0x10000C + 64 * r)
    ++ (List.range 4).flatMap fun n =>
      let a := t.rd F.PAIR_CASK_RNG.BASE n * 16
      let w := t.rd F.PAIR_CASK_RNG_LEN.WORDS n
      let last := a + 8 * w - 1
      let b := (a - hbmBytes) / 2 ^ 21
      let c := (last - hbmBytes) / 2 ^ 21
      let owned (x : Nat) : Bool :=
        let o := t.rd F.MEM_BANK_CFG.OWNER x
        o / 0x1000 == 4 && bit (t.rd F.PAIR_CASK_CFG.REGIONS) (bits o 9 6)
      finding (w != 0 && !(decide (hbmBytes ≤ a ∧ last < bankEnd) && owned b && owned c)) 0x0D
        fun off => off == 0x4C0018 || inUnit 0x4C0020 8 n off || off == 0x40000 + 32 * b || off == 0x40000 + 32 * c

/-- Code images with their signature blocks that valid objects name, as first byte and bytes (R464). -/
def State.codeSpans (s : State) : List (Nat × Nat) :=
  (List.range 4096).filterMap fun i =>
    let e := plain (s.codeEntry i)
    let o := codeObjOf e
    if bit (fieldAt e 4 1) 7 then some (o.far * 16, o.npages * 8192 + 256) else none

/-- 0x0D: while REQ_CODE is blown, a bank or partition that holds a verified image gets another owner than PAGER (R464). -/
def State.codeFindings (s t : State) (set : List Entry) : List Finding :=
  if !s.rdb F.SEC_FUSE_STAT.REQ_CODE then [] else
  let spans := s.codeSpans
  ((List.range 64).filter fun b => set.any fun e => e.1 == 0x40000 + 32 * b).flatMap (fun b =>
    finding (t.rd F.MEM_BANK_CFG.OWNER b != reqPager && spans.any fun x => overlap x.1 x.2 (hbmBytes + b * 2 ^ 21) (2 ^ 21)) 0x0D
      (· == 0x40000 + 32 * b))
  ++ ((List.range 16).filter fun p => set.any fun e => inUnit 0x44000 16 p e.1).flatMap fun p =>
    finding (t.rd F.MEM_PART_OWN.MASK p != 2 ^ 23 && spans.any fun x =>
      overlap x.1 x.2 (s.partAddr p 0) (s.rd F.MEM_PART_CFG.SIZE p * 2 ^ 26)) 0x0D (inUnit 0x44000 16 p)

/-! ### CHECK -/

/-- Every finding of a set in the state with the set applied, by code. -/
def State.findings (s : State) (set : List Entry) : List Finding :=
  let t := s.staged set
  (set.flatMap fun e => finding (entryBad e) 0x01 (· == e.1))
    ++ (set.flatMap fun e => finding (s.loadOnly t e.1) 0x02 (· == e.1))
    ++ s.bankFindings t set ++ t.partFindings ++ s.releaseFindings t ++ s.trigFindings t
    ++ s.clockFindings t set ++ s.standbyFindings t ++ t.dcoFindings ++ t.linkFindings
    ++ t.slotFindings ++ (set.flatMap fun e => finding (s.slotFixed t e.1) 0x0A (· == e.1))
    ++ s.modemFindings t ++ t.correlatorFindings
    ++ s.coreFindings t ++ t.poolFindings ++ t.pairFindings ++ s.codeFindings t set

/-- The entry that a finding reports (R402). -/
def Finding.index (set : List Entry) (f : Finding) : Option Nat :=
  if f.whole then some 0xFFF else set.findIdx? fun e => f.at_ e.1

/-- The first failure of a set: entry index and code (R402, Table HST-6). -/
def State.check (s : State) (set : List Entry) : Option (Nat × Nat) :=
  (s.findings set).foldl (init := none) fun best f =>
    match f.index set, best with
    | none, _ => best
    | some i, none => some (i, f.code)
    | some i, some b => if i < b.1 then some (i, f.code) else best

/-! ### Commands of the staging set (R401, R402) -/

/-- The submitting port owns semaphore 0 (R401). -/
def State.ownsStage (s : State) (ref : CmdRef) : Bool := s.rd F.HST_SEM_OWNER.OWNER 0 == s.cmdPort ref + 1

/-- The machine with the staging set replaced. -/
def State.setStage (s : State) (l : List (Nat × BitVec 32)) : State :=
  ((s.setHost { s.host with stage := l }).wr F.HST_STG_COUNT.ENTRIES l.length).wr F.HST_STG_STATUS.CHECKED 0

/-- An entry is added at the end, or replaces the value of its offset (R401). -/
def stageAdd (l : List (Nat × BitVec 32)) (e : Nat × BitVec 32) : List (Nat × BitVec 32) :=
  if l.any fun x => x.1 == e.1 then l.map fun x => if x.1 == e.1 then e else x else l ++ [e]

/-- STAGE_WRITE (R401). -/
def execStageWrite (ref : CmdRef) (count : BitVec 8) (entries : List (BitVec 32 × BitVec 32)) (s : State) :
    Host.Outcome State Fault Refusal :=
  .next <| s.command ref 0x0202 fun s =>
    let n := count.toNat
    let es := (entries.take n).map fun e => (e.1.toNat, e.2)
    let l := es.foldl stageAdd s.host.stage
    if (entries.drop n).any (fun e => e.1 != 0 || e.2 != 0) then s.complete ref stRange
    else if !s.ownsStage ref then s.complete ref stRefused
    else if s.host.armed.isSome then s.complete ref stBusy
    else if n < 1 ∨ 6 < n ∨ entries.length < n ∨ 4096 < l.length ∨ es.any (fun e => e.1 % 4 != 0 || decide (2 ^ 24 ≤ e.1)) = true then
      s.complete ref stRange
    else (s.setStage l).complete ref stDone l.length

/-- STAGE_CLEAR (R401). -/
def execStageClear (ref : CmdRef) (s : State) : Host.Outcome State Fault Refusal :=
  .next <| s.command ref 0x0203 fun s =>
    if !s.ownsStage ref then s.complete ref stRefused
    else if s.host.armed.isSome then s.complete ref stBusy
    else (s.setStage []).complete ref stDone

/-- What HST_STG_STATUS shows of a CHECK (Table HST-9). -/
def State.showCheck (s : State) : Option (Nat × Nat) → State
  | none => s.wr F.HST_STG_STATUS.CHECKED 1
  | some (i, c) => ((s.wr F.HST_STG_STATUS.CHECKED 0).wr F.HST_STG_STATUS.CHECK_CODE c).wr F.HST_STG_STATUS.ERR_INDEX i

/-- The RESULT of a failed CHECK (Table HST-5). -/
def checkResult (i c : Nat) : Nat := i + c * 2 ^ 16

/-- CHECK (R402). -/
def execCheck (ref : CmdRef) (s : State) : Host.Outcome State Fault Refusal :=
  .next <| s.command ref 0x0204 fun s =>
    if !s.ownsStage ref then s.complete ref stRefused
    else
      let r := s.check s.stageSet
      let s := s.showCheck r
      match r with
      | none => s.complete ref stDone
      | some (i, c) => s.complete ref stCheckFailed (checkResult i c)

end Sys2Proof.Machine
end

