-- ==== Sys2Proof/Machine/Tracing.lean ====
section
/-! DEFINITION. The trace unit and trace tokens (R470, R471, R475). -/

namespace Sys2Proof.Machine

/-! ### TRC_CTRL (R470) -/

/-- A write to TRC_CTRL: while EN is 1 only EN changes. When EN rises every source begins afresh and the ring is empty; when it
falls tracing stops (notes/assumptions/27.md). -/
def State.trcCtrlWrite (s : State) (v : Nat) : State :=
  let was := s.rdb F.TRC_CTRL.EN
  let now := bit v 31
  let s := s.onlyIf (!was) fun s =>
    ((s.wr F.TRC_CTRL.SINK (bits v 30 30)).wr F.TRC_CTRL.WRAP (bits v 29 29)).wr F.TRC_CTRL.DISP (bits v 28 28)
  let s := s.wrb F.TRC_CTRL.EN now
  if now && !was then
    ({ s with trc := [], trcNext := 0, trcFrames := 0 }.wr64 F.TRC_WPTR_LO.BYTES 0).wr F.TRC_STAT.FULL 0
  else if was && !now then (s.setTrcs []).wr F.TRC_STAT.ACTIVE 0
  else s

/-- A write to a trace register at an offset (R470). -/
def State.trcWrite (s : State) (off v : Nat) : State :=
  if off = 0x4F0000 then s.trcCtrlWrite v
  else if s.rdb F.TRC_CTRL.EN then s
  else match regRow off with
    | some r => s.wrReg off (r.write (s.rdReg off) v)
    | none => s

/-- TRC_CTRL_EN_WRITE (R470). -/
def execTrcCtrlEnWrite (value : BitVec 32) (s : State) : Host.Outcome State Fault Refusal :=
  .next (s.onlyIf (s.bar0Open 0x4F0000) fun s => s.trcCtrlWrite value.toNat)

/-! ### Frames (R471) -/

/-- The next source in round-robin order that holds bytes. -/
def State.trcTurn (s : State) : Option Nat :=
  ((List.range 65).map fun k => (s.trcNext + k) % 65).find? fun n => !(s.trcSrc n).buf.isEmpty

/-- A frame of source n: its number, a count, and up to 14 bytes of its stream. -/
def State.trcFrame (s : State) (n : Nat) : List Byte × State :=
  let t := s.trcSrc n
  let b := t.buf.take 14
  (padTo 16 (leBytes 1 n ++ leBytes 1 b.length ++ b),
    { s with trc := Sparse.set (fun _ => {}) s.trc n { t with buf := t.buf.drop 14 }, trcNext := (n + 1) % 65 })

/-- A frame is written to the ring in HBM; with WRAP = 0 the unit stops at the end of the ring. -/
def State.trcToHbm (s : State) (f : List Byte) : State :=
  let size := 2 ^ s.rd F.TRC_BUF_SIZE.SIZE
  let w := s.rd64 F.TRC_WPTR_LO.BYTES
  let s := (s.put (reqHost 0) (s.rd F.TRC_BUF_BASE.BASE * 16 + w % size) f).wr64 F.TRC_WPTR_LO.BYTES (w + 16)
  s.onlyIf (!s.rdb F.TRC_CTRL.WRAP && decide (size ≤ w + 16)) fun s => (s.wr F.TRC_STAT.FULL 1).wr F.TRC_STAT.ACTIVE 0

/-- One TRACE cycle with the HBM sink. -/
def State.trcHbm (s : State) : State :=
  let a := s.rd F.TRC_BUF_BASE.BASE * 16 + s.rd64 F.TRC_WPTR_LO.BYTES % 2 ^ s.rd F.TRC_BUF_SIZE.SIZE
  if s.rdb F.TRC_STAT.FULL || s.memWaits (reqHost 0) a 16 then s else
  match s.trcTurn with
  | none => s.wr F.TRC_STAT.ACTIVE 0
  | some n =>
    let r := s.trcFrame n
    (r.2.wr F.TRC_STAT.ACTIVE 1).trcToHbm r.1

/-- The next frame of the trace port: an alignment frame after every 255 frames, else a source's frame or an idle frame. -/
def State.trcToPort (s : State) : State :=
  if s.trcFrames = 255 then { s with trcPort := List.replicate 16 0xF0, trcFrames := 0 }.wr F.TRC_STAT.ACTIVE 1
  else match s.trcTurn with
    | none => { s with trcPort := 0xFF :: List.replicate 15 0, trcFrames := s.trcFrames + 1 }.wr F.TRC_STAT.ACTIVE 1
    | some n =>
      let r := s.trcFrame n
      { r.2 with trcPort := r.1, trcFrames := s.trcFrames + 1 }.wr F.TRC_STAT.ACTIVE 1

/-- TRACE_FRAME (R471): one TRACE cycle, or one frame of the port. -/
def execTraceFrame (s : State) : Host.Outcome State Fault Refusal :=
  .next <| s.live fun s => s.onlyIf (s.rdb F.TRC_CTRL.EN) fun s =>
    if s.rdb F.TRC_CTRL.SINK then s.trcToPort else s.trcHbm

/-! ### Tokens (R475) -/

/-- A loaded token is removed: TRACE_AUTH_END. -/
def State.tokenEnd (s : State) : State :=
  s.onlyIf (s.rdb F.SEC_TRC_AUTH.VALID) fun s =>
    (((({ s with trcCores := 0 }.wr F.SEC_TRC_AUTH.VALID 0).wr F.SEC_TRC_AUTH.SCOPE 0).wr64 F.SEC_TRC_AUTH_NA_LO.NOT_AFTER 0)).event
      0x0C05 sevInfo (sourceId 0x0C05 0 0)

/-- A token with its signature block is judged, and loaded (Table SEC-7). -/
def State.tokenLoad (s : State) (ref : CmdRef) (t : List Byte) : State :=
  let body := slice t 0 64
  let block := slice t 64 256
  let na := fieldAt body 24 8
  if !s.sigOk 0x47495354 [0, 1, 2, 3, 4] (hash body) block then (s.authFail 5 block).complete ref stAuthFailed
  else if fieldAt body 0 4 ≠ 0x4B4F5454 ∨ fieldAt body 4 2 ≠ 1 ∨ fieldAt body 8 8 ≠ s.rd64 F.GLB_SERIAL_LO.SERIAL
      ∨ fieldAt body 16 8 ≠ s.rd64 F.SEC_BOOT_NONCE_LO.NONCE ∨ (na ≠ 0 ∧ na ≤ s.now) then s.complete ref stAuthFailed
  else
    let s := { s with trcCores := BitVec.ofNat 64 (fieldAt body 32 8) }
    let s := ((s.wr F.SEC_TRC_AUTH.VALID 1).wr F.SEC_TRC_AUTH.SCOPE (fieldAt body 40 4)).wr64 F.SEC_TRC_AUTH_NA_LO.NOT_AFTER na
    (s.event 0x0C04 sevInfo (sourceId 0x0C04 0 0)).complete ref stDone

/-- SEC_TRACE_AUTH (R475): loads the token at a host address, or with address 0 removes the one loaded. -/
def execSecTraceAuth (ref : CmdRef) (addr : BitVec 64) (s : State) : Host.Outcome State Fault Refusal :=
  .next <| s.command ref 0x0C06 fun s =>
    if addr = 0 then s.tokenEnd.complete ref stDone
    else if !s.portUp (s.cmdPort ref) then s.complete ref stIncomplete
    else s.tokenLoad ref (s.hostRead (s.cmdPort ref) addr.toNat 320)

/-- TRACE_TOKEN_EXPIRY (R475). -/
def execTraceTokenExpiry (s : State) : Host.Outcome State Fault Refusal :=
  .next <| s.live fun s =>
    let na := s.rd64 F.SEC_TRC_AUTH_NA_LO.NOT_AFTER
    s.onlyIf (na != 0 && decide (na ≤ s.now)) State.tokenEnd

end Sys2Proof.Machine
end

