-- ==== Sys2Proof/Machine/Commit.lean ====
section
/-! DEFINITION. COMMIT, its instant, and what committed values do in the units (R403 to R405, R128, R145, R284, R344,
R345, R348, R418, R425). -/

namespace Sys2Proof.Machine

/-! ### One register written (R402) -/

/-- A write to a word of the MSI-X tables: unmasking a vector whose pending bit is set sends its message (R394). -/
def State.msixWrite (s : State) (off v : Nat) : State :=
  let p := (off - 0x30000) / 0x1000
  let k := (off - 0x30000) % 0x1000 / 16
  let s := s.wrReg off v
  let pend := s.rd F.HST_MSIX_PBA.PEND p (k / 32)
  if off % 16 = 12 ∧ bit v 0 = false ∧ bit pend (k % 32) = true ∧ s.portUp p = true then
    (s.wr F.HST_MSIX_PBA.PEND (setBits pend (k % 32) (k % 32) 0) p (k / 32)).msix p k
  else s

/-- A write to a remap entry, taken while the bank's effective owner is KILN (Table MEM-7). -/
def State.remapWrite (s : State) (off v : Nat) : State :=
  let b := (off - 0x42000) / 64
  s.onlyIf (s.rd F.MEM_BANK_STAT.OWNER b == reqKiln) fun s => (s.writeFields off v).showRemaps b

/-- A value reaches the RW and RWL fields of the register at an offset, from port p, with what the register itself does. -/
def State.writeEntry (s : State) (p off v : Nat) : State :=
  if 0x21000 ≤ off ∧ off < 0x23000 then
    let r := (off - 0x21000) / 32
    let k := (off - 0x21000) % 32 / 4
    if k < 4 then s.ringBaseWrite r k v else if k = 4 then s.ringCfgWrite r v else s
  else if off = 0x20080 ∨ off = 0x20088 then s.winWrite ((off - 0x20080) / 8) v
  else if 0x20100 ≤ off ∧ off < 0x20140 ∧ off % 32 < 12 then s.evtCfgWrite ((off - 0x20100) / 32) (off % 32 / 4) v
  else if 0x20400 ≤ off ∧ off < 0x20500 then s.onlyIf (off % 8 == 4) fun s => s.semTagWrite p ((off - 0x20400) / 8) v
  else if 0x30000 ≤ off ∧ off < 0x32000 then s.msixWrite off v
  else if 0x42000 ≤ off ∧ off < 0x43000 then s.remapWrite off v
  else if 0x4F0000 ≤ off ∧ off < 0x4F001C then s.trcWrite off v
  else s.writeFields off v

/-! ### What the units do with committed values

`old`: the machine before the values were written. Each family takes the offsets written. -/

/-- The units of an array that some offsets lie in. -/
def unitsOf (base stride n : Nat) (offs : List Nat) : List Nat := (offs.filterMap (unitOf base stride n)).eraseDups

/-- The ready flag of a clock source (R418). -/
def State.sourceReady (s : State) (src : Nat) : Bool := if src = 0 then s.rdb F.CLK_STATUS.XTAL_RDY else s.rdb F.CLK_STATUS.RCO_RDY

/-- A committed source of domain d + 1 (R418, R421): a domain keeps its source where the new one is not ready. -/
def State.srcCommitted (s old : State) (d : Nat) : State :=
  let src := s.rd F.CLK_DOM_CFG.SRC d
  let was := old.rd F.CLK_DOM_CFG.SRC d
  if src ≠ was ∧ s.sourceReady src = false then (s.wr F.CLK_DOM_CFG.SRC was d).clkEvent 0x0108 sevWarn (d + 1) 0
  else
    let s := s.onlyIf (src != was) fun s => s.moveDomains [d + 1] src
    s.onlyIf (src == 0 && s.rdb F.CLK_STATUS.XTAL_RDY) fun s => s.wr F.GLB_STATUS.TB_DEGRADED 0

/-- Clocks, STANDBY and timebase pulses (R418, R425, R431). -/
def State.clocksCommitted (s old : State) (offs : List Nat) (c : Nat) : State :=
  let s := s.each (unitsOf 0x10100 4 25 offs) fun s d => s.srcCommitted old d
  let s := s.onlyIf (offs.any fun o => decide (0x10100 ≤ o ∧ o < 0x10164) || o == 0x10024) State.showPower
  let s := s.onlyIf (offs.contains 0x10020) fun s => s.standbyCommitted (old.rdb F.CLK_PWR_CTRL.STANDBY) (s.rdb F.CLK_PWR_CTRL.STANDBY)
  s.each (unitsOf 0x10200 16 4 offs) fun s i => s.setClk { s.clk with pulseAt := Sparse.insert s.clk.pulseAt i (c + 1) }

/-- A committed bank (R344, R345, R348). `draining`: requests of the old owner that the bank accepted are still served. -/
def State.bankCommitted (s old : State) (draining : Bool) (b : Nat) : State :=
  let on := s.rdb F.MEM_BANK_CFG.PWR b
  let was := old.rdb F.MEM_BANK_CFG.PWR b
  let st := s.rd F.MEM_BANK_STAT.STATE b
  if !on then
    (s.onlyIf was fun s => s.gateRequest [0x30 + b]).wr F.MEM_BANK_STAT.OWNER 0 b
  else
    let owner := ownerNorm (s.rd F.MEM_BANK_CFG.OWNER b)
    let new := owner != s.rd F.MEM_BANK_STAT.OWNER b
    let s := s.wr F.MEM_BANK_STAT.OWNER owner b
    let s := s.onlyIf (!was) fun s => (s.setMem { s.mem with
      gates := s.mem.gates.filter (· != 0x30 + b), off := s.mem.off.filter (· != 0x30 + b) }).showOpen (0x30 + b) 0
    if st = 3 then s.wr F.MEM_BANK_STAT.STATE 2 b
    else if st = 6 then s.wr F.MEM_BANK_STAT.STATE 0 b
    else s.onlyIf (st == 0 && was && new && draining) fun s => s.wr F.MEM_BANK_STAT.STATE 1 b

/-- A committed partition (R344, R345, R137). -/
def State.partCommitted (s old : State) (draining : Bool) (p : Nat) : State :=
  let moved := s.rdReg (0x44000 + 16 * p) != old.rdReg (0x44000 + 16 * p)
  let owned := s.rd F.MEM_PART_OWN.MASK p != old.rd F.MEM_PART_OWN.MASK p
  let s := s.onlyIf (owned && draining) fun s => s.setMem { s.mem with partDrain := s.mem.partDrain ||| (1#16 <<< p) }
  s.onlyIf (moved || owned) fun s => s.vlibDrop fun e => e.part == p

/-- Banks, partitions and pools (R344, R360). `drains`: targets whose old owner's accepted requests remain, a bank by its
number, partition p by 64 + p. -/
def State.memoryCommitted (s old : State) (offs : List Nat) (drains : List Nat) : State :=
  let s := s.each ((unitsOf 0x40000 32 64 offs).filter fun b => offs.contains (0x40000 + 32 * b)) fun s b =>
    s.bankCommitted old (drains.contains b) b
  let s := s.each (unitsOf 0x44000 16 16 offs) fun s p => s.partCommitted old (drains.contains (64 + p)) p
  let s := s.each (unitsOf 0x45000 32 8 offs) fun s k =>
    let on := s.rdb F.MEM_POOL_CFG.EN k
    s.onlyIf (on != old.rdb F.MEM_POOL_CFG.EN k) fun s => s.poolEnable k on
  s.serveHeld

/-- Pins, banks of pins, clock outputs (R145, R146, R158) and region triggers (R87). -/
def State.pinsCommitted (s old : State) (offs : List Nat) : State :=
  let s := s.each (unitsOf 0x300000 16 512 offs) State.pinCommitted
  let s := s.each ((unitsOf 0x302000 16 16 offs).filter fun b => offs.contains (0x302000 + 16 * b)) State.releaseCommitted
  let s := s.each (unitsOf 0x306000 32 8 offs) fun s k =>
    s.dcoCommitted k (old.rdb F.PIN_DCO_CTRL.EN k) ([0x306004, 0x306008].any fun o => old.changes s (o + 32 * k))
  s.each (unitsOf 0x100000 64 16 offs) fun s r =>
    s.onlyIf ([0x10000C, 0x100010].any fun o => old.changes s (o + 64 * r)) fun s =>
      s.trigCommitted r (old.rdReg (0x10000C + 64 * r)) (old.rdReg (0x100010 + 64 * r))

/-- Cores and flows (R233, R257). -/
def State.coresCommitted (s old : State) (offs : List Nat) : State :=
  let s := s.each (unitsOf 0xC0000 4096 64 offs) fun s n => s.coreRun n (old.rdb F.SC_CTRL.RUN n) (s.rdb F.SC_CTRL.RUN n)
  s.onlyIf (offs.any fun o => decide (0x80000 ≤ o ∧ o < 0x84000)) State.refresh

/-- The settings of a slot that may change while it runs (R284). -/
def State.slotNow (s : State) (i : Nat) : Nat × Nat × Nat × Nat × Nat :=
  (s.rd F.RAD_SLOT_NCO.FREQ i, s.rd F.RAD_SLOT_GAIN.RX_GAIN i, s.rd F.RAD_SLOT_GAIN.TX_GAIN i, s.rd F.RAD_SLOT_FE.FIRSET i,
    s.rd F.RAD_SLOT_FE.WIN i)

/-- Slots, receivers, domains and timers (R284 to R286, R290, R293). -/
def State.radioCommitted (s old : State) (offs : List Nat) (c : Nat) : State :=
  let s := s.each (unitsOf 0x380000 64 256 offs) fun s i =>
    let was := old.rdb F.RAD_SLOT_CFG.EN i
    let now := s.rdb F.RAD_SLOT_CFG.EN i
    if was && now then s.onlyIf (old.slotNow i != s.slotNow i) fun s => s.slotChanged i c (old.slotNow i)
    else s.slotEnabled i was now c
  let s := s.each (unitsOf 0x384000 256 64 offs) fun s r =>
    (s.onlyIf (offs.contains (0x384000 + 256 * r)) fun s => s.rxPreset r).rxEnabled r (old.rdb F.RAD_RX_CFG.EN r)
      (s.rdb F.RAD_RX_CFG.EN r)
  let s := s.each (unitsOf 0x388000 64 64 offs) fun s t => s.onlyIf (offs.contains (0x388000 + 64 * t)) fun s => s.txPreset t
  let s := s.each (unitsOf 0x389000 32 16 offs) fun s d =>
    s.onlyIf ([0, 4, 8, 12].any fun k => old.changes s (0x389000 + 32 * d + k)) fun s => s.domCommitted d c old
  s.each (unitsOf 0x389400 16 64 offs) fun s t => s.tmrEnabled t (old.rdb F.RAD_TMR_CFG.EN t) (s.rdb F.RAD_TMR_CFG.EN t) c

/-- Links and the pair (R372, R434). -/
def State.linksCommitted (s old : State) (offs : List Nat) : State :=
  let s := s.each ((unitsOf 0x480000 256 16 offs).filter fun k => offs.contains (0x480000 + 256 * k)) fun s k =>
    s.linkCommitted k (old.rdb F.LNK_CFG.EN k)
      (s.rd F.LNK_CFG.ROLE k != old.rd F.LNK_CFG.ROLE k || s.rd F.LNK_CFG.FFE k != old.rd F.LNK_CFG.FFE k)
  s.onlyIf (offs.contains 0x4C0000) fun s => s.pairCommitted (old.rdb F.PAIR_CFG.EN)

/-- Entries take effect at instant c in every unit they touch (R404). -/
def State.applyEntries (s : State) (p : Nat) (set : List Entry) (drains : List Nat) (c : Nat) : State :=
  let offs := set.map (·.1)
  let s := s.onlyIf (offs.any fun o => decide (0x10114 ≤ o ∧ o < 0x10124)) fun s => s.each (List.range 64) State.countCore
  let old := s
  let s := set.foldl (fun s e => s.writeEntry p e.1 e.2) s
  let s := (s.clocksCommitted old offs c).memoryCommitted old offs drains
  let s := (s.pinsCommitted old offs).coresCommitted old offs
  (s.radioCommitted old offs c).linksCommitted old offs

/-! ### The command (R403) -/

/-- The offset of a register of the PAIR_ block; of the PAIR_ or GLB_ block (R437). -/
def inPairBlock (off : Nat) : Bool := decide (0x4C0000 ≤ off ∧ off < 0x4E0000)
def pairAllows (off : Nat) : Bool := inPairBlock off || decide (off < 0x10000)

/-- The set moves some domain to a source that is not ready (R418). -/
def State.srcNotReady (s : State) (set : List Entry) : Bool :=
  let t := s.staged set
  (unitsOf 0x10100 4 25 (set.map (·.1))).any fun d =>
    srcDomain (d + 1) && t.rd F.CLK_DOM_CFG.SRC d != s.rd F.CLK_DOM_CFG.SRC d && !s.sourceReady (t.rd F.CLK_DOM_CFG.SRC d)

/-- COMMIT accepted: the set goes to every unit it touches. -/
def State.commitAccept (s : State) (ref : CmdRef) (mode region t : Nat) : State :=
  let set := s.stageSet
  if mode = 1 ∧ s.rlive region = false then s.complete ref stRefused
  else if s.srcNotReady set then s.complete ref stRefused
  else (s.setHost { s.host with armed := some ⟨ref, mode, region, t, false, none, false, set⟩ }).wr F.HST_STG_STATUS.ARMED 1

/-- COMMIT (R403, R437). -/
def execCommit (ref : CmdRef) (when_ region : BitVec 8) (t : BitVec 64) (s : State) : Host.Outcome State Fault Refusal :=
  .next <| s.command ref 0x0205 fun s =>
    let set := s.stageSet
    if 2 < when_.toNat ∨ bits region.toNat 7 4 ≠ 0 then s.complete ref stRange
    else if !s.ownsStage ref then s.complete ref stRefused
    else if s.host.armed.isSome then s.complete ref stBusy
    else if set.isEmpty then s.complete ref stRefused
    else if s.standbyLocked && set.any fun e => !pairAllows e.1 then s.complete ref stRefused
    else match s.check set with
      | some f => (s.showCheck (some f)).complete ref stCheckFailed (checkResult f.1 f.2)
      | none => (s.showCheck none).commitAccept ref when_.toNat region.toNat t.toNat

/-- COMMIT_ARMED (R403): arming ends, and C is fixed by WHEN. -/
def execCommitArmed (s : State) : Host.Outcome State Fault Refusal :=
  .next <| s.live fun s =>
    match s.host.armed with
    | none => s
    | some a =>
      if a.armed then s else
      let set (a : Armed) (s : State) : State := (s.setHost { s.host with armed := some a })
      let a := { a with armed := true }
      if a.mode = 1 then
        let s := set a s
        if s.rlive a.region then s else s.commitRegionHalted a.region
      else if a.mode = 2 ∧ s.now + 32 ≤ a.t then set { a with c := some a.t } s
      else (set { a with c := some (s.now + 32), late := a.mode == 2 } s).pastPoint a.ref

/-! ### The instant (R404) -/

/-- The primary forwards the entries of a set outside the PAIR_ block, then the commit itself (R439, Tables PAIR-2, PAIR-3). -/
def State.forwardCommit (s : State) (set : List Entry) : State :=
  let l := set.filter fun e => !inPairBlock e.1
  if !s.forwards || l.isEmpty then s else
  let s := s.each (List.range (ceilDiv l.length 6)) fun s k => s.pairOut (.commit (6 * k) ((l.drop (6 * k)).take 6))
  s.pairRec 5 l.length

/-- The RWL registers of a set have been included in a commit (R11). -/
def State.commitMarks (s : State) (set : List Entry) : State :=
  s.markCommitted ((set.map (·.1)).filter fun o => match regRow o with
    | some r => r.fields.any fun f => f.acc == .rwl
    | none => false)

/-- A set holds a FAB_ register while a load is in progress (R128). -/
def State.fabLocked (s : State) (set : List Entry) : Bool :=
  s.fab.load.isSome && set.any fun e => decide (0x100000 ≤ e.1 ∧ e.1 < 0x200000)

/-- The commit instant of an armed set. -/
def State.commitNow (s : State) (a : Armed) (c : Nat) (drains : List Nat) : State :=
  let s := (s.setHost { s.host with armed := none }).wr F.HST_STG_STATUS.ARMED 0
  if s.fabLocked a.set then s.complete a.ref stBusy
  else
    let s := (s.forwardCommit a.set).applyEntries (s.cmdPort a.ref) a.set drains c
    ((s.commitMarks a.set).setStage []).complete a.ref (if a.late then stLate else stDone) c

/-- COMMIT_INSTANT (R404). `drains`: the banks, and as 64 + p the partitions, whose old owner's accepted requests remain
(R345). -/
def execCommitInstant (drains : BitVec 80) (s : State) : Host.Outcome State Fault Refusal :=
  .next <| s.live fun s =>
    match s.host.armed with
    | some a => (match a.c with
      | some c => if c ≤ s.now then s.commitNow a c (maskBits 80 drains.toNat) else s
      | none => s)
    | none => s

/-- A commit is given up before its point of no return: the set stays staged and checked (R405). -/
def State.commitCancel (s : State) : State := (s.setHost { s.host with armed := none }).wr F.HST_STG_STATUS.ARMED 0

/-! ### A direct write (R11, R502) -/

/-- The offset has been included in a commit. -/
def State.isCommitted (s : State) (off : Nat) : Bool := Sparse.get (fun _ => false) s.host.committed off

/-- A direct write to an RWL register (R11, R502): as a COMMIT of that one write at the present instant, unless it was
committed before, CHECK would fail it, or a COMMIT of it would be refused. -/
def State.directWrite (s : State) (p off v : Nat) (drains : List Nat) : State :=
  let set : List Entry := [(off, v)]
  if s.isCommitted off || decide (0x10100 ≤ off ∧ off < 0x10164) || off == 0x10020 then s
  else if (s.check set).isSome || (s.standbyLocked && !pairAllows off) || s.fabLocked set then s
  else (s.forwardCommit set).applyEntries p set drains s.now

end Sys2Proof.Machine
end

