-- ==== Sys2Proof/Machine/Abort.lean ====
section
/-! DEFINITION. ABORT and the orderly freeze (R398, R408, R43). -/

namespace Sys2Proof.Machine

/-- Commands whose point of no return lies after their acceptance: COMMIT, LOAD_GRIST, FAB_START, FAB_FRAME, ELA_LOAD,
CAP_ARM, CAP_SNAP, PAIR_FAILOVER, PAIR_JOIN. Any other accepted command has passed it (R397). -/
def lateOps : List Nat := [0x0205, 0x0401, 0x0402, 0x0405, 0x0501, 0x0901, 0x0904, 0x0B01, 0x0B02]

/-- An accepted command is before its point of no return. -/
def Cmd.early (c : Cmd) : Bool := c.accepted && !c.past && lateOps.contains c.opcode

/-- A FAB_FRAME that has not begun its frame is given up: its region is as it was (R105). -/
def State.frameCancel (s : State) (ref : CmdRef) : State :=
  s.each (List.range 16) fun s r =>
    let x := s.rgn r
    s.onlyIf (x.single == some ref) fun s =>
      let s := ((s.wr F.FAB_RGN_STATUS.STATE x.prior.1 r).wr F.FAB_RGN_STATUS.HALT_CAUSE x.prior.2 r).showResting r
      s.setRgn r { x with single := none, singleHalt := false, accepted := none }

/-- What an accepted command has begun is given up, before its point of no return: nothing of it remains (R43). -/
def State.giveUp (s : State) (ref : CmdRef) : State :=
  let s := s.onlyIf (match s.host.armed with | some a => a.ref == ref | none => false) State.commitCancel
  let s := s.onlyIf (match s.fab.load with | some l => l.ref == ref | none => false) fun s => s.setGrist none
  let s := (s.setFab { s.fab with starts := s.fab.starts.filter fun c => c.ref != ref })
  let s := s.frameCancel ref
  let s := s.onlyIf (match s.ela.load with | some l => l.ref == some ref | none => false) fun s => s.setLoad none
  let s := s.capCancel ref
  let s := s.onlyIf (s.pair.join == some ref) fun s => s.setPair { s.pair with join := none, joinStep := none }
  s.onlyIf (s.pair.failover == some ref) fun s => s.setPair { s.pair with failover := none, yielding := false }

/-- A command completes ABORTED: one not accepted without starting, an accepted one with what it has begun given up. -/
def State.abortCmd (s : State) (c : Cmd) : State :=
  let r := c.ref.ring.toNat
  let g := s.ring r
  (if c.accepted then s.giveUp c.ref else s.setRing r { g with gone := g.gone ++ [c.ref.index.toNat] }).complete c.ref stAborted

/-- The index has been submitted and not fetched. -/
def State.unfetched (s : State) (r i : Nat) : Bool :=
  let size := 2 ^ s.rd F.HST_RING_CFG.SQ_SIZE r
  let head := s.rd F.HST_RING_STAT.SQ_HEAD r
  decide ((i + size - head) % size < ((s.ring r).sqTail + size - head) % size)

/-- ABORT (R398). An index submitted again since its last fetch counts as not fetched. -/
def execAbort (ref : CmdRef) (ring index : BitVec 16) (s : State) : Host.Outcome State Fault Refusal :=
  let r := ring.toNat
  let i := index.toNat
  .next <| s.command ref 0x0206 fun s =>
    let s := s.commitPast
    if 255 < r ∨ 2 ^ s.rd F.HST_RING_CFG.SQ_SIZE r ≤ i then s.complete ref stRange
    else
      let g := s.ring r
      match Sparse.find g.last i, s.unfetched r i with
      | some op, false =>
        if op = 0x0206 then s.complete ref stRange
        else match s.host.cmds.find? fun c => c.ref.ring.toNat == r && c.ref.index.toNat == i with
          | some c => if c.accepted && !c.early then s.complete ref stTooLate else (s.abortCmd c).complete ref stDone
          | none => s.complete ref stTooLate
      | _, _ => (s.setRing r { g with marks := if g.marks.contains i then g.marks else g.marks ++ [i] }).complete ref stDone

/-- PFW_N_FALL (R408): in pair mode the primary's handover starts; fetching stops; what has not started, and what is before
its point of no return, completes ABORTED. -/
def execPfwNFall (s : State) : Host.Outcome State Fault Refusal :=
  .next <| s.live fun s =>
    let s := ((s.setHost { s.host with pfw := false, pfwEdge := some s.now }).wr F.HST_STATUS.FROZEN 1).heartbeatLow
    let s := s.commitPast
    let s := s.event 0x0204 sevWarn (sourceId 0x0204 0 0)
    let s := s.each (s.host.cmds.filter fun c => !c.accepted || c.early) State.abortCmd
    let s := s.onlyIf (s.rdb F.PAIR_CFG.EN && s.rd F.PAIR_STAT.ROLE == 0) fun s => s.setPair { s.pair with yielding := true }
    s.quiesceIfIdle

end Sys2Proof.Machine
end

