-- ==== Sys2Proof/Machine/Alu.lean ====
section
/-! DEFINITION. Arithmetic, logic, shift, immediate, register-move and absolute-access operations of the signal cores
(R245, R246, R250, Tables ISA-8 and ISA-9). -/

namespace Sys2Proof.Machine

/-! ### Results -/

/-- A sum with NZCV. -/
def addRes (a b cin : Nat) : AluRes := { v := (a + b + cin) % 2 ^ 32, f := flagsAdd a b cin }

/-- A difference with NZCV. -/
def subRes (a b bin : Nat) : AluRes := { v := toBits 32 ((a : Int) - b - bin), f := flagsSub a b bin }

/-- A value with N and Z. -/
def nzRes (r : Nat) : AluRes := { v := r % 2 ^ 32, f := flagsNZ r }

/-- An exact result saturated to 32 bits, with NZV and SV. -/
def satRes (i : Int) : AluRes :=
  let r := toBits 32 (satS 32 i)
  { v := r, f := flagsSat r (satS 32 i != i) }

/-- A left shift by k below 32. -/
def lslRes (a k : Nat) : AluRes :=
  let r := a * 2 ^ k % 2 ^ 32
  { v := r, f := flagsShift r k (bit a (32 - k)) }

/-- A logical right shift by k below 32. -/
def lsrRes (a k : Nat) : AluRes := { v := a / 2 ^ k, f := flagsShift (a / 2 ^ k) k (bit a (k - 1)) }

/-- An arithmetic right shift by k below 32. -/
def asrRes (a k : Nat) : AluRes :=
  let r := toBits 32 (sint 32 a / 2 ^ k)
  { v := r, f := flagsShift r k (bit a (k - 1)) }

/-- A right rotation by k below 32; C takes bit 31 of the result. -/
def rorRes (a k : Nat) : AluRes :=
  let r := (a / 2 ^ k + a * 2 ^ (32 - k)) % 2 ^ 32
  { v := r, f := flagsShift r k (bit r 31) }

/-- The two signed halves of a word: [15:0], then [31:16]. -/
def halves (a : Nat) : Int × Int := (sint 16 a, sint 16 (a / 2 ^ 16))

/-- A word from two half-word values, wrapped. -/
def packHalves (l h : Int) : Nat := toBits 16 l + toBits 16 h * 2 ^ 16

/-- An operation on each half, wrapped. -/
def halvesRes (f : Int → Int → Int) (a b : Nat) : AluRes :=
  { v := packHalves (f (halves a).1 (halves b).1) (f (halves a).2 (halves b).2) }

/-- An operation on each half, saturated to 16 bits, with SV. -/
def satHalvesRes (f : Int → Int → Int) (a b : Nat) : AluRes :=
  let l := f (halves a).1 (halves b).1
  let h := f (halves a).2 (halves b).2
  { v := packHalves (satS 16 l) (satS 16 h), f := { sv := satS 16 l != l || satS 16 h != h } }

/-- Each half shifted right arithmetically by k. -/
def asr2Res (a k : Nat) : AluRes := { v := packHalves ((halves a).1 / 2 ^ k) ((halves a).2 / 2 ^ k) }

/-- The conjugate: the high half negated and saturated. -/
def conjRes (a : Nat) : AluRes :=
  let h := -(halves a).2
  { v := packHalves (halves a).1 (satS 16 h), f := { sv := satS 16 h != h } }

/-! ### NOP -/

/-- NOP and the reserved opcodes (R245, R253): NOP does nothing where OPF is 0; every opcode that no table lists raises
ILLEGAL. -/
def opNop (opc : Nat) (x : OpCtx) : Fx := { faults := causeIf (opc != 0 || x.opf != 0) xILLEGAL }

/-- The opcodes that Tables ISA-8 to ISA-12 list. -/
def opcListed (opc : Nat) : Bool :=
  decide (opc ≤ 0x2D) || [0x30, 0x31, 0x32, 0x34, 0x35, 0x36, 0x37].contains opc
    || (decide (0x40 ≤ opc) && decide (opc ≤ 0x43)) || (decide (0x48 ≤ opc) && decide (opc ≤ 0x4E))
    || (decide (0x50 ≤ opc) && decide (opc ≤ 0x52)) || (decide (0x60 ≤ opc) && decide (opc ≤ 0x65))
    || (decide (0x68 ≤ opc) && decide (opc ≤ 0x6B)) || (decide (0x70 ≤ opc) && decide (opc ≤ 0x75))
    || (decide (0x78 ≤ opc) && decide (opc ≤ 0x7D))

/-- NOP (R245). The row takes the opcode so that it also shows what a bundle with a reserved one does (R253). -/
def execOpNop (core : BitVec 6) (opc : BitVec 8) (b : Bundle) (s : State) : Host.Outcome State Fault Refusal :=
  .next (if opcListed opc.toNat && opc != 0 then s else s.bundle core.toNat opc.toNat b (opNop opc.toNat))

/-! ### Tables ISA-8 and ISA-9 -/

/-- The result of ADD (R245, Table ISA-8). -/
def opAdd (x : OpCtx) : Fx := x.r3 .two fun a b => addRes a b 0

/-- ADD (R245, Table ISA-8). -/
def execOpAdd (core : BitVec 6) (b : Bundle) (s : State) : Host.Outcome State Fault Refusal :=
  .next (s.bundle core.toNat 0x01 b opAdd)

/-- The result of ADC (R245, Table ISA-8). -/
def opAdc (x : OpCtx) : Fx := x.r3 .two fun a b => { addRes a b (b2n (bit x.srv 2)) with p := bit x.srv 6 }

/-- ADC (R245, Table ISA-8). -/
def execOpAdc (core : BitVec 6) (b : Bundle) (s : State) : Host.Outcome State Fault Refusal :=
  .next (s.bundle core.toNat 0x02 b opAdc)

/-- The result of SUB (R245, Table ISA-8). -/
def opSub (x : OpCtx) : Fx := x.r3 .two fun a b => subRes a b 0

/-- SUB (R245, Table ISA-8). -/
def execOpSub (core : BitVec 6) (b : Bundle) (s : State) : Host.Outcome State Fault Refusal :=
  .next (s.bundle core.toNat 0x03 b opSub)

/-- The result of SBC (R245, Table ISA-8). -/
def opSbc (x : OpCtx) : Fx := x.r3 .two fun a b => { subRes a b (1 - b2n (bit x.srv 2)) with p := bit x.srv 6 }

/-- SBC (R245, Table ISA-8). -/
def execOpSbc (core : BitVec 6) (b : Bundle) (s : State) : Host.Outcome State Fault Refusal :=
  .next (s.bundle core.toNat 0x04 b opSbc)

/-- The result of AND (R245, Table ISA-8). -/
def opAnd (x : OpCtx) : Fx := x.r3 .two fun a b => nzRes (a &&& b)

/-- AND (R245, Table ISA-8). -/
def execOpAnd (core : BitVec 6) (b : Bundle) (s : State) : Host.Outcome State Fault Refusal :=
  .next (s.bundle core.toNat 0x05 b opAnd)

/-- The result of OR (R245, Table ISA-8). -/
def opOr (x : OpCtx) : Fx := x.r3 .two fun a b => nzRes (a ||| b)

/-- OR (R245, Table ISA-8). -/
def execOpOr (core : BitVec 6) (b : Bundle) (s : State) : Host.Outcome State Fault Refusal :=
  .next (s.bundle core.toNat 0x06 b opOr)

/-- The result of XOR (R245, Table ISA-8). -/
def opXor (x : OpCtx) : Fx := x.r3 .two fun a b => nzRes (a ^^^ b)

/-- XOR (R245, Table ISA-8). -/
def execOpXor (core : BitVec 6) (b : Bundle) (s : State) : Host.Outcome State Fault Refusal :=
  .next (s.bundle core.toNat 0x07 b opXor)

/-- The result of ANDN (R245, Table ISA-8). -/
def opAndn (x : OpCtx) : Fx := x.r3 .two fun a b => nzRes (a &&& (2 ^ 32 - 1 - b))

/-- ANDN (R245, Table ISA-8). -/
def execOpAndn (core : BitVec 6) (b : Bundle) (s : State) : Host.Outcome State Fault Refusal :=
  .next (s.bundle core.toNat 0x08 b opAndn)

/-- The result of MIN (R245, Table ISA-8). -/
def opMin (x : OpCtx) : Fx := x.r3 .two fun a b => nzRes (if sint 32 a ≤ sint 32 b then a else b)

/-- MIN (R245, Table ISA-8). -/
def execOpMin (core : BitVec 6) (b : Bundle) (s : State) : Host.Outcome State Fault Refusal :=
  .next (s.bundle core.toNat 0x09 b opMin)

/-- The result of MAX (R245, Table ISA-8). -/
def opMax (x : OpCtx) : Fx := x.r3 .two fun a b => nzRes (if sint 32 a ≤ sint 32 b then b else a)

/-- MAX (R245, Table ISA-8). -/
def execOpMax (core : BitVec 6) (b : Bundle) (s : State) : Host.Outcome State Fault Refusal :=
  .next (s.bundle core.toNat 0x0A b opMax)

/-- The result of ABS (R245, Table ISA-8). -/
def opAbs (x : OpCtx) : Fx := x.r3 .one fun a _ => satRes (if sint 32 a < 0 then -sint 32 a else sint 32 a)

/-- ABS (R245, Table ISA-8). -/
def execOpAbs (core : BitVec 6) (b : Bundle) (s : State) : Host.Outcome State Fault Refusal :=
  .next (s.bundle core.toNat 0x0B b opAbs)

/-- The result of NEG (R245, Table ISA-8). -/
def opNeg (x : OpCtx) : Fx := x.r3 .one fun a _ => satRes (-sint 32 a)

/-- NEG (R245, Table ISA-8). -/
def execOpNeg (core : BitVec 6) (b : Bundle) (s : State) : Host.Outcome State Fault Refusal :=
  .next (s.bundle core.toNat 0x0C b opNeg)

/-- The result of CMP (R245, Table ISA-8). -/
def opCmp (x : OpCtx) : Fx := x.r3 .test fun a b => subRes a b 0

/-- CMP (R245, Table ISA-8). -/
def execOpCmp (core : BitVec 6) (b : Bundle) (s : State) : Host.Outcome State Fault Refusal :=
  .next (s.bundle core.toNat 0x0D b opCmp)

/-- The result of TST (R245, Table ISA-8). -/
def opTst (x : OpCtx) : Fx := x.r3 .test fun a b => nzRes (a &&& b)

/-- TST (R245, Table ISA-8). -/
def execOpTst (core : BitVec 6) (b : Bundle) (s : State) : Host.Outcome State Fault Refusal :=
  .next (s.bundle core.toNat 0x0E b opTst)

/-- The result of LSL (R245, Table ISA-8). -/
def opLsl (x : OpCtx) : Fx := x.r3 .two fun a b => lslRes a (b % 32)

/-- LSL (R245, Table ISA-8). -/
def execOpLsl (core : BitVec 6) (b : Bundle) (s : State) : Host.Outcome State Fault Refusal :=
  .next (s.bundle core.toNat 0x0F b opLsl)

/-- The result of LSR (R245, Table ISA-8). -/
def opLsr (x : OpCtx) : Fx := x.r3 .two fun a b => lsrRes a (b % 32)

/-- LSR (R245, Table ISA-8). -/
def execOpLsr (core : BitVec 6) (b : Bundle) (s : State) : Host.Outcome State Fault Refusal :=
  .next (s.bundle core.toNat 0x10 b opLsr)

/-- The result of ASR (R245, Table ISA-8). -/
def opAsr (x : OpCtx) : Fx := x.r3 .two fun a b => asrRes a (b % 32)

/-- ASR (R245, Table ISA-8). -/
def execOpAsr (core : BitVec 6) (b : Bundle) (s : State) : Host.Outcome State Fault Refusal :=
  .next (s.bundle core.toNat 0x11 b opAsr)

/-- The result of ROR (R245, Table ISA-8). -/
def opRor (x : OpCtx) : Fx := x.r3 .two fun a b => rorRes a (b % 32)

/-- ROR (R245, Table ISA-8). -/
def execOpRor (core : BitVec 6) (b : Bundle) (s : State) : Host.Outcome State Fault Refusal :=
  .next (s.bundle core.toNat 0x12 b opRor)

/-- The result of ADDS (R245, Table ISA-8). -/
def opAdds (x : OpCtx) : Fx := x.r3 .two fun a b => satRes (sint 32 a + sint 32 b)

/-- ADDS (R245, Table ISA-8). -/
def execOpAdds (core : BitVec 6) (b : Bundle) (s : State) : Host.Outcome State Fault Refusal :=
  .next (s.bundle core.toNat 0x13 b opAdds)

/-- The result of SUBS (R245, Table ISA-8). -/
def opSubs (x : OpCtx) : Fx := x.r3 .two fun a b => satRes (sint 32 a - sint 32 b)

/-- SUBS (R245, Table ISA-8). -/
def execOpSubs (core : BitVec 6) (b : Bundle) (s : State) : Host.Outcome State Fault Refusal :=
  .next (s.bundle core.toNat 0x14 b opSubs)

/-- The result of ADD2 (R245, Table ISA-8). -/
def opAdd2 (x : OpCtx) : Fx := x.r3 .two fun a b => halvesRes (fun p q => p + q) a b

/-- ADD2 (R245, Table ISA-8). -/
def execOpAdd2 (core : BitVec 6) (b : Bundle) (s : State) : Host.Outcome State Fault Refusal :=
  .next (s.bundle core.toNat 0x15 b opAdd2)

/-- The result of SUB2 (R245, Table ISA-8). -/
def opSub2 (x : OpCtx) : Fx := x.r3 .two fun a b => halvesRes (fun p q => p - q) a b

/-- SUB2 (R245, Table ISA-8). -/
def execOpSub2 (core : BitVec 6) (b : Bundle) (s : State) : Host.Outcome State Fault Refusal :=
  .next (s.bundle core.toNat 0x16 b opSub2)

/-- The result of ADDS2 (R245, Table ISA-8). -/
def opAdds2 (x : OpCtx) : Fx := x.r3 .two fun a b => satHalvesRes (fun p q => p + q) a b

/-- ADDS2 (R245, Table ISA-8). -/
def execOpAdds2 (core : BitVec 6) (b : Bundle) (s : State) : Host.Outcome State Fault Refusal :=
  .next (s.bundle core.toNat 0x17 b opAdds2)

/-- The result of SUBS2 (R245, Table ISA-8). -/
def opSubs2 (x : OpCtx) : Fx := x.r3 .two fun a b => satHalvesRes (fun p q => p - q) a b

/-- SUBS2 (R245, Table ISA-8). -/
def execOpSubs2 (core : BitVec 6) (b : Bundle) (s : State) : Host.Outcome State Fault Refusal :=
  .next (s.bundle core.toNat 0x18 b opSubs2)

/-- The result of ASR2 (R245, Table ISA-8). -/
def opAsr2 (x : OpCtx) : Fx := x.r3 .two fun a b => asr2Res a (b % 16)

/-- ASR2 (R245, Table ISA-8). -/
def execOpAsr2 (core : BitVec 6) (b : Bundle) (s : State) : Host.Outcome State Fault Refusal :=
  .next (s.bundle core.toNat 0x19 b opAsr2)

/-- The result of SWAPH (R245, Table ISA-8). -/
def opSwaph (x : OpCtx) : Fx := x.r3 .one fun a _ => { v := a % 2 ^ 16 * 2 ^ 16 + a / 2 ^ 16 }

/-- SWAPH (R245, Table ISA-8). -/
def execOpSwaph (core : BitVec 6) (b : Bundle) (s : State) : Host.Outcome State Fault Refusal :=
  .next (s.bundle core.toNat 0x1A b opSwaph)

/-- The result of CONJ (R245, Table ISA-8). -/
def opConj (x : OpCtx) : Fx := x.r3 .one fun a _ => conjRes a

/-- CONJ (R245, Table ISA-8). -/
def execOpConj (core : BitVec 6) (b : Bundle) (s : State) : Host.Outcome State Fault Refusal :=
  .next (s.bundle core.toNat 0x1B b opConj)

/-- The result of MULL (R245, Table ISA-8). -/
def opMull (x : OpCtx) : Fx := x.r3 .two fun a b => nzRes (toBits 32 (sint 32 a * sint 32 b))

/-- MULL (R245, Table ISA-8). -/
def execOpMull (core : BitVec 6) (b : Bundle) (s : State) : Host.Outcome State Fault Refusal :=
  .next (s.bundle core.toNat 0x1C b opMull)

/-- The result of BTST (R245, Table ISA-8). -/
def opBtst (x : OpCtx) : Fx := x.r3 .test fun a b => { f := { z := some (!bit a (b % 32)) } }

/-- BTST (R245, Table ISA-8). -/
def execOpBtst (core : BitVec 6) (b : Bundle) (s : State) : Host.Outcome State Fault Refusal :=
  .next (s.bundle core.toNat 0x1D b opBtst)

/-- The result of BSET (R245, Table ISA-8). -/
def opBset (x : OpCtx) : Fx := x.r3 .two fun a b => { v := setBits a (b % 32) (b % 32) 1 }

/-- BSET (R245, Table ISA-8). -/
def execOpBset (core : BitVec 6) (b : Bundle) (s : State) : Host.Outcome State Fault Refusal :=
  .next (s.bundle core.toNat 0x1E b opBset)

/-- The result of BCLR (R245, Table ISA-8). -/
def opBclr (x : OpCtx) : Fx := x.r3 .two fun a b => { v := setBits a (b % 32) (b % 32) 0 }

/-- BCLR (R245, Table ISA-8). -/
def execOpBclr (core : BitVec 6) (b : Bundle) (s : State) : Host.Outcome State Fault Refusal :=
  .next (s.bundle core.toNat 0x1F b opBclr)

/-- The result of ADDI (R246, Table ISA-9). -/
def opAddi (x : OpCtx) : Fx := x.ri .two .sext fun a b => addRes a b 0

/-- ADDI (R246, Table ISA-9). -/
def execOpAddi (core : BitVec 6) (b : Bundle) (s : State) : Host.Outcome State Fault Refusal :=
  .next (s.bundle core.toNat 0x20 b opAddi)

/-- The result of CMPI (R246, Table ISA-9). -/
def opCmpi (x : OpCtx) : Fx := x.ri .test .sext fun a b => subRes a b 0

/-- CMPI (R246, Table ISA-9). -/
def execOpCmpi (core : BitVec 6) (b : Bundle) (s : State) : Host.Outcome State Fault Refusal :=
  .next (s.bundle core.toNat 0x21 b opCmpi)

/-- The result of ANDI (R246, Table ISA-9). -/
def opAndi (x : OpCtx) : Fx := x.ri .two .zext fun a b => nzRes (a &&& b)

/-- ANDI (R246, Table ISA-9). -/
def execOpAndi (core : BitVec 6) (b : Bundle) (s : State) : Host.Outcome State Fault Refusal :=
  .next (s.bundle core.toNat 0x22 b opAndi)

/-- The result of ORI (R246, Table ISA-9). -/
def opOri (x : OpCtx) : Fx := x.ri .two .zext fun a b => nzRes (a ||| b)

/-- ORI (R246, Table ISA-9). -/
def execOpOri (core : BitVec 6) (b : Bundle) (s : State) : Host.Outcome State Fault Refusal :=
  .next (s.bundle core.toNat 0x23 b opOri)

/-- The result of XORI (R246, Table ISA-9). -/
def opXori (x : OpCtx) : Fx := x.ri .two .zext fun a b => nzRes (a ^^^ b)

/-- XORI (R246, Table ISA-9). -/
def execOpXori (core : BitVec 6) (b : Bundle) (s : State) : Host.Outcome State Fault Refusal :=
  .next (s.bundle core.toNat 0x24 b opXori)

/-- The result of TSTI (R246, Table ISA-9). -/
def opTsti (x : OpCtx) : Fx := x.ri .test .zext fun a b => nzRes (a &&& b)

/-- TSTI (R246, Table ISA-9). -/
def execOpTsti (core : BitVec 6) (b : Bundle) (s : State) : Host.Outcome State Fault Refusal :=
  .next (s.bundle core.toNat 0x25 b opTsti)

/-- The result of LSLI (R246, Table ISA-9). -/
def opLsli (x : OpCtx) : Fx := x.ri .two (.upTo 31) fun a b => lslRes a b

/-- LSLI (R246, Table ISA-9). -/
def execOpLsli (core : BitVec 6) (b : Bundle) (s : State) : Host.Outcome State Fault Refusal :=
  .next (s.bundle core.toNat 0x26 b opLsli)

/-- The result of LSRI (R246, Table ISA-9). -/
def opLsri (x : OpCtx) : Fx := x.ri .two (.upTo 31) fun a b => lsrRes a b

/-- LSRI (R246, Table ISA-9). -/
def execOpLsri (core : BitVec 6) (b : Bundle) (s : State) : Host.Outcome State Fault Refusal :=
  .next (s.bundle core.toNat 0x27 b opLsri)

/-- The result of ASRI (R246, Table ISA-9). -/
def opAsri (x : OpCtx) : Fx := x.ri .two (.upTo 31) fun a b => asrRes a b

/-- ASRI (R246, Table ISA-9). -/
def execOpAsri (core : BitVec 6) (b : Bundle) (s : State) : Host.Outcome State Fault Refusal :=
  .next (s.bundle core.toNat 0x28 b opAsri)

/-- The result of RORI (R246, Table ISA-9). -/
def opRori (x : OpCtx) : Fx := x.ri .two (.upTo 31) fun a b => rorRes a b

/-- RORI (R246, Table ISA-9). -/
def execOpRori (core : BitVec 6) (b : Bundle) (s : State) : Host.Outcome State Fault Refusal :=
  .next (s.bundle core.toNat 0x29 b opRori)

/-- The result of BTSTI (R246, Table ISA-9). -/
def opBtsti (x : OpCtx) : Fx := x.ri .test (.upTo 31) fun a b => { f := { z := some (!bit a b) } }

/-- BTSTI (R246, Table ISA-9). -/
def execOpBtsti (core : BitVec 6) (b : Bundle) (s : State) : Host.Outcome State Fault Refusal :=
  .next (s.bundle core.toNat 0x2A b opBtsti)

/-- The result of BSETI (R246, Table ISA-9). -/
def opBseti (x : OpCtx) : Fx := x.ri .two (.upTo 31) fun a b => { v := setBits a b b 1 }

/-- BSETI (R246, Table ISA-9). -/
def execOpBseti (core : BitVec 6) (b : Bundle) (s : State) : Host.Outcome State Fault Refusal :=
  .next (s.bundle core.toNat 0x2B b opBseti)

/-- The result of BCLRI (R246, Table ISA-9). -/
def opBclri (x : OpCtx) : Fx := x.ri .two (.upTo 31) fun a b => { v := setBits a b b 0 }

/-- BCLRI (R246, Table ISA-9). -/
def execOpBclri (core : BitVec 6) (b : Bundle) (s : State) : Host.Outcome State Fault Refusal :=
  .next (s.bundle core.toNat 0x2C b opBclri)

/-- The result of ASR2I (R246, Table ISA-9). -/
def opAsr2i (x : OpCtx) : Fx := x.ri .two (.upTo 15) fun a b => asr2Res a b

/-- ASR2I (R246, Table ISA-9). -/
def execOpAsr2i (core : BitVec 6) (b : Bundle) (s : State) : Host.Outcome State Fault Refusal :=
  .next (s.bundle core.toNat 0x2D b opAsr2i)

/-- The result of MOVI (R246, Table ISA-9). -/
def opMovi (x : OpCtx) : Fx :=
  let d := bits x.opf 21 18
  let imm := bits x.opf 15 0
  match bits x.opf 17 16 with
  | 0 => { w := [dWrite d (toBits 32 (sint 16 imm)) false] }
  | 1 => { w := [dWrite d imm false] }
  | 2 => { w := [dWrite d (setBits (x.dReg d).1 31 16 imm) (x.dReg d).2] }
  | _ => fxIllegal

/-- MOVI (R246, Table ISA-9). -/
def execOpMovi (core : BitVec 6) (b : Bundle) (s : State) : Host.Outcome State Fault Refusal :=
  .next (s.bundle core.toNat 0x30 b opMovi)

/-- The write of a register code by a move of registers, with its checks (R239, R250). -/
def OpCtx.put (x : OpCtx) (code v : Nat) (p : Bool) : Fx :=
  { faults := causeIf (x.c.val rMODE == 0 && (regPrivileged code || (code == rSR && srPrivileged x.srv v))) xPRIVILEGE,
    w := [x.c.writeOf code v p] }

/-- The result of MOV (R246, Table ISA-4). -/
def opMov (x : OpCtx) : Fx :=
  let rd := bits x.opf 21 16
  let rs := bits x.opf 15 10
  if bits x.opf 9 0 ≠ 0 ∨ !regReadable rs ∨ !regWritable rd then fxIllegal else
  let v := x.c.read rs
  let f := x.put rd (v.v.toNat % 2 ^ 32) v.p
  { f with faults := f.faults ++ causeIf (x.c.val rMODE == 0 && regPrivileged rs) xPRIVILEGE }

/-- MOV (R246, Table ISA-9). -/
def execOpMov (core : BitVec 6) (b : Bundle) (s : State) : Host.Outcome State Fault Refusal :=
  .next (s.bundle core.toNat 0x31 b opMov)

/-- The bits of SR that SRBIT may name (R250). -/
def srbitOk (k : Nat) (set : Bool) : Bool :=
  decide (k ≤ 3) || (decide (8 ≤ k) && decide (k ≤ 13)) || (decide (24 ≤ k) && decide (k ≤ 27))
    || ((k == 4 || k == 5 || k == 20) && !set)

/-- SR with bit k set or cleared by SRBIT; a value of 3 in RND leaves it unchanged, and FP takes the poison of the value
written, which has none (R250). -/
def srbitWrite (sr k : Nat) (set : Bool) : Nat :=
  let n := setBits sr k k (b2n set)
  let n := if bits n 11 10 = 3 then setBits n 11 10 (bits sr 11 10) else n
  setBits n 6 6 0

/-- The result of SRBIT (R250): a write of SR, before which a move's load of it gives way (R240). -/
def opSrbit (x : OpCtx) : Fx :=
  let k := bits x.opf 4 0
  let set := bit x.opf 21
  if bits x.opf 20 5 ≠ 0 ∨ !srbitOk k set then fxIllegal
  else
    { faults := causeIf (x.c.val rMODE == 0 && srPrivileged x.srv (srbitWrite x.srv k set)) xPRIVILEGE,
      w := [(rSR, ⟨BitVec.ofNat 48 (srbitWrite x.srv k set), false⟩)] }

/-- SRBIT (R250). -/
def execOpSrbit (core : BitVec 6) (b : Bundle) (s : State) : Host.Outcome State Fault Refusal :=
  .next (s.bundle core.toNat 0x32 b opSrbit)

/-- The faults of an absolute access (R246): no move of the same space stands beside it. -/
def OpCtx.absFaults (x : OpCtx) (y : Bool) (r addr : Nat) : List Nat :=
  causeIf ((if y then x.ymk else x.xmk) != 0) xILLEGAL
    ++ causeIf (x.c.val rMODE == 0 && regPrivileged r) xPRIVILEGE ++ causeIf (addr % 4 != 0) xALIGN
    ++ causeIf (x.c.val rMODE != 2 && x.s.secureRange x.n y addr) xSECURITY

/-- An absolute load (R246). -/
def opLoadAbs (y : Bool) (x : OpCtx) : Fx :=
  let r := bits x.opf 21 16
  let addr := bits x.opf 15 0
  if !regWritable r then fxIllegal else
  let w := x.c.word y (addr / 4)
  let f := x.put r w.v.toNat w.p
  { f with faults := f.faults ++ x.absFaults y r addr }

/-- An absolute store (R246). -/
def opStoreAbs (y : Bool) (x : OpCtx) : Fx :=
  let r := bits x.opf 21 16
  let addr := bits x.opf 15 0
  if !regReadable r then fxIllegal else
  let v := x.c.read r
  { faults := x.absFaults y r addr, store := some (y, addr / 4, ⟨BitVec.ofNat 32 v.v.toNat, v.p⟩) }

/-- LDX_A (R246). -/
def execOpLdxA (core : BitVec 6) (b : Bundle) (s : State) : Host.Outcome State Fault Refusal :=
  .next (s.bundle core.toNat 0x34 b (opLoadAbs false))

/-- STX_A (R246). -/
def execOpStxA (core : BitVec 6) (b : Bundle) (s : State) : Host.Outcome State Fault Refusal :=
  .next (s.bundle core.toNat 0x35 b (opStoreAbs false))

/-- LDY_A (R246). -/
def execOpLdyA (core : BitVec 6) (b : Bundle) (s : State) : Host.Outcome State Fault Refusal :=
  .next (s.bundle core.toNat 0x36 b (opLoadAbs true))

/-- STY_A (R246). -/
def execOpStyA (core : BitVec 6) (b : Bundle) (s : State) : Host.Outcome State Fault Refusal :=
  .next (s.bundle core.toNat 0x37 b (opStoreAbs true))

end Sys2Proof.Machine
end

