-- ==== Sys2Proof/Machine/Decoder.lean ====
section
/-! DEFINITION. The channel decoder and encoder (R304 to R318): jobs, their checks, engines, ordered release, user tables. -/

namespace Sys2Proof.Machine

open Sys2Proof.Config

/-- The requester of the decoders (Table MEM-2). -/
abbrev reqDec : Nat := 0x2002

/-! ### Fields of a descriptor (Table DEC-1) -/

/-- A decoder descriptor. -/
structure DecDesc where
  op : Nat
  dlEn : Bool
  maxit : Nat
  es : Nat
  crc : Nat
  strip : Bool
  soft : Bool
  combine : Bool
  writeback : Bool
  rv : Nat
  qm : Nat
  table : Nat
  ms : Bool
  param : Nat
  zk : Nat
  kp : Nat
  e : Nat
  ncb : Nat
  inp : Nat
  out : Nat
  harq : Nat
  deadline : Nat
  record : Bool
  succSet : Bool
  succ : Nat
  recAddr : Nat
  user : Nat

/-- The fields of 64 bytes. -/
def decDesc (d : List Byte) : DecDesc :=
  let b0 := fieldAt d 0 1
  let b1 := fieldAt d 1 1
  let b2 := fieldAt d 2 1
  let b3 := fieldAt d 3 1
  { op := bits b0 2 0, dlEn := bit b0 3, maxit := bits b1 5 0, es := bits b1 7 6, crc := bits b2 1 0, strip := bit b2 2
    soft := bit b2 3, combine := bit b2 4, writeback := bit b2 5, rv := bits b2 7 6, qm := bits b3 3 0
    table := bits b3 7 4, ms := bit (fieldAt d 4 1) 0, param := fieldAt d 5 1, zk := bits (fieldAt d 6 2) 12 0
    kp := fieldAt d 8 2, e := fieldAt d 12 3, ncb := bits (fieldAt d 16 4) 16 0, inp := fieldAt d 20 4
    out := fieldAt d 24 4, harq := fieldAt d 28 4, deadline := fieldAt d 32 8, record := bit (fieldAt d 40 1) 0
    succSet := bit (fieldAt d 40 1) 1, succ := fieldAt d 44 4, recAddr := fieldAt d 48 4, user := fieldAt d 52 4 }

/-- The reserved bits of a descriptor are 0 (Table DEC-1). -/
def decReserved (d : List Byte) : Bool :=
  bits (fieldAt d 4 1) 7 1 == 0 && bits (fieldAt d 6 2) 15 13 == 0 && fieldAt d 10 2 == 0 && fieldAt d 15 1 == 0
    && bits (fieldAt d 16 4) 31 17 == 0 && bits (fieldAt d 40 1) 7 2 == 0 && fieldAt d 41 3 == 0 && fieldAt d 56 8 == 0

/-- The LDPC code that a descriptor names (R309, R311). -/
def State.decCode (s : State) (d : DecDesc) : LdpcCode :=
  if d.table < 2 then .named d.table d.zk
  else match Sparse.find s.dec.tables (d.table - 2) with
    | some t => ⟨t.m, t.ncol, t.p, d.zk, t.entries.map fun e => (e.1, e.2.1, e.2.2 % d.zk)⟩
    | none => ⟨0, 0, 0, d.zk, []⟩

/-- The ranges of KP, E, QM and NCB of a job that uses them: block size K, NCB from `lo` to `hi` (R305). -/
def DecDesc.blockOk (d : DecDesc) (k lo hi : Nat) : Bool :=
  decide (crcLen d.crc + 1 ≤ d.kp ∧ d.kp ≤ k) && [1, 2, 4, 6, 8].contains d.qm && decide (0 < d.e) && d.e % d.qm == 0
    && decide (lo ≤ d.ncb ∧ d.ncb ≤ hi)

/-- The LDPC fields are valid (R305, R309). -/
def State.decLdpcOk (s : State) (d : DecDesc) : Bool :=
  let c := s.decCode d
  (if d.table < 2 then liftSize d.zk
   else decide (d.table ≤ 9) && (Sparse.find s.dec.tables (d.table - 2)).isSome && decide (2 ≤ d.zk ∧ d.zk ≤ 384))
    && d.blockOk (c.kb * d.zk) (c.kb * d.zk - c.p * d.zk) ((c.cols - c.p) * d.zk)

/-- The turbo fields are valid (R305, R312). -/
def decTurboOk (d : DecDesc) : Bool :=
  (qpp d.zk).isSome && d.table == 0 && d.qm == 1 && !d.ms && d.blockOk d.zk (d.zk + 4) (3 * turboKpi d.zk)

/-- The fields that only decodes use are 0. -/
def DecDesc.noDecode (d : DecDesc) : Bool :=
  d.maxit == 0 && d.es == 0 && !d.strip && !d.soft && !d.combine && !d.writeback && !d.ms && d.param == 0 && d.harq == 0

/-- A descriptor is valid (R305). -/
def State.decValid (s : State) (b : List Byte) : Bool :=
  let d := decDesc b
  decReserved b && (match d.op with
    | 0 => decide (2 ≤ d.maxit ∧ d.maxit ≤ 32) && decide (d.es < 2)
      && (if d.ms then decide (8 ≤ d.param ∧ d.param ≤ 16) else decide (d.param ≤ 15)) && s.decLdpcOk d
    | 1 => decide (1 ≤ d.maxit ∧ d.maxit ≤ 8) && decide (d.es < 3) && !(d.es == 1 && d.crc == 0)
      && decide (8 ≤ d.param ∧ d.param ≤ 16) && decTurboOk d
    | 2 => d.noDecode && decide (d.table < 2) && s.decLdpcOk d
    | 3 => d.noDecode && decTurboOk d
    | 4 => d.noDecode && d.rv == 0 && d.qm == 0 && d.table == 0 && d.zk == 0 && d.e == 0 && d.ncb == 0 && d.out == 0
    | _ => false)

/-! ### What a job computes -/

/-- What a job leaves: bytes 1 to 3 of the record without LATE, SATS, CRCVAL, its output bytes and its write-back. -/
structure DecOut where
  flags : Nat := 0
  iter : Nat := 0
  rows : Nat := 0
  sats : Nat := 0
  crcval : Nat := 0
  out : List Byte := []
  back : List Byte := []

/-- CONV, CRC_OK, CRC_CHK and POISON as bits 1 to 4 of byte 1 (Table DEC-2). -/
def decFlags (conv crcOk crcChk poison : Bool) : Nat := 2 * b2n conv + 4 * b2n crcOk + 8 * b2n crcChk + 16 * b2n poison

/-- The output of a decode from its hard bits and soft values (R310, R313, R314): bytes, and saturations. -/
def DecDesc.output (d : DecDesc) (hard : List Bool) (soft : List Int) : List Byte × Nat :=
  if d.soft then (soft.map fun x => llrByte (clampS 127 x), (soft.filter fun x => clampS 127 x != x).length)
  else (packBits (if d.strip then hard.take (d.kp - crcLen d.crc) else hard), 0)

/-- The buffer of a decode: LLRs placed, then the HARQ buffer added (R308). -/
def DecDesc.buffer (d : DecDesc) (k0 : Nat) (carries filler : Nat → Bool) (llr harq : List Int) : Array Int × Nat :=
  let x := bufferOf d.ncb (ringPlaces d.ncb k0 carries) filler d.qm llr
  if d.combine then addHarq filler x harq else x

/-- LDPC decode (R309, R310). -/
def LdpcCode.decode (c : LdpcCode) (d : DecDesc) (poison : Bool) (llr harq : List Int) : DecOut :=
  let k := c.kb * c.z
  let filler (p : Nat) : Bool := decide (d.kp ≤ p + c.p * c.z ∧ p + c.p * c.z < k)
  let x := d.buffer (ldpcK0 d.table c.z d.ncb d.rv) (fun p => !filler p) filler llr harq
  let m := c.layers (decide (2 ≤ d.table)) x.1
  let r := c.run d.ms d.param m (d.es == 1) d.maxit 0 (c.start x.1)
  let a := (List.range d.kp).map fun i => r.2.a.getD i 0
  let hard := a.map fun v => decide (v < 0)
  let o := d.output hard a
  { flags := decFlags (c.zeroSyndrome m r.2) (d.crc != 0 && crcPass d.crc hard) (d.crc != 0) poison
    iter := r.1, rows := m, sats := x.2 + o.2, out := o.1
    back := if d.writeback then x.1.toList.map llrByte else [] }

/-- A place of the turbo buffer holds filler: the first F bits of streams 0 and 1 (R312). -/
def turboFiller (k fill p : Nat) : Bool :=
  match turboPlace k p with
  | some (n, i) => decide (n < 2 ∧ i < fill)
  | none => false

/-- A place of the turbo buffer carries a bit. -/
def turboCarries (k fill p : Nat) : Bool := (turboPlace k p).isSome && !turboFiller k fill p

/-- Turbo decode (R312, R313). -/
def DecDesc.turbo (d : DecDesc) (poison : Bool) (llr harq : List Int) : DecOut :=
  let k := d.zk
  let fill := k - d.kp
  let x := d.buffer (turboK0 k d.ncb d.rv) (turboCarries k fill) (turboFiller k fill) llr harq
  let put (st : Array Int) (p : Nat) : Array Int :=
    match turboPlace k p with
    | some (n, i) => putI st (n * (k + 4) + i) (x.1.getD p 0)
    | none => st
  let st := (List.range d.ncb).foldl put (Array.replicate (3 * (k + 4)) 0)
  let t : TurboIn := ⟨k, (qpp k).getD (0, 0), d.param,
    fun n i => if n < 2 ∧ i < fill then 127 else st.getD (n * (k + 4) + i) 0⟩
  let stop (hard : List Bool) (prev : Option (List Bool)) : Bool :=
    if d.es = 1 then crcPass d.crc hard else decide (d.es = 2) && prev == some hard
  let r := t.run stop fill d.maxit 0 #[] (Array.replicate k 0) none
  let hard := turboHard fill r.2.1
  let pass := d.crc != 0 && crcPass d.crc hard
  let o := d.output hard ((r.2.1.toList.drop fill).map fun v => Int.tdiv v 2)
  { flags := decFlags (r.2.2 || pass) pass (d.crc != 0) poison
    iter := r.1, sats := x.2 + o.2, out := o.1, back := if d.writeback then x.1.toList.map llrByte else [] }

/-- Encoding (R314): the bits with their CRC and filler, encoded and rate-matched. -/
def State.decEncode (s : State) (d : DecDesc) (poison : Bool) (data : List Bool) : DecOut :=
  let c := data ++ crcBits d.crc data
  let word :=
    if d.op = 2 then
      let code := s.decCode d
      let k := code.kb * code.z
      let w := (code.encode (c ++ List.replicate (k - d.kp) false)).toArray
      let p0 := code.p * code.z
      let carries (p : Nat) : Bool := !decide (d.kp ≤ p + p0 ∧ p + p0 < k)
      rateMatch (ringPlaces d.ncb (ldpcK0 d.table code.z d.ncb d.rv) carries) (fun p => w.getD (p + p0) false) d.qm d.e
    else
      let fill := d.zk - d.kp
      let st := turboStream d.zk ((qpp d.zk).getD (0, 0)) (List.replicate fill false ++ c)
      rateMatch (ringPlaces d.ncb (turboK0 d.zk d.ncb d.rv) (turboCarries d.zk fill))
        (fun p => match turboPlace d.zk p with | some (n, i) => st n i | none => false) d.qm d.e
  { flags := decFlags false false false poison, out := packBits word }

/-- A job is run: its input read, its result computed, its output and write-back written, poisoned if any input word was
(R315). -/
def State.decRun (s : State) (d : DecDesc) : DecOut × State :=
  let inBits := if d.op = 4 then d.kp else d.kp - crcLen d.crc
  let r := s.memRead reqDec (d.inp * 16) (if d.op < 2 then d.e else ceilDiv inBits 8)
  let h : RdRes := if d.combine then r.s.memRead reqDec (d.harq * 16) d.ncb else ⟨[], false, r.s⟩
  let poison := poisoned r.bytes || poisoned h.bytes
  let llr := (plain r.bytes).map llrOf
  let harq := (plain h.bytes).map llrOf
  let data := unpackBits (plain r.bytes) inBits
  let o : DecOut :=
    match d.op with
    | 0 => (h.s.decCode d).decode d poison llr harq
    | 1 => d.turbo poison llr harq
    | 4 => { flags := decFlags false false false poison, crcval := if d.crc = 0 then 0 else crc3gpp d.crc data }
    | _ => h.s.decEncode d poison data
  let s := (h.s.memWrite reqDec (d.harq * 16) (o.back.map fun b => (b, poison))).s
  (o, (s.memWrite reqDec (d.out * 16) (o.out.map fun b => (b, poison))).s)

/-- Bytes 0 to 15 of the record, LATE apart (Table DEC-2). -/
def decRecord (status : Nat) (o : DecOut) (user : Nat) : List Byte :=
  leBytes 1 status ++ leBytes 1 o.flags ++ leBytes 1 o.iter ++ leBytes 1 o.rows ++ leBytes 2 (min o.sats 0xFFFF)
    ++ leBytes 2 0 ++ leBytes 4 user ++ leBytes 3 o.crcval ++ leBytes 1 0

/-! ### Queues and release -/

/-- Jobs of queue q. -/
def State.decQueue (s : State) (q : Nat) : List DecJob := Sparse.get (fun _ => []) s.dec.q q

/-- The machine with the jobs of queue q, and its depth shown. -/
def State.setDecQueue (s : State) (q : Nat) (l : List DecJob) : State :=
  let s := (s.setDec { s.dec with q := Sparse.set (fun _ => []) s.dec.q q l }).wr F.DEC_Q.DEPTH l.length q
  s.onlyIf (decide (s.rd F.DEC_Q.MAX q < l.length)) fun s => s.wr F.DEC_Q.MAX l.length q

/-- The release of a job (R306, R307): lateness, counters, record, successor, command. -/
def State.decRelease (s : State) (q : Nat) (j : DecJob) (rb : List Byte) : State :=
  let d := decDesc j.job.desc
  let late := d.dlEn && decide (d.deadline < s.now)
  let st := if late && fieldAt rb 0 1 == stDone then stLate else fieldAt rb 0 1
  let rb := leBytes 1 st ++ leBytes 1 (setBits (fieldAt rb 1 1) 0 0 (b2n late)) ++ slice rb 2 14
  let iter := fieldAt rb 2 1
  let s := s.onlyIf (d.op == 0) fun s =>
    ((s.sat F.DEC_LDPC_JOBS.COUNT).onlyIf (!bit (fieldAt rb 1 1) 1) fun s => s.sat F.DEC_LDPC_UNCONV.COUNT).sat64
      F.DEC_LDPC_ITER_LO.ITER 0 iter
  let s := s.onlyIf (d.op == 1) fun s =>
    ((s.sat F.DEC_TURBO_JOBS.COUNT).onlyIf (bits (fieldAt rb 1 1) 3 2 == 2) fun s => s.sat F.DEC_TURBO_CRCFAIL.COUNT).sat64
      F.DEC_TURBO_ITER_LO.ITER 0 iter
  let s := s.onlyIf (d.op == 2 || d.op == 3 || d.op == 4) fun s => s.sat F.DEC_ENC_JOBS.COUNT
  let s := s.onlyIf late fun s => s.sat F.DEC_LATE.COUNT
  let s := s.onlyIf (st == stRange) fun s => s.sat F.DEC_RANGE.COUNT
  let s := s.onlyIf late fun s =>
    s.event 0x0710 sevWarn (sourceId 0x0710 0 (0x300 + q)) (payload [(20, 1, st), (24, 8, s.now)])
  let s := s.onlyIf d.record fun s => s.put reqDec (d.recAddr * 16) (rb ++ leBytes 8 s.now ++ leBytes 8 0)
  let s := s.onlyIf d.succSet fun s =>
    let f := s.fetchDesc d.succ
    (f.2.2.coreSubmit 0xFF f.1 f.2.1).2
  s.completeOpt j.job.ref st (fieldAt rb 1 3 + fieldAt rb 4 2 * 2 ^ 32)

/-- Completed jobs at the head of a queue are released in submission order (R306). -/
def State.decReleases : Nat → State → Nat → State
  | 0, s, _ => s
  | k + 1, s, q =>
    match s.decQueue q with
    | j :: l =>
      match j.done with
      | some rb => decReleases k ((s.setDecQueue q l).decRelease q j rb) q
      | none => s
    | [] => s

/-- A descriptor is queued, or none when its queue is full (R304); a poisoned one is discarded (R315). An invalid one is
complete at once, with status RANGE and no output (R305). -/
def State.decSubmit (s : State) (q far : Nat) (j : Job) : Option State :=
  if j.poison then
    let s := (s.poisonConsumed reqDec (far * 16) 4).event 0x0810 sevWarn (sourceId 0x0810 0 (0x300 + q)) (payload [(16, 4, far)])
    some ((s.sat F.DEC_Q.DISC q).completeOpt j.ref stRange)
  else if 64 ≤ (s.decQueue q).length then none
  else
    let d := decDesc j.desc
    let done := if s.decValid j.desc then none else some (decRecord stRange {} d.user)
    let s := s.setDecQueue q (s.decQueue q ++ [⟨j, far, none, done⟩])
    let s := match j.ref with | some r => s.pastPoint r | none => s
    some (s.decReleases 1 q)

/-- DEC_JOB (R304). -/
def execDecJob (ref : CmdRef) (q : BitVec 8) (desc : List Byte) (poison : Bool) (s : State) :
    Host.Outcome State Fault Refusal :=
  .next <| s.command ref 0x0810 fun s =>
    if 3 < q.toNat then s.complete ref stRange
    else match s.decSubmit q.toNat 0 ⟨some ref, padTo 64 desc, poison⟩ with
      | some s => s
      | none => s.complete ref stBusy

/-- DEC_JOB_WINDOW_WRITE (R304): the head transfer of a core writes a descriptor; into a full queue it stays outstanding. -/
def execDecJobWindowWrite (core : BitVec 6) (s : State) : Host.Outcome State Fault Refusal :=
  .next (
    match s.windowTake core.toNat 0xFFFEC000 0xFFFF0000 64 with
    | none => s
    | some (x, d, s') =>
      let far := x.far + x.done / 16
      match s'.decSubmit ((far - 0xFFFEC000) / 0x1000) far ⟨none, plain d, poisoned d⟩ with
      | some t => t
      | none => s)

/-! ### Engines (R306) -/

/-- A job is for an engine: 0 and 1 LDPC decode, 2 turbo decode, 3 the encoder. -/
def DecJob.forEngine (j : DecJob) (e : Nat) : Bool :=
  let op := (decDesc j.job.desc).op
  if e < 2 then op == 0 else if e = 2 then op == 1 else decide (2 ≤ op)

/-- An engine runs a job. -/
def State.decBusy (s : State) (e : Nat) : Bool := s.dec.q.any fun x => x.2.any fun j => j.engine == some e && j.done.isNone

/-- The first job of a queue that has not started. -/
def State.decHead (s : State) (q : Nat) : Option DecJob := (s.decQueue q).find? fun j => j.engine.isNone && j.done.isNone

/-- The queue whose head an engine takes: the earliest deadline, else the lowest number (R306). -/
def State.decPick (s : State) (e : Nat) : Option Nat :=
  let heads := (List.range 4).filterMap fun q => (s.decHead q).bind fun j => if j.forEngine e then some (q, decDesc j.job.desc) else none
  let dl := heads.foldl (init := (none : Option (Nat × Nat))) fun b x =>
    if x.2.dlEn then
      match b with
      | none => some (x.2.deadline, x.1)
      | some y => if x.2.deadline < y.1 then some (x.2.deadline, x.1) else some y
    else b
  match dl with
  | some x => some x.2
  | none => heads.head?.map (·.1)

/-- The busy bits show the engines. -/
def State.showDec (s : State) : State :=
  ((s.wr F.DEC_STATUS.LDPC_BUSY (b2n (s.decBusy 0) + 2 * b2n (s.decBusy 1))).wrb F.DEC_STATUS.TURBO_BUSY (s.decBusy 2)).wrb
    F.DEC_STATUS.ENC_BUSY (s.decBusy 3)

/-- The first job of a list that passes a test, changed. -/
def updFirst (p : DecJob → Bool) (f : DecJob → DecJob) : List DecJob → List DecJob
  | [] => []
  | j :: l => if p j then f j :: l else j :: updFirst p f l

/-- DEC_JOB_START (R306). -/
def execDecJobStart (engine : BitVec 2) (s : State) : Host.Outcome State Fault Refusal :=
  let e := engine.toNat
  .next <| s.live fun s =>
    if s.decBusy e then s else
    match s.decPick e with
    | none => s
    | some q =>
      (s.setDecQueue q (updFirst (fun j => j.engine.isNone && j.done.isNone) (fun j => { j with engine := some e })
        (s.decQueue q))).showDec

/-- A job reaches memory that holds its requests (R345, R348). -/
def State.decWaits (s : State) (d : DecDesc) : Bool :=
  let bits_ := d.kp - crcLen d.crc
  let n := if d.op < 2 then d.e else ceilDiv (if d.op = 4 then d.kp else bits_) 8
  let out := if d.op < 2 then (if d.soft then d.kp else ceilDiv (if d.strip then bits_ else d.kp) 8)
    else if d.op = 4 then 0 else ceilDiv d.e 8
  s.memWaits reqDec (d.inp * 16) n || s.memWaits reqDec (d.out * 16) out
    || s.memWaits reqDec (d.harq * 16) (if d.combine || d.writeback then d.ncb else 0)

/-- DEC_JOB_COMPLETE (R306): an engine's job is written, and what can be is released. It completes no earlier than memory that
holds its requests has served them. -/
def execDecJobComplete (engine : BitVec 2) (s : State) : Host.Outcome State Fault Refusal :=
  let e := engine.toNat
  .next <| s.live fun s =>
    let mine (j : DecJob) : Bool := j.engine == some e && j.done.isNone
    match (List.range 4).findSome? fun q => ((s.decQueue q).find? mine).map fun j => (q, j) with
    | none => s
    | some (q, j) =>
      let d := decDesc j.job.desc
      if s.decWaits d then s else
      let r := s.decRun d
      let s := (r.2.setDecQueue q (updFirst mine (fun j => { j with done := some (decRecord stDone r.1 d.user) })
        (r.2.decQueue q))).showDec
      s.decReleases 64 q

/-! ### User tables and counters -/

/-- The table that bytes describe, if they pass the checks of R311. -/
def userTableOf (b : List Byte) : Option UserTable :=
  let m := fieldAt b 0 1
  let ncol := fieldAt b 1 1
  let p := fieldAt b 2 1
  let ne := fieldAt b 4 2
  let words := (List.range ne).map fun i => fieldAt b (16 + 4 * i) 4
  let es := words.map fun w => (bits w 5 0, bits w 12 6, bits w 31 16)
  let ok := decide (1 ≤ m ∧ m ≤ 46) && decide (ncol ≤ 68) && decide (p ≤ 4) && decide (ne ≤ 1024)
    && b.length == 16 + 4 * ne && fieldAt b 3 1 == 0 && fieldAt b 6 10 == 0
    && decide (m + 1 ≤ ncol ∧ ncol ≤ m + 22)
    && words.all (fun w => bits w 15 13 == 0) && es.all (fun e => decide (e.1 < m ∧ e.2.1 < ncol))
    && decide ((es.map fun e => (e.1, e.2.1)).Nodup)
    && (List.range m).all (fun r => decide (2 ≤ (es.filter fun e => e.1 == r).length))
    && (List.range ncol).all (fun c => es.any fun e => e.2.1 == c)
  if ok then some ⟨m, ncol, p, es⟩ else none

/-- DEC_TABLE (R311). A queued or running job names table n by TABLE = n + 2. -/
def execDecTable (ref : CmdRef) (table device : BitVec 8) (addr : BitVec 64) (len : BitVec 32) (s : State) :
    Host.Outcome State Fault Refusal :=
  let n := table.toNat
  .next <| s.command ref 0x0811 fun s =>
    if 7 < n ∨ 1 < device.toNat then s.complete ref stRange
    else if s.dec.q.any fun x => x.2.any fun j => (decDesc j.job.desc).table == n + 2 then s.complete ref stBusy
    else if 4112 < len.toNat then s.complete ref stCheckFailed
    else
      let p := s.cmdPort ref
      if device = 0 ∧ !s.portUp p then s.complete ref stIncomplete else
      let r : RdRes := if device = 1 then s.memRead (reqHost p) (addr.toNat * 16) len.toNat
        else ⟨s.hostBytes p addr.toNat len.toNat, false, s⟩
      match userTableOf (plain r.bytes) with
      | some t =>
        let s := r.s.setDec { r.s.dec with tables := Sparse.insert r.s.dec.tables n t }
        (s.wr F.DEC_UTAB.VALID (s.rd F.DEC_UTAB.VALID ||| 2 ^ n)).complete ref stDone
      | none => r.s.complete ref stCheckFailed

/-- A write to DEC_CNT_CLR (R317): 1 clears every counter, MAX and DISC. -/
def State.decCntClr (s : State) (v : Nat) : State :=
  s.onlyIf (bit v 0) fun s =>
    let s := s.each (List.range 4) fun s q => (s.wr F.DEC_Q.DISC 0 q).wr F.DEC_Q.MAX 0 q
    s.each (List.range 11) fun s i => s.wrReg (0x400200 + 4 * i) 0

/-- DEC_CNT_CLR (R317). -/
def execDecCntClr (value : BitVec 32) (s : State) : Host.Outcome State Fault Refusal :=
  .next (s.onlyIf (s.bar0Open 0x400230) fun s => s.decCntClr value.toNat)

end Sys2Proof.Machine
end

