-- ==== Sys2Proof/Machine/FabricStep.lean ====
section
/-! DEFINITION. FABRIC_STEP: a step of the step clock with what the redundant pair adds around it (R50, R439 to R442, R444,
R447, R448, R451). -/

namespace Sys2Proof.Machine

/-- The sampler word of a bank. -/
def bankWord (v : BitVec 512) (b : Nat) : BitVec 32 := v.extractLsb' (32 * b) 32

/-- Banks whose samples are forwarded. -/
def State.pairBanks (s : State) : List Nat := maskBits 16 (s.rd F.PAIR_PINS.BANKS)

/-- The last known word of a forwarded bank. -/
def State.pairWord (s : State) (b : Nat) : BitVec 32 := Sparse.get (fun _ => 0) s.pair.words b

/-- A forwarded bank's word becomes known. -/
def State.setPairWord (s : State) (b : Nat) (w : BitVec 32) : State :=
  s.setPair { s.pair with words := Sparse.insert s.pair.words b w }

/-! ### The primary -/

/-- The primary forwards the sampler word of every bank of PAIR_PINS that changes at this step (R439). -/
def State.forwardPins (s : State) (v : BitVec 512) : State :=
  if !s.forwards then s else
  s.each s.pairBanks fun s b =>
    let w := bankWord v b
    s.onlyIf (Sparse.find s.pair.words b != some w) fun s => (s.setPairWord b w).pairRec 1 (b * 2 ^ 32 + w.toNat)

/-- A pending join reaches step j, which has just executed (R451): JOIN_START, then the copy. -/
def State.joinBegin (s : State) (j : Nat) : State :=
  match s.pair.join, s.pair.joinStep with
  | some ref, none =>
    let s := (s.setPair { s.pair with joinStep := some j, words := [] }).pastPoint ref
    let s := (s.pairState prJoining).pairOut (.control 3 j s.now)
    s.each (stateOuts (Config.pairEncode s.pairCopy)) State.pairOut
  | _, _ => s

/-- A flit of the copy is still to be sent. -/
def State.copyUnsent (s : State) : Bool := s.pair.out.any fun x => match x with | .state _ _ => true | _ => false

/-- A join that cannot complete (R451): the copy is not sent LAG steps after j, or no SYNCED has come after as many again
(notes/assumptions/29.md). -/
def State.joinLate (s : State) : State :=
  match s.pair.join, s.pair.joinStep with
  | some ref, some j =>
    let d := (s.step32 + 2 ^ 32 - j) % 2 ^ 32
    let lag := s.rd F.PAIR_LAG.LAG
    if (lag ≤ d ∧ s.copyUnsent = true) ∨ 2 * lag ≤ d then
      ((s.setPair { s.pair with join := none, joinStep := none }).pairState prDegraded).complete ref stIncomplete
    else s
  | _, _ => s

/-- A primary that owes a handover gives it at step h, which has just executed (R448). -/
def State.handoverNow (s : State) (h : Nat) : State :=
  if !s.pair.yielding then s else
  let f := s.pair.failover
  let s := (s.setPair { s.pair with yielding := false, failover := none }).pairOut (.control 1 h s.now)
  s.pairYield.completeOpt f stDone s.now

/-! ### The standby -/

/-- The least slack follows a record that is used (R450). -/
def State.slackOf (s : State) (r : PairRec) : State :=
  s.wr F.PAIR_SLACK.STEPS (min (s.rd F.PAIR_SLACK.STEPS) ((s.step32 + 2 ^ 32 - r.at_) % 2 ^ 32))

/-- A replayed sampler word, with the edges that it shows at the bank's two clock-capable pins (R440). -/
def State.replayPin (s : State) (data : Nat) : State :=
  let b := bits data 35 32
  let w := BitVec.ofNat 32 data
  let old := s.pairWord b
  (s.setPairWord b w).each [0, 1] fun s k =>
    s.onlyIf (old.getLsbD (16 * k) != w.getLsbD (16 * k)) fun s => s.clkEdge (2 * b + k) (w.getLsbD (16 * k))

/-- A replayed commit: its entries have come in COMMIT flits. -/
def State.replayCommit (s : State) (n : Nat) : State :=
  let es := s.pair.commitIn.take n
  let s := s.setPair { s.pair with commitIn := s.pair.commitIn.drop (6 * ceilDiv n 6) }
  (s.applyEntries 0 es [] s.now).commitMarks es

/-- A replay record is used at its step; anchors are taken by the step itself. -/
def State.replayOne (s : State) (r : PairRec) : State :=
  let s := s.slackOf r
  match r.kind with
  | 1 => s.replayPin r.data
  | 3 => s.trigger (r.data % 16) 1
  | 4 => s.replayRunctl r.data
  | 5 => s.replayCommit (bits r.data 12 0)
  | _ => s

/-- An anchor of the primary, with its upper bits those that lie nearest this device's TB, translated (R438, R440). -/
def State.replayAnchor (s : State) (low : Nat) : Nat :=
  let t := (s.now + s.pair.ofsHeld) % 2 ^ 64
  let up := t / 2 ^ 32 * 2 ^ 32 + low
  s.toOwnTb (if t < up then up - 2 ^ 32 else up)

/-- The records of the step about to execute are taken (R440, R442): anchors by region, and the machine. -/
def State.replayStep (s : State) : List (Nat × Nat) × State :=
  let n := s.step32
  if before32 s.pair.upTo n then
    ([], s.onlyIf (s.rd F.PAIR_STAT.STATE == prSynced) fun s => s.pairState prHoldover)
  else
    let mine := s.pair.recs.filter fun r => r.step == n
    let s := s.setPair { s.pair with recs := s.pair.recs.filter fun r => r.step != n }
    ((mine.filter fun r => r.kind == 2).map fun r => (bits r.data 35 32, s.replayAnchor (r.data % 2 ^ 32)),
      s.each mine State.replayOne)

/-- The samplers with the replayed words of the forwarded banks in place of their own (R440). -/
def State.replayedPins (s : State) (v : BitVec 512) : BitVec 512 :=
  s.pairBanks.foldl (fun v b =>
    (v &&& ~~~(BitVec.ofNat 512 (0xFFFFFFFF * 2 ^ (32 * b)))) ||| BitVec.ofNat 512 ((s.pairWord b).toNat * 2 ^ (32 * b))) v

/-- A joining standby (R451): LAG steps after j the copy is loaded if it is complete; else the join has failed. -/
def State.joinStepOf (s : State) : State :=
  let lag := s.rd F.PAIR_LAG.LAG
  let s := s.setPair { s.pair with joinWait := s.pair.joinWait + 1 }
  if s.pair.joinWait < lag then s
  else if s.pair.stateIn.length < (Config.pairEncode s.pairCopy).length then
    (s.setPair { s.pair with joinStep := none, stateIn := [] }).pairState prDegraded
  else
    let s := s.pairLoad (Config.pairDecode s.pair.stateIn)
    let s := s.setPair { s.pair with joinStep := none, stateIn := [], ofsHeld := s.rd64 F.PAIR_TB_OFS_LO.OFS }
    let s := ((s.pairState prSynced).wr F.PAIR_SLACK.STEPS 0xFFFFFFFF).pairOut (.control 4 s.step32 s.now)
    s.pairEvent 0x0B05 sevInfo 0 0

/-- A standby that joins. -/
def State.joining (s : State) : Bool :=
  s.rdb F.PAIR_CFG.EN && s.rd F.PAIR_STAT.ROLE == 1 && s.rd F.PAIR_STAT.STATE == prJoining

/-! ### The step -/

/-- What the ends of frames of a step bring (R444, R447, R448, R451); `n`: the step that has executed. -/
def State.framesEnded (s : State) (ended : List Nat) (n : Nat) : State :=
  let s := s.each ended State.caskFrame
  s.onlyIf (s.rdb F.PAIR_CFG.EN && ended.contains (s.rd F.PAIR_CFG.REGION)) fun s =>
    let s := s.pairReleased
    s.onlyIf (s.rd F.PAIR_STAT.ROLE == 0) fun s => (s.joinBegin n).handoverNow n

/-- A standby takes over after step h of a handover (R448). -/
def State.takeoverAfter (s : State) (n : Nat) : State := s.onlyIf (s.pair.handover == some n) State.pairTakeover

/-- FABRIC_STEP (R50, R440). -/
def State.fabricStep (s : State) (inp : StepIn) : State :=
  let s := s.onlyIf s.joining State.joinStepOf
  let n := s.step32
  if s.replaying then
    let r := s.replayStep
    let x := r.2.fabStep inp (r.2.replayedPins inp.pins) r.1
    (x.2.framesEnded x.1 n).takeoverAfter n
  else
    let s := s.forwardPins (s.received inp.pins)
    let x := s.fabStep inp inp.pins []
    (x.2.framesEnded x.1 n).joinLate

/-- FABRIC_STEP (R50). -/
def execFabricStep (inp : StepIn) (s : State) : Host.Outcome State Fault Refusal := .next (s.live fun s => s.fabricStep inp)

end Sys2Proof.Machine
end

