-- ==== Sys2Proof/Machine/RegAccess.lean ====
section
/-! DEFINITION. BAR0 accesses to registers (R10 to R16, R36, R384, R399, R429, R502). -/

namespace Sys2Proof.Machine

/-! ### Writes -/

/-- A write to a register that performs an action (the WO and W1C registers with a rule of their own), from port p: none if the
offset is no such register. -/
def State.actionWrite (s : State) (p off v : Nat) : Option State :=
  if off = 0x10008 then some (s.nmeWrite v)
  else if off = 0x10010 then some (s.onlyIf (bit v 0) fun s => s.warmReset 2)
  else if off = 0x20004 then some (s.unfreeze v)
  else if 0x20500 ≤ off ∧ off < 0x20580 then some (s.semRelWrite p ((off - 0x20500) / 4) v)
  else if off = 0x80010 then some (s.cancelReq v)
  else if off = 0x89000 then some (s.onlyIf (bit v 0) State.dspClear)
  else if 0x200100 ≤ off ∧ off < 0x200140 then some (s.llDisWrite ((off - 0x200100) / 4) v)
  else if off = 0x400230 then some (s.decCntClr v)
  else if off = 0x441008 then some (s.capForce (v % 65536))
  else if off = 0x101038 then some (s.onlyIf (bit v 0) State.restClear)
  else if off = 0x103054 then some (s.vlibInvWrite v)
  else none

/-- The W1C fields of a register word after `v` is written: each 1 clears its bit (R10). -/
def RegDef.clearOnes (r : RegDef) (old v : Nat) : Nat :=
  (r.fields.filter fun f => f.acc == .w1c).foldl (fun n f =>
    let x := bits n f.hi f.lo
    setBits n f.hi f.lo (x - (x &&& bits v f.hi f.lo))) old

/-- A first-fail or first-error record whose VALID is cleared shows no MORE (R74, R154). -/
def State.recordCleared (s : State) (off : Nat) : State :=
  let s := s.each (unitsOf 0x1F0000 32 4 [off]) fun s n =>
    s.onlyIf (!s.rdb F.FAB_NETFF_STAT.VALID n) fun s => s.wr F.FAB_NETFF_STAT.MORE 0 n
  s.each (unitsOf 0x303000 32 16 [off]) fun s b =>
    s.onlyIf (!s.rdb F.PIN_FF_STAT.VALID b) fun s => s.wr F.PIN_FF_STAT.MORE 0 b

/-- A register has a field of an access code. -/
def RegDef.has (r : RegDef) (a : Access) : Bool := r.fields.any fun f => f.acc == a

/-- A 32-bit write to the register at an offset, from port p (R10, R36, R502). `drains`: as for a commit. -/
def State.regWrite (s : State) (p off v : Nat) (drains : List Nat) : State :=
  match regRow off with
  | none => s
  | some r =>
    match s.actionWrite p off v with
    | some t => t
    | none =>
      if r.has .w1c then (s.wrReg off (r.clearOnes (s.rdReg off) v)).recordCleared off
      else if r.has .rwl then s.directWrite p off v drains
      else if r.has .rw then s.writeEntry p off v
      else s

/-- REGISTER_WRITE (R10, R11, R13, R14, R36, R502). `size`: bytes of the access; `drains`: the banks, and as 64 + p the
partitions, whose old owner's accepted requests remain (R345). -/
def execRegisterWrite (port : Port) (off : BitVec 24) (size : BitVec 4) (value : BitVec 32) (drains : BitVec 80) (s : State) :
    Host.Outcome State Fault Refusal :=
  .next (s.onlyIf (s.bar0Open off.toNat && off.toNat % 4 == 0 && size == 4) fun s =>
    s.regWrite (portNat port) off.toNat value.toNat (maskBits 80 drains.toNat))

/-! ### Reads -/

/-- Before a read, what stands in no register is brought up to date: a pin's sample (Table PIN-2), the toggled nets (Table
ELA-6), whether a slot runs (Table RAD-10), the counters of the dispatcher's block. The mirror rate is a
measurement of traffic that no rule computes (R450): in pair mode each read of PAIR_RATE finds a free value. -/
def State.freshen (s : State) (off : Nat) : State :=
  let s := s.onlyIf (decide (0x300000 ≤ off ∧ off < 0x302000 ∧ off % 16 = 8)) fun s => s.samplePin ((off - 0x300000) / 16)
  let s := s.onlyIf (off == 0x200010) State.showNets
  let s := s.onlyIf (decide (0x380000 ≤ off ∧ off < 0x384000 ∧ off % 64 = 0x2C)) fun s => s.showRunning ((off - 0x380000) / 64)
  (s.onlyIf (decide (0x80000 ≤ off ∧ off < 0x90000)) fun s => s.each (List.range 64) State.countCore).onlyIf
    (decide (off = 0x4C0050) && s.rdb F.PAIR_CFG.EN) fun s => (s.wrReg off (Config.freeNat s.free % 2 ^ 16)).burn

/-- The present value of the register at an offset; the TB is read live (R32). -/
def State.liveWord (s : State) (off : Nat) : Nat :=
  if off = 0x10 then s.now % 2 ^ 32 else if off = 0x14 then s.now / 2 ^ 32 else s.rdReg off

/-- The offset holds the lower word of a 64-bit pair (R15). -/
def lowerWord (off : Nat) : Bool := match regRow off with | some r => r.pair | none => false

/-- The value that a reader finds: 0 P0, 1 P1, 2 JTAG, each with a shadow of every pair (R15). -/
def State.shadowRead (s : State) (reader off : Nat) : Nat × State :=
  if lowerWord off then
    (s.liveWord off, (s.setHost { s.host with
      shadows := Sparse.insert s.host.shadows (4 * off + reader) (BitVec.ofNat 32 (s.liveWord (off + 4))) }))
  else if 4 ≤ off ∧ lowerWord (off - 4) = true then
    let k := 4 * (off - 4) + reader
    match Sparse.find s.host.shadows k with
    | some v => (v.toNat, (s.setHost { s.host with shadows := Sparse.erase s.host.shadows k }))
    | none => (s.liveWord off, s)
  else (s.liveWord off, s)

/-- The RC fields of the register at an offset are cleared (R10). -/
def State.clearRc (s : State) (off : Nat) : State :=
  match regRow off with
  | some r => s.onlyIf (r.has .rc) fun s =>
      s.wrReg off ((r.fields.filter fun f => f.acc == .rc).foldl (fun n f => setBits n f.hi f.lo 0) (s.rdReg off))
  | none => s

/-- Read data is returned to a port. -/
def State.returns (s : State) (v : Nat) : State := (s.setHost { s.host with rdata := v, rpoison := false })

/-- A 32-bit read of an offset by port p (R10, R15, R36, R399): semaphores grant, RC fields clear. -/
def State.regRead (s : State) (p off : Nat) : State :=
  let s := s.freshen off
  if (regRow off).isNone then s.returns 0
  else if 0x20400 ≤ off ∧ off < 0x20500 ∧ off % 8 = 0 then s.semRead ((off - 0x20400) / 8) (p + 1)
  else
    let r := s.shadowRead p off
    (r.2.returns r.1).clearRc off

/-- A BAR0 read of any size and alignment: all but aligned words, and whatever is not reached, read 0 (R14, R429). -/
def State.bar0Read (s : State) (p off size : Nat) : State :=
  if !s.alive || !s.rdb F.GLB_STATUS.READY then s
  else if s.bar0Open off && off % 4 == 0 && size == 4 then s.regRead p off
  else s.returns 0

/-- READ_CLEAR_REGISTER (R10). -/
def execReadClearRegister (port : Port) (off : BitVec 24) (size : BitVec 4) (s : State) : Host.Outcome State Fault Refusal :=
  .next (s.bar0Read (portNat port) off.toNat size.toNat)

/-- READ_64BIT_LOWER_WORD (R15). -/
def execRead64bitLowerWord (port : Port) (off : BitVec 24) (s : State) : Host.Outcome State Fault Refusal :=
  .next (s.bar0Read (portNat port) off.toNat 4)

end Sys2Proof.Machine
end

