-- ==== Sys2Proof/Machine/Jtag.lean ====
section
/-! DEFINITION. The test access port, instruction by instruction (R478 to R480). Each row makes its instruction the current
one and scans its data register once. -/

namespace Sys2Proof.Machine

/-- Instructions under which the boundary register controls the pads (R479). -/
def boundaryInstr (i : Nat) : Bool := i == 0x00 || i == 0x03 || i == 0x04

/-- The pads as the current instruction leaves them: high impedance, or what the boundary register gives (R479). -/
def State.boundaryPads (s : State) : State :=
  if !boundaryInstr s.sec.jtag then s else
  s.each (List.range 512) fun s p =>
    if s.sec.jtag = 0x03 then s.setPad p false false
    else s.setPad p (Config.bsdlPad s.sec.boundary p).1 (Config.bsdlPad s.sec.boundary p).2

/-- Every bank is unreleased and RELEASE cleared, as on a falling HS_EARLY_N (R479, R159). -/
def State.jtagLeaves (s : State) : State := s.unreleaseAll.dcoHold

/-- An instruction becomes the current one. Leaving boundary control unreleases every bank; taking it raises JTAG_EXTEST
(R479). -/
def State.jtagSelect (s : State) (i : Nat) : State :=
  if s.sec.jtag = i then s else
  let was := boundaryInstr s.sec.jtag
  let s := (s.setSec { s.sec with jtag := i })
  let s := s.onlyIf was State.jtagLeaves
  s.onlyIf (boundaryInstr i) fun s =>
    (s.event 0x0C07 sevWarn (sourceId 0x0C07 0 0) (payload [(16, 1, i)])).showReleases.showDco

/-- The data register's capture is shifted out. -/
def State.scanOut (s : State) (l : List Bool) : State := (s.setSec { s.sec with drOut := l })

/-- The bits of a number, least significant first. -/
def numBits (n v : Nat) : List Bool := (List.range n).map (bit v)

/-- A scan of the boundary register: pads are captured, then the shifted bits are its contents. -/
def State.boundaryScan (s : State) (pins : BitVec 512) (other : BitVec 64) (scan : List Bool) : State :=
  let s := s.scanOut (Config.bsdlCapture pins other)
  (s.setSec { s.sec with boundary := scan }).boundaryPads

/-- EXTEST (R479). `pins`, `other`: levels of DP[511:0] and of the other covered pins. -/
def execExtest (pins : BitVec 512) (other : BitVec 64) (scan : List Bool) (s : State) : Host.Outcome State Fault Refusal :=
  .next <| s.live fun s => (s.jtagSelect 0x00).boundaryScan pins other scan

/-- SAMPLE/PRELOAD (R478): the pads stay with their owners. -/
def execSamplePreload (pins : BitVec 512) (other : BitVec 64) (scan : List Bool) (s : State) : Host.Outcome State Fault Refusal :=
  .next <| s.live fun s => (s.jtagSelect 0x01).boundaryScan pins other scan

/-- IDCODE (R478): as GLB_IDCODE. -/
def execIdcode (s : State) : Host.Outcome State Fault Refusal :=
  .next <| s.live fun s => (s.jtagSelect 0x02).scanOut (numBits 32 (s.rdReg 0))

/-- HIGHZ (R479). The bypass register is scanned. -/
def execHighz (s : State) : Host.Outcome State Fault Refusal :=
  .next <| s.live fun s => (s.jtagSelect 0x03).boundaryPads.scanOut [false]

/-- CLAMP (R479). The bypass register is scanned. -/
def execClamp (s : State) : Host.Outcome State Fault Refusal :=
  .next <| s.live fun s => (s.jtagSelect 0x04).boundaryPads.scanOut [false]

/-- The read that a DBG request asks for (R480): no RC field is cleared, no semaphore granted. What ERR shows of an offset that
is no word a port could reach is a free value. -/
def State.dbgRead (s : State) (req : Nat) : State :=
  let off := bits req 55 32
  let answer (s : State) (v : Nat) (err : Nat) : State :=
    (s.setSec { s.sec with dbg := BitVec.ofNat 64 (2 ^ 63 + err * 2 ^ 62 + v % 2 ^ 32) })
  if !bit req 63 then (s.setSec { s.sec with dbg := 0 })
  else if s.bar0Open off && off % 4 == 0 then
    let r := (s.freshen off).shadowRead 2 off
    answer r.2 r.1 0
  else (answer s 0 (Config.freeNat s.free % 2)).burn

/-- DBG (R480): the answer to the request before is shifted out. With DBG_DIS blown it acts as BYPASS. -/
def execDbg (request : BitVec 64) (s : State) : Host.Outcome State Fault Refusal :=
  .next <| s.live fun s =>
    let s := s.jtagSelect 0x10
    if s.rdb F.SEC_FUSE_STAT.DBG_DIS then s.scanOut [false]
    else (s.scanOut (numBits 64 s.sec.dbg.toNat)).dbgRead request.toNat

/-- The instruction that a code selects: one without an entry in Table SEC-9 acts as BYPASS (R478). -/
def bypassCode (code : Nat) : Nat := if code < 5 ∨ code = 0x10 then 0x3F else code

/-- BYPASS, by its own code or any other that Table SEC-9 does not list (R478). -/
def execBypass (code : BitVec 6) (s : State) : Host.Outcome State Fault Refusal :=
  .next <| s.live fun s => (s.jtagSelect (bypassCode code.toNat)).scanOut [false]

/-- JTAG_TEST_LOGIC_RESET (R478, R479): IDCODE is selected and every bank is unreleased. -/
def execJtagTestLogicReset (s : State) : Host.Outcome State Fault Refusal :=
  .next <| s.live fun s => (s.setSec { s.sec with jtag := 0x02 }).jtagLeaves

end Sys2Proof.Machine
end

