-- ==== Sys2Proof/Machine/Mac.lean ====
section
/-! DEFINITION. The multiply-accumulate path of the signal cores (R211 to R217, R247, Table ISA-10). -/

namespace Sys2Proof.Machine

/-- The value of ACCk as an accumulation reads it, and as extraction, NORM and EXP read it (Table SCR-4). -/
def OpCtx.acc (x : OpCtx) (k : Nat) : Int × Bool := let r := x.c.reg (40 + k); (sint 48 r.v.toNat, r.p)
def OpCtx.accSeen (x : OpCtx) (k : Nat) : Int × Bool := let r := x.c.seen (40 + k); (sint 48 r.v.toNat, r.p)

/-- SAT, FRAC and RND of SR (Table SCR-2). -/
def OpCtx.sat (x : OpCtx) : Bool := bit x.srv 9
def OpCtx.frac (x : OpCtx) : Bool := bit x.srv 8
def OpCtx.rnd (x : OpCtx) : Nat := bits x.srv 11 10

/-- A sum fitted to w bits (R212): AV where it does not fit, then saturated or wrapped. -/
def fitAcc (w : Nat) (sat : Bool) (i : Int) : Nat × Bool :=
  let ovf := satS w i != i
  (toBits w (if ovf && sat then satS w i else i), ovf)

/-- A write of ACCk. -/
def accWrite (k v : Nat) (p : Bool) : Nat × CReg := (40 + k, ⟨BitVec.ofNat 48 v, p⟩)

/-- A 16 × 16 product under FRAC (R213), and whether −0x8000 × −0x8000 saturated. -/
def product (frac signed : Bool) (p q : Int) : Int × Bool :=
  if !frac then (p * q, false)
  else if signed && p == -32768 && q == -32768 then (0x7FFFFFFF, true)
  else (2 * (p * q), false)

/-- A half of an operand: US says which operands' halves are unsigned (R247). -/
def macHalf (unsigned : Bool) (v : Nat) : Int := if unsigned then ((v % 2 ^ 16 : Nat) : Int) else sint 16 v

/-- The fields of format MC. -/
structure McFields where
  x : Opnd
  y : Opnd
  sub : Bool
  clr : Bool
  us : Nat
  k : Nat
  conj : Bool
  xh : Bool

/-- Format MC; none for an illegal selector, US = 3 or a field that must be 0. -/
def OpCtx.mc (x : OpCtx) : Option McFields :=
  match x.src (bits x.opf 21 17), x.src (bits x.opf 16 12) with
  | some a, some b =>
    if bits x.opf 9 8 = 3 ∨ bits x.opf 4 0 ≠ 0 then none
    else some ⟨a, b, bit x.opf 11, bit x.opf 10, bits x.opf 9 8, bits x.opf 7 7, bit x.opf 6, bit x.opf 5⟩
  | _, _ => none

/-- The product of a half of X and a half of Y. -/
def OpCtx.mul (x : OpCtx) (m : McFields) (xHigh yHigh : Bool) : Int × Bool :=
  let p := macHalf (m.us != 0) (if xHigh then m.x.1 / 2 ^ 16 else m.x.1)
  let q := macHalf (m.us == 2) (if yHigh then m.y.1 / 2 ^ 16 else m.y.1)
  product x.frac (m.us == 0) p q

/-- ACCk after an accumulation of `term` (R212, R247): its write and whether it overflowed. -/
def OpCtx.accumulate (x : OpCtx) (m : McFields) (k : Nat) (term : Int) : (Nat × CReg) × Bool :=
  let a := if m.clr then (0, false) else x.acc k
  let r := fitAcc 48 x.sat (if m.sub then a.1 - term else a.1 + term)
  (accWrite k r.1 (a.2 || m.x.2 || m.y.2), r.2)

/-- The effect of several accumulations. -/
def macFx (l : List ((Nat × CReg) × Bool)) (sv : Bool) : Fx :=
  { w := l.map (·.1), late := l.map (·.1.1), sr := FlagW.apply { sv := sv, av := l.any (·.2) } false }

/-- QMAC (Table SCR-5). -/
def opQmac (x : OpCtx) : Fx :=
  match x.mc with
  | none => fxIllegal
  | some m =>
    if m.k ≠ 0 ∨ m.conj ∨ m.xh then fxIllegal else
    let hh := x.mul m true true
    let hl := x.mul m true false
    let lh := x.mul m false true
    let ll := x.mul m false false
    macFx [x.accumulate m 0 hh.1, x.accumulate m 1 hl.1, x.accumulate m 2 lh.1, x.accumulate m 3 ll.1]
      (hh.2 || hl.2 || lh.2 || ll.2)

/-- CMAC (Table SCR-5). -/
def opCmac (x : OpCtx) : Fx :=
  match x.mc with
  | none => fxIllegal
  | some m =>
    if m.xh then fxIllegal else
    let hh := x.mul m true true
    let hl := x.mul m true false
    let lh := x.mul m false true
    let ll := x.mul m false false
    macFx [x.accumulate m (2 * m.k) (if m.conj then ll.1 + hh.1 else ll.1 - hh.1),
           x.accumulate m (2 * m.k + 1) (if m.conj then hl.1 - lh.1 else lh.1 + hl.1)]
      (hh.2 || hl.2 || lh.2 || ll.2)

/-- The 64-bit product of WMAC under FRAC (R213). -/
def wideProduct (frac : Bool) (p q : Int) : Int × Bool :=
  if !frac then (p * q, false)
  else if p == -(2 ^ 31) && q == -(2 ^ 31) then (2 ^ 63 - 1, true)
  else (2 * (p * q), false)

/-- The 96-bit value of pair k (Table SCR-5). -/
def pairVal (lo hi : Nat) : Int := sint 96 (lo % 2 ^ 48 + hi * 2 ^ 48)

/-- WMAC (Table SCR-5). -/
def opWmac (x : OpCtx) : Fx :=
  match x.mc with
  | none => fxIllegal
  | some m =>
    if m.us ≠ 0 ∨ m.conj ∨ m.xh then fxIllegal else
    let lo := x.c.reg (40 + 2 * m.k)
    let hi := x.c.reg (41 + 2 * m.k)
    let t := wideProduct x.frac (sint 32 m.x.1) (sint 32 m.y.1)
    let a : Int := if m.clr then 0 else pairVal lo.v.toNat hi.v.toNat
    let p := (!m.clr && (lo.p || hi.p)) || m.x.2 || m.y.2
    let r := fitAcc 96 x.sat (if m.sub then a - t.1 else a + t.1)
    macFx [(accWrite (2 * m.k) (r.1 % 2 ^ 48) p, r.2), (accWrite (2 * m.k + 1) (r.1 / 2 ^ 48) p, false)] t.2

/-- DMAC (Table SCR-5). -/
def opDmac (x : OpCtx) : Fx :=
  match x.mc with
  | none => fxIllegal
  | some m =>
    if m.conj then fxIllegal else
    let l := x.mul m m.xh false
    let h := x.mul m m.xh true
    macFx [x.accumulate m (2 * m.k) l.1, x.accumulate m (2 * m.k + 1) h.1] (l.2 || h.2)

/-- The fields of format AC. -/
structure AcFields where
  k : Nat
  j : Nat
  ss : Nat
  sub : Bool
  sh : Int
  m : Nat
  mask : Nat

/-- Format AC. -/
def OpCtx.ac (x : OpCtx) : AcFields :=
  ⟨bits x.opf 21 20, bits x.opf 19 18, bits x.opf 17 13, bit x.opf 12, sint 6 (bits x.opf 11 6), bits x.opf 5 4, bits x.opf 3 0⟩

/-- ACLR (R247). -/
def opAclr (x : OpCtx) : Fx :=
  let f := x.ac
  if bits x.opf 21 4 ≠ 0 then fxIllegal
  else macFx ((maskBits 4 f.mask).map fun k => (accWrite k 0 false, false)) false

/-- AADD (R247). -/
def opAadd (x : OpCtx) : Fx :=
  let f := x.ac
  if f.ss ≠ 0 ∨ f.sh ≠ 0 ∨ f.m ≠ 0 ∨ f.mask ≠ 0 then fxIllegal else
  let a := x.acc f.k
  let b := x.acc f.j
  let r := fitAcc 48 x.sat (if f.sub then a.1 - b.1 else a.1 + b.1)
  macFx [(accWrite f.k r.1 (a.2 || b.2), r.2)] false

/-- ASH (R247): left by SH, fitted, or right by −SH, truncating. -/
def opAsh (x : OpCtx) : Fx :=
  let f := x.ac
  if f.j ≠ 0 ∨ f.ss ≠ 0 ∨ f.sub ∨ f.m ≠ 0 ∨ f.mask ≠ 0 then fxIllegal else
  let a := x.acc f.k
  let r := if f.sh < 0 then (toBits 48 (a.1 / 2 ^ f.sh.natAbs), false) else fitAcc 48 x.sat (a.1 * 2 ^ f.sh.natAbs)
  macFx [(accWrite f.k r.1 a.2, r.2)] false

/-- ALD (R247). -/
def opAld (x : OpCtx) : Fx :=
  let f := x.ac
  match x.src f.ss with
  | none => fxIllegal
  | some a =>
    if f.j ≠ 0 ∨ f.sub ∨ f.sh ≠ 0 ∨ f.mask ≠ 0 ∨ f.m = 3 then fxIllegal else
    let v : Int := if f.m = 0 then sint 32 a.1 else if f.m = 1 then sint 16 a.1 * 2 ^ 16 else sint 16 (a.1 / 2 ^ 16) * 2 ^ 16
    macFx [(accWrite f.k (toBits 48 v) a.2, false)] false

/-- Redundant sign bits of a w-bit value (R215): the leading bits equal to the sign bit, less one. -/
def expOf (w : Nat) (i : Int) : Nat :=
  let n := if i < 0 then (-i - 1).toNat else i.toNat
  (List.range (w - 1)).foldl (fun k j => if n < 2 ^ (w - 2 - j) then j + 1 else k) 0

/-- EXP of a D register, or its .H form: the smaller count of its halves (R215). -/
def expD (v : Nat) (h : Bool) : Nat :=
  if h then min (expOf 16 (sint 16 v)) (expOf 16 (sint 16 (v / 2 ^ 16))) else expOf 32 (sint 32 v)

/-- The fields of format EX; none where a field that must be 0 is not. -/
structure ExFields where
  d : Nat
  k : Nat
  f : Nat
  ss : Nat

/-- Format EX. -/
def OpCtx.ex (x : OpCtx) : Option ExFields :=
  if bits x.opf 8 0 ≠ 0 then none else some ⟨bits x.opf 21 18, bits x.opf 17 16, bits x.opf 15 14, bits x.opf 13 9⟩

/-- NORM (R216). -/
def opNorm (x : OpCtx) : Fx :=
  match x.ex with
  | none => fxIllegal
  | some e =>
    if e.f ≠ 0 ∨ e.ss ≠ 0 then fxIllegal else
    let a := x.accSeen e.k
    let n := (expOf 48 a.1 : Int) - 16
    let v : Int := if n < 0 then a.1 / 2 ^ n.natAbs else a.1 * 2 ^ n.natAbs
    { w := [accWrite e.k (toBits 48 v) a.2, dWrite e.d (toBits 32 n) a.2], late := [40 + e.k] }

/-- EXP (R215). -/
def opExp (x : OpCtx) : Fx :=
  match x.ex with
  | none => fxIllegal
  | some e =>
    match e.f with
    | 0 =>
      if e.ss ≠ 0 then fxIllegal else
      let a := x.accSeen e.k
      { w := [dWrite e.d (expOf 48 a.1) a.2] }
    | 3 => fxIllegal
    | f =>
      match x.src e.ss with
      | none => fxIllegal
      | some a => if e.k ≠ 0 then fxIllegal else { w := [dWrite e.d (expD a.1 (f == 2)) a.2] }

/-- BEXP (R217): the signed minimum of Dd and the count. -/
def opBexp (x : OpCtx) : Fx :=
  match x.ex with
  | none => fxIllegal
  | some e =>
    match x.src e.ss with
    | none => fxIllegal
    | some a =>
      if e.k ≠ 0 ∨ (e.f ≠ 0 ∧ e.f ≠ 2) then fxIllegal else
      let d := x.dReg e.d
      let n : Int := expD a.1 (e.f == 2)
      { w := [dWrite e.d (if sint 32 d.1 ≤ n then d.1 else toBits 32 n) (d.2 || a.2)] }

/-- The rounding of an extraction (R214): a value split at `sh` bits, rounded under RND. -/
def roundAt (sh rnd : Nat) (v : Int) : Int :=
  let q := v / 2 ^ sh
  let low := (v % 2 ^ sh).toNat
  if (rnd = 1 ∧ 2 ^ (sh - 1) ≤ low) ∨ (rnd = 2 ∧ (2 ^ (sh - 1) < low ∨ (low = 2 ^ (sh - 1) ∧ q % 2 = 1))) then q + 1 else q

/-- An extraction to w bits: saturated where SAT is set, else the low bits; and whether it saturated (R214). -/
def extract (w : Nat) (sat : Bool) (q : Int) : Nat × Bool :=
  if sat then (toBits w (satS w q), satS w q != q) else (toBits w q, false)

/-- EXT16 (R214, R247). -/
def opExt16 (x : OpCtx) : Fx :=
  match x.ex with
  | none => fxIllegal
  | some e =>
    if e.ss ≠ 0 ∨ (e.f = 3 ∧ e.k % 2 = 1) then fxIllegal else
    let a := x.accSeen e.k
    let r := extract 16 x.sat (roundAt 16 x.rnd a.1)
    let d := x.dReg e.d
    let done (v : Nat) (p sv : Bool) : Fx := { w := [dWrite e.d v p], sr := FlagW.apply { sv := sv } false }
    match e.f with
    | 0 => done (setBits d.1 15 0 r.1) (d.2 || a.2) r.2
    | 1 => done (setBits d.1 31 16 r.1) (d.2 || a.2) r.2
    | 2 => done (toBits 32 (sint 16 r.1)) a.2 r.2
    | _ =>
      let b := x.accSeen (e.k + 1)
      let q := extract 16 x.sat (roundAt 16 x.rnd b.1)
      done (r.1 + q.1 * 2 ^ 16) (a.2 || b.2) (r.2 || q.2)

/-- EXT32 (R214). -/
def opExt32 (x : OpCtx) : Fx :=
  match x.ex with
  | none => fxIllegal
  | some e =>
    if e.f ≠ 0 ∨ e.ss ≠ 0 then fxIllegal else
    let a := x.accSeen e.k
    let r := extract 32 x.sat a.1
    { w := [dWrite e.d r.1 a.2], sr := FlagW.apply { sv := r.2 } false }

/-- EXTP (R214). -/
def opExtp (x : OpCtx) : Fx :=
  match x.ex with
  | none => fxIllegal
  | some e =>
    if e.f ≠ 0 ∨ e.ss ≠ 0 ∨ 1 < e.k then fxIllegal else
    let lo := x.c.seen (40 + 2 * e.k)
    let hi := x.c.seen (41 + 2 * e.k)
    let r := extract 32 x.sat (roundAt 32 x.rnd (pairVal lo.v.toNat hi.v.toNat))
    { w := [dWrite e.d r.1 (lo.p || hi.p)], sr := FlagW.apply { sv := r.2 } false }

/-- QMAC (R247, Table ISA-10). -/
def execOpQmac (core : BitVec 6) (b : Bundle) (s : State) : Host.Outcome State Fault Refusal :=
  .next (s.bundle core.toNat 0x40 b opQmac)

/-- CMAC (R247, Table ISA-10). -/
def execOpCmac (core : BitVec 6) (b : Bundle) (s : State) : Host.Outcome State Fault Refusal :=
  .next (s.bundle core.toNat 0x41 b opCmac)

/-- WMAC (R247, Table ISA-10). -/
def execOpWmac (core : BitVec 6) (b : Bundle) (s : State) : Host.Outcome State Fault Refusal :=
  .next (s.bundle core.toNat 0x42 b opWmac)

/-- DMAC (R247, Table ISA-10). -/
def execOpDmac (core : BitVec 6) (b : Bundle) (s : State) : Host.Outcome State Fault Refusal :=
  .next (s.bundle core.toNat 0x43 b opDmac)

/-- ACLR (R247, Table ISA-10). -/
def execOpAclr (core : BitVec 6) (b : Bundle) (s : State) : Host.Outcome State Fault Refusal :=
  .next (s.bundle core.toNat 0x48 b opAclr)

/-- AADD (R247, Table ISA-10). -/
def execOpAadd (core : BitVec 6) (b : Bundle) (s : State) : Host.Outcome State Fault Refusal :=
  .next (s.bundle core.toNat 0x49 b opAadd)

/-- ASH (R247, Table ISA-10). -/
def execOpAsh (core : BitVec 6) (b : Bundle) (s : State) : Host.Outcome State Fault Refusal :=
  .next (s.bundle core.toNat 0x4A b opAsh)

/-- ALD (R247, Table ISA-10). -/
def execOpAld (core : BitVec 6) (b : Bundle) (s : State) : Host.Outcome State Fault Refusal :=
  .next (s.bundle core.toNat 0x4B b opAld)

/-- NORM (R247, Table ISA-10). -/
def execOpNorm (core : BitVec 6) (b : Bundle) (s : State) : Host.Outcome State Fault Refusal :=
  .next (s.bundle core.toNat 0x4C b opNorm)

/-- EXP (R247, Table ISA-10). -/
def execOpExp (core : BitVec 6) (b : Bundle) (s : State) : Host.Outcome State Fault Refusal :=
  .next (s.bundle core.toNat 0x4D b opExp)

/-- BEXP (R247, Table ISA-10). -/
def execOpBexp (core : BitVec 6) (b : Bundle) (s : State) : Host.Outcome State Fault Refusal :=
  .next (s.bundle core.toNat 0x4E b opBexp)

/-- EXT16 (R247, Table ISA-10). -/
def execOpExt16 (core : BitVec 6) (b : Bundle) (s : State) : Host.Outcome State Fault Refusal :=
  .next (s.bundle core.toNat 0x50 b opExt16)

/-- EXT32 (R247, Table ISA-10). -/
def execOpExt32 (core : BitVec 6) (b : Bundle) (s : State) : Host.Outcome State Fault Refusal :=
  .next (s.bundle core.toNat 0x51 b opExt32)

/-- EXTP (R247, Table ISA-10). -/
def execOpExtp (core : BitVec 6) (b : Bundle) (s : State) : Host.Outcome State Fault Refusal :=
  .next (s.bundle core.toNat 0x52 b opExtp)

end Sys2Proof.Machine
end

