-- ==== Sys2Proof/Machine/Security.lean ====
section
/-! DEFINITION. Fuses, firmware update, certificate, attestation and core security (R455 to R469). -/

namespace Sys2Proof.Machine

open Sys2Proof.Config

/-! ### Fuses (R455, R456, R459) -/

/-- Bits that a FIELD of SEC_FUSE has. -/
def fuseWidth (field : Nat) : Nat := if field = 5 then 4 else if 6 ≤ field then 3 else 384

/-- SEC_FUSE (R456). -/
def execSecFuse (ref : CmdRef) (field : BitVec 8) (value : BitVec 384) (s : State) : Host.Outcome State Fault Refusal :=
  let k := field.toNat
  .next <| s.command ref 0x0C04 fun s =>
    if k < 1 ∨ 7 < k ∨ 2 ^ fuseWidth k ≤ value.toNat then s.complete ref stRange
    else if !s.rdb F.SEC_CTRL.FUSE_EN then s.complete ref stRefused
    else if s.sec.fuseOp.isSome then s.complete ref stBusy
    else if k ≤ 4 ∧ bit (s.rd F.SEC_FUSE_STAT.CKH_PROG) (k - 1) = true then s.complete ref stRefused
    else s.fuseBegin ref k (leBytes 48 value.toNat)

/-- SEC_SVN_ADVANCE (R459). -/
def execSecSvnAdvance (ref : CmdRef) (s : State) : Host.Outcome State Fault Refusal :=
  .next <| s.command ref 0x0C03 fun s =>
    let v := s.rd F.SEC_BOOT.FW_SVN
    if s.sec.fuseOp.isSome then s.complete ref stBusy
    else if v ≤ s.rd F.SEC_BOOT.SVN_CTR then s.complete ref stDone (s.rd F.SEC_BOOT.SVN_CTR)
    else s.fuseBegin ref fuseSvn [BitVec.ofNat 8 v]

/-- FUSE_PROGRAMMING_COMPLETE (R456, R459, R197): the field is blown and read back. -/
def execFuseProgrammingComplete (s : State) : Host.Outcome State Fault Refusal :=
  .next <| s.live fun s =>
    match s.sec.fuseOp with
    | none => s
    | some o =>
      let t := (s.setSec { s.sec with fuseOp := none }).blowFuse o.field o.value
      let t := if t.fuseState = s.fuseState then t else t.fuseBlown o.field
      t.completeOpt o.ref stDone (match o.field with
        | 8 => t.rd F.SEC_BOOT.SVN_CTR
        | 0x100 => kcv o.value
        | _ => 0)

/-! ### Flash operations of this chapter (R460, R467) -/

/-- The bytes of a firmware image from its source: host memory, or a partition in HBM read as HOST. -/
def State.fwSource (s : State) (ref : CmdRef) (hbm : Bool) (part addr n : Nat) : List Byte :=
  if hbm then plain (s.memRead (reqHost (s.cmdPort ref)) (s.partAddr part addr) n).bytes
  else s.hostRead (s.cmdPort ref) addr n

/-- SEC_FW_UPDATE (R460): the image is verified as the boot does, then erase and programming begin. -/
def execSecFwUpdate (ref : CmdRef) (src part : BitVec 8) (addr : BitVec 64) (len : BitVec 32) (s : State) :
    Host.Outcome State Fault Refusal :=
  .next <| s.command ref 0x0C02 fun s =>
    let hbm := src = 1
    let img := s.fwSource ref hbm part.toNat addr.toNat len.toNat
    let get (o n : Nat) : List Byte := slice img o n
    if s.recovery ∧ src ≠ 0 then s.complete ref stRefused
    else if 1 < src.toNat ∨ (hbm ∧ (15 < part.toNat ∨ !s.inPart part.toNat addr.toNat len.toNat)) then s.complete ref stRange
    else if hbm ∧ !s.hostPart part.toNat then s.complete ref stRefused
    else if !hbm ∧ !s.portUp (s.cmdPort ref) then s.complete ref stIncomplete
    else if len.toNat ≠ 128 + fieldAt img 0x10 4 + 256 then s.complete ref stRange
    else if s.sec.flashOp.isSome then s.complete ref stBusy
    else if s.fwCheck get ≠ 0 then (s.authFail 1 (get (len.toNat - 256) 256)).complete ref stAuthFailed
    else
      (s.setFlashOp (some ⟨some ref, 3, 0, len.toNat, img, fieldAt img 8 1, false, 0, 0⟩)).pastPoint ref

/-- The 97 bytes of the identity public key stand somewhere in a certificate (R467). -/
def holdsIdentity (der : List Byte) : Bool :=
  (List.range (der.length - 96)).any fun i => decide (slice der i 97 = identityPub)

/-- SEC_CERT_WRITE (R467): the block at the host address is the length L and L bytes. -/
def execSecCertWrite (ref : CmdRef) (addr : BitVec 64) (len : BitVec 16) (s : State) : Host.Outcome State Fault Refusal :=
  .next <| s.command ref 0x0C07 fun s =>
    let n := len.toNat
    let data := s.hostRead (s.cmdPort ref) addr.toNat n
    if n < 5 ∨ 4096 < n then s.complete ref stRange
    else if !s.portUp (s.cmdPort ref) then s.complete ref stIncomplete
    else if fieldAt data 0 4 ≠ n - 4 then s.complete ref stRange
    else if !holdsIdentity (data.drop 4) then s.complete ref stRefused
    else if s.sec.flashOp.isSome then s.complete ref stBusy
    else (s.setFlashOp (some ⟨some ref, 4, 0x00410000, n, data, 0, false, 0, 0⟩)).pastPoint ref

/-- A region of the flash is erased and, where programming succeeds, programmed. What a failure leaves are free values, but
for a firmware header that the boot refuses (R460). -/
def State.flashReplace (s : State) (ofs size : Nat) (data : List Byte) (ok : Bool) : State :=
  let s := s.flashErase ofs size
  if ok then s.flashProgram ofs data
  else if ofs = 0 then s.flashScramble 128 (data.length - 128)
  else s.flashScramble ofs data.length

/-- FLASH_OPERATION_COMPLETE (R194, R460, R467). `ok`: programming and read-back succeeded. -/
def execFlashOperationComplete (ok : Bool) (s : State) : Host.Outcome State Fault Refusal :=
  .next <| s.live fun s =>
    match s.sec.flashOp with
    | none => s
    | some o =>
      if o.kind = 3 then
        let s := (s.setFlashOp none).flashReplace 0 0x00400000 o.data ok
        if ok then (s.event 0x0C06 sevInfo (sourceId 0x0C06 0 0)).completeOpt o.ref stDone o.result
        else s.completeOpt o.ref stIncomplete
      else if o.kind = 4 then
        ((s.setFlashOp none).flashReplace 0x00410000 0x00010000 o.data ok).completeOpt o.ref (if ok then stDone else stIncomplete)
      else s.cfgFlashEnd o

/-! ### Attestation (R468, R469) -/

/-- A measurement as the report holds it. -/
def meas (l : List Byte) : List Byte := padTo 48 l

/-- GRIST_MEAS (R468). -/
def State.gristMeas (s : State) : List Byte :=
  if s.rdb F.FAB_GLB_STATUS.LOADED then (List.range 12).flatMap fun k => leBytes 4 (s.rd F.FAB_IMG_DIGEST.DIGEST k)
  else meas []

/-- Bytes 0 to 1,167 of the report (Table SEC-5). -/
def State.attestBody (s : State) (sign : Bool) (nonce : List Byte) : List Byte :=
  leBytes 4 0x54535441 ++ leBytes 2 1
    ++ leBytes 2 (b2n sign + 2 * s.rd F.GLB_STATUS.BOOT_OK + 4 * b2n s.recovery)
    ++ leBytes 8 (s.rd64 F.GLB_SERIAL_LO.SERIAL) ++ leBytes 8 s.now ++ leBytes 8 (s.rd64 F.SEC_BOOT_NONCE_LO.NONCE)
    ++ padTo 48 nonce ++ leBytes 1 (s.rd F.SEC_BOOT.SVN_CTR) ++ leBytes 1 (s.rd F.SEC_BOOT.FW_SVN)
    ++ padTo 6 (leBytes 2 (s.rdReg 0x4E0004)) ++ meas s.sec.fwMeas ++ s.gristMeas ++ meas s.sec.elaMeas
    ++ ((List.range 16).flatMap fun n => meas (Sparse.get (fun _ => []) s.sec.rgnMeas n))
    ++ meas s.sec.codeMeas ++ padTo 8 (leBytes 4 (s.rd F.SEC_CODE_COUNT.COUNT)) ++ padTo 112 identityPub

/-- The report of Table SEC-5, signed or not. -/
def State.attestReport (s : State) (sign : Bool) (nonce : List Byte) : List Byte :=
  let b := s.attestBody sign nonce
  b ++ padTo 112 (if sign then identitySign (hash b) (freeNat s.free) else [])

/-- SEC_ATTEST (R469). -/
def execSecAttest (ref : CmdRef) (sign dest part : BitVec 8) (addr : BitVec 64) (nonce : BitVec 384) (s : State) :
    Host.Outcome State Fault Refusal :=
  .next <| s.command ref 0x0C01 fun s =>
    let p := s.cmdPort ref
    let hbm := dest = 1
    if 1 < sign.toNat ∨ 1 < dest.toNat ∨ (hbm ∧ (15 < part.toNat ∨ !s.inPart part.toNat addr.toNat 1280)) then
      s.complete ref stRange
    else if !hbm ∧ !s.portUp p then s.complete ref stIncomplete
    else
      let t := s.now
      let rep := s.attestReport (sign = 1) (leBytes 48 nonce.toNat)
      let s := s.burn
      (if hbm then s.put (reqHost p) (s.partAddr part.toNat addr.toNat) rep else s.hostWrite p addr.toNat rep).complete ref
        stDone t

/-! ### Core security (R465) -/

/-- A local memory with its top `k` × 4 KiB zero, poison included. -/
def clearTop (k : Nat) (m : List (Nat × PWord)) : List (Nat × PWord) := Sparse.keep (fun w => decide (4 * w + 4096 * k < 0x10000)) m

/-- SC_SEC of a core changes: pages whose marking changes become invalid, secure ranges before and after are zero. -/
def State.coreSecure (s : State) (pages xsec ysec n : Nat) : State :=
  let gone := s.rd F.SC_SEC.PAGES n ^^^ pages
  let c := s.core n
  let s := s.setCore n { c with
    x := clearTop (max xsec (s.rd F.SC_SEC.XSEC n)) c.x
    y := clearTop (max ysec (s.rd F.SC_SEC.YSEC n)) c.y
    pageObj := Sparse.keep (fun k => !bit gone k) c.pageObj
    pageUse := Sparse.keep (fun k => !bit gone k) c.pageUse }
  let s := s.wr F.SC_STATUS.VALID (s.rd F.SC_STATUS.VALID n &&& (255 - gone % 256)) n
  ((s.wr F.SC_SEC.PAGES pages n).wr F.SC_SEC.XSEC xsec n).wr F.SC_SEC.YSEC ysec n

/-- SEC_CORE_SECURE (R465). -/
def execSecCoreSecure (ref : CmdRef) (mask : BitVec 64) (pages sec : BitVec 8) (s : State) : Host.Outcome State Fault Refusal :=
  .next <| s.command ref 0x0C05 fun s =>
    let l := maskBits 64 mask.toNat
    if l.any fun n => s.rdb F.SC_CTRL.RUN n then s.complete ref stRefused
    else (s.each l fun s n => s.coreSecure pages.toNat (bits sec.toNat 3 0) (bits sec.toNat 7 4) n).complete ref stDone

end Sys2Proof.Machine
end

