-- ==== Sys2Proof/Machine/Dispatch.lean ====
section
/-! DEFINITION. One arm per command: its meaning. -/

namespace Sys2Proof.Machine

def exec (i : Instr) (s : State) : Host.Outcome State Fault Refusal :=
  match i with
  | .powerOnResetRelease xstart => Sys2Proof.Machine.execPowerOnResetRelease xstart s
  | .railLoss => Sys2Proof.Machine.execRailLoss s
  | .warmReset register => Sys2Proof.Machine.execWarmReset register s
  | .bootComplete flash readFail => Sys2Proof.Machine.execBootComplete flash readFail s
  | .hbmTrainingComplete => Sys2Proof.Machine.execHbmTrainingComplete s
  | .deviceReady => Sys2Proof.Machine.execDeviceReady s
  | .crystalStartDelayExpiry => Sys2Proof.Machine.execCrystalStartDelayExpiry s
  | .xrefWindowEnd count => Sys2Proof.Machine.execXrefWindowEnd count s
  | .xrefNoEdgeDetection count => Sys2Proof.Machine.execXrefNoEdgeDetection count s
  | .xtalTimeout => Sys2Proof.Machine.execXtalTimeout s
  | .aonPeriodEnd count p0 p1 lref => Sys2Proof.Machine.execAonPeriodEnd count p0 p1 lref s
  | .pllSettled domain => Sys2Proof.Machine.execPllSettled domain s
  | .powerWindowEnd power temp => Sys2Proof.Machine.execPowerWindowEnd power temp s
  | .temperatureTrip => Sys2Proof.Machine.execTemperatureTrip s
  | .gateApplied block => Sys2Proof.Machine.execGateApplied block s
  | .gateTimeout block => Sys2Proof.Machine.execGateTimeout block s
  | .standbyExitComplete => Sys2Proof.Machine.execStandbyExitComplete s
  | .tbPulse input => Sys2Proof.Machine.execTbPulse input s
  | .clkNmeClear value => Sys2Proof.Machine.execClkNmeClear value s
  | .hsEarlyNFall => Sys2Proof.Machine.execHsEarlyNFall s
  | .pfwNFall => Sys2Proof.Machine.execPfwNFall s
  | .quiesceTimeout => Sys2Proof.Machine.execQuiesceTimeout s
  | .unfreeze level value => Sys2Proof.Machine.execUnfreeze level value s
  | .tamperNLow => Sys2Proof.Machine.execTamperNLow s
  | .vbatLoss => Sys2Proof.Machine.execVbatLoss s
  | .pinSupplyLost bank => Sys2Proof.Machine.execPinSupplyLost bank s
  | .pinSupplyOk bank => Sys2Proof.Machine.execPinSupplyOk bank s
  | .dcoUnlock output => Sys2Proof.Machine.execDcoUnlock output s
  | .dcoLockAcquired output => Sys2Proof.Machine.execDcoLockAcquired output s
  | .dcoModulationPeriodStart output => Sys2Proof.Machine.execDcoModulationPeriodStart output s
  | .fabricStep inp => Sys2Proof.Machine.execFabricStep inp s
  | .regionHaltTakesEffect region => Sys2Proof.Machine.execRegionHaltTakesEffect region s
  | .deferredItemArrival tile collect => Sys2Proof.Machine.execDeferredItemArrival tile collect s
  | .restTimeout => Sys2Proof.Machine.execRestTimeout s
  | .powerHoldEnd => Sys2Proof.Machine.execPowerHoldEnd s
  | .timerTrigger region => Sys2Proof.Machine.execTimerTrigger region s
  | .uutclkEdge clk rising => Sys2Proof.Machine.execUutclkEdge clk rising s
  | .frameDoorbell port region => Sys2Proof.Machine.execFrameDoorbell port region s
  | .tlqLaunch queue => Sys2Proof.Machine.execTlqLaunch queue s
  | .hostNop ref => Sys2Proof.Machine.execHostNop ref s
  | .stageWrite ref count entries => Sys2Proof.Machine.execStageWrite ref count entries s
  | .stageClear ref => Sys2Proof.Machine.execStageClear ref s
  | .check ref => Sys2Proof.Machine.execCheck ref s
  | .commit ref when_ region t => Sys2Proof.Machine.execCommit ref when_ region t s
  | .commitArmed => Sys2Proof.Machine.execCommitArmed s
  | .commitInstant drains => Sys2Proof.Machine.execCommitInstant drains s
  | .coreHalt core => Sys2Proof.Machine.execCoreHalt core s
  | .abort ref ring index => Sys2Proof.Machine.execAbort ref ring index s
  | .dma ref toHost host far len => Sys2Proof.Machine.execDma ref toHost host far len s
  | .memKiln ref banks alg preserve bg repair => Sys2Proof.Machine.execMemKiln ref banks alg preserve bg repair s
  | .kilnComplete found => Sys2Proof.Machine.execKilnComplete found s
  | .loadGrist ref src mode part stage addr stageOfs len => Sys2Proof.Machine.execLoadGrist ref src mode part stage addr stageOfs len s
  | .gristFetchComplete => Sys2Proof.Machine.execGristFetchComplete s
  | .gristAuthenticateComplete => Sys2Proof.Machine.execGristAuthenticateComplete s
  | .gristCheckComplete => Sys2Proof.Machine.execGristCheckComplete s
  | .gristWriteComplete snap => Sys2Proof.Machine.execGristWriteComplete snap s
  | .gristCalibrateComplete failing => Sys2Proof.Machine.execGristCalibrateComplete failing s
  | .fabStart ref mask when_ t => Sys2Proof.Machine.execFabStart ref mask when_ t s
  | .fabStartStep => Sys2Proof.Machine.execFabStartStep s
  | .fabHalt ref mask when_ flush => Sys2Proof.Machine.execFabHalt ref mask when_ flush s
  | .fabResume ref mask => Sys2Proof.Machine.execFabResume ref mask s
  | .fabFrame ref region => Sys2Proof.Machine.execFabFrame ref region s
  | .fabRestart ref mask keepDm failing => Sys2Proof.Machine.execFabRestart ref mask keepDm failing s
  | .fabVlibInv value => Sys2Proof.Machine.execFabVlibInv value s
  | .fabRestClr value => Sys2Proof.Machine.execFabRestClr value s
  | .elaLoad ref src part addr len => Sys2Proof.Machine.execElaLoad ref src part addr len s
  | .cfgStreamHeader => Sys2Proof.Machine.execCfgStreamHeader s
  | .cfgFrameRecord => Sys2Proof.Machine.execCfgFrameRecord s
  | .cfgMapRecord => Sys2Proof.Machine.execCfgMapRecord s
  | .cfgLoadEnd => Sys2Proof.Machine.execCfgLoadEnd s
  | .scpWord => Sys2Proof.Machine.execScpWord s
  | .scpIdleTimeout => Sys2Proof.Machine.execScpIdleTimeout s
  | .elaRelease ref scope => Sys2Proof.Machine.execElaRelease ref scope s
  | .elaGweAssert scope => Sys2Proof.Machine.execElaGweAssert scope s
  | .elaGsrDeassert scope => Sys2Proof.Machine.execElaGsrDeassert scope s
  | .elaHold ref scope => Sys2Proof.Machine.execElaHold ref scope s
  | .elaContention line => Sys2Proof.Machine.execElaContention line s
  | .elaLlDis row value => Sys2Proof.Machine.execElaLlDis row value s
  | .spargeFrameSlot upsets mapUpsets votes => Sys2Proof.Machine.execSpargeFrameSlot upsets mapUpsets votes s
  | .cfgFlash ref op dev part ofs addr len => Sys2Proof.Machine.execCfgFlash ref op dev part ofs addr len s
  | .cfgKey ref slot key => Sys2Proof.Machine.execCfgKey ref slot key s
  | .hubSignalInterrupt h => Sys2Proof.Machine.execHubSignalInterrupt h s
  | .elaDoorbell d => Sys2Proof.Machine.execElaDoorbell d s
  | .interruptEntry core => Sys2Proof.Machine.execInterruptEntry core s
  | .xferExceptionTaken core => Sys2Proof.Machine.execXferExceptionTaken core s
  | .opNop core opc b => Sys2Proof.Machine.execOpNop core opc b s
  | .opAdd core b => Sys2Proof.Machine.execOpAdd core b s
  | .opAdc core b => Sys2Proof.Machine.execOpAdc core b s
  | .opSub core b => Sys2Proof.Machine.execOpSub core b s
  | .opSbc core b => Sys2Proof.Machine.execOpSbc core b s
  | .opAnd core b => Sys2Proof.Machine.execOpAnd core b s
  | .opOr core b => Sys2Proof.Machine.execOpOr core b s
  | .opXor core b => Sys2Proof.Machine.execOpXor core b s
  | .opAndn core b => Sys2Proof.Machine.execOpAndn core b s
  | .opMin core b => Sys2Proof.Machine.execOpMin core b s
  | .opMax core b => Sys2Proof.Machine.execOpMax core b s
  | .opAbs core b => Sys2Proof.Machine.execOpAbs core b s
  | .opNeg core b => Sys2Proof.Machine.execOpNeg core b s
  | .opCmp core b => Sys2Proof.Machine.execOpCmp core b s
  | .opTst core b => Sys2Proof.Machine.execOpTst core b s
  | .opLsl core b => Sys2Proof.Machine.execOpLsl core b s
  | .opLsr core b => Sys2Proof.Machine.execOpLsr core b s
  | .opAsr core b => Sys2Proof.Machine.execOpAsr core b s
  | .opRor core b => Sys2Proof.Machine.execOpRor core b s
  | .opAdds core b => Sys2Proof.Machine.execOpAdds core b s
  | .opSubs core b => Sys2Proof.Machine.execOpSubs core b s
  | .opAdd2 core b => Sys2Proof.Machine.execOpAdd2 core b s
  | .opSub2 core b => Sys2Proof.Machine.execOpSub2 core b s
  | .opAdds2 core b => Sys2Proof.Machine.execOpAdds2 core b s
  | .opSubs2 core b => Sys2Proof.Machine.execOpSubs2 core b s
  | .opAsr2 core b => Sys2Proof.Machine.execOpAsr2 core b s
  | .opSwaph core b => Sys2Proof.Machine.execOpSwaph core b s
  | .opConj core b => Sys2Proof.Machine.execOpConj core b s
  | .opMull core b => Sys2Proof.Machine.execOpMull core b s
  | .opBtst core b => Sys2Proof.Machine.execOpBtst core b s
  | .opBset core b => Sys2Proof.Machine.execOpBset core b s
  | .opBclr core b => Sys2Proof.Machine.execOpBclr core b s
  | .opAddi core b => Sys2Proof.Machine.execOpAddi core b s
  | .opCmpi core b => Sys2Proof.Machine.execOpCmpi core b s
  | .opAndi core b => Sys2Proof.Machine.execOpAndi core b s
  | .opOri core b => Sys2Proof.Machine.execOpOri core b s
  | .opXori core b => Sys2Proof.Machine.execOpXori core b s
  | .opTsti core b => Sys2Proof.Machine.execOpTsti core b s
  | .opLsli core b => Sys2Proof.Machine.execOpLsli core b s
  | .opLsri core b => Sys2Proof.Machine.execOpLsri core b s
  | .opAsri core b => Sys2Proof.Machine.execOpAsri core b s
  | .opRori core b => Sys2Proof.Machine.execOpRori core b s
  | .opBtsti core b => Sys2Proof.Machine.execOpBtsti core b s
  | .opBseti core b => Sys2Proof.Machine.execOpBseti core b s
  | .opBclri core b => Sys2Proof.Machine.execOpBclri core b s
  | .opAsr2i core b => Sys2Proof.Machine.execOpAsr2i core b s
  | .opMovi core b => Sys2Proof.Machine.execOpMovi core b s
  | .opMov core b => Sys2Proof.Machine.execOpMov core b s
  | .opSrbit core b => Sys2Proof.Machine.execOpSrbit core b s
  | .opLdxA core b => Sys2Proof.Machine.execOpLdxA core b s
  | .opStxA core b => Sys2Proof.Machine.execOpStxA core b s
  | .opLdyA core b => Sys2Proof.Machine.execOpLdyA core b s
  | .opStyA core b => Sys2Proof.Machine.execOpStyA core b s
  | .opQmac core b => Sys2Proof.Machine.execOpQmac core b s
  | .opCmac core b => Sys2Proof.Machine.execOpCmac core b s
  | .opWmac core b => Sys2Proof.Machine.execOpWmac core b s
  | .opDmac core b => Sys2Proof.Machine.execOpDmac core b s
  | .opAclr core b => Sys2Proof.Machine.execOpAclr core b s
  | .opAadd core b => Sys2Proof.Machine.execOpAadd core b s
  | .opAsh core b => Sys2Proof.Machine.execOpAsh core b s
  | .opAld core b => Sys2Proof.Machine.execOpAld core b s
  | .opNorm core b => Sys2Proof.Machine.execOpNorm core b s
  | .opExp core b => Sys2Proof.Machine.execOpExp core b s
  | .opBexp core b => Sys2Proof.Machine.execOpBexp core b s
  | .opExt16 core b => Sys2Proof.Machine.execOpExt16 core b s
  | .opExt32 core b => Sys2Proof.Machine.execOpExt32 core b s
  | .opExtp core b => Sys2Proof.Machine.execOpExtp core b s
  | .opBr core b => Sys2Proof.Machine.execOpBr core b s
  | .opBrz core b => Sys2Proof.Machine.execOpBrz core b s
  | .opBrnz core b => Sys2Proof.Machine.execOpBrnz core b s
  | .opCall core b => Sys2Proof.Machine.execOpCall core b s
  | .opJmp core b => Sys2Proof.Machine.execOpJmp core b s
  | .opCallr core b => Sys2Proof.Machine.execOpCallr core b s
  | .opLoopi core b => Sys2Proof.Machine.execOpLoopi core b s
  | .opLoopd core b => Sys2Proof.Machine.execOpLoopd core b s
  | .opRepi core b => Sys2Proof.Machine.execOpRepi core b s
  | .opRepd core b => Sys2Proof.Machine.execOpRepd core b s
  | .opTrap core b => Sys2Proof.Machine.execOpTrap core b s
  | .opScall core b => Sys2Proof.Machine.execOpScall core b s
  | .opSret core b => Sys2Proof.Machine.execOpSret core b s
  | .opRti core b => Sys2Proof.Machine.execOpRti core b s
  | .opWait core b => Sys2Proof.Machine.execOpWait core b s
  | .opSwi core b => Sys2Proof.Machine.execOpSwi core b s
  | .opGet core b => Sys2Proof.Machine.execOpGet core b s
  | .opDone core b => Sys2Proof.Machine.execOpDone core b s
  | .opAlloc core b => Sys2Proof.Machine.execOpAlloc core b s
  | .poolAllocResponse core => Sys2Proof.Machine.execPoolAllocResponse core s
  | .opFree core b => Sys2Proof.Machine.execOpFree core b s
  | .poolFree core => Sys2Proof.Machine.execPoolFree core s
  | .opXfer core b => Sys2Proof.Machine.execOpXfer core b s
  | .transferComplete core => Sys2Proof.Machine.execTransferComplete core s
  | .opXwait core b => Sys2Proof.Machine.execOpXwait core b s
  | .softwareInterruptDoorbell core => Sys2Proof.Machine.execSoftwareInterruptDoorbell core s
  | .pitch => Sys2Proof.Machine.execPitch s
  | .pageLoad core => Sys2Proof.Machine.execPageLoad core s
  | .submissionWindowWrite core => Sys2Proof.Machine.execSubmissionWindowWrite core s
  | .dspSubmit ref desc => Sys2Proof.Machine.execDspSubmit ref desc s
  | .dspCancel ref flow seq => Sys2Proof.Machine.execDspCancel ref flow seq s
  | .dspCancelReq tag => Sys2Proof.Machine.execDspCancelReq tag s
  | .dspCodeDefine ref object entry => Sys2Proof.Machine.execDspCodeDefine ref object entry s
  | .dspPreload ref object mask => Sys2Proof.Machine.execDspPreload ref object mask s
  | .dspFlowReset ref first mask => Sys2Proof.Machine.execDspFlowReset ref first mask s
  | .dspCntClr value => Sys2Proof.Machine.execDspCntClr value s
  | .slotTimerFire timer => Sys2Proof.Machine.execSlotTimerFire timer s
  | .domainSlotBoundary domain => Sys2Proof.Machine.execDomainSlotBoundary domain s
  | .txGroupFetch slot => Sys2Proof.Machine.execTxGroupFetch slot s
  | .radXform ref q desc => Sys2Proof.Machine.execRadXform ref q desc s
  | .xformJobWindowWrite core => Sys2Proof.Machine.execXformJobWindowWrite core s
  | .xformJobComplete => Sys2Proof.Machine.execXformJobComplete s
  | .radTaps ref device first count addr => Sys2Proof.Machine.execRadTaps ref device first count addr s
  | .radTx ref t desc => Sys2Proof.Machine.execRadTx ref t desc s
  | .txJobWindowWrite core => Sys2Proof.Machine.execTxJobWindowWrite core s
  | .txPacketStart t => Sys2Proof.Machine.execTxPacketStart t s
  | .decJob ref q desc poison => Sys2Proof.Machine.execDecJob ref q desc poison s
  | .decJobWindowWrite core => Sys2Proof.Machine.execDecJobWindowWrite core s
  | .decJobStart engine => Sys2Proof.Machine.execDecJobStart engine s
  | .decJobComplete engine => Sys2Proof.Machine.execDecJobComplete engine s
  | .decTable ref table device addr len => Sys2Proof.Machine.execDecTable ref table device addr len s
  | .decCntClr value => Sys2Proof.Machine.execDecCntClr value s
  | .capArm ref mask when_ t => Sys2Proof.Machine.execCapArm ref mask when_ t s
  | .capArmInstant ref => Sys2Proof.Machine.execCapArmInstant ref s
  | .capStop ref mask => Sys2Proof.Machine.execCapStop ref mask s
  | .capForce ref mask => Sys2Proof.Machine.execCapForce ref mask s
  | .capForceRegisterWrite value => Sys2Proof.Machine.execCapForceRegisterWrite value s
  | .capSnap ref channel dest part clear addr len => Sys2Proof.Machine.execCapSnap ref channel dest part clear addr len s
  | .captureSample channel data poison time full late => Sys2Proof.Machine.execCaptureSample channel data poison time full late s
  | .segmentClose channel => Sys2Proof.Machine.execSegmentClose channel s
  | .memoryAccess req write rotate poison addr len data upset port1 => Sys2Proof.Machine.execMemoryAccess req write rotate poison addr len data upset port1 s
  | .trackerWatchExpiry bank word => Sys2Proof.Machine.execTrackerWatchExpiry bank word s
  | .bankDrainEnd target => Sys2Proof.Machine.execBankDrainEnd target s
  | .bankClearingDone bank => Sys2Proof.Machine.execBankClearingDone bank s
  | .ecsResultsRead m0 m1 => Sys2Proof.Machine.execEcsResultsRead m0 m1 s
  | .txPllLock => Sys2Proof.Machine.execTxPllLock s
  | .receiverLock link pol => Sys2Proof.Machine.execReceiverLock link pol s
  | .train link role id => Sys2Proof.Machine.execTrain link role id s
  | .ready link next role id => Sys2Proof.Machine.execReady link next role id s
  | .ack link next => Sys2Proof.Machine.execAck link next s
  | .nak link next => Sys2Proof.Machine.execNak link next s
  | .idle link => Sys2Proof.Machine.execIdle link s
  | .time link value => Sys2Proof.Machine.execTime link value s
  | .squelch link sleep => Sys2Proof.Machine.execSquelch link sleep s
  | .echo link value => Sys2Proof.Machine.execEcho link value s
  | .linkFlitReceive link bytes => Sys2Proof.Machine.execLinkFlitReceive link bytes s
  | .flitTransmit link => Sys2Proof.Machine.execFlitTransmit link s
  | .gatewayFlushTimeout gateway => Sys2Proof.Machine.execGatewayFlushTimeout gateway s
  | .ackDueTimeout link => Sys2Proof.Machine.execAckDueTimeout link s
  | .replayTimeout link => Sys2Proof.Machine.execReplayTimeout link s
  | .lossOfBlockLock link clock => Sys2Proof.Machine.execLossOfBlockLock link clock s
  | .retrainTimeout link => Sys2Proof.Machine.execRetrainTimeout link s
  | .burstModeEntry link => Sys2Proof.Machine.execBurstModeEntry link s
  | .trainingBurst link => Sys2Proof.Machine.execTrainingBurst link s
  | .idleTimeout link => Sys2Proof.Machine.execIdleTimeout link s
  | .sleepTimeout link => Sys2Proof.Machine.execSleepTimeout link s
  | .linkWake link => Sys2Proof.Machine.execLinkWake link s
  | .timeSendInterval link => Sys2Proof.Machine.execTimeSendInterval link s
  | .messageRingSend link => Sys2Proof.Machine.execMessageRingSend link s
  | .sqTailDoorbell port ring value => Sys2Proof.Machine.execSqTailDoorbell port ring value s
  | .cqHeadDoorbell port ring value => Sys2Proof.Machine.execCqHeadDoorbell port ring value s
  | .eventRingHeadDoorbell port target value => Sys2Proof.Machine.execEventRingHeadDoorbell port target value s
  | .commandFetchComplete ring poisonedTlp => Sys2Proof.Machine.execCommandFetchComplete ring poisonedTlp s
  | .msixCoalesceTimeout port ring => Sys2Proof.Machine.execMsixCoalesceTimeout port ring s
  | .bar4Access port write ofs len data => Sys2Proof.Machine.execBar4Access port write ofs len data s
  | .hstSem port both n => Sys2Proof.Machine.execHstSem port both n s
  | .hstSemRel port n value => Sys2Proof.Machine.execHstSemRel port n value s
  | .hstSemOwnerTagWrite port n value => Sys2Proof.Machine.execHstSemOwnerTagWrite port n value s
  | .ringCfgWrite ring value => Sys2Proof.Machine.execRingCfgWrite ring value s
  | .ringBaseWrite ring word value => Sys2Proof.Machine.execRingBaseWrite ring word value s
  | .eventRingConfigWrite target word value => Sys2Proof.Machine.execEventRingConfigWrite target word value s
  | .hstWinWrite target value => Sys2Proof.Machine.execHstWinWrite target value s
  | .portPerstAssert port => Sys2Proof.Machine.execPortPerstAssert port s
  | .linkRecoveryTimeout port => Sys2Proof.Machine.execLinkRecoveryTimeout port s
  | .functionLevelReset port => Sys2Proof.Machine.execFunctionLevelReset port s
  | .portRestored port => Sys2Proof.Machine.execPortRestored port s
  | .semaphoreLossTimeout port => Sys2Proof.Machine.execSemaphoreLossTimeout port s
  | .registerWrite port off size value drains => Sys2Proof.Machine.execRegisterWrite port off size value drains s
  | .readClearRegister port off size => Sys2Proof.Machine.execReadClearRegister port off size s
  | .read64bitLowerWord port off => Sys2Proof.Machine.execRead64bitLowerWord port off s
  | .heartbeatTimeout => Sys2Proof.Machine.execHeartbeatTimeout s
  | .pairTakeover => Sys2Proof.Machine.execPairTakeover s
  | .heartbeatToggle => Sys2Proof.Machine.execHeartbeatToggle s
  | .controlFlitInterval second => Sys2Proof.Machine.execControlFlitInterval second s
  | .pairFailover ref => Sys2Proof.Machine.execPairFailover ref s
  | .pairJoin ref same => Sys2Proof.Machine.execPairJoin ref same s
  | .secAttest ref sign dest part addr nonce => Sys2Proof.Machine.execSecAttest ref sign dest part addr nonce s
  | .secFwUpdate ref src part addr len => Sys2Proof.Machine.execSecFwUpdate ref src part addr len s
  | .secSvnAdvance ref => Sys2Proof.Machine.execSecSvnAdvance ref s
  | .secFuse ref field value => Sys2Proof.Machine.execSecFuse ref field value s
  | .secCoreSecure ref mask pages sec => Sys2Proof.Machine.execSecCoreSecure ref mask pages sec s
  | .secTraceAuth ref addr => Sys2Proof.Machine.execSecTraceAuth ref addr s
  | .traceTokenExpiry => Sys2Proof.Machine.execTraceTokenExpiry s
  | .secCertWrite ref addr len => Sys2Proof.Machine.execSecCertWrite ref addr len s
  | .trcCtrlEnWrite value => Sys2Proof.Machine.execTrcCtrlEnWrite value s
  | .extest pins other scan => Sys2Proof.Machine.execExtest pins other scan s
  | .samplePreload pins other scan => Sys2Proof.Machine.execSamplePreload pins other scan s
  | .idcode => Sys2Proof.Machine.execIdcode s
  | .highz => Sys2Proof.Machine.execHighz s
  | .clamp => Sys2Proof.Machine.execClamp s
  | .dbg request => Sys2Proof.Machine.execDbg request s
  | .bypass code => Sys2Proof.Machine.execBypass code s
  | .jtagTestLogicReset => Sys2Proof.Machine.execJtagTestLogicReset s
  | .hsEarlyNRise => Sys2Proof.Machine.execHsEarlyNRise s
  | .pairHbInEdge => Sys2Proof.Machine.execPairHbInEdge s
  | .traceFrame => Sys2Proof.Machine.execTraceFrame s
  | .elaClockEdge pins dco sys => Sys2Proof.Machine.execElaClockEdge pins dco sys s
  | .flashOperationComplete ok => Sys2Proof.Machine.execFlashOperationComplete ok s
  | .fuseProgrammingComplete => Sys2Proof.Machine.execFuseProgrammingComplete s

end Sys2Proof.Machine
end

