-- ==== Sys2Proof/Safety.lean ====
section
/-! DEFINITION. The terms that claims about the ABL-6480 are stated in: when a command is taken, when a bundle takes effect,
which states are canonical, and when nothing of a host reaches the device. -/

namespace Sys2Proof.Machine

/-- The machine apart from its register file, event log, host memory and host plane. -/
def State.units (s : State) : State := { s with regs := [], events := [], hostMem := [], host := {} }

/-- The command processor takes a command (R392, R458): the device runs, the command's ring is enabled, the command has not
completed already (R43), no earlier command holds it back, and in RECOVERY the opcode is one that RECOVERY executes. -/
def State.takes (s : State) (ref : CmdRef) (op : Nat) : Prop :=
  s.alive = true ∧ s.rdb F.HST_RING_CFG.EN ref.ring.toNat = true ∧ s.isGone ref = false ∧ s.waits ref = false ∧
    (s.recovery = false ∨ recoveryAllows op = true)

/-- Core n is at the bundle `b` with opcode `opc`, on a page that is valid and allowed (R210, R227, R263). -/
def State.atBundle (s : State) (n opc : Nat) (b : Bundle) : Prop :=
  s.coreReady n = true ∧ s.pageValid n = true ∧ s.pageDenied n = false ∧ s.fetches n (bundleWord opc b) = true

/-- What an operation does in the bundle that core n is at. -/
def State.effect (s : State) (n : Nat) (b : Bundle) (op : OpCtx → Fx) : Fx := op ((s.bundleStart n).bundleCtx n b)

/-- The bundle takes effect: no part of it raises anything, and its operation does not block (R223, R226, R253). -/
def State.executes (s : State) (n opc : Nat) (b : Bundle) (op : OpCtx → Fx) : Prop :=
  s.atBundle n opc b ∧ firstFault ((s.bundleStart n).bundleFaults n opc b (s.effect n b op)) = none ∧
    (s.effect n b op).block = none

/-- The state after a bundle that takes effect. -/
def State.bundleDone (s : State) (n : Nat) (b : Bundle) (op : OpCtx → Fx) : State :=
  let u := s.bundleStart n
  u.commitBundle n (u.bundleMove n b false) (u.bundleMove n b true) (s.effect n b op)

/-- Every sparse table that a host reaches is in its one canonical form: the register file, host memory, device memory. -/
def State.canonical (s : State) : Prop :=
  Sparse.wf regReset s.regs = true ∧ Sparse.wf (fun _ => (0 : Byte)) s.hostMem = true ∧
    Sparse.wf (fun _ => (0 : Byte)) s.mem.hbm = true ∧
    Sparse.wf (fun _ => clearedWord) s.mem.bank = true

/-- The rows through which a host acts on the device: its commands, doorbells and BAR accesses. -/
def hostSide : Instr → Bool
  | .hostNop .. | .stageWrite .. | .stageClear .. | .check .. | .commit .. | .abort .. | .dma .. | .memKiln ..
  | .loadGrist .. | .fabStart .. | .fabHalt .. | .fabResume .. | .fabFrame .. | .fabRestart .. | .elaLoad ..
  | .elaRelease .. | .elaHold .. | .cfgFlash .. | .cfgKey .. | .dspSubmit .. | .dspCancel .. | .dspCodeDefine ..
  | .dspPreload .. | .dspFlowReset .. | .radXform .. | .radTaps .. | .radTx .. | .decJob .. | .decTable ..
  | .capArm .. | .capStop .. | .capForce .. | .capSnap .. | .pairFailover .. | .pairJoin .. | .secAttest ..
  | .secFwUpdate .. | .secSvnAdvance .. | .secFuse .. | .secCoreSecure .. | .secTraceAuth .. | .secCertWrite .. => true
  | .clkNmeClear .. | .unfreeze .. | .frameDoorbell .. | .fabVlibInv .. | .fabRestClr .. | .elaLlDis ..
  | .softwareInterruptDoorbell .. | .dspCancelReq .. | .dspCntClr .. | .decCntClr .. | .capForceRegisterWrite ..
  | .sqTailDoorbell .. | .cqHeadDoorbell .. | .eventRingHeadDoorbell .. | .commandFetchComplete .. | .bar4Access ..
  | .hstSem .. | .hstSemRel .. | .hstSemOwnerTagWrite .. | .ringCfgWrite .. | .ringBaseWrite ..
  | .eventRingConfigWrite .. | .hstWinWrite .. | .registerWrite .. | .readClearRegister .. | .read64bitLowerWord ..
  | .trcCtrlEnWrite .. => true
  | _ => false

/-- Every ring is disabled. -/
def State.ringsOff (s : State) : Prop := ∀ r : BitVec 8, s.rdb F.HST_RING_CFG.EN r.toNat = false

/-- The device has not set READY and no ring is enabled (R384, R430). -/
def State.closed (s : State) : Prop := s.rdb F.GLB_STATUS.READY = false ∧ s.ringsOff

end Sys2Proof.Machine
end

