-- ==== Sys2Proof/WellFormed.lean ====
section
/-! DEFINITION. Which commands are well formed: operands that the type of a row cannot bound are within what the row's rule
describes. Meanings are total, so this is no hypothesis of a step; it says which rows describe something that can happen. -/

namespace Sys2Proof

/-- A block that a gate request names: a die, an island or a bank (R424). -/
def gateBlock (b : Nat) : Bool :=
  (decide (0x10 ≤ b) && decide (b ≤ 0x13)) || (decide (0x20 ≤ b) && decide (b ≤ 0x23)) || (decide (0x30 ≤ b) && decide (b ≤ 0x6F))

/-- An access reaches at least one byte, and a write carries its bytes. -/
def MemPort.wf (p : MemPort) : Bool := decide (1 ≤ p.len.toNat) && (!p.write || p.data.length == p.len.toNat)

/-- A command is well formed. -/
def Instr.wf : Instr → Bool
  -- the PLL domains of Table CLK-2 are numbered 1 to 25
  | .pllSettled d => decide (1 ≤ d.toNat) && decide (d.toNat ≤ 25)
  | .gateApplied b => gateBlock b.toNat
  | .gateTimeout b => gateBlock b.toNat
  -- banks 0 to 63, partitions 64 to 79
  | .bankDrainEnd t => decide (t.toNat < 80)
  -- six entries of eight bytes fill the operand bytes 16 to 63 (Table HST-5)
  | .stageWrite _ _ es => es.length == 6
  -- one payload entry of 64 bytes (R393)
  | .dspSubmit _ d => d.length == 64
  | .radXform _ _ d => d.length == 64
  | .radTx _ _ d => d.length == 64
  | .decJob _ _ d _ => d.length == 64
  -- the 16 bytes of a code table entry
  | .dspCodeDefine _ _ e => e.length == 16
  -- a write carries its bytes, and an access reaches at least one
  | .memoryAccess _ w _ _ _ n d _ p => decide (1 ≤ n.toNat) && (!w || d.length == n.toNat) && p.all MemPort.wf
  | .bar4Access _ w _ n d => decide (1 ≤ n.toNat) && (!w || d.length == n.toNat)
  -- a flit is 64 bytes (R372)
  | .linkFlitReceive _ b => b.length == 64
  -- the 32 words of a frame, each at most once
  | .spargeFrameSlot u m _ => decide (u.map fun e => e.1.toNat).Nodup && decide (m.map fun e => e.1.toNat).Nodup
  -- each bank at most once
  | .kilnComplete f => decide (f.map fun e => e.1.toNat).Nodup
  -- each window at most once
  | .fabricStep x => decide (x.windows.map fun e => e.1.toNat).Nodup
  -- sizes of a port's access
  | .registerWrite _ _ n _ _ => [1, 2, 4, 8].contains n.toNat
  | .readClearRegister _ _ n => [1, 2, 4, 8].contains n.toNat
  -- a code that Table SEC-9 does not list, or BYPASS itself
  | .bypass c => decide (5 ≤ c.toNat) && c != 0x10
  -- the opcodes that no table lists, and NOP's
  | .opNop _ _ _ => true
  | _ => true

end Sys2Proof
end

