-- ==== Sys2Proof/Certificates/Slice0/Obligations.lean ====
section
/-! DEFINITION. The statements made about the model of the ABL-6480, for the provers. -/

open Sys2Proof Sys2Proof.Machine

/-! ### The machine as a whole -/

/-- A step takes the command at the front of the queue and is `exec` of it on the machine with the queue's rest. -/
def Obligations.StepRunsFront : Prop :=
  ∀ (s : State) (c : Instr) (rest : List Instr), s.pending = c :: rest → step s = exec c (s.withPending rest)

/-- An idle block counts one tick of its timebase while it runs and nothing otherwise; nothing else changes (the model's
choice: notes/assumptions/1.md). -/
def idleStepCountsOneTick : Prop :=
  ∀ s : State, s.pending = [] →
    (s.alive = true → step s = .next { s with tb := s.tb + 1 }) ∧ (s.alive = false → step s = .next s)

/-- No command ends a run: every command of every state answers a next state. -/
def Obligations.EveryCommandAnswers : Prop := ∀ (c : Instr) (s : State), ∃ t, exec c s = .next t

/-- The rows that reach a device that is held in power-on reset or stopped by the thermal comparator. -/
def reachesStopped : Instr → Bool
  | .powerOnResetRelease .. | .warmReset .. | .railLoss | .tamperNLow | .vbatLoss | .hsEarlyNFall | .hsEarlyNRise
  | .heartbeatToggle => true
  | _ => false

/-- A device that does not run (R422, R427, R487) does nothing: every command but the resets, a rail loss, the key supply and
tamper inputs, HS_EARLY_N and the heartbeat leaves its whole state as it was. -/
def stoppedDeviceDoesNothing : Prop :=
  ∀ (c : Instr) (s : State), s.alive = false → reachesStopped c = false → exec c s = .next s

/-- An idle step counts one tick (the model's choice: notes/assumptions/1.md), and a device that does not run does nothing. -/
def Obligations.IdleAndStoppedStepsDoNothingElse : Prop :=
  idleStepCountsOneTick ∧ stoppedDeviceDoesNothing

/-- A closed device is left by every step of host rows as it was, apart from its queue and timebase: `σ` is what it stays. -/
def closedInvariant (σ s : State) : Prop :=
  s.closed ∧ (∀ c ∈ s.pending, hostSide c = true) ∧ { s with pending := [], tb := 0 } = { σ with pending := [], tb := 0 }

/-- Until the device is READY, nothing that a host does reaches it (R384, R430): an invariant of every step. -/
def Obligations.ClosedDeviceKeepsItsState : Prop :=
  ∀ σ s t : State, closedInvariant σ s → step s = .next t → closedInvariant σ t

/-- The device is closed right after reset, whatever host rows wait. -/
def Obligations.ClosedAtReset : Prop :=
  ∀ l : List Instr, (∀ c ∈ l, hostSide c = true) → closedInvariant State.reset (State.reset.withPending l)

/-! ### The host control plane -/

/-- HOST_NOP (R397), STAGE_CLEAR and STAGE_WRITE (R401): the command that is taken by the owner of semaphore 0, with no COMMIT
armed, sets the staging set as the rule says and completes DONE; STAGE_WRITE returns the number of entries staged. -/
def stagingCommandsComplete : Prop :=
  (∀ (s : State) (ref : CmdRef), s.takes ref 0x0201 →
    exec (.hostNop ref) s = .next ((s.accept ref 0x0201).complete ref stDone)) ∧
  (∀ (s : State) (ref : CmdRef), s.takes ref 0x0203 → (s.accept ref 0x0203).ownsStage ref = true →
    s.host.armed = none →
    exec (.stageClear ref) s = .next (((s.accept ref 0x0203).setStage []).complete ref stDone)) ∧
  (∀ (s : State) (ref : CmdRef) (n : BitVec 8) (es : List (BitVec 32 × BitVec 32)), s.takes ref 0x0202 →
    (s.accept ref 0x0202).ownsStage ref = true → s.host.armed = none → 1 ≤ n.toNat → n.toNat ≤ 6 → es.length = 6 →
    (∀ e ∈ es.drop n.toNat, e = (0, 0)) → (∀ e ∈ es.take n.toNat, e.1.toNat % 4 = 0 ∧ e.1.toNat < 2 ^ 24) →
    let l := ((es.take n.toNat).map fun e => (e.1.toNat, e.2)).foldl stageAdd s.host.stage
    l.length ≤ 4096 →
    exec (.stageWrite ref n es) s = .next (((s.accept ref 0x0202).setStage l).complete ref stDone l.length))

/-- An entry staged for an offset replaces the earlier value of that offset or joins at the end, and every other offset keeps
its value; so no offset is ever staged twice (R401). -/
def stagingReplacesOrAppends : Prop :=
  ∀ (l : List (Nat × BitVec 32)) (off : Nat) (v : BitVec 32), (l.map (·.1)).Nodup →
    ((stageAdd l (off, v)).map (·.1)).Nodup ∧
    (stageAdd l (off, v)).lookup off = some v ∧
    (∀ o, o ≠ off → (stageAdd l (off, v)).lookup o = l.lookup o) ∧
    (off ∈ l.map (·.1) → (stageAdd l (off, v)).map (·.1) = l.map (·.1)) ∧
    (off ∉ l.map (·.1) → stageAdd l (off, v) = l ++ [(off, v)])

/-- CHECK (R402): a set that CHECK passes completes DONE with CHECKED set; one that fails completes CHECK_FAILED with the entry
index and the code of the failure, and CHECKED cleared. -/
def checkReportsItsFinding : Prop :=
  ∀ (s : State) (ref : CmdRef), s.takes ref 0x0204 → (s.accept ref 0x0204).ownsStage ref = true →
    ((s.accept ref 0x0204).check s.stageSet = none → ∃ t, exec (.check ref) s = .next t ∧
      t = ((s.accept ref 0x0204).wr F.HST_STG_STATUS.CHECKED 1).complete ref stDone ∧
      t.rd F.HST_STG_STATUS.CHECKED = 1 ∧ t.host.stage = s.host.stage) ∧
    (∀ i c, (s.accept ref 0x0204).check s.stageSet = some (i, c) → ∃ t u : State, exec (.check ref) s = .next t ∧
      t = u.complete ref stCheckFailed (i + c * 2 ^ 16) ∧
      t.rd F.HST_STG_STATUS.CHECKED = 0 ∧ t.rd F.HST_STG_STATUS.CHECK_CODE = c % 2 ^ 8 ∧ t.host.stage = s.host.stage)

/-- Staging and CHECK (R397, R401, R402): HOST_NOP, STAGE_CLEAR, STAGE_WRITE and CHECK complete with the staging set and the
finding that the rules give. -/
def Obligations.StagedSetsAreBuiltAndChecked : Prop :=
  stagingCommandsComplete ∧ stagingReplacesOrAppends ∧ checkReportsItsFinding

/-- COMMIT, COMMIT_ARMED and COMMIT_INSTANT (R403, R404): a set that passes is armed as it stands; C is 32 ticks after arming,
or T where T lies at least that far ahead, else the commit is late; at C the set takes effect in every unit it touches, the
stage is empty, and the command completes DONE, or LATE, with C as its result. -/
def Obligations.CommitRunsItsCourse : Prop :=
  (∀ (s : State) (ref : CmdRef) (mode region : BitVec 8) (T : BitVec 64), s.takes ref 0x0205 → mode.toNat ≤ 2 →
    region.toNat < 16 →
    let u := s.accept ref 0x0205
    u.ownsStage ref = true → u.host.armed = none → u.stageSet ≠ [] → u.standbyLocked = false →
    u.check u.stageSet = none →
    let v := u.wr F.HST_STG_STATUS.CHECKED 1
    (mode = 1 → v.rlive region.toNat = true) → v.srcNotReady u.stageSet = false →
    ∃ t, exec (.commit ref mode region T) s = .next t ∧
      t.host.armed = some ⟨ref, mode.toNat, region.toNat, T.toNat, false, none, false, u.stageSet⟩ ∧
      t.rd F.HST_STG_STATUS.ARMED = 1 ∧ t.rd F.HST_STG_STATUS.CHECKED = 1 ∧ t.host.stage = s.host.stage ∧ t.units = s.units) ∧
  (∀ (s : State) (a : Armed), s.alive = true → s.host.armed = some a → a.armed = false →
    (a.mode = 0 → ∃ t, exec .commitArmed s = .next t ∧
      t.host.armed = some { a with armed := true, c := some (s.now + 32), late := false } ∧ t.units = s.units) ∧
    (a.mode = 2 → s.now + 32 ≤ a.t → ∃ t, exec .commitArmed s = .next t ∧
      t.host.armed = some { a with armed := true, c := some a.t } ∧ t.units = s.units) ∧
    (a.mode = 2 → a.t < s.now + 32 → ∃ t, exec .commitArmed s = .next t ∧
      t.host.armed = some { a with armed := true, c := some (s.now + 32), late := true } ∧ t.units = s.units)) ∧
  (∀ (s : State) (a : Armed) (c : Nat) (drains : BitVec 80), s.alive = true → s.host.armed = some a → a.c = some c →
    (s.now < c → exec (.commitInstant drains) s = .next s) ∧
    (c ≤ s.now → ((s.setHost { s.host with armed := none }).wr F.HST_STG_STATUS.ARMED 0).fabLocked a.set = false →
      ∃ t u : State, exec (.commitInstant drains) s = .next t ∧
        u = ((((s.setHost { s.host with armed := none }).wr F.HST_STG_STATUS.ARMED 0).forwardCommit a.set).applyEntries
          (((s.setHost { s.host with armed := none }).wr F.HST_STG_STATUS.ARMED 0).cmdPort a.ref) a.set
          (maskBits 80 drains.toNat) c) ∧
        t = ((u.commitMarks a.set).setStage []).complete a.ref (if a.late then stLate else stDone) c ∧
        t.host.stage = [] ∧ t.rd F.HST_STG_COUNT.ENTRIES = 0))

/-- ABORT (R398, R43): a target fetched and past its point of no return, or completed, makes the abort complete TOO_LATE; one
still before it is given up, completes ABORTED, and the abort completes DONE; an index not fetched yet is marked. -/
def Obligations.AbortDecidesItsTarget : Prop :=
  ∀ (s : State) (ref : CmdRef) (ring index : BitVec 16), s.takes ref 0x0206 → ring.toNat ≤ 255 →
    let u := (s.accept ref 0x0206).commitPast
    index.toNat < 2 ^ u.rd F.HST_RING_CFG.SQ_SIZE ring.toNat →
    (∀ op, Sparse.find (u.ring ring.toNat).last index.toNat = some op → u.unfetched ring.toNat index.toNat = false →
      op ≠ 0x0206 →
      (∀ c, u.host.cmds.find? (fun c => c.ref.ring.toNat == ring.toNat && c.ref.index.toNat == index.toNat) = some c →
        (c.accepted = true → c.early = false → exec (.abort ref ring index) s = .next (u.complete ref stTooLate)) ∧
        (c.accepted = false ∨ c.early = true →
          exec (.abort ref ring index) s = .next ((u.abortCmd c).complete ref stDone))) ∧
      (u.host.cmds.find? (fun c => c.ref.ring.toNat == ring.toNat && c.ref.index.toNat == index.toNat) = none →
        exec (.abort ref ring index) s = .next (u.complete ref stTooLate))) ∧
    (u.unfetched ring.toNat index.toNat = true → ∃ v : State, exec (.abort ref ring index) s = .next (v.complete ref stDone) ∧
      index.toNat ∈ (v.ring ring.toNat).marks ∧ v.units = s.units)

/-- A completion of an enabled ring whose port is up (R390, R391): the command is no longer outstanding, the 16 bytes of its
entry stand at the tail of the completion queue, and the tail has moved on by one entry; no unit of the device changes. -/
def completionIsWritten : Prop :=
  ∀ (s : State) (ref : CmdRef) (status result : Nat) (flag : Bool),
    let r := ref.ring.toNat
    s.rdb F.HST_RING_CFG.EN r = true → s.portUp (s.ringPort r) = true → ref.noirq = true →
    let size := 2 ^ s.rd F.HST_RING_CFG.CQ_SIZE r
    let tail := s.rd F.HST_RING_CQ.CQ_TAIL r
    let t := s.complete ref status result flag
    t.hostRead (s.ringPort r) (s.rd64 F.HST_CQ_BASE_LO.BASE r + 16 * tail) 16 =
        Cpl.bytes ⟨ref.tag.toNat, ref.index.toNat, status, flag, result % 2 ^ 64, true⟩ (s.ring r).phase ∧
      t.rd F.HST_RING_CQ.CQ_TAIL r = (tail + 1) % size ∧
      (t.ring r).phase = (if (tail + 1) % size = 0 then !(s.ring r).phase else (s.ring r).phase) ∧
      (∀ c ∈ t.host.cmds, c.is ref = false) ∧ t.units = s.units

/-- While a ring's port is lost, its completions are held in order and counted (R406). -/
def completionIsHeldWhilePortIsLost : Prop :=
  ∀ (s : State) (ref : CmdRef) (status result : Nat) (flag : Bool),
    let r := ref.ring.toNat
    s.rdb F.HST_RING_CFG.EN r = true → s.portUp (s.ringPort r) = false →
    let t := s.complete ref status result flag
    (t.ring r).held = (s.ring r).held ++ [⟨ref.tag.toNat, ref.index.toNat, status, flag, result % 2 ^ 64, ref.noirq⟩] ∧
      t.hostMem = s.hostMem ∧ t.units = s.units

/-- Completions (R390, R391, R406): written to their queue, or held in order while the port is lost. -/
def Obligations.CompletionsAreWrittenOrHeld : Prop :=
  completionIsWritten ∧ completionIsHeldWhilePortIsLost

/-- An event record goes to management firmware and to each port that wants it; a full ring drops it, counts the loss and
marks the next record written (R38 to R40). -/
def Obligations.EventsReachFirmwareAndPorts : Prop :=
  (∀ (s : State) (code sev source pay : Nat) (nme : Bool), s.recovery = false →
    (s.event code sev source pay nme).events = ⟨s.now, code, sev, nme, source, pay⟩ :: s.events ∧
      (s.event code sev source pay nme).units = s.units) ∧
  (∀ (s : State) (e : EventRec) (p : Fin 2), s.evtWanted p e = false → s.evtToPort e p = s) ∧
  (∀ (s : State) (e : EventRec) (p : Fin 2), s.evtWanted p e = true →
    (s.rd F.HST_EVT_PTR.TAIL p + 1) % 2 ^ s.rd F.HST_EVT_CFG.SIZE p = s.rd F.HST_EVT_PTR.HEAD p →
    let t := s.evtToPort e p
    t.hostMem = s.hostMem ∧ t.rd F.GLB_EVT_LOST.COUNT p = min (2 ^ 32 - 1) (s.rd F.GLB_EVT_LOST.COUNT p + 1) ∧
      Sparse.get (fun _ => false) t.host.evtLoss p = true ∧ t.rd F.HST_EVT_PTR.TAIL p = s.rd F.HST_EVT_PTR.TAIL p) ∧
  (∀ (s : State) (e : EventRec) (p : Fin 2), s.evtWanted p e = true → s.portUp p = true →
    (s.rd F.HST_EVT_PTR.TAIL p + 1) % 2 ^ s.rd F.HST_EVT_CFG.SIZE p ≠ s.rd F.HST_EVT_PTR.HEAD p →
    let t := s.evtToPort e p
    t.rd F.HST_EVT_PTR.TAIL p = (s.rd F.HST_EVT_PTR.TAIL p + 1) % 2 ^ s.rd F.HST_EVT_CFG.SIZE p ∧
      Sparse.get (fun _ => false) t.host.evtLoss p = false ∧
      (e.sev ≠ sevFatal → e.nme = false → Sparse.get (fun _ => 0) s.host.evtNew p + 1 < 2 ^ s.rd F.HST_EVT_CFG.COAL_CNT p →
        s.rd F.HST_EVT_CFG.COAL_US p ≠ 0 →
        t.hostRead p (s.rd64 F.HST_EVT_BASE_LO.BASE p + 32 * s.rd F.HST_EVT_PTR.TAIL p) 32 =
          e.bytes (Sparse.get (fun _ => false) s.host.evtLoss p)))

/-- The submission, completion and event doorbells (R386, R389, R395): one from the ring's own port with an index inside an
enabled ring moves that ring's index and nothing else; any other is discarded and counted for the port that wrote it. -/
def doorbellsMoveTheirRing : Prop :=
  (∀ (s : State) (p : Port) (r : BitVec 8) (v : BitVec 32), s.hostOpen = true →
    (s.rdb F.HST_RING_CFG.EN r.toNat = true → s.ringPort r.toNat = portNat p →
      (v.toNat < 2 ^ s.rd F.HST_RING_CFG.SQ_SIZE r.toNat → ∃ t, exec (.sqTailDoorbell p r v) s = .next t ∧
        (t.ring r.toNat).sqTail = v.toNat ∧ (∀ q, q ≠ r.toNat → t.ring q = s.ring q) ∧ t.regs = s.regs ∧
        t.hostMem = s.hostMem ∧ t.events = s.events ∧ t.units = s.units) ∧
      (v.toNat < 2 ^ s.rd F.HST_RING_CFG.CQ_SIZE r.toNat → ∃ t, exec (.cqHeadDoorbell p r v) s = .next t ∧
        t.rd F.HST_RING_CQ.CQ_HEAD r.toNat = v.toNat ∧
        t.rd F.HST_RING_CQ.CQ_TAIL r.toNat = s.rd F.HST_RING_CQ.CQ_TAIL r.toNat ∧ t.host = s.host ∧
        t.hostMem = s.hostMem ∧ t.events = s.events ∧ t.units = s.units)) ∧
    (s.rdb F.HST_RING_CFG.EN r.toNat = false ∨ s.ringPort r.toNat ≠ portNat p →
      ∃ t, exec (.sqTailDoorbell p r v) s = .next t ∧ exec (.cqHeadDoorbell p r v) s = .next t ∧
        t.rd F.HST_PORT_ERR.DB_BAD (portNat p) = min (2 ^ 16 - 1) (s.rd F.HST_PORT_ERR.DB_BAD (portNat p) + 1) ∧
        t.host = s.host ∧ t.hostMem = s.hostMem ∧ t.events = s.events ∧ t.units = s.units)) ∧
  (∀ (s : State) (p : Port) (v : BitVec 32), s.hostOpen = true → s.rdb F.GLB_EVT_CFG.ENABLE (portNat p) = true →
    v.toNat < 2 ^ s.rd F.HST_EVT_CFG.SIZE (portNat p) → ∃ t, exec (.eventRingHeadDoorbell p p v) s = .next t ∧
      t.rd F.HST_EVT_PTR.HEAD (portNat p) = v.toNat ∧
      t.rd F.HST_EVT_PTR.TAIL (portNat p) = s.rd F.HST_EVT_PTR.TAIL (portNat p) ∧ t.host = s.host ∧ t.units = s.units) ∧
  (∀ (s : State) (p q : Port) (v : BitVec 32), s.hostOpen = true → p ≠ q →
    exec (.eventRingHeadDoorbell p q v) s = .next (s.badDoorbell (portNat p)))

/-- COMMAND_FETCH_COMPLETE (R389, R390, R393): from an enabled ring of a port that is up, with an entry submitted and room for
its completion, the entry at the head is fetched: the head moves on, the command is outstanding and not yet accepted. -/
def fetchTakesTheHeadEntry : Prop :=
  ∀ (s : State) (ring : BitVec 8), s.hostOpen = true →
    let r := ring.toNat
    let p := s.ringPort r
    let head := s.rd F.HST_RING_STAT.SQ_HEAD r
    let size := 2 ^ s.rd F.HST_RING_CFG.SQ_SIZE r
    let d := s.hostRead p (s.rd64 F.HST_SQ_BASE_LO.BASE r + 64 * (head % size)) 64
    s.rdb F.HST_RING_CFG.EN r = true → s.portUp p = true → s.rdb F.HST_STATUS.FROZEN = false →
    1 ≤ ((s.ring r).sqTail + size - head) % size → s.hasCredit r = true → bit (fieldAt d 2 1) 2 = false →
    badDescriptor d = false → head ∉ (s.ring r).marks →
    ∃ t, exec (.commandFetchComplete ring false) s = .next t ∧
      t.rd F.HST_RING_STAT.SQ_HEAD r = (head + 1) % size ∧
      t.rd F.HST_RING_STAT.OUTSTANDING r = (s.rd F.HST_RING_STAT.OUTSTANDING r + 1) % 2 ^ 14 ∧
      t.host.cmds = s.host.cmds ++ [⟨descRef r head d, fieldAt d 0 2, false, false, d⟩] ∧
      Sparse.find (t.ring r).last head = some (fieldAt d 0 2) ∧
      t.hostMem = s.hostMem ∧ t.events = s.events ∧ t.units = s.units

/-- Doorbells and fetching (R386, R389, R390, R392, R393, R395). -/
def Obligations.DoorbellsAndFetchesMoveRings : Prop :=
  doorbellsMoveTheirRing ∧ fetchTakesTheHeadEntry

/-- The 32 semaphores (R399): a read of a free one grants it to the reader, who then owns it alone; of two ports that read in
one cycle P0 is granted; the owner alone releases it and writes its TAG, and any other release is counted; a release, also one
forced 1 ms after the owner's port was lost, leaves no owner and no TAG; firmware takes one as owner 3. -/
def Obligations.SemaphoresHaveOneOwner : Prop :=
  (∀ (s : State) (p : Port) (n : BitVec 5), s.bar0Open 0x20400 = true → s.rd F.HST_SEM.FREE n.toNat = 1 →
    (∃ t, exec (.hstSem p false n) s = .next t ∧ t.host.rdata = 1 ∧ t.rd F.HST_SEM.FREE n.toNat = 0 ∧
      t.rd F.HST_SEM_OWNER.OWNER n.toNat = portNat p + 1 ∧
      (∀ m : BitVec 5, m ≠ n → t.rd F.HST_SEM.FREE m.toNat = s.rd F.HST_SEM.FREE m.toNat ∧
        t.rd F.HST_SEM_OWNER.OWNER m.toNat = s.rd F.HST_SEM_OWNER.OWNER m.toNat) ∧ t.units = s.units) ∧
    (∃ t, exec (.hstSem p true n) s = .next t ∧ t.rd F.HST_SEM.FREE n.toNat = 0 ∧
      t.rd F.HST_SEM_OWNER.OWNER n.toNat = 1 ∧ t.host.rdata = 0)) ∧
  (∀ (s : State) (p : Port) (n : BitVec 5), s.bar0Open 0x20400 = true → s.rd F.HST_SEM.FREE n.toNat = 0 →
    ∃ t, exec (.hstSem p false n) s = .next t ∧ t.host.rdata = 0 ∧ t.regs = s.regs ∧ t.units = s.units) ∧
  (∀ (s : State) (p : Port) (n : BitVec 5) (v : BitVec 32), s.bar0Open 0x20500 = true → v.getLsbD 0 = true →
    (s.rd F.HST_SEM_OWNER.OWNER n.toNat = portNat p + 1 → ∃ t, exec (.hstSemRel p n v) s = .next t ∧
      (n ≠ 0 → t.rd F.HST_SEM.FREE n.toNat = 1 ∧ t.rd F.HST_SEM_OWNER.OWNER n.toNat = 0 ∧
        t.rd F.HST_SEM_OWNER.TAG n.toNat = 0 ∧ t.host = s.host ∧ t.units = s.units) ∧
      (n = 0 → s.host.armed = none → t.rd F.HST_SEM.FREE 0 = 1 ∧ t.rd F.HST_SEM_OWNER.OWNER 0 = 0 ∧
        t.host.stage = [] ∧ t.rd F.HST_STG_COUNT.ENTRIES = 0)) ∧
    (s.rd F.HST_SEM_OWNER.OWNER n.toNat ≠ portNat p + 1 → ∃ t, exec (.hstSemRel p n v) s = .next t ∧
      t.rd F.HST_PORT_ERR.SEM_BAD (portNat p) = min (2 ^ 16 - 1) (s.rd F.HST_PORT_ERR.SEM_BAD (portNat p) + 1) ∧
      t.rd F.HST_SEM.FREE n.toNat = s.rd F.HST_SEM.FREE n.toNat ∧
      t.rd F.HST_SEM_OWNER.OWNER n.toNat = s.rd F.HST_SEM_OWNER.OWNER n.toNat ∧ t.host = s.host ∧ t.units = s.units)) ∧
  (∀ (s : State) (p : Port) (n : BitVec 5) (v : BitVec 32), s.bar0Open 0x20404 = true →
    (s.rd F.HST_SEM_OWNER.OWNER n.toNat = portNat p + 1 → ∃ t, exec (.hstSemOwnerTagWrite p n v) s = .next t ∧
      t.rd F.HST_SEM_OWNER.TAG n.toNat = v.toNat % 2 ^ 16 ∧
      t.rd F.HST_SEM_OWNER.OWNER n.toNat = s.rd F.HST_SEM_OWNER.OWNER n.toNat ∧ t.host = s.host ∧ t.units = s.units) ∧
    (s.rd F.HST_SEM_OWNER.OWNER n.toNat ≠ portNat p + 1 → exec (.hstSemOwnerTagWrite p n v) s = .next s)) ∧
  (∀ (s : State) (p : Port) (n : BitVec 5) (v : BitVec 32), v.getLsbD 0 = false → exec (.hstSemRel p n v) s = .next s) ∧
  (∀ (s : State) (p : Port) (t0 : Nat), s.alive = true → Sparse.find s.host.lostAt (portNat p) = some t0 → t0 + 1000000 ≤ s.now →
    ∃ t, exec (.semaphoreLossTimeout p) s = .next t ∧ ∀ n : BitVec 5,
      (s.rd F.HST_SEM_OWNER.OWNER n.toNat = portNat p + 1 → t.rd F.HST_SEM.FREE n.toNat = 1 ∧
        t.rd F.HST_SEM_OWNER.OWNER n.toNat = 0 ∧ t.rd F.HST_SEM_OWNER.TAG n.toNat = 0) ∧
      (s.rd F.HST_SEM_OWNER.OWNER n.toNat ≠ portNat p + 1 → t.rd F.HST_SEM.FREE n.toNat = s.rd F.HST_SEM.FREE n.toNat ∧
        t.rd F.HST_SEM_OWNER.OWNER n.toNat = s.rd F.HST_SEM_OWNER.OWNER n.toNat ∧
        t.rd F.HST_SEM_OWNER.TAG n.toNat = s.rd F.HST_SEM_OWNER.TAG n.toNat)) ∧
  (∀ (s : State) (n : BitVec 5), s.rd F.HST_SEM.FREE n.toNat = 1 → (s.semRead n.toNat 3).rd F.HST_SEM_OWNER.OWNER n.toNat = 3 ∧
    (s.semRead n.toNat 3).rd F.HST_SEM.FREE n.toNat = 0)

/-- Setting up rings and windows (R388, R389, R395, R407): enabling a ring clears its four indices and its held completions;
a write to a base holds the word; writing an event ring's set-up restarts it; the window base is the low 16 bits written. -/
def ringsAreSetUp : Prop :=
  (∀ (s : State) (ring : BitVec 8) (v : BitVec 32), s.bar0Open 0x21000 = true →
    s.rdb F.HST_RING_CFG.EN ring.toNat = false → v.getLsbD 31 = true →
    ∃ t, exec (.ringCfgWrite ring v) s = .next t ∧ t.rdb F.HST_RING_CFG.EN ring.toNat = true ∧
      t.rd F.HST_RING_CFG.PORT ring.toNat = bits v.toNat 30 30 ∧ t.rd F.HST_RING_CFG.VECTOR ring.toNat = bits v.toNat 21 15 ∧
      t.rd F.HST_RING_STAT.SQ_HEAD ring.toNat = 0 ∧ t.rd F.HST_RING_CQ.CQ_HEAD ring.toNat = 0 ∧
      t.rd F.HST_RING_CQ.CQ_TAIL ring.toNat = 0 ∧ t.ring ring.toNat = {} ∧ t.units = s.units) ∧
  (∀ (s : State) (ring : BitVec 8) (k : BitVec 2) (v : BitVec 32), s.bar0Open 0x21000 = true →
    ∃ t, exec (.ringBaseWrite ring k v) s = .next t ∧ t.rdReg (0x21000 + 32 * ring.toNat + 4 * k.toNat) = v.toNat ∧
      (t.ring ring.toNat).held = [] ∧ t.units = s.units) ∧
  (∀ (s : State) (q : Port) (k : Fin 3) (v : BitVec 32), s.bar0Open 0x20100 = true →
    ∃ t, exec (.eventRingConfigWrite q k v) s = .next t ∧ t.rd F.HST_EVT_PTR.HEAD (portNat q) = 0 ∧
      t.rd F.HST_EVT_PTR.TAIL (portNat q) = 0 ∧ (k = 0 → t.rdReg (0x20100 + 32 * portNat q) = v.toNat) ∧
      (k = 1 → t.rdReg (0x20104 + 32 * portNat q) = v.toNat) ∧
      (k = 2 → t.rd F.HST_EVT_CFG.COAL_US (portNat q) = bits v.toNat 18 8) ∧ t.host = s.host ∧ t.units = s.units) ∧
  (∀ (s : State) (q : Port) (v : BitVec 32), s.bar0Open 0x20080 = true →
    ∃ t, exec (.hstWinWrite q v) s = .next t ∧ t.rd F.HST_WIN.BASE (portNat q) = v.toNat % 2 ^ 16 ∧ t.host = s.host ∧
      t.units = s.units)

/-- Losing and restoring a port (R406, R407, R400): a loss clears PORT_UP and freezes the port's rings; the port that returns
is up again and nothing waits for it; its semaphores are released by force 1 ms after the loss. -/
def portsAreLostAndRestored : Prop :=
  (∀ (s : State) (p : Port), s.alive = true → s.portUp (portNat p) = true →
    ∃ t, exec (.portPerstAssert p) s = .next t ∧ exec (.linkRecoveryTimeout p) s = .next t ∧
      t.portUp (portNat p) = false ∧ Sparse.find t.host.lostAt (portNat p) = some s.now ∧
      t.rd F.HST_STATUS.FROZEN = s.rd F.HST_STATUS.FROZEN ∧ t.units = s.units) ∧
  (∀ (s : State) (p : Port), s.alive = true → s.portUp (portNat p) = false →
    ∃ t, exec (.portRestored p) s = .next t ∧ t.portUp (portNat p) = true ∧
      Sparse.find t.host.lostAt (portNat p) = none ∧ t.units = s.units) ∧
  (∀ (s : State) (p : Port), s.alive = true → ∃ t, exec (.functionLevelReset p) s = .next t ∧
    Sparse.find t.host.lostAt (portNat p) = none ∧ t.portUp (portNat p) = false ∧
    (∀ r ∈ s.ringsOf (portNat p), t.rdb F.HST_RING_CFG.EN r = false ∧ t.ring r = {})) ∧
  (∀ (s : State) (p : Port) (t0 : Nat), s.alive = true → Sparse.find s.host.lostAt (portNat p) = some t0 →
    (t0 + 1000000 ≤ s.now → exec (.semaphoreLossTimeout p) s = .next
      ((s.setHost { s.host with lostAt := Sparse.erase s.host.lostAt (portNat p) }).semForcePort (portNat p))) ∧
    (s.now < t0 + 1000000 → exec (.semaphoreLossTimeout p) s = .next s))

/-- The orderly freeze (R408, R435): the edge of PFW_N freezes fetching and holds the heartbeat low; nothing outstanding, or 5 ms, quiesces the device; a write
of 1 to UNFREEZE while PFW_N is high ends both. -/
def freezeQuiescesAndEnds : Prop :=
  (∀ s : State, s.alive = true → s.host.armed = none → (∀ c ∈ s.host.cmds, c.accepted = true ∧ c.early = false) →
    (s.rdb F.PAIR_CFG.EN && s.rd F.PAIR_STAT.ROLE == 0) = false →
    ∃ t, exec .pfwNFall s = .next t ∧ t.rd F.HST_STATUS.FROZEN = 1 ∧ t.pair.hbOut = false ∧ t.host.pfw = false ∧ t.host.cmds = s.host.cmds ∧
      (s.noneOutstanding = true → t.rd F.HST_STATUS.QUIESCED = 1) ∧ t.units = s.units) ∧
  (∀ (s : State) (t0 : Nat), s.alive = true → s.host.pfwEdge = some t0 →
    (t0 + 5000000 ≤ s.now ∨ s.noneOutstanding = true → ∃ t, exec .quiesceTimeout s = .next t ∧
      t.rd F.HST_STATUS.QUIESCED = 1 ∧ t.rd F.HST_STATUS.FROZEN = s.rd F.HST_STATUS.FROZEN ∧
      t.host = { s.host with pfwEdge := none } ∧ t.units = s.units)) ∧
  (∀ (s : State) (v : BitVec 32), s.bar0Open 0x20004 = true → v.getLsbD 0 = true →
    ∃ t, exec (.unfreeze true v) s = .next t ∧ t.rd F.HST_STATUS.FROZEN = 0 ∧ t.rd F.HST_STATUS.QUIESCED = 0 ∧
      t.host = { s.host with pfw := true, pfwEdge := none } ∧ t.units = s.units)

/-- Lost ports, their return, function-level reset, and the orderly freeze (R400, R406 to R408). -/
def Obligations.PortsAndFreezesComeAndGo : Prop :=
  portsAreLostAndRestored ∧ freezeQuiescesAndEnds

/-- DMA, the BAR4 window and coalesced interrupts (R387, R394, R397): DMA moves its bytes as requester HOST and returns their
number; the window gives the port the device memory it maps; when COAL_US has passed since the first unsignalled entry the
message goes out and counting starts again. -/
def hostMovesMemoryAndSignals : Prop :=
  (∀ (s : State) (ref : CmdRef) (toHost : Bool) (host : BitVec 64) (far len : BitVec 32), s.takes ref 0x0207 →
    let u := s.accept ref 0x0207
    let p := s.cmdPort ref
    let r := u.memRead (reqHost p) (far.toNat * 16) len.toNat
    s.memWaits (reqHost p) (far.toNat * 16) len.toNat = false →
    (len.toNat = 0 ∨ len.toNat % 16 ≠ 0 → exec (.dma ref toHost host far len) s = .next (u.complete ref stRange)) ∧
    (0 < len.toNat → len.toNat % 16 = 0 → far.toNat + len.toNat / 16 ≤ 0x80800000 →
      (s.portUp p = false → exec (.dma ref toHost host far len) s = .next (u.complete ref stIncomplete)) ∧
      (s.portUp p = true → poisoned r.bytes = false → ∃ t v : State, exec (.dma ref true host far len) s = .next t ∧
        t = v.complete ref stDone len.toNat ∧ v.hostRead p host.toNat len.toNat = plain r.bytes ∧ v.mem = r.s.mem) ∧
      (s.portUp p = true → poisoned r.bytes = true → ∃ t v : State, exec (.dma ref true host far len) s = .next t ∧
        t = v.complete ref stDone len.toNat ∧ v.host.wpoison = true ∧ v.mem = r.s.mem) ∧
      (s.portUp p = true → exec (.dma ref false host far len) s = .next
        ((u.memWrite (reqHost p) (far.toNat * 16) (s.hostBytes p host.toNat len.toNat)).s.complete ref stDone len.toNat)))) ∧
  (∀ (s : State) (p : Port) (ofs : BitVec 28) (len : BitVec 12) (data : List Byte), s.hostOpen = true →
    let a := s.rd F.HST_WIN.BASE (portNat p) * 65536 * 16 + ofs.toNat
    (s.memWaits (reqHost (portNat p)) a data.length = false →
      exec (.bar4Access p true ofs len data) s = .next (s.put (reqHost (portNat p)) a data)) ∧
    (s.memWaits (reqHost (portNat p)) a len.toNat = false →
      let r := s.memRead (reqHost (portNat p)) a len.toNat
      ∃ t, exec (.bar4Access p false ofs len data) s = .next t ∧ t.mem = r.s.mem ∧
        (poisoned r.bytes = false → t.host.rdata = leNat (plain r.bytes) ∧ t.host.rpoison = false ∧ t.events = r.s.events))) ∧
  (∀ (s : State) (p : Port) (ring : BitVec 8) (t0 : Nat), s.alive = true →
    let r := ring.toNat
    (s.ring r).firstUnsig = some t0 →
    (s.now < t0 + 1000 * s.rd F.HST_RING_CFG.COAL_US r → exec (.msixCoalesceTimeout p (some ring)) s = .next s) ∧
    (t0 + 1000 * s.rd F.HST_RING_CFG.COAL_US r ≤ s.now → ∃ t, exec (.msixCoalesceTimeout p (some ring)) s = .next t ∧
      t.ring r = { s.ring r with unsignalled := 0, firstUnsig := none } ∧ t.units = s.units ∧ t.events = s.events ∧
      (s.rd F.HST_MSIX.WORD (s.ringPort r) (4 * s.rd F.HST_RING_CFG.VECTOR r + 3) % 2 = 0 →
        s.portUp (s.ringPort r) = true → t.regs = s.regs ∧
          t.hostRead (s.ringPort r) (s.rd F.HST_MSIX.WORD (s.ringPort r) (4 * s.rd F.HST_RING_CFG.VECTOR r) / 4 * 4 +
            2 ^ 32 * s.rd F.HST_MSIX.WORD (s.ringPort r) (4 * s.rd F.HST_RING_CFG.VECTOR r + 1)) 4 =
            leBytes 4 (s.rd F.HST_MSIX.WORD (s.ringPort r) (4 * s.rd F.HST_RING_CFG.VECTOR r + 2)))))

/-- Ring and window set-up, DMA, BAR4 and coalesced interrupts (R387 to R389, R394, R395, R397, R407). -/
def Obligations.HostSetsUpRingsAndMovesMemory : Prop :=
  ringsAreSetUp ∧ hostMovesMemoryAndSignals

/-! ### Registers -/

/-- BAR0 registers are accessed only as aligned 32-bit words (R14): a read of any other size or alignment returns 0, and a
write of one is discarded. -/
def Obligations.OnlyAlignedWordsAreAccessed : Prop :=
  ∀ (s : State) (p : Port) (off : BitVec 24) (size : BitVec 4) (v : BitVec 32) (drains : BitVec 80), s.alive = true →
    s.rdb F.GLB_STATUS.READY = true → off.toNat % 4 ≠ 0 ∨ size ≠ 4 →
    exec (.registerWrite p off size v drains) s = .next s ∧
    ∃ t, exec (.readClearRegister p off size) s = .next t ∧ t.host.rdata = 0 ∧ t.regs = s.regs ∧ t.events = s.events ∧
      t.units = s.units

/-- At an offset that no register occupies a read returns 0 and a write is discarded, from either port, and neither raises an
event; both ports read the same value at the same offset (R36). -/
def Obligations.UnoccupiedOffsetsReadZero : Prop :=
  (∀ (s : State) (p : Port) (off : BitVec 24) (v : BitVec 32) (drains : BitVec 80), s.alive = true →
    s.rdb F.GLB_STATUS.READY = true → regRow off.toNat = none →
    exec (.registerWrite p off 4 v drains) s = .next s ∧
    ∃ t, exec (.readClearRegister p off 4) s = .next t ∧ t.host.rdata = 0 ∧ t.events = s.events ∧ t.hostMem = s.hostMem) ∧
  (∀ (s : State) (off : BitVec 24), lowerWord off.toNat = false → (off.toNat < 4 ∨ lowerWord (off.toNat - 4) = false) →
    s.alive = true → s.rdb F.GLB_STATUS.READY = true → ∃ t u, exec (.readClearRegister .p0 off 4) s = .next t ∧
      exec (.readClearRegister .p1 off 4) s = .next u ∧ t.host.rdata = u.host.rdata)

/-- The registers that a write of their RW fields does nothing beyond: no action, no field that a write of 1 clears, no lock
after a commit, no ring, window, interrupt table, remap entry or trace control. -/
def plainRegister (off : Nat) (r : RegDef) : Prop :=
  (off < 0x20000 ∨ 0x32000 ≤ off) ∧ (off < 0x42000 ∨ 0x43000 ≤ off) ∧ (off < 0x4F0000 ∨ 0x4F001C ≤ off) ∧
    r.has .w1c = false ∧ r.has .rwl = false ∧ r.has .rw = true ∧ (∀ (s : State) p v, s.actionWrite p off v = none)

/-- A write reaches the RW fields of a register and no other (R10, R12, R13): a field takes the value written where its
encoding is listed; a reserved encoding leaves its field unchanged, and so does a write of any other field; every other
register stays as it was. -/
def writesReachTheirFields : Prop :=
  ∀ (s : State) (p : Port) (off : BitVec 24) (v : BitVec 32) (drains : BitVec 80) (r : RegDef),
    s.bar0Open off.toNat = true → off.toNat % 4 = 0 → regRow off.toNat = some r → plainRegister off.toNat r →
    ∃ t, exec (.registerWrite p off 4 v drains) s = .next t ∧
      (∀ f ∈ r.fields, bits (t.rdReg off.toNat) f.hi f.lo =
        if f.acc = .rw ∧ f.lists (bits v.toNat f.hi f.lo) = true then bits v.toNat f.hi f.lo
        else bits (s.rdReg off.toNat) f.hi f.lo) ∧
      (∀ o, o ≠ off.toNat → t.rdReg o = s.rdReg o) ∧ t.host = s.host ∧ t.hostMem = s.hostMem ∧ t.events = s.events ∧
      t.units = s.units

/-- Once a commit has included an RWL register, direct writes to it are discarded (R11). -/
def committedRegistersAreLocked : Prop :=
  ∀ (s : State) (p : Port) (off : BitVec 24) (v : BitVec 32) (drains : BitVec 80) (r : RegDef),
    regRow off.toNat = some r → r.has .rwl = true → r.has .w1c = false → s.actionWrite (portNat p) off.toNat v.toNat = none →
    s.isCommitted off.toNat = true → exec (.registerWrite p off 4 v drains) s = .next s

/-- Until a commit has included it, a direct write to an RWL register acts as a commit of that one write at the present instant,
where CHECK passes it and a commit would not be refused, and does nothing otherwise; the clock domains and CLK_PWR_CTRL are
never written directly (R502). -/
def directWritesActAsACommit : Prop :=
  ∀ (s : State) (p : Port) (off : BitVec 24) (v : BitVec 32) (drains : BitVec 80) (r : RegDef),
    s.bar0Open off.toNat = true → off.toNat % 4 = 0 → regRow off.toNat = some r → r.has .rwl = true → r.has .w1c = false →
    s.actionWrite (portNat p) off.toNat v.toNat = none → s.isCommitted off.toNat = false →
    let set := [(off.toNat, v.toNat)]
    (s.check set ≠ none → exec (.registerWrite p off 4 v drains) s = .next s) ∧
    (0x10100 ≤ off.toNat ∧ off.toNat < 0x10164 ∨ off.toNat = 0x10020 → exec (.registerWrite p off 4 v drains) s = .next s) ∧
    (off.toNat < 0x10100 ∨ 0x10164 ≤ off.toNat → off.toNat ≠ 0x10020 → s.check set = none → s.standbyLocked = false →
      s.fab.load = none → exec (.registerWrite p off 4 v drains) s = .next ((s.forwardCommit set).applyEntries (portNat p) set
        (maskBits 80 drains.toNat) s.now))

/-- Register writes (R10 to R13, R502): they reach the fields of their register unless a commit has locked it; a direct write to a
register that is changed by commits acts as a commit of itself. -/
def Obligations.WritesReachUnlockedFields : Prop :=
  writesReachTheirFields ∧ committedRegistersAreLocked ∧ directWritesActAsACommit

/-- The key of a pair's shadow for a reader: 0 and 1 the ports, 2 the JTAG read path. -/
def shadowKey (off reader : Nat) : Nat := 4 * off + reader

/-- 64-bit pairs (R15): a read of the lower word returns it, and copies the upper word into that port's shadow of the pair and no
other; a read of the upper word returns a full shadow and empties it, and the live word where it is empty; reads of other
registers leave every shadow as it was; the JTAG read path has a shadow of its own. -/
def pairsReadConsistently : Prop :=
  (∀ (s : State) (p : Port) (off : BitVec 24), off.toNat + 4 < 2 ^ 24 → off.toNat % 4 = 0 → lowerWord off.toNat = true →
    s.bar0Open off.toNat = true → ∃ t, exec (.read64bitLowerWord p off) s = .next t ∧
      t.host.rdata = (s.freshen off.toNat).liveWord off.toNat ∧
      Sparse.find t.host.shadows (shadowKey off.toNat (portNat p)) =
        some (BitVec.ofNat 32 ((s.freshen off.toNat).liveWord (off.toNat + 4))) ∧
      (∀ k, k ≠ shadowKey off.toNat (portNat p) → Sparse.find t.host.shadows k = Sparse.find s.host.shadows k)) ∧
  (∀ (s : State) (p : Port) (off : BitVec 24), off.toNat + 4 < 2 ^ 24 → off.toNat % 4 = 0 → lowerWord off.toNat = true →
    lowerWord (off.toNat + 4) = false → (regRow (off.toNat + 4)).isSome = true →
    s.bar0Open (off.toNat + 4) = true →
    let k := shadowKey off.toNat (portNat p)
    (∀ v, Sparse.find s.host.shadows k = some v → ∃ t, exec (.readClearRegister p (off + 4) 4) s = .next t ∧
      t.host.rdata = v.toNat ∧ Sparse.find t.host.shadows k = none ∧
      (∀ j, j ≠ k → Sparse.find t.host.shadows j = Sparse.find s.host.shadows j)) ∧
    (Sparse.find s.host.shadows k = none → ∃ t, exec (.readClearRegister p (off + 4) 4) s = .next t ∧
      t.host.rdata = (s.freshen (off.toNat + 4)).liveWord (off.toNat + 4) ∧ t.host.shadows = s.host.shadows)) ∧
  (∀ (s : State) (p : Port) (off : BitVec 24) (size : BitVec 4), lowerWord off.toNat = false →
    (off.toNat < 4 ∨ lowerWord (off.toNat - 4) = false) → ∃ t, exec (.readClearRegister p off size) s = .next t ∧
      t.host.shadows = s.host.shadows) ∧
  (∀ (s : State) (off : BitVec 24), s.alive = true → s.rdb F.SEC_FUSE_STAT.DBG_DIS = false → s.sec.jtag = 0x10 →
    s.bar0Open off.toNat = true → off.toNat % 4 = 0 → lowerWord off.toNat = true →
    ∃ t, exec (.dbg (BitVec.ofNat 64 (2 ^ 63 + off.toNat * 2 ^ 32))) s = .next t ∧
      (∀ k, k ≠ shadowKey off.toNat 2 → Sparse.find t.host.shadows k = Sparse.find s.host.shadows k))

/-- The device timebase is read live through its pair (R32): a read of the lower word returns TB[31:0], and the upper word then
reads TB[63:32] of the same instant. -/
def timebaseReadsLive : Prop :=
  ∀ (s : State) (p : Port), s.alive = true → s.rdb F.GLB_STATUS.READY = true →
    ∃ t, exec (.read64bitLowerWord p 0x10) s = .next t ∧ t.host.rdata = s.tb.toNat % 2 ^ 32 ∧ t.regs = s.regs ∧
      ∃ u, exec (.readClearRegister p 0x14 4) t = .next u ∧ u.host.rdata = s.tb.toNat / 2 ^ 32 ∧ u.units = s.units

/-- 64-bit pairs (R15), with the timebase read live through its pair (R32). -/
def Obligations.WidePairsReadConsistently : Prop :=
  pairsReadConsistently ∧ timebaseReadsLive

/-! ### The memory system -/

/-- A host's request reaches its own target: nothing holds it, no gate takes it, and its requester owns the byte (R342). -/
def ownAccess (s : State) (req a : Nat) : Prop :=
  s.alive = true ∧ s.owns req a = true ∧ s.memHolds a = false ∧ s.gatePending a = false ∧ s.gated a = false ∧
    a < windowBytes

/-- MEMORY_ACCESS by the owner to a bank word (R340, R349, R350, R352): a whole write stores the data with fresh check bits, or
with stored poison where it carries poison, and leaves every other word, the HBM and every register as they were; a read of a
word that holds no error returns its data without poison; a word that nothing has written reads 0 (R348). -/
def ownersReadAndWriteBankWords : Prop :=
  ∀ (s : State) (req : BitVec 16) (a : BitVec 36) (b : Nat), ownAccess s req.toNat a.toNat →
    s.target a.toNat = .bank b → a.toNat % 8 = 0 →
    let w := (a.toNat - hbmBytes) % 2 ^ 21 / 8
    (∀ (data : List Byte) (poison : Bool), data.length = 8 →
      ∃ t, exec (.memoryAccess req true false poison a 8 data {} none) s = .next t ∧
        t.bankGet (s.bankKey b w) = ⟨BitVec.ofNat 64 (leNat data), true, if poison then poisonFlips else 0⟩ ∧
        (∀ k, k ≠ s.bankKey b w → t.bankGet k = s.bankGet k) ∧
        t.mem.resp = some ⟨req.toNat, a.toNat, 8, 0, false, false⟩ ∧ t.mem.hbm = s.mem.hbm ∧ t.regs = s.regs ∧
        t.events = s.events) ∧
    ((s.bankGet (s.bankKey b w)).valid = true → (s.bankGet (s.bankKey b w)).flips = 0 →
      ∃ t, exec (.memoryAccess req false false false a 8 [] {} none) s = .next t ∧
        t.mem.resp = some ⟨req.toNat, a.toNat, 8, (s.bankGet (s.bankKey b w)).data.toNat, false, false⟩ ∧
        t.mem.bank = s.mem.bank ∧ t.regs = s.regs ∧ t.events = s.events) ∧
    ((s.bankGet (s.bankKey b w)).valid = false →
      ∃ t, exec (.memoryAccess req false false false a 8 [] {} none) s = .next t ∧
        t.mem.resp = some ⟨req.toNat, a.toNat, 8, 0, false, false⟩ ∧ t.mem.bank = s.mem.bank ∧ t.regs = s.regs)

/-- MEMORY_ACCESS by the owner to HBM (R358): a write of bytes inside one granule changes those bytes and no other. -/
def ownersWriteHbm : Prop :=
  ∀ (s : State) (req : BitVec 16) (a : BitVec 36) (p : Nat) (data : List Byte), ownAccess s req.toNat a.toNat →
    s.target a.toNat = .part p → 1 ≤ data.length → a.toNat % 32 + data.length ≤ 32 →
    ∃ t, exec (.memoryAccess req true false false a (BitVec.ofNat 12 data.length) data {} none) s = .next t ∧
      (∀ x, Sparse.get (fun _ => (0 : Byte)) t.mem.hbm x =
        if a.toNat ≤ x ∧ x < a.toNat + data.length then data.getD (x - a.toNat) 0
        else Sparse.get (fun _ => (0 : Byte)) s.mem.hbm x) ∧ t.mem.bank = s.mem.bank

/-- Accesses of the owner (R340, R348 to R352, R358): bank words and HBM bytes. -/
def Obligations.OwnersReachTheirMemory : Prop :=
  ownersReadAndWriteBankWords ∧ ownersWriteHbm

/-- A non-owner access (R342): a read returns 0 with poison, a write changes no memory, and each is counted for its target;
an access to a bank whose gate has been applied is dropped and counted instead (R424). -/
def nonOwnersAreRefused : Prop :=
  ∀ (s : State) (req : BitVec 16) (a : BitVec 36) (data : List Byte), s.alive = true → s.gatePending a.toNat = false →
    a.toNat < windowBytes → a.toNat % 8 = 0 → data.length = 8 → s.owns req.toNat a.toNat = false →
    ∃ t u, exec (.memoryAccess req true false false a 8 data {} none) s = .next t ∧
      exec (.memoryAccess req false false false a 8 [] {} none) s = .next u ∧
      t.mem.bank = s.mem.bank ∧ t.mem.hbm = s.mem.hbm ∧ u.mem.bank = s.mem.bank ∧ u.mem.hbm = s.mem.hbm ∧
      t.mem.resp = some ⟨req.toNat, a.toNat, 8, 0, false, true⟩ ∧
      u.mem.resp = some ⟨req.toNat, a.toNat, 8, 0, true, true⟩ ∧
      (∀ b : BitVec 6, s.target a.toNat = .bank b.toNat → s.gated a.toNat = false →
        t.rd F.MEM_BANK_VIOL.COUNT b.toNat = min (2 ^ 32 - 1) (s.rd F.MEM_BANK_VIOL.COUNT b.toNat + 1)) ∧
      (s.gated a.toNat = true →
        t.rd F.CLK_GATE_STAT.DROPS = min (2 ^ 16 - 1) (s.rd F.CLK_GATE_STAT.DROPS + 1))

/-- What a bank draws from a request that must wait (R345, R348): it is held in arrival order and nothing else happens. -/
def heldRequestsWaitInOrder : Prop :=
  ∀ (s : State) (req : BitVec 16) (write : Bool) (a : BitVec 36) (n : BitVec 12) (data : List Byte), s.alive = true →
    a.toNat < windowBytes → s.memHolds a.toNat = true → s.owns req.toNat a.toNat = true →
    exec (.memoryAccess req write false false a n data {} none) s = .next (s.setMem { s.mem with
      held := s.mem.held ++ [⟨req.toNat, write, a.toNat, n.toNat, leNat (padTo n.toNat data), false, false, true⟩] })

/-- Accesses that do not reach memory (R342, R345, R348, R424): refused and counted, or held in order. -/
def Obligations.OthersWaitOrAreRefused : Prop :=
  nonOwnersAreRefused ∧ heldRequestsWaitInOrder

/-- The end of a drain, of clearing, of a watch, and the stacks' scrub results (R345, R348, R353, R359), with no request held:
a bank is READY again, a cleared one with every word and spare zero and not valid, other banks untouched; an entry whose watch
time has ended is freed; the corrections are added, saturating. -/
def banksBecomeReady : Prop :=
  (∀ (s : State) (b : BitVec 7), s.alive = true → s.mem.held = [] →
    (b.toNat < 64 → s.rd F.MEM_BANK_STAT.STATE b.toNat = 1 → ∃ t, exec (.bankDrainEnd b) s = .next t ∧
      t.rd F.MEM_BANK_STAT.STATE b.toNat = 0 ∧ t.mem = s.mem ∧ t.events = s.events) ∧
    (64 ≤ b.toNat → b.toNat < 80 → ∃ t, exec (.bankDrainEnd b) s = .next t ∧
      t.mem.partDrain.getLsbD (b.toNat - 64) = false ∧
      (∀ p, p ≠ b.toNat - 64 → t.mem.partDrain.getLsbD p = s.mem.partDrain.getLsbD p) ∧ t.regs = s.regs)) ∧
  (∀ (s : State) (b : BitVec 6), s.alive = true → s.mem.held = [] → s.rd F.MEM_BANK_STAT.STATE b.toNat = 2 →
    ∃ t, exec (.bankClearingDone b) s = .next t ∧ t.rd F.MEM_BANK_STAT.STATE b.toNat = 0 ∧
      (∀ w, w < 262144 → t.bankGet (b.toNat * 262144 + w) = clearedWord) ∧
      (∀ i, i < 16 → t.bankGet (spareKey b.toNat i) = clearedWord) ∧
      (∀ c w, c < 64 → c ≠ b.toNat → w < 262144 → t.bankGet (c * 262144 + w) = s.bankGet (c * 262144 + w)) ∧
      t.trk b.toNat = [] ∧ t.mem.hbm = s.mem.hbm) ∧
  (∀ (s : State) (b : BitVec 6) (w : BitVec 18), s.alive = true →
    ∃ t, exec (.trackerWatchExpiry b w) s = .next t ∧
      (∀ e, e ∈ t.trk b.toNat ↔ e ∈ s.trk b.toNat ∧ ¬ (e.word = w.toNat ∧ ∃ x, e.watch = some x ∧ x ≤ s.now)) ∧
      (∀ c, c ≠ b.toNat → t.trk c = s.trk c) ∧ t.regs = s.regs) ∧
  (∀ (s : State) (m0 m1 : BitVec 32), s.alive = true → ∃ t, exec (.ecsResultsRead m0 m1) s = .next t ∧
    t.rd F.MEM_HBM_CE.COUNT 0 = min (2 ^ 32 - 1) (s.rd F.MEM_HBM_CE.COUNT 0 + m0.toNat) ∧
    t.rd F.MEM_HBM_CE.COUNT 1 = min (2 ^ 32 - 1) (s.rd F.MEM_HBM_CE.COUNT 1 + m1.toNat) ∧ t.host = s.host ∧
    t.units = s.units)

/-- The kiln (R355 to R357): MEM_KILN on banks that its owner is KILN takes them to KILN and shows BUSY; a run that finds
nothing leaves each READY with RESULT PASS and no failures, its words cleared unless they were to be kept, and completes
DONE. -/
def kilnRunsOverItsBanks : Prop :=
  (∀ (s : State) (ref : CmdRef) (banks : BitVec 64) (alg bg : BitVec 8) (preserve repair : Bool), s.takes ref 0x0301 →
    banks ≠ 0 → alg.toNat < 2 → bg.toNat < 3 →
    let u := s.accept ref 0x0301
    (∀ b ∈ maskBits 64 banks.toNat, u.kilnRefuses b = false) → s.rdb F.MEM_KILN_STAT.BUSY = false →
    ∃ t, exec (.memKiln ref banks alg preserve bg repair) s = .next t ∧ t.rd F.MEM_KILN_STAT.BUSY = 1 ∧
      t.mem.kiln = some ⟨some ref, banks, alg.toNat, preserve, bg.toNat, repair⟩ ∧
      (∀ b ∈ maskBits 64 banks.toNat, t.rd F.MEM_BANK_STAT.STATE b = 4) ∧ t.mem.bank = s.mem.bank) ∧
  (∀ (s : State) (k : KilnRun), s.alive = true → s.mem.kiln = some k → k.ref = none →
    ∃ t, exec (.kilnComplete []) s = .next t ∧ t.mem.kiln = none ∧ t.rd F.MEM_KILN_STAT.BUSY = 0 ∧
      (∀ b ∈ maskBits 64 k.banks.toNat, t.rd F.MEM_BANK_STAT.STATE b = 0 ∧ t.rd F.MEM_KILN_RES.RESULT b = 1 ∧
        t.rd F.MEM_KILN_RES.FAILS b = 0 ∧ (k.preserve = false → ∀ w, w < 262144 →
          t.bankGet (b * 262144 + w) = clearedWord)) ∧
      (k.preserve = true → t.mem.bank = s.mem.bank) ∧ t.mem.hbm = s.mem.hbm)

/-- What a bank, a tracker, the stacks and the kiln bring to an end (R345, R348, R353, R355 to R357, R359). -/
def Obligations.BanksAndKilnRunTheirCourse : Prop :=
  banksBecomeReady ∧ kilnRunsOverItsBanks

/-! ### Clocks, power, resets and start-up -/

/-- POWER_ON_RESET_RELEASE (R413, R428, R430): the timebase starts at 0 in a running device with XSTART sampled, READY and
BOOT_OK clear, every bank due for the start-up kiln; fuses, keys and flash outlive it. -/
def powerOnStartsFromReset : Prop :=
  ∀ (s : State) (x : BitVec 3), ∃ t, exec (.powerOnResetRelease x) s = .next t ∧ t.tb = 0 ∧ t.alive = true ∧
    t.rd F.CLK_STRAP.XSTART = x.toNat ∧ t.rd F.GLB_STATUS.READY = 0 ∧ t.rd F.GLB_STATUS.BOOT_OK = 0 ∧
    t.rd F.CLK_RST_CAUSE.CAUSE = 0 ∧ t.mem = {} ∧ t.fab = {} ∧ t.cores = [] ∧ t.events = [] ∧ t.pending = s.pending ∧
    t.hostMem = s.hostMem ∧ t.ela.key0 = (s.fusePartly.flashPartly).ela.key0 ∧ t.ela.key1 = s.ela.key1 ∧
    (s.sec.fuseOp = none → s.sec.flashOp = none → t.sec.ckh = s.sec.ckh ∧ t.sec.flash = s.sec.flash ∧
      t.rd F.SEC_FUSE_STAT.KEY1_DIS = s.rd F.SEC_FUSE_STAT.KEY1_DIS ∧
      t.rd F.SEC_BOOT.SVN_CTR = s.rd F.SEC_BOOT.SVN_CTR)

/-- WARM_RESET (R427 to R429): the timebase, HBM, bank words and the step count go on; the cause is 1 for SYS_RST_N, 2 for
CLK_RST_CTRL.WARM, 3 for the end of a thermal stop; a core keeps X, Y and PRAM and has its registers at their reset values. -/
def warmResetKeepsMemory : Prop :=
  (∀ (s : State), s.clk.por = false → ∃ t, exec (.warmReset false) s = .next t ∧ t.tb = s.tb ∧
    t.rd F.CLK_RST_CAUSE.CAUSE = (if s.clk.tripped then 3 else 1) ∧ t.mem.bank = s.mem.bank ∧ t.mem.hbm = s.mem.hbm ∧
    t.fab.g = s.fab.g ∧ t.clk.tripped = false ∧ t.rd F.HST_STATUS.PORT_UP = s.rd F.HST_STATUS.PORT_UP ∧
    (∀ n, (t.core n).x = (s.core n).x ∧ (t.core n).y = (s.core n).y ∧ (t.core n).pram = (s.core n).pram ∧
      (t.core n).r = [])) ∧
  (∀ (s : State), s.bar0Open 0x10010 = true → ∃ t, exec (.warmReset true) s = .next t ∧ t.tb = s.tb ∧
    t.rd F.CLK_RST_CAUSE.CAUSE = 2 ∧ t.mem.bank = s.mem.bank ∧ t.mem.hbm = s.mem.hbm)

/-- Power-on and warm reset (R413, R427 to R430). -/
def Obligations.ResetsKeepWhatTheRulesSay : Prop :=
  powerOnStartsFromReset ∧ warmResetKeepsMemory

/-- RAIL_LOSS and TEMPERATURE_TRIP (R427, R487, R103): the device stops; no bank is released, no clock output is enabled, both
ports are down and no event is raised; after a trip clock outputs are low, and DM, exchange latches and TLQs undefined. -/
def stopsReleaseThePins : Prop :=
  (∀ s : State, ∃ t, exec .railLoss s = .next t ∧ t.alive = false ∧ t.clk.por = true ∧ t.events = s.events ∧
    t.rd F.HST_STATUS.PORT_UP = 0 ∧ t.pair.sel = false ∧ t.pair.hbOut = false ∧
    (∀ b : BitVec 4, t.rd F.PIN_BANK_CTRL.RELEASE b.toNat = 0 ∧ t.rd F.PIN_BANK_STAT.RELEASED b.toNat = 0) ∧
    (∀ k : BitVec 3, t.rd F.PIN_DCO_CTRL.EN k.toNat = 0)) ∧
  (∀ s : State, s.alive = true → ∃ t, exec .temperatureTrip s = .next t ∧ t.alive = false ∧ t.clk.tripped = true ∧
    t.clk.thermtrip = true ∧ t.clk.tripPending = true ∧ t.rd F.HST_STATUS.PORT_UP = 0 ∧ t.fab.dm = [] ∧
    t.fab.latches = [] ∧ (∃ seed, t.fab.undef = some seed ∧ ∀ q : BitVec 6, t.tlq q.toNat = freeQueue seed q.toNat) ∧
    (∀ b : BitVec 4, t.rd F.PIN_BANK_CTRL.RELEASE b.toNat = 0 ∧ t.rd F.PIN_BANK_STAT.RELEASED b.toNat = 0) ∧
    (∀ k : BitVec 3, s.dcoPad k.toNat ≠ 0 → t.dcoPad k.toNat = 1))

/-- The crystal oscillator's qualification (R414, R416, R417): windows in range are counted once the start delay S has ended; a
window out of range starts the count again; four in a row, or 1,024 after a failover, set XTAL_RDY; without one by 4 × S
XTAL_TIMEOUT is raised. -/
def xrefQualifiesByWindows : Prop :=
  (∀ s : State, s.alive = true → (s.strapDelay ≤ s.now → ∃ t, exec .crystalStartDelayExpiry s = .next t ∧
      t = s.setClk { s.clk with strapDone := true }) ∧
    (s.now < s.strapDelay → exec .crystalStartDelayExpiry s = .next s)) ∧
  (∀ (s : State) (n : BitVec 11), s.alive = true → s.clk.strapDone = true → s.clk.rcoFailed = false →
    s.rdb F.CLK_STATUS.MON_ARMED = false → s.rdb F.CLK_STATUS.XTAL_RDY = false →
    (1003 ≤ n.toNat ∧ n.toNat ≤ 1130 → s.clk.windows + 1 < (if s.clk.failedOver then 1024 else 4) →
      ∃ t, exec (.xrefWindowEnd n) s = .next t ∧ t.clk = { s.clk with windows := s.clk.windows + 1 } ∧
        t.rd F.CLK_STATUS.XTAL_RDY = 0 ∧ t.rd F.CLK_MON.XCOUNT = n.toNat) ∧
    (1003 ≤ n.toNat ∧ n.toNat ≤ 1130 → (if s.clk.failedOver then 1024 else 4) ≤ s.clk.windows + 1 →
      ∃ t, exec (.xrefWindowEnd n) s = .next t ∧ t.rd F.CLK_STATUS.XTAL_RDY = 1 ∧ t.clk.windows = 0 ∧
        t.clk.switched = true ∧ t.clk.failedOver = false ∧
        (s.clk.switched = false → t.rd F.GLB_STATUS.TB_DEGRADED = 0 ∧
          ∀ d ∈ pllDomains, t.rd F.CLK_DOM_CFG.SRC (d - 1) = 0) ∧
        (s.clk.switched = true → ∀ d : BitVec 5, t.rd F.CLK_DOM_CFG.SRC d.toNat = s.rd F.CLK_DOM_CFG.SRC d.toNat)) ∧
    (n.toNat < 1003 ∨ 1130 < n.toNat → ∃ t, exec (.xrefWindowEnd n) s = .next t ∧ t.clk = { s.clk with windows := 0 } ∧
      t.rd F.CLK_STATUS.XTAL_RDY = 0)) ∧
  (∀ s : State, s.alive = true → 4 * s.strapDelay ≤ s.now → s.clk.switched = false →
    s.rdb F.CLK_STATUS.XTAL_TIMEOUT = false →
    ∃ t, exec .xtalTimeout s = .next t ∧ t.rd F.CLK_STATUS.XTAL_TIMEOUT = 1 ∧ t.units = s.units ∧
      (s.recovery = false → t.events.map (·.code) = 0x0103 :: s.events.map (·.code)))

/-- The clock monitor (R419, R420): while it is armed a window out of range, or eight RCO cycles without an edge, fails XREF.
With no region waiting or running: XTAL_RDY and the monitor clear, XREF_FAILED, TB_DEGRADED and the NME bit set, and every
domain on XREF moves to RCO. -/
def xrefFailsOver : Prop :=
  ∀ (s : State) (n : BitVec 11), s.alive = true → s.rdb F.CLK_STATUS.MON_ARMED = true →
    (s.clk.strapDone = true → s.clk.rcoFailed = false → 1003 ≤ n.toNat ∧ n.toNat ≤ 1130 →
      exec (.xrefWindowEnd n) s = .next (s.wr F.CLK_MON.XCOUNT n.toNat)) ∧
    (s.clk.strapDone = true → s.clk.rcoFailed = false → n.toNat < 1003 ∨ 1130 < n.toNat →
      exec (.xrefWindowEnd n) s = .next ((s.wr F.CLK_MON.XCOUNT n.toNat).failXref n.toNat 0)) ∧
    (∃ t, exec (.xrefNoEdgeDetection n) s = .next t ∧ t = s.failXref n.toNat 1 ∧
      ((∀ r, r < 16 → s.rlive r = false) → t.rd F.CLK_STATUS.XTAL_RDY = 0 ∧ t.rd F.CLK_STATUS.MON_ARMED = 0 ∧
        t.rd F.CLK_STATUS.XREF_FAILED = 1 ∧ t.rd F.GLB_STATUS.TB_DEGRADED = 1 ∧ t.rd F.CLK_NME.XREF_FAIL = 1 ∧
        t.rd F.CLK_MON.XCOUNT = n.toNat ∧ t.clk.failedOver = true ∧ t.clk.windows = 0 ∧
        (∀ d ∈ pllDomains, t.rd F.CLK_DOM_CFG.SRC (d - 1) = 1)))

/-- The crystal oscillator's qualification and its monitor (R414, R416, R417, R419, R420). -/
def Obligations.XrefQualifiesAndFailsOver : Prop :=
  xrefQualifiesByWindows ∧ xrefFailsOver

/-- PLL_SETTLED, AON_PERIOD_END and CLK_NME_CLEAR (R411, R412, R420 to R423): a settled loop shows LOCKED; the period's count
decides RCO_RDY, the references show their presence, and a count far out fails RCO once; each bit of CLK_NME is cleared by a
1 and kept by a 0. -/
def clockFlagsFollow : Prop :=
  (∀ (s : State) (d : BitVec 5), s.alive = true → d.toNat ∈ pllDomains → s.mem.selfRefresh = false →
    ∃ t, exec (.pllSettled d) s = .next t ∧ t.rd F.CLK_DOM_CFG.LOCKED (d.toNat - 1) = 1 ∧
      t.clk.settling.getLsbD d.toNat = false ∧
      (∀ e, e ≠ d.toNat → t.clk.settling.getLsbD e = s.clk.settling.getLsbD e) ∧ t.mem = s.mem) ∧
  (∀ (s : State) (n : BitVec 11) (p0 p1 l : Bool), s.alive = true →
    ∃ t, exec (.aonPeriodEnd n p0 p1 l) s = .next t ∧ t.rd F.CLK_MON.RCOCOUNT = n.toNat ∧
      t.rdb F.CLK_STATUS.RCO_RDY = decide (1377 ≤ n.toNat ∧ n.toNat ≤ 1552) ∧ t.rdb F.CLK_STATUS.P0REF_RDY = p0 ∧
      t.rdb F.CLK_STATUS.P1REF_RDY = p1 ∧ t.rdb F.CLK_STATUS.LREF_RDY = l ∧
      t.clk.rcoFailed = decide (n.toNat < 1318 ∨ 1611 < n.toNat) ∧
      (s.clk.rcoFailed = false → n.toNat < 1318 ∨ 1611 < n.toNat → t.rd F.CLK_NME.RCO_FAIL = 1) ∧
      (s.clk.rcoFailed = true → t.events = s.events)) ∧
  (∀ (s : State) (v : BitVec 32), s.bar0Open 0x10008 = true → ∃ t, exec (.clkNmeClear v) s = .next t ∧
    t.rd F.CLK_NME.XREF_FAIL = (if v.getLsbD 0 then 0 else s.rd F.CLK_NME.XREF_FAIL) ∧
    t.rd F.CLK_NME.RCO_FAIL = (if v.getLsbD 1 then 0 else s.rd F.CLK_NME.RCO_FAIL) ∧ t.host = s.host ∧ t.units = s.units)

/-- POWER_WINDOW_END (R426, R427): the window's power and hottest reading are shown; over the cap the manager first requests
holds, then lowers the SCI clocks by one step; ten windows at or below CAP − 2 W undo the last measure. -/
def powerManagerStepsThroughItsStages : Prop :=
  ∀ (s : State) (p t0 : BitVec 16), s.alive = true → ∃ t, exec (.powerWindowEnd p t0) s = .next t ∧
    t.rd F.CLK_PWR_STAT.POWER = p.toNat ∧ t.rd F.CLK_TEMP.TJ = t0.toNat ∧
    (100 * s.rd F.CLK_PWR_CAP.CAP < p.toNat → t.clk.lowRun = 0 ∧ (s.clk.holds = false → t.clk.holds = true ∧
        t.clk.ceiling = s.clk.ceiling) ∧
      (s.clk.holds = true → s.rd F.CLK_PWR_CAP.SCI_MIN < min s.sciFreq s.clk.ceiling →
        t.clk.ceiling = min s.sciFreq s.clk.ceiling - 1)) ∧
    (p.toNat ≤ 100 * s.rd F.CLK_PWR_CAP.CAP → 100 * s.rd F.CLK_PWR_CAP.CAP < p.toNat + 200 → t.clk.lowRun = 0 ∧
      t.clk.ceiling = s.clk.ceiling ∧ t.clk.holds = s.clk.holds ∧ t.clk.stage3 = s.clk.stage3) ∧
    (p.toNat + 200 ≤ 100 * s.rd F.CLK_PWR_CAP.CAP → s.clk.lowRun + 1 < 10 → t.clk.lowRun = s.clk.lowRun + 1) ∧
    (p.toNat + 200 ≤ 100 * s.rd F.CLK_PWR_CAP.CAP → 10 ≤ s.clk.lowRun + 1 → t.clk.lowRun = 0 ∧ t.clk.stage3 = false)

/-- Gates and STANDBY (R348, R424, R425), with no request held: an applied gate of a bank takes its contents, owner and power;
a gate that times out, 4,096 cycles of its block's clock after the request, leaves its block as it was and counts; leaving STANDBY ends with PSTATE ON and no region loaded. -/
def gatesAndStandby : Prop :=
  (∀ (s : State) (b : BitVec 6), s.alive = true → (0x30 + b.toNat) ∈ s.mem.gates → s.mem.held = [] →
    (∃ t, exec (.gateApplied (BitVec.ofNat 8 (0x30 + b.toNat))) s = .next t ∧ t.rd F.MEM_BANK_STAT.STATE b.toNat = 3 ∧
      t.rd F.MEM_BANK_STAT.OWNER b.toNat = 0 ∧ (0x30 + b.toNat) ∈ t.mem.off ∧
      (∀ w, w < 262144 → t.bankGet (b.toNat * 262144 + w) = clearedWord) ∧ t.mem.hbm = s.mem.hbm) ∧
    (s.gateDue (0x30 + b.toNat) = false → exec (.gateTimeout (BitVec.ofNat 8 (0x30 + b.toNat))) s = .next s) ∧
    (s.gateDue (0x30 + b.toNat) = true → ∃ t, exec (.gateTimeout (BitVec.ofNat 8 (0x30 + b.toNat))) s = .next t ∧
      t.rd F.MEM_BANK_STAT.STATE b.toNat = 6 ∧
      t.rd F.MEM_BANK_STAT.OWNER b.toNat = 0 ∧ t.mem.off = s.mem.off ∧ t.mem.bank = s.mem.bank ∧
      t.rd F.CLK_GATE_STAT.TIMEOUTS = min 255 (s.rd F.CLK_GATE_STAT.TIMEOUTS + 1))) ∧
  (∀ s : State, s.alive = true → s.rd F.CLK_STATUS.PSTATE = 3 → ∃ t, exec .standbyExitComplete s = .next t ∧
    t.rd F.CLK_STATUS.PSTATE = 0 ∧ t.rd F.FAB_GLB_STATUS.LOADED = 0 ∧ t.fab.g = s.fab.g ∧ t.fab.istore = [] ∧
    (∀ r : BitVec 4, t.rd F.FAB_RGN_STATUS.STATE r.toNat = rgUnloaded) ∧ t.mem.bank = s.mem.bank ∧
    (∀ n : BitVec 6, (t.core n.toNat).pram = [] ∧ (t.core n.toNat).x = [] ∧ (t.core n.toNat).y = []))

/-- The power manager, gates and STANDBY (R348, R424 to R427). -/
def Obligations.PowerIsManagedAndGated : Prop :=
  powerManagerStepsThroughItsStages ∧ gatesAndStandby

/-- TB_PULSE (R431): inside the eight ticks after an instant of an enabled pulse, the pulse is high until their end. -/
def pulsesLastEightTicks : Prop :=
  ∀ (s : State) (i : BitVec 2), s.alive = true → s.rdb F.CLK_TBP_CFG.EN i.toNat = true →
    let phase := s.rd64 F.CLK_TBP_PHASE_LO.PHASE i.toNat
    let at_ := s.now - (s.now - phase) % s.rd F.CLK_TBP_PERIOD.PERIOD i.toNat
    phase ≤ s.now → Sparse.get (fun _ => 0) s.clk.pulseAt i.toNat ≤ at_ →
    (s.now < at_ + 8 → ∃ t, exec (.tbPulse i) s = .next t ∧ Sparse.find t.clk.pulses i.toNat = some (at_ + 8) ∧
      (∀ k, k ≠ i.toNat → Sparse.find t.clk.pulses k = Sparse.find s.clk.pulses k) ∧ t.fab = s.fab ∧ t.mem = s.mem ∧
      t.host = s.host ∧ t.events = s.events) ∧
    (at_ + 8 ≤ s.now → exec (.tbPulse i) s = .next s)

/-- Boot and readiness (R430, R457, R458): an image that passes every check runs, and sets BOOT_OK; one that does not brings
RECOVERY with the cause of the check that failed, and so does no flash, with cause 1; trained stacks show READY;
kiln, boot and training done, the device sets READY, and in RECOVERY the kiln suffices. -/
def Obligations.BootEndsInReadyOrRecovery : Prop :=
  (∀ (s : State) (rf : Bool), s.alive = true → s.rdb F.GLB_STATUS.BOOT_OK = false → s.rd F.SEC_BOOT.STATE = 0 →
    ∃ t, exec (.bootComplete none rf) s = .next t ∧ t.recovery = true ∧ t.rd F.SEC_BOOT.CAUSE = 1 ∧
      t.rdb F.GLB_STATUS.BOOT_OK = false ∧ t.rd F.CFG_FLASH.PRESENT = 0 ∧ t.events = s.events) ∧
  (∀ (s : State) (m : Bool), s.alive = true → s.rdb F.GLB_STATUS.BOOT_OK = false → s.rd F.SEC_BOOT.STATE = 0 →
    (∃ t, exec (.bootComplete (some m) true) s = .next t ∧ t.recovery = true ∧ t.rd F.SEC_BOOT.CAUSE = 6) ∧
    (∃ t, exec (.bootComplete (some m) false) s = .next t ∧ t.rd F.CFG_FLASH.PRESENT = 1 ∧ t.rdb F.CFG_FLASH.MODE = m ∧
      t.rd F.SEC_BOOT.CAUSE = s.fwCheck s.flashRead ∧
      (s.fwCheck s.flashRead = 0 → t.rd F.SEC_BOOT.STATE = 1 ∧ t.rdb F.GLB_STATUS.BOOT_OK = true ∧
        t.rd F.SEC_BOOT.FW_SVN = fieldAt (s.flashRead 0 128) 8 1 ∧ t.sec.fwMeas = fwMeasure s.flashRead ∧ t.clk.tripPending = false) ∧
      (s.fwCheck s.flashRead ≠ 0 → t.recovery = true ∧ t.rdb F.GLB_STATUS.BOOT_OK = false))) ∧
  (∀ s : State, s.alive = true → s.rdb F.GLB_STATUS.BOOT_OK = true →
    s.rdb F.CLK_STATUS.XTAL_RDY = true ∨ s.rdb F.CLK_STATUS.XTAL_TIMEOUT = true →
    ∃ t, exec .hbmTrainingComplete s = .next t ∧ t.rd F.MEM_HBM_STAT.READY = 3 ∧ t.clk.hbmTrained = true ∧
      t.mem = s.mem) ∧
  (∀ s : State, s.alive = true → s.mem.kiln = none →
    s.recovery = true ∨ (s.rdb F.GLB_STATUS.BOOT_OK = true ∧ s.clk.hbmTrained = true) →
    ∃ t, exec .deviceReady s = .next t ∧ t.rd F.GLB_STATUS.READY = 1 ∧
      t.rd F.GLB_STATUS.BOOT_OK = s.rd F.GLB_STATUS.BOOT_OK ∧ t.host = s.host ∧ t.units = s.units) ∧
  (∀ s : State, s.alive = true → s.mem.kiln ≠ none → exec .deviceReady s = .next s)

/-! ### Pins -/

/-- Bank supplies and HS_EARLY_N (R146, R147, R159, R408): a lost supply ends the release of its bank, whose pads stop
driving, and touches no pad of another bank but what the array, which reads the bank as 0, then drives (R148, R173); a supply that returns releases nothing; HS_EARLY_N low releases no bank and enables no clock output, and its rise
gives the committed releases back. -/
def suppliesAndHoldsRuleThePads : Prop :=
  (∀ (s : State) (b : BitVec 4), s.alive = true → s.rdb F.PIN_BANK_STAT.VIO_GOOD b.toNat = true →
    ∃ t, exec (.pinSupplyLost b) s = .next t ∧ t.rd F.PIN_BANK_STAT.VIO_GOOD b.toNat = 0 ∧
      t.rd F.PIN_BANK_CTRL.RELEASE b.toNat = 0 ∧ t.rd F.PIN_BANK_STAT.RELEASED b.toNat = 0 ∧
      (∀ p : BitVec 9, p.toNat / 32 = b.toNat → s.rdb F.PIN_BANK_STAT.RELEASED b.toNat = true →
        t.rd F.PIN_STAT.OE p.toNat = 0 ∧ t.rd F.PIN_STAT.OUT p.toNat = s.rd F.PIN_STAT.OUT p.toNat) ∧
      (∀ p : BitVec 9, p.toNat / 32 ≠ b.toNat → s.padOwner p.toNat ≠ 3 → t.rd F.PIN_STAT.OE p.toNat = s.rd F.PIN_STAT.OE p.toNat ∧
        t.rd F.PIN_STAT.OUT p.toNat = s.rd F.PIN_STAT.OUT p.toNat) ∧
      (s.recovery = false → t.events.map (·.code) = 0x0602 :: s.events.map (·.code)) ∧ t.fab = s.fab ∧ t.mem = s.mem) ∧
  (∀ (s : State) (b : BitVec 4), s.alive = true → s.rdb F.PIN_BANK_STAT.VIO_GOOD b.toNat = false →
    ∃ t, exec (.pinSupplyOk b) s = .next t ∧ t.rd F.PIN_BANK_STAT.VIO_GOOD b.toNat = 1 ∧
      (∀ c : BitVec 4, t.rd F.PIN_BANK_STAT.RELEASED c.toNat = s.rd F.PIN_BANK_STAT.RELEASED c.toNat) ∧
      (s.recovery = false → t.events.map (·.code) = 0x0603 :: s.events.map (·.code)) ∧ t.fab = s.fab ∧ t.mem = s.mem) ∧
  (∀ s : State, s.host.hsEarly = true → ∃ t, exec .hsEarlyNFall s = .next t ∧ t.host.hsEarly = false ∧
    t.host.txOn = false ∧ (∀ b : BitVec 4, t.rd F.PIN_BANK_CTRL.RELEASE b.toNat = 0 ∧
      t.rd F.PIN_BANK_STAT.RELEASED b.toNat = 0) ∧
    (∀ k : BitVec 3, t.rd F.PIN_DCO_CTRL.EN k.toNat = 0 ∧ t.dcoPad k.toNat = 0) ∧ t.fab = s.fab ∧ t.mem = s.mem ∧
    t.events = s.events) ∧
  (∀ s : State, s.host.hsEarly = false → ∃ t, exec .hsEarlyNRise s = .next t ∧ t.host.hsEarly = true ∧
    t.host.txOn = true ∧ (∀ b : BitVec 4, t.rdb F.PIN_BANK_STAT.RELEASED b.toNat =
      (s.rdb F.PIN_BANK_CTRL.RELEASE b.toNat && s.rdb F.PIN_BANK_STAT.VIO_GOOD b.toNat && !s.pairHeld &&
        !s.boundaryHolds)) ∧ t.fab = s.fab ∧ t.mem = s.mem ∧ t.events = s.events)

/-- What stops the device or holds its pads (R103, R146, R159, R408, R427, R487). -/
def Obligations.StopsAndSuppliesRuleThePads : Prop :=
  stopsReleaseThePins ∧ suppliesAndHoldsRuleThePads

/-- A clock output (R157, R158): without lock it is held low and DCO_UNLOCK is raised; with lock it runs, nothing holding the
pads, with the modulation committed; a modulation period takes up the committed words. -/
def clockOutputsFollowTheirLoops : Prop :=
  (∀ (s : State) (k : BitVec 3), s.alive = true → s.rdb F.PIN_DCO_CTRL.EN k.toNat = true →
    s.rdb F.PIN_DCO_CTRL.LOCKED k.toNat = true → ∃ t, exec (.dcoUnlock k) s = .next t ∧
      t.rd F.PIN_DCO_CTRL.LOCKED k.toNat = 0 ∧ t.dcoPad k.toNat = (if s.padsFree then 1 else 0) ∧
      (∀ j : BitVec 3, j ≠ k → t.rd F.PIN_DCO_CTRL.LOCKED j.toNat = s.rd F.PIN_DCO_CTRL.LOCKED j.toNat ∧
        t.dcoPad j.toNat = s.dcoPad j.toNat) ∧ t.pin.dcoMod = s.pin.dcoMod ∧ t.fab = s.fab ∧
      (s.recovery = false → t.events.map (·.code) = 0x0604 :: s.events.map (·.code))) ∧
  (∀ (s : State) (k : BitVec 3), s.alive = true → s.rdb F.PIN_DCO_CTRL.EN k.toNat = true →
    s.rdb F.PIN_DCO_CTRL.LOCKED k.toNat = false → ∃ t, exec (.dcoLockAcquired k) s = .next t ∧
      t.rd F.PIN_DCO_CTRL.LOCKED k.toNat = 1 ∧ t.dcoPad k.toNat = (if s.padsFree then 2 else 0) ∧
      Sparse.get (fun _ => []) t.pin.dcoMod k.toNat = s.dcoWords k.toNat ∧ t.host = s.host ∧ t.fab = s.fab ∧
      t.events = s.events) ∧
  (∀ (s : State) (k : BitVec 3), s.alive = true →
    (s.rdb F.PIN_DCO_CTRL.LOCKED k.toNat = true → ∃ t, exec (.dcoModulationPeriodStart k) s = .next t ∧
      Sparse.get (fun _ => []) t.pin.dcoMod k.toNat = s.dcoWords k.toNat ∧
      (∀ j, j ≠ k.toNat → Sparse.get (fun _ => []) t.pin.dcoMod j = Sparse.get (fun _ => []) s.pin.dcoMod j) ∧
      t.pin.dcoPad = s.pin.dcoPad ∧ t.regs = s.regs ∧ t.host = s.host ∧ t.fab = s.fab) ∧
    (s.rdb F.PIN_DCO_CTRL.LOCKED k.toNat = false → exec (.dcoModulationPeriodStart k) s = .next s))

/-- Clock flags, timebase pulses and clock outputs (R157, R158, R411, R412, R420 to R423, R431). -/
def Obligations.ClockEventsFollow : Prop :=
  clockFlagsFollow ∧ pulsesLastEightTicks ∧ clockOutputsFollowTheirLoops

/-! ### The fabric -/

/-- Triggers (R82, R85, R87, R106): one accepted by a WAITING region is due at its latency, 1 step for the timer and a host, 4
for an edge of a clock-capable pin; a second one before it begins is missed in a reflex region, which halts 32 steps on. -/
def triggersStartFrames : Prop :=
  (∀ (s : State) (r : BitVec 4), s.alive = true → s.rlive r.toNat = true → s.timerDue r.toNat = true →
    s.haltDue r.toNat = false →
    (s.rstate r.toNat = rgWaiting → (s.rgn r.toNat).accepted = none → ∃ t gap, exec (.timerTrigger r) s = .next t ∧
      (t.rgn r.toNat).accepted = some { e := s.fab.g, lam := 1, anchor := some s.now, gap := gap, early := true } ∧
      (t.rgn r.toNat).timerNext = s.fab.g + s.trigNow F.FAB_RGN_PERIOD.PERIOD r.toNat ∧
      (t.rgn r.toNat).lastTrig = some s.fab.g ∧ (∀ q, q ≠ r.toNat → t.rgn q = s.rgn q) ∧ t.host = s.host ∧
      t.events = s.events ∧ t.mem = s.mem) ∧
    (∀ a, s.deferred r.toNat = false → (s.rgn r.toNat).accepted = some a → s.fab.g < a.e + a.lam →
      s.pendingSingle r.toNat = false →
      s.rdb F.FAB_RGN_STATUS.HALT_PENDING r.toNat = false → ∃ t, exec (.timerTrigger r) s = .next t ∧
      t.rd F.FAB_RGN_MISSED.COUNT r.toNat = min (2 ^ 32 - 1) (s.rd F.FAB_RGN_MISSED.COUNT r.toNat + 1) ∧
      t.rd F.FAB_RGN_STATUS.HALT_PENDING r.toNat = 1 ∧ t.rd F.FAB_RGN_STATUS.HALT_CAUSE r.toNat = 5 ∧
      (t.rgn r.toNat).accepted = (s.rgn r.toNat).accepted ∧
      ((s.rgn r.toNat).haltAt = none → (t.rgn r.toNat).haltAt = some (s.fab.cReflex + 32)) ∧
      (s.recovery = false → t.events.map (·.code) = 0x0405 :: s.events.map (·.code)))) ∧
  (∀ (s : State) (r : BitVec 4), s.alive = true → s.timerDue r.toNat = false → exec (.timerTrigger r) s = .next s) ∧
  (∀ (s : State) (c : BitVec 5) (up : Bool) (r : BitVec 4), s.alive = true →
    (s.rdb F.PIN_BANK_STAT.VIO_GOOD (c.toNat / 2) = true → s.replaying = false →
      s.trigNow F.FAB_RGN_TRIG.MODE r.toNat = 2 → s.trigNow F.FAB_RGN_TRIG.CLKPIN r.toNat = c.toNat →
      bit (s.trigNow F.FAB_RGN_TRIG.EDGE r.toNat) (if up then 0 else 1) = true → s.rstate r.toNat = rgWaiting →
      s.haltDue r.toNat = false → (s.rgn r.toNat).accepted = none → ∃ t gap, exec (.uutclkEdge c up) s = .next t ∧
        (t.rgn r.toNat).accepted = some { e := s.fab.g, lam := 4, anchor := some s.now, gap := gap, early := true }) ∧
    (s.rdb F.PIN_BANK_STAT.VIO_GOOD (c.toNat / 2) = false → exec (.uutclkEdge c up) s = .next s)) ∧
  (∀ (s : State) (p : Port) (r : BitVec 4), s.hostOpen = true →
    (s.trigNow F.FAB_RGN_TRIG.MODE r.toNat = 4 → s.rstate r.toNat = rgWaiting → s.haltDue r.toNat = false →
      s.replaying = false → (s.rgn r.toNat).accepted = none → ∃ t gap, exec (.frameDoorbell p r) s = .next t ∧
        (t.rgn r.toNat).accepted = some { e := s.fab.g, lam := 1, anchor := some s.now, gap := gap } ∧ (∀ q, q ≠ r.toNat → t.rgn q = s.rgn q) ∧
        t.host = s.host ∧ t.events = s.events ∧ t.mem = s.mem) ∧
    (s.trigNow F.FAB_RGN_TRIG.MODE r.toNat ≠ 4 ∨ s.rlive r.toNat = false → ∃ t, exec (.frameDoorbell p r) s = .next t ∧
      t.rd F.HST_PORT_ERR.DB_BAD (portNat p) = min (2 ^ 16 - 1) (s.rd F.HST_PORT_ERR.DB_BAD (portNat p) + 1) ∧
      t.units = s.units ∧ t.host = s.host))

/-- A decided halt takes effect at its class step count (R72, Table FRM-2): the region is HALTED, its values in flight and its
accesses are lost, and no other region is touched; before that count nothing happens. -/
def haltsTakeEffectAtTheirStep : Prop :=
  ∀ (s : State) (r : BitVec 4), s.alive = true →
    (s.haltDue r.toNat = false → exec (.regionHaltTakesEffect r) s = .next s) ∧
    (s.haltDue r.toNat = true → ∃ t, exec (.regionHaltTakesEffect r) s = .next t ∧ t.rstate r.toNat = rgHalted ∧
      t.rd F.FAB_RGN_STATUS.HALT_PENDING r.toNat = 0 ∧ t.rd F.FAB_RGN_STATUS.RESTING r.toNat = 0 ∧
      t.rd F.FAB_RGN_STATUS.HALT_CAUSE r.toNat = s.rd F.FAB_RGN_STATUS.HALT_CAUSE r.toNat ∧
      t.fab.flights = (s.fab.flights.filter fun f => f.region != r.toNat) ∧
      t.fab.items = (s.fab.items.filter fun i => i.region != r.toNat) ∧ t.fab.dm = s.fab.dm ∧
      t.fab.istore = s.fab.istore ∧ (∀ q : BitVec 4, q ≠ r → t.rstate q.toNat = s.rstate q.toNat ∧ t.rgn q.toNat = s.rgn q.toNat) ∧
      t.mem = s.mem ∧ t.events = s.events)

/-- Triggers and decided halts (R72, R82, R85, R106). -/
def Obligations.TriggersStartAndHaltsEndRuns : Prop :=
  triggersStartFrames ∧ haltsTakeEffectAtTheirStep

/-- Rests and launches (R95, R98, R99, R101, Table FRM-9): a rest past its limit halts every live deferred region with cause
0x07 and discards what it waited for; a power hold ends after LEN steps, in RUN where nothing is absent; a 1 to FAB_REST_CLR
clears the statistics; the entry at a launch queue's head sets the selected TLQ-owned pads at its instant. -/
def restsAndLaunches : Prop :=
  (∀ s : State, s.alive = true →
    (s.restLate = true → ∃ t, exec .restTimeout s = .next t ∧ t.fab.rest = 3 ∧ t.fab.items = [] ∧
      t.rd F.FAB_REST_NOW.LENGTH = 0 ∧ t.rd F.FAB_GLB_STATUS.RESTING = 0 ∧
      (∀ r : BitVec 4, s.deferred r.toNat = true → s.rlive r.toNat = true → t.rstate r.toNat = rgHalted ∧
        (s.rdb F.FAB_RGN_STATUS.HALT_PENDING r.toNat = false → t.rd F.FAB_RGN_STATUS.HALT_CAUSE r.toNat = 7)) ∧
      (∀ r : BitVec 4, s.deferred r.toNat = false → t.rstate r.toNat = s.rstate r.toNat)) ∧
    (s.restLate = false → exec .restTimeout s = .next s)) ∧
  (∀ s : State, s.alive = true → s.fab.rest = 2 →
    (s.fab.holdLen < s.rd F.FAB_PWR_HOLD.LEN → exec .powerHoldEnd s = .next s) ∧
    (s.rd F.FAB_PWR_HOLD.LEN ≤ s.fab.holdLen → ∃ t, exec .powerHoldEnd s = .next t ∧
      t.fab.rest = (if s.absentItems.isEmpty then 0 else 1) ∧ t.rd F.FAB_GLB_STATUS.POWER_HOLD = 0 ∧
      (s.absentItems.isEmpty = true → t.rd F.FAB_REST_MAX.MAX = max (min s.fab.restLen (2 ^ 32 - 1)) (s.rd F.FAB_REST_MAX.MAX)) ∧
      t.fab.items = s.fab.items ∧ t.mem = s.mem ∧ t.host = s.host)) ∧
  (∀ (s : State) (v : BitVec 32), s.bar0Open 0x101038 = true →
    (v.getLsbD 0 = true → ∃ t, exec (.fabRestClr v) s = .next t ∧ t.rd F.FAB_REST_MAX.MAX = 0 ∧
      t.rd64 F.FAB_REST_TOTAL_LO.TOTAL = 0 ∧ t.rd64 F.FAB_REST_COUNT_LO.COUNT = 0 ∧
      (∀ k, k < 6 → t.rd F.FAB_REST_SRC.COUNT k = 0) ∧ t.host = s.host ∧ t.units = s.units) ∧
    (v.getLsbD 0 = false → exec (.fabRestClr v) s = .next s)) ∧
  (∀ (s : State) (q : BitVec 6) (e : TlqEntry) (l : List TlqEntry), s.alive = true → s.tlq q.toNat = e :: l → e.ready = true →
    (s.now < e.t → exec (.tlqLaunch q) s = .next s) ∧
    (e.t ≤ s.now → (∀ x ∈ l, x.ready = false ∧ s.now + 16 ≤ x.t) → ∃ t, exec (.tlqLaunch q) s = .next t ∧
      t.tlq q.toNat = (match l with | [] => [] | x :: l => { x with ready := true } :: l) ∧
      (∀ j : BitVec 3, bit e.select j.toNat = true → s.rd F.PIN_CFG.OWNER (8 * q.toNat + j.toNat) = 2 →
        s.rdb F.PIN_BANK_STAT.RELEASED ((8 * q.toNat + j.toNat) / 32) = true →
        t.rdb F.PIN_STAT.OE (8 * q.toNat + j.toNat) = bit e.enable j.toNat ∧
        (bit e.enable j.toNat = true → t.rdb F.PIN_STAT.OUT (8 * q.toNat + j.toNat) = bit e.value j.toNat)) ∧
      (∀ p : BitVec 9, p.toNat / 8 ≠ q.toNat ∨ s.rd F.PIN_CFG.OWNER p.toNat ≠ 2 →
        t.rd F.PIN_STAT.OE p.toNat = s.rd F.PIN_STAT.OE p.toNat ∧ t.rd F.PIN_STAT.OUT p.toNat = s.rd F.PIN_STAT.OUT p.toNat) ∧
      t.mem = s.mem ∧ t.host = s.host))

/-- DEFERRED_ITEM_ARRIVAL (R92, R98): a value collected from a gateway's receive FIFO becomes present with the word that
leaves the FIFO; an empty FIFO leaves it absent, and a tile without such an access does nothing. -/
def collectedItemsArrive : Prop :=
  (∀ (s : State) (tile : BitVec 6) (c : BitVec 13) (i : Item), s.alive = true → s.replaying = false →
    (s.fab.items.find? fun i => i.acc.tile == tile.toNat && i.acc.collect == c.toNat && !i.present) = some i →
    i.sent = true → i.acc.kind = 3 →
    (∀ w l, (s.gw i.acc.unit).rx = w :: l → ∃ t, exec (.deferredItemArrival tile c) s = .next t ∧
      (t.gw i.acc.unit).rx = l ∧ (t.gw i.acc.unit).tx = (s.gw i.acc.unit).tx ∧
      { i with present := true, value := w.1 } ∈ t.fab.items ∧ t.fab.items.length = s.fab.items.length ∧
      t.mem = s.mem ∧ t.host = s.host ∧ t.events = s.events) ∧
    ((s.gw i.acc.unit).rx = [] → exec (.deferredItemArrival tile c) s = .next s)) ∧
  (∀ (s : State) (tile : BitVec 6) (c : BitVec 13), s.alive = true →
    (∀ i ∈ s.fab.items, ¬ (i.acc.tile = tile.toNat ∧ i.acc.collect = c.toNat ∧ i.present = false)) →
    exec (.deferredItemArrival tile c) s = .next s)

/-- Rests, launches and collected items (R92, R95, R98, R99, R101). -/
def Obligations.RestsLaunchesAndArrivals : Prop :=
  restsAndLaunches ∧ collectedItemsArrive

/-! ### Run control and loading -/

/-- FAB_START, its start step, and FAB_RESUME (R105): an accepted start waits for its instant and changes no region; at its
step every region of its mask, all STOPPED, begins to wait with the cause, step and gaps afresh; a resume takes regions
halted with cause 0xFE on from their next frame. A start or resume of a region in another state is REFUSED. -/
def startsAndResumes : Prop :=
  (∀ (s : State) (ref : CmdRef) (mask : BitVec 16) (w : BitVec 8) (at_ : BitVec 64), s.takes ref 0x0402 → mask ≠ 0 →
    w = 0 ∨ w = 2 →
    (s.standbyLocked = false → (∀ r : BitVec 4, mask.getLsbD r.toNat = true → s.rstate r.toNat = rgStopped) →
      ∃ t, exec (.fabStart ref mask w at_) s = .next t ∧
        t.fab = { s.fab with starts := s.fab.starts ++ [⟨ref, mask.toNat, if w = 0 then 0 else at_.toNat⟩] } ∧
        t.mem = s.mem ∧ t.cores = s.cores ∧ t.events = s.events ∧ t.hostMem = s.hostMem) ∧
    (s.standbyLocked = true ∨ (∃ r : BitVec 4, mask.getLsbD r.toNat = true ∧ s.rstate r.toNat ≠ rgStopped) →
      exec (.fabStart ref mask w at_) s = .next ((s.accept ref 0x0402).complete ref stRefused))) ∧
  (∀ (s : State) (c : StartCmd), s.alive = true → (s.fab.starts.find? fun c => decide (c.t ≤ s.now)) = some c →
    (∀ r : BitVec 4, bit c.mask r.toNat = true → s.rstate r.toNat = rgStopped) →
    ∃ t, exec .fabStartStep s = .next t ∧ t.fab.starts = s.fab.starts.erase c ∧ t.fab.quiet = false ∧
      t.fab.dm = s.fab.dm ∧ t.fab.istore = s.fab.istore ∧ t.mem = s.mem ∧ t.events = s.events ∧
      (∀ r : BitVec 4, bit c.mask r.toNat = true → t.rstate r.toNat = rgWaiting ∧
        t.rd F.FAB_RGN_STATUS.HALT_CAUSE r.toNat = 0 ∧ t.rd F.FAB_RGN_STATUS.STEP r.toNat = 0 ∧
        t.rd F.FAB_RGN_GAP.MIN_GAP r.toNat = 0xFFFF ∧ (t.rgn r.toNat).fresh = true ∧
        (s.trigNow F.FAB_RGN_TRIG.MODE r.toNat = 0 →
          (t.rgn r.toNat).accepted = some { e := s.fab.g, lam := 0, anchor := none, gap := 0 }) ∧
        (s.trigNow F.FAB_RGN_TRIG.MODE r.toNat = 4 → (t.rgn r.toNat).accepted = none)) ∧
      (∀ r : BitVec 4, bit c.mask r.toNat = false → t.rstate r.toNat = s.rstate r.toNat ∧ t.rgn r.toNat = s.rgn r.toNat)) ∧
  (∀ s : State, s.alive = true → (∀ c ∈ s.fab.starts, s.now < c.t) → exec .fabStartStep s = .next s) ∧
  (∀ (s : State) (ref : CmdRef) (mask : BitVec 16), s.takes ref 0x0404 → mask ≠ 0 →
    (s.standbyLocked = false → (∀ r : BitVec 4, mask.getLsbD r.toNat = true → s.haltedCleanly r.toNat = true) →
      ∃ t, exec (.fabResume ref mask) s = .next t ∧ t.fab = s.fab ∧ t.mem = s.mem ∧ t.events = s.events ∧
        (∀ r : BitVec 4, mask.getLsbD r.toNat = true → t.rd F.FAB_RGN_STATUS.HALT_CAUSE r.toNat = 0 ∧
          t.rd F.FAB_RGN_STATUS.STEP r.toNat = 0 ∧
          t.rstate r.toNat = (if s.rd F.FAB_RGN_TRIG.MODE r.toNat = 0 then rgRunning else rgWaiting)) ∧
        (∀ r : BitVec 4, mask.getLsbD r.toNat = false → t.rstate r.toNat = s.rstate r.toNat)) ∧
    (s.standbyLocked = true ∨ (∃ r : BitVec 4, mask.getLsbD r.toNat = true ∧ s.haltedCleanly r.toNat = false) →
      exec (.fabResume ref mask) s = .next ((s.accept ref 0x0404).complete ref stRefused)))

/-- FAB_HALT, FAB_FRAME and FAB_RESTART (R105): an immediate halt is decided for 32 class steps on with cause 0xFF; a halt at
frame end stops a waiting region with cause 0xFE and marks a running one; a single frame of a STOPPED region is a trigger
at the next step after which it halts; a restart leaves STOPPED regions with frame counter and anchor 0, and clears their
data memories unless they are kept. -/
def haltsFramesAndRestarts : Prop :=
  (∀ (s : State) (ref : CmdRef) (mask : BitVec 16) (r : BitVec 4), s.takes ref 0x0403 → mask.getLsbD r.toNat = true →
    s.standbyLocked = false →
    (∀ q : BitVec 4, mask.getLsbD q.toNat = true → s.rlive q.toNat = true ∨ s.rstate q.toNat = rgHalted) →
    s.rlive r.toNat = true → s.rdb F.FAB_RGN_STATUS.HALT_PENDING r.toNat = false → (s.rgn r.toNat).haltAt = none →
    (∃ t, exec (.fabHalt ref mask 0 0) s = .next t ∧ t.rstate r.toNat = s.rstate r.toNat ∧
      t.rd F.FAB_RGN_STATUS.HALT_PENDING r.toNat = 1 ∧ t.rd F.FAB_RGN_STATUS.HALT_CAUSE r.toNat = 0xFF ∧
      (t.rgn r.toNat).haltAt = some (s.count r.toNat + 32) ∧ (ref, mask.toNat) ∈ t.fab.haltCmds ∧ t.fab.dm = s.fab.dm ∧
      t.mem = s.mem ∧ t.events = s.events) ∧
    (∃ t, exec (.fabHalt ref mask 1 0) s = .next t ∧
      (s.rstate r.toNat = rgWaiting → t.rstate r.toNat = rgHalted ∧ t.rd F.FAB_RGN_STATUS.HALT_CAUSE r.toNat = 0xFE) ∧
      (s.rstate r.toNat = rgRunning → t.rstate r.toNat = rgRunning ∧ (t.rgn r.toNat).stopAtEnd = true ∧
        t.rd F.FAB_RGN_STATUS.HALT_PENDING r.toNat = 1 ∧
        (ref, mask.toNat) ∈ t.fab.haltCmds) ∧
      (∀ q : BitVec 4, mask.getLsbD q.toNat = false → t.rstate q.toNat = s.rstate q.toNat ∧ t.rgn q.toNat = s.rgn q.toNat))) ∧
  (∀ (s : State) (ref : CmdRef) (r : BitVec 8), s.takes ref 0x0405 → r.toNat < 16 → s.standbyLocked = false →
    s.trigNow F.FAB_RGN_TRIG.MODE r.toNat ≠ 4 → s.rstate r.toNat = rgStopped ∨ s.haltedCleanly r.toNat = true →
    ∃ t, exec (.fabFrame ref r) s = .next t ∧ t.rstate r.toNat = rgWaiting ∧
      t.rd F.FAB_RGN_STATUS.HALT_CAUSE r.toNat = 0 ∧
      (t.rgn r.toNat).accepted.map (fun x => (x.e, x.lam, x.anchor)) = some (s.fab.g, 1, some s.now) ∧
      (t.rgn r.toNat).single = some ref ∧ (t.rgn r.toNat).singleHalt = true ∧
      (∀ q, q ≠ r.toNat → t.rgn q = s.rgn q) ∧ t.fab.dm = s.fab.dm ∧ t.mem = s.mem ∧ t.events = s.events) ∧
  (∀ (s : State) (ref : CmdRef) (mask : BitVec 16) (keep : BitVec 8), s.takes ref 0x0406 → mask ≠ 0 → keep.toNat ≤ 1 →
    s.standbyLocked = false →
    (∀ q : BitVec 4, mask.getLsbD q.toNat = true → s.rstate q.toNat = rgStopped ∨ s.rstate q.toNat = rgHalted) →
    ∃ t, exec (.fabRestart ref mask keep 0) s = .next t ∧
      (∀ r : BitVec 4, mask.getLsbD r.toNat = true → t.rstate r.toNat = rgStopped ∧
        t.rd F.FAB_RGN_STATUS.HALT_CAUSE r.toNat = 0 ∧ t.frame r.toNat = 0 ∧ t.rd64 F.FAB_RGN_ANCHOR_LO.ANCHOR r.toNat = 0 ∧
        t.rgn r.toNat = {} ∧
        (keep = 0 → ∀ k, bit (s.tiles r.toNat) (dmTile k) = true → Sparse.find t.fab.dm k = none)) ∧
      (keep = 1 → t.fab.dm = s.fab.dm) ∧ t.fab.istore = s.fab.istore ∧
      (∀ r : BitVec 4, mask.getLsbD r.toNat = false → t.rstate r.toNat = s.rstate r.toNat ∧ t.rgn r.toNat = s.rgn r.toNat ∧
        t.frame r.toNat = s.frame r.toNat) ∧ t.mem = s.mem ∧ t.events = s.events)

/-- Run control (R72, R105 to R107). -/
def Obligations.RegionsStartHaltAndRestart : Prop :=
  startsAndResumes ∧ haltsFramesAndRestarts

/-- LOAD_GRIST up to its point of no return (R114, R122, R123, R126, R134, R137): an accepted load begins to fetch and shows itself
busy, a second one is BUSY; the fetch holds the image of a host that is up, and a poisoned one ends the load with 0x16; without a
signature the load is authentic where the fuses ask for none; a failed check ends the load with its code and status; one that
passes in LOAD mode unloads every region, and one that only verifies ends DONE. -/
def loadsFetchAuthenticateAndCheck : Prop :=
  (∀ (s : State) (ref : CmdRef) (mode stage part : BitVec 8) (addr ofs len : BitVec 64), s.takes ref 0x0401 →
    mode.toNat ≤ 1 → stage.toNat ≤ 15 →
    let u := s.accept ref 0x0401
    (s.fab.load.isSome = true → exec (.loadGrist ref 0 mode part stage addr ofs len) s = .next (u.complete ref stBusy)) ∧
    (s.fab.load = none → u.standbyLocked = false → u.fabBusy = false → u.hostPart stage.toNat = true →
      len.toNat ≤ 2 ^ 33 → u.inPart stage.toNat ofs.toNat len.toNat = true →
      ∃ t, exec (.loadGrist ref 0 mode part stage addr ofs len) s = .next t ∧
        t.fab.load = some ⟨ref, false, mode = 1, u.cmdPort ref, addr.toNat, stage.toNat, ofs.toNat, len.toNat, 1, false,
          false, []⟩ ∧ t.rd F.FAB_LOAD_STATUS.BUSY = 1 ∧ t.rd F.FAB_LOAD_STATUS.PHASE = 1 ∧
        t.rd F.FAB_LOAD_STATUS.ERR_CODE = 0 ∧ (∀ r : BitVec 4, t.rstate r.toNat = s.rstate r.toNat) ∧ t.mem = s.mem)) ∧
  (∀ (s : State) (l : LoadSt), s.alive = true → s.fab.load = some l →
    (l.phase = 1 → l.fromHbm = false → s.portUp l.port = true →
      s.memWaits (reqHost l.port) (s.partAddr l.part l.ofs) l.length = false →
      ∃ t, exec .gristFetchComplete s = .next t ∧ (∀ r : BitVec 4, t.rstate r.toNat = s.rstate r.toNat) ∧
      (s.hostBad l.port l.addr l.length = false →
        t.fab.load = some { l with phase := 2, image := s.hostRead l.port l.addr l.length } ∧
        t.rd F.FAB_LOAD_STATUS.PHASE = 2) ∧
      (s.hostBad l.port l.addr l.length = true → t.fab.load = none ∧ t.rd F.FAB_LOAD_STATUS.BUSY = 0 ∧
        t.rd F.FAB_LOAD_STATUS.ERR_CODE = 0x16)) ∧
    (l.phase = 2 → fieldAt l.image 0 4 ≠ 0x54535247 ∨ bit (fieldAt l.image 0x00B 1) 0 = false →
      ∃ t, exec .gristAuthenticateComplete s = .next t ∧
        t.fab.load = some { l with phase := 3, sigOk := !s.rdb F.SEC_FUSE_STAT.REQ_GRIST } ∧
        t.rd F.FAB_LOAD_STATUS.PHASE = 3 ∧ t.rd F.SEC_AUTH_FAILS.COUNT = s.rd F.SEC_AUTH_FAILS.COUNT ∧
        t.events = s.events ∧ t.mem = s.mem) ∧
    (l.phase = 3 → ∃ t, exec .gristCheckComplete s = .next t ∧
      (∀ e, s.gristCheck l.length l.sigOk l.image = some e →
        t = ((s.gristErr e).setGrist none).complete l.ref (gristStatus e.code)) ∧
      (s.gristCheck l.length l.sigOk l.image = none → l.verify = false →
        t.rd F.FAB_LOAD_STATUS.PHASE = 4 ∧ t.fab.quiet = true ∧
        t.rd F.FAB_GLB_STATUS.LOADED = 0 ∧ t.fab.flights = [] ∧ t.fab.items = [] ∧
        (∀ r : BitVec 4, t.rstate r.toNat = rgUnloaded) ∧ (∀ q : BitVec 6, t.tlq q.toNat = [])) ∧
      (s.gristCheck l.length l.sigOk l.image = none → l.verify = true →
        t.fab.load = none ∧ t.rd F.FAB_LOAD_STATUS.BUSY = 0 ∧
        (∀ r : BitVec 4, t.rstate r.toNat = s.rstate r.toNat))))

/-- LOAD_GRIST past its point of no return (R123, R124, R126, R127, R137): the write fills the stores from the image, starts
every data memory at 0 and shows the regions of the image; a poisoned image leaves the fabric without one; calibration ends
the load with each defined region STOPPED and both step counts 0, DONE, or INCOMPLETE where a crossing fails. A 1 to FAB_VLIB_INV drops its library entry. -/
def loadsWriteAndCalibrate : Prop :=
  (∀ (s : State) (l : LoadSt) (snap : List (BitVec 13 × BitVec 16 × BitVec 7)), s.alive = true → s.fab.load = some l →
    l.phase = 4 → s.memWaits (reqHost l.port) (s.partAddr l.part l.ofs) l.length = false →
    ((s.gristRead l).2.1 = false → ∃ t, exec (.gristWriteComplete snap) s = .next t ∧
      t.fab.load = some { l with phase := 5 } ∧ t.rd F.FAB_GLB_STATUS.LOADED = 1 ∧
      t.fab.istore = (imageOf (s.gristRead l).1).istore ∧ t.fab.routes = (imageOf (s.gristRead l).1).routes ∧
      t.fab.dm = [] ∧ t.fab.latches = [] ∧ t.fab.cReflex = 0 ∧ t.fab.cDeferred = 0 ∧
      (∀ r : BitVec 4, t.rdb F.FAB_RGN_CFG.EN r.toNat = (rgnOf (s.gristRead l).1 r.toNat).en ∧
        t.rd F.FAB_RGN_CFG.LEN r.toNat = (rgnOf (s.gristRead l).1 r.toNat).len ∧ t.frame r.toNat = 0)) ∧
    ((s.gristRead l).2.1 = true → ∃ t, exec (.gristWriteComplete snap) s = .next t ∧ t.fab.load = none ∧
      t.rd F.FAB_GLB_STATUS.LOADED = 0 ∧ (∀ r : BitVec 4, t.rstate r.toNat = rgUnloaded))) ∧
  (∀ (s : State) (l : LoadSt) (fail : BitVec 4), s.alive = true → s.fab.load = some l → l.phase = 5 →
    ∃ t, exec (.gristCalibrateComplete fail) s = .next t ∧ t.fab.load = none ∧ t.rd F.FAB_LOAD_STATUS.BUSY = 0 ∧
      t.rd F.FAB_GLB_STATUS.XCAL_OK = 15 - fail.toNat ∧
      (s.recovery = false → t.events.map (·.code) = (if fail = 0 then 0x040A else 0x040B) :: s.events.map (·.code)) ∧
      t.fab.cReflex = 0 ∧ t.fab.cDeferred = 0 ∧
      (fail = 0 → ∀ r : BitVec 4,
        t.rstate r.toNat = if s.rdb F.FAB_RGN_CFG.EN r.toNat then rgStopped else rgUnloaded) ∧ t.fab.istore = s.fab.istore ∧ t.mem = s.mem) ∧
  (∀ (s : State) (v : BitVec 32), s.bar0Open 0x103054 = true → ∃ t, exec (.fabVlibInv v) s = .next t ∧
    t.fab.vlib = (s.fab.vlib.filter fun e => !bit v.toNat e.1) ∧ t.host = s.host ∧ t.mem = s.mem ∧ t.events = s.events)

/-- Loading an image (R110 to R128). -/
def Obligations.GristIsLoadedPhaseByPhase : Prop :=
  loadsFetchAuthenticateAndCheck ∧ loadsWriteAndCalibrate

/-- One step of the step clock (R47, R50, R63, R148), without a redundant pair: the step and reflex counts advance, the deferred
count at most with them, the samplers take the receivers, and the timebase does not move. -/
def Obligations.FabricStepsCount : Prop :=
  ∀ (s : State) (x : StepIn), s.alive = true → s.rdb F.PAIR_CFG.EN = false →
    ∃ t, exec (.fabricStep x) s = .next t ∧ t.fab.g = s.fab.g + 1 ∧ t.fab.cReflex = s.fab.cReflex + 1 ∧
      (t.fab.cDeferred = s.fab.cDeferred ∨ t.fab.cDeferred = s.fab.cDeferred + 1) ∧
      t.fab.samples = s.received x.pins ∧ t.fab.istore = s.fab.istore ∧ t.fab.routes = s.fab.routes ∧ t.tb = s.tb
/-! ### The Edge Logic Array -/

/-- The array's release and hold (R167, R169, R175 to R178, Table ELA-4): GOE rises with the command, GWE once GAP1 cycles have
passed, and after GAP2 more GSR falls and ELA_RELEASED is raised; neither happens before; a hold undoes all three; an edge reaches the array with the receivers; a line on which two
drivers are enabled is disabled, and a 1 to its bit of ELA_LL_DIS enables it again. -/
def Obligations.ElaReleasesAndHolds : Prop :=
  (∀ (s : State) (ref : CmdRef) (sc : BitVec 8), s.takes ref 0x0502 →
    (scopeOf sc.toNat = none → exec (.elaRelease ref sc) s = .next ((s.accept ref 0x0502).complete ref stRange)) ∧
    (∀ n, scopeOf sc.toNat = some n → s.standbyLocked = false → s.scope 16 ≠ scLoading →
      (s.scope n ≠ scLoading → s.scope n ≠ scConfigured →
        exec (.elaRelease ref sc) s = .next ((s.accept ref 0x0502).complete ref stRefused)) ∧
      (s.scope n = scConfigured → s.isReleased n = false → (∀ r ∈ s.ela.rel, r.scope ≠ n) →
        ∃ t, exec (.elaRelease ref sc) s = .next t ∧ t.ela.goe = ctlBit s.ela.goe n true ∧ t.ela.gwe = s.ela.gwe ∧
          t.ela.gsr = s.ela.gsr ∧ t.ela.rel = s.ela.rel ++ [⟨n, some ref, false, s.now⟩] ∧
          t.rd F.ELA_STATUS.REL_BUSY = 1 ∧ t.ela.frames = s.ela.frames ∧ t.mem = s.mem ∧ t.fab = s.fab))) ∧
  (∀ (s : State) (sc : BitVec 8) (n : Nat), s.alive = true → scopeOf sc.toNat = some n →
    ((∃ r ∈ s.ela.rel, r.scope = n ∧ r.gwe = false ∧ s.gweDue r = true) → ∃ t, exec (.elaGweAssert sc) s = .next t ∧
      t.ela.gwe = ctlBit s.ela.gwe n true ∧ t.ela.goe = s.ela.goe ∧ t.ela.gsr = s.ela.gsr ∧
      (∀ r ∈ t.ela.rel, r.scope = n → r.gwe = true) ∧ t.ela.frames = s.ela.frames ∧ t.events = s.events) ∧
    (∀ r, (s.ela.rel.find? fun r => r.scope == n && r.gwe && s.gsrDue r) = some r → ∃ t, exec (.elaGsrDeassert sc) s = .next t ∧
      t.ela.gsr = ctlBit s.ela.gsr n false ∧ t.ela.goe = s.ela.goe ∧ t.ela.gwe = s.ela.gwe ∧
      t.ela.rel = (s.ela.rel.filter fun r => r.scope != n) ∧
      (n < 16 → bit (t.rd F.ELA_REL_RGN.RELEASED) n = true) ∧
      (s.recovery = false → t.events.map (·.code) = 0x0502 :: s.events.map (·.code))) ∧
    ((∀ r ∈ s.ela.rel, r.scope = n → s.gweDue r = false) → exec (.elaGweAssert sc) s = .next s) ∧
    ((∀ r ∈ s.ela.rel, r.scope = n → s.gsrDue r = false) → exec (.elaGsrDeassert sc) s = .next s)) ∧
  (∀ (s : State) (ref : CmdRef) (sc : BitVec 8) (n : Nat), s.takes ref 0x0503 → scopeOf sc.toNat = some n →
    s.standbyLocked = false →
    (s.scope n ≠ scLoading → ∃ t, exec (.elaHold ref sc) s = .next t ∧ t.ela.goe = ctlBit s.ela.goe n false ∧
      t.ela.gwe = ctlBit s.ela.gwe n false ∧ t.ela.gsr = ctlBit s.ela.gsr n true ∧
      (∀ r ∈ t.ela.rel, r.scope ≠ n) ∧ (n < 16 → bit (t.rd F.ELA_REL_RGN.RELEASED) n = false) ∧
      t.ela.frames = s.ela.frames ∧ t.fab = s.fab ∧ t.events = s.events) ∧
    (s.scope n = scLoading → exec (.elaHold ref sc) s = .next ((s.accept ref 0x0503).complete ref stDone))) ∧
  (∀ (s : State) (pins : BitVec 512) (dco : BitVec 8) (sys : Bool), s.alive = true →
    ∃ t, exec (.elaClockEdge pins dco sys) s = .next t ∧ t.ela.inp.pins = s.received pins ∧ t.ela.inp.dco = dco ∧
      t.ela.inp.sys = sys ∧ (s.scope 16 ≠ scConfigured → t.pin.elaOut = 0 ∧ t.pin.elaOe = 0 ∧ t.ela.xout = 0 ∧
        t.ela.hubOut = 0 ∧ t.ela.val.q = 0 ∧ t.ela.val.lines = s.ela.val.lines) ∧
      t.ela.frames = s.ela.frames ∧ t.ela.goe = s.ela.goe ∧ t.ela.gsr = s.ela.gsr ∧ t.fab = s.fab ∧ t.mem = s.mem ∧
      t.events = s.events) ∧
  (∀ (s : State) (line : BitVec 7), s.alive = true →
    let d := ((s.elaCtx s.ela.inp).drivers s.ela.val.oe line.toNat).length
    ∃ t, exec (.elaContention line) s = .next t ∧ t.ela.frames = s.ela.frames ∧
      (s.scope 16 = scConfigured → 2 ≤ d →
        bit (t.rd F.ELA_LL_DIS.DISABLED (line.toNat / 8)) (line.toNat % 8) = true ∧
        t.rd F.ELA_LL_CNT.COUNT = min (2 ^ 32 - 1) (s.rd F.ELA_LL_CNT.COUNT + 1) ∧
        (s.recovery = false → t.events.map (·.code) = 0x0501 :: s.events.map (·.code))) ∧
      (s.scope 16 ≠ scConfigured ∨ d < 2 → t = s)) ∧
  (∀ (s : State) (r : BitVec 4) (v : BitVec 32), s.hostOpen = true → s.recovery = false →
    ∃ t, exec (.elaLlDis r v) s = .next t ∧
      (∀ k, k < 8 → bit (t.rd F.ELA_LL_DIS.DISABLED r.toNat) k =
        (bit (s.rd F.ELA_LL_DIS.DISABLED r.toNat) k && !v.getLsbD k)) ∧
      (∀ q : BitVec 4, q ≠ r → t.rd F.ELA_LL_DIS.DISABLED q.toNat = s.rd F.ELA_LL_DIS.DISABLED q.toNat) ∧
      t.ela.frames = s.ela.frames ∧ t.events = s.events)

/-- Loading a stream (R183, R184, R186, R188, R192, R196): an accepted load waits for its header; a header that fails ends it
with its code and nothing changed, one that passes holds its scope and makes it LOADING; a frame record inside the fence
in rising order is written, one outside leaves the scope INCOMPLETE; a complete stream is judged. -/
def Obligations.StreamsConfigureTheArray : Prop :=
  (∀ (s : State) (ref : CmdRef) (src part : BitVec 8) (addr : BitVec 64) (len : BitVec 32), s.takes ref 0x0501 →
    (2 < src.toNat → exec (.elaLoad ref src part addr len) s = .next ((s.accept ref 0x0501).complete ref stRange)) ∧
    (src.toNat ≤ 2 → src ≠ 1 → s.standbyLocked = false →
      (s.ela.load.isSome = true → exec (.elaLoad ref src part addr len) s = .next ((s.accept ref 0x0501).complete ref stBusy)) ∧
      (s.ela.load = none → ∃ t, exec (.elaLoad ref src part addr len) s = .next t ∧
        t.ela = { s.ela with load := some { ref := some ref, src := src.toNat + 1, port := s.cmdPort ref, part := part.toNat,
                                            addr := addr.toNat, length := len.toNat } } ∧
        t.fab = s.fab ∧ t.mem = s.mem ∧ t.events = s.events))) ∧
  (∀ (s : State) (l : CfgLoad), s.alive = true → s.ela.load = some l → l.past = false → l.src = 1 →
    s.portUp l.port = true →
    let h := s.hostRead l.port (l.addr + l.raw.length) 128
    let n := if fieldAt h 0x0C 1 = 0xFF then 16 else fieldAt h 0x0C 1
    (s.headerError l h ≠ 0 → ∃ t, exec .cfgStreamHeader s = .next t ∧ t.ela = { s.ela with load := none } ∧
      t.rd F.CFG_STATUS.ERR_CODE = s.headerError l h ∧ t.rd F.CFG_STATUS.SRC = 1 ∧ t.rd F.CFG_LOAD_FRAMES.COUNT = 0 ∧
      t.scope n = s.scope n ∧ t.events = s.events) ∧
    (s.headerError l h = 0 → ∃ t, exec .cfgStreamHeader s = .next t ∧ t.scope n = scLoading ∧
      t.rd F.CFG_STATUS.BUSY = 1 ∧ t.ela.goe.getLsbD n = false ∧ t.ela.gwe.getLsbD n = false ∧
      t.ela.gsr.getLsbD n = true ∧ t.ela.frames = s.ela.frames ∧
      ∃ l', t.ela.load = some l' ∧ l'.past = true ∧ l'.raw = h ∧ l'.scope = n)) ∧
  (∀ (s : State) (l : CfgLoad), s.alive = true → s.ela.load = some l → l.past = true → l.frames < l.frameRecs →
    l.scope ≠ 16 ∨ l.frames ≠ 0 → l.framePos + 264 ≤ l.taken →
    let r := l.plain l.framePos 264
    let far := fieldAt r 0 4
    (fieldAt r 4 4 = 0 → s.inFence l.scope far = true → (∀ f, l.far = some f → f < far) →
      ∃ t, exec .cfgFrameRecord s = .next t ∧
        Sparse.get (fun _ => 0) t.ela.frames far = BitVec.ofNat 2048 (leNat (slice r 8 256)) ∧
        (∀ g, g ≠ far → Sparse.get (fun _ => 0) t.ela.frames g = Sparse.get (fun _ => 0) s.ela.frames g) ∧
        t.ela.load = some { l with frames := l.frames + 1, far := some far } ∧ t.scope l.scope = s.scope l.scope ∧
        t.events = s.events) ∧
    (fieldAt r 4 4 ≠ 0 ∨ s.inFence l.scope far = false → l.scope ≤ 16 → ∃ t, exec .cfgFrameRecord s = .next t ∧
      t.ela.load = none ∧ t.scope l.scope = scIncomplete ∧ t.rd F.CFG_STATUS.ERR_CODE = 0x10 ∧
      t.ela.frames = s.ela.frames)) ∧
  (∀ (s : State) (l : CfgLoad), s.alive = true → s.ela.load = some l → l.past = true → l.frameRecs ≤ l.frames →
    l.maps = 0 → 0 < l.mapRecs →
    let head := l.plain l.framePos 8
    let far := fieldAt head 0 4
    l.framePos + mapSize head ≤ l.taken → l.framePos + mapSize head ≤ l.payLen → s.inFence l.scope far = true →
    ∃ t, exec .cfgMapRecord s = .next t ∧
      t.ela.map = (s.writeMap far (fieldAt head 4 4) (l.plain (l.framePos + 8) (mapSize head - 8))).ela.map ∧
      t.ela.load = some { l with maps := 1, far := some far } ∧ t.ela.frames = s.ela.frames ∧ t.regs = s.regs) ∧
  (∀ (s : State) (l : CfgLoad), s.alive = true → s.ela.load = some l → l.past = true → l.frameRecs ≤ l.frames →
    l.mapRecs ≤ l.maps → l.raw.length = streamLen l.raw → l.scope ≤ 16 → bit (fieldAt l.raw 0x0E 1) 0 = false →
    ∃ t, exec .cfgLoadEnd s = .next t ∧ t.ela.load = none ∧ t.rd F.CFG_STATUS.BUSY = 0 ∧ t.ela.frames = s.ela.frames ∧
      (tagOk l.raw l.key l.payLen = true → s.checker l = none → t.scope l.scope = scConfigured ∧
        (s.recovery = false → t.events.map (·.code) = 0x0510 :: s.events.map (·.code))) ∧
      (tagOk l.raw l.key l.payLen = true → (s.checker l).isSome = true →
        t.scope l.scope = scIncomplete ∧ t.rd F.CFG_STATUS.ERR_CODE = 0x15) ∧
      (tagOk l.raw l.key l.payLen = false → t.scope l.scope = scIncomplete ∧ t.rd F.CFG_STATUS.ERR_CODE = 0x13)) ∧
  (∀ s : State, s.alive = true → (s.ela.scpIn = [] → exec .scpWord s = .next s) ∧
    (∀ l, s.ela.scpIn = 0x4E525053 :: l → s.ela.load = none → ∃ t, exec .scpWord s = .next t ∧
      t.ela.load = some { ref := none, src := 4, raw := leBytes 4 0x4E525053, at_ := s.now } ∧ t.ela.scpIn = l ∧
      t.ela.frames = s.ela.frames ∧ t.regs = s.regs ∧ t.events = s.events)) ∧
  (∀ (s : State) (l : CfgLoad), s.alive = true → s.ela.load = some l →
    (l.src = 4 → l.raw.length < 128 → l.at_ + 1000000 ≤ s.now → ∃ t, exec .scpIdleTimeout s = .next t ∧
      t.ela.load = none ∧ t.rd F.CFG_STATUS.ERR_CODE = 0x12 ∧ t.ela.frames = s.ela.frames) ∧
    (s.now < l.at_ + 1000000 → exec .scpIdleTimeout s = .next s))

/-- Keys, the flash and the sparge engine (R193, R194, R197 to R199): a key for slot 1 is held and shown, one for slot 0 is
blown; the key RAM is lost in every power state; an erase runs until its end and leaves whole blocks erased; a frame slot
without upsets moves to the next frame, and a single upset bit is put right and counted. -/
def Obligations.KeysFlashAndScrubbing : Prop :=
  (∀ (s : State) (ref : CmdRef) (slot : BitVec 8) (key : BitVec 256), s.takes ref 0x0505 →
    (1 < slot.toNat → exec (.cfgKey ref slot key) s = .next ((s.accept ref 0x0505).complete ref stRange)) ∧
    (slot = 1 → s.rdb F.CFG_FUSE.KEY1_DIS = false → ∃ t, exec (.cfgKey ref slot key) s = .next t ∧
      t.ela = { s.ela with key1 := leBytes 32 key.toNat } ∧ t.rd F.CFG_KEY_STATUS.KEY1_VALID = 1 ∧
      t.rd F.CFG_KEY1_KCV.KCV = kcv (leBytes 32 key.toNat) ∧ t.sec = s.sec ∧ t.mem = s.mem ∧ t.events = s.events) ∧
    (slot = 0 → s.rdb F.SEC_CTRL.FUSE_EN = true → s.rdb F.CFG_FUSE.KEY0_PROG = false → s.sec.fuseOp = none →
      ∃ t, exec (.cfgKey ref slot key) s = .next t ∧
        t.sec = { s.sec with fuseOp := some ⟨ref, fuseKey0, leBytes 32 key.toNat⟩ } ∧ t.ela = s.ela ∧ t.events = s.events)) ∧
  (∀ s : State, (∃ t, exec .tamperNLow s = .next t ∧ t.ela.key1 = [] ∧ t.rd F.CFG_KEY_STATUS.KEY1_VALID = 0 ∧
      t.rd F.CFG_KEY_STATUS.TAMPER_SEEN = 1 ∧ t.ela.key0 = s.ela.key0) ∧
    (∃ t, exec .vbatLoss s = .next t ∧ t.ela.key1 = [] ∧ t.rd F.CFG_KEY_STATUS.KEY1_VALID = 0 ∧
      t.rd F.CFG_KEY_STATUS.VBAT_LOST = 1 ∧ t.ela.key0 = s.ela.key0)) ∧
  (∀ (s : State) (ref : CmdRef) (ofs len : BitVec 32) (part : BitVec 8) (addr : BitVec 64), s.takes ref 0x0504 →
    ofs.toNat % 2 ^ 16 = 0 →
    (flashProtected ofs.toNat len.toNat = true →
      exec (.cfgFlash ref 2 0 part ofs addr len) s = .next ((s.accept ref 0x0504).complete ref stRefused)) ∧
    (flashProtected ofs.toNat len.toNat = false → s.sec.flashOp = none → (∀ l, s.ela.load = some l → l.src ≠ 3) →
      ∃ t, exec (.cfgFlash ref 2 0 part ofs addr len) s = .next t ∧
        t.sec = { s.sec with flashOp := some ⟨some ref, 2, ofs.toNat, len.toNat, [], 0, false, part.toNat, addr.toNat⟩ } ∧
        t.ela = s.ela ∧ t.mem = s.mem)) ∧
  (∀ (s : State) (o : FlashOp) (ok : Bool), s.alive = true → s.sec.flashOp = some o → o.kind = 2 → 0 < o.len →
    ∃ t, exec (.flashOperationComplete ok) s = .next t ∧ t.sec.flashOp = none ∧
      (∀ k, o.ofs / 2 ^ 16 ≤ k / 2 ^ 16 → k / 2 ^ 16 ≤ (o.ofs + o.len - 1) / 2 ^ 16 → t.flashRead k 1 = [0xFF]) ∧
      (∀ k, k / 2 ^ 16 < o.ofs / 2 ^ 16 ∨ (o.ofs + o.len - 1) / 2 ^ 16 < k / 2 ^ 16 → t.flashRead k 1 = s.flashRead k 1) ∧
      t.ela = s.ela ∧ t.mem = s.mem) ∧
  (∀ (s : State) (v : BitVec 8), s.alive = true → s.rdb F.CFG_SPG_CTRL.EN = true →
    let far := s.rd F.CFG_SPG_POS.FAR
    (∀ w, w < 32 → s.flip (32 * far + w) = 0) →
    (∃ t, exec (.spargeFrameSlot [] [] v) s = .next t ∧ t.rd F.CFG_SPG_POS.FAR = (if far + 1 < 6144 then far + 1 else 0) ∧
      t.rd F.CFG_SPG_TMR_CNT.COUNT = min (2 ^ 32 - 1) (s.rd F.CFG_SPG_TMR_CNT.COUNT + v.toNat) ∧ t.ela = s.ela ∧
      t.events = s.events) ∧
    (∀ (w : BitVec 5) (i : Fin 72), s.scope (s.frameScope far) = scConfigured →
      64 ≤ i.val ∨ (s.essential (32 * far + w.toNat)).getLsbD i.val = false →
      ∃ t, exec (.spargeFrameSlot [(w, BitVec.ofNat 72 (2 ^ i.val))] [] v) s = .next t ∧
        t.flip (32 * far + w.toNat) = 0 ∧ t.ela.frames = s.ela.frames ∧
        t.rd F.CFG_SPG_NE_CNT.COUNT = min (2 ^ 32 - 1) (s.rd F.CFG_SPG_NE_CNT.COUNT + 1) ∧ t.events = s.events))
/-! ### Signal cores: arithmetic -/

/-- What an arithmetic operation gives: its value, the flags it writes, and whether a value saturated. -/
structure AluSpec where
  v : BitVec 32
  n : Option Bool := none
  z : Option Bool := none
  c : Option Bool := none
  o : Option Bool := none
  sv : Bool := false

/-- N and Z of a result (R243). -/
def nzSpec (r : BitVec 32) : AluSpec := { v := r, n := some r.msb, z := some (r == 0) }

/-- A sum with a carry in (R243). -/
def addSpec (a b : BitVec 32) (c : Bool) : AluSpec :=
  let r := a + b + BitVec.ofNat 32 c.toNat
  { nzSpec r with
    c := some (decide (2 ^ 32 ≤ a.toNat + b.toNat + c.toNat)), o := some (decide (a.toInt + b.toInt + c.toNat ≠ r.toInt)) }

/-- A difference with a borrow in (R243). -/
def subSpec (a b : BitVec 32) (w : Bool) : AluSpec :=
  let r := a - b - BitVec.ofNat 32 w.toNat
  { nzSpec r with
    c := some (decide (b.toNat + w.toNat ≤ a.toNat)), o := some (decide (a.toInt - b.toInt - w.toNat ≠ r.toInt)) }

/-- A value saturated to k bits, signed. -/
def clampTo (k : Nat) (i : Int) : Int := max (-(2 ^ (k - 1))) (min i (2 ^ (k - 1) - 1))

/-- A result saturated to 32 bits (R245). -/
def satSpec (i : Int) : AluSpec :=
  { nzSpec (BitVec.ofInt 32 (clampTo 32 i)) with o := some (decide (clampTo 32 i ≠ i)), sv := decide (clampTo 32 i ≠ i) }

/-- A shift by k: C is the last bit out, unchanged for 0 (R243). -/
def shiftSpec (r : BitVec 32) (k : Nat) (out : Bool) : AluSpec := { nzSpec r with c := if k = 0 then none else some out }

/-- The halves of a word. -/
def lowHalf (a : BitVec 32) : BitVec 16 := a.extractLsb' 0 16
def highHalf (a : BitVec 32) : BitVec 16 := a.extractLsb' 16 16

/-- A word from an operation on each half, saturated to 16 bits where `sat`. -/
def halvesSpec (sat : Bool) (f : Int → Int → Int) (a b : BitVec 32) : AluSpec :=
  let l := f (lowHalf a).toInt (lowHalf b).toInt
  let h := f (highHalf a).toInt (highHalf b).toInt
  { v := if sat then BitVec.ofInt 16 (clampTo 16 h) ++ BitVec.ofInt 16 (clampTo 16 l) else BitVec.ofInt 16 h ++ BitVec.ofInt 16 l
    sv := sat && decide (clampTo 16 l ≠ l ∨ clampTo 16 h ≠ h) }

/-- Where an operation of Table ISA-8 or ISA-9 finds its second operand: St, none, or the immediate, by its kind. -/
inductive SecondOp where
  | reg | none | sext | zext | count

/-- An operation of Tables ISA-8 and ISA-9: its command, opcode and meaning, its second operand, whether it only tests, and its
result from two operands and C. -/
structure AluRow where
  cmd : BitVec 6 → Bundle → Instr
  opc : Nat
  op : OpCtx → Fx
  second : SecondOp
  test : Bool
  f : BitVec 32 → BitVec 32 → Bool → AluSpec

/-- The operands of a row, with their poison; those of a bundle that raises nothing are always there. -/
def AluRow.operands (row : AluRow) (x : OpCtx) : Option (Opnd × Opnd) :=
  match x.src (bits x.opf 17 13), row.second with
  | some a, .reg => (x.src (bits x.opf 12 8)).map fun b => (a, b)
  | some a, .sext => some (a, ((BitVec.ofNat 13 x.opf).signExtend 32).toNat, false)
  | some a, .none => some (a, 0, false)
  | some a, _ => some (a, x.opf % 2 ^ 13, false)
  | none, _ => none

/-- Table ISA-8. -/
def rowsR3 : List AluRow := [
  ⟨.opAdd, 0x01, opAdd, .reg, false, fun a b _ => addSpec a b false⟩,
  ⟨.opAdc, 0x02, opAdc, .reg, false, addSpec⟩,
  ⟨.opSub, 0x03, opSub, .reg, false, fun a b _ => subSpec a b false⟩,
  ⟨.opSbc, 0x04, opSbc, .reg, false, fun a b c => subSpec a b !c⟩,
  ⟨.opAnd, 0x05, opAnd, .reg, false, fun a b _ => nzSpec (a &&& b)⟩,
  ⟨.opOr, 0x06, opOr, .reg, false, fun a b _ => nzSpec (a ||| b)⟩,
  ⟨.opXor, 0x07, opXor, .reg, false, fun a b _ => nzSpec (a ^^^ b)⟩,
  ⟨.opAndn, 0x08, opAndn, .reg, false, fun a b _ => nzSpec (a &&& ~~~b)⟩,
  ⟨.opMin, 0x09, opMin, .reg, false, fun a b _ => nzSpec (if a.toInt ≤ b.toInt then a else b)⟩,
  ⟨.opMax, 0x0A, opMax, .reg, false, fun a b _ => nzSpec (if a.toInt ≤ b.toInt then b else a)⟩,
  ⟨.opAbs, 0x0B, opAbs, .none, false, fun a _ _ => satSpec (if a.toInt < 0 then -a.toInt else a.toInt)⟩,
  ⟨.opNeg, 0x0C, opNeg, .none, false, fun a _ _ => satSpec (-a.toInt)⟩,
  ⟨.opCmp, 0x0D, opCmp, .reg, true, fun a b _ => subSpec a b false⟩,
  ⟨.opTst, 0x0E, opTst, .reg, true, fun a b _ => nzSpec (a &&& b)⟩,
  ⟨.opLsl, 0x0F, opLsl, .reg, false, fun a b _ =>
    shiftSpec (a <<< (b.toNat % 32)) (b.toNat % 32) (a.getLsbD (32 - b.toNat % 32))⟩,
  ⟨.opLsr, 0x10, opLsr, .reg, false, fun a b _ =>
    shiftSpec (a >>> (b.toNat % 32)) (b.toNat % 32) (a.getLsbD (b.toNat % 32 - 1))⟩,
  ⟨.opAsr, 0x11, opAsr, .reg, false, fun a b _ =>
    shiftSpec (a.sshiftRight (b.toNat % 32)) (b.toNat % 32) (a.getLsbD (b.toNat % 32 - 1))⟩,
  ⟨.opRor, 0x12, opRor, .reg, false, fun a b _ =>
    shiftSpec (a.rotateRight (b.toNat % 32)) (b.toNat % 32) (a.rotateRight (b.toNat % 32)).msb⟩,
  ⟨.opAdds, 0x13, opAdds, .reg, false, fun a b _ => satSpec (a.toInt + b.toInt)⟩,
  ⟨.opSubs, 0x14, opSubs, .reg, false, fun a b _ => satSpec (a.toInt - b.toInt)⟩,
  ⟨.opAdd2, 0x15, opAdd2, .reg, false, fun a b _ => halvesSpec false (· + ·) a b⟩,
  ⟨.opSub2, 0x16, opSub2, .reg, false, fun a b _ => halvesSpec false (· - ·) a b⟩,
  ⟨.opAdds2, 0x17, opAdds2, .reg, false, fun a b _ => halvesSpec true (· + ·) a b⟩,
  ⟨.opSubs2, 0x18, opSubs2, .reg, false, fun a b _ => halvesSpec true (· - ·) a b⟩,
  ⟨.opAsr2, 0x19, opAsr2, .reg, false, fun a b _ =>
    { v := (highHalf a).sshiftRight (b.toNat % 16) ++ (lowHalf a).sshiftRight (b.toNat % 16) }⟩,
  ⟨.opSwaph, 0x1A, opSwaph, .none, false, fun a _ _ => { v := lowHalf a ++ highHalf a }⟩,
  ⟨.opConj, 0x1B, opConj, .none, false, fun a _ _ =>
    let h := -(highHalf a).toInt
    { v := BitVec.ofInt 16 (clampTo 16 h) ++ lowHalf a, sv := decide (clampTo 16 h ≠ h) }⟩,
  ⟨.opMull, 0x1C, opMull, .reg, false, fun a b _ => nzSpec (a * b)⟩,
  ⟨.opBtst, 0x1D, opBtst, .reg, true, fun a b _ => { v := 0, z := some (!a.getLsbD (b.toNat % 32)) }⟩,
  ⟨.opBset, 0x1E, opBset, .reg, false, fun a b _ => { v := a ||| 1#32 <<< (b.toNat % 32) }⟩,
  ⟨.opBclr, 0x1F, opBclr, .reg, false, fun a b _ => { v := a &&& ~~~(1#32 <<< (b.toNat % 32)) }⟩]

/-- The immediate operations of Table ISA-9. -/
def rowsRI : List AluRow := [
  ⟨.opAddi, 0x20, opAddi, .sext, false, fun a b _ => addSpec a b false⟩,
  ⟨.opCmpi, 0x21, opCmpi, .sext, true, fun a b _ => subSpec a b false⟩,
  ⟨.opAndi, 0x22, opAndi, .zext, false, fun a b _ => nzSpec (a &&& b)⟩,
  ⟨.opOri, 0x23, opOri, .zext, false, fun a b _ => nzSpec (a ||| b)⟩,
  ⟨.opXori, 0x24, opXori, .zext, false, fun a b _ => nzSpec (a ^^^ b)⟩,
  ⟨.opTsti, 0x25, opTsti, .zext, true, fun a b _ => nzSpec (a &&& b)⟩,
  ⟨.opLsli, 0x26, opLsli, .count, false, fun a b _ => shiftSpec (a <<< b.toNat) b.toNat (a.getLsbD (32 - b.toNat))⟩,
  ⟨.opLsri, 0x27, opLsri, .count, false, fun a b _ => shiftSpec (a >>> b.toNat) b.toNat (a.getLsbD (b.toNat - 1))⟩,
  ⟨.opAsri, 0x28, opAsri, .count, false, fun a b _ =>
    shiftSpec (a.sshiftRight b.toNat) b.toNat (a.getLsbD (b.toNat - 1))⟩,
  ⟨.opRori, 0x29, opRori, .count, false, fun a b _ =>
    shiftSpec (a.rotateRight b.toNat) b.toNat (a.rotateRight b.toNat).msb⟩,
  ⟨.opBtsti, 0x2A, opBtsti, .count, true, fun a b _ => { v := 0, z := some (!a.getLsbD b.toNat) }⟩,
  ⟨.opBseti, 0x2B, opBseti, .count, false, fun a b _ => { v := a ||| 1#32 <<< b.toNat }⟩,
  ⟨.opBclri, 0x2C, opBclri, .count, false, fun a b _ => { v := a &&& ~~~(1#32 <<< b.toNat) }⟩,
  ⟨.opAsr2i, 0x2D, opAsr2i, .count, false, fun a b _ =>
    { v := (highHalf a).sshiftRight b.toNat ++ (lowHalf a).sshiftRight b.toNat }⟩]

/-- The registers that the moves of a bundle write: loads and post-modifications (R240). -/
def moveWrites (s : State) (n : Nat) (b : Bundle) : List Nat :=
  let m (y : Bool) := (s.bundleStart n).bundleMove n b y
  (optW (m false).load ++ optW (m true).load ++ optW (m false).post ++ optW (m true).post).map (·.1)

/-- What a bundle of core n leaves alone: every register but `ws`, those its moves write, SR, LC and PC; a local memory it does
not store to; every other core; and everything outside the cores but trace, counters and what shows them. Memories are compared
with what the bundle finds: those of a core with no transfer in progress are the ones before it (R207). -/
def bundleFrame (s t : State) (n : Nat) (b : Bundle) (ws : List Nat) : Prop :=
  let u := s.bundleStart n
  (∀ k, k ∉ ws → k ∉ moveWrites s n b → k ≠ rSR → k ≠ rLC → k ≠ rPC → (t.core n).reg k = (s.core n).reg k) ∧
    ((u.bundleMove n b false).store = none → (t.core n).x = (u.core n).x) ∧
    ((u.bundleMove n b true).store = none → (t.core n).y = (u.core n).y) ∧
    (t.core n).pram = (s.core n).pram ∧ (t.core n).xq = (u.core n).xq ∧ (t.core n).hub = (s.core n).hub ∧
    (∀ m, m ≠ n → t.core m = s.core m) ∧ t.mem = u.mem ∧ t.fab = u.fab ∧
    ((s.core n).xq = [] → (u.core n).x = (s.core n).x ∧ (u.core n).y = (s.core n).y ∧ (u.core n).xq = [] ∧
      u.mem = s.mem ∧ u.fab = s.fab) ∧ t.pin = s.pin ∧ t.ela = s.ela ∧
    t.lnk = s.lnk ∧ t.rad = s.rad ∧ t.dec = s.dec ∧ t.cap = s.cap ∧ t.sec = s.sec ∧ t.pair = s.pair

/-- Execution goes on at the next bundle where no repeat, delay slot or loop end is there (R220). -/
def goesOn (s t : State) (n : Nat) : Prop :=
  (s.core n).rep = 0 → (s.core n).br = none → ((s.core n).seen rLC).v = 0 →
    (t.core n).val rPC = ((s.core n).val rPC + 1) % 8192

/-- Arithmetic, logic and shifts (R245, R246, Tables ISA-8 and ISA-9): the destination takes the operation's 32-bit result with
the poison of its operands, a test writes no register, and nothing else changes but what the moves write. -/
def Obligations.ArithmeticWritesItsResult : Prop :=
  ∀ row ∈ rowsR3 ++ rowsRI, ∀ (s : State) (core : BitVec 6) (b : Bundle), s.executes core.toNat row.opc b row.op →
    let n := core.toNat
    let sr := (s.core n).val rSR
    ∃ t o, exec (row.cmd core b) s = .next t ∧ row.operands ((s.bundleStart n).bundleCtx n b) = some o ∧
      (row.test = false → (t.core n).reg (bits b.opf.toNat 21 18) =
        ⟨(row.f (BitVec.ofNat 32 o.1.1) (BitVec.ofNat 32 o.2.1) (bit sr 2)).v.setWidth 48,
          o.1.2 || o.2.2 || ((row.opc == 2 || row.opc == 4) && bit sr 6)⟩) ∧
      bundleFrame s t n b (if row.test then [] else [bits b.opf.toNat 21 18]) ∧ goesOn s t n

/-- Flags (R243): an operation writes the flags its row lists from its result, sets FP to its operands' poison where it writes
any, sets SV where it saturates, and leaves the rest of SR as it was, with no move loading SR. -/
def Obligations.FlagsFollowTheResult : Prop :=
  ∀ row ∈ rowsR3 ++ rowsRI, ∀ (s : State) (core : BitVec 6) (b : Bundle), s.executes core.toNat row.opc b row.op →
    rSR ∉ moveWrites s core.toNat b →
    let n := core.toNat
    let sr := ((s.bundleStart n).core n).val rSR
    ∃ t o, exec (row.cmd core b) s = .next t ∧ row.operands ((s.bundleStart n).bundleCtx n b) = some o ∧
      let r := row.f (BitVec.ofNat 32 o.1.1) (BitVec.ofNat 32 o.2.1) (bit sr 2)
      let u := (t.core n).val rSR
      bit u 0 = r.z.getD (bit sr 0) ∧ bit u 1 = r.n.getD (bit sr 1) ∧ bit u 2 = r.c.getD (bit sr 2) ∧
      bit u 3 = r.o.getD (bit sr 3) ∧ bit u 4 = (bit sr 4 || r.sv) ∧
      bit u 6 = (if r.z.isSome then o.1.2 || o.2.2 || ((row.opc == 2 || row.opc == 4) && bit sr 6) else bit sr 6) ∧
      (∀ k ∈ [5, 8, 9, 10, 11, 12, 13, 20, 24, 25, 26, 27], bit u k = bit sr k)
/-! ### Signal cores: accumulators -/

/-- A value fits w bits, signed. -/
def fitsIn (w : Nat) (i : Int) : Prop := -(2 ^ (w - 1)) ≤ i ∧ i < 2 ^ (w - 1)

/-- An exact sum fitted to w bits (R212): saturated under SAT, else wrapped. -/
def fitted (w : Nat) (sat : Bool) (i : Int) : Int := if sat then clampTo w i else i.bmod (2 ^ w)

/-- Accumulator k of a core as a number, and the 96-bit value of pair k. -/
def accVal (c : CoreSt) (k : Nat) : Int := sint 48 (c.val (40 + k))
def pairOf (c : CoreSt) (k : Nat) : Int := pairVal (c.val (40 + 2 * k)) (c.val (41 + 2 * k))

/-- What the four multiplying operations add to each accumulator, from their MC fields (R213, R247, Table SCR-5). -/
def macTerms (opc : Nat) (x : OpCtx) (m : McFields) : List (Nat × Int) :=
  let p (h g : Bool) : Int := (x.mul m h g).1
  match opc with
  | 0x40 => [(0, p true true), (1, p true false), (2, p false true), (3, p false false)]
  | 0x41 => [(2 * m.k, if m.conj then p false false + p true true else p false false - p true true),
      (2 * m.k + 1, if m.conj then p true false - p false true else p false true + p true false)]
  | _ => [(2 * m.k, p m.xh false), (2 * m.k + 1, p m.xh true)]

/-- Accumulation is exact and then fitted (R211 to R213, R247): QMAC, CMAC and DMAC add or subtract their products to 48-bit
accumulators, or start from 0; WMAC its product to a 96-bit pair; AV records a sum that does not fit. -/
def Obligations.AccumulationIsExactAndFitted : Prop :=
  (∀ row ∈ ([(Instr.opQmac, 0x40, opQmac), (.opCmac, 0x41, opCmac), (.opDmac, 0x43, opDmac)] :
      List ((BitVec 6 → Bundle → Instr) × Nat × (OpCtx → Fx))), ∀ (s : State) (core : BitVec 6) (b : Bundle),
    s.executes core.toNat row.2.1 b row.2.2 →
    let n := core.toNat
    let x := (s.bundleStart n).bundleCtx n b
    ∃ t m, exec (row.1 core b) s = .next t ∧ x.mc = some m ∧
      (∀ e ∈ macTerms row.2.1 x m,
        let sum := (if m.clr then 0 else accVal (s.core n) e.1) + (if m.sub then -e.2 else e.2)
        accVal (t.core n) e.1 = fitted 48 x.sat sum ∧
        (¬ fitsIn 48 sum → bit ((t.core n).val rSR) 5 = true) ∧
        ((t.core n).reg (40 + e.1)).p = ((!m.clr && ((s.core n).reg (40 + e.1)).p) || m.x.2 || m.y.2)) ∧
      bundleFrame s t n b ((macTerms row.2.1 x m).map fun e => 40 + e.1) ∧ goesOn s t n) ∧
  (∀ (s : State) (core : BitVec 6) (b : Bundle), s.executes core.toNat 0x42 b opWmac →
    let n := core.toNat
    let x := (s.bundleStart n).bundleCtx n b
    ∃ t m, exec (.opWmac core b) s = .next t ∧ x.mc = some m ∧
      (let a := sint 32 m.x.1 * sint 32 m.y.1
       let p := if x.frac then (if sint 32 m.x.1 = -(2 ^ 31) ∧ sint 32 m.y.1 = -(2 ^ 31) then 2 ^ 63 - 1 else 2 * a) else a
       let sum := (if m.clr then 0 else pairOf (s.core n) m.k) + (if m.sub then -p else p)
       pairOf (t.core n) m.k = fitted 96 x.sat sum ∧ (¬ fitsIn 96 sum → bit ((t.core n).val rSR) 5 = true)) ∧
      bundleFrame s t n b [40 + 2 * m.k, 41 + 2 * m.k] ∧ goesOn s t n)

/-- `v` is `a` shifted left by `e`, its redundant sign bits less 16 (R216). -/
def normalised (a e v : Int) : Prop :=
  -16 ≤ e ∧ e ≤ 31 ∧ v = (if e < 0 then a / 2 ^ e.natAbs else a * 2 ^ e.natAbs) ∧ (a ≠ 0 → fitsIn 32 v ∧ ¬ fitsIn 31 v)

/-- `e` counts the redundant sign bits of a w-bit value (R215): the greatest shift at which it still fits. -/
def countsSigns (w : Nat) (a : Int) (e : Nat) : Prop :=
  e < w ∧ fitsIn w (a * 2 ^ e) ∧ (e + 1 < w → ¬ fitsIn w (a * 2 ^ (e + 1)))

/-- The other accumulator operations (R215, R216, R247, Table ISA-10): ACLR, AADD, ASH and ALD write accumulators; NORM shifts
one by its redundant sign bits less 16; EXP and BEXP count redundant sign bits. -/
def accumulatorsShiftAndNormalise : Prop :=
  (∀ (s : State) (core : BitVec 6) (b : Bundle), s.executes core.toNat 0x48 b opAclr →
    let n := core.toNat
    ∃ t, exec (.opAclr core b) s = .next t ∧
      (∀ k, k < 4 → bit b.opf.toNat k = true → accVal (t.core n) k = 0 ∧ ((t.core n).reg (40 + k)).p = false) ∧
      bundleFrame s t n b ((maskBits 4 (bits b.opf.toNat 3 0)).map (40 + ·)) ∧ goesOn s t n) ∧
  (∀ (s : State) (core : BitVec 6) (b : Bundle), s.executes core.toNat 0x49 b opAadd →
    let n := core.toNat
    let x := (s.bundleStart n).bundleCtx n b
    let sum := accVal (s.core n) x.ac.k + (if x.ac.sub then -accVal (s.core n) x.ac.j else accVal (s.core n) x.ac.j)
    ∃ t, exec (.opAadd core b) s = .next t ∧ accVal (t.core n) x.ac.k = fitted 48 x.sat sum ∧
      (¬ fitsIn 48 sum → bit ((t.core n).val rSR) 5 = true) ∧ bundleFrame s t n b [40 + x.ac.k] ∧ goesOn s t n) ∧
  (∀ (s : State) (core : BitVec 6) (b : Bundle), s.executes core.toNat 0x4A b opAsh →
    let n := core.toNat
    let x := (s.bundleStart n).bundleCtx n b
    ∃ t, exec (.opAsh core b) s = .next t ∧
      accVal (t.core n) x.ac.k = (if x.ac.sh < 0 then accVal (s.core n) x.ac.k / 2 ^ x.ac.sh.natAbs
        else fitted 48 x.sat (accVal (s.core n) x.ac.k * 2 ^ x.ac.sh.natAbs)) ∧
      bundleFrame s t n b [40 + x.ac.k] ∧ goesOn s t n) ∧
  (∀ (s : State) (core : BitVec 6) (b : Bundle), s.executes core.toNat 0x4B b opAld →
    let n := core.toNat
    let x := (s.bundleStart n).bundleCtx n b
    ∃ t a, exec (.opAld core b) s = .next t ∧ x.src x.ac.ss = some a ∧
      (let v := BitVec.ofNat 32 a.1
       (t.core n).reg (40 + x.ac.k) = ⟨BitVec.signExtend 48 (if x.ac.m = 0 then v
         else if x.ac.m = 1 then lowHalf v ++ 0#16 else highHalf v ++ 0#16), a.2⟩) ∧
      bundleFrame s t n b [40 + x.ac.k] ∧ goesOn s t n) ∧
  (∀ (s : State) (core : BitVec 6) (b : Bundle), s.executes core.toNat 0x4C b opNorm →
    let n := core.toNat
    let d := bits b.opf.toNat 21 18
    let k := bits b.opf.toNat 17 16
    let a := sint 48 ((s.core n).seen (40 + k)).v.toNat
    ∃ t, exec (.opNorm core b) s = .next t ∧
      normalised a (sint 32 ((t.core n).val d)) (accVal (t.core n) k) ∧
      bundleFrame s t n b [40 + k, d] ∧ goesOn s t n) ∧
  (∀ (s : State) (core : BitVec 6) (b : Bundle), s.executes core.toNat 0x4D b opExp →
    let n := core.toNat
    let d := bits b.opf.toNat 21 18
    let x := (s.bundleStart n).bundleCtx n b
    ∃ t, exec (.opExp core b) s = .next t ∧
      (bits b.opf.toNat 15 14 = 0 →
        countsSigns 48 (sint 48 ((s.core n).seen (40 + bits b.opf.toNat 17 16)).v.toNat) ((t.core n).val d)) ∧
      (∀ a, x.src (bits b.opf.toNat 13 9) = some a →
        (bits b.opf.toNat 15 14 = 1 → countsSigns 32 (sint 32 a.1) ((t.core n).val d)) ∧
        (bits b.opf.toNat 15 14 = 2 → ∃ l h, (t.core n).val d = min l h ∧ countsSigns 16 (sint 16 a.1) l ∧
          countsSigns 16 (sint 16 (a.1 / 2 ^ 16)) h)) ∧
      bundleFrame s t n b [d] ∧ goesOn s t n) ∧
  (∀ (s : State) (core : BitVec 6) (b : Bundle), s.executes core.toNat 0x4E b opBexp →
    let n := core.toNat
    let d := bits b.opf.toNat 21 18
    let x := (s.bundleStart n).bundleCtx n b
    ∃ t a, exec (.opBexp core b) s = .next t ∧ x.src (bits b.opf.toNat 13 9) = some a ∧
      sint 32 ((t.core n).val d) = min (sint 32 ((s.core n).val d)) (expD a.1 (bits b.opf.toNat 15 14 == 2)) ∧
      bundleFrame s t n b [d] ∧ goesOn s t n)

/-- Rounding at an extraction (R214): half up, half to even, or down, at `sh` bits. -/
def roundedAt (sh rnd : Nat) (v : Int) : Int :=
  let q := v / 2 ^ sh
  let low := v % 2 ^ sh
  match rnd with
  | 1 => if 2 ^ (sh - 1) ≤ low then q + 1 else q
  | 2 => if 2 ^ (sh - 1) < low ∨ (low = 2 ^ (sh - 1) ∧ q % 2 ≠ 0) then q + 1 else q
  | _ => q

/-- Where EXT16 puts an extracted half: the low half, the high half, both sign-extended, or packed with the next one's. -/
def extractInto (form : Nat) (old : BitVec 32) (h g : BitVec 16) : BitVec 32 :=
  match form with
  | 0 => highHalf old ++ h
  | 1 => h ++ lowHalf old
  | 2 => h.signExtend 32
  | _ => g ++ h

/-- Extraction (R214): EXT16 rounds bits [31:16] on the bits below and EXTP bits [63:32] of a pair, EXT32 takes bits [31:0]
unrounded; each is saturated under SAT, setting SV, or else cut. -/
def extractionRoundsAndSaturates : Prop :=
  (∀ (s : State) (core : BitVec 6) (b : Bundle), s.executes core.toNat 0x50 b opExt16 →
    let n := core.toNat
    let x := (s.bundleStart n).bundleCtx n b
    let d := bits b.opf.toNat 21 18
    let q (k : Nat) : Int := roundedAt 16 x.rnd (sint 48 ((s.core n).seen (40 + k)).v.toNat)
    let h (k : Nat) : BitVec 16 := BitVec.ofInt 16 (if x.sat then clampTo 16 (q k) else q k)
    let k := bits b.opf.toNat 17 16
    let old := BitVec.ofNat 32 ((s.core n).val d)
    ∃ t, exec (.opExt16 core b) s = .next t ∧
      (t.core n).val d = (extractInto (bits b.opf.toNat 15 14) old (h k) (h (k + 1))).toNat ∧
      (x.sat = true → clampTo 16 (q k) ≠ q k → bit ((t.core n).val rSR) 4 = true) ∧ bundleFrame s t n b [d] ∧ goesOn s t n) ∧
  (∀ (s : State) (core : BitVec 6) (b : Bundle), s.executes core.toNat 0x51 b opExt32 →
    let n := core.toNat
    let x := (s.bundleStart n).bundleCtx n b
    let d := bits b.opf.toNat 21 18
    let a := sint 48 ((s.core n).seen (40 + bits b.opf.toNat 17 16)).v.toNat
    ∃ t, exec (.opExt32 core b) s = .next t ∧
      (t.core n).val d = (BitVec.ofInt 32 (if x.sat then clampTo 32 a else a)).toNat ∧
      (x.sat = true → clampTo 32 a ≠ a → bit ((t.core n).val rSR) 4 = true) ∧ bundleFrame s t n b [d] ∧ goesOn s t n) ∧
  (∀ (s : State) (core : BitVec 6) (b : Bundle), s.executes core.toNat 0x52 b opExtp →
    let n := core.toNat
    let x := (s.bundleStart n).bundleCtx n b
    let d := bits b.opf.toNat 21 18
    let k := bits b.opf.toNat 17 16
    let q := roundedAt 32 x.rnd (pairVal ((s.core n).seen (40 + 2 * k)).v.toNat ((s.core n).seen (41 + 2 * k)).v.toNat)
    ∃ t, exec (.opExtp core b) s = .next t ∧
      (t.core n).val d = (BitVec.ofInt 32 (if x.sat then clampTo 32 q else q)).toNat ∧
      (x.sat = true → clampTo 32 q ≠ q → bit ((t.core n).val rSR) 4 = true) ∧ bundleFrame s t n b [d] ∧ goesOn s t n)

/-- Shifting, normalising and extracting accumulators (R212 to R214). -/
def Obligations.AccumulatorsShiftAndExtract : Prop :=
  accumulatorsShiftAndNormalise ∧ extractionRoundsAndSaturates

/-! ### Signal cores: moves of registers, control flow, system and hub -/

/-- Immediate, register and absolute moves (R239, R245, R246, R250): NOP changes nothing of its own; MOVI writes a constant or the
upper half; MOV copies to a D register; SRBIT writes one bit of SR; LDX.A, LDY.A, STX.A and STY.A reach one word of X or Y. -/
def Obligations.MovesReachTheirRegister : Prop :=
  (∀ (s : State) (core : BitVec 6) (b : Bundle), s.executes core.toNat 0 b (opNop 0) →
    ∃ t, exec (.opNop core 0 b) s = .next t ∧ bundleFrame s t core.toNat b [] ∧ goesOn s t core.toNat) ∧
  (∀ (s : State) (core : BitVec 6) (b : Bundle), s.executes core.toNat 0x30 b opMovi →
    let n := core.toNat
    let d := bits b.opf.toNat 21 18
    let imm : BitVec 16 := b.opf.setWidth 16
    let old := (s.core n).reg d
    ∃ t, exec (.opMovi core b) s = .next t ∧
      (bits b.opf.toNat 17 16 = 0 → (t.core n).reg d = ⟨(imm.signExtend 32).setWidth 48, false⟩) ∧
      (bits b.opf.toNat 17 16 = 1 → (t.core n).reg d = ⟨imm.setWidth 48, false⟩) ∧
      (bits b.opf.toNat 17 16 = 2 → (t.core n).reg d = ⟨(imm ++ old.v.extractLsb' 0 16).setWidth 48, old.p⟩) ∧
      bundleFrame s t n b [d] ∧ goesOn s t n) ∧
  (∀ (s : State) (core : BitVec 6) (b : Bundle), s.executes core.toNat 0x31 b opMov →
    let n := core.toNat
    let d := bits b.opf.toNat 21 16
    let v := ((s.bundleStart n).core n).read (bits b.opf.toNat 15 10)
    ∃ t, exec (.opMov core b) s = .next t ∧
      (d < 16 → (t.core n).reg d = ⟨BitVec.ofNat 48 (v.v.toNat % 2 ^ 32), v.p⟩) ∧
      (d < 40 → bundleFrame s t n b [d]) ∧ (d < 40 → goesOn s t n)) ∧
  (∀ (s : State) (core : BitVec 6) (b : Bundle), s.executes core.toNat 0x32 b opSrbit →
    let n := core.toNat
    let k := bits b.opf.toNat 4 0
    ∃ t, exec (.opSrbit core b) s = .next t ∧ (k ≠ 10 → k ≠ 11 → bit ((t.core n).val rSR) k = bit b.opf.toNat 21) ∧
      bit ((t.core n).val rSR) 6 = false ∧
      (∀ j ∈ [0, 1, 2, 3, 4, 5, 8, 9, 10, 11, 12, 13, 20, 24, 25, 26, 27], j ≠ k →
        bit ((t.core n).val rSR) j = bit (((s.bundleStart n).core n).val rSR) j) ∧ bundleFrame s t n b [] ∧ goesOn s t n) ∧
  (∀ (y : Bool) (s : State) (core : BitVec 6) (b : Bundle),
    let n := core.toNat
    let r := bits b.opf.toNat 21 16
    let w := bits b.opf.toNat 15 0 / 4
    let v := ((s.bundleStart n).core n).read r
    (s.executes n (if y then 0x36 else 0x34) b (opLoadAbs y) → r < 16 →
      ∃ t, exec (if y then .opLdyA core b else .opLdxA core b) s = .next t ∧
        (t.core n).reg r = ⟨(((s.bundleStart n).core n).word y w).v.setWidth 48, (((s.bundleStart n).core n).word y w).p⟩ ∧
        bundleFrame s t n b [r] ∧ goesOn s t n) ∧
    (s.executes n (if y then 0x37 else 0x35) b (opStoreAbs y) →
      ∃ t, exec (if y then .opStyA core b else .opStxA core b) s = .next t ∧
        (t.core n).word y w = ⟨v.v.setWidth 32, v.p⟩ ∧
        (∀ u, u ≠ w → (t.core n).word y u = ((s.bundleStart n).core n).word y u) ∧
        (∀ k < 16, k ∉ moveWrites s n b → (t.core n).reg k = (s.core n).reg k) ∧
        (((s.bundleStart n).bundleMove n b !y).store = none →
          ∀ u, (t.core n).word (!y) u = ((s.bundleStart n).core n).word (!y) u) ∧
        goesOn s t n))

/-- The branches: command, opcode, meaning, and where each goes, given the core before it. -/
def branchRows : List ((BitVec 6 → Bundle → Instr) × Nat × (OpCtx → Fx) × (OpCtx → Nat)) := [
  (.opBr, 0x60, opBr, fun x => if condHolds x.brDs x.srv = some true then x.brTarget else (x.pc + 3) % 8192),
  (.opBrz, 0x61, opBrz, fun x => if (x.dReg x.brDs).1 = 0 then x.brTarget else (x.pc + 3) % 8192),
  (.opBrnz, 0x62, opBrnz, fun x => if (x.dReg x.brDs).1 = 0 then (x.pc + 3) % 8192 else x.brTarget),
  (.opCall, 0x63, opCall, fun x => x.brTarget),
  (.opJmp, 0x64, opJmp, fun x => (x.dReg x.brDs).1 % 8192),
  (.opCallr, 0x65, opCallr, fun x => (x.dReg x.brDs).1 % 8192)]

/-- Branches, loops and repeats (R219, R220, R244, R248): a branch goes on with two delay slots and then its target, or the
bundle after the slots where it is not taken; the calls leave that bundle's address in their link register; a loop sets LS,
LE and LC and skips its body at a count of 0; a repeat executes the next bundle n times, or skips it at 0. -/
def Obligations.ControlFlowGoesWhereItSays : Prop :=
  (∀ row ∈ branchRows, ∀ (s : State) (core : BitVec 6) (b : Bundle), s.executes core.toNat row.2.1 b row.2.2.1 →
    let n := core.toNat
    let x := (s.bundleStart n).bundleCtx n b
    let calls := row.2.1 = 0x63 ∨ row.2.1 = 0x65
    (s.core n).rep = 0 → ∃ t, exec (row.1 core b) s = .next t ∧
      (t.core n).br = some (2, row.2.2.2 x) ∧ (t.core n).val rPC = ((s.core n).val rPC + 1) % 8192 ∧
      (calls → (t.core n).reg x.brDl = ⟨BitVec.ofNat 48 (((s.core n).val rPC + 3) % 8192), false⟩ ∧
        bundleFrame s t n b [x.brDl]) ∧
      (¬ calls → bundleFrame s t n b [])) ∧
  (∀ row ∈ ([(Instr.opLoopi, 0x68, opLoopi, fun x => bits x.opf 21 13),
      (.opLoopd, 0x69, opLoopd, fun x => (x.dReg (bits x.opf 21 18)).1)] :
      List ((BitVec 6 → Bundle → Instr) × Nat × (OpCtx → Fx) × (OpCtx → Nat))),
    ∀ (s : State) (core : BitVec 6) (b : Bundle), s.executes core.toNat row.2.1 b row.2.2.1 →
    let n := core.toNat
    let x := (s.bundleStart n).bundleCtx n b
    let count := row.2.2.2 x
    let e := bits b.opf.toNat 12 0
    (s.core n).rep = 0 → (s.core n).br = none → ((s.core n).seen rLC).v = 0 →
    ∃ t, exec (row.1 core b) s = .next t ∧ (t.core n).val rLS = ((s.core n).val rPC + 1) % 8192 ∧
      (t.core n).val rLE = e ∧ (t.core n).val rLC = count ∧
      (t.core n).val rPC = (if count = 0 then (e + 1) % 8192 else ((s.core n).val rPC + 1) % 8192) ∧
      bundleFrame s t n b [rLS, rLE]) ∧
  (∀ row ∈ ([(Instr.opRepi, 0x6A, opRepi, fun x => bits x.opf 12 0),
      (.opRepd, 0x6B, opRepd, fun x => (x.dReg (bits x.opf 21 18)).1)] :
      List ((BitVec 6 → Bundle → Instr) × Nat × (OpCtx → Fx) × (OpCtx → Nat))),
    ∀ (s : State) (core : BitVec 6) (b : Bundle), s.executes core.toNat row.2.1 b row.2.2.1 →
    let n := core.toNat
    let x := (s.bundleStart n).bundleCtx n b
    let count := row.2.2.2 x
    (s.core n).rep = 0 → ∃ t, exec (row.1 core b) s = .next t ∧ count ≤ 4096 ∧ (t.core n).rep = count ∧
      (t.core n).val rPC = ((s.core n).val rPC + (if count = 0 then 2 else 1)) % 8192 ∧ bundleFrame s t n b [])

/-- No repeat, delay slot or loop end stands between a bundle and the next one. -/
def goesOnNext (s : State) (n : Nat) : Prop :=
  (s.core n).rep = 0 ∧ (s.core n).br = none ∧ ((s.core n).seen rLC).v = 0

/-- Entering and leaving modes (R222, R228, R232): TRAP saves the next bundle's address, SR and MODE, and goes to vector 48
privileged with EXL set and IE clear; SCALL goes to bundle 7,168 in secure mode; RTI and SRET go on with two delay slots, the
last of which brings back the PC, SR and MODE that were saved; WAIT gates the core. -/
def systemBundlesChangeMode : Prop :=
  (∀ (s : State) (core : BitVec 6) (b : Bundle), s.executes core.toNat 0x70 b opTrap →
    let n := core.toNat
    goesOnNext s n → ∃ t, exec (.opTrap core b) s = .next t ∧
      (t.core n).val rXPC = ((s.core n).val rPC + 1) % 8192 ∧ (t.core n).val rXCAUSE = 0x80 + bits b.opf.toNat 6 0 ∧
      (t.core n).val rXMODE = (s.core n).val rMODE ∧ (t.core n).val rMODE = 1 ∧ (t.core n).val rPC = 48 ∧
      bit ((t.core n).val rSR) 13 = true ∧ bit ((t.core n).val rSR) 12 = false ∧
      (∀ m, m ≠ n → t.core m = s.core m) ∧ t.mem = (s.bundleStart n).mem ∧ t.fab = (s.bundleStart n).fab) ∧
  (∀ (s : State) (core : BitVec 6) (b : Bundle), s.executes core.toNat 0x71 b opScall →
    let n := core.toNat
    goesOnNext s n → ∃ t, exec (.opScall core b) s = .next t ∧
      (t.core n).val rXPC = ((s.core n).val rPC + 1) % 8192 ∧ (t.core n).val rXMODE = (s.core n).val rMODE ∧
      (t.core n).val rMODE = 2 ∧ (t.core n).val rPC = 7168 ∧ bit (s.rd F.SC_SEC.PAGES n) 7 = true ∧
      (∀ m, m ≠ n → t.core m = s.core m) ∧ t.mem = (s.bundleStart n).mem ∧ t.fab = (s.bundleStart n).fab) ∧
  (∀ row ∈ ([(Instr.opSret, 0x72, opSret), (.opRti, 0x73, opRti)] : List ((BitVec 6 → Bundle → Instr) × Nat × (OpCtx → Fx))),
    ∀ (s : State) (core : BitVec 6) (b : Bundle), s.executes core.toNat row.2.1 b row.2.2 →
    let n := core.toNat
    (s.core n).rep = 0 → ∃ t, exec (row.1 core b) s = .next t ∧
      (t.core n).br = some (2, ((s.core n).seen rXPC).v.toNat) ∧
      (t.core n).back = some ((s.core n).seen rXSR, ((s.core n).seen rXMODE).v.toNat) ∧ bundleFrame s t n b []) ∧
  (∀ (s : State) (core : BitVec 6) (b : Bundle) (target mode : Nat) (sr : CReg), s.executes core.toNat 0 b (opNop 0) →
    let n := core.toNat
    (s.core n).rep = 0 → (s.core n).br = some (1, target) → (s.core n).back = some (sr, mode) → mode < 4 →
    ∃ t, exec (.opNop core 0 b) s = .next t ∧ (t.core n).val rPC = target % 8192 ∧ (t.core n).val rMODE = mode ∧
      (∀ k < 14, bit ((t.core n).val rSR) k = bit sr.v.toNat k) ∧ (t.core n).br = none ∧ (t.core n).back = none ∧
      bundleFrame s t n b [rMODE]) ∧
  (∀ (s : State) (core : BitVec 6) (b : Bundle), s.executes core.toNat 0x74 b opWait →
    let n := core.toNat
    ∃ t, exec (.opWait core b) s = .next t ∧ t.coreState n = 4 ∧ (s.core n).val rMODE ≠ 0 ∧ bundleFrame s t n b [] ∧
      goesOn s t n)

/-- Hub operations (R208, R226, R229 to R232): GET, ALLOC and a full queue block the core at its bundle; SWI raises line 3 of
its target; DONE closes the open task with Dn's status; FREE joins the hub queue and XFER the transfer queue, and XWAIT goes
on once few enough transfers are left. -/
def hubOperationsQueueAndBlock : Prop :=
  (∀ (s : State) (core : BitVec 6) (b : Bundle),
    let n := core.toNat
    s.atBundle n 0x78 b → b.opf = 0 → b.xmv = 0 → b.ymv = 0 → (s.core n).br = none →
    s.rdb F.SC_STATUS.TASK n = false → ∃ t, exec (.opGet core b) s = .next t ∧ t.coreState n = 2 ∧
      (∀ k, k ≠ rSR → (t.core n).reg k = (s.core n).reg k) ∧ (∀ m, m ≠ n → t.core m = s.core m) ∧
      t.mem = (s.bundleStart n).mem) ∧
  (∀ (s : State) (core : BitVec 6) (b : Bundle),
    let n := core.toNat
    s.atBundle n 0x7A b → bits b.opf.toNat 17 3 = 0 → b.xmv = 0 → b.ymv = 0 → (s.core n).br = none →
    ∃ t, exec (.opAlloc core b) s = .next t ∧ t.coreState n = 3 ∧ (t.core n).alloc = some (bits b.opf.toNat 2 0) ∧
      (∀ k, k ≠ rSR → (t.core n).reg k = (s.core n).reg k) ∧ (∀ m, m ≠ n → t.core m = s.core m) ∧
      t.mem = (s.bundleStart n).mem) ∧
  (∀ (s : State) (core : BitVec 6) (b : Bundle), s.executes core.toNat 0x75 b opSwi → (s.core core.toNat).hub = [] →
    let n := core.toNat
    let k := bits b.opf.toNat 6 0
    ∃ t, exec (.opSwi core b) s = .next t ∧ k < 64 ∧ bit (t.rd F.SC_IRQ_PEND.PEND k) 3 = true ∧
      (∀ m, m < 64 → m ≠ k → t.rd F.SC_IRQ_PEND.PEND m = s.rd F.SC_IRQ_PEND.PEND m) ∧ bundleFrame s t n b [] ∧ goesOn s t n) ∧
  (∀ (s : State) (core : BitVec 6) (b : Bundle), s.executes core.toNat 0x79 b opDone →
    let n := core.toNat
    ∃ t, exec (.opDone core b) s = .next t ∧ (s.core n).xq = [] ∧ s.rdb F.SC_STATUS.TASK n = true ∧
      (s.openTask n = none → t.mem = s.mem ∧ goesOn s t n) ∧
      (∀ k, s.openTask n = some k → t.rd F.SC_STATUS.TASK n = 0 ∧
        ∀ x ∈ t.dsp.tasks, x.slot = k.slot → x.phase ≠ .running)) ∧
  (∀ (s : State) (core : BitVec 6) (b : Bundle), s.executes core.toNat 0x7B b opFree →
    let n := core.toNat
    let d := (s.core n).val (bits b.opf.toNat 21 18) % 2 ^ 32
    (s.core n).hub = [] → ∃ t, exec (.opFree core b) s = .next t ∧
      (t.core n).hub = [.free d false (bits b.opf.toNat 6 0)] ∧ (∀ m, m ≠ n → t.core m = s.core m) ∧
      t.mem = (s.bundleStart n).mem ∧ goesOn s t n) ∧
  (∀ (s : State) (core : BitVec 6) (b : Bundle), s.executes core.toNat 0x7C b opXfer →
    let n := core.toNat
    let x := (s.bundleStart n).bundleCtx n b
    ∃ t, exec (.opXfer core b) s = .next t ∧
      (t.core n).xq = ((s.bundleStart n).core n).xq ++ [⟨x.sy.dir, x.sy.sp, ((s.core n).seen (16 + x.sy.an)).v.toNat,
        (x.dReg x.sy.r1).1, (x.dReg x.sy.r2).1, x.sy.irq, (s.core n).val rMODE == 2, 0⟩] ∧
      (t.core n).xq.length ≤ 8 ∧ (∀ m, m ≠ n → t.core m = s.core m) ∧ t.mem = (s.bundleStart n).mem ∧ goesOn s t n) ∧
  (∀ (s : State) (core : BitVec 6) (b : Bundle), s.executes core.toNat 0x7D b opXwait →
    let n := core.toNat
    ∃ t, exec (.opXwait core b) s = .next t ∧ (s.core n).xq.length ≤ bits b.opf.toNat 6 0 ∧ bundleFrame s t n b [] ∧
      goesOn s t n)

/-- System bundles and hub operations (R208, R226, R229 to R232). -/
def Obligations.SystemAndHubBundlesTakeEffect : Prop :=
  systemBundlesChangeMode ∧ hubOperationsQueueAndBlock

/-! ### Signal cores: exceptions and events -/

/-- The operations of Tables ISA-8 and ISA-9: command, opcode and meaning. -/
def arithmeticOps : List ((BitVec 6 → Bundle → Instr) × Nat × (OpCtx → Fx)) := [
  (.opAdd, 0x01, opAdd), (.opAdc, 0x02, opAdc), (.opSub, 0x03, opSub), (.opSbc, 0x04, opSbc), (.opAnd, 0x05, opAnd),
  (.opOr, 0x06, opOr), (.opXor, 0x07, opXor), (.opAndn, 0x08, opAndn), (.opMin, 0x09, opMin), (.opMax, 0x0A, opMax),
  (.opAbs, 0x0B, opAbs), (.opNeg, 0x0C, opNeg), (.opCmp, 0x0D, opCmp), (.opTst, 0x0E, opTst), (.opLsl, 0x0F, opLsl),
  (.opLsr, 0x10, opLsr), (.opAsr, 0x11, opAsr), (.opRor, 0x12, opRor), (.opAdds, 0x13, opAdds),
  (.opSubs, 0x14, opSubs), (.opAdd2, 0x15, opAdd2), (.opSub2, 0x16, opSub2), (.opAdds2, 0x17, opAdds2),
  (.opSubs2, 0x18, opSubs2), (.opAsr2, 0x19, opAsr2), (.opSwaph, 0x1A, opSwaph), (.opConj, 0x1B, opConj),
  (.opMull, 0x1C, opMull), (.opBtst, 0x1D, opBtst), (.opBset, 0x1E, opBset), (.opBclr, 0x1F, opBclr),
  (.opAddi, 0x20, opAddi), (.opCmpi, 0x21, opCmpi), (.opAndi, 0x22, opAndi), (.opOri, 0x23, opOri),
  (.opXori, 0x24, opXori), (.opTsti, 0x25, opTsti), (.opLsli, 0x26, opLsli), (.opLsri, 0x27, opLsri),
  (.opAsri, 0x28, opAsri), (.opRori, 0x29, opRori), (.opBtsti, 0x2A, opBtsti), (.opBseti, 0x2B, opBseti),
  (.opBclri, 0x2C, opBclri), (.opAsr2i, 0x2D, opAsr2i), (.opMovi, 0x30, opMovi), (.opMov, 0x31, opMov),
  (.opSrbit, 0x32, opSrbit), (.opLdxA, 0x34, (opLoadAbs false))]

/-- The operations of Tables ISA-10 to ISA-12. -/
def otherOps : List ((BitVec 6 → Bundle → Instr) × Nat × (OpCtx → Fx)) := [
  (.opStxA, 0x35, (opStoreAbs false)), (.opLdyA, 0x36, (opLoadAbs true)), (.opStyA, 0x37, (opStoreAbs true)),
  (.opQmac, 0x40, opQmac), (.opCmac, 0x41, opCmac), (.opWmac, 0x42, opWmac), (.opDmac, 0x43, opDmac),
  (.opAclr, 0x48, opAclr), (.opAadd, 0x49, opAadd), (.opAsh, 0x4A, opAsh), (.opAld, 0x4B, opAld),
  (.opNorm, 0x4C, opNorm), (.opExp, 0x4D, opExp), (.opBexp, 0x4E, opBexp), (.opExt16, 0x50, opExt16),
  (.opExt32, 0x51, opExt32), (.opExtp, 0x52, opExtp), (.opBr, 0x60, opBr), (.opBrz, 0x61, opBrz),
  (.opBrnz, 0x62, opBrnz), (.opCall, 0x63, opCall), (.opJmp, 0x64, opJmp), (.opCallr, 0x65, opCallr),
  (.opLoopi, 0x68, opLoopi), (.opLoopd, 0x69, opLoopd), (.opRepi, 0x6A, opRepi), (.opRepd, 0x6B, opRepd),
  (.opTrap, 0x70, opTrap), (.opScall, 0x71, opScall), (.opSret, 0x72, opSret), (.opRti, 0x73, opRti),
  (.opWait, 0x74, opWait), (.opSwi, 0x75, opSwi), (.opGet, 0x78, opGet), (.opDone, 0x79, opDone),
  (.opAlloc, 0x7A, opAlloc), (.opFree, 0x7B, opFree), (.opXfer, 0x7C, opXfer), (.opXwait, 0x7D, opXwait)]

/-- Every bundle (R210, R222, R223, R227, R253, R263): the one that PRAM holds at the core's program counter, on a valid and
allowed page, takes effect where nothing in it raises or blocks; the first cause that applies is taken at vector 8 with
the address, status and mode saved and no register of data changed; with EXL set the core is FAULTED; any other bundle does
nothing. -/
def Obligations.BundlesRunOrRaise : Prop :=
  ∀ row ∈ arithmeticOps ++ otherOps, ∀ (s : State) (core : BitVec 6) (b : Bundle),
    let n := core.toNat
    let faults := (s.bundleStart n).bundleFaults n row.2.1 b (s.effect n b row.2.2)
    (s.executes n row.2.1 b row.2.2 → exec (row.1 core b) s = .next (s.bundleDone n b row.2.2)) ∧
    (s.coreReady n = false → exec (row.1 core b) s = .next s) ∧
    (s.pageValid n = true → s.pageDenied n = false → s.fetches n (bundleWord row.2.1 b) = false →
      exec (row.1 core b) s = .next s) ∧
    (∀ cause, (s.atBundle n row.2.1 b ∧ firstFault faults = some cause) ∨
        (s.coreReady n = true ∧ s.pageValid n = false ∧ cause = xPAGE) ∨
        (s.coreReady n = true ∧ s.pageValid n = true ∧ s.pageDenied n = true ∧ cause = xSECURITY) →
      (bit ((s.core n).val rSR) 13 = false → ∃ t, exec (row.1 core b) s = .next t ∧
        (t.core n).val rXPC = (s.core n).val rPC ∧ (t.core n).val rXCAUSE = cause ∧
        (t.core n).val rXMODE = (s.core n).val rMODE ∧
        (∀ k < 14, bit ((t.core n).val rXSR) k = bit ((s.core n).val rSR) k) ∧ (t.core n).val rPC = 8 ∧
        (t.core n).val rMODE = 1 ∧ bit ((t.core n).val rSR) 13 = true ∧ bit ((t.core n).val rSR) 12 = false ∧
        (t.core n).rep = 0 ∧ (t.core n).br = none ∧ t.rd F.SC_EXC.CAUSE n = cause ∧ t.coreState n = 1 ∧
        (∀ k < 16, (t.core n).reg k = (s.core n).reg k) ∧ (∀ m, m ≠ n → t.core m = s.core m) ∧
        ((s.core n).xq = [] → (t.core n).x = (s.core n).x ∧ (t.core n).y = (s.core n).y ∧ t.mem = s.mem ∧ t.fab = s.fab)) ∧
      (bit ((s.core n).val rSR) 13 = true → ∃ t, exec (row.1 core b) s = .next t ∧ t.coreState n = 6))

/-- What happens to a core between its bundles (R208, R209, R221, R222, R231 to R233, R260, R361): interrupts and the transfer
exception are taken where they qualify, a halt where it was asked for; requests set their line's pending bit; the head
transfer leaves its queue with its words in place; pools give and take buffers. -/
def Obligations.CoreEventsAreTaken : Prop :=
  (∀ (s : State) (core : BitVec 6),
    let n := core.toNat
    (∀ k, s.atBoundary n = true → s.lineQualifies n = some k → ∃ t, exec (.interruptEntry core) s = .next t ∧
      (t.core n).val rXPC = (s.core n).val rPC ∧ (t.core n).val rPC = 16 + 8 * k ∧ (t.core n).val rMODE = 1 ∧
      (t.core n).val rXMODE = (s.core n).val rMODE ∧ bit ((t.core n).val rSR) 13 = true ∧
      bit ((t.core n).val rSR) 12 = false ∧ bit (t.rd F.SC_IRQ_PEND.PEND n) k = false ∧ (t.core n).alloc = none ∧
      (∀ m, m ≠ n → t.core m = s.core m) ∧ t.mem = s.mem ∧ t.fab = s.fab) ∧
    (s.atBoundary n = false ∨ s.lineQualifies n = none → exec (.interruptEntry core) s = .next s) ∧
    (s.atBoundary n = true → (s.core n).xferExc = true → bit ((s.core n).val rSR) 13 = false →
      ∃ t, exec (.xferExceptionTaken core) s = .next t ∧ (t.core n).val rXCAUSE = xXFER ∧ (t.core n).val rPC = 8 ∧
        (t.core n).xferExc = false ∧ (t.core n).val rXPC = (s.core n).val rPC ∧ (∀ m, m ≠ n → t.core m = s.core m)) ∧
    (s.atBoundary n = true → (s.core n).halting = true → ∃ t, exec (.coreHalt core) s = .next t ∧ t.coreState n = 5 ∧
      (t.core n).halting = false) ∧
    ((s.core n).halting = false → exec (.coreHalt core) s = .next s) ∧
    (s.hostOpen = true → ∃ t, exec (.softwareInterruptDoorbell core) s = .next t ∧
      bit (t.rd F.SC_IRQ_PEND.PEND n) 3 = true ∧ t.units = s.units ∧ t.host = s.host)) ∧
  (∀ (s : State) (h : BitVec 4), s.alive = true →
    (s.ela.hubRise.getLsbD h.toNat = true → ∃ t, exec (.hubSignalInterrupt h) s = .next t ∧
      (∀ m, m < 64 → m / 4 = h.toNat → bit (t.rd F.SC_IRQ_PEND.PEND m) 0 = true) ∧
      (∀ m, m < 64 → m / 4 ≠ h.toNat → t.rd F.SC_IRQ_PEND.PEND m = s.rd F.SC_IRQ_PEND.PEND m) ∧
      t.ela.hubRise.getLsbD h.toNat = false ∧ t.ela.hubOut = s.ela.hubOut ∧ t.cores = s.cores ∧ t.mem = s.mem ∧
      t.fab = s.fab ∧ t.host = s.host) ∧
    (s.ela.hubRise.getLsbD h.toNat = false → exec (.hubSignalInterrupt h) s = .next s)) ∧
  (∀ (s : State) (core : BitVec 6) (x : Xfer) (l : List Xfer), s.alive = true →
    let n := core.toNat
    (s.core n).xq = x :: l → x.toFar = false → x.far < windowBase → x.secure = true →
    s.memWaits (reqCore n) (x.far * 16) x.len = false →
    let r := s.memRead (reqCore n) (x.far * 16 + x.done) (x.len - x.done)
    ∃ t, exec (.transferComplete core) s = .next t ∧ (t.core n).xq = l ∧
      (∀ k, 4 * k + 4 ≤ r.bytes.length →
        (t.core n).word x.space ((x.local_ + x.done) / 4 + k) = wordOf ((r.bytes.drop (4 * k)).take 4)) ∧
      (x.irq = true → bit (t.rd F.SC_IRQ_PEND.PEND n) 1 = true) ∧ (∀ m, m ≠ n → t.core m = s.core m)) ∧
  (∀ (s : State) (core : BitVec 6), s.alive = true → (s.core core.toNat).xq = [] →
    exec (.transferComplete core) s = .next s) ∧
  (∀ (s : State) (core : BitVec 6) (p : Nat), s.alive = true →
    let n := core.toNat
    (s.core n).alloc = some p →
    let w := (Sparse.get (fun _ => (0 : BitVec 64)) (s.core n).pram ((s.core n).val rPC)).toNat
    ∃ t, exec (.poolAllocResponse core) s = .next t ∧ (t.core n).alloc = none ∧
      (t.core n).reg (bits w 55 52) = ⟨BitVec.ofNat 48 ((s.poolAlloc p).1 % 2 ^ 32), false⟩ ∧
      bit ((t.core n).val rSR) 0 = (s.poolList p).isEmpty ∧ t.poolList p = (s.poolList p).drop 1 ∧ goesOn s t n ∧
      (∀ m, m ≠ n → t.core m = s.core m)) ∧
  (∀ (s : State) (core : BitVec 6) (a k : Nat), s.alive = true →
    let n := core.toNat
    (s.core n).hub = [.free a false k] →
    (s.poolReject k a false = none → ∃ t, exec (.poolFree core) s = .next t ∧ (t.core n).hub = [] ∧
      t.poolList k = s.poolList k ++ [a] ∧ (∀ j, j ≠ k → t.poolList j = s.poolList j) ∧ t.events = s.events) ∧
    (s.poolReject k a false ≠ none → ∃ t, exec (.poolFree core) s = .next t ∧ (t.core n).hub = [] ∧
      t.poolList k = s.poolList k ∧
      (s.recovery = false → t.events.map (·.code) = 0x0308 :: s.events.map (·.code))))
/-! ### The work dispatcher -/

/-- Submissions (R255 to R260, R269): an acceptable descriptor takes the lowest free slot and the next number of its flow,
behind every earlier task; a bad one completes RANGE and one without room BUSY. A core's submission and a doorbell's template,
on a rising edge of the doorbell's hub output, are offered alike, refused ones being dropped with their event. -/
def Obligations.SubmissionsAreAccepted : Prop :=
  (∀ (s : State) (ref : CmdRef) (desc : List Byte), s.takes ref 0x0701 →
    let u := s.accept ref 0x0701
    let k := taskOf (.host ref) (padTo 64 desc)
    (u.descOk k (padTo 64 desc) = true → u.hasRoom k.flow = true → ∃ t, exec (.dspSubmit ref desc) s = .next t ∧
      (∃ x ∈ t.dsp.tasks, x.slot = s.freeSlot ∧ x.phase = .queued ∧ x.flow = k.flow ∧ x.code = k.code ∧ x.prio = k.prio ∧
        x.seq = Sparse.get (fun _ => 0) s.dsp.seq k.flow ∧ x.producer = .host ref) ∧
      t.dsp.tasks.map (·.slot) = s.dsp.tasks.map (·.slot) ++ [s.freeSlot] ∧
      (∀ x ∈ s.dsp.tasks, x.slot ≠ s.freeSlot) ∧
      Sparse.get (fun _ => 0) t.dsp.seq k.flow = (Sparse.get (fun _ => 0) s.dsp.seq k.flow + 1) % 2 ^ 16 ∧
      (∀ f, f ≠ k.flow → Sparse.get (fun _ => 0) t.dsp.seq f = Sparse.get (fun _ => 0) s.dsp.seq f)) ∧
    (u.descOk k (padTo 64 desc) = false → exec (.dspSubmit ref desc) s = .next (u.complete ref stRange)) ∧
    (u.descOk k (padTo 64 desc) = true → u.hasRoom k.flow = false →
      exec (.dspSubmit ref desc) s = .next (u.complete ref stBusy))) ∧
  (∀ (s u : State) (core : BitVec 6) (x : Xfer) (d : List PByte),
    s.windowTake core.toNat 0xFFFF0000 (2 ^ 32) 64 = some (x, d, u) → poisoned d = false →
    let k := taskOf (.core core.toNat) (plain d)
    (u.descOk k (plain d) = true → u.hasRoom k.flow = true →
      exec (.submissionWindowWrite core) s = .next (u.acceptTask k (plain d)).2) ∧
    (u.descOk k (plain d) = false ∨ u.hasRoom k.flow = false →
      exec (.submissionWindowWrite core) s = .next ((u.submitRefused core.toNat).xferError core.toNat))) ∧
  (∀ (s : State) (d : BitVec 4), s.alive = true →
    let v := s.setEla { s.ela with hubRise := s.ela.hubRise &&& ~~~(BitVec.ofNat 32 (2 ^ (16 + d.toNat))) }
    let f := v.fetchDesc (s.rd F.DSP_PROD.TEMPLATE (336 + d.toNat) * 4)
    let k := taskOf (.entry (336 + d.toNat)) f.1
    (s.ela.hubRise.getLsbD (16 + d.toNat) = false → exec (.elaDoorbell d) s = .next s) ∧
    (s.ela.hubRise.getLsbD (16 + d.toNat) = true → s.rdb F.DSP_PROD.EN (336 + d.toNat) = false →
      exec (.elaDoorbell d) s = .next v) ∧
    (s.ela.hubRise.getLsbD (16 + d.toNat) = true → s.rdb F.DSP_PROD.EN (336 + d.toNat) = true → f.2.1 = false →
      (f.2.2.descOk k f.1 = true → f.2.2.hasRoom k.flow = true →
        exec (.elaDoorbell d) s = .next (f.2.2.acceptTask k f.1).2) ∧
      (f.2.2.descOk k f.1 = false ∨ f.2.2.hasRoom k.flow = false →
        exec (.elaDoorbell d) s = .next (f.2.2.producerDrop (336 + d.toNat)))))

/-- PITCH and PAGE_LOAD (R262, R263): the task granted is queued, ready, allowed on its core, and no ready task before it in
the order of priority and acceptance could be granted; its core waits in GET. Where pages are missing the core is reserved and
they load one at a time; the last one, or none missing, gives the core its task: D13 the entry point, D14 the tag, D15 the
descriptor's address. -/
def Obligations.GrantsFollowTheOrderOfReadyTasks : Prop :=
  (∀ s : State, s.alive = true → (∀ k ∈ s.readyTasks, s.chooseCore k (s.objOf k.code) = none) → exec .pitch s = .next s) ∧
  (∀ (s : State) (l : List Task) (k : Task) (r : List Task) (n : Nat), s.alive = true → s.readyTasks = l ++ k :: r →
    (∀ x ∈ l, s.chooseCore x (s.objOf x.code) = none) → s.chooseCore k (s.objOf k.code) = some n →
    (s.missing n k.code (s.objOf k.code) ≠ [] → ∃ t, exec .pitch s = .next t ∧
      (∃ x ∈ t.dsp.tasks, x.slot = k.slot ∧ x.core = n ∧ x.phase = .loading) ∧
      t.dsp.tasks.length = s.dsp.tasks.length ∧ t.core n = s.core n ∧ t.getWaits n = false ∧ t.mem = s.mem ∧ t.host = s.host) ∧
    k.allows n = true ∧ n < 64 ∧ s.getWaits n = true ∧ s.eligible n k.code (s.objOf k.code) = true ∧ s.taskReady k = true) ∧
  (∀ (s : State) (n : Nat) (k : Task) (o : CodeObj), n < 64 →
    let t := s.getReturn n k o
    (t.core n).val 13 = (1024 * o.home + o.entry) % 2 ^ 32 ∧ (t.core n).val 14 = k.tag % 2 ^ 32 ∧
      (t.core n).val 15 = s.descFar k.slot % 2 ^ 32 ∧ t.rdb F.SC_STATUS.TASK n = true ∧
      t.rd F.SC_TASK.TAG n = k.tag % 2 ^ 32 ∧ Sparse.find t.mem.descs n = some (s.descFar k.slot)) ∧
  (∀ (s : State) (core : BitVec 6) (k : Task) (p : Nat) (l : List Nat), s.alive = true →
    (s.dsp.tasks.find? fun t => t.core == core.toNat && t.phase == .loading) = some k →
    let n := core.toNat
    let o := s.objOf k.code
    let r := s.loadPage n p k.code o
    let t := r.2.sat F.DSP_CORE_PMISS.COUNT n
    s.missing n k.code o = p :: l → p < 8 → s.pageWaits k.code p = false → s.eligible n k.code o = true → r.1 = true →
    (l ≠ [] → exec (.pageLoad core) s = .next t) ∧ (l = [] → exec (.pageLoad core) s = .next (t.getReturn n k o)) ∧
    t.pageHolds n p k.code = true ∧ t.rd F.DSP_CORE_PMISS.COUNT n = min (s.rd F.DSP_CORE_PMISS.COUNT n + 1) (2 ^ 32 - 1))

/-- Cancellation, code objects and resets (R268 to R272): a queued task is removed and ends CANCELLED, a granted one is flagged
and raises its core's line 2, an ended or unknown one refuses; objects are checked before they are defined; a preload with
nothing to load and a reset of idle flows complete DONE; DSP_CNT_CLR clears the counters. -/
def Obligations.DispatcherCommandsComplete : Prop :=
  (∀ (s : State) (ref : CmdRef) (flow seq : BitVec 16), s.takes ref 0x0702 → flow.toNat ≤ 511 →
    let u := s.accept ref 0x0702
    let v := (u.cancelTask flow.toNat seq.toNat).2
    ((∀ k ∈ s.dsp.tasks, ¬ (k.flow = flow.toNat ∧ k.seq = seq.toNat)) →
      exec (.dspCancel ref flow seq) s = .next (u.complete ref stRefused)) ∧
    (∀ k, (s.dsp.tasks.find? fun k => k.flow == flow.toNat && k.seq == seq.toNat) = some k →
      (k.phase = .queued → exec (.dspCancel ref flow seq) s = .next (v.complete ref stDone 0)) ∧
      (k.phase = .running ∨ k.phase = .loading → exec (.dspCancel ref flow seq) s = .next (v.complete ref stDone 1) ∧
        (k.core < 64 → bit (v.rd F.SC_IRQ_PEND.PEND k.core) 2 = true) ∧
        (∃ x ∈ v.dsp.tasks, x.slot = k.slot ∧ x.cancelSeen = true ∧ x.phase = k.phase)) ∧
      (k.phase = .ended → exec (.dspCancel ref flow seq) s = .next (u.complete ref stRefused)))) ∧
  (∀ (s : State) (tag : BitVec 32), s.bar0Open 0x80010 = true →
    exec (.dspCancelReq tag) s = .next (s.cancelTask (bits tag.toNat 24 16) (bits tag.toNat 15 0)).2) ∧
  (∀ (s : State) (ref : CmdRef) (i : BitVec 16) (e : List Byte), s.takes ref 0x0703 → i.toNat ≤ 4095 →
    let d := padTo 16 e
    let u := s.accept ref 0x0703
    let o := codeObjOf d
    fieldAt d 5 1 = 0 → bits (fieldAt d 6 2) 15 13 = 0 → fieldAt d 8 8 = 0 →
    ((∃ k ∈ s.dsp.tasks, k.code = i.toNat) → exec (.dspCodeDefine ref i e) s = .next (u.complete ref stBusy)) ∧
    ((∀ k ∈ s.dsp.tasks, k.code ≠ i.toNat) → u.objPages i.toNat = [] →
      (8 < o.home + o.npages ∨ o.npages = 0 ∨ 4 < o.npages ∨ o.far % 512 ≠ 0 →
        exec (.dspCodeDefine ref i e) s = .next (u.complete ref stCheckFailed)) ∧
      (o.home + o.npages ≤ 8 → o.npages ≠ 0 → o.npages ≤ 4 → o.far % 512 = 0 →
        u.rdb F.SEC_FUSE_STAT.REQ_CODE = false → o.secure = false →
        let r := u.memRead reqPager (o.far * 16) (o.npages * 8192 + 256)
        fieldAt ((plain r.bytes).drop (o.npages * 8192)) 0 4 ≠ 0x47495343 →
        ∃ t v : State, exec (.dspCodeDefine ref i e) s = .next t ∧ t = v.complete ref stDone ∧
          v.rd F.SEC_CODE_COUNT.COUNT = (s.rd F.SEC_CODE_COUNT.COUNT + 1) % 2 ^ 32 ∧
          v.mem = (r.s.put reqPager ((r.s.rd F.DSP_COT.BASE + i.toNat) * 16) d).mem ∧ v.dsp = s.dsp))) ∧
  (∀ (s : State) (ref : CmdRef) (i : BitVec 16) (m : BitVec 64), s.takes ref 0x0704 → i.toNat ≤ 4095 → m ≠ 0 →
    let u := s.accept ref 0x0704
    let left := (maskBits 64 m.toNat).flatMap fun n => (u.missing n i.toNat (u.objOf i.toNat)).map fun k => (n, k)
    u.codeValid i.toNat = true →
    (∀ n ∈ maskBits 64 m.toNat, u.eligible n i.toNat (u.objOf i.toNat) = true ∧ u.islandOff n = false) →
    (left = [] → exec (.dspPreload ref i m) s = .next (u.complete ref stDone)) ∧
    (left ≠ [] → ∃ t, exec (.dspPreload ref i m) s = .next t ∧ t.dsp.preloads = s.dsp.preloads ++ [⟨ref, i.toNat, left⟩] ∧
      t.dsp.tasks = s.dsp.tasks ∧ t.mem = s.mem ∧ t.cores = s.cores)) ∧
  (∀ (s : State) (ref : CmdRef) (first : BitVec 16) (m : BitVec 64), s.takes ref 0x0705 → first.toNat % 64 = 0 →
    first.toNat ≤ 448 →
    let hit (f : Nat) : Bool := decide (first.toNat ≤ f) && decide (f < first.toNat + 64) && m.getLsbD (f - first.toNat)
    ((∃ k ∈ s.dsp.tasks, hit k.flow = true) →
      exec (.dspFlowReset ref first m) s = .next ((s.accept ref 0x0705).complete ref stRefused)) ∧
    ((∀ k ∈ s.dsp.tasks, hit k.flow = false) → ∃ t u : State, exec (.dspFlowReset ref first m) s = .next t ∧
      t = u.complete ref stDone ∧ u.dsp.tasks = s.dsp.tasks ∧
      ∀ f, Sparse.get (fun _ => 0) u.dsp.seq f = if hit f then 0 else Sparse.get (fun _ => 0) s.dsp.seq f)) ∧
  (∀ (s : State) (v : BitVec 32), s.bar0Open 0x89000 = true →
    (v.getLsbD 0 = true → ∃ t, exec (.dspCntClr v) s = .next t ∧
      (∀ n, n < 64 → t.rd64 F.DSP_CORE_BUSY_LO.CYCLES n = 0 ∧ t.rd64 F.DSP_CORE_GETW_LO.CYCLES n = 0 ∧
        t.rd F.DSP_CORE_TASKS.COUNT n = 0 ∧ t.rd F.DSP_CORE_PMISS.COUNT n = 0) ∧
      (∀ p, p < 8 → t.rd F.DSP_Q_DEPTH.MAX p = 0 ∧ ∀ b, b < 16 → t.rd F.DSP_Q_HIST.COUNT p b = 0) ∧
      (∀ q, q < 16 → t.rd F.DSP_CQ_CFG.DROPS q = 0) ∧ t.host = s.host ∧ t.mem = s.mem ∧ t.cores = s.cores ∧ t.fab = s.fab ∧
      t.dsp.tasks = s.dsp.tasks ∧ t.dsp.seq = s.dsp.seq) ∧
    (v.getLsbD 0 = false → exec (.dspCntClr v) s = .next s))
/-! ### The radio engine -/

/-- Cell timing (R285, R286): a due boundary of an enabled domain, not passed before, sets its frame and slot; a due timer
counts a firing, remembers the boundary, one congruent to PHASE for which it has not fired, and offers its producer entry's
template with the instant added to DEADLINE. -/
def Obligations.BoundariesAndTimersFire : Prop :=
  (∀ (s : State) (domain : BitVec 4), s.alive = true →
    let d := domain.toNat
    let n := (s.now - s.boundary d 0) / s.domPeriod d
    (s.rdb F.RAD_DOM_CFG.EN d = true → s.boundary d 0 ≤ s.now → (∀ k, Sparse.find s.rad.doms d = some k → k < n) →
      Sparse.get (fun _ => 0) s.rad.domAt d < s.boundary d n → ∃ t, exec (.domainSlotBoundary domain) s = .next t ∧
        t.rd F.RAD_DOM_NOW.FRAME d = n / s.domSlots d % 2 ^ 10 ∧ t.rd F.RAD_DOM_NOW.SLOT d = n % s.domSlots d % 2 ^ 16 ∧
        Sparse.find t.rad.doms d = some n ∧ (∀ e, e ≠ d → Sparse.find t.rad.doms e = Sparse.find s.rad.doms e) ∧
        t.rad.tmrs = s.rad.tmrs ∧ t.mem = s.mem ∧ t.events = s.events ∧ t.host = s.host) ∧
    (s.rdb F.RAD_DOM_CFG.EN d = false ∨ s.now < s.boundary d 0 ∨ Sparse.find s.rad.doms d = some n →
      exec (.domainSlotBoundary domain) s = .next s)) ∧
  (∀ (s : State) (timer : BitVec 6), s.alive = true →
    let k := timer.toNat
    let key := k * 16 + s.rd F.RAD_TMR_CFG.DOMAIN k
    (s.timerNext k = none → exec (.slotTimerFire timer) s = .next s) ∧
    (∀ f, s.timerNext k = some f →
      f.1 % s.rd F.RAD_TMR_CFG.EVERY k = s.rd F.RAD_TMR_CFG.PHASE k ∧ f.1 ∉ s.tmrFired k ∧
      (s.rdb F.RAD_TMR_CFG.EN k = false ∨ (s.now : Int) < f.2 → exec (.slotTimerFire timer) s = .next s)) ∧
    (∀ f, s.timerNext k = some f → s.rdb F.RAD_TMR_CFG.EN k = true → f.2 ≤ (s.now : Int) →
      let u := (s.setRad { s.rad with tmrs := Sparse.insert s.rad.tmrs key (f.1 :: s.tmrFired k) }).inc F.RAD_TMR_FIRES.COUNT k
      u.rd F.RAD_TMR_FIRES.COUNT k = (s.rd F.RAD_TMR_FIRES.COUNT k + 1) % 2 ^ 32 ∧
      (s.rdb F.DSP_PROD.EN k = false → exec (.slotTimerFire timer) s = .next u) ∧
      (s.rdb F.DSP_PROD.EN k = true →
        let g := u.fetchDesc (u.rd F.DSP_PROD.TEMPLATE k * 4)
        let d := slice g.1 0 24 ++ leBytes 8 ((fieldAt g.1 24 8 + f.2.toNat) % 2 ^ 64) ++ slice g.1 32 32
        g.2.1 = false → g.2.2.descOk (taskOf (.entry k) d) d = true → g.2.2.hasRoom (taskOf (.entry k) d).flow = true →
          exec (.slotTimerFire timer) s = .next (g.2.2.acceptTask (taskOf (.entry k) d) d).2)))

/-- Transmission (R283, R298): a packet command or a core's descriptor joins its transmitter's queue, refused where the queue
is full; the packet at the head is built when nothing is being sent, or discarded as missed or out of range; a due group of a
transmitting slot moves it on by 16 samples, one not due does nothing. -/
def Obligations.PacketsAndGroupsAreTransmitted : Prop :=
  (∀ (s : State) (ref : CmdRef) (k : BitVec 8) (desc : List Byte), s.takes ref 0x0803 →
    let u := s.accept ref 0x0803
    (63 < k.toNat → exec (.radTx ref k desc) s = .next (u.complete ref stRange)) ∧
    (k.toNat ≤ 63 → 16 ≤ (s.txQueue k.toNat).length → exec (.radTx ref k desc) s = .next (u.complete ref stBusy)) ∧
    (k.toNat ≤ 63 → (s.txQueue k.toNat).length < 16 → ∃ t, exec (.radTx ref k desc) s = .next t ∧
      t.txQueue k.toNat = s.txQueue k.toNat ++ [⟨some ref, padTo 64 desc, false⟩] ∧
      t.rd F.RAD_TX_STAT.DEPTH k.toNat = (s.txQueue k.toNat).length + 1 ∧
      (∀ j, j ≠ k.toNat → t.txQueue j = s.txQueue j) ∧ t.mem = s.mem ∧ t.events = s.events)) ∧
  (∀ (s u : State) (core : BitVec 6) (x : Xfer) (d : List PByte),
    s.windowTake core.toNat 0xFFFE8000 0xFFFEC000 64 = some (x, d, u) →
    let k := (x.far + x.done / 16 - 0xFFFE8000) / 0x100
    (16 ≤ (s.txQueue k).length → exec (.txJobWindowWrite core) s = .next s) ∧
    ((s.txQueue k).length < 16 → ∃ t, exec (.txJobWindowWrite core) s = .next t ∧
      t.txQueue k = s.txQueue k ++ [⟨none, plain d, poisoned d⟩] ∧ (∀ j, j ≠ k → t.txQueue j = s.txQueue j) ∧
      t.cores = u.cores ∧ t.mem = s.mem ∧ t.host = s.host ∧ t.events = s.events)) ∧
  (∀ (s : State) (tx : BitVec 6) (j : Job) (l : List Job), s.alive = true →
    let k := tx.toNat
    let slot := s.rd F.RAD_TX_CFG.SLOT k
    let n := fieldAt j.desc 12 2
    let start := fieldAt j.desc 0 8
    let next := max (Sparse.get (fun _ => 0) s.rad.txEnd k) (max (s.slot slot).txM (s.bbAt slot (s.now + s.rd F.RAD_GLB_LEAD.LEAD)))
    let asap := bit (fieldAt j.desc 14 1) 1
    let first := if asap then next else s.bbAt slot start
    s.txQueue k = j :: l → Sparse.find s.rad.txNow k = none → s.rdb F.RAD_TX_CFG.EN k = true → j.poison = false →
    ((s.txProfile k).maxLen < n → exec (.txPacketStart tx) s = .next ((s.setTxQueue k l).txDone j stRange)) ∧
    (n ≤ (s.txProfile k).maxLen → asap = false → (s.fetchTime slot first < s.now ∨ first < (s.slot slot).txM) →
      exec (.txPacketStart tx) s = .next
        ((((s.setTxQueue k l).sat F.RAD_TX_MISSED.COUNT k).radEvent 0x0804 (0x140 + k) start).txDone j stRefused)) ∧
    (n ≤ (s.txProfile k).maxLen → (asap = true ∨ s.now ≤ s.fetchTime slot first ∧ (s.slot slot).txM ≤ first) →
      ∃ t w, exec (.txPacketStart tx) s = .next t ∧ Sparse.find t.rad.txNow k = some w ∧ w.job = j ∧ w.first = first ∧
        w.len = (s.txProfile k).length n ∧ t.txQueue k = l ∧ (∀ i, i ≠ k → t.txQueue i = s.txQueue i ∧
          Sparse.find t.rad.txNow i = Sparse.find s.rad.txNow i))) ∧
  (∀ (s : State) (slot : BitVec 8), s.alive = true →
    let i := slot.toNat
    let m := (s.slot i).txM
    (s.rdb F.RAD_SLOT_CFG.EN i = false ∨ s.rdb F.RAD_SLOT_CFG.TX_EN i = false ∨ s.now < s.fetchTime i m →
      exec (.txGroupFetch slot) s = .next s) ∧
    (s.rdb F.RAD_SLOT_CFG.EN i = true → s.rdb F.RAD_SLOT_CFG.TX_EN i = true → s.fetchTime i m ≤ s.now →
      ∃ t, exec (.txGroupFetch slot) s = .next t ∧ (t.slot i).txM = m + 16 ∧ (∀ k, k ≠ i → t.slot k = s.slot k)))

/-- Transforms and taps (R287 to R292): a job joins its queue; the engine takes the queue whose head has the earliest deadline,
or the first queue where none has one, and completes that job with its status and saturation count, once no memory it reaches holds its requests; RAD_TAPS sets the taps
named, unless an enabled modem uses one of them. -/
def Obligations.TransformsAndTapsComplete : Prop :=
  (∀ (s : State) (ref : CmdRef) (q : BitVec 8) (desc : List Byte), s.takes ref 0x0801 →
    let u := s.accept ref 0x0801
    (7 < q.toNat → exec (.radXform ref q desc) s = .next (u.complete ref stRange)) ∧
    (q.toNat ≤ 7 → 64 ≤ (s.xformQueue q.toNat).length → exec (.radXform ref q desc) s = .next (u.complete ref stBusy)) ∧
    (q.toNat ≤ 7 → (s.xformQueue q.toNat).length < 64 → ∃ t, exec (.radXform ref q desc) s = .next t ∧
      t.xformQueue q.toNat = s.xformQueue q.toNat ++ [⟨some ref, padTo 64 desc, false⟩] ∧
      (∀ p, p ≠ q.toNat → t.xformQueue p = s.xformQueue p) ∧ t.mem = s.mem ∧ t.events = s.events)) ∧
  (∀ (s u : State) (core : BitVec 6) (x : Xfer) (d : List PByte),
    s.windowTake core.toNat 0xFFFE0000 0xFFFE8000 64 = some (x, d, u) →
    let q := (x.far + x.done / 16 - 0xFFFE0000) / 0x1000
    (64 ≤ (s.xformQueue q).length → exec (.xformJobWindowWrite core) s = .next s) ∧
    ((s.xformQueue q).length < 64 → ∃ t, exec (.xformJobWindowWrite core) s = .next t ∧
      t.xformQueue q = s.xformQueue q ++ [⟨none, plain d, poisoned d⟩] ∧ (∀ p, p ≠ q → t.xformQueue p = s.xformQueue p) ∧
      t.cores = u.cores ∧ t.mem = s.mem ∧ t.host = s.host ∧ t.events = s.events)) ∧
  (∀ (s : State) (q : Nat) (j : Job), s.xformPick = some (q, j) → q < 8 ∧ (∃ l, s.xformQueue q = j :: l) ∧
    ∀ (p : Nat) (k : Job) (l : List Job), p < 8 → s.xformQueue p = k :: l →
      (∀ b, k.deadline = some b → ∃ a, j.deadline = some a ∧ a ≤ b) ∧
      (j.deadline = none → k.deadline = none ∧ q ≤ p)) ∧
  (∀ (s : State) (q : Nat) (j : Job), s.alive = true → s.xformPick = some (q, j) → j.poison = false →
    let u := s.setXformQueue q ((s.xformQueue q).drop 1)
    (xformValid j.desc = false → exec .xformJobComplete s = .next (u.xformEnd j (0x200 + q) stRange 0)) ∧
    (xformValid j.desc = true → s.xformWaits j.desc = true → exec .xformJobComplete s = .next s) ∧
    (xformValid j.desc = true → s.xformWaits j.desc = false → ∃ t, exec .xformJobComplete s = .next t ∧
      t = (u.xformRun j.desc).2.xformEnd j (0x200 + q) stDone (u.xformRun j.desc).1 ∧
      t.xformQueue q = (s.xformQueue q).drop 1 ∧ (∀ p, p ≠ q → t.xformQueue p = s.xformQueue p))) ∧
  (∀ s : State, s.alive = true → s.xformPick = none → exec .xformJobComplete s = .next s) ∧
  (∀ (s : State) (ref : CmdRef) (device : BitVec 8) (first count : BitVec 16) (addr : BitVec 64), s.takes ref 0x0802 →
    device.toNat ≤ 1 → first.toNat + count.toNat ≤ 4096 →
    let u := s.accept ref 0x0802
    (s.tapsBusy first.toNat (first.toNat + count.toNat) = true →
      exec (.radTaps ref device first count addr) s = .next (u.complete ref stBusy)) ∧
    (s.tapsBusy first.toNat (first.toNat + count.toNat) = false →
      (device = 0 → s.portUp (s.cmdPort ref) = false →
        exec (.radTaps ref device first count addr) s = .next (u.complete ref stIncomplete)) ∧
      (device = 0 → s.portUp (s.cmdPort ref) = true → ∃ t v : State, exec (.radTaps ref device first count addr) s = .next t ∧
        t = v.complete ref stDone ∧
        (∀ k, k < count.toNat → Sparse.get (fun _ => (0 : BitVec 32)) v.rad.taps (first.toNat + k) =
          BitVec.ofNat 32 (leNat (s.hostRead (s.cmdPort ref) (addr.toNat + 4 * k) 4))) ∧
        (∀ k, k < first.toNat ∨ first.toNat + count.toNat ≤ k →
          Sparse.get (fun _ => (0 : BitVec 32)) v.rad.taps k = Sparse.get (fun _ => (0 : BitVec 32)) s.rad.taps k) ∧
        v.mem = s.mem ∧ v.events = s.events)))
/-! ### The channel decoder -/

/-- Decoder jobs (R304 to R307, R315): a job joins its queue, BUSY where that is full, and a poisoned one is discarded; a free
engine starts the first waiting job for it, by deadline, then by queue; a job that ends, once no memory it reaches holds its requests, is recorded in its place, and is
released only when every earlier job of its queue has been. -/
def decoderJobsRunInOrder : Prop :=
  (∀ (s : State) (ref : CmdRef) (q : BitVec 8) (desc : List Byte), s.takes ref 0x0810 →
    let u := s.accept ref 0x0810
    let l := s.decQueue q.toNat
    (3 < q.toNat → exec (.decJob ref q desc false) s = .next (u.complete ref stRange)) ∧
    (q.toNat ≤ 3 → 64 ≤ l.length → exec (.decJob ref q desc false) s = .next (u.complete ref stBusy)) ∧
    (q.toNat ≤ 3 → l.length < 64 → u.decValid (padTo 64 desc) = true → (∀ j k, l = j :: k → j.done = none) →
      ∃ t, exec (.decJob ref q desc false) s = .next t ∧
        t.decQueue q.toNat = l ++ [⟨⟨some ref, padTo 64 desc, false⟩, 0, none, none⟩] ∧
        t.rd F.DEC_Q.DEPTH q.toNat = l.length + 1 ∧
        t.rd F.DEC_Q.MAX q.toNat = max (s.rd F.DEC_Q.MAX q.toNat) (l.length + 1) ∧
        (∀ p, p ≠ q.toNat → t.decQueue p = s.decQueue p) ∧ t.mem = s.mem ∧ t.events = s.events) ∧
    (q.toNat ≤ 3 → l = [] → u.decValid (padTo 64 desc) = false → ∃ t v : State,
      exec (.decJob ref q desc false) s = .next t ∧ t.decQueue q.toNat = [] ∧
      t = v.decRelease q.toNat ⟨⟨some ref, padTo 64 desc, false⟩, 0, none,
        some (decRecord stRange {} (decDesc (padTo 64 desc)).user)⟩ (decRecord stRange {} (decDesc (padTo 64 desc)).user)) ∧
    (q.toNat ≤ 3 → ∃ t v : State, exec (.decJob ref q desc true) s = .next t ∧ t = v.complete ref stRange ∧
      v.dec = s.dec ∧ v.rd F.DEC_Q.DISC q.toNat = min 255 (s.rd F.DEC_Q.DISC q.toNat + 1) ∧ v.mem = s.mem)) ∧
  (∀ (s u : State) (core : BitVec 6) (x : Xfer) (d : List PByte),
    s.windowTake core.toNat 0xFFFEC000 0xFFFF0000 64 = some (x, d, u) → poisoned d = false →
    let far := x.far + x.done / 16
    let q := (far - 0xFFFEC000) / 0x1000
    (64 ≤ (s.decQueue q).length → exec (.decJobWindowWrite core) s = .next s) ∧
    ((s.decQueue q).length < 64 → u.decValid (plain d) = true → (∀ j k, s.decQueue q = j :: k → j.done = none) →
      ∃ t, exec (.decJobWindowWrite core) s = .next t ∧
        t.decQueue q = s.decQueue q ++ [⟨⟨none, plain d, false⟩, far, none, none⟩] ∧ t.cores = u.cores ∧ t.mem = s.mem ∧
        t.host = s.host ∧ t.events = s.events)) ∧
  (∀ (s : State) (e q : Nat), s.decPick e = some q → q < 4 ∧ ∃ j, s.decHead q = some j ∧ j.forEngine e = true ∧
    ∀ (p : Nat) (k : DecJob), p < 4 → s.decHead p = some k → k.forEngine e = true →
      ((decDesc k.job.desc).dlEn = true → (decDesc j.job.desc).dlEn = true ∧
        (decDesc j.job.desc).deadline ≤ (decDesc k.job.desc).deadline) ∧
      ((decDesc j.job.desc).dlEn = false → q ≤ p)) ∧
  (∀ (s : State) (engine : BitVec 2), s.alive = true →
    let e := engine.toNat
    (s.decBusy e = true ∨ s.decPick e = none → exec (.decJobStart engine) s = .next s) ∧
    (∀ q j, s.decBusy e = false → s.decPick e = some q → s.decHead q = some j → ∃ t, exec (.decJobStart engine) s = .next t ∧
      t.decBusy e = true ∧ { j with engine := some e } ∈ t.decQueue q ∧
      (t.decQueue q).length = (s.decQueue q).length ∧ (∀ p, p ≠ q → t.decQueue p = s.decQueue p) ∧
      (e = 3 → t.rd F.DEC_STATUS.ENC_BUSY = 1) ∧ (e = 2 → t.rd F.DEC_STATUS.TURBO_BUSY = 1) ∧
      t.mem = s.mem ∧ t.events = s.events ∧ t.host = s.host)) ∧
  (∀ (s : State) (engine : BitVec 2), s.alive = true → s.decBusy engine.toNat = false →
    exec (.decJobComplete engine) s = .next s) ∧
  (∀ (s : State) (engine : BitVec 2) (h j : DecJob) (l : List DecJob), s.alive = true →
    let e := engine.toNat
    let r := s.decRun (decDesc j.job.desc)
    let rb := decRecord stDone r.1 (decDesc j.job.desc).user
    (∀ p k, k ∈ s.decQueue p → k.engine = some e → k.done = none → p = 0 ∧ k = j) →
    j.engine = some e → j.done = none →
    (s.decWaits (decDesc j.job.desc) = true → (s.decQueue 0 = [j] ∨ s.decQueue 0 = h :: j :: l) →
      exec (.decJobComplete engine) s = .next s) ∧
    (s.decWaits (decDesc j.job.desc) = false → s.decQueue 0 = [j] → ∃ t v : State, exec (.decJobComplete engine) s = .next t ∧
      t = v.decRelease 0 { j with done := some rb } rb ∧ t.decQueue 0 = []) ∧
    (s.decWaits (decDesc j.job.desc) = false → s.decQueue 0 = h :: j :: l → h ≠ j → h.done = none → ∃ t, exec (.decJobComplete engine) s = .next t ∧
      t.decQueue 0 = h :: { j with done := some rb } :: l ∧ t.mem = r.2.mem ∧ t.events = r.2.events))

/-- DEC_TABLE and DEC_CNT_CLR (R311, R317): a table that passes the checks is stored and marked valid; one that fails them
changes no table; one in use is busy. A 1 clears the counters. -/
def decoderTablesAndCounters : Prop :=
  (∀ (s : State) (ref : CmdRef) (n : BitVec 8) (addr : BitVec 64) (len : BitVec 32), s.takes ref 0x0811 → n.toNat ≤ 7 →
    let u := s.accept ref 0x0811
    let p := s.cmdPort ref
    let b := s.hostRead p addr.toNat len.toNat
    ((∃ x ∈ s.dec.q, ∃ j ∈ x.2, (decDesc j.job.desc).table = n.toNat + 2) →
      exec (.decTable ref n 0 addr len) s = .next (u.complete ref stBusy)) ∧
    ((∀ x ∈ s.dec.q, ∀ j ∈ x.2, (decDesc j.job.desc).table ≠ n.toNat + 2) → len.toNat ≤ 4112 → s.portUp p = true →
      (userTableOf b = none → exec (.decTable ref n 0 addr len) s = .next (u.complete ref stCheckFailed)) ∧
      (∀ x, userTableOf b = some x → ∃ t v : State, exec (.decTable ref n 0 addr len) s = .next t ∧ t = v.complete ref stDone ∧
        Sparse.find v.dec.tables n.toNat = some x ∧ bit (v.rd F.DEC_UTAB.VALID) n.toNat = true ∧
        (∀ m, m ≠ n.toNat → Sparse.find v.dec.tables m = Sparse.find s.dec.tables m ∧
          bit (v.rd F.DEC_UTAB.VALID) m = bit (s.rd F.DEC_UTAB.VALID) m) ∧
        v.dec.q = s.dec.q ∧ v.mem = s.mem ∧ v.events = s.events))) ∧
  (∀ (s : State) (v : BitVec 32), s.bar0Open 0x400230 = true →
    (v.getLsbD 0 = true → ∃ t, exec (.decCntClr v) s = .next t ∧
      (∀ q, q < 4 → t.rd F.DEC_Q.DISC q = 0 ∧ t.rd F.DEC_Q.MAX q = 0 ∧ t.rd F.DEC_Q.DEPTH q = s.rd F.DEC_Q.DEPTH q) ∧
      (∀ i, i < 11 → t.rdReg (0x400200 + 4 * i) = 0) ∧ t.host = s.host ∧ t.units = s.units) ∧
    (v.getLsbD 0 = false → exec (.decCntClr v) s = .next s))

/-- Decoder jobs, user tables and counters (R304 to R307, R311, R315, R317). -/
def Obligations.DecoderRunsJobsAndTables : Prop :=
  decoderJobsRunInOrder ∧ decoderTablesAndCounters

/-! ### The capture engine -/

/-- Arming, stopping and forcing (R321 to R324, R328, R338): the channels of a mask that may be armed start at the arm instant
in PREFILL or WAIT with their counters cleared, at once or when it comes; stopping puts the armed ones into STOPPED; forcing
presents a HOST event to each armed channel of the mask. -/
def Obligations.ChannelsArmStopAndForce : Prop :=
  (∀ (s : State) (ref : CmdRef) (mask : BitVec 16) (when_ : BitVec 8) (T : BitVec 64), s.takes ref 0x0901 →
    let u := s.accept ref 0x0901
    let l := maskBits 16 mask.toNat
    let all := (List.range 16).filter fun c => u.capArmed c || (u.cap.arms.flatMap fun a => maskBits 16 a.2.1).contains c || l.contains c
    (mask = 0 ∨ (when_ ≠ 0 ∧ when_ ≠ 2) → exec (.capArm ref mask when_ T) s = .next (u.complete ref stRange)) ∧
    (mask ≠ 0 → when_ = 0 ∨ when_ = 2 → (∃ c ∈ l, u.capArmRefused c = true) →
      exec (.capArm ref mask when_ T) s = .next (u.complete ref stRefused)) ∧
    (mask ≠ 0 → when_ = 0 ∨ when_ = 2 → (∀ c ∈ l, u.capArmRefused c = false) → (∀ c ∈ l, u.capRangeOk all c = true) →
      u.capTotalOk all = true →
      (when_ = 2 → s.now < T.toNat → ∃ t, exec (.capArm ref mask when_ T) s = .next t ∧
        t.cap.arms = s.cap.arms ++ [(ref, mask.toNat, T.toNat)] ∧ t.cap.ch = s.cap.ch ∧ t.mem = s.mem ∧ t.events = s.events) ∧
      (when_ = 0 ∨ T.toNat ≤ s.now → ∃ t v : State, exec (.capArm ref mask when_ T) s = .next t ∧
        t = v.complete ref stDone s.now ∧
        (∀ c ∈ l, (v.capState c = 1 ∨ v.capState c = 2) ∧ (v.capCh c).armT = s.now ∧ (v.capCh c).isOpen = true ∧
          (v.capCh c).idx = 0 ∧ v.rd F.CAP_CH_STAT.SEG c = 0 ∧ v.rd F.CAP_CH_DONE.COUNT c = 0) ∧
        (∀ c, c < 16 → c ∉ l → v.capState c = s.capState c ∧ v.capCh c = s.capCh c)))) ∧
  (∀ (s : State) (ref : CmdRef) (mask T : Nat), s.alive = true → s.cap.arms.find? (fun a => a.1 == ref) = some (ref, mask, T) →
    (s.now < T → exec (.capArmInstant ref) s = .next s) ∧
    (T ≤ s.now → ∃ t v : State, exec (.capArmInstant ref) s = .next t ∧ t = v.complete ref stDone T ∧
      v.cap.arms = (s.cap.arms.filter fun a => a.1 != ref) ∧
      (∀ c ∈ maskBits 16 mask, (v.capState c = 1 ∨ v.capState c = 2) ∧ (v.capCh c).armT = T) ∧
      (∀ c, c < 16 → c ∉ maskBits 16 mask → v.capState c = s.capState c ∧ v.capCh c = s.capCh c))) ∧
  (∀ (s : State) (ref : CmdRef) (mask : BitVec 16), s.takes ref 0x0902 → mask ≠ 0 → ∃ t v : State,
    exec (.capStop ref mask) s = .next t ∧ t = v.complete ref stDone ∧
    ∀ c, c < 16 → (c ∈ maskBits 16 mask.toNat → s.capArmed c = true → v.capState c = 5) ∧
      (c ∉ maskBits 16 mask.toNat ∨ s.capArmed c = false → v.capState c = s.capState c)) ∧
  (∀ (s : State) (mask : Nat) (c : Nat), c < 16 →
    let t := s.capForce mask
    t.capCh c = (if c ∈ maskBits 16 mask ∧ s.capArmed c = true then (s.capCh c).present s.now 9 0 0 else s.capCh c) ∧
      t.regs = s.regs ∧ t.mem = s.mem ∧ t.host = s.host ∧ t.events = s.events) ∧
  (∀ (s : State) (ref : CmdRef) (mask : BitVec 16), s.takes ref 0x0903 → mask ≠ 0 →
    exec (.capForce ref mask) s = .next (((s.accept ref 0x0903).capForce mask.toNat).complete ref stDone)) ∧
  (∀ (s : State) (v : BitVec 32), s.bar0Open 0x441008 = true →
    exec (.capForceRegisterWrite v) s = .next (s.capForce (v.toNat % 2 ^ 16)))

/-- Samples, segments and snapshots (R319, R320, R326 to R331, R336): a source's samples join an armed channel that names it,
every DIV-th; the oldest, which the row names, is evaluated, 256 ticks after its timestamp where a sequencer looks at it, takes the next index, and
triggers where it finds a HOST event in WAIT; one lost to a full buffer stops the channel; the record of a dead channel closes
and the next segment opens; a snapshot waits for the sample it is to follow, then copies the reduction. -/
def Obligations.SamplesTriggerAndSegmentsClose : Prop :=
  (∀ (s : State) (unit ts word c : Nat) (poison : Bool), c < 16 → s.capArmed c = true → s.rd F.CAP_CH_SRC.KIND c = 1 →
    (s.capCh c).armT ≤ ts →
    let t := s.capFeed 1 unit 0 ts poison (fun _ => true) fun _ => leBytes 64 word
    t.capCh c = { s.capCh c with
      raw := (s.capCh c).raw + 1,
      pipe := if (s.capCh c).raw % (s.rd F.CAP_CH_SRC.DIV_M1 c + 1) = 0 then (s.capCh c).pipe ++ [⟨ts, word % 2 ^ 512, poison⟩]
        else (s.capCh c).pipe }) ∧
  (∀ (s : State) (channel : BitVec 4) (data : BitVec 512) (poison : Bool) (time : BitVec 64) (full late : Bool),
    s.alive = true →
    let c := channel.toNat
    let x := s.capCh c
    let p : CapSmp := ⟨time.toNat, data.toNat, poison⟩
    (x.pipe.head? ≠ some p ∨ s.capArmed c = false ∨ x.lateAt p.ts ≠ late → exec (.captureSample channel data poison time full late) s = .next s) ∧
    (∀ l, x.pipe = p :: l → s.capArmed c = true → x.lateAt p.ts = late →
      let u := s.waitBegins c p.ts
      (u.capCalm c = false → s.now < p.ts + 256 ∨ u.linkWaits c p.ts = true → exec (.captureSample channel data poison time full late) s = .next u) ∧
      (u.capCalm c = true ∨ (p.ts + 256 ≤ s.now ∧ u.linkWaits c p.ts = false) →
        (full = true → s.rdb F.CAP_CH_MODE.RAW c = true → ∃ t,
          exec (.captureSample channel data poison time full late) s = .next t ∧ t = u.capOverflow c ∧ t.capState c = 5 ∧
          t.rd F.CAP_CH_STAT.OVF c = 1 ∧ t.rd64 F.CAP_CH_LASTGOOD_LO.INDEX c = (x.idx + 2 ^ 64 - 1) % 2 ^ 64) ∧
        (full = false → (∀ q ∈ s.cap.snaps, q.ch ≠ c) → ∃ t, exec (.captureSample channel data poison time full late) s = .next t ∧
          t.cap.snaps = s.cap.snaps ∧ (t.capCh c).idx = x.idx + 1 ∧ (t.capCh c).lastTs = p.ts ∧ (t.capCh c).pipe = l ∧
          (t.capCh c).prev = some (p.word % 256 ^ s.capBytes c) ∧
          (s.capState c = 2 → x.openAt ≤ p.ts → (∃ e ∈ x.evts, e.kind = 9 ∧ e.at_ ≤ p.ts) → 2 ≤ s.rd F.CAP_CH_POST.POST c →
            t.capState c = 3 ∧ (t.capCh c).trig = some (x.idx, p.ts) ∧ (t.capCh c).forced = true ∧
            (c < 8 → Sparse.find t.cap.trigOut c = some (s.now + 16))))))) ∧
  (∀ (s : State) (channel : BitVec 4), s.alive = true →
    let c := channel.toNat
    (s.capState c ≠ 4 → exec (.segmentClose channel) s = .next s) ∧
    (s.capState c = 4 → (s.capCh c).isOpen = true → ∃ t, exec (.segmentClose channel) s = .next t ∧
      (t.capCh c).closed = (s.capCh c).closed + 1 ∧
      t.rd F.CAP_CH_DONE.COUNT c = min (2 ^ 32 - 1) (s.rd F.CAP_CH_DONE.COUNT c + 1) ∧
      (s.rdb F.CAP_CH_MODE.RING c = false → s.rd F.CAP_CH_STAT.SEG c = s.rd F.CAP_CH_NSEG.NSEG_M1 c →
        t.capState c = 5 ∧ (t.capCh c).isOpen = false) ∧
      (s.rdb F.CAP_CH_MODE.RING c = true ∨ s.rd F.CAP_CH_STAT.SEG c ≠ s.rd F.CAP_CH_NSEG.NSEG_M1 c →
        (t.capState c = 1 ∨ t.capState c = 2) ∧ (t.capCh c).isOpen = true ∧ (t.capCh c).openAt = s.now ∧
        (t.capCh c).start = (s.capCh c).idx + ((s.capCh c).pipe.filter fun p => decide (p.ts < s.now)).length ∧
        t.rd F.CAP_CH_STAT.SEG c = (if s.rd F.CAP_CH_STAT.SEG c = s.rd F.CAP_CH_NSEG.NSEG_M1 c then 0
          else (s.rd F.CAP_CH_STAT.SEG c + 1) % 2 ^ 16)))) ∧
  (∀ (s : State) (ref : CmdRef) (channel dest part : BitVec 8) (clear : Bool) (addr : BitVec 64) (len : BitVec 32),
    s.takes ref 0x0904 →
    let u := s.accept ref 0x0904
    let c := channel.toNat
    let x := s.capCh c
    let q : CapSnap := ⟨ref, c, x.idx + x.pipe.length - 1, dest == 1, part.toNat, clear, addr.toNat, len.toNat⟩
    (15 < c → exec (.capSnap ref channel dest part clear addr len) s = .next (u.complete ref stRange)) ∧
    (c ≤ 15 → dest = 0 → s.rd F.CAP_CH_MODE.RED c = 0 ∨ s.capState c = 0 →
      exec (.capSnap ref channel dest part clear addr len) s = .next (u.complete ref stRefused)) ∧
    (c ≤ 15 → dest = 0 → s.rd F.CAP_CH_MODE.RED c ≠ 0 → s.capState c ≠ 0 → 16 + s.redState c ≤ len.toNat →
      (x.idx + x.pipe.length = 0 → s.capState c = 5 →
        exec (.capSnap ref channel dest part clear addr len) s = .next (u.complete ref stRefused)) ∧
      (x.pipe ≠ [] ∨ (x.idx = 0 ∧ s.capState c ≠ 5) → ∃ t, exec (.capSnap ref channel dest part clear addr len) s = .next t ∧
        t.cap.snaps = s.cap.snaps ++ [q] ∧ t.cap.ch = s.cap.ch ∧ t.mem = s.mem ∧ t.events = s.events) ∧
      (x.idx ≠ 0 → x.pipe = [] → s.portUp (s.cmdPort ref) = true → clear = false → ∃ t v : State,
        exec (.capSnap ref channel dest part clear addr len) s = .next t ∧
        t = v.complete ref stDone (x.idx - 1) ∧ v.cap = s.cap ∧
        (poisoned (u.memRead (reqCapture c) (u.redAddr c) (u.redState c)).bytes = false →
          v.hostRead (s.cmdPort ref) addr.toNat 16 = leBytes 8 (x.idx - 1) ++ leBytes 8 x.lastTs))))
/-! ### The Tovin links -/

/-- A flit as 64 bytes (R371, Table LNK-3): reading the bytes back gives the flit, and its CRC, which covers the sequence
number, tells every other sequence number from its own. -/
def Obligations.FlitsCarryTheirSequenceNumber : Prop :=
  (∀ (f : Flit) (seq : Nat), f.typ < 8 → f.chan < 64 → f.sub < 64 → f.data.length = 60 →
    (f.bytes seq).length = 64 ∧ flitOf (f.bytes seq) = f ∧ fieldAt (f.bytes seq) 62 2 = flitCrc seq (f.bytes seq)) ∧
  (∀ (l : List Byte) (a b : Nat), flitCrc a l = flitCrc b l ↔ a % 128 = b % 128)

/-- Bring-up and retraining (R367 to R370, R378): links train once the transmit PLL locks; a receiver that locks sends READY;
READY both ways between matching roles brings a link UP; a loss of lock on an UP link retrains it, and a retrain that lasts too
long takes it down; 10 ms without lock begin bursts of TRAIN. -/
def Obligations.LinksTrainAndComeUp : Prop :=
  (∀ s : State, s.alive = true → ∃ t, exec .txPllLock s = .next t ∧ t.clk.ltxLocked = true ∧
    t.rd F.CLK_DOM_CFG.LOCKED 20 = 1 ∧ (∀ k, k < 16 →
      (s.rdb F.LNK_CFG.EN k = true → s.lkState k = 0 → t.lkState k = 1 ∧ (t.link k).lastSet = some (0x1E, 0)) ∧
      (s.rdb F.LNK_CFG.EN k = false ∨ s.lkState k ≠ 0 → t.lkState k = s.lkState k ∧ t.link k = s.link k)) ∧
    t.mem = s.mem ∧ t.events = s.events ∧ t.host = s.host) ∧
  (∀ (s : State) (link pol : BitVec 4), s.alive = true →
    let k := link.toNat
    (s.lkState k ≠ 1 → s.lkState k ≠ 4 → exec (.receiverLock link pol) s = .next s) ∧
    (s.lkState k = 1 → (s.link k).readyIn = none → ∃ t, exec (.receiverLock link pol) s = .next t ∧ t.lkState k = 2 ∧
      t.rd F.LNK_STAT.POL k = pol.toNat ∧ t.rd F.LNK_STAT.BURST k = 0 ∧
      t.link k = { s.link k with readyOut := true, lastSet := some (0x2D, (s.link k).expect) } ∧
      (∀ j, j ≠ k → t.link j = s.link j) ∧ t.mem = s.mem ∧ t.events = s.events ∧ t.host = s.host)) ∧
  (∀ (s : State) (link : BitVec 4) (role : BitVec 8) (id : BitVec 32), s.alive = true →
    let k := link.toNat
    (s.lkState k = 0 → exec (.train link role id) s = .next s) ∧
    (s.lkState k ≠ 0 → ∃ t, exec (.train link role id) s = .next t ∧
      t.rd F.LNK_STAT.PARTNER_ROLE k = role.toNat % 8 ∧ t.rd F.LNK_PARTNER.ID k = id.toNat ∧
      (s.lkState k ≠ 3 → t.lkState k = s.lkState k ∧ t.events = s.events) ∧
      (s.lkState k = 3 → s.rd F.LNK_STAT.RX_PWR k ≠ 0 → t.lkState k = 3 ∧ t.rd F.LNK_STAT.RX_PWR k = 0) ∧
      (s.lkState k = 3 → s.rd F.LNK_STAT.RX_PWR k = 0 → t.lkState k = 4 ∧
        t.rd F.LNK_RETRAINS.COUNT k = min (2 ^ 32 - 1) (s.rd F.LNK_RETRAINS.COUNT k + 1) ∧
        (t.link k).retrainAt = some s.now ∧ (t.link k).replay = (s.link k).replay ∧ (t.link k).seq = (s.link k).seq))) ∧
  (∀ (s : State) (link : BitVec 4) (next : BitVec 7) (role : BitVec 8) (id : BitVec 32), s.alive = true →
    let k := link.toNat
    (s.lkState k < 2 → exec (.ready link next role id) s = .next s) ∧
    (s.lkState k = 3 → ∃ t, exec (.ready link next role id) s = .next t ∧
      t.rd F.LNK_STAT.PARTNER_ROLE k = role.toNat % 8 ∧ t.rd F.LNK_PARTNER.ID k = id.toNat ∧ t.lkState k = 3 ∧
      (t.link k).replay = (s.link k).replay ∧ (t.link k).seq = (s.link k).seq ∧ t.mem = s.mem ∧ t.events = s.events) ∧
    (s.lkState k = 2 → (s.link k).readyOut = true → ∃ t, exec (.ready link next role id) s = .next t ∧
      (rolesMatch (s.lkRole k) (role.toNat % 8) = true → t.lkState k = 3 ∧ (t.link k).replay = [] ∧ (t.link k).seq = 0 ∧
        (t.link k).expect = 0 ∧ t.rd F.LNK_STAT.TX_UNACK k = 0 ∧ (t.link k).echoAt = some s.now ∧
        (s.recovery = false → t.events.map (·.code) = 0x0A01 :: s.events.map (·.code))) ∧
      (rolesMatch (s.lkRole k) (role.toNat % 8) = false → t.lkState k = 2)) ∧
    (s.lkState k = 4 → (s.link k).readyOut = true → rolesMatch (s.lkRole k) (role.toNat % 8) = true →
      (s.link k).position next.toNat ≤ (s.link k).replay.length →
      ∃ t, exec (.ready link next role id) s = .next t ∧ t.lkState k = 3 ∧
        (t.link k).replay = (s.link k).replay.drop ((s.link k).position next.toNat) ∧
        (t.link k).resend = (t.link k).replay.length ∧ (t.link k).seq = (s.link k).seq)) ∧
  (∀ (s : State) (link : BitVec 4) (clock : Bool), s.alive = true →
    let k := link.toNat
    (s.lkState k = 2 → ∃ t, exec (.lossOfBlockLock link clock) s = .next t ∧ t.lkState k = 1 ∧ (t.link k).readyOut = false) ∧
    (s.lkState k = 3 → s.rd F.LNK_STAT.RX_PWR k = 0 → ∃ t, exec (.lossOfBlockLock link clock) s = .next t ∧
      t.lkState k = 4 ∧ (t.link k).replay = (s.link k).replay ∧ (t.link k).seq = (s.link k).seq ∧
      (s.recovery = false → t.events.map (·.code) = 0x0A03 :: s.events.map (·.code))) ∧
    (s.lkState k = 3 → s.rd F.LNK_STAT.RX_PWR k = 1 → clock = true → ∃ t, exec (.lossOfBlockLock link clock) s = .next t ∧
      t.lkState k = 4) ∧
    (s.lkState k = 3 → (s.rd F.LNK_STAT.RX_PWR k = 1 ∧ clock = false) ∨ s.rd F.LNK_STAT.RX_PWR k = 2 →
      exec (.lossOfBlockLock link clock) s = .next s)) ∧
  (∀ (s : State) (link : BitVec 4) (t0 : Nat), s.alive = true →
    let k := link.toNat
    (s.link k).retrainAt = some t0 → s.lkState k = 4 →
    (s.now < t0 + s.rd F.LNK_TMO.RETRAIN_TO k * 100000 → exec (.retrainTimeout link) s = .next s) ∧
    (t0 + s.rd F.LNK_TMO.RETRAIN_TO k * 100000 ≤ s.now → ∃ t, exec (.retrainTimeout link) s = .next t ∧ t.lkState k = 1 ∧
      (t.link k).replay = [] ∧ (t.link k).seq = 0 ∧
      (s.recovery = false → t.events.map (·.code) = 0x0A02 :: s.events.map (·.code)))) ∧
  (∀ (s : State) (link : BitVec 4), s.alive = true →
    let k := link.toNat
    (s.unlocked k = true → (s.link k).noLockAt + 10000000 ≤ s.now → ∃ t, exec (.burstModeEntry link) s = .next t ∧
      t.rd F.LNK_STAT.BURST k = 1 ∧ t.lkState k = s.lkState k ∧ t.host = s.host ∧ t.units = s.units) ∧
    (s.unlocked k = false ∨ s.now < (s.link k).noLockAt + 10000000 → exec (.burstModeEntry link) s = .next s) ∧
    (s.unlocked k = true → s.rd F.LNK_STAT.BURST k = 1 → ∃ t, exec (.trainingBurst link) s = .next t ∧
      t.link k = { s.link k with lastSet := some (0x1E, 0) } ∧ (∀ j, j ≠ k → t.link j = s.link j) ∧ t.regs = s.regs) ∧
    (s.unlocked k = false ∨ s.rd F.LNK_STAT.BURST k = 0 → exec (.trainingBurst link) s = .next s))

/-- Flits and replay (R371 to R373, R375, R380, R381): once a wake has ended, a new flit takes the next sequence number and is kept until acknowledged, 64 at
most, behind those that the transmit paths bound to the link have ready by then; an ACK in range frees those before it and any other is ignored; a NAK or a timeout sends again all that are kept, and
retrains after too many in a row; a bad CRC asks once for a replay, a good flit is delivered or counted. -/
def Obligations.FlitsAreKeptUntilAcknowledged : Prop :=
  (∀ (s : State) (link : BitVec 4), s.alive = true →
    let k := link.toNat
    let u := s.txLink k
    let l := u.link k
    s.lkState k = 3 → s.rd F.LNK_STAT.TX_PWR k = 0 →
    (s.now < (s.link k).dataAt → exec (.flitTransmit link) s = .next s) ∧
    ((s.link k).dataAt ≤ s.now →
    ((∀ i, i < 256 → (s.slot i).txHeld = []) → u = s) ∧
    (∀ f q, l.resend = 0 → l.replay.length < 64 → l.txq = f :: q → f.poison = false → ∃ t, exec (.flitTransmit link) s = .next t ∧
      (t.link k).txq = q ∧ (t.link k).replay = l.replay ++ [f] ∧ (t.link k).seq = (l.seq + 1) % 128 ∧
      (t.link k).lastFlit = some (l.seq, f) ∧ t.rd F.LNK_STAT.TX_UNACK k = l.replay.length + 1 ∧
      t.rd64 F.LNK_TX_FLITS_LO.COUNT k = min (2 ^ 64 - 1) (s.rd64 F.LNK_TX_FLITS_LO.COUNT k + 1) ∧
      (∀ j, j ≠ k → t.link j = u.link j) ∧ t.mem = u.mem ∧ t.events = u.events) ∧
    (∀ f, l.resend ≠ 0 → l.replay[l.replay.length - l.resend]? = some f → ∃ t, exec (.flitTransmit link) s = .next t ∧
      (t.link k).lastFlit = some ((l.seq + 128 - l.resend) % 128, f) ∧ (t.link k).resend = l.resend - 1 ∧
      (t.link k).replay = l.replay ∧ (t.link k).txq = l.txq ∧ (t.link k).seq = l.seq ∧ t.regs = u.regs) ∧
    (l.resend = 0 → 64 ≤ l.replay.length → exec (.flitTransmit link) s = .next (u.setLink k { l with lastSet := some (0x55, 0) })))) ∧
  (∀ (s : State) (link : BitVec 4) (next : BitVec 7), s.alive = true → s.lkState link.toNat = 3 →
    let k := link.toNat
    let l := s.link k
    let n := l.position next.toNat
    (l.replay.length < n ∨ n = 0 → exec (.ack link next) s = .next s) ∧
    (n ≤ l.replay.length → n ≠ 0 → (∀ f ∈ l.replay.take n, f.typ ≠ 4) → ∃ t, exec (.ack link next) s = .next t ∧
      (t.link k).replay = l.replay.drop n ∧ (t.link k).resend = min l.resend (l.replay.length - n) ∧ (t.link k).inRow = 0 ∧
      (t.link k).seq = l.seq ∧ t.rd F.LNK_STAT.TX_UNACK k = (l.replay.length - n) % 128 ∧ t.mem = s.mem ∧ t.host = s.host) ∧
    (l.replay.length < n → exec (.nak link next) s = .next s) ∧
    (n = 0 → l.replay ≠ [] → l.inRow < s.rd F.LNK_TMO.REPLAY_MAX k → ∃ t, exec (.nak link next) s = .next t ∧
      (t.link k).resend = l.replay.length ∧ (t.link k).inRow = l.inRow + 1 ∧ (t.link k).replay = l.replay ∧
      t.rd F.LNK_REPLAYS.COUNT k = min (2 ^ 32 - 1) (s.rd F.LNK_REPLAYS.COUNT k + 1) ∧ t.lkState k = 3) ∧
    (n = 0 → l.replay ≠ [] → s.rd F.LNK_TMO.REPLAY_MAX k ≤ l.inRow → ∃ t, exec (.nak link next) s = .next t ∧ t.lkState k = 4)) ∧
  (∀ (s : State) (link : BitVec 4), s.alive = true → s.lkState link.toNat = 3 →
    let k := link.toNat
    let l := s.link k
    (∀ t0, l.goodAt = some t0 → (s.now < t0 + 128 → exec (.ackDueTimeout link) s = .next s) ∧
      (t0 + 128 ≤ s.now → s.rd F.LNK_STAT.TX_PWR k = 0 → ∃ t, exec (.ackDueTimeout link) s = .next t ∧
        (t.link k).good = 0 ∧ (t.link k).goodAt = none ∧ (t.link k).lastSet = some (0x33, l.expect) ∧ t.regs = s.regs)) ∧
    (l.nakOut = false → s.now < l.oldestAt + s.rd F.LNK_TMO.REPLAY_TO k → exec (.replayTimeout link) s = .next s) ∧
    (l.nakOut = false → l.replay ≠ [] → l.oldestAt + s.rd F.LNK_TMO.REPLAY_TO k ≤ s.now →
      l.inRow < s.rd F.LNK_TMO.REPLAY_MAX k → ∃ t, exec (.replayTimeout link) s = .next t ∧
        (t.link k).resend = l.replay.length ∧ (t.link k).inRow = l.inRow + 1 ∧ t.lkState k = 3)) ∧
  (∀ (s : State) (link : BitVec 4) (bytes : List Byte), s.alive = true → s.lkState link.toNat = 3 →
    let k := link.toNat
    let l := s.link k
    let b := padTo 64 bytes
    (fieldAt b 62 2 ≠ flitCrc l.expect b →
      (l.nakOut = true → exec (.linkFlitReceive link bytes) s = .next s) ∧
      (l.nakOut = false → ∃ t, exec (.linkFlitReceive link bytes) s = .next t ∧ (t.link k).nakOut = true ∧
        (t.link k).nakAt = s.now ∧ (t.link k).expect = l.expect ∧
        t.rd F.LNK_CRC_ERR.COUNT k = min (2 ^ 32 - 1) (s.rd F.LNK_CRC_ERR.COUNT k + 1))) ∧
    (fieldAt b 62 2 = flitCrc l.expect b → roleCarries (s.lkRole k) (flitOf b).typ = false → l.good + 1 < 16 →
      ∃ t, exec (.linkFlitReceive link bytes) s = .next t ∧ (t.link k).expect = (l.expect + 1) % 128 ∧
        (t.link k).nakOut = false ∧ (t.link k).good = l.good + 1 ∧ t.rd F.LNK_STAT.RX_NEXT k = (l.expect + 1) % 128 ∧
        t.rd F.LNK_RX_BAD.TYPE k = min (2 ^ 16 - 1) (s.rd F.LNK_RX_BAD.TYPE k + 1) ∧ t.mem = s.mem ∧ t.events = s.events) ∧
    (∀ g, fieldAt b 62 2 = flitCrc l.expect b → roleCarries (s.lkRole k) 2 = true → (flitOf b).typ = 2 → l.good + 1 < 16 →
      1 ≤ (flitOf b).sub → (flitOf b).sub ≤ 7 → s.forwards = false →
      ((List.range 16).find? fun g => s.rdb F.LNK_GW_CFG.EN g && s.rd F.LNK_GW_CFG.LINK g == k &&
        s.rd F.LNK_GW_CFG.CHAN g == (flitOf b).chan) = some g →
      (s.gw g).rx.length + (flitOf b).sub ≤ 64 → ∃ t, exec (.linkFlitReceive link bytes) s = .next t ∧
        (t.gw g).rx = (s.gw g).rx ++ (List.range (flitOf b).sub).map (fun i => (fieldAt (flitOf b).data (8 * i) 8, (flitOf b).poison)) ∧
        t.rd F.LNK_GW_STAT.RXD g = (s.gw g).rx.length + (flitOf b).sub ∧ (t.link k).expect = (l.expect + 1) % 128 ∧
        t.mem = s.mem ∧ t.events = s.events)) ∧
  (∀ (s : State) (link : BitVec 4), s.alive = true → s.lkState link.toNat = 3 →
    let k := link.toNat
    let base := s.rd F.LNK_MTX_BASE.BASE k
    let q := s.radIdx (reqLink k) base 0 (s.link k).txWr
    let i := (s.link k).txRd + (s.link k).msgs
    let v := q.2.setLink k { q.2.link k with txWr := q.1 }
    let r := v.memRead (reqLink k) (base * 16 + 64 + 64 * (i % 2 ^ v.rd F.LNK_MRING.TX_SIZE k)) 64
    (s.lkRole k = 0 ∨ s.rd F.LNK_MRING.TX_SIZE k = 0 → exec (.messageRingSend link) s = .next s) ∧
    (s.lkRole k ≠ 0 → s.rd F.LNK_MRING.TX_SIZE k ≠ 0 → i < q.1 →
      v.memWaits (reqLink k) (base * 16 + 64 + 64 * (i % 2 ^ v.rd F.LNK_MRING.TX_SIZE k)) 64 = false → ∃ t, exec (.messageRingSend link) s = .next t ∧
      (t.link k).txq = (s.link k).txq ++ [{ flitOf (plain r.bytes) with
        typ := 4, poison := (flitOf (plain r.bytes)).poison || poisoned r.bytes }] ∧
      (t.link k).msgs = (s.link k).msgs + 1 ∧ (t.link k).txWr = q.1)) ∧
  (∀ (s : State) (g : BitVec 4), s.alive = true →
    let x := s.gw g.toNat
    let k := s.rd F.LNK_GW_CFG.LINK g.toNat
    (x.tx = [] ∨ s.now < x.txAt + 20 → exec (.gatewayFlushTimeout g) s = .next s) ∧
    (x.tx ≠ [] → x.txAt + 20 ≤ s.now → s.rdb F.LNK_GW_CFG.EN g.toNat = true → ∃ t,
      exec (.gatewayFlushTimeout g) s = .next t ∧ (t.gw g.toNat).tx = x.tx.drop 7 ∧ (t.gw g.toNat).rx = x.rx ∧
      (t.link k).txq = (s.link k).txq ++ [⟨2, s.rd F.LNK_GW_CFG.CHAN g.toNat, false, (x.tx.take 7).length,
        padTo 60 ((x.tx.take 7).flatMap (leBytes 8))⟩] ∧ t.mem = s.mem ∧ t.host = s.host ∧ t.events = s.events))

/-- Ordered sets and power states (R367, R375, R377, R438): IDLE asks nothing; TIME tells a standby its offset; SQUELCH shows the
partner's state; ECHO measures the round trip or is returned; TIME is sent every 1,024 ticks; a direction with nothing to send
goes to IDLE, then to SLEEP, and wakes for what it owes. -/
def Obligations.LinkSetsAndPowerStates : Prop :=
  (∀ (s : State) (link : BitVec 4), exec (.idle link) s = .next s) ∧
  (∀ (s : State) (link : BitVec 4) (v : BitVec 56), s.alive = true →
    let k := link.toNat
    (s.lkRole k ≠ 3 ∨ s.lkState k ≠ 3 ∨ s.rdb F.PAIR_CFG.EN = false ∨ s.rd F.PAIR_STAT.ROLE ≠ 1 →
      exec (.time link v) s = .next s) ∧
    (s.lkRole k = 3 → s.lkState k = 3 → s.rdb F.PAIR_CFG.EN = true → s.rd F.PAIR_STAT.ROLE = 1 →
      ∃ t, exec (.time link v) s = .next t ∧ t.host = s.host ∧ t.units = s.units ∧
        ∀ d : Int, -(2 ^ 55) ≤ d → d < 2 ^ 55 → ((v.toNat : Int) - s.now - d) % 2 ^ 56 = 0 →
          t.rd64 F.PAIR_TB_OFS_LO.OFS = (d % 2 ^ 64).toNat)) ∧
  (∀ (s : State) (link : BitVec 4) (sleep : Bool), s.alive = true → s.lkState link.toNat = 3 →
    ∃ t, exec (.squelch link sleep) s = .next t ∧ t.rd F.LNK_STAT.RX_PWR link.toNat = (if sleep then 2 else 1) ∧
      t.lkState link.toNat = 3 ∧ t.host = s.host ∧ t.units = s.units) ∧
  (∀ (s : State) (link : BitVec 4) (v : BitVec 56), s.alive = true → s.lkState link.toNat = 3 →
    let k := link.toNat
    (∀ t0, (s.link k).echoAt = some t0 → t0 % 2 ^ 56 = v.toNat → ∃ t, exec (.echo link v) s = .next t ∧
      t.rd F.LNK_RTT.RTT k = min 65535 (s.now - t0) ∧ t.link k = { s.link k with echoAt := none } ∧ t.mem = s.mem) ∧
    ((s.link k).echoAt = none → s.rd F.LNK_STAT.TX_PWR k = 0 → ∃ t, exec (.echo link v) s = .next t ∧
      (t.link k).lastSet = some (0x87, v.toNat) ∧ t.regs = s.regs)) ∧
  (∀ (s : State) (link : BitVec 4), s.alive = true → s.lkState link.toNat = 3 → s.rd F.LNK_STAT.TX_PWR link.toNat = 0 →
    let k := link.toNat
    (s.lkRole k = 0 ∨ s.now < (s.link k).timeAt + 1024 → exec (.timeSendInterval link) s = .next s) ∧
    (s.lkRole k ≠ 0 → (s.link k).timeAt + 1024 ≤ s.now → ∃ t, exec (.timeSendInterval link) s = .next t ∧
      t.link k = { s.link k with timeAt := s.now, lastSet := some (0x66, (s.now + s.rd F.LNK_RTT.RTT k / 2) % 2 ^ 56) } ∧
      (∀ j, j ≠ k → t.link j = s.link j) ∧ t.regs = s.regs ∧ t.mem = s.mem) ∧
    let u := s.txLink k
    (s.rd F.LNK_CFG.IDLE_T k = 0 ∨ u.lkQuiet k = false → exec (.idleTimeout link) s = .next u) ∧
    (s.rd F.LNK_CFG.IDLE_T k ≠ 0 → u.lkQuiet k = true → (u.link k).quietAt + s.rd F.LNK_CFG.IDLE_T k * 64 ≤ s.now →
      ∃ t, exec (.idleTimeout link) s = .next t ∧ t.rd F.LNK_STAT.TX_PWR k = 1 ∧ (t.link k).lastSet = some (0x78, 0) ∧
        (t.link k).quietAt = s.now ∧ t.lkState k = 3 ∧ t.mem = s.mem ∧ t.host = s.host)) ∧
  (∀ (s : State) (link : BitVec 4), s.alive = true →
    let k := link.toNat
    (s.rd F.LNK_STAT.TX_PWR k = 1 → s.rd F.LNK_CFG.SLEEP_T k ≠ 0 →
      (s.link k).quietAt + s.rd F.LNK_CFG.SLEEP_T k * 1000 ≤ s.now → ∃ t, exec (.sleepTimeout link) s = .next t ∧
        t.rd F.LNK_STAT.TX_PWR k = 2 ∧ (t.link k).lastSet = some (0x78, 1) ∧ t.lkState k = s.lkState k ∧ t.mem = s.mem) ∧
    (s.rd F.LNK_STAT.TX_PWR k ≠ 1 → exec (.sleepTimeout link) s = .next s) ∧
    (s.lkState k = 3 → s.rd F.LNK_STAT.TX_PWR k ≠ 0 → s.rd F.CLK_STATUS.PSTATE = 0 →
      (((s.txLink k).link k).owed ≠ [] ∨ ((s.txLink k).link k).txq ≠ []) → ∃ t, exec (.linkWake link) s = .next t ∧
        t.rd F.LNK_STAT.TX_PWR k = 0 ∧ (t.link k).owed = [] ∧ (t.link k).txq = ((s.txLink k).link k).txq ∧ (t.link k).quietAt = s.now ∧
        (t.link k).dataAt = s.now + (if s.rd F.LNK_STAT.TX_PWR k = 1 then 40 else 2000) ∧
        t.lkState k = 3 ∧ t.mem = s.mem ∧ t.host = s.host) ∧
    (s.rd F.LNK_STAT.TX_PWR k = 0 → exec (.linkWake link) s = .next (s.txLink k)))
/-! ### Redundant pairs -/

/-- Heartbeat, keepalives and takeover (R435, R443, R446, R447): PAIR_HB_OUT toggles while the device runs in pair mode and is
low otherwise; an edge of PAIR_HB_IN shows the partner present, and HB_TO without one absent; CONTROL flits go out on the mirror
links that are UP; with neither edges nor flits a standby with AUTO takes over. -/
def heartbeatsKeepThePair : Prop :=
  (∀ s : State, ∃ t, exec .heartbeatToggle s = .next t ∧
    t.pair = { s.pair with hbOut := if s.heartbeatOn then !s.pair.hbOut else false } ∧ t.regs = s.regs ∧ t.mem = s.mem ∧
    t.host = s.host ∧ t.events = s.events) ∧
  (∀ s : State, s.alive = true →
    (s.rdb F.GLB_STATUS.BOOT_OK = false → exec .pairHbInEdge s = .next s) ∧
    (s.rdb F.GLB_STATUS.BOOT_OK = true → ∃ t, exec .pairHbInEdge s = .next t ∧ t.rd F.PAIR_STAT.PARTNER_HB = 1 ∧
      t.pair = { s.pair with hbAt := s.now, hbFault := false } ∧ t.host = s.host ∧ t.mem = s.mem ∧ t.events = s.events)) ∧
  (∀ s : State, s.alive = true →
    (s.hbLost = false → exec .heartbeatTimeout s = .next s ∧ exec .pairTakeover s = .next s) ∧
    (s.hbLost = true → ∃ t, exec .heartbeatTimeout s = .next t ∧ t.rd F.PAIR_STAT.PARTNER_HB = 0 ∧
      (s.now < s.pair.flitAt + s.hbTo → s.pair.hbFault = false → t.pair = { s.pair with hbFault := true } ∧
        (s.recovery = false → t.events.map (·.code) = 0x0B04 :: s.events.map (·.code))) ∧
      (s.pair.flitAt + s.hbTo ≤ s.now ∨ s.pair.hbFault = true → t.pair = s.pair ∧ t.events = s.events) ∧
      t.rd F.PAIR_STAT.ROLE = s.rd F.PAIR_STAT.ROLE ∧ t.mem = s.mem)) ∧
  (∀ s : State, s.alive = true → s.hbLost = true → s.pair.flitAt + s.hbTo ≤ s.now → s.rdb F.PAIR_CFG.AUTO = true →
    s.rd F.PAIR_STAT.ROLE = 1 → ∃ t, exec .pairTakeover s = .next t ∧ t.rd F.PAIR_STAT.ROLE = 0 ∧ t.rd F.PAIR_STAT.STATE = 4 ∧
      t.pair.releaseAt = some (s.now + s.rd F.PAIR_TMO.SEL_T) ∧ t.pair.sel = true ∧ t.pair.recs = [] ∧ t.pair.handover = none ∧
      (s.recovery = false → t.events.map (·.code) = 0x0B03 :: s.events.map (·.code)) ∧ t.mem = s.mem) ∧
  (∀ (s : State) (second : Bool), s.alive = true →
    let k := if second then 15 else 14
    (s.rdb F.PAIR_CFG.EN = false ∨ s.lkState k ≠ 3 → exec (.controlFlitInterval second) s = .next s) ∧
    (s.rdb F.PAIR_CFG.EN = true → s.lkState k = 3 → ∃ t, exec (.controlFlitInterval second) s = .next t ∧
      (t.link k).txq = (s.link k).txq ++ [⟨3, 0, false, 0,
        padTo 59 (controlBytes 0 s.step32 s.now) ++ [BitVec.ofNat 8 s.pair.seqOut]⟩] ∧
      t.pair = { s.pair with seqOut := (s.pair.seqOut + 1) % 256 } ∧ (∀ j, j ≠ k → t.link j = s.link j) ∧
      t.regs = s.regs ∧ t.mem = s.mem ∧ t.host = s.host ∧ t.events = s.events))

/-- PAIR_FAILOVER and PAIR_JOIN (R448, R451, R452): refused without a pair or its partner, busy while one is under way; a
failover of the primary waits for its handover, one of the standby takes over at once; a join waits for the copy. -/
def pairCommandsChangeRoles : Prop :=
  (∀ (s : State) (ref : CmdRef), s.takes ref 0x0B01 →
    let u := s.accept ref 0x0B01
    (s.rdb F.PAIR_CFG.EN = false → exec (.pairFailover ref) s = .next (u.complete ref stRefused)) ∧
    (s.rd F.PAIR_STAT.ROLE = 0 → s.rdb F.PAIR_STAT.PARTNER_HB = false →
      exec (.pairFailover ref) s = .next (u.complete ref stRefused)) ∧
    (s.rdb F.PAIR_CFG.EN = true → (s.rd F.PAIR_STAT.ROLE ≠ 0 ∨ s.rdb F.PAIR_STAT.PARTNER_HB = true) →
      s.pair.failover.isSome = true → exec (.pairFailover ref) s = .next (u.complete ref stBusy)) ∧
    (s.rdb F.PAIR_CFG.EN = true → s.pair.failover = none →
      (s.rd F.PAIR_STAT.ROLE = 0 → s.rdb F.PAIR_STAT.PARTNER_HB = true → ∃ t, exec (.pairFailover ref) s = .next t ∧
        t.pair = { s.pair with failover := some ref, yielding := true } ∧ t.rd F.PAIR_STAT.ROLE = 0 ∧ t.mem = s.mem ∧
        t.events = s.events) ∧
      (s.rd F.PAIR_STAT.ROLE = 1 → ∃ t, exec (.pairFailover ref) s = .next t ∧ t.rd F.PAIR_STAT.ROLE = 0 ∧
        t.pair.failover = some ref ∧ t.pair.out = s.pair.out ++ [.control 2 s.step32 s.now] ∧ t.pair.sel = true ∧
        t.pair.releaseAt = some (s.now + s.rd F.PAIR_TMO.SEL_T) ∧ t.mem = s.mem))) ∧
  (∀ (s : State) (ref : CmdRef) (same : Bool), s.takes ref 0x0B02 →
    let u := s.accept ref 0x0B02
    (s.rdb F.PAIR_CFG.EN = false ∨ s.rd F.PAIR_STAT.ROLE ≠ 0 ∨ s.rdb F.PAIR_STAT.PARTNER_HB = false ∨ same = false →
      exec (.pairJoin ref same) s = .next (u.complete ref stRefused)) ∧
    (s.rdb F.PAIR_CFG.EN = true → s.rd F.PAIR_STAT.ROLE = 0 → s.rdb F.PAIR_STAT.PARTNER_HB = true → same = true →
      (s.pair.join.isSome = true → exec (.pairJoin ref same) s = .next (u.complete ref stBusy)) ∧
      (s.pair.join = none → ∃ t, exec (.pairJoin ref same) s = .next t ∧
        t.pair = { s.pair with join := some ref, joinStep := none } ∧ t.mem = s.mem ∧ t.events = s.events)))

/-- Redundant pairs (R435, R443, R446 to R448, R451, R452). -/
def Obligations.PairsKeepAliveAndChangeRoles : Prop :=
  heartbeatsKeepThePair ∧ pairCommandsChangeRoles

/-! ### Security, trace and test access -/

/-- Fuses and flash (R455, R456, R459, R460, R467): a field is blown only with FUSE_EN, one operation at a time, and only bits
that the field has; blowing sets bits and clears none; SVN_CTR only rises; firmware and certificate are written once verified. -/
def fusesAndFlashAreWritten : Prop :=
  (∀ (s : State) (ref : CmdRef) (field : BitVec 8) (v : BitVec 384), s.takes ref 0x0C04 →
    let u := s.accept ref 0x0C04
    let k := field.toNat
    (k < 1 ∨ 7 < k ∨ 2 ^ fuseWidth k ≤ v.toNat → exec (.secFuse ref field v) s = .next (u.complete ref stRange)) ∧
    (1 ≤ k → k ≤ 7 → v.toNat < 2 ^ fuseWidth k →
      (s.rdb F.SEC_CTRL.FUSE_EN = false → exec (.secFuse ref field v) s = .next (u.complete ref stRefused)) ∧
      (s.rdb F.SEC_CTRL.FUSE_EN = true → s.sec.fuseOp.isSome = true →
        exec (.secFuse ref field v) s = .next (u.complete ref stBusy)) ∧
      (s.rdb F.SEC_CTRL.FUSE_EN = true → s.sec.fuseOp = none →
        (k ≤ 4 → bit (s.rd F.SEC_FUSE_STAT.CKH_PROG) (k - 1) = true →
          exec (.secFuse ref field v) s = .next (u.complete ref stRefused)) ∧
        (4 < k ∨ bit (s.rd F.SEC_FUSE_STAT.CKH_PROG) (k - 1) = false → ∃ t, exec (.secFuse ref field v) s = .next t ∧
          t.sec = { s.sec with fuseOp := some ⟨some ref, k, leBytes 48 v.toNat⟩ } ∧ t.mem = s.mem ∧ t.events = s.events ∧
          t.rd F.SEC_FUSE_STAT.CKH_PROG = s.rd F.SEC_FUSE_STAT.CKH_PROG)))) ∧
  (∀ (s : State) (ref : CmdRef), s.takes ref 0x0C03 → s.sec.fuseOp = none →
    (s.rd F.SEC_BOOT.FW_SVN ≤ s.rd F.SEC_BOOT.SVN_CTR →
      exec (.secSvnAdvance ref) s = .next ((s.accept ref 0x0C03).complete ref stDone (s.rd F.SEC_BOOT.SVN_CTR))) ∧
    (s.rd F.SEC_BOOT.SVN_CTR < s.rd F.SEC_BOOT.FW_SVN → ∃ t, exec (.secSvnAdvance ref) s = .next t ∧
      t.sec = { s.sec with fuseOp := some ⟨some ref, 8, [BitVec.ofNat 8 (s.rd F.SEC_BOOT.FW_SVN)]⟩ } ∧
      t.rd F.SEC_BOOT.SVN_CTR = s.rd F.SEC_BOOT.SVN_CTR ∧ t.mem = s.mem ∧ t.events = s.events)) ∧
  (∀ s : State, s.alive = true →
    (s.sec.fuseOp = none → exec .fuseProgrammingComplete s = .next s) ∧
    (∀ ref v, s.sec.fuseOp = some ⟨some ref, 8, [v]⟩ → ∃ t, exec .fuseProgrammingComplete s = .next t ∧ t.sec.fuseOp = none ∧
      t.rd F.SEC_BOOT.SVN_CTR = v.toNat ∧ t.rd F.SEC_FUSE_STAT.CKH_REVOKE = s.rd F.SEC_FUSE_STAT.CKH_REVOKE ∧
      t.sec.ckh = s.sec.ckh ∧ t.mem = s.mem) ∧
    (∀ ref v, s.sec.fuseOp = some ⟨some ref, 5, v⟩ → leNat v < 16 → ∃ t, exec .fuseProgrammingComplete s = .next t ∧
      t.sec.fuseOp = none ∧ (∀ i, bit (t.rd F.SEC_FUSE_STAT.CKH_REVOKE) i =
        (bit (s.rd F.SEC_FUSE_STAT.CKH_REVOKE) i || bit (leNat v) i)) ∧
      t.rd F.SEC_FUSE_STAT.CKH_PROG = s.rd F.SEC_FUSE_STAT.CKH_PROG ∧ t.sec.ckh = s.sec.ckh ∧ t.mem = s.mem)) ∧
  (∀ (s : State) (ref : CmdRef) (part : BitVec 8) (addr : BitVec 64) (len : BitVec 32), s.takes ref 0x0C02 →
    s.portUp (s.cmdPort ref) = true →
    let u := s.accept ref 0x0C02
    let img := s.hostRead (s.cmdPort ref) addr.toNat len.toNat
    len.toNat = 128 + fieldAt img 0x10 4 + 256 →
    (s.sec.flashOp.isSome = true → exec (.secFwUpdate ref 0 part addr len) s = .next (u.complete ref stBusy)) ∧
    (s.sec.flashOp = none → ∃ t, exec (.secFwUpdate ref 0 part addr len) s = .next t ∧
      (u.fwCheck (fun o n => slice img o n) ≠ 0 →
        t = (u.authFail 1 (slice img (len.toNat - 256) 256)).complete ref stAuthFailed) ∧
      (u.fwCheck (fun o n => slice img o n) = 0 →
        t.sec.flashOp = some ⟨some ref, 3, 0, len.toNat, img, fieldAt img 8 1, false, 0, 0⟩ ∧ t.mem = s.mem ∧
        t.events = s.events))) ∧
  (∀ (s : State) (ref : CmdRef) (addr : BitVec 64) (len : BitVec 16), s.takes ref 0x0C07 → 5 ≤ len.toNat → len.toNat ≤ 4096 →
    s.portUp (s.cmdPort ref) = true →
    let u := s.accept ref 0x0C07
    let d := s.hostRead (s.cmdPort ref) addr.toNat len.toNat
    fieldAt d 0 4 = len.toNat - 4 →
    ∃ t, exec (.secCertWrite ref addr len) s = .next t ∧
      (holdsIdentity (d.drop 4) = false → t = u.complete ref stRefused) ∧
      (holdsIdentity (d.drop 4) = true → s.sec.flashOp = none →
        t.sec.flashOp = some ⟨some ref, 4, 0x00410000, len.toNat, d, 0, false, 0, 0⟩ ∧ t.mem = s.mem ∧ t.events = s.events))

/-- Attestation, secured cores and trace tokens (R465, R468, R469, R475): a report is written and its timestamp returned;
secure ranges before and after are zero on cores that do not run; a token is loaded only for this device and this boot, and is
removed by address 0 or when it expires. -/
def attestationTokensAndSecureCores : Prop :=
  (∀ (s : State) (ref : CmdRef) (sign part : BitVec 8) (addr : BitVec 64) (nonce : BitVec 384), s.takes ref 0x0C01 →
    sign.toNat ≤ 1 →
    let u := s.accept ref 0x0C01
    let p := s.cmdPort ref
    let rep := u.attestReport (sign = 1) (leBytes 48 nonce.toNat)
    rep.length = 1280 ∧
    (s.portUp p = false → exec (.secAttest ref sign 0 part addr nonce) s = .next (u.complete ref stIncomplete)) ∧
    (s.portUp p = true → ∃ t v : State, exec (.secAttest ref sign 0 part addr nonce) s = .next t ∧
      t = v.complete ref stDone s.now ∧ v.hostRead p addr.toNat 1280 = rep ∧ v.regs = u.regs ∧ v.mem = s.mem ∧
      v.events = s.events)) ∧
  (∀ (s : State) (ref : CmdRef) (mask : BitVec 64) (pages sec : BitVec 8), s.takes ref 0x0C05 →
    ((∃ n ∈ maskBits 64 mask.toNat, s.rdb F.SC_CTRL.RUN n = true) →
      exec (.secCoreSecure ref mask pages sec) s = .next ((s.accept ref 0x0C05).complete ref stRefused)) ∧
    ((∀ n ∈ maskBits 64 mask.toNat, s.rdb F.SC_CTRL.RUN n = false) → ∃ t v : State,
      exec (.secCoreSecure ref mask pages sec) s = .next t ∧ t = v.complete ref stDone ∧
      (∀ n ∈ maskBits 64 mask.toNat, v.rd F.SC_SEC.PAGES n = pages.toNat ∧ v.rd F.SC_SEC.XSEC n = bits sec.toNat 3 0 ∧
        v.rd F.SC_SEC.YSEC n = bits sec.toNat 7 4 ∧
        (∀ k, k < 8 → bit (v.rd F.SC_STATUS.VALID n) k =
          (bit (s.rd F.SC_STATUS.VALID n) k && (bit (s.rd F.SC_SEC.PAGES n) k == bit pages.toNat k))) ∧
        (∀ w, 0x10000 ≤ 4 * w + 4096 * max (bits sec.toNat 3 0) (s.rd F.SC_SEC.XSEC n) → (v.core n).word false w = ⟨0, false⟩) ∧
        (∀ w, 0x10000 ≤ 4 * w + 4096 * max (bits sec.toNat 7 4) (s.rd F.SC_SEC.YSEC n) → (v.core n).word true w = ⟨0, false⟩)) ∧
      (∀ n, n ∉ maskBits 64 mask.toNat → v.core n = s.core n) ∧ v.mem = s.mem ∧ v.events = s.events)) ∧
  (∀ (s : State) (ref : CmdRef), s.takes ref 0x0C06 →
    exec (.secTraceAuth ref 0) s = .next ((s.accept ref 0x0C06).tokenEnd.complete ref stDone)) ∧
  (∀ (s : State) (ref : CmdRef) (addr : BitVec 64), s.takes ref 0x0C06 → addr ≠ 0 → s.portUp (s.cmdPort ref) = true →
    let u := s.accept ref 0x0C06
    let b := s.hostRead (s.cmdPort ref) addr.toNat 320
    let ok := u.sigOk 0x47495354 [0, 1, 2, 3, 4] (hash (slice b 0 64)) (slice b 64 256)
    ∃ t, exec (.secTraceAuth ref addr) s = .next t ∧
    (ok = false → t = (u.authFail 5 (slice b 64 256)).complete ref stAuthFailed) ∧
    (ok = true → fieldAt b 8 8 ≠ s.rd64 F.GLB_SERIAL_LO.SERIAL ∨ fieldAt b 16 8 ≠ s.rd64 F.SEC_BOOT_NONCE_LO.NONCE →
      t = u.complete ref stAuthFailed) ∧
    (ok = true → fieldAt b 0 4 = 0x4B4F5454 → fieldAt b 4 2 = 1 → fieldAt b 8 8 = s.rd64 F.GLB_SERIAL_LO.SERIAL →
      fieldAt b 16 8 = s.rd64 F.SEC_BOOT_NONCE_LO.NONCE → (fieldAt b 24 8 = 0 ∨ s.now < fieldAt b 24 8) →
      ∃ v : State, t = v.complete ref stDone ∧
        v.rd F.SEC_TRC_AUTH.VALID = 1 ∧ v.rd F.SEC_TRC_AUTH.SCOPE = fieldAt b 40 4 % 4 ∧
        v.rd64 F.SEC_TRC_AUTH_NA_LO.NOT_AFTER = fieldAt b 24 8 ∧ v.trcCores = BitVec.ofNat 64 (fieldAt b 32 8) ∧
        (s.recovery = false → v.events.map (·.code) = 0x0C04 :: s.events.map (·.code)) ∧ v.mem = s.mem)) ∧
  (∀ s : State, s.alive = true →
    let na := s.rd64 F.SEC_TRC_AUTH_NA_LO.NOT_AFTER
    (na = 0 ∨ s.now < na → exec .traceTokenExpiry s = .next s) ∧
    (na ≠ 0 → na ≤ s.now → s.rdb F.SEC_TRC_AUTH.VALID = true → ∃ t, exec .traceTokenExpiry s = .next t ∧
      t.rd F.SEC_TRC_AUTH.VALID = 0 ∧ t.rd F.SEC_TRC_AUTH.SCOPE = 0 ∧ t.trcCores = 0 ∧
      t.rd64 F.SEC_TRC_AUTH_NA_LO.NOT_AFTER = 0 ∧
      (s.recovery = false → t.events.map (·.code) = 0x0C05 :: s.events.map (·.code)) ∧ t.mem = s.mem))

/-- Fuses, flash, attestation, tokens and secured cores (R455, R456, R459, R460, R465, R467 to R469, R475). -/
def Obligations.SecurityCommandsTakeEffect : Prop :=
  fusesAndFlashAreWritten ∧ attestationTokensAndSecureCores

/-- Trace (R470, R471): while EN is 1 only EN changes; EN rising begins every stream afresh; the port sends an alignment frame
after every 255, then a source's frame or an idle one; the HBM sink stops when its ring is full or nothing waits. -/
def traceStartsStopsAndFrames : Prop :=
  (∀ (s : State) (v : BitVec 32), s.bar0Open 0x4F0000 = true →
    (s.rdb F.TRC_CTRL.EN = true → ∃ t, exec (.trcCtrlEnWrite v) s = .next t ∧
      t.rdb F.TRC_CTRL.EN = v.getLsbD 31 ∧ t.rd F.TRC_CTRL.SINK = s.rd F.TRC_CTRL.SINK ∧
      t.rd F.TRC_CTRL.WRAP = s.rd F.TRC_CTRL.WRAP ∧ t.rd F.TRC_CTRL.DISP = s.rd F.TRC_CTRL.DISP ∧
      (v.getLsbD 31 = false → t.trc = [] ∧ t.rd F.TRC_STAT.ACTIVE = 0) ∧ (v.getLsbD 31 = true → t.trc = s.trc) ∧
      t.mem = s.mem ∧ t.host = s.host) ∧
    (s.rdb F.TRC_CTRL.EN = false → ∃ t, exec (.trcCtrlEnWrite v) s = .next t ∧
      t.rdb F.TRC_CTRL.EN = v.getLsbD 31 ∧ t.rd F.TRC_CTRL.SINK = bits v.toNat 30 30 ∧
      t.rd F.TRC_CTRL.WRAP = bits v.toNat 29 29 ∧ t.rd F.TRC_CTRL.DISP = bits v.toNat 28 28 ∧
      (v.getLsbD 31 = true → t.trc = [] ∧ t.trcNext = 0 ∧ t.trcFrames = 0 ∧ t.rd64 F.TRC_WPTR_LO.BYTES = 0 ∧
        t.rd F.TRC_STAT.FULL = 0) ∧ t.mem = s.mem ∧ t.host = s.host)) ∧
  (∀ s : State, s.alive = true →
    (s.rdb F.TRC_CTRL.EN = false → exec .traceFrame s = .next s) ∧
    (s.rdb F.TRC_CTRL.EN = true → s.rdb F.TRC_CTRL.SINK = true → ∃ t, exec .traceFrame s = .next t ∧
      t.rd F.TRC_STAT.ACTIVE = 1 ∧ t.trcPort.length = 16 ∧ t.mem = s.mem ∧ t.host = s.host ∧
      (s.trcFrames = 255 → t.trcPort = List.replicate 16 0xF0 ∧ t.trcFrames = 0 ∧ t.trc = s.trc) ∧
      (s.trcFrames ≠ 255 → t.trcFrames = s.trcFrames + 1 ∧
        (s.trcTurn = none → t.trcPort = 0xFF :: List.replicate 15 0 ∧ t.trc = s.trc) ∧
        (∀ n, s.trcTurn = some n → n < 65 ∧ fieldAt t.trcPort 0 1 = n ∧
          fieldAt t.trcPort 1 1 = min 14 (s.trcSrc n).buf.length ∧
          t.trcPort = padTo 16 (BitVec.ofNat 8 n :: BitVec.ofNat 8 (min 14 (s.trcSrc n).buf.length) :: (s.trcSrc n).buf.take 14) ∧
          (t.trcSrc n).buf = (s.trcSrc n).buf.drop 14 ∧ t.trcNext = (n + 1) % 65 ∧
          (∀ m, m ≠ n → t.trcSrc m = s.trcSrc m)))) ∧
    (s.rdb F.TRC_CTRL.EN = true → s.rdb F.TRC_CTRL.SINK = false → s.rdb F.TRC_STAT.FULL = true → exec .traceFrame s = .next s))

/-- JTAG (R478 to R480): each instruction becomes the current one and shifts out its data register; boundary instructions take
the pads and raise JTAG_EXTEST; test logic reset selects IDCODE; DBG answers the request before, or acts as BYPASS where it is
disabled. -/
def jtagInstructionsScanTheirRegister : Prop :=
  (∀ s : State, s.alive = true → s.sec.jtag ≠ 0 → s.sec.jtag ≠ 3 → s.sec.jtag ≠ 4 →
    (∃ t, exec .idcode s = .next t ∧ t.sec = { s.sec with jtag := 2, drOut := (List.range 32).map (bit (s.rdReg 0)) } ∧
      t.regs = s.regs ∧ t.events = s.events ∧ t.mem = s.mem ∧ t.host = s.host) ∧
    (∀ code, code.toNat ≥ 5 → code.toNat ≠ 0x10 → ∃ t, exec (.bypass code) s = .next t ∧
      t.sec = { s.sec with jtag := code.toNat, drOut := [false] } ∧ t.regs = s.regs ∧ t.events = s.events) ∧
    (∀ pins other scan, ∃ t, exec (.samplePreload pins other scan) s = .next t ∧
      t.sec = { s.sec with jtag := 1, drOut := Config.bsdlCapture pins other, boundary := scan } ∧ t.regs = s.regs ∧
      t.events = s.events ∧ t.mem = s.mem) ∧
    (∀ request, s.rdb F.SEC_FUSE_STAT.DBG_DIS = true → ∃ t, exec (.dbg request) s = .next t ∧
      t.sec = { s.sec with jtag := 0x10, drOut := [false] } ∧ t.regs = s.regs) ∧
    (∀ request, s.rdb F.SEC_FUSE_STAT.DBG_DIS = false → request.getLsbD 63 = false → ∃ t, exec (.dbg request) s = .next t ∧
      t.sec = { s.sec with jtag := 0x10, drOut := (List.range 64).map (bit s.sec.dbg.toNat), dbg := 0 } ∧ t.regs = s.regs) ∧
    (∀ pins other scan, ∃ t, exec (.extest pins other scan) s = .next t ∧ t.sec.jtag = 0 ∧
      t.sec.drOut = Config.bsdlCapture pins other ∧ t.sec.boundary = scan ∧
      (∀ p : BitVec 9, t.rdb F.PIN_STAT.OE p.toNat = (Config.bsdlPad scan p.toNat).2) ∧
      (s.recovery = false → t.events.map (·.code) = 0x0C07 :: s.events.map (·.code))) ∧
    (∃ t, exec .highz s = .next t ∧ t.sec.jtag = 3 ∧ t.sec.drOut = [false] ∧
      (∀ p : BitVec 9, t.rdb F.PIN_STAT.OE p.toNat = false)) ∧
    (∃ t, exec .clamp s = .next t ∧ t.sec.jtag = 4 ∧ t.sec.boundary = s.sec.boundary ∧
      (∀ p : BitVec 9, t.rdb F.PIN_STAT.OE p.toNat = (Config.bsdlPad s.sec.boundary p.toNat).2))) ∧
  (∀ s : State, s.alive = true → ∃ t, exec .jtagTestLogicReset s = .next t ∧ t.sec.jtag = 2 ∧
    (∀ b : BitVec 4, t.rd F.PIN_BANK_CTRL.RELEASE b.toNat = 0 ∧ t.rd F.PIN_BANK_STAT.RELEASED b.toNat = 0) ∧
    (∀ k : BitVec 3, t.rd F.PIN_DCO_CTRL.EN k.toNat = 0) ∧ t.mem = s.mem ∧ t.host = s.host ∧ t.events = s.events)

/-- Trace and test access (R470, R471, R478 to R480). -/
def Obligations.TraceAndTestAccessFollowTheirRules : Prop :=
  traceStartsStopsAndFrames ∧ jtagInstructionsScanTheirRegister
end

