-- ==== Sys2Proof/Laws/Sparse.lean ====
section
/-! SUPPORT. Laws of sparse storage: what a read finds after a write, and that every write keeps the canonical form. -/

namespace Sys2Proof.Machine

variable {α : Type}

@[simp] theorem Sparse.find_nil (i : Nat) : Sparse.find ([] : List (Nat × α)) i = none := rfl

theorem Sparse.find_cons (k : Nat) (v : α) (l : List (Nat × α)) (i : Nat) :
    Sparse.find ((k, v) :: l) i = if k = i then some v else Sparse.find l i := rfl

theorem Sparse.erase_cons (k : Nat) (v : α) (l : List (Nat × α)) (i : Nat) :
    Sparse.erase ((k, v) :: l) i = if k = i then Sparse.erase l i else (k, v) :: Sparse.erase l i := by
  by_cases h : k = i <;> simp [Sparse.erase, h]

/-- What a key reads as once another, or itself, has been erased. -/
theorem Sparse.find_erase : ∀ (m : List (Nat × α)) (i j : Nat),
    Sparse.find (Sparse.erase m i) j = if j = i then none else Sparse.find m j
  | [], _, _ => by simp [Sparse.erase]
  | (k, v) :: l, i, j => by
    have ih := Sparse.find_erase l i j
    simp only [Sparse.erase_cons, Sparse.find_cons]
    split <;> rename_i hk
    · subst hk; rw [ih]; split <;> simp_all [eq_comm]
    · rw [Sparse.find_cons, ih]; split <;> simp_all

/-- What a key reads as once another, or itself, has been inserted. -/
theorem Sparse.find_insert : ∀ (m : List (Nat × α)) (i j : Nat) (a : α),
    Sparse.find (Sparse.insert m i a) j = if j = i then some a else Sparse.find m j
  | [], i, j, a => by simp [Sparse.insert, Sparse.find, eq_comm]
  | (k, v) :: l, i, j, a => by
    have ih := Sparse.find_insert l i j a
    unfold Sparse.insert
    split
    · simp [Sparse.find, eq_comm]
    · split
      · rename_i hik
        subst hik
        simp only [Sparse.find_cons, eq_comm]; split <;> rfl
      · simp only [Sparse.find_cons, ih]; split <;> split <;> simp_all

/-- A read after a write: the value written at its key, what was there before at every other. -/
theorem Sparse.get_set [DecidableEq α] (d : Nat → α) (m : List (Nat × α)) (i j : Nat) (a : α) :
    Sparse.get d (Sparse.set d m i a) j = if j = i then a else Sparse.get d m j := by
  simp only [Sparse.get, Sparse.set]
  by_cases ha : a = d i <;> by_cases hj : j = i <;> simp [ha, hj, Sparse.find_erase, Sparse.find_insert]

@[simp] theorem Sparse.get_set_same [DecidableEq α] (d : Nat → α) (m : List (Nat × α)) (i : Nat) (a : α) :
    Sparse.get d (Sparse.set d m i a) i = a := by simp [Sparse.get_set]

theorem Sparse.get_set_other [DecidableEq α] (d : Nat → α) (m : List (Nat × α)) {i j : Nat} (a : α) (h : j ≠ i) :
    Sparse.get d (Sparse.set d m i a) j = Sparse.get d m j := by simp [Sparse.get_set, h]

@[simp] theorem Sparse.get_nil (d : Nat → α) (i : Nat) : Sparse.get d [] i = d i := rfl

theorem Sparse.erase_all (p : Nat × α → Bool) (m : List (Nat × α)) (i : Nat) (h : m.all p = true) :
    (Sparse.erase m i).all p = true := by
  simp only [Sparse.erase, List.all_eq_true, List.mem_filter] at *
  exact fun e he => h e he.1

theorem Sparse.insert_all (p : Nat × α → Bool) : ∀ (m : List (Nat × α)) (i : Nat) (a : α), m.all p = true →
    p (i, a) = true → (Sparse.insert m i a).all p = true
  | [], _, _, _, ha => by simp [Sparse.insert, ha]
  | (k, v) :: l, i, a, h, ha => by
    rw [List.all_cons, Bool.and_eq_true] at h
    have ih := Sparse.insert_all p l i a h.2 ha
    unfold Sparse.insert
    split
    · rw [List.all_cons, List.all_cons, ha, h.1, h.2]; rfl
    · split
      · rw [List.all_cons, ha, h.2]; rfl
      · rw [List.all_cons, h.1, ih]; rfl

theorem Sparse.rising_erase : ∀ (m : List (Nat × α)) (i : Nat), Sparse.rising m = true → Sparse.rising (Sparse.erase m i) = true
  | [], _, _ => rfl
  | (k, v) :: l, i, h => by
    have hh := (Bool.and_eq_true _ _).mp h
    have ih := Sparse.rising_erase l i hh.2
    rw [Sparse.erase_cons]
    split
    · exact ih
    · exact (Bool.and_eq_true _ _).mpr ⟨Sparse.erase_all _ l i hh.1, ih⟩

theorem Sparse.rising_insert : ∀ (m : List (Nat × α)) (i : Nat) (a : α), Sparse.rising m = true →
    Sparse.rising (Sparse.insert m i a) = true
  | [], _, _, _ => rfl
  | (k, v) :: l, i, a, h => by
    have hh := (Bool.and_eq_true _ _).mp h
    have ih := Sparse.rising_insert l i a hh.2
    have above := List.all_eq_true.mp hh.1
    unfold Sparse.insert
    split
    · rename_i hik
      refine (Bool.and_eq_true _ _).mpr ⟨List.all_eq_true.mpr fun e he => ?_, h⟩
      cases List.mem_cons.mp he with
      | inl q => rw [q]; exact decide_eq_true hik
      | inr q => have := of_decide_eq_true (above e q); exact decide_eq_true (by omega)
    · split
      · rename_i hik; rw [hik]; exact h
      · rename_i h1 h2
        exact (Bool.and_eq_true _ _).mpr ⟨Sparse.insert_all _ l i a hh.1 (decide_eq_true (by omega)), ih⟩

/-- A write keeps the canonical form. -/
theorem Sparse.wf_set [DecidableEq α] (d : Nat → α) (m : List (Nat × α)) (i : Nat) (a : α) (h : Sparse.wf d m = true) :
    Sparse.wf d (Sparse.set d m i a) = true := by
  simp only [Sparse.wf, Bool.and_eq_true] at h ⊢
  unfold Sparse.set
  split
  · exact ⟨Sparse.rising_erase m i h.1, Sparse.erase_all _ m i h.2⟩
  · rename_i ha
    exact ⟨Sparse.rising_insert m i a h.1, Sparse.insert_all _ m i a h.2 (decide_eq_true ha)⟩

/-- Erasing a key keeps the canonical form. -/
theorem Sparse.wf_erase [DecidableEq α] (d : Nat → α) (m : List (Nat × α)) (i : Nat) (h : Sparse.wf d m = true) :
    Sparse.wf d (Sparse.erase m i) = true := by
  simp only [Sparse.wf, Bool.and_eq_true] at h ⊢
  exact ⟨Sparse.rising_erase m i h.1, Sparse.erase_all _ m i h.2⟩

theorem Sparse.rising_keep (p : Nat → Bool) : ∀ m : List (Nat × α), Sparse.rising m = true →
    Sparse.rising (Sparse.keep p m) = true
  | [], _ => rfl
  | (k, v) :: l, h => by
    have hh := (Bool.and_eq_true _ _).mp h
    have ih := Sparse.rising_keep p l hh.2
    have above := List.all_eq_true.mp hh.1
    unfold Sparse.keep at ih ⊢
    rw [List.filter_cons]
    split
    · exact (Bool.and_eq_true _ _).mpr ⟨List.all_eq_true.mpr fun e he => above e ((List.mem_filter.mp he).1), ih⟩
    · exact ih

/-- Keeping some keys keeps the canonical form. -/
theorem Sparse.wf_keep [DecidableEq α] (d : Nat → α) (p : Nat → Bool) (m : List (Nat × α)) (h : Sparse.wf d m = true) :
    Sparse.wf d (Sparse.keep p m) = true := by
  have hh := (Bool.and_eq_true _ _).mp h
  exact (Bool.and_eq_true _ _).mpr ⟨Sparse.rising_keep p m hh.1,
    List.all_eq_true.mpr fun e he => List.all_eq_true.mp hh.2 e ((List.mem_filter.mp he).1)⟩

end Sys2Proof.Machine
end

