-- ==== Sys2Proof/Laws/State.lean ====
section
/-! SUPPORT. One lemma per field and update of the state: what each of the basic updates leaves as it was. -/

namespace Sys2Proof.Machine

variable (s : State)

/-! ### wrReg -/

@[simp] theorem State.wrReg_pending (off v : Nat) : (s.wrReg off v).pending = s.pending := (rfl)
@[simp] theorem State.wrReg_tb (off v : Nat) : (s.wrReg off v).tb = s.tb := (rfl)
@[simp] theorem State.wrReg_free (off v : Nat) : (s.wrReg off v).free = s.free := (rfl)
@[simp] theorem State.wrReg_events (off v : Nat) : (s.wrReg off v).events = s.events := (rfl)
@[simp] theorem State.wrReg_hostMem (off v : Nat) : (s.wrReg off v).hostMem = s.hostMem := (rfl)
@[simp] theorem State.wrReg_host (off v : Nat) : (s.wrReg off v).host = s.host := (rfl)
@[simp] theorem State.wrReg_mem (off v : Nat) : (s.wrReg off v).mem = s.mem := (rfl)
@[simp] theorem State.wrReg_clk (off v : Nat) : (s.wrReg off v).clk = s.clk := (rfl)
@[simp] theorem State.wrReg_fab (off v : Nat) : (s.wrReg off v).fab = s.fab := (rfl)
@[simp] theorem State.wrReg_pin (off v : Nat) : (s.wrReg off v).pin = s.pin := (rfl)
@[simp] theorem State.wrReg_cores (off v : Nat) : (s.wrReg off v).cores = s.cores := (rfl)
@[simp] theorem State.wrReg_dsp (off v : Nat) : (s.wrReg off v).dsp = s.dsp := (rfl)
@[simp] theorem State.wrReg_lnk (off v : Nat) : (s.wrReg off v).lnk = s.lnk := (rfl)
@[simp] theorem State.wrReg_pair (off v : Nat) : (s.wrReg off v).pair = s.pair := (rfl)
@[simp] theorem State.wrReg_trc (off v : Nat) : (s.wrReg off v).trc = s.trc := (rfl)
@[simp] theorem State.wrReg_trcNext (off v : Nat) : (s.wrReg off v).trcNext = s.trcNext := (rfl)
@[simp] theorem State.wrReg_trcCores (off v : Nat) : (s.wrReg off v).trcCores = s.trcCores := (rfl)
@[simp] theorem State.wrReg_trcPort (off v : Nat) : (s.wrReg off v).trcPort = s.trcPort := (rfl)
@[simp] theorem State.wrReg_trcFrames (off v : Nat) : (s.wrReg off v).trcFrames = s.trcFrames := (rfl)
@[simp] theorem State.wrReg_ela (off v : Nat) : (s.wrReg off v).ela = s.ela := (rfl)
@[simp] theorem State.wrReg_cap (off v : Nat) : (s.wrReg off v).cap = s.cap := (rfl)
@[simp] theorem State.wrReg_rad (off v : Nat) : (s.wrReg off v).rad = s.rad := (rfl)
@[simp] theorem State.wrReg_dec (off v : Nat) : (s.wrReg off v).dec = s.dec := (rfl)
@[simp] theorem State.wrReg_sec (off v : Nat) : (s.wrReg off v).sec = s.sec := (rfl)

/-! ### wr -/

@[simp] theorem State.wr_pending (f : Field) (v i j : Nat) : (s.wr f v i j).pending = s.pending := (rfl)
@[simp] theorem State.wr_tb (f : Field) (v i j : Nat) : (s.wr f v i j).tb = s.tb := (rfl)
@[simp] theorem State.wr_free (f : Field) (v i j : Nat) : (s.wr f v i j).free = s.free := (rfl)
@[simp] theorem State.wr_events (f : Field) (v i j : Nat) : (s.wr f v i j).events = s.events := (rfl)
@[simp] theorem State.wr_hostMem (f : Field) (v i j : Nat) : (s.wr f v i j).hostMem = s.hostMem := (rfl)
@[simp] theorem State.wr_host (f : Field) (v i j : Nat) : (s.wr f v i j).host = s.host := (rfl)
@[simp] theorem State.wr_mem (f : Field) (v i j : Nat) : (s.wr f v i j).mem = s.mem := (rfl)
@[simp] theorem State.wr_clk (f : Field) (v i j : Nat) : (s.wr f v i j).clk = s.clk := (rfl)
@[simp] theorem State.wr_fab (f : Field) (v i j : Nat) : (s.wr f v i j).fab = s.fab := (rfl)
@[simp] theorem State.wr_pin (f : Field) (v i j : Nat) : (s.wr f v i j).pin = s.pin := (rfl)
@[simp] theorem State.wr_cores (f : Field) (v i j : Nat) : (s.wr f v i j).cores = s.cores := (rfl)
@[simp] theorem State.wr_dsp (f : Field) (v i j : Nat) : (s.wr f v i j).dsp = s.dsp := (rfl)
@[simp] theorem State.wr_lnk (f : Field) (v i j : Nat) : (s.wr f v i j).lnk = s.lnk := (rfl)
@[simp] theorem State.wr_pair (f : Field) (v i j : Nat) : (s.wr f v i j).pair = s.pair := (rfl)
@[simp] theorem State.wr_trc (f : Field) (v i j : Nat) : (s.wr f v i j).trc = s.trc := (rfl)
@[simp] theorem State.wr_trcNext (f : Field) (v i j : Nat) : (s.wr f v i j).trcNext = s.trcNext := (rfl)
@[simp] theorem State.wr_trcCores (f : Field) (v i j : Nat) : (s.wr f v i j).trcCores = s.trcCores := (rfl)
@[simp] theorem State.wr_trcPort (f : Field) (v i j : Nat) : (s.wr f v i j).trcPort = s.trcPort := (rfl)
@[simp] theorem State.wr_trcFrames (f : Field) (v i j : Nat) : (s.wr f v i j).trcFrames = s.trcFrames := (rfl)
@[simp] theorem State.wr_ela (f : Field) (v i j : Nat) : (s.wr f v i j).ela = s.ela := (rfl)
@[simp] theorem State.wr_cap (f : Field) (v i j : Nat) : (s.wr f v i j).cap = s.cap := (rfl)
@[simp] theorem State.wr_rad (f : Field) (v i j : Nat) : (s.wr f v i j).rad = s.rad := (rfl)
@[simp] theorem State.wr_dec (f : Field) (v i j : Nat) : (s.wr f v i j).dec = s.dec := (rfl)
@[simp] theorem State.wr_sec (f : Field) (v i j : Nat) : (s.wr f v i j).sec = s.sec := (rfl)

/-! ### wrb -/

@[simp] theorem State.wrb_pending (f : Field) (b : Bool) (i j : Nat) : (s.wrb f b i j).pending = s.pending := (rfl)
@[simp] theorem State.wrb_tb (f : Field) (b : Bool) (i j : Nat) : (s.wrb f b i j).tb = s.tb := (rfl)
@[simp] theorem State.wrb_free (f : Field) (b : Bool) (i j : Nat) : (s.wrb f b i j).free = s.free := (rfl)
@[simp] theorem State.wrb_events (f : Field) (b : Bool) (i j : Nat) : (s.wrb f b i j).events = s.events := (rfl)
@[simp] theorem State.wrb_hostMem (f : Field) (b : Bool) (i j : Nat) : (s.wrb f b i j).hostMem = s.hostMem := (rfl)
@[simp] theorem State.wrb_host (f : Field) (b : Bool) (i j : Nat) : (s.wrb f b i j).host = s.host := (rfl)
@[simp] theorem State.wrb_mem (f : Field) (b : Bool) (i j : Nat) : (s.wrb f b i j).mem = s.mem := (rfl)
@[simp] theorem State.wrb_clk (f : Field) (b : Bool) (i j : Nat) : (s.wrb f b i j).clk = s.clk := (rfl)
@[simp] theorem State.wrb_fab (f : Field) (b : Bool) (i j : Nat) : (s.wrb f b i j).fab = s.fab := (rfl)
@[simp] theorem State.wrb_pin (f : Field) (b : Bool) (i j : Nat) : (s.wrb f b i j).pin = s.pin := (rfl)
@[simp] theorem State.wrb_cores (f : Field) (b : Bool) (i j : Nat) : (s.wrb f b i j).cores = s.cores := (rfl)
@[simp] theorem State.wrb_dsp (f : Field) (b : Bool) (i j : Nat) : (s.wrb f b i j).dsp = s.dsp := (rfl)
@[simp] theorem State.wrb_lnk (f : Field) (b : Bool) (i j : Nat) : (s.wrb f b i j).lnk = s.lnk := (rfl)
@[simp] theorem State.wrb_pair (f : Field) (b : Bool) (i j : Nat) : (s.wrb f b i j).pair = s.pair := (rfl)
@[simp] theorem State.wrb_trc (f : Field) (b : Bool) (i j : Nat) : (s.wrb f b i j).trc = s.trc := (rfl)
@[simp] theorem State.wrb_trcNext (f : Field) (b : Bool) (i j : Nat) : (s.wrb f b i j).trcNext = s.trcNext := (rfl)
@[simp] theorem State.wrb_trcCores (f : Field) (b : Bool) (i j : Nat) : (s.wrb f b i j).trcCores = s.trcCores := (rfl)
@[simp] theorem State.wrb_trcPort (f : Field) (b : Bool) (i j : Nat) : (s.wrb f b i j).trcPort = s.trcPort := (rfl)
@[simp] theorem State.wrb_trcFrames (f : Field) (b : Bool) (i j : Nat) : (s.wrb f b i j).trcFrames = s.trcFrames := (rfl)
@[simp] theorem State.wrb_ela (f : Field) (b : Bool) (i j : Nat) : (s.wrb f b i j).ela = s.ela := (rfl)
@[simp] theorem State.wrb_cap (f : Field) (b : Bool) (i j : Nat) : (s.wrb f b i j).cap = s.cap := (rfl)
@[simp] theorem State.wrb_rad (f : Field) (b : Bool) (i j : Nat) : (s.wrb f b i j).rad = s.rad := (rfl)
@[simp] theorem State.wrb_dec (f : Field) (b : Bool) (i j : Nat) : (s.wrb f b i j).dec = s.dec := (rfl)
@[simp] theorem State.wrb_sec (f : Field) (b : Bool) (i j : Nat) : (s.wrb f b i j).sec = s.sec := (rfl)

/-! ### sat -/

@[simp] theorem State.sat_pending (f : Field) (i j n : Nat) : (s.sat f i j n).pending = s.pending := (rfl)
@[simp] theorem State.sat_tb (f : Field) (i j n : Nat) : (s.sat f i j n).tb = s.tb := (rfl)
@[simp] theorem State.sat_free (f : Field) (i j n : Nat) : (s.sat f i j n).free = s.free := (rfl)
@[simp] theorem State.sat_events (f : Field) (i j n : Nat) : (s.sat f i j n).events = s.events := (rfl)
@[simp] theorem State.sat_hostMem (f : Field) (i j n : Nat) : (s.sat f i j n).hostMem = s.hostMem := (rfl)
@[simp] theorem State.sat_host (f : Field) (i j n : Nat) : (s.sat f i j n).host = s.host := (rfl)
@[simp] theorem State.sat_mem (f : Field) (i j n : Nat) : (s.sat f i j n).mem = s.mem := (rfl)
@[simp] theorem State.sat_clk (f : Field) (i j n : Nat) : (s.sat f i j n).clk = s.clk := (rfl)
@[simp] theorem State.sat_fab (f : Field) (i j n : Nat) : (s.sat f i j n).fab = s.fab := (rfl)
@[simp] theorem State.sat_pin (f : Field) (i j n : Nat) : (s.sat f i j n).pin = s.pin := (rfl)
@[simp] theorem State.sat_cores (f : Field) (i j n : Nat) : (s.sat f i j n).cores = s.cores := (rfl)
@[simp] theorem State.sat_dsp (f : Field) (i j n : Nat) : (s.sat f i j n).dsp = s.dsp := (rfl)
@[simp] theorem State.sat_lnk (f : Field) (i j n : Nat) : (s.sat f i j n).lnk = s.lnk := (rfl)
@[simp] theorem State.sat_pair (f : Field) (i j n : Nat) : (s.sat f i j n).pair = s.pair := (rfl)
@[simp] theorem State.sat_trc (f : Field) (i j n : Nat) : (s.sat f i j n).trc = s.trc := (rfl)
@[simp] theorem State.sat_trcNext (f : Field) (i j n : Nat) : (s.sat f i j n).trcNext = s.trcNext := (rfl)
@[simp] theorem State.sat_trcCores (f : Field) (i j n : Nat) : (s.sat f i j n).trcCores = s.trcCores := (rfl)
@[simp] theorem State.sat_trcPort (f : Field) (i j n : Nat) : (s.sat f i j n).trcPort = s.trcPort := (rfl)
@[simp] theorem State.sat_trcFrames (f : Field) (i j n : Nat) : (s.sat f i j n).trcFrames = s.trcFrames := (rfl)
@[simp] theorem State.sat_ela (f : Field) (i j n : Nat) : (s.sat f i j n).ela = s.ela := (rfl)
@[simp] theorem State.sat_cap (f : Field) (i j n : Nat) : (s.sat f i j n).cap = s.cap := (rfl)
@[simp] theorem State.sat_rad (f : Field) (i j n : Nat) : (s.sat f i j n).rad = s.rad := (rfl)
@[simp] theorem State.sat_dec (f : Field) (i j n : Nat) : (s.sat f i j n).dec = s.dec := (rfl)
@[simp] theorem State.sat_sec (f : Field) (i j n : Nat) : (s.sat f i j n).sec = s.sec := (rfl)

/-! ### inc -/

@[simp] theorem State.inc_pending (f : Field) (i j n : Nat) : (s.inc f i j n).pending = s.pending := (rfl)
@[simp] theorem State.inc_tb (f : Field) (i j n : Nat) : (s.inc f i j n).tb = s.tb := (rfl)
@[simp] theorem State.inc_free (f : Field) (i j n : Nat) : (s.inc f i j n).free = s.free := (rfl)
@[simp] theorem State.inc_events (f : Field) (i j n : Nat) : (s.inc f i j n).events = s.events := (rfl)
@[simp] theorem State.inc_hostMem (f : Field) (i j n : Nat) : (s.inc f i j n).hostMem = s.hostMem := (rfl)
@[simp] theorem State.inc_host (f : Field) (i j n : Nat) : (s.inc f i j n).host = s.host := (rfl)
@[simp] theorem State.inc_mem (f : Field) (i j n : Nat) : (s.inc f i j n).mem = s.mem := (rfl)
@[simp] theorem State.inc_clk (f : Field) (i j n : Nat) : (s.inc f i j n).clk = s.clk := (rfl)
@[simp] theorem State.inc_fab (f : Field) (i j n : Nat) : (s.inc f i j n).fab = s.fab := (rfl)
@[simp] theorem State.inc_pin (f : Field) (i j n : Nat) : (s.inc f i j n).pin = s.pin := (rfl)
@[simp] theorem State.inc_cores (f : Field) (i j n : Nat) : (s.inc f i j n).cores = s.cores := (rfl)
@[simp] theorem State.inc_dsp (f : Field) (i j n : Nat) : (s.inc f i j n).dsp = s.dsp := (rfl)
@[simp] theorem State.inc_lnk (f : Field) (i j n : Nat) : (s.inc f i j n).lnk = s.lnk := (rfl)
@[simp] theorem State.inc_pair (f : Field) (i j n : Nat) : (s.inc f i j n).pair = s.pair := (rfl)
@[simp] theorem State.inc_trc (f : Field) (i j n : Nat) : (s.inc f i j n).trc = s.trc := (rfl)
@[simp] theorem State.inc_trcNext (f : Field) (i j n : Nat) : (s.inc f i j n).trcNext = s.trcNext := (rfl)
@[simp] theorem State.inc_trcCores (f : Field) (i j n : Nat) : (s.inc f i j n).trcCores = s.trcCores := (rfl)
@[simp] theorem State.inc_trcPort (f : Field) (i j n : Nat) : (s.inc f i j n).trcPort = s.trcPort := (rfl)
@[simp] theorem State.inc_trcFrames (f : Field) (i j n : Nat) : (s.inc f i j n).trcFrames = s.trcFrames := (rfl)
@[simp] theorem State.inc_ela (f : Field) (i j n : Nat) : (s.inc f i j n).ela = s.ela := (rfl)
@[simp] theorem State.inc_cap (f : Field) (i j n : Nat) : (s.inc f i j n).cap = s.cap := (rfl)
@[simp] theorem State.inc_rad (f : Field) (i j n : Nat) : (s.inc f i j n).rad = s.rad := (rfl)
@[simp] theorem State.inc_dec (f : Field) (i j n : Nat) : (s.inc f i j n).dec = s.dec := (rfl)
@[simp] theorem State.inc_sec (f : Field) (i j n : Nat) : (s.inc f i j n).sec = s.sec := (rfl)

/-! ### wr64 -/

@[simp] theorem State.wr64_pending (f : Field) (v i : Nat) : (s.wr64 f v i).pending = s.pending := (rfl)
@[simp] theorem State.wr64_tb (f : Field) (v i : Nat) : (s.wr64 f v i).tb = s.tb := (rfl)
@[simp] theorem State.wr64_free (f : Field) (v i : Nat) : (s.wr64 f v i).free = s.free := (rfl)
@[simp] theorem State.wr64_events (f : Field) (v i : Nat) : (s.wr64 f v i).events = s.events := (rfl)
@[simp] theorem State.wr64_hostMem (f : Field) (v i : Nat) : (s.wr64 f v i).hostMem = s.hostMem := (rfl)
@[simp] theorem State.wr64_host (f : Field) (v i : Nat) : (s.wr64 f v i).host = s.host := (rfl)
@[simp] theorem State.wr64_mem (f : Field) (v i : Nat) : (s.wr64 f v i).mem = s.mem := (rfl)
@[simp] theorem State.wr64_clk (f : Field) (v i : Nat) : (s.wr64 f v i).clk = s.clk := (rfl)
@[simp] theorem State.wr64_fab (f : Field) (v i : Nat) : (s.wr64 f v i).fab = s.fab := (rfl)
@[simp] theorem State.wr64_pin (f : Field) (v i : Nat) : (s.wr64 f v i).pin = s.pin := (rfl)
@[simp] theorem State.wr64_cores (f : Field) (v i : Nat) : (s.wr64 f v i).cores = s.cores := (rfl)
@[simp] theorem State.wr64_dsp (f : Field) (v i : Nat) : (s.wr64 f v i).dsp = s.dsp := (rfl)
@[simp] theorem State.wr64_lnk (f : Field) (v i : Nat) : (s.wr64 f v i).lnk = s.lnk := (rfl)
@[simp] theorem State.wr64_pair (f : Field) (v i : Nat) : (s.wr64 f v i).pair = s.pair := (rfl)
@[simp] theorem State.wr64_trc (f : Field) (v i : Nat) : (s.wr64 f v i).trc = s.trc := (rfl)
@[simp] theorem State.wr64_trcNext (f : Field) (v i : Nat) : (s.wr64 f v i).trcNext = s.trcNext := (rfl)
@[simp] theorem State.wr64_trcCores (f : Field) (v i : Nat) : (s.wr64 f v i).trcCores = s.trcCores := (rfl)
@[simp] theorem State.wr64_trcPort (f : Field) (v i : Nat) : (s.wr64 f v i).trcPort = s.trcPort := (rfl)
@[simp] theorem State.wr64_trcFrames (f : Field) (v i : Nat) : (s.wr64 f v i).trcFrames = s.trcFrames := (rfl)
@[simp] theorem State.wr64_ela (f : Field) (v i : Nat) : (s.wr64 f v i).ela = s.ela := (rfl)
@[simp] theorem State.wr64_cap (f : Field) (v i : Nat) : (s.wr64 f v i).cap = s.cap := (rfl)
@[simp] theorem State.wr64_rad (f : Field) (v i : Nat) : (s.wr64 f v i).rad = s.rad := (rfl)
@[simp] theorem State.wr64_dec (f : Field) (v i : Nat) : (s.wr64 f v i).dec = s.dec := (rfl)
@[simp] theorem State.wr64_sec (f : Field) (v i : Nat) : (s.wr64 f v i).sec = s.sec := (rfl)

/-! ### sat64 -/

@[simp] theorem State.sat64_pending (f : Field) (i n : Nat) : (s.sat64 f i n).pending = s.pending := (rfl)
@[simp] theorem State.sat64_tb (f : Field) (i n : Nat) : (s.sat64 f i n).tb = s.tb := (rfl)
@[simp] theorem State.sat64_free (f : Field) (i n : Nat) : (s.sat64 f i n).free = s.free := (rfl)
@[simp] theorem State.sat64_events (f : Field) (i n : Nat) : (s.sat64 f i n).events = s.events := (rfl)
@[simp] theorem State.sat64_hostMem (f : Field) (i n : Nat) : (s.sat64 f i n).hostMem = s.hostMem := (rfl)
@[simp] theorem State.sat64_host (f : Field) (i n : Nat) : (s.sat64 f i n).host = s.host := (rfl)
@[simp] theorem State.sat64_mem (f : Field) (i n : Nat) : (s.sat64 f i n).mem = s.mem := (rfl)
@[simp] theorem State.sat64_clk (f : Field) (i n : Nat) : (s.sat64 f i n).clk = s.clk := (rfl)
@[simp] theorem State.sat64_fab (f : Field) (i n : Nat) : (s.sat64 f i n).fab = s.fab := (rfl)
@[simp] theorem State.sat64_pin (f : Field) (i n : Nat) : (s.sat64 f i n).pin = s.pin := (rfl)
@[simp] theorem State.sat64_cores (f : Field) (i n : Nat) : (s.sat64 f i n).cores = s.cores := (rfl)
@[simp] theorem State.sat64_dsp (f : Field) (i n : Nat) : (s.sat64 f i n).dsp = s.dsp := (rfl)
@[simp] theorem State.sat64_lnk (f : Field) (i n : Nat) : (s.sat64 f i n).lnk = s.lnk := (rfl)
@[simp] theorem State.sat64_pair (f : Field) (i n : Nat) : (s.sat64 f i n).pair = s.pair := (rfl)
@[simp] theorem State.sat64_trc (f : Field) (i n : Nat) : (s.sat64 f i n).trc = s.trc := (rfl)
@[simp] theorem State.sat64_trcNext (f : Field) (i n : Nat) : (s.sat64 f i n).trcNext = s.trcNext := (rfl)
@[simp] theorem State.sat64_trcCores (f : Field) (i n : Nat) : (s.sat64 f i n).trcCores = s.trcCores := (rfl)
@[simp] theorem State.sat64_trcPort (f : Field) (i n : Nat) : (s.sat64 f i n).trcPort = s.trcPort := (rfl)
@[simp] theorem State.sat64_trcFrames (f : Field) (i n : Nat) : (s.sat64 f i n).trcFrames = s.trcFrames := (rfl)
@[simp] theorem State.sat64_ela (f : Field) (i n : Nat) : (s.sat64 f i n).ela = s.ela := (rfl)
@[simp] theorem State.sat64_cap (f : Field) (i n : Nat) : (s.sat64 f i n).cap = s.cap := (rfl)
@[simp] theorem State.sat64_rad (f : Field) (i n : Nat) : (s.sat64 f i n).rad = s.rad := (rfl)
@[simp] theorem State.sat64_dec (f : Field) (i n : Nat) : (s.sat64 f i n).dec = s.dec := (rfl)
@[simp] theorem State.sat64_sec (f : Field) (i n : Nat) : (s.sat64 f i n).sec = s.sec := (rfl)

/-! ### withPending -/

@[simp] theorem State.withPending_pending (l : List Instr) : (s.withPending l).pending = l := (rfl)
@[simp] theorem State.withPending_tb (l : List Instr) : (s.withPending l).tb = s.tb := (rfl)
@[simp] theorem State.withPending_free (l : List Instr) : (s.withPending l).free = s.free := (rfl)
@[simp] theorem State.withPending_regs (l : List Instr) : (s.withPending l).regs = s.regs := (rfl)
@[simp] theorem State.withPending_events (l : List Instr) : (s.withPending l).events = s.events := (rfl)
@[simp] theorem State.withPending_hostMem (l : List Instr) : (s.withPending l).hostMem = s.hostMem := (rfl)
@[simp] theorem State.withPending_host (l : List Instr) : (s.withPending l).host = s.host := (rfl)
@[simp] theorem State.withPending_mem (l : List Instr) : (s.withPending l).mem = s.mem := (rfl)
@[simp] theorem State.withPending_clk (l : List Instr) : (s.withPending l).clk = s.clk := (rfl)
@[simp] theorem State.withPending_fab (l : List Instr) : (s.withPending l).fab = s.fab := (rfl)
@[simp] theorem State.withPending_pin (l : List Instr) : (s.withPending l).pin = s.pin := (rfl)
@[simp] theorem State.withPending_cores (l : List Instr) : (s.withPending l).cores = s.cores := (rfl)
@[simp] theorem State.withPending_dsp (l : List Instr) : (s.withPending l).dsp = s.dsp := (rfl)
@[simp] theorem State.withPending_lnk (l : List Instr) : (s.withPending l).lnk = s.lnk := (rfl)
@[simp] theorem State.withPending_pair (l : List Instr) : (s.withPending l).pair = s.pair := (rfl)
@[simp] theorem State.withPending_trc (l : List Instr) : (s.withPending l).trc = s.trc := (rfl)
@[simp] theorem State.withPending_trcNext (l : List Instr) : (s.withPending l).trcNext = s.trcNext := (rfl)
@[simp] theorem State.withPending_trcCores (l : List Instr) : (s.withPending l).trcCores = s.trcCores := (rfl)
@[simp] theorem State.withPending_trcPort (l : List Instr) : (s.withPending l).trcPort = s.trcPort := (rfl)
@[simp] theorem State.withPending_trcFrames (l : List Instr) : (s.withPending l).trcFrames = s.trcFrames := (rfl)
@[simp] theorem State.withPending_ela (l : List Instr) : (s.withPending l).ela = s.ela := (rfl)
@[simp] theorem State.withPending_cap (l : List Instr) : (s.withPending l).cap = s.cap := (rfl)
@[simp] theorem State.withPending_rad (l : List Instr) : (s.withPending l).rad = s.rad := (rfl)
@[simp] theorem State.withPending_dec (l : List Instr) : (s.withPending l).dec = s.dec := (rfl)
@[simp] theorem State.withPending_sec (l : List Instr) : (s.withPending l).sec = s.sec := (rfl)

/-! ### burn -/

@[simp] theorem State.burn_pending : (s.burn).pending = s.pending := (rfl)
@[simp] theorem State.burn_tb : (s.burn).tb = s.tb := (rfl)
@[simp] theorem State.burn_free : (s.burn).free = s.free + 1 := (rfl)
@[simp] theorem State.burn_regs : (s.burn).regs = s.regs := (rfl)
@[simp] theorem State.burn_events : (s.burn).events = s.events := (rfl)
@[simp] theorem State.burn_hostMem : (s.burn).hostMem = s.hostMem := (rfl)
@[simp] theorem State.burn_host : (s.burn).host = s.host := (rfl)
@[simp] theorem State.burn_mem : (s.burn).mem = s.mem := (rfl)
@[simp] theorem State.burn_clk : (s.burn).clk = s.clk := (rfl)
@[simp] theorem State.burn_fab : (s.burn).fab = s.fab := (rfl)
@[simp] theorem State.burn_pin : (s.burn).pin = s.pin := (rfl)
@[simp] theorem State.burn_cores : (s.burn).cores = s.cores := (rfl)
@[simp] theorem State.burn_dsp : (s.burn).dsp = s.dsp := (rfl)
@[simp] theorem State.burn_lnk : (s.burn).lnk = s.lnk := (rfl)
@[simp] theorem State.burn_pair : (s.burn).pair = s.pair := (rfl)
@[simp] theorem State.burn_trc : (s.burn).trc = s.trc := (rfl)
@[simp] theorem State.burn_trcNext : (s.burn).trcNext = s.trcNext := (rfl)
@[simp] theorem State.burn_trcCores : (s.burn).trcCores = s.trcCores := (rfl)
@[simp] theorem State.burn_trcPort : (s.burn).trcPort = s.trcPort := (rfl)
@[simp] theorem State.burn_trcFrames : (s.burn).trcFrames = s.trcFrames := (rfl)
@[simp] theorem State.burn_ela : (s.burn).ela = s.ela := (rfl)
@[simp] theorem State.burn_cap : (s.burn).cap = s.cap := (rfl)
@[simp] theorem State.burn_rad : (s.burn).rad = s.rad := (rfl)
@[simp] theorem State.burn_dec : (s.burn).dec = s.dec := (rfl)
@[simp] theorem State.burn_sec : (s.burn).sec = s.sec := (rfl)

/-! ### setEvents -/

@[simp] theorem State.setEvents_pending (x : List EventRec) : (s.setEvents x).pending = s.pending := (rfl)
@[simp] theorem State.setEvents_tb (x : List EventRec) : (s.setEvents x).tb = s.tb := (rfl)
@[simp] theorem State.setEvents_free (x : List EventRec) : (s.setEvents x).free = s.free := (rfl)
@[simp] theorem State.setEvents_regs (x : List EventRec) : (s.setEvents x).regs = s.regs := (rfl)
@[simp] theorem State.setEvents_events (x : List EventRec) : (s.setEvents x).events = x := (rfl)
@[simp] theorem State.setEvents_hostMem (x : List EventRec) : (s.setEvents x).hostMem = s.hostMem := (rfl)
@[simp] theorem State.setEvents_host (x : List EventRec) : (s.setEvents x).host = s.host := (rfl)
@[simp] theorem State.setEvents_mem (x : List EventRec) : (s.setEvents x).mem = s.mem := (rfl)
@[simp] theorem State.setEvents_clk (x : List EventRec) : (s.setEvents x).clk = s.clk := (rfl)
@[simp] theorem State.setEvents_fab (x : List EventRec) : (s.setEvents x).fab = s.fab := (rfl)
@[simp] theorem State.setEvents_pin (x : List EventRec) : (s.setEvents x).pin = s.pin := (rfl)
@[simp] theorem State.setEvents_cores (x : List EventRec) : (s.setEvents x).cores = s.cores := (rfl)
@[simp] theorem State.setEvents_dsp (x : List EventRec) : (s.setEvents x).dsp = s.dsp := (rfl)
@[simp] theorem State.setEvents_lnk (x : List EventRec) : (s.setEvents x).lnk = s.lnk := (rfl)
@[simp] theorem State.setEvents_pair (x : List EventRec) : (s.setEvents x).pair = s.pair := (rfl)
@[simp] theorem State.setEvents_trc (x : List EventRec) : (s.setEvents x).trc = s.trc := (rfl)
@[simp] theorem State.setEvents_trcNext (x : List EventRec) : (s.setEvents x).trcNext = s.trcNext := (rfl)
@[simp] theorem State.setEvents_trcCores (x : List EventRec) : (s.setEvents x).trcCores = s.trcCores := (rfl)
@[simp] theorem State.setEvents_trcPort (x : List EventRec) : (s.setEvents x).trcPort = s.trcPort := (rfl)
@[simp] theorem State.setEvents_trcFrames (x : List EventRec) : (s.setEvents x).trcFrames = s.trcFrames := (rfl)
@[simp] theorem State.setEvents_ela (x : List EventRec) : (s.setEvents x).ela = s.ela := (rfl)
@[simp] theorem State.setEvents_cap (x : List EventRec) : (s.setEvents x).cap = s.cap := (rfl)
@[simp] theorem State.setEvents_rad (x : List EventRec) : (s.setEvents x).rad = s.rad := (rfl)
@[simp] theorem State.setEvents_dec (x : List EventRec) : (s.setEvents x).dec = s.dec := (rfl)
@[simp] theorem State.setEvents_sec (x : List EventRec) : (s.setEvents x).sec = s.sec := (rfl)

/-! ### setHostMem -/

@[simp] theorem State.setHostMem_pending (x : List Host.Cell) : (s.setHostMem x).pending = s.pending := (rfl)
@[simp] theorem State.setHostMem_tb (x : List Host.Cell) : (s.setHostMem x).tb = s.tb := (rfl)
@[simp] theorem State.setHostMem_free (x : List Host.Cell) : (s.setHostMem x).free = s.free := (rfl)
@[simp] theorem State.setHostMem_regs (x : List Host.Cell) : (s.setHostMem x).regs = s.regs := (rfl)
@[simp] theorem State.setHostMem_events (x : List Host.Cell) : (s.setHostMem x).events = s.events := (rfl)
@[simp] theorem State.setHostMem_hostMem (x : List Host.Cell) : (s.setHostMem x).hostMem = x := (rfl)
@[simp] theorem State.setHostMem_host (x : List Host.Cell) : (s.setHostMem x).host = s.host := (rfl)
@[simp] theorem State.setHostMem_mem (x : List Host.Cell) : (s.setHostMem x).mem = s.mem := (rfl)
@[simp] theorem State.setHostMem_clk (x : List Host.Cell) : (s.setHostMem x).clk = s.clk := (rfl)
@[simp] theorem State.setHostMem_fab (x : List Host.Cell) : (s.setHostMem x).fab = s.fab := (rfl)
@[simp] theorem State.setHostMem_pin (x : List Host.Cell) : (s.setHostMem x).pin = s.pin := (rfl)
@[simp] theorem State.setHostMem_cores (x : List Host.Cell) : (s.setHostMem x).cores = s.cores := (rfl)
@[simp] theorem State.setHostMem_dsp (x : List Host.Cell) : (s.setHostMem x).dsp = s.dsp := (rfl)
@[simp] theorem State.setHostMem_lnk (x : List Host.Cell) : (s.setHostMem x).lnk = s.lnk := (rfl)
@[simp] theorem State.setHostMem_pair (x : List Host.Cell) : (s.setHostMem x).pair = s.pair := (rfl)
@[simp] theorem State.setHostMem_trc (x : List Host.Cell) : (s.setHostMem x).trc = s.trc := (rfl)
@[simp] theorem State.setHostMem_trcNext (x : List Host.Cell) : (s.setHostMem x).trcNext = s.trcNext := (rfl)
@[simp] theorem State.setHostMem_trcCores (x : List Host.Cell) : (s.setHostMem x).trcCores = s.trcCores := (rfl)
@[simp] theorem State.setHostMem_trcPort (x : List Host.Cell) : (s.setHostMem x).trcPort = s.trcPort := (rfl)
@[simp] theorem State.setHostMem_trcFrames (x : List Host.Cell) : (s.setHostMem x).trcFrames = s.trcFrames := (rfl)
@[simp] theorem State.setHostMem_ela (x : List Host.Cell) : (s.setHostMem x).ela = s.ela := (rfl)
@[simp] theorem State.setHostMem_cap (x : List Host.Cell) : (s.setHostMem x).cap = s.cap := (rfl)
@[simp] theorem State.setHostMem_rad (x : List Host.Cell) : (s.setHostMem x).rad = s.rad := (rfl)
@[simp] theorem State.setHostMem_dec (x : List Host.Cell) : (s.setHostMem x).dec = s.dec := (rfl)
@[simp] theorem State.setHostMem_sec (x : List Host.Cell) : (s.setHostMem x).sec = s.sec := (rfl)

/-! ### setHost -/

@[simp] theorem State.setHost_pending (x : HostSt) : (s.setHost x).pending = s.pending := (rfl)
@[simp] theorem State.setHost_tb (x : HostSt) : (s.setHost x).tb = s.tb := (rfl)
@[simp] theorem State.setHost_free (x : HostSt) : (s.setHost x).free = s.free := (rfl)
@[simp] theorem State.setHost_regs (x : HostSt) : (s.setHost x).regs = s.regs := (rfl)
@[simp] theorem State.setHost_events (x : HostSt) : (s.setHost x).events = s.events := (rfl)
@[simp] theorem State.setHost_hostMem (x : HostSt) : (s.setHost x).hostMem = s.hostMem := (rfl)
@[simp] theorem State.setHost_host (x : HostSt) : (s.setHost x).host = x := (rfl)
@[simp] theorem State.setHost_mem (x : HostSt) : (s.setHost x).mem = s.mem := (rfl)
@[simp] theorem State.setHost_clk (x : HostSt) : (s.setHost x).clk = s.clk := (rfl)
@[simp] theorem State.setHost_fab (x : HostSt) : (s.setHost x).fab = s.fab := (rfl)
@[simp] theorem State.setHost_pin (x : HostSt) : (s.setHost x).pin = s.pin := (rfl)
@[simp] theorem State.setHost_cores (x : HostSt) : (s.setHost x).cores = s.cores := (rfl)
@[simp] theorem State.setHost_dsp (x : HostSt) : (s.setHost x).dsp = s.dsp := (rfl)
@[simp] theorem State.setHost_lnk (x : HostSt) : (s.setHost x).lnk = s.lnk := (rfl)
@[simp] theorem State.setHost_pair (x : HostSt) : (s.setHost x).pair = s.pair := (rfl)
@[simp] theorem State.setHost_trc (x : HostSt) : (s.setHost x).trc = s.trc := (rfl)
@[simp] theorem State.setHost_trcNext (x : HostSt) : (s.setHost x).trcNext = s.trcNext := (rfl)
@[simp] theorem State.setHost_trcCores (x : HostSt) : (s.setHost x).trcCores = s.trcCores := (rfl)
@[simp] theorem State.setHost_trcPort (x : HostSt) : (s.setHost x).trcPort = s.trcPort := (rfl)
@[simp] theorem State.setHost_trcFrames (x : HostSt) : (s.setHost x).trcFrames = s.trcFrames := (rfl)
@[simp] theorem State.setHost_ela (x : HostSt) : (s.setHost x).ela = s.ela := (rfl)
@[simp] theorem State.setHost_cap (x : HostSt) : (s.setHost x).cap = s.cap := (rfl)
@[simp] theorem State.setHost_rad (x : HostSt) : (s.setHost x).rad = s.rad := (rfl)
@[simp] theorem State.setHost_dec (x : HostSt) : (s.setHost x).dec = s.dec := (rfl)
@[simp] theorem State.setHost_sec (x : HostSt) : (s.setHost x).sec = s.sec := (rfl)

/-! ### setMem -/

@[simp] theorem State.setMem_pending (x : MemSt) : (s.setMem x).pending = s.pending := (rfl)
@[simp] theorem State.setMem_tb (x : MemSt) : (s.setMem x).tb = s.tb := (rfl)
@[simp] theorem State.setMem_free (x : MemSt) : (s.setMem x).free = s.free := (rfl)
@[simp] theorem State.setMem_regs (x : MemSt) : (s.setMem x).regs = s.regs := (rfl)
@[simp] theorem State.setMem_events (x : MemSt) : (s.setMem x).events = s.events := (rfl)
@[simp] theorem State.setMem_hostMem (x : MemSt) : (s.setMem x).hostMem = s.hostMem := (rfl)
@[simp] theorem State.setMem_host (x : MemSt) : (s.setMem x).host = s.host := (rfl)
@[simp] theorem State.setMem_mem (x : MemSt) : (s.setMem x).mem = x := (rfl)
@[simp] theorem State.setMem_clk (x : MemSt) : (s.setMem x).clk = s.clk := (rfl)
@[simp] theorem State.setMem_fab (x : MemSt) : (s.setMem x).fab = s.fab := (rfl)
@[simp] theorem State.setMem_pin (x : MemSt) : (s.setMem x).pin = s.pin := (rfl)
@[simp] theorem State.setMem_cores (x : MemSt) : (s.setMem x).cores = s.cores := (rfl)
@[simp] theorem State.setMem_dsp (x : MemSt) : (s.setMem x).dsp = s.dsp := (rfl)
@[simp] theorem State.setMem_lnk (x : MemSt) : (s.setMem x).lnk = s.lnk := (rfl)
@[simp] theorem State.setMem_pair (x : MemSt) : (s.setMem x).pair = s.pair := (rfl)
@[simp] theorem State.setMem_trc (x : MemSt) : (s.setMem x).trc = s.trc := (rfl)
@[simp] theorem State.setMem_trcNext (x : MemSt) : (s.setMem x).trcNext = s.trcNext := (rfl)
@[simp] theorem State.setMem_trcCores (x : MemSt) : (s.setMem x).trcCores = s.trcCores := (rfl)
@[simp] theorem State.setMem_trcPort (x : MemSt) : (s.setMem x).trcPort = s.trcPort := (rfl)
@[simp] theorem State.setMem_trcFrames (x : MemSt) : (s.setMem x).trcFrames = s.trcFrames := (rfl)
@[simp] theorem State.setMem_ela (x : MemSt) : (s.setMem x).ela = s.ela := (rfl)
@[simp] theorem State.setMem_cap (x : MemSt) : (s.setMem x).cap = s.cap := (rfl)
@[simp] theorem State.setMem_rad (x : MemSt) : (s.setMem x).rad = s.rad := (rfl)
@[simp] theorem State.setMem_dec (x : MemSt) : (s.setMem x).dec = s.dec := (rfl)
@[simp] theorem State.setMem_sec (x : MemSt) : (s.setMem x).sec = s.sec := (rfl)

/-! ### setClk -/

@[simp] theorem State.setClk_pending (x : ClkSt) : (s.setClk x).pending = s.pending := (rfl)
@[simp] theorem State.setClk_tb (x : ClkSt) : (s.setClk x).tb = s.tb := (rfl)
@[simp] theorem State.setClk_free (x : ClkSt) : (s.setClk x).free = s.free := (rfl)
@[simp] theorem State.setClk_regs (x : ClkSt) : (s.setClk x).regs = s.regs := (rfl)
@[simp] theorem State.setClk_events (x : ClkSt) : (s.setClk x).events = s.events := (rfl)
@[simp] theorem State.setClk_hostMem (x : ClkSt) : (s.setClk x).hostMem = s.hostMem := (rfl)
@[simp] theorem State.setClk_host (x : ClkSt) : (s.setClk x).host = s.host := (rfl)
@[simp] theorem State.setClk_mem (x : ClkSt) : (s.setClk x).mem = s.mem := (rfl)
@[simp] theorem State.setClk_clk (x : ClkSt) : (s.setClk x).clk = x := (rfl)
@[simp] theorem State.setClk_fab (x : ClkSt) : (s.setClk x).fab = s.fab := (rfl)
@[simp] theorem State.setClk_pin (x : ClkSt) : (s.setClk x).pin = s.pin := (rfl)
@[simp] theorem State.setClk_cores (x : ClkSt) : (s.setClk x).cores = s.cores := (rfl)
@[simp] theorem State.setClk_dsp (x : ClkSt) : (s.setClk x).dsp = s.dsp := (rfl)
@[simp] theorem State.setClk_lnk (x : ClkSt) : (s.setClk x).lnk = s.lnk := (rfl)
@[simp] theorem State.setClk_pair (x : ClkSt) : (s.setClk x).pair = s.pair := (rfl)
@[simp] theorem State.setClk_trc (x : ClkSt) : (s.setClk x).trc = s.trc := (rfl)
@[simp] theorem State.setClk_trcNext (x : ClkSt) : (s.setClk x).trcNext = s.trcNext := (rfl)
@[simp] theorem State.setClk_trcCores (x : ClkSt) : (s.setClk x).trcCores = s.trcCores := (rfl)
@[simp] theorem State.setClk_trcPort (x : ClkSt) : (s.setClk x).trcPort = s.trcPort := (rfl)
@[simp] theorem State.setClk_trcFrames (x : ClkSt) : (s.setClk x).trcFrames = s.trcFrames := (rfl)
@[simp] theorem State.setClk_ela (x : ClkSt) : (s.setClk x).ela = s.ela := (rfl)
@[simp] theorem State.setClk_cap (x : ClkSt) : (s.setClk x).cap = s.cap := (rfl)
@[simp] theorem State.setClk_rad (x : ClkSt) : (s.setClk x).rad = s.rad := (rfl)
@[simp] theorem State.setClk_dec (x : ClkSt) : (s.setClk x).dec = s.dec := (rfl)
@[simp] theorem State.setClk_sec (x : ClkSt) : (s.setClk x).sec = s.sec := (rfl)

/-! ### setFab -/

@[simp] theorem State.setFab_pending (x : FabSt) : (s.setFab x).pending = s.pending := (rfl)
@[simp] theorem State.setFab_tb (x : FabSt) : (s.setFab x).tb = s.tb := (rfl)
@[simp] theorem State.setFab_free (x : FabSt) : (s.setFab x).free = s.free := (rfl)
@[simp] theorem State.setFab_regs (x : FabSt) : (s.setFab x).regs = s.regs := (rfl)
@[simp] theorem State.setFab_events (x : FabSt) : (s.setFab x).events = s.events := (rfl)
@[simp] theorem State.setFab_hostMem (x : FabSt) : (s.setFab x).hostMem = s.hostMem := (rfl)
@[simp] theorem State.setFab_host (x : FabSt) : (s.setFab x).host = s.host := (rfl)
@[simp] theorem State.setFab_mem (x : FabSt) : (s.setFab x).mem = s.mem := (rfl)
@[simp] theorem State.setFab_clk (x : FabSt) : (s.setFab x).clk = s.clk := (rfl)
@[simp] theorem State.setFab_fab (x : FabSt) : (s.setFab x).fab = x := (rfl)
@[simp] theorem State.setFab_pin (x : FabSt) : (s.setFab x).pin = s.pin := (rfl)
@[simp] theorem State.setFab_cores (x : FabSt) : (s.setFab x).cores = s.cores := (rfl)
@[simp] theorem State.setFab_dsp (x : FabSt) : (s.setFab x).dsp = s.dsp := (rfl)
@[simp] theorem State.setFab_lnk (x : FabSt) : (s.setFab x).lnk = s.lnk := (rfl)
@[simp] theorem State.setFab_pair (x : FabSt) : (s.setFab x).pair = s.pair := (rfl)
@[simp] theorem State.setFab_trc (x : FabSt) : (s.setFab x).trc = s.trc := (rfl)
@[simp] theorem State.setFab_trcNext (x : FabSt) : (s.setFab x).trcNext = s.trcNext := (rfl)
@[simp] theorem State.setFab_trcCores (x : FabSt) : (s.setFab x).trcCores = s.trcCores := (rfl)
@[simp] theorem State.setFab_trcPort (x : FabSt) : (s.setFab x).trcPort = s.trcPort := (rfl)
@[simp] theorem State.setFab_trcFrames (x : FabSt) : (s.setFab x).trcFrames = s.trcFrames := (rfl)
@[simp] theorem State.setFab_ela (x : FabSt) : (s.setFab x).ela = s.ela := (rfl)
@[simp] theorem State.setFab_cap (x : FabSt) : (s.setFab x).cap = s.cap := (rfl)
@[simp] theorem State.setFab_rad (x : FabSt) : (s.setFab x).rad = s.rad := (rfl)
@[simp] theorem State.setFab_dec (x : FabSt) : (s.setFab x).dec = s.dec := (rfl)
@[simp] theorem State.setFab_sec (x : FabSt) : (s.setFab x).sec = s.sec := (rfl)

/-! ### setPins -/

@[simp] theorem State.setPins_pending (x : PinSt) : (s.setPins x).pending = s.pending := (rfl)
@[simp] theorem State.setPins_tb (x : PinSt) : (s.setPins x).tb = s.tb := (rfl)
@[simp] theorem State.setPins_free (x : PinSt) : (s.setPins x).free = s.free := (rfl)
@[simp] theorem State.setPins_regs (x : PinSt) : (s.setPins x).regs = s.regs := (rfl)
@[simp] theorem State.setPins_events (x : PinSt) : (s.setPins x).events = s.events := (rfl)
@[simp] theorem State.setPins_hostMem (x : PinSt) : (s.setPins x).hostMem = s.hostMem := (rfl)
@[simp] theorem State.setPins_host (x : PinSt) : (s.setPins x).host = s.host := (rfl)
@[simp] theorem State.setPins_mem (x : PinSt) : (s.setPins x).mem = s.mem := (rfl)
@[simp] theorem State.setPins_clk (x : PinSt) : (s.setPins x).clk = s.clk := (rfl)
@[simp] theorem State.setPins_fab (x : PinSt) : (s.setPins x).fab = s.fab := (rfl)
@[simp] theorem State.setPins_pin (x : PinSt) : (s.setPins x).pin = x := (rfl)
@[simp] theorem State.setPins_cores (x : PinSt) : (s.setPins x).cores = s.cores := (rfl)
@[simp] theorem State.setPins_dsp (x : PinSt) : (s.setPins x).dsp = s.dsp := (rfl)
@[simp] theorem State.setPins_lnk (x : PinSt) : (s.setPins x).lnk = s.lnk := (rfl)
@[simp] theorem State.setPins_pair (x : PinSt) : (s.setPins x).pair = s.pair := (rfl)
@[simp] theorem State.setPins_trc (x : PinSt) : (s.setPins x).trc = s.trc := (rfl)
@[simp] theorem State.setPins_trcNext (x : PinSt) : (s.setPins x).trcNext = s.trcNext := (rfl)
@[simp] theorem State.setPins_trcCores (x : PinSt) : (s.setPins x).trcCores = s.trcCores := (rfl)
@[simp] theorem State.setPins_trcPort (x : PinSt) : (s.setPins x).trcPort = s.trcPort := (rfl)
@[simp] theorem State.setPins_trcFrames (x : PinSt) : (s.setPins x).trcFrames = s.trcFrames := (rfl)
@[simp] theorem State.setPins_ela (x : PinSt) : (s.setPins x).ela = s.ela := (rfl)
@[simp] theorem State.setPins_cap (x : PinSt) : (s.setPins x).cap = s.cap := (rfl)
@[simp] theorem State.setPins_rad (x : PinSt) : (s.setPins x).rad = s.rad := (rfl)
@[simp] theorem State.setPins_dec (x : PinSt) : (s.setPins x).dec = s.dec := (rfl)
@[simp] theorem State.setPins_sec (x : PinSt) : (s.setPins x).sec = s.sec := (rfl)

/-! ### setCores -/

@[simp] theorem State.setCores_pending (x : List (Nat × CoreSt)) : (s.setCores x).pending = s.pending := (rfl)
@[simp] theorem State.setCores_tb (x : List (Nat × CoreSt)) : (s.setCores x).tb = s.tb := (rfl)
@[simp] theorem State.setCores_free (x : List (Nat × CoreSt)) : (s.setCores x).free = s.free := (rfl)
@[simp] theorem State.setCores_regs (x : List (Nat × CoreSt)) : (s.setCores x).regs = s.regs := (rfl)
@[simp] theorem State.setCores_events (x : List (Nat × CoreSt)) : (s.setCores x).events = s.events := (rfl)
@[simp] theorem State.setCores_hostMem (x : List (Nat × CoreSt)) : (s.setCores x).hostMem = s.hostMem := (rfl)
@[simp] theorem State.setCores_host (x : List (Nat × CoreSt)) : (s.setCores x).host = s.host := (rfl)
@[simp] theorem State.setCores_mem (x : List (Nat × CoreSt)) : (s.setCores x).mem = s.mem := (rfl)
@[simp] theorem State.setCores_clk (x : List (Nat × CoreSt)) : (s.setCores x).clk = s.clk := (rfl)
@[simp] theorem State.setCores_fab (x : List (Nat × CoreSt)) : (s.setCores x).fab = s.fab := (rfl)
@[simp] theorem State.setCores_pin (x : List (Nat × CoreSt)) : (s.setCores x).pin = s.pin := (rfl)
@[simp] theorem State.setCores_cores (x : List (Nat × CoreSt)) : (s.setCores x).cores = x := (rfl)
@[simp] theorem State.setCores_dsp (x : List (Nat × CoreSt)) : (s.setCores x).dsp = s.dsp := (rfl)
@[simp] theorem State.setCores_lnk (x : List (Nat × CoreSt)) : (s.setCores x).lnk = s.lnk := (rfl)
@[simp] theorem State.setCores_pair (x : List (Nat × CoreSt)) : (s.setCores x).pair = s.pair := (rfl)
@[simp] theorem State.setCores_trc (x : List (Nat × CoreSt)) : (s.setCores x).trc = s.trc := (rfl)
@[simp] theorem State.setCores_trcNext (x : List (Nat × CoreSt)) : (s.setCores x).trcNext = s.trcNext := (rfl)
@[simp] theorem State.setCores_trcCores (x : List (Nat × CoreSt)) : (s.setCores x).trcCores = s.trcCores := (rfl)
@[simp] theorem State.setCores_trcPort (x : List (Nat × CoreSt)) : (s.setCores x).trcPort = s.trcPort := (rfl)
@[simp] theorem State.setCores_trcFrames (x : List (Nat × CoreSt)) : (s.setCores x).trcFrames = s.trcFrames := (rfl)
@[simp] theorem State.setCores_ela (x : List (Nat × CoreSt)) : (s.setCores x).ela = s.ela := (rfl)
@[simp] theorem State.setCores_cap (x : List (Nat × CoreSt)) : (s.setCores x).cap = s.cap := (rfl)
@[simp] theorem State.setCores_rad (x : List (Nat × CoreSt)) : (s.setCores x).rad = s.rad := (rfl)
@[simp] theorem State.setCores_dec (x : List (Nat × CoreSt)) : (s.setCores x).dec = s.dec := (rfl)
@[simp] theorem State.setCores_sec (x : List (Nat × CoreSt)) : (s.setCores x).sec = s.sec := (rfl)

/-! ### setDsp -/

@[simp] theorem State.setDsp_pending (x : DspSt) : (s.setDsp x).pending = s.pending := (rfl)
@[simp] theorem State.setDsp_tb (x : DspSt) : (s.setDsp x).tb = s.tb := (rfl)
@[simp] theorem State.setDsp_free (x : DspSt) : (s.setDsp x).free = s.free := (rfl)
@[simp] theorem State.setDsp_regs (x : DspSt) : (s.setDsp x).regs = s.regs := (rfl)
@[simp] theorem State.setDsp_events (x : DspSt) : (s.setDsp x).events = s.events := (rfl)
@[simp] theorem State.setDsp_hostMem (x : DspSt) : (s.setDsp x).hostMem = s.hostMem := (rfl)
@[simp] theorem State.setDsp_host (x : DspSt) : (s.setDsp x).host = s.host := (rfl)
@[simp] theorem State.setDsp_mem (x : DspSt) : (s.setDsp x).mem = s.mem := (rfl)
@[simp] theorem State.setDsp_clk (x : DspSt) : (s.setDsp x).clk = s.clk := (rfl)
@[simp] theorem State.setDsp_fab (x : DspSt) : (s.setDsp x).fab = s.fab := (rfl)
@[simp] theorem State.setDsp_pin (x : DspSt) : (s.setDsp x).pin = s.pin := (rfl)
@[simp] theorem State.setDsp_cores (x : DspSt) : (s.setDsp x).cores = s.cores := (rfl)
@[simp] theorem State.setDsp_dsp (x : DspSt) : (s.setDsp x).dsp = x := (rfl)
@[simp] theorem State.setDsp_lnk (x : DspSt) : (s.setDsp x).lnk = s.lnk := (rfl)
@[simp] theorem State.setDsp_pair (x : DspSt) : (s.setDsp x).pair = s.pair := (rfl)
@[simp] theorem State.setDsp_trc (x : DspSt) : (s.setDsp x).trc = s.trc := (rfl)
@[simp] theorem State.setDsp_trcNext (x : DspSt) : (s.setDsp x).trcNext = s.trcNext := (rfl)
@[simp] theorem State.setDsp_trcCores (x : DspSt) : (s.setDsp x).trcCores = s.trcCores := (rfl)
@[simp] theorem State.setDsp_trcPort (x : DspSt) : (s.setDsp x).trcPort = s.trcPort := (rfl)
@[simp] theorem State.setDsp_trcFrames (x : DspSt) : (s.setDsp x).trcFrames = s.trcFrames := (rfl)
@[simp] theorem State.setDsp_ela (x : DspSt) : (s.setDsp x).ela = s.ela := (rfl)
@[simp] theorem State.setDsp_cap (x : DspSt) : (s.setDsp x).cap = s.cap := (rfl)
@[simp] theorem State.setDsp_rad (x : DspSt) : (s.setDsp x).rad = s.rad := (rfl)
@[simp] theorem State.setDsp_dec (x : DspSt) : (s.setDsp x).dec = s.dec := (rfl)
@[simp] theorem State.setDsp_sec (x : DspSt) : (s.setDsp x).sec = s.sec := (rfl)

/-! ### setLnk -/

@[simp] theorem State.setLnk_pending (x : LnkSt) : (s.setLnk x).pending = s.pending := (rfl)
@[simp] theorem State.setLnk_tb (x : LnkSt) : (s.setLnk x).tb = s.tb := (rfl)
@[simp] theorem State.setLnk_free (x : LnkSt) : (s.setLnk x).free = s.free := (rfl)
@[simp] theorem State.setLnk_regs (x : LnkSt) : (s.setLnk x).regs = s.regs := (rfl)
@[simp] theorem State.setLnk_events (x : LnkSt) : (s.setLnk x).events = s.events := (rfl)
@[simp] theorem State.setLnk_hostMem (x : LnkSt) : (s.setLnk x).hostMem = s.hostMem := (rfl)
@[simp] theorem State.setLnk_host (x : LnkSt) : (s.setLnk x).host = s.host := (rfl)
@[simp] theorem State.setLnk_mem (x : LnkSt) : (s.setLnk x).mem = s.mem := (rfl)
@[simp] theorem State.setLnk_clk (x : LnkSt) : (s.setLnk x).clk = s.clk := (rfl)
@[simp] theorem State.setLnk_fab (x : LnkSt) : (s.setLnk x).fab = s.fab := (rfl)
@[simp] theorem State.setLnk_pin (x : LnkSt) : (s.setLnk x).pin = s.pin := (rfl)
@[simp] theorem State.setLnk_cores (x : LnkSt) : (s.setLnk x).cores = s.cores := (rfl)
@[simp] theorem State.setLnk_dsp (x : LnkSt) : (s.setLnk x).dsp = s.dsp := (rfl)
@[simp] theorem State.setLnk_lnk (x : LnkSt) : (s.setLnk x).lnk = x := (rfl)
@[simp] theorem State.setLnk_pair (x : LnkSt) : (s.setLnk x).pair = s.pair := (rfl)
@[simp] theorem State.setLnk_trc (x : LnkSt) : (s.setLnk x).trc = s.trc := (rfl)
@[simp] theorem State.setLnk_trcNext (x : LnkSt) : (s.setLnk x).trcNext = s.trcNext := (rfl)
@[simp] theorem State.setLnk_trcCores (x : LnkSt) : (s.setLnk x).trcCores = s.trcCores := (rfl)
@[simp] theorem State.setLnk_trcPort (x : LnkSt) : (s.setLnk x).trcPort = s.trcPort := (rfl)
@[simp] theorem State.setLnk_trcFrames (x : LnkSt) : (s.setLnk x).trcFrames = s.trcFrames := (rfl)
@[simp] theorem State.setLnk_ela (x : LnkSt) : (s.setLnk x).ela = s.ela := (rfl)
@[simp] theorem State.setLnk_cap (x : LnkSt) : (s.setLnk x).cap = s.cap := (rfl)
@[simp] theorem State.setLnk_rad (x : LnkSt) : (s.setLnk x).rad = s.rad := (rfl)
@[simp] theorem State.setLnk_dec (x : LnkSt) : (s.setLnk x).dec = s.dec := (rfl)
@[simp] theorem State.setLnk_sec (x : LnkSt) : (s.setLnk x).sec = s.sec := (rfl)

/-! ### setPair -/

@[simp] theorem State.setPair_pending (x : PairSt) : (s.setPair x).pending = s.pending := (rfl)
@[simp] theorem State.setPair_tb (x : PairSt) : (s.setPair x).tb = s.tb := (rfl)
@[simp] theorem State.setPair_free (x : PairSt) : (s.setPair x).free = s.free := (rfl)
@[simp] theorem State.setPair_regs (x : PairSt) : (s.setPair x).regs = s.regs := (rfl)
@[simp] theorem State.setPair_events (x : PairSt) : (s.setPair x).events = s.events := (rfl)
@[simp] theorem State.setPair_hostMem (x : PairSt) : (s.setPair x).hostMem = s.hostMem := (rfl)
@[simp] theorem State.setPair_host (x : PairSt) : (s.setPair x).host = s.host := (rfl)
@[simp] theorem State.setPair_mem (x : PairSt) : (s.setPair x).mem = s.mem := (rfl)
@[simp] theorem State.setPair_clk (x : PairSt) : (s.setPair x).clk = s.clk := (rfl)
@[simp] theorem State.setPair_fab (x : PairSt) : (s.setPair x).fab = s.fab := (rfl)
@[simp] theorem State.setPair_pin (x : PairSt) : (s.setPair x).pin = s.pin := (rfl)
@[simp] theorem State.setPair_cores (x : PairSt) : (s.setPair x).cores = s.cores := (rfl)
@[simp] theorem State.setPair_dsp (x : PairSt) : (s.setPair x).dsp = s.dsp := (rfl)
@[simp] theorem State.setPair_lnk (x : PairSt) : (s.setPair x).lnk = s.lnk := (rfl)
@[simp] theorem State.setPair_pair (x : PairSt) : (s.setPair x).pair = x := (rfl)
@[simp] theorem State.setPair_trc (x : PairSt) : (s.setPair x).trc = s.trc := (rfl)
@[simp] theorem State.setPair_trcNext (x : PairSt) : (s.setPair x).trcNext = s.trcNext := (rfl)
@[simp] theorem State.setPair_trcCores (x : PairSt) : (s.setPair x).trcCores = s.trcCores := (rfl)
@[simp] theorem State.setPair_trcPort (x : PairSt) : (s.setPair x).trcPort = s.trcPort := (rfl)
@[simp] theorem State.setPair_trcFrames (x : PairSt) : (s.setPair x).trcFrames = s.trcFrames := (rfl)
@[simp] theorem State.setPair_ela (x : PairSt) : (s.setPair x).ela = s.ela := (rfl)
@[simp] theorem State.setPair_cap (x : PairSt) : (s.setPair x).cap = s.cap := (rfl)
@[simp] theorem State.setPair_rad (x : PairSt) : (s.setPair x).rad = s.rad := (rfl)
@[simp] theorem State.setPair_dec (x : PairSt) : (s.setPair x).dec = s.dec := (rfl)
@[simp] theorem State.setPair_sec (x : PairSt) : (s.setPair x).sec = s.sec := (rfl)

/-! ### setTrcs -/

@[simp] theorem State.setTrcs_pending (x : List (Nat × TrcSrc)) : (s.setTrcs x).pending = s.pending := (rfl)
@[simp] theorem State.setTrcs_tb (x : List (Nat × TrcSrc)) : (s.setTrcs x).tb = s.tb := (rfl)
@[simp] theorem State.setTrcs_free (x : List (Nat × TrcSrc)) : (s.setTrcs x).free = s.free := (rfl)
@[simp] theorem State.setTrcs_regs (x : List (Nat × TrcSrc)) : (s.setTrcs x).regs = s.regs := (rfl)
@[simp] theorem State.setTrcs_events (x : List (Nat × TrcSrc)) : (s.setTrcs x).events = s.events := (rfl)
@[simp] theorem State.setTrcs_hostMem (x : List (Nat × TrcSrc)) : (s.setTrcs x).hostMem = s.hostMem := (rfl)
@[simp] theorem State.setTrcs_host (x : List (Nat × TrcSrc)) : (s.setTrcs x).host = s.host := (rfl)
@[simp] theorem State.setTrcs_mem (x : List (Nat × TrcSrc)) : (s.setTrcs x).mem = s.mem := (rfl)
@[simp] theorem State.setTrcs_clk (x : List (Nat × TrcSrc)) : (s.setTrcs x).clk = s.clk := (rfl)
@[simp] theorem State.setTrcs_fab (x : List (Nat × TrcSrc)) : (s.setTrcs x).fab = s.fab := (rfl)
@[simp] theorem State.setTrcs_pin (x : List (Nat × TrcSrc)) : (s.setTrcs x).pin = s.pin := (rfl)
@[simp] theorem State.setTrcs_cores (x : List (Nat × TrcSrc)) : (s.setTrcs x).cores = s.cores := (rfl)
@[simp] theorem State.setTrcs_dsp (x : List (Nat × TrcSrc)) : (s.setTrcs x).dsp = s.dsp := (rfl)
@[simp] theorem State.setTrcs_lnk (x : List (Nat × TrcSrc)) : (s.setTrcs x).lnk = s.lnk := (rfl)
@[simp] theorem State.setTrcs_pair (x : List (Nat × TrcSrc)) : (s.setTrcs x).pair = s.pair := (rfl)
@[simp] theorem State.setTrcs_trc (x : List (Nat × TrcSrc)) : (s.setTrcs x).trc = x := (rfl)
@[simp] theorem State.setTrcs_trcNext (x : List (Nat × TrcSrc)) : (s.setTrcs x).trcNext = s.trcNext := (rfl)
@[simp] theorem State.setTrcs_trcCores (x : List (Nat × TrcSrc)) : (s.setTrcs x).trcCores = s.trcCores := (rfl)
@[simp] theorem State.setTrcs_trcPort (x : List (Nat × TrcSrc)) : (s.setTrcs x).trcPort = s.trcPort := (rfl)
@[simp] theorem State.setTrcs_trcFrames (x : List (Nat × TrcSrc)) : (s.setTrcs x).trcFrames = s.trcFrames := (rfl)
@[simp] theorem State.setTrcs_ela (x : List (Nat × TrcSrc)) : (s.setTrcs x).ela = s.ela := (rfl)
@[simp] theorem State.setTrcs_cap (x : List (Nat × TrcSrc)) : (s.setTrcs x).cap = s.cap := (rfl)
@[simp] theorem State.setTrcs_rad (x : List (Nat × TrcSrc)) : (s.setTrcs x).rad = s.rad := (rfl)
@[simp] theorem State.setTrcs_dec (x : List (Nat × TrcSrc)) : (s.setTrcs x).dec = s.dec := (rfl)
@[simp] theorem State.setTrcs_sec (x : List (Nat × TrcSrc)) : (s.setTrcs x).sec = s.sec := (rfl)

/-! ### setEla -/

@[simp] theorem State.setEla_pending (x : ElaSt) : (s.setEla x).pending = s.pending := (rfl)
@[simp] theorem State.setEla_tb (x : ElaSt) : (s.setEla x).tb = s.tb := (rfl)
@[simp] theorem State.setEla_free (x : ElaSt) : (s.setEla x).free = s.free := (rfl)
@[simp] theorem State.setEla_regs (x : ElaSt) : (s.setEla x).regs = s.regs := (rfl)
@[simp] theorem State.setEla_events (x : ElaSt) : (s.setEla x).events = s.events := (rfl)
@[simp] theorem State.setEla_hostMem (x : ElaSt) : (s.setEla x).hostMem = s.hostMem := (rfl)
@[simp] theorem State.setEla_host (x : ElaSt) : (s.setEla x).host = s.host := (rfl)
@[simp] theorem State.setEla_mem (x : ElaSt) : (s.setEla x).mem = s.mem := (rfl)
@[simp] theorem State.setEla_clk (x : ElaSt) : (s.setEla x).clk = s.clk := (rfl)
@[simp] theorem State.setEla_fab (x : ElaSt) : (s.setEla x).fab = s.fab := (rfl)
@[simp] theorem State.setEla_pin (x : ElaSt) : (s.setEla x).pin = s.pin := (rfl)
@[simp] theorem State.setEla_cores (x : ElaSt) : (s.setEla x).cores = s.cores := (rfl)
@[simp] theorem State.setEla_dsp (x : ElaSt) : (s.setEla x).dsp = s.dsp := (rfl)
@[simp] theorem State.setEla_lnk (x : ElaSt) : (s.setEla x).lnk = s.lnk := (rfl)
@[simp] theorem State.setEla_pair (x : ElaSt) : (s.setEla x).pair = s.pair := (rfl)
@[simp] theorem State.setEla_trc (x : ElaSt) : (s.setEla x).trc = s.trc := (rfl)
@[simp] theorem State.setEla_trcNext (x : ElaSt) : (s.setEla x).trcNext = s.trcNext := (rfl)
@[simp] theorem State.setEla_trcCores (x : ElaSt) : (s.setEla x).trcCores = s.trcCores := (rfl)
@[simp] theorem State.setEla_trcPort (x : ElaSt) : (s.setEla x).trcPort = s.trcPort := (rfl)
@[simp] theorem State.setEla_trcFrames (x : ElaSt) : (s.setEla x).trcFrames = s.trcFrames := (rfl)
@[simp] theorem State.setEla_ela (x : ElaSt) : (s.setEla x).ela = x := (rfl)
@[simp] theorem State.setEla_cap (x : ElaSt) : (s.setEla x).cap = s.cap := (rfl)
@[simp] theorem State.setEla_rad (x : ElaSt) : (s.setEla x).rad = s.rad := (rfl)
@[simp] theorem State.setEla_dec (x : ElaSt) : (s.setEla x).dec = s.dec := (rfl)
@[simp] theorem State.setEla_sec (x : ElaSt) : (s.setEla x).sec = s.sec := (rfl)

/-! ### setCap -/

@[simp] theorem State.setCap_pending (x : CapSt) : (s.setCap x).pending = s.pending := (rfl)
@[simp] theorem State.setCap_tb (x : CapSt) : (s.setCap x).tb = s.tb := (rfl)
@[simp] theorem State.setCap_free (x : CapSt) : (s.setCap x).free = s.free := (rfl)
@[simp] theorem State.setCap_regs (x : CapSt) : (s.setCap x).regs = s.regs := (rfl)
@[simp] theorem State.setCap_events (x : CapSt) : (s.setCap x).events = s.events := (rfl)
@[simp] theorem State.setCap_hostMem (x : CapSt) : (s.setCap x).hostMem = s.hostMem := (rfl)
@[simp] theorem State.setCap_host (x : CapSt) : (s.setCap x).host = s.host := (rfl)
@[simp] theorem State.setCap_mem (x : CapSt) : (s.setCap x).mem = s.mem := (rfl)
@[simp] theorem State.setCap_clk (x : CapSt) : (s.setCap x).clk = s.clk := (rfl)
@[simp] theorem State.setCap_fab (x : CapSt) : (s.setCap x).fab = s.fab := (rfl)
@[simp] theorem State.setCap_pin (x : CapSt) : (s.setCap x).pin = s.pin := (rfl)
@[simp] theorem State.setCap_cores (x : CapSt) : (s.setCap x).cores = s.cores := (rfl)
@[simp] theorem State.setCap_dsp (x : CapSt) : (s.setCap x).dsp = s.dsp := (rfl)
@[simp] theorem State.setCap_lnk (x : CapSt) : (s.setCap x).lnk = s.lnk := (rfl)
@[simp] theorem State.setCap_pair (x : CapSt) : (s.setCap x).pair = s.pair := (rfl)
@[simp] theorem State.setCap_trc (x : CapSt) : (s.setCap x).trc = s.trc := (rfl)
@[simp] theorem State.setCap_trcNext (x : CapSt) : (s.setCap x).trcNext = s.trcNext := (rfl)
@[simp] theorem State.setCap_trcCores (x : CapSt) : (s.setCap x).trcCores = s.trcCores := (rfl)
@[simp] theorem State.setCap_trcPort (x : CapSt) : (s.setCap x).trcPort = s.trcPort := (rfl)
@[simp] theorem State.setCap_trcFrames (x : CapSt) : (s.setCap x).trcFrames = s.trcFrames := (rfl)
@[simp] theorem State.setCap_ela (x : CapSt) : (s.setCap x).ela = s.ela := (rfl)
@[simp] theorem State.setCap_cap (x : CapSt) : (s.setCap x).cap = x := (rfl)
@[simp] theorem State.setCap_rad (x : CapSt) : (s.setCap x).rad = s.rad := (rfl)
@[simp] theorem State.setCap_dec (x : CapSt) : (s.setCap x).dec = s.dec := (rfl)
@[simp] theorem State.setCap_sec (x : CapSt) : (s.setCap x).sec = s.sec := (rfl)

/-! ### setRad -/

@[simp] theorem State.setRad_pending (x : RadSt) : (s.setRad x).pending = s.pending := (rfl)
@[simp] theorem State.setRad_tb (x : RadSt) : (s.setRad x).tb = s.tb := (rfl)
@[simp] theorem State.setRad_free (x : RadSt) : (s.setRad x).free = s.free := (rfl)
@[simp] theorem State.setRad_regs (x : RadSt) : (s.setRad x).regs = s.regs := (rfl)
@[simp] theorem State.setRad_events (x : RadSt) : (s.setRad x).events = s.events := (rfl)
@[simp] theorem State.setRad_hostMem (x : RadSt) : (s.setRad x).hostMem = s.hostMem := (rfl)
@[simp] theorem State.setRad_host (x : RadSt) : (s.setRad x).host = s.host := (rfl)
@[simp] theorem State.setRad_mem (x : RadSt) : (s.setRad x).mem = s.mem := (rfl)
@[simp] theorem State.setRad_clk (x : RadSt) : (s.setRad x).clk = s.clk := (rfl)
@[simp] theorem State.setRad_fab (x : RadSt) : (s.setRad x).fab = s.fab := (rfl)
@[simp] theorem State.setRad_pin (x : RadSt) : (s.setRad x).pin = s.pin := (rfl)
@[simp] theorem State.setRad_cores (x : RadSt) : (s.setRad x).cores = s.cores := (rfl)
@[simp] theorem State.setRad_dsp (x : RadSt) : (s.setRad x).dsp = s.dsp := (rfl)
@[simp] theorem State.setRad_lnk (x : RadSt) : (s.setRad x).lnk = s.lnk := (rfl)
@[simp] theorem State.setRad_pair (x : RadSt) : (s.setRad x).pair = s.pair := (rfl)
@[simp] theorem State.setRad_trc (x : RadSt) : (s.setRad x).trc = s.trc := (rfl)
@[simp] theorem State.setRad_trcNext (x : RadSt) : (s.setRad x).trcNext = s.trcNext := (rfl)
@[simp] theorem State.setRad_trcCores (x : RadSt) : (s.setRad x).trcCores = s.trcCores := (rfl)
@[simp] theorem State.setRad_trcPort (x : RadSt) : (s.setRad x).trcPort = s.trcPort := (rfl)
@[simp] theorem State.setRad_trcFrames (x : RadSt) : (s.setRad x).trcFrames = s.trcFrames := (rfl)
@[simp] theorem State.setRad_ela (x : RadSt) : (s.setRad x).ela = s.ela := (rfl)
@[simp] theorem State.setRad_cap (x : RadSt) : (s.setRad x).cap = s.cap := (rfl)
@[simp] theorem State.setRad_rad (x : RadSt) : (s.setRad x).rad = x := (rfl)
@[simp] theorem State.setRad_dec (x : RadSt) : (s.setRad x).dec = s.dec := (rfl)
@[simp] theorem State.setRad_sec (x : RadSt) : (s.setRad x).sec = s.sec := (rfl)

/-! ### setDec -/

@[simp] theorem State.setDec_pending (x : DecSt) : (s.setDec x).pending = s.pending := (rfl)
@[simp] theorem State.setDec_tb (x : DecSt) : (s.setDec x).tb = s.tb := (rfl)
@[simp] theorem State.setDec_free (x : DecSt) : (s.setDec x).free = s.free := (rfl)
@[simp] theorem State.setDec_regs (x : DecSt) : (s.setDec x).regs = s.regs := (rfl)
@[simp] theorem State.setDec_events (x : DecSt) : (s.setDec x).events = s.events := (rfl)
@[simp] theorem State.setDec_hostMem (x : DecSt) : (s.setDec x).hostMem = s.hostMem := (rfl)
@[simp] theorem State.setDec_host (x : DecSt) : (s.setDec x).host = s.host := (rfl)
@[simp] theorem State.setDec_mem (x : DecSt) : (s.setDec x).mem = s.mem := (rfl)
@[simp] theorem State.setDec_clk (x : DecSt) : (s.setDec x).clk = s.clk := (rfl)
@[simp] theorem State.setDec_fab (x : DecSt) : (s.setDec x).fab = s.fab := (rfl)
@[simp] theorem State.setDec_pin (x : DecSt) : (s.setDec x).pin = s.pin := (rfl)
@[simp] theorem State.setDec_cores (x : DecSt) : (s.setDec x).cores = s.cores := (rfl)
@[simp] theorem State.setDec_dsp (x : DecSt) : (s.setDec x).dsp = s.dsp := (rfl)
@[simp] theorem State.setDec_lnk (x : DecSt) : (s.setDec x).lnk = s.lnk := (rfl)
@[simp] theorem State.setDec_pair (x : DecSt) : (s.setDec x).pair = s.pair := (rfl)
@[simp] theorem State.setDec_trc (x : DecSt) : (s.setDec x).trc = s.trc := (rfl)
@[simp] theorem State.setDec_trcNext (x : DecSt) : (s.setDec x).trcNext = s.trcNext := (rfl)
@[simp] theorem State.setDec_trcCores (x : DecSt) : (s.setDec x).trcCores = s.trcCores := (rfl)
@[simp] theorem State.setDec_trcPort (x : DecSt) : (s.setDec x).trcPort = s.trcPort := (rfl)
@[simp] theorem State.setDec_trcFrames (x : DecSt) : (s.setDec x).trcFrames = s.trcFrames := (rfl)
@[simp] theorem State.setDec_ela (x : DecSt) : (s.setDec x).ela = s.ela := (rfl)
@[simp] theorem State.setDec_cap (x : DecSt) : (s.setDec x).cap = s.cap := (rfl)
@[simp] theorem State.setDec_rad (x : DecSt) : (s.setDec x).rad = s.rad := (rfl)
@[simp] theorem State.setDec_dec (x : DecSt) : (s.setDec x).dec = x := (rfl)
@[simp] theorem State.setDec_sec (x : DecSt) : (s.setDec x).sec = s.sec := (rfl)

/-! ### setSec -/

@[simp] theorem State.setSec_pending (x : SecSt) : (s.setSec x).pending = s.pending := (rfl)
@[simp] theorem State.setSec_tb (x : SecSt) : (s.setSec x).tb = s.tb := (rfl)
@[simp] theorem State.setSec_free (x : SecSt) : (s.setSec x).free = s.free := (rfl)
@[simp] theorem State.setSec_regs (x : SecSt) : (s.setSec x).regs = s.regs := (rfl)
@[simp] theorem State.setSec_events (x : SecSt) : (s.setSec x).events = s.events := (rfl)
@[simp] theorem State.setSec_hostMem (x : SecSt) : (s.setSec x).hostMem = s.hostMem := (rfl)
@[simp] theorem State.setSec_host (x : SecSt) : (s.setSec x).host = s.host := (rfl)
@[simp] theorem State.setSec_mem (x : SecSt) : (s.setSec x).mem = s.mem := (rfl)
@[simp] theorem State.setSec_clk (x : SecSt) : (s.setSec x).clk = s.clk := (rfl)
@[simp] theorem State.setSec_fab (x : SecSt) : (s.setSec x).fab = s.fab := (rfl)
@[simp] theorem State.setSec_pin (x : SecSt) : (s.setSec x).pin = s.pin := (rfl)
@[simp] theorem State.setSec_cores (x : SecSt) : (s.setSec x).cores = s.cores := (rfl)
@[simp] theorem State.setSec_dsp (x : SecSt) : (s.setSec x).dsp = s.dsp := (rfl)
@[simp] theorem State.setSec_lnk (x : SecSt) : (s.setSec x).lnk = s.lnk := (rfl)
@[simp] theorem State.setSec_pair (x : SecSt) : (s.setSec x).pair = s.pair := (rfl)
@[simp] theorem State.setSec_trc (x : SecSt) : (s.setSec x).trc = s.trc := (rfl)
@[simp] theorem State.setSec_trcNext (x : SecSt) : (s.setSec x).trcNext = s.trcNext := (rfl)
@[simp] theorem State.setSec_trcCores (x : SecSt) : (s.setSec x).trcCores = s.trcCores := (rfl)
@[simp] theorem State.setSec_trcPort (x : SecSt) : (s.setSec x).trcPort = s.trcPort := (rfl)
@[simp] theorem State.setSec_trcFrames (x : SecSt) : (s.setSec x).trcFrames = s.trcFrames := (rfl)
@[simp] theorem State.setSec_ela (x : SecSt) : (s.setSec x).ela = s.ela := (rfl)
@[simp] theorem State.setSec_cap (x : SecSt) : (s.setSec x).cap = s.cap := (rfl)
@[simp] theorem State.setSec_rad (x : SecSt) : (s.setSec x).rad = s.rad := (rfl)
@[simp] theorem State.setSec_dec (x : SecSt) : (s.setSec x).dec = s.dec := (rfl)
@[simp] theorem State.setSec_sec (x : SecSt) : (s.setSec x).sec = x := (rfl)

/-! ### setRing -/

@[simp] theorem State.setRing_pending (r : Nat) (x : RingSt) : (s.setRing r x).pending = s.pending := (rfl)
@[simp] theorem State.setRing_tb (r : Nat) (x : RingSt) : (s.setRing r x).tb = s.tb := (rfl)
@[simp] theorem State.setRing_free (r : Nat) (x : RingSt) : (s.setRing r x).free = s.free := (rfl)
@[simp] theorem State.setRing_regs (r : Nat) (x : RingSt) : (s.setRing r x).regs = s.regs := (rfl)
@[simp] theorem State.setRing_events (r : Nat) (x : RingSt) : (s.setRing r x).events = s.events := (rfl)
@[simp] theorem State.setRing_hostMem (r : Nat) (x : RingSt) : (s.setRing r x).hostMem = s.hostMem := (rfl)
@[simp] theorem State.setRing_mem (r : Nat) (x : RingSt) : (s.setRing r x).mem = s.mem := (rfl)
@[simp] theorem State.setRing_clk (r : Nat) (x : RingSt) : (s.setRing r x).clk = s.clk := (rfl)
@[simp] theorem State.setRing_fab (r : Nat) (x : RingSt) : (s.setRing r x).fab = s.fab := (rfl)
@[simp] theorem State.setRing_pin (r : Nat) (x : RingSt) : (s.setRing r x).pin = s.pin := (rfl)
@[simp] theorem State.setRing_cores (r : Nat) (x : RingSt) : (s.setRing r x).cores = s.cores := (rfl)
@[simp] theorem State.setRing_dsp (r : Nat) (x : RingSt) : (s.setRing r x).dsp = s.dsp := (rfl)
@[simp] theorem State.setRing_lnk (r : Nat) (x : RingSt) : (s.setRing r x).lnk = s.lnk := (rfl)
@[simp] theorem State.setRing_pair (r : Nat) (x : RingSt) : (s.setRing r x).pair = s.pair := (rfl)
@[simp] theorem State.setRing_trc (r : Nat) (x : RingSt) : (s.setRing r x).trc = s.trc := (rfl)
@[simp] theorem State.setRing_trcNext (r : Nat) (x : RingSt) : (s.setRing r x).trcNext = s.trcNext := (rfl)
@[simp] theorem State.setRing_trcCores (r : Nat) (x : RingSt) : (s.setRing r x).trcCores = s.trcCores := (rfl)
@[simp] theorem State.setRing_trcPort (r : Nat) (x : RingSt) : (s.setRing r x).trcPort = s.trcPort := (rfl)
@[simp] theorem State.setRing_trcFrames (r : Nat) (x : RingSt) : (s.setRing r x).trcFrames = s.trcFrames := (rfl)
@[simp] theorem State.setRing_ela (r : Nat) (x : RingSt) : (s.setRing r x).ela = s.ela := (rfl)
@[simp] theorem State.setRing_cap (r : Nat) (x : RingSt) : (s.setRing r x).cap = s.cap := (rfl)
@[simp] theorem State.setRing_rad (r : Nat) (x : RingSt) : (s.setRing r x).rad = s.rad := (rfl)
@[simp] theorem State.setRing_dec (r : Nat) (x : RingSt) : (s.setRing r x).dec = s.dec := (rfl)
@[simp] theorem State.setRing_sec (r : Nat) (x : RingSt) : (s.setRing r x).sec = s.sec := (rfl)

/-! ### setRgn -/

@[simp] theorem State.setRgn_pending (r : Nat) (x : RgnSt) : (s.setRgn r x).pending = s.pending := (rfl)
@[simp] theorem State.setRgn_tb (r : Nat) (x : RgnSt) : (s.setRgn r x).tb = s.tb := (rfl)
@[simp] theorem State.setRgn_free (r : Nat) (x : RgnSt) : (s.setRgn r x).free = s.free := (rfl)
@[simp] theorem State.setRgn_regs (r : Nat) (x : RgnSt) : (s.setRgn r x).regs = s.regs := (rfl)
@[simp] theorem State.setRgn_events (r : Nat) (x : RgnSt) : (s.setRgn r x).events = s.events := (rfl)
@[simp] theorem State.setRgn_hostMem (r : Nat) (x : RgnSt) : (s.setRgn r x).hostMem = s.hostMem := (rfl)
@[simp] theorem State.setRgn_host (r : Nat) (x : RgnSt) : (s.setRgn r x).host = s.host := (rfl)
@[simp] theorem State.setRgn_mem (r : Nat) (x : RgnSt) : (s.setRgn r x).mem = s.mem := (rfl)
@[simp] theorem State.setRgn_clk (r : Nat) (x : RgnSt) : (s.setRgn r x).clk = s.clk := (rfl)
@[simp] theorem State.setRgn_pin (r : Nat) (x : RgnSt) : (s.setRgn r x).pin = s.pin := (rfl)
@[simp] theorem State.setRgn_cores (r : Nat) (x : RgnSt) : (s.setRgn r x).cores = s.cores := (rfl)
@[simp] theorem State.setRgn_dsp (r : Nat) (x : RgnSt) : (s.setRgn r x).dsp = s.dsp := (rfl)
@[simp] theorem State.setRgn_lnk (r : Nat) (x : RgnSt) : (s.setRgn r x).lnk = s.lnk := (rfl)
@[simp] theorem State.setRgn_pair (r : Nat) (x : RgnSt) : (s.setRgn r x).pair = s.pair := (rfl)
@[simp] theorem State.setRgn_trc (r : Nat) (x : RgnSt) : (s.setRgn r x).trc = s.trc := (rfl)
@[simp] theorem State.setRgn_trcNext (r : Nat) (x : RgnSt) : (s.setRgn r x).trcNext = s.trcNext := (rfl)
@[simp] theorem State.setRgn_trcCores (r : Nat) (x : RgnSt) : (s.setRgn r x).trcCores = s.trcCores := (rfl)
@[simp] theorem State.setRgn_trcPort (r : Nat) (x : RgnSt) : (s.setRgn r x).trcPort = s.trcPort := (rfl)
@[simp] theorem State.setRgn_trcFrames (r : Nat) (x : RgnSt) : (s.setRgn r x).trcFrames = s.trcFrames := (rfl)
@[simp] theorem State.setRgn_ela (r : Nat) (x : RgnSt) : (s.setRgn r x).ela = s.ela := (rfl)
@[simp] theorem State.setRgn_cap (r : Nat) (x : RgnSt) : (s.setRgn r x).cap = s.cap := (rfl)
@[simp] theorem State.setRgn_rad (r : Nat) (x : RgnSt) : (s.setRgn r x).rad = s.rad := (rfl)
@[simp] theorem State.setRgn_dec (r : Nat) (x : RgnSt) : (s.setRgn r x).dec = s.dec := (rfl)
@[simp] theorem State.setRgn_sec (r : Nat) (x : RgnSt) : (s.setRgn r x).sec = s.sec := (rfl)

/-! ### setLink -/

@[simp] theorem State.setLink_pending (k : Nat) (l : LinkSt) : (s.setLink k l).pending = s.pending := (rfl)
@[simp] theorem State.setLink_tb (k : Nat) (l : LinkSt) : (s.setLink k l).tb = s.tb := (rfl)
@[simp] theorem State.setLink_free (k : Nat) (l : LinkSt) : (s.setLink k l).free = s.free := (rfl)
@[simp] theorem State.setLink_regs (k : Nat) (l : LinkSt) : (s.setLink k l).regs = s.regs := (rfl)
@[simp] theorem State.setLink_events (k : Nat) (l : LinkSt) : (s.setLink k l).events = s.events := (rfl)
@[simp] theorem State.setLink_hostMem (k : Nat) (l : LinkSt) : (s.setLink k l).hostMem = s.hostMem := (rfl)
@[simp] theorem State.setLink_host (k : Nat) (l : LinkSt) : (s.setLink k l).host = s.host := (rfl)
@[simp] theorem State.setLink_mem (k : Nat) (l : LinkSt) : (s.setLink k l).mem = s.mem := (rfl)
@[simp] theorem State.setLink_clk (k : Nat) (l : LinkSt) : (s.setLink k l).clk = s.clk := (rfl)
@[simp] theorem State.setLink_fab (k : Nat) (l : LinkSt) : (s.setLink k l).fab = s.fab := (rfl)
@[simp] theorem State.setLink_pin (k : Nat) (l : LinkSt) : (s.setLink k l).pin = s.pin := (rfl)
@[simp] theorem State.setLink_cores (k : Nat) (l : LinkSt) : (s.setLink k l).cores = s.cores := (rfl)
@[simp] theorem State.setLink_dsp (k : Nat) (l : LinkSt) : (s.setLink k l).dsp = s.dsp := (rfl)
@[simp] theorem State.setLink_pair (k : Nat) (l : LinkSt) : (s.setLink k l).pair = s.pair := (rfl)
@[simp] theorem State.setLink_trc (k : Nat) (l : LinkSt) : (s.setLink k l).trc = s.trc := (rfl)
@[simp] theorem State.setLink_trcNext (k : Nat) (l : LinkSt) : (s.setLink k l).trcNext = s.trcNext := (rfl)
@[simp] theorem State.setLink_trcCores (k : Nat) (l : LinkSt) : (s.setLink k l).trcCores = s.trcCores := (rfl)
@[simp] theorem State.setLink_trcPort (k : Nat) (l : LinkSt) : (s.setLink k l).trcPort = s.trcPort := (rfl)
@[simp] theorem State.setLink_trcFrames (k : Nat) (l : LinkSt) : (s.setLink k l).trcFrames = s.trcFrames := (rfl)
@[simp] theorem State.setLink_ela (k : Nat) (l : LinkSt) : (s.setLink k l).ela = s.ela := (rfl)
@[simp] theorem State.setLink_cap (k : Nat) (l : LinkSt) : (s.setLink k l).cap = s.cap := (rfl)
@[simp] theorem State.setLink_rad (k : Nat) (l : LinkSt) : (s.setLink k l).rad = s.rad := (rfl)
@[simp] theorem State.setLink_dec (k : Nat) (l : LinkSt) : (s.setLink k l).dec = s.dec := (rfl)
@[simp] theorem State.setLink_sec (k : Nat) (l : LinkSt) : (s.setLink k l).sec = s.sec := (rfl)

/-! ### setCore -/

@[simp] theorem State.setCore_pending (n : Nat) (c : CoreSt) : (s.setCore n c).pending = s.pending := by simp only [State.setCore, State.showCore, State.wr_pending, State.setCores_pending]
@[simp] theorem State.setCore_tb (n : Nat) (c : CoreSt) : (s.setCore n c).tb = s.tb := by simp only [State.setCore, State.showCore, State.wr_tb, State.setCores_tb]
@[simp] theorem State.setCore_free (n : Nat) (c : CoreSt) : (s.setCore n c).free = s.free := by simp only [State.setCore, State.showCore, State.wr_free, State.setCores_free]
@[simp] theorem State.setCore_events (n : Nat) (c : CoreSt) : (s.setCore n c).events = s.events := by simp only [State.setCore, State.showCore, State.wr_events, State.setCores_events]
@[simp] theorem State.setCore_hostMem (n : Nat) (c : CoreSt) : (s.setCore n c).hostMem = s.hostMem := by simp only [State.setCore, State.showCore, State.wr_hostMem, State.setCores_hostMem]
@[simp] theorem State.setCore_host (n : Nat) (c : CoreSt) : (s.setCore n c).host = s.host := by simp only [State.setCore, State.showCore, State.wr_host, State.setCores_host]
@[simp] theorem State.setCore_mem (n : Nat) (c : CoreSt) : (s.setCore n c).mem = s.mem := by simp only [State.setCore, State.showCore, State.wr_mem, State.setCores_mem]
@[simp] theorem State.setCore_clk (n : Nat) (c : CoreSt) : (s.setCore n c).clk = s.clk := by simp only [State.setCore, State.showCore, State.wr_clk, State.setCores_clk]
@[simp] theorem State.setCore_fab (n : Nat) (c : CoreSt) : (s.setCore n c).fab = s.fab := by simp only [State.setCore, State.showCore, State.wr_fab, State.setCores_fab]
@[simp] theorem State.setCore_pin (n : Nat) (c : CoreSt) : (s.setCore n c).pin = s.pin := by simp only [State.setCore, State.showCore, State.wr_pin, State.setCores_pin]
@[simp] theorem State.setCore_dsp (n : Nat) (c : CoreSt) : (s.setCore n c).dsp = s.dsp := by simp only [State.setCore, State.showCore, State.wr_dsp, State.setCores_dsp]
@[simp] theorem State.setCore_lnk (n : Nat) (c : CoreSt) : (s.setCore n c).lnk = s.lnk := by simp only [State.setCore, State.showCore, State.wr_lnk, State.setCores_lnk]
@[simp] theorem State.setCore_pair (n : Nat) (c : CoreSt) : (s.setCore n c).pair = s.pair := by simp only [State.setCore, State.showCore, State.wr_pair, State.setCores_pair]
@[simp] theorem State.setCore_trc (n : Nat) (c : CoreSt) : (s.setCore n c).trc = s.trc := by simp only [State.setCore, State.showCore, State.wr_trc, State.setCores_trc]
@[simp] theorem State.setCore_trcNext (n : Nat) (c : CoreSt) : (s.setCore n c).trcNext = s.trcNext := by simp only [State.setCore, State.showCore, State.wr_trcNext, State.setCores_trcNext]
@[simp] theorem State.setCore_trcCores (n : Nat) (c : CoreSt) : (s.setCore n c).trcCores = s.trcCores := by simp only [State.setCore, State.showCore, State.wr_trcCores, State.setCores_trcCores]
@[simp] theorem State.setCore_trcPort (n : Nat) (c : CoreSt) : (s.setCore n c).trcPort = s.trcPort := by simp only [State.setCore, State.showCore, State.wr_trcPort, State.setCores_trcPort]
@[simp] theorem State.setCore_trcFrames (n : Nat) (c : CoreSt) : (s.setCore n c).trcFrames = s.trcFrames := by simp only [State.setCore, State.showCore, State.wr_trcFrames, State.setCores_trcFrames]
@[simp] theorem State.setCore_ela (n : Nat) (c : CoreSt) : (s.setCore n c).ela = s.ela := by simp only [State.setCore, State.showCore, State.wr_ela, State.setCores_ela]
@[simp] theorem State.setCore_cap (n : Nat) (c : CoreSt) : (s.setCore n c).cap = s.cap := by simp only [State.setCore, State.showCore, State.wr_cap, State.setCores_cap]
@[simp] theorem State.setCore_rad (n : Nat) (c : CoreSt) : (s.setCore n c).rad = s.rad := by simp only [State.setCore, State.showCore, State.wr_rad, State.setCores_rad]
@[simp] theorem State.setCore_dec (n : Nat) (c : CoreSt) : (s.setCore n c).dec = s.dec := by simp only [State.setCore, State.showCore, State.wr_dec, State.setCores_dec]
@[simp] theorem State.setCore_sec (n : Nat) (c : CoreSt) : (s.setCore n c).sec = s.sec := by simp only [State.setCore, State.showCore, State.wr_sec, State.setCores_sec]

end Sys2Proof.Machine
end

