-- ==== Sys2Proof/Laws/Registers.lean ====
section
/-! SUPPORT. Laws of the register file: what a field reads as after a write, and that writes keep its canonical form. -/

namespace Sys2Proof.Machine

/-- A field of a 32-bit register. -/
def Field.fits (f : Field) : Prop := f.lo ≤ f.hi ∧ f.hi < 32

/-- Reading a field depends on the register file alone. -/
theorem State.rd_congr {s t : State} (h : s.regs = t.regs) (f : Field) (i j : Nat) : s.rd f i j = t.rd f i j := by
  unfold State.rd State.rdReg; rw [h]

theorem State.rdb_congr {s t : State} (h : s.regs = t.regs) (f : Field) (i j : Nat) : s.rdb f i j = t.rdb f i j := by
  unfold State.rdb; rw [State.rd_congr h]

theorem State.rdReg_lt (s : State) (off : Nat) : s.rdReg off < 2 ^ 32 := BitVec.isLt _

theorem State.rdReg_wrReg (s : State) (off v off' : Nat) :
    (s.wrReg off v).rdReg off' = if off' = off then v % 2 ^ 32 else s.rdReg off' := by
  unfold State.rdReg
  show (Sparse.get regReset (Sparse.set regReset s.regs off (BitVec.ofNat 32 v)) off').toNat = _
  rw [Sparse.get_set]
  split
  · exact BitVec.toNat_ofNat ..
  · rfl

/-- A field holds what was written to it, cut to its width. -/
theorem State.rd_wr_same (s : State) (f : Field) (v i j : Nat) (h : f.fits) :
    (s.wr f v i j).rd f i j = v % 2 ^ (f.hi + 1 - f.lo) := by
  unfold State.rd State.wr
  rw [State.rdReg_wrReg, if_pos rfl, Nat.mod_eq_of_lt (setBits_lt _ _ _ h.1 h.2 (s.rdReg_lt _)), bits_setBits_same _ _ h.1]

/-- A write leaves every other register alone. -/
theorem State.rd_wr_other (s : State) (f g : Field) (v i j k l : Nat) (h : g.off k l ≠ f.off i j) :
    (s.wr f v i j).rd g k l = s.rd g k l := by
  unfold State.rd State.wr
  rw [State.rdReg_wrReg, if_neg h]

/-- A write leaves the other fields of its register alone. -/
theorem State.rd_wr_field (s : State) (f g : Field) (v i j k l : Nat) (h : f.fits) (hg : g.hi < f.lo ∨ f.hi < g.lo) :
    (s.wr f v i j).rd g k l = s.rd g k l := by
  unfold State.rd State.wr
  rw [State.rdReg_wrReg]
  split
  · rename_i e
    rw [Nat.mod_eq_of_lt (setBits_lt _ _ _ h.1 h.2 (s.rdReg_lt _)), bits_setBits_other _ _ h.1 hg, e]
  · rfl

theorem State.rdReg_wr_other (s : State) (f : Field) (v i j off : Nat) (h : off ≠ f.off i j) :
    (s.wr f v i j).rdReg off = s.rdReg off := by
  unfold State.wr
  rw [State.rdReg_wrReg, if_neg h]

/-- A register pair holds what was written to it. -/
theorem State.rd64_wr64 (s : State) (f : Field) (v i : Nat) : (s.wr64 f v i).rd64 f i = v % 2 ^ 64 := by
  unfold State.rd64 State.wr64
  rw [State.rdReg_wrReg, if_neg (by omega), State.rdReg_wrReg, if_pos rfl, State.rdReg_wrReg, if_pos rfl]
  omega

/-- The register file is in its canonical form. -/
def State.regsWf (s : State) : Prop := Sparse.wf regReset s.regs = true

theorem State.wrReg_wf (s : State) (off v : Nat) (h : s.regsWf) : (s.wrReg off v).regsWf := Sparse.wf_set _ _ _ _ h

theorem State.wr_wf (s : State) (f : Field) (v i j : Nat) (h : s.regsWf) : (s.wr f v i j).regsWf := s.wrReg_wf _ _ h

end Sys2Proof.Machine
end

