-- ==== Sys2Proof/Laws/Frames.lean ====
section
/-! SUPPORT. What the shared operations of the host plane leave as it was: writing host memory, messages, events and
completions touch the register file, the event log, host memory and the host plane, and no unit of the device. -/

namespace Sys2Proof.Machine

@[simp] theorem State.wrReg_units (s : State) (off v : Nat) : (s.wrReg off v).units = s.units := (rfl)
@[simp] theorem State.wr_units (s : State) (f : Field) (v i j : Nat) : (s.wr f v i j).units = s.units := (rfl)
@[simp] theorem State.sat_units (s : State) (f : Field) (i j n : Nat) : (s.sat f i j n).units = s.units := (rfl)
@[simp] theorem State.inc_units (s : State) (f : Field) (i j n : Nat) : (s.inc f i j n).units = s.units := (rfl)
@[simp] theorem State.setRing_units (s : State) (r : Nat) (x : RingSt) : (s.setRing r x).units = s.units := (rfl)
@[simp] theorem State.setHost_units (s : State) (x : HostSt) : (s.setHost x).units = s.units := (rfl)
@[simp] theorem State.setEvents_units (s : State) (l : List EventRec) : (s.setEvents l).units = s.units := (rfl)
@[simp] theorem State.setHostMem_units (s : State) (l : List Host.Cell) : (s.setHostMem l).units = s.units := (rfl)

theorem State.onlyIf_units (s : State) (c : Bool) (f : State → State) (h : (f s).units = s.units) :
    (s.onlyIf c f).units = s.units := by
  unfold State.onlyIf; split
  · exact h
  · rfl

@[simp] theorem State.hostWrite_units (s : State) (p a : Nat) (l : List Byte) : (s.hostWrite p a l).units = s.units := by
  induction l generalizing s a with
  | nil => rfl
  | cons b bs ih => unfold State.hostWrite; rw [ih]; rfl

@[simp] theorem State.hostWrite_regs (s : State) (p a : Nat) (l : List Byte) : (s.hostWrite p a l).regs = s.regs := by
  induction l generalizing s a with
  | nil => rfl
  | cons b bs ih => unfold State.hostWrite; rw [ih]; rfl

@[simp] theorem State.hostWrite_host (s : State) (p a : Nat) (l : List Byte) : (s.hostWrite p a l).host = s.host := by
  induction l generalizing s a with
  | nil => rfl
  | cons b bs ih => unfold State.hostWrite; rw [ih]; rfl

@[simp] theorem State.hostWrite_events (s : State) (p a : Nat) (l : List Byte) : (s.hostWrite p a l).events = s.events := by
  induction l generalizing s a with
  | nil => rfl
  | cons b bs ih => unfold State.hostWrite; rw [ih]; rfl

@[simp] theorem State.hostWrite_rd (s : State) (p a : Nat) (l : List Byte) (f : Field) (i j : Nat) :
    (s.hostWrite p a l).rd f i j = s.rd f i j := State.rd_congr (s.hostWrite_regs p a l) f i j

@[simp] theorem State.msix_units (s : State) (p v : Nat) : (s.msix p v).units = s.units := by
  unfold State.msix; dsimp only; split <;> simp

@[simp] theorem State.msix_host (s : State) (p v : Nat) : (s.msix p v).host = s.host := by
  unfold State.msix; dsimp only; split <;> simp

@[simp] theorem State.msix_events (s : State) (p v : Nat) : (s.msix p v).events = s.events := by
  unfold State.msix; dsimp only; split <;> simp

@[simp] theorem State.evtSignal_units (s : State) (p : Nat) (u : Bool) : (s.evtSignal p u).units = s.units := by
  unfold State.evtSignal; dsimp only; split <;> simp

@[simp] theorem State.evtSignal_events (s : State) (p : Nat) (u : Bool) : (s.evtSignal p u).events = s.events := by
  unfold State.evtSignal; dsimp only; split <;> simp

@[simp] theorem State.evtToPort_units (s : State) (e : EventRec) (p : Nat) : (s.evtToPort e p).units = s.units := by
  unfold State.evtToPort; dsimp only; split
  · rfl
  · split <;> simp

@[simp] theorem State.evtToPort_events (s : State) (e : EventRec) (p : Nat) : (s.evtToPort e p).events = s.events := by
  unfold State.evtToPort; dsimp only; split
  · rfl
  · split <;> simp

/-- An event touches no unit of the device (R38, R39). -/
@[simp] theorem State.event_units (s : State) (code sev source pay : Nat) (nme : Bool) :
    (s.event code sev source pay nme).units = s.units := by
  unfold State.event; dsimp only; split
  · rfl
  · simp

/-- Outside RECOVERY an event is logged, stamped with the TB (R38, R458). -/
theorem State.event_events (s : State) (code sev source pay : Nat) (nme : Bool) :
    (s.event code sev source pay nme).events =
      if s.recovery then s.events else ⟨s.now, code, sev, nme, source, pay⟩ :: s.events := by
  unfold State.event; dsimp only; split
  · rfl
  · simp

@[simp] theorem State.ringMsg_units (s : State) (r : Nat) : (s.ringMsg r).units = s.units := by
  simp [State.ringMsg]

@[simp] theorem State.postCpl_units (s : State) (r : Nat) (c : Cpl) : (s.postCpl r c).units = s.units := by
  unfold State.postCpl; dsimp only; repeat' split
  all_goals simp

@[simp] theorem State.settle_units (s : State) (r n : Nat) : (s.settle r n).units = s.units := by
  simp [State.settle]

@[simp] theorem State.deliverCpl_units (s : State) (r : Nat) (c : Cpl) : (s.deliverCpl r c).units = s.units := by
  unfold State.deliverCpl; dsimp only; split
  · simp
  · split <;> simp

@[simp] theorem State.quiesceIfIdle_units (s : State) : s.quiesceIfIdle.units = s.units := by
  unfold State.quiesceIfIdle; split <;> simp

/-- A completion touches no unit of the device (R390, R391). -/
@[simp] theorem State.complete_units (s : State) (ref : CmdRef) (status result : Nat) (flag : Bool) :
    (s.complete ref status result flag).units = s.units := by
  simp [State.complete]

@[simp] theorem State.completeOpt_units (s : State) (ref : Option CmdRef) (status result : Nat) (flag : Bool) :
    (s.completeOpt ref status result flag).units = s.units := by
  unfold State.completeOpt; split <;> simp

@[simp] theorem State.accept_units (s : State) (ref : CmdRef) (op : Nat) : (s.accept ref op).units = s.units := by
  unfold State.accept; dsimp only; split <;> simp

@[simp] theorem State.pastPoint_units (s : State) (ref : CmdRef) : (s.pastPoint ref).units = s.units := (rfl)

/-- Each unit, from the equation of the units. -/
theorem State.units_pending {s t : State} (h : t.units = s.units) : t.pending = s.pending := by
  have h := congrArg (fun x : State => x.pending) h; exact h
theorem State.units_tb {s t : State} (h : t.units = s.units) : t.tb = s.tb := by
  have h := congrArg (fun x : State => x.tb) h; exact h
theorem State.units_free {s t : State} (h : t.units = s.units) : t.free = s.free := by
  have h := congrArg (fun x : State => x.free) h; exact h
theorem State.units_mem {s t : State} (h : t.units = s.units) : t.mem = s.mem := by
  have h := congrArg (fun x : State => x.mem) h; exact h
theorem State.units_clk {s t : State} (h : t.units = s.units) : t.clk = s.clk := by
  have h := congrArg (fun x : State => x.clk) h; exact h
theorem State.units_fab {s t : State} (h : t.units = s.units) : t.fab = s.fab := by
  have h := congrArg (fun x : State => x.fab) h; exact h
theorem State.units_pin {s t : State} (h : t.units = s.units) : t.pin = s.pin := by
  have h := congrArg (fun x : State => x.pin) h; exact h
theorem State.units_cores {s t : State} (h : t.units = s.units) : t.cores = s.cores := by
  have h := congrArg (fun x : State => x.cores) h; exact h
theorem State.units_dsp {s t : State} (h : t.units = s.units) : t.dsp = s.dsp := by
  have h := congrArg (fun x : State => x.dsp) h; exact h
theorem State.units_lnk {s t : State} (h : t.units = s.units) : t.lnk = s.lnk := by
  have h := congrArg (fun x : State => x.lnk) h; exact h
theorem State.units_pair {s t : State} (h : t.units = s.units) : t.pair = s.pair := by
  have h := congrArg (fun x : State => x.pair) h; exact h
theorem State.units_trc {s t : State} (h : t.units = s.units) : t.trc = s.trc := by
  have h := congrArg (fun x : State => x.trc) h; exact h
theorem State.units_trcNext {s t : State} (h : t.units = s.units) : t.trcNext = s.trcNext := by
  have h := congrArg (fun x : State => x.trcNext) h; exact h
theorem State.units_trcCores {s t : State} (h : t.units = s.units) : t.trcCores = s.trcCores := by
  have h := congrArg (fun x : State => x.trcCores) h; exact h
theorem State.units_trcPort {s t : State} (h : t.units = s.units) : t.trcPort = s.trcPort := by
  have h := congrArg (fun x : State => x.trcPort) h; exact h
theorem State.units_trcFrames {s t : State} (h : t.units = s.units) : t.trcFrames = s.trcFrames := by
  have h := congrArg (fun x : State => x.trcFrames) h; exact h
theorem State.units_ela {s t : State} (h : t.units = s.units) : t.ela = s.ela := by
  have h := congrArg (fun x : State => x.ela) h; exact h
theorem State.units_cap {s t : State} (h : t.units = s.units) : t.cap = s.cap := by
  have h := congrArg (fun x : State => x.cap) h; exact h
theorem State.units_rad {s t : State} (h : t.units = s.units) : t.rad = s.rad := by
  have h := congrArg (fun x : State => x.rad) h; exact h
theorem State.units_dec {s t : State} (h : t.units = s.units) : t.dec = s.dec := by
  have h := congrArg (fun x : State => x.dec) h; exact h
theorem State.units_sec {s t : State} (h : t.units = s.units) : t.sec = s.sec := by
  have h := congrArg (fun x : State => x.sec) h; exact h

/-- What the command processor does with a command that it takes (R392, R458). -/
theorem State.command_run (s : State) (ref : CmdRef) (op : Nat) (f : State → State) (h : s.takes ref op) :
    s.command ref op f = f (s.accept ref op) := by
  obtain ⟨ha, he, hg, hw, hr⟩ := h
  unfold State.command
  rcases hr with hr | hr <;> simp [ha, he, hg, hw, hr]

/-- A command that is not taken changes nothing (R392). -/
theorem State.command_wait (s : State) (ref : CmdRef) (op : Nat) (f : State → State)
    (h : s.alive = false ∨ s.rdb F.HST_RING_CFG.EN ref.ring.toNat = false ∨ (s.isGone ref = false ∧ s.waits ref = true)) :
    s.command ref op f = s := by
  unfold State.command
  rcases h with h | h | ⟨g, h⟩ <;> simp [*]

/-- A command that has completed already is passed over (R43). -/
theorem State.command_gone (s : State) (ref : CmdRef) (op : Nat) (f : State → State) (ha : s.alive = true)
    (he : s.rdb F.HST_RING_CFG.EN ref.ring.toNat = true) (hg : s.isGone ref = true) :
    s.command ref op f = s.passOver ref := by
  simp [State.command, ha, he, hg]

theorem State.live_run (s : State) (f : State → State) (h : s.alive = true) : s.live f = f s := if_pos h

theorem State.live_stopped (s : State) (f : State → State) (h : s.alive = false) : s.live f = s := by
  simp [State.live, h]

theorem State.onlyIf_true (s : State) (f : State → State) : s.onlyIf true f = f s := (rfl)
theorem State.onlyIf_false (s : State) (f : State → State) : s.onlyIf false f = s := (rfl)

end Sys2Proof.Machine
end

