-- ==== Sys2Proof/Laws/Memory.lean ====
section
/-! SUPPORT. Laws of the memories: every operation that stores into a memory keeps its canonical form, and what reads find
after it. -/

namespace Sys2Proof.Machine

/-- Filtering by key is keeping keys. -/
theorem Sparse.filter_wf {α : Type} [DecidableEq α] (d : Nat → α) (p : Nat → Bool) (m : List (Nat × α))
    (h : Sparse.wf d m = true) : Sparse.wf d (m.filter fun e => p e.1) = true := Sparse.wf_keep d p m h

/-- Host memory keeps its form. -/
theorem State.hostWrite_wf (s : State) (p a : Nat) (l : List Byte) (h : Sparse.wf (fun _ => (0 : Byte)) s.hostMem = true) :
    Sparse.wf (fun _ => (0 : Byte)) (s.hostWrite p a l).hostMem = true := by
  induction l generalizing s a with
  | nil => exact h
  | cons b bs ih => unfold State.hostWrite; exact ih _ _ (Sparse.wf_set _ _ _ _ h)

/-- Device memory keeps its form. -/
theorem State.hbmPut_wf (s : State) (a : Nat) (l : List Byte) (h : Sparse.wf (fun _ => (0 : Byte)) s.mem.hbm = true) :
    Sparse.wf (fun _ => (0 : Byte)) (s.hbmPut a l).mem.hbm = true := by
  induction l generalizing s a with
  | nil => exact h
  | cons b bs ih => unfold State.hbmPut; exact ih _ _ (Sparse.wf_set _ _ _ _ h)

/-- Storing device memory bytes changes nothing else. -/
theorem State.hbmPut_regs (s : State) (a : Nat) (l : List Byte) : (s.hbmPut a l).regs = s.regs := by
  induction l generalizing s a with
  | nil => rfl
  | cons b bs ih => unfold State.hbmPut; rw [ih]; rfl

/-- A byte below the ones stored is unchanged. -/
theorem State.hbmPut_below (s : State) (a : Nat) (l : List Byte) (x : Nat) (h : x < a) :
    Sparse.get (fun _ => (0 : Byte)) (s.hbmPut a l).mem.hbm x = Sparse.get (fun _ => 0) s.mem.hbm x := by
  induction l generalizing s a with
  | nil => rfl
  | cons b bs ih =>
    unfold State.hbmPut
    rw [ih _ _ (by omega)]
    exact Sparse.get_set_other _ _ _ (by omega)

/-- Each byte that was stored is read back, and every byte outside them is as it was. -/
theorem State.hbmPut_get (s : State) (a : Nat) (l : List Byte) (x : Nat) :
    Sparse.get (fun _ => (0 : Byte)) (s.hbmPut a l).mem.hbm x =
      if a ≤ x ∧ x < a + l.length then l.getD (x - a) 0 else Sparse.get (fun _ => 0) s.mem.hbm x := by
  induction l generalizing s a with
  | nil => rw [if_neg (by rw [List.length_nil]; omega)]; rfl
  | cons b bs ih =>
    unfold State.hbmPut
    by_cases hx : x = a
    · subst hx
      rw [State.hbmPut_below _ _ _ _ (by omega), if_pos ⟨Nat.le_refl x, by rw [List.length_cons]; omega⟩, Nat.sub_self]
      exact Sparse.get_set_same _ _ _ _
    · rw [ih]
      have hd : Sparse.get (fun _ => (0 : Byte)) (s.setMem { s.mem with hbm := Sparse.set (fun _ => 0) s.mem.hbm a b }).mem.hbm x =
          Sparse.get (fun _ => 0) s.mem.hbm x := Sparse.get_set_other _ _ _ hx
      rw [hd]
      by_cases h1 : a + 1 ≤ x ∧ x < a + 1 + bs.length
      · rw [if_pos h1, if_pos (by rw [List.length_cons]; omega), show x - a = (x - (a + 1)) + 1 by omega, List.getD_cons_succ]
      · rw [if_neg h1, if_neg (by rw [List.length_cons]; omega)]

/-- The words of the banks keep their form. -/
theorem State.bankSet_wf (s : State) (key : Nat) (w : BankWord) (h : Sparse.wf (fun _ => clearedWord) s.mem.bank = true) :
    Sparse.wf (fun _ => clearedWord) (s.bankSet key w).mem.bank = true := Sparse.wf_set _ _ _ _ h

/-- A word reads back what was stored in it, and every other word is unchanged. -/
theorem State.bankGet_bankSet (s : State) (key : Nat) (w : BankWord) (k : Nat) :
    (s.bankSet key w).bankGet k = if k = key then w else s.bankGet k := Sparse.get_set _ _ _ _ _

/-- Clearing a bank keeps the form. -/
theorem State.bankClear_wf (s : State) (b : Nat) (h : Sparse.wf (fun _ => clearedWord) s.mem.bank = true) :
    Sparse.wf (fun _ => clearedWord) (s.bankClear b).mem.bank = true :=
  Sparse.filter_wf (fun _ => clearedWord) (fun k => !(decide (b * 262144 ≤ k) && decide (k < (b + 1) * 262144)) &&
    !(decide (spareKey b 0 ≤ k) && decide (k < spareKey (b + 1) 0))) _ h

/-- The flash keeps its form. -/
theorem State.flashByte_wf (s : State) (o : Nat) (b : Byte) (h : Sparse.wf (fun _ => (0xFF : Byte)) s.sec.flash = true) :
    Sparse.wf (fun _ => (0xFF : Byte)) (s.flashByte o b).sec.flash = true := Sparse.wf_set _ _ _ _ h

theorem State.flashErase_wf (s : State) (o n : Nat) (h : Sparse.wf (fun _ => (0xFF : Byte)) s.sec.flash = true) :
    Sparse.wf (fun _ => (0xFF : Byte)) (s.flashErase o n).sec.flash = true := by
  unfold State.flashErase
  exact Sparse.wf_keep _ (fun k => decide (k / 2 ^ 16 < o / 2 ^ 16) || decide ((o + n - 1) / 2 ^ 16 < k / 2 ^ 16)) _ h

/-- The state after reset is canonical. -/
theorem State.reset_canonical : State.reset.canonical := by
  unfold State.canonical; decide

end Sys2Proof.Machine
end

