-- ==== Sys2Proof/Tests/Slice0.lean ====
section
/-! SUPPORT. The author's own tests: for every statement with hypotheses, states and operands that meet them, clause by clause;
what the well-formedness check refuses; the state after reset; worked examples of the spec. -/

set_option maxRecDepth 10000
set_option Elab.async false
set_option linter.unusedVariables false

namespace Sys2Proof.Tests

open Sys2Proof Sys2Proof.Machine

/-! ### Small states -/

/-- A command of ring 0. -/
def ref0 : CmdRef := ⟨0, 0, 7, false, true⟩
/-- A device that is READY and booted, both ports up, ring 0 enabled for port P0, which owns semaphore 0. -/
def rdy : State :=
  (((((State.reset.wr F.GLB_STATUS.READY 1).wr F.GLB_STATUS.BOOT_OK 1).wr F.HST_STATUS.PORT_UP 3).wr F.HST_RING_CFG.EN 1).wr
    F.HST_SEM.FREE 0).wr F.HST_SEM_OWNER.OWNER 1
/-- The device of `rdy` in power-on reset. -/
def held : State := rdy.setClk { rdy.clk with por := true }
/-- One entry staged: the period of timebase pulse 0. -/
def staged : State := rdy.setStage [(0x10204, 32)]
/-- A COMMIT of ring 0 that is armed with one staged entry: mode, instant, and what its condition has decided. -/
def armed0 (mode t : Nat) (c : Option Nat) : Armed := ⟨ref0, mode, 0, t, c.isSome, c, false, [(0x10204, 32)]⟩
/-- The device of `rdy` with that COMMIT armed. -/
def arming (mode t : Nat) (c : Option Nat) : State := rdy.setHost { rdy.host with armed := some (armed0 mode t c) }
/-- A second command of ring 0, fetched and not accepted, or accepted. -/
def fetched1 (op : Nat) (acc past : Bool) : State :=
  (rdy.setHost { rdy.host with cmds := [⟨⟨0, 1, 8, false, true⟩, op, acc, past, []⟩] }).setRing 0 { last := [(1, op)] }
/-- Both ports take every event, in rings of 16 entries. -/
def evts : State := (((rdy.wr F.GLB_EVT_CFG.ENABLE 1).wr F.GLB_EVT_CFG.SUBSYS 0xFFFF).wr F.HST_EVT_CFG.SIZE 4).wr F.HST_EVT_PTR.TAIL 15
/-- An event record. -/
def rec1 : EventRec := ⟨5, 0x0103, 2, false, 0x01000000, 9⟩
/-- Port P0 is down. -/
def lost0 : State := rdy.wr F.HST_STATUS.PORT_UP 2
/-- Partition 0 is 64 MiB from address 0, owned by host DMA. -/
def hbm0 : State := ((rdy.wr F.MEM_PART_CFG.EN 1).wr F.MEM_PART_CFG.SIZE 1).wr F.MEM_PART_OWN.MASK (2 ^ 22)
/-- Bank 0 is owned by host DMA. -/
def bank0 : State := rdy.wr F.MEM_BANK_STAT.OWNER 0x5000
/-- An unsignalled completion of ring 0, coalesced for 4 µs. -/
def coal0 : State := ((rdy.wr F.HST_RING_CFG.COAL_US 4).wr F.HST_RING_CFG.VECTOR 3).setRing 0 { unsignalled := 1, firstUnsig := some 0 }
/-- A state at an instant of the timebase. -/
def at' (s : State) (t : Nat) : State := { s with tb := BitVec.ofNat 64 t }
/-- A NOP stands at the head of submission queue 0. -/
def nop0 : State := (rdy.hostWrite 0 0 [0x01, 0x02, 2, 0, 7, 0, 0, 0]).setRing 0 { sqTail := 1 }
/-- Port P0 was lost at TB 0. -/
def lostP0 : State := lost0.setHost { lost0.host with lostAt := [(0, 0)] }
/-- Fields of the register file set: field, value, index. -/
def fs (s : State) (l : List (Field × Nat × Nat)) : State := l.foldl (fun s e => s.wr e.1 e.2.1 e.2.2) s
/-- Region 0 in a state, with a trigger mode. -/
def rg (st mode : Nat) (x : RgnSt) : State :=
  (fs rdy [(F.FAB_RGN_STATUS.STATE, st, 0), (F.FAB_RGN_TRIG.MODE, mode, 0), (F.FAB_RGN_PERIOD.PERIOD, 20, 0)]).setRgn 0 x
/-- An access of a TLQ entry. -/
def acc1 : AccessRec := ⟨0, 3, 2, 3, 1, false⟩
/-- An item that a plane has in flight. -/
def item1 : Item := ⟨0, acc1, 0, 0, true, false, 0, false⟩
/-- A load in a phase. -/
def ld (ph : Nat) (ver : Bool) (img : List Byte) : LoadSt := ⟨ref0, false, ver, 0, 0, 0, 0, img.length, ph, false, true, img⟩
/-- A load is in a phase, on a device that owns HBM partition 0. -/
def loading (ph : Nat) (ver : Bool) (img : List Byte) : State := hbm0.setFab { hbm0.fab with load := some (ld ph ver img) }
/-- A TLQ entry. -/
def tlq1 (t : Nat) : TlqEntry := ⟨t, 1, 1, 1, true⟩
/-- A bundle with an operation field and no moves. -/
def bd (opf : Nat) : Bundle := ⟨BitVec.ofNat 22 opf, 0, 0⟩
/-- A core register's value and poison. -/
def rv (v : Nat) (p : Bool := false) : CReg := ⟨BitVec.ofNat 48 v, p⟩
/-- Core 0 runs at address 0, where PRAM holds a bundle. -/
def core0 (opc : Nat) (b : Bundle) (r : List (Nat × CReg)) : State :=
  let s := fs rdy [(F.SC_STATUS.STATE, 1, 0), (F.SC_STATUS.VALID, 0xFF, 0)]
  s.setCore 0 (r.foldl (fun c e => c.setReg e.1 e.2) { pram := [(0, BitVec.ofNat 64 (bundleWord opc b))] })
/-- Partition 0 is the pager's; code object 1 is one page at far address 512, and core 0 waits in GET at a bundle. -/
def dsp0 (st : Nat) (tasks : List Task) : State :=
  let s := fs (core0 0x78 (bd 0) [(51, rv 0)]) [(F.MEM_PART_CFG.EN, 1, 0), (F.MEM_PART_CFG.SIZE, 1, 0), (F.MEM_PART_OWN.MASK, 2 ^ 23, 0),
    (F.DSP_DTAB.BASE, 0x1000, 0), (F.SC_STATUS.STATE, st, 0), (F.SC_STATUS.VALID, 0, 0)]
  (s.hbmPut 16 [0, 2, 0, 0, 0x88, 0, 0, 0]).setDsp { tasks := tasks }
/-- A task of command ring 0 for code object 1. -/
def task1 : Task := taskOf (.host ref0) [1]
/-- A task descriptor for code object 1. -/
def desc1 : List Byte := [1] ++ List.replicate 63 0
/-- Core 0 holds page 0 of code object 1. -/
def heldPage (s : State) : State :=
  (s.setCore 0 { s.core 0 with pageObj := [(0, 1)] }).wr F.SC_STATUS.VALID 1
/-- A transfer of core 0 between its memory and an address. -/
def xfer1 (toFar : Bool) (far len : Nat) : Xfer := ⟨toFar, false, 0, far, len, true, true, 0⟩
/-- Core 0 has one transfer queued. -/
def xq1 (s : State) (x : Xfer) : State := s.setCore 0 { s.core 0 with xq := [x] }
/-- Core 0 is at ALLOC, with pool 0 of four buffers enabled. -/
def pool0 : State := fs (core0 0x7A (bd 0x40000) []) [(F.MEM_POOL_CFG.EN, 1, 0), (F.MEM_POOL_CFG.COUNT, 4, 0), (F.MEM_POOL_BASE.BASE, 0, 0)]
/-- The whole array in a state. -/
def arr (st : Nat) : State := rdy.wr F.CFG_STATUS.ARRAY st
/-- The array state changed. -/
def elaOf (s : State) (f : ElaSt → ElaSt) : State := s.setEla (f s.ela)
/-- A load of a stream of region 0 past its header, with two frame records and one map record of one word. -/
def cl (src : Nat) (raw : List Byte) : CfgLoad := { ref := some ref0, src := src, raw := raw, length := raw.length }
/-- A header for partial region 0, which holds no block but block 0: payload bytes, frame and map records, flags. -/
def hdr (pay fr mr fl : Nat) : List Byte :=
  leBytes 4 0x4E525053 ++ [1, 0, 0, 0] ++ leBytes 4 (State.reset.rdReg 0) ++ [0, 0xFF, BitVec.ofNat 8 fl, 0] ++ List.replicate 16 0 ++
    leBytes 4 pay ++ leBytes 4 fr ++ leBytes 4 mr ++ List.replicate 84 0
/-- The array runs and block 0 belongs to partial region 0. -/
def rg0 : State := (arr 3).wr F.CFG_RGN_BLK.BLOCKS 1 0
/-- A stream load is in progress. -/
def loadingEla (l : CfgLoad) : State := elaOf rg0 fun e => { e with load := some l }
/-- The task in a phase, on core 0. -/
def taskS (ph : TaskPhase) : Task := { task1 with phase := ph, core := 0 }
/-- Domain 0 is enabled from TB 0 with a period of 100 ticks, and timer 0 fires in it at every boundary. -/
def radio0 : State := fs (dsp0 2 []) [(F.RAD_DOM_CFG.EN, 1, 0), (F.RAD_DOM_CFG.KIND, 2, 0), (F.RAD_DOM_PERIOD.PERIOD, 100, 0),
  (F.RAD_DOM_CFG.SPF, 7, 0), (F.RAD_TMR_CFG.EN, 1, 0), (F.RAD_TMR_CFG.EVERY, 1, 0),
  (F.RAD_SLOT_CFG.EN, 1, 0), (F.RAD_SLOT_CFG.TX_EN, 1, 0), (F.RAD_SLOT_RATE.FL, 1000000, 0), (F.RAD_SLOT_RSMP.RATIO, 2 ^ 24, 0),
  (F.RAD_TX_CFG.EN, 1, 0), (F.RAD_TX_PROF_D.MAXLEN, 10, 0)]
/-- A transmit job of n bytes with flags and a start instant. -/
def txJob (n fl start : Nat) : Job := ⟨some ref0, leBytes 8 start ++ leBytes 4 0 ++ leBytes 2 n ++ leBytes 1 fl ++ List.replicate 49 0, false⟩
/-- Transmit queue 0 has one job. -/
def txS (n fl start t : Nat) : State := at' (radio0.setTxQueue 0 [txJob n fl start]) t
/-- A transform job. -/
def xfJob (desc : List Byte) : Job := ⟨some ref0, padTo 64 desc, false⟩
/-- Transform queue 3 has one job. -/
def xfS (desc : List Byte) : State := (dsp0 2 []).setXformQueue 3 [xfJob desc]
/-- Core 0 writes 64 bytes to a window. -/
def win (far : Nat) : State := xq1 (dsp0 1 []) (xfer1 true far 64)
/-- A CRC job without a record, and its descriptor with a deadline. -/
def crcD : List Byte := padTo 64 [4]
/-- A decoding job with a deadline. -/
def dlD (t : Nat) : List Byte := padTo 64 ([12] ++ List.replicate 31 0 ++ leBytes 8 t)
/-- A decoding job, with the engine that has it and its result. -/
def dj (d : List Byte) (e : Option Nat) (done : Option (List Byte)) : DecJob := ⟨⟨some ref0, d, false⟩, 0, e, done⟩
/-- A decoder queue holds these jobs. -/
def decS (s : State) (q : Nat) (l : List DecJob) : State := s.setDec { s.dec with q := [(q, l)] }
/-- A user table of two edges. -/
def utab : List Byte := [1, 2, 0, 0, 2] ++ List.replicate 15 0 ++ [64, 0, 0, 0]
/-- Channel 0 takes the samples of pin bank 0; its only stage waits for a HOST event. -/
def cap0 : State := fs rdy [(F.MEM_PART_CFG.EN, 1, 0), (F.MEM_PART_CFG.SIZE, 1, 0), (F.MEM_PART_OWN.MASK, 2 ^ 21, 0), (F.CAP_CH_SRC.KIND, 1, 0),
  (F.CAP_CH_SEL_LO.SEL, 1, 0), (F.CAP_CH_SEGLEN.SEGLEN, 1, 0), (F.CAP_CH_POST.POST, 2, 0), (F.CAP_STG_CFG.KIND, 9, 0), (F.CAP_STG_N.N, 1, 0), (F.CAP_STG_CFG.FINAL, 1, 0)]
/-- Capture channel 0 in a state. -/
def capS (st : Nat) (x : CapCh) : State := ((cap0.wr F.CAP_CH_STAT.STATE st 0).setCapCh 0 x)
/-- Link 0 in a state. -/
def lk (st : Nat) (l : LinkSt) : State := (rdy.wr F.LNK_STAT.STATE st 0).setLink 0 l
/-- A flit that was sent. -/
def flit0 : Flit := ⟨2, 5, false, 1, List.replicate 60 7⟩
/-- Link 15 is the mirror link, UP. -/
def pair0 (role hb : Nat) : State := fs rdy [(F.PAIR_CFG.EN, 1, 0), (F.PAIR_STAT.ROLE, role, 0), (F.PAIR_STAT.PARTNER_HB, hb, 0),
  (F.LNK_STAT.STATE, 3, 15), (F.LNK_CFG.ROLE, 3, 15)]
/-- Trace is enabled to a sink. -/
def trcOn (sink : Nat) : State := fs rdy [(F.TRC_CTRL.EN, 1, 0), (F.TRC_CTRL.SINK, sink, 0)]
/-- A TAP instruction is current. -/
def jt (n : Nat) : State := rdy.setSec { rdy.sec with jtag := n }
/-- The other queues of a decoder that has jobs in queue 0 are empty. -/
theorem decS_other (l : List DecJob) (p : Nat) (hp : ¬ p = 0) : (decS rdy 0 l).decQueue p = [] := by
  have h : 0 ≠ p := fun h => hp h.symm
  show Sparse.get (fun _ => []) [(0, l)] p = []
  simp [Sparse.get, Sparse.find, h]
/-- The smallest grist image: no region, and one empty section that the loader ignores. -/
def miniImg (d : List Byte) : List Byte :=
  leBytes 4 0x54535247 ++ [1, 0, 0, 0, 1, 4, 4, 0, 1, 0] ++ leBytes 2 1 ++ leBytes 8 640 ++ List.replicate 0x1A8 0 ++ d ++
    List.replicate 16 0 ++ [1, 0x80, 0, 0, 0, 0, 0, 0] ++ leBytes 8 640 ++ List.replicate 16 0 ++ hash [] ++ List.replicate 48 0
/-- That image with its digest. -/
def grist0 : List Byte := miniImg (headerDigest (miniImg (List.replicate 48 0)))
/-- A key that signs `tokBody` with r = s = the digest. -/
def tokKey : List Byte :=
  0x04 :: beBytes 48 0x2abee5e0fafd6155689414322a519bb6833b6e4cfc1331173f055c13af6be8f77e041f90f14e90f73795839cc74ce9d4 ++
    beBytes 48 0x568d86a85e7ad57c9bd02b5f8d46d822878d0d4ef8ebc7efa390c270557eccacafeaedba281c4b8ddd450857e62ec298
/-- The body of a trace token of core 2 without limit. -/
def tokBody : List Byte :=
  leBytes 4 0x4B4F5454 ++ [1, 0, 0, 0] ++ List.replicate 24 0 ++ leBytes 8 4 ++ [3, 0, 0, 0] ++ List.replicate 20 0
/-- That token, with a signature whose r and s are the digest. -/
def token0 : List Byte :=
  let e := beNat (hash tokBody)
  tokBody ++ leBytes 4 0x47495354 ++ [1] ++ List.replicate 11 0 ++ tokKey ++ List.replicate 15 0 ++ leBytes 48 e ++ leBytes 48 e ++
    List.replicate 32 0
/-- The token lies in host memory at 64, and its key's hash is CKH0. -/
def tok0 : State := (rdy.setSec { rdy.sec with ckh := [(0, hash tokKey)] }).hostWrite 0 64 token0

/-- The state that an outcome answers. -/
def after (o : Host.Outcome State Fault Refusal) : State := match o with | .next s => s | _ => State.reset

/-! ### Commands that are not well formed are refused by the check -/

theorem test_wf_refuses_domains : [Instr.pllSettled 0, .pllSettled 26].all (fun c => !c.wf) = true ∧ (Instr.pllSettled 25).wf = true := by
  decide +kernel
theorem test_wf_refuses_blocks :
    [Instr.gateApplied 0x14, .gateTimeout 0x70, .bankDrainEnd 80].all (fun c => !c.wf) = true ∧ (Instr.gateApplied 0x6F).wf = true := by
  decide +kernel
theorem test_wf_refuses_lengths :
    [Instr.stageWrite ref0 1 [(0, 0)], .dspSubmit ref0 [1], .radXform ref0 0 [], .radTx ref0 0 [], .decJob ref0 0 [] false,
      .dspCodeDefine ref0 1 [0], .linkFlitReceive 0 [0]].all (fun c => !c.wf) = true ∧ (Instr.dspSubmit ref0 desc1).wf = true := by
  decide +kernel
theorem test_wf_refuses_accesses :
    [Instr.memoryAccess 0 true false false 0 2 [1] {} none, .memoryAccess 0 false false false 0 0 [] {} none,
      .memoryAccess 0 false false false 0 1 [] {} (some ⟨0, true, false, false, 0, 2, [1]⟩), .bar4Access .p0 true 0 2 [1],
      .registerWrite .p0 0 3 0 0, .readClearRegister .p0 0 0, .bypass 4, .bypass 0x10].all (fun c => !c.wf) = true ∧
    (Instr.memoryAccess 0 true false false 0 1 [1] {} none).wf = true := by
  decide +kernel
theorem test_wf_refuses_repeats :
    (Instr.spargeFrameSlot [(1, 0), (1, 0)] [] 0).wf = false ∧ (Instr.kilnComplete [(3, [], 0), (3, [], 0)]).wf = false := by
  decide +kernel
/-! ### Reset -/

/-- No row of the opcode table has bits: no word spells a command. -/
theorem test_no_word_spells_a_command (nbits w : Nat) : decodeTableWord nbits w = none := rfl
/-- Tables ORG-6, HST-8, CLK-6, PAIR-6: some reset values. -/
theorem test_reset_values :
    State.reset.rdReg 0 = 0x1648058B ∧ State.reset.rdReg 0x4C004C = 0xFFFFFFFF ∧ State.reset.pending = [] ∧ State.reset.tb = 0 := by
  decide +kernel
theorem test_reset_canonical : State.reset.canonical := by unfold State.canonical; decide +kernel
theorem test_reset_closed : State.reset.closed := by unfold State.closed State.ringsOff; decide +kernel

/-! ### Worked examples of the spec -/

/-- The counter of 00_scope.md's example: its lower word is 0xFFFFFFF0 and its upper word `hi`. -/
def counter (hi : Nat) : State := (rdy.wrReg 0x41200 0xFFFFFFF0).wrReg 0x41204 hi
/-- The lower word is read by P0, and then the counter wraps. -/
def snapshot : State := (after (exec (.read64bitLowerWord .p0 0x41200) (counter 2))).wrReg 0x41204 3
/-- 00_scope.md: the upper word that P0 reads is the one of the first read, and P1 reads the live one. -/
theorem test_wide_counter :
    snapshot.host.rdata = 0xFFFFFFF0 ∧ (after (exec (.readClearRegister .p0 0x41204 4) snapshot)).host.rdata = 2 ∧
      (after (exec (.readClearRegister .p1 0x41204 4) snapshot)).host.rdata = 3 := by
  decide +kernel
/-- 08_signal_cores.md: the core of the correlation step, with FRAC and SAT set and a rounding mode. -/
def correlator (opc opf rnd acc0 acc1 : Nat) : State :=
  core0 opc (bd opf) [(4, rv 0xC0004000), (5, rv 0x60002000), (40, rv acc0), (41, rv acc1), (51, rv (0x300 + rnd * 0x400))]
/-- 08_signal_cores.md: CMAC D4, D5 takes ACC0 past the Q31 range and leaves AV 0. -/
theorem test_cmac_example :
    let t := (after (exec (.opCmac 0 (bd (4 * 2 ^ 17 + 5 * 2 ^ 12))) (correlator 0x41 (4 * 2 ^ 17 + 5 * 2 ^ 12) 1 0x0040009000 0x8000))).core 0
    t.val 40 = 0x80009000 ∧ t.val 41 = 0x20008000 ∧ bit (t.val rSR) 5 = false := by
  decide +kernel
/-- 08_signal_cores.md: the packed extraction to D6 rounds half up in mode 1 and half to even in mode 2, and saturates. -/
theorem test_extract_example :
    ((after (exec (.opExt16 0 (bd 0x18C000)) (correlator 0x50 0x18C000 2 0x80009000 0x20008000))).core 0).val 6 = 0x20007FFF ∧
    ((after (exec (.opExt16 0 (bd 0x18C000)) (correlator 0x50 0x18C000 1 0x80009000 0x20008000))).core 0).val 6 = 0x20017FFF := by
  decide +kernel
/-- 09_signal_core_isa.md, Table ISA-15: the inner bundle of the correlator, and the extraction after it. -/
theorem test_bundle_example : bundleWord 0x41 ⟨16 * 2 ^ 17 + 17 * 2 ^ 12, 0x7F08, 0x7F28⟩ = 0x41844000FE107F28 ∧
    bundleWord 0x50 ⟨6 * 2 ^ 18 + 3 * 2 ^ 14, 0, 0⟩ = 0x5063000000000000 := by decide +kernel
/-- 16_host_control.md, Table HST-7: the staged entries of the variant switch. -/
def variantSwitch : List Entry :=
  [(0x300800, 0x262), (0x300810, 0x262), (0x300820, 0x262), (0x300830, 0x262), (0x302040, 1), (0x1000CC, 0x1282)]
/-- The first CHECK fails with code 0x05 at index 4; it passes once VIO4 is good. -/
theorem test_check_example :
    rdy.check variantSwitch = some (4, 5) ∧
      (rdy.wr F.PIN_BANK_STAT.VIO_GOOD 1 4).check variantSwitch = none := by
  decide +kernel
/-- 04_grist_loader_contract.md, R114 names SHA-384: the digest of 'abc' that FIPS 180-4's example gives begins so. -/
theorem test_sha384_abc : (sha384 [97, 98, 99]).take 8 = [0xcb, 0x00, 0x75, 0x3f, 0x45, 0xa3, 0x5e, 0x8b] := by
  decide +kernel
/-- 07_ela_configuration.md, R185 names AES-256: the first block of the example of FIPS 197, appendix C.3. -/
theorem test_aes256_example :
    aes256 ((List.range 32).map (BitVec.ofNat 8)) ((List.range 16).map fun n => BitVec.ofNat 8 (17 * n)) =
      [0x8e, 0xa2, 0xb7, 0xca, 0x51, 0x67, 0x45, 0xbf, 0xea, 0xfc, 0x49, 0x90, 0x4b, 0x49, 0x60, 0x89] := by
  decide +kernel

/-! ### The hypotheses of the statements are met -/

/-- The hypotheses of StepRunsFront (O1) are met. -/
theorem test_met_StepRunsFront :
    (∃ (s : State) (c : Instr) (rest : List Instr), s.pending = c :: rest) :=
  ⟨rdy.withPending [.hostNop ref0], .hostNop ref0, [],
    by decide +kernel⟩

/-- The hypotheses of IdleAndStoppedStepsDoNothingElse (O3), part `idleStepCountsOneTick`, are met. -/
theorem test_met_idleStepCountsOneTick :
    (∃ (s : State), s.pending = [] ∧ s.alive = true) ∧
    (∃ (s : State), s.pending = [] ∧ s.alive = false) :=
  ⟨⟨rdy,
     by decide +kernel⟩,
   ⟨held,
     by decide +kernel⟩⟩

/-- The hypotheses of IdleAndStoppedStepsDoNothingElse (O3), part `stoppedDeviceDoesNothing`, are met. -/
theorem test_met_stoppedDeviceDoesNothing :
    (∃ (c : Instr) (s : State), s.alive = false ∧ reachesStopped c = false) :=
  ⟨.hostNop ref0, held,
    by decide +kernel⟩

/-- The hypotheses of ClosedDeviceKeepsItsState (O4) are met. -/
theorem test_met_ClosedDeviceKeepsItsState :
    (∃ (σ s t : State), closedInvariant σ s ∧ step s = .next t) :=
  ⟨State.reset, State.reset.withPending [.hostNop ref0], State.reset,
    by refine ⟨by unfold closedInvariant State.closed State.ringsOff; decide +kernel, rfl⟩⟩

/-- The hypotheses of ClosedAtReset (O5) are met. -/
theorem test_met_ClosedAtReset :
    (∃ (l : List Instr), (∀ c ∈ l, hostSide c = true)) :=
  ⟨[.hostNop ref0],
    by decide +kernel⟩

/-- The hypotheses of StagedSetsAreBuiltAndChecked (O6), part `stagingCommandsComplete`, are met. -/
theorem test_met_stagingCommandsComplete :
    (∃ (s : State) (ref : CmdRef), s.takes ref 0x0201) ∧
    (∃ (s : State) (ref : CmdRef), s.takes ref 0x0203 ∧ (s.accept ref 0x0203).ownsStage ref = true ∧ s.host.armed = none) ∧
    (∃ (s : State) (ref : CmdRef) (n : BitVec 8) (es : List (BitVec 32 × BitVec 32)), s.takes ref 0x0202 ∧ (s.accept ref
      0x0202).ownsStage ref = true ∧ s.host.armed = none ∧ 1 ≤ n.toNat ∧ n.toNat ≤ 6 ∧ es.length = 6 ∧ (∀ e ∈ es.drop n.toNat,
      e = (0, 0)) ∧ (∀ e ∈ es.take n.toNat, e.1.toNat % 4 = 0 ∧ e.1.toNat < 2 ^ 24) ∧
      (let l := ((es.take n.toNat).map fun e => (e.1.toNat, e.2)).foldl stageAdd s.host.stage; l.length ≤ 4096)) :=
  ⟨⟨rdy, ref0,
     by unfold State.takes; decide +kernel⟩,
   ⟨rdy, ref0,
     by unfold State.takes; decide +kernel⟩,
   ⟨rdy, ref0, 6, [(0x10204, 3), (0x10204, 4), (0, 0), (0xFFFFFC, 5), (0, 0), (0, 0)],
     by unfold State.takes; refine ⟨?_, ?_, ?_, ?_, ?_, ?_, by simp, by simp, ?_⟩ <;> decide +kernel⟩⟩

/-- The hypotheses of StagedSetsAreBuiltAndChecked (O6), part `stagingReplacesOrAppends`, are met. -/
theorem test_met_stagingReplacesOrAppends :
    (∃ (l : List (Nat × BitVec 32)) (off : Nat) (v : BitVec 32), ∃ o, (l.map (·.1)).Nodup ∧ o ≠ off) ∧
    (∃ (l : List (Nat × BitVec 32)) (off : Nat) (v : BitVec 32), (l.map (·.1)).Nodup ∧ off ∈ l.map (·.1)) ∧
    (∃ (l : List (Nat × BitVec 32)) (off : Nat) (v : BitVec 32), (l.map (·.1)).Nodup ∧ off ∉ l.map (·.1)) :=
  ⟨⟨[(4, 1), (8, 2)], 8, 9, 4,
     by decide +kernel⟩,
   ⟨[(4, 1), (8, 2)], 8, 9,
     by decide +kernel⟩,
   ⟨[(4, 1)], 8, 9,
     by decide +kernel⟩⟩

/-- The hypotheses of StagedSetsAreBuiltAndChecked (O6), part `checkReportsItsFinding`, are met. -/
theorem test_met_checkReportsItsFinding :
    (∃ (s : State) (ref : CmdRef), s.takes ref 0x0204 ∧ (s.accept ref 0x0204).ownsStage ref = true ∧ (s.accept ref
      0x0204).check s.stageSet = none) ∧
    (∃ (s : State) (ref : CmdRef), ∃ i, ∃ c, s.takes ref 0x0204 ∧ (s.accept ref 0x0204).ownsStage ref = true ∧ (s.accept ref
      0x0204).check s.stageSet = some (i, c)) :=
  ⟨⟨staged, ref0,
     by unfold State.takes; decide +kernel⟩,
   ⟨rdy.setStage [(3, 0)], ref0, 0, 1,
     by unfold State.takes; decide +kernel⟩⟩

/-- The hypotheses of CommitRunsItsCourse (O7) are met. -/
theorem test_met_CommitRunsItsCourse :
    (∃ (s : State) (ref : CmdRef) (mode region : BitVec 8) (T : BitVec 64), s.takes ref 0x0205 ∧ mode.toNat ≤ 2 ∧ region.toNat
      < 16 ∧ (let u := s.accept ref 0x0205; u.ownsStage ref = true ∧ u.host.armed = none ∧ u.stageSet ≠ [] ∧ u.standbyLocked =
      false ∧ u.check u.stageSet = none ∧ (let v := u.wr F.HST_STG_STATUS.CHECKED 1; (mode = 1 → v.rlive region.toNat = true)
      ∧ v.srcNotReady u.stageSet = false))) ∧
    (∃ (s : State) (a : Armed), s.alive = true ∧ s.host.armed = some a ∧ a.armed = false ∧ a.mode = 0) ∧
    (∃ (s : State) (a : Armed), s.alive = true ∧ s.host.armed = some a ∧ a.armed = false ∧ a.mode = 2 ∧ s.now + 32 ≤ a.t) ∧
    (∃ (s : State) (a : Armed), s.alive = true ∧ s.host.armed = some a ∧ a.armed = false ∧ a.mode = 2 ∧ a.t < s.now + 32) ∧
    (∃ (s : State) (a : Armed) (c : Nat) (drains : BitVec 80), s.alive = true ∧ s.host.armed = some a ∧ a.c = some c ∧ s.now <
      c) ∧
    (∃ (s : State) (a : Armed) (c : Nat) (drains : BitVec 80), s.alive = true ∧ s.host.armed = some a ∧ a.c = some c ∧ c ≤
      s.now ∧ ((s.setHost { s.host with armed := none }).wr F.HST_STG_STATUS.ARMED 0).fabLocked a.set = false) :=
  ⟨⟨staged, ref0, 0, 0, 0,
     by unfold State.takes; decide +kernel⟩,
   ⟨arming 0 0 none, armed0 0 0 none,
     by decide +kernel⟩,
   ⟨arming 2 32 none, armed0 2 32 none,
     by decide +kernel⟩,
   ⟨arming 2 31 none, armed0 2 31 none,
     by decide +kernel⟩,
   ⟨arming 0 0 (some 1), armed0 0 0 (some 1), 1, 0,
     by decide +kernel⟩,
   ⟨arming 0 0 (some 0), armed0 0 0 (some 0), 0, 0,
     by decide +kernel⟩⟩

/-- The hypotheses of AbortDecidesItsTarget (O8) are met. -/
theorem test_met_AbortDecidesItsTarget :
    (∃ (s : State) (ref : CmdRef) (ring index : BitVec 16), ∃ op, ∃ c, s.takes ref 0x0206 ∧ ring.toNat ≤ 255 ∧
      (let u := (s.accept ref 0x0206).commitPast; index.toNat < 2 ^ u.rd F.HST_RING_CFG.SQ_SIZE ring.toNat ∧ Sparse.find
      (u.ring ring.toNat).last index.toNat = some op ∧ u.unfetched ring.toNat index.toNat = false ∧ op ≠ 0x0206 ∧
      u.host.cmds.find? (fun c => c.ref.ring.toNat == ring.toNat && c.ref.index.toNat == index.toNat) = some c ∧ c.accepted =
      true ∧ c.early = false)) ∧
    (∃ (s : State) (ref : CmdRef) (ring index : BitVec 16), ∃ op, ∃ c, s.takes ref 0x0206 ∧ ring.toNat ≤ 255 ∧
      (let u := (s.accept ref 0x0206).commitPast; index.toNat < 2 ^ u.rd F.HST_RING_CFG.SQ_SIZE ring.toNat ∧ Sparse.find
      (u.ring ring.toNat).last index.toNat = some op ∧ u.unfetched ring.toNat index.toNat = false ∧ op ≠ 0x0206 ∧
      u.host.cmds.find? (fun c => c.ref.ring.toNat == ring.toNat && c.ref.index.toNat == index.toNat) = some c ∧ (c.accepted =
      false ∨ c.early = true))) ∧
    (∃ (s : State) (ref : CmdRef) (ring index : BitVec 16), ∃ op, s.takes ref 0x0206 ∧ ring.toNat ≤ 255 ∧
      (let u := (s.accept ref 0x0206).commitPast; index.toNat < 2 ^ u.rd F.HST_RING_CFG.SQ_SIZE ring.toNat ∧ Sparse.find
      (u.ring ring.toNat).last index.toNat = some op ∧ u.unfetched ring.toNat index.toNat = false ∧ op ≠ 0x0206 ∧
      u.host.cmds.find? (fun c => c.ref.ring.toNat == ring.toNat && c.ref.index.toNat == index.toNat) = none)) ∧
    (∃ (s : State) (ref : CmdRef) (ring index : BitVec 16), s.takes ref 0x0206 ∧ ring.toNat ≤ 255 ∧
      (let u := (s.accept ref 0x0206).commitPast; index.toNat < 2 ^ u.rd F.HST_RING_CFG.SQ_SIZE ring.toNat ∧ u.unfetched
      ring.toNat index.toNat = true)) :=
  ⟨⟨fetched1 0x0201 true false, ref0, 0, 1, 0x0201, ⟨⟨0, 1, 8, false, true⟩, 0x0201, true, false, []⟩,
     by unfold State.takes; decide +kernel⟩,
   ⟨fetched1 0x0205 true false, ref0, 0, 1, 0x0205, ⟨⟨0, 1, 8, false, true⟩, 0x0205, true, false, []⟩,
     by unfold State.takes; decide +kernel⟩,
   ⟨rdy.setRing 0 { last := [(1, 0x0201)] }, ref0, 0, 1, 0x0201,
     by unfold State.takes; decide +kernel⟩,
   ⟨rdy.setRing 0 { sqTail := 2 }, ref0, 0, 1,
     by unfold State.takes; decide +kernel⟩⟩

/-- The hypotheses of CompletionsAreWrittenOrHeld (O9), part `completionIsWritten`, are met. -/
theorem test_met_completionIsWritten :
    (∃ (s : State) (ref : CmdRef) (status result : Nat) (flag : Bool), ∃ c, (let r := ref.ring.toNat; s.rdb F.HST_RING_CFG.EN
      r = true ∧ s.portUp (s.ringPort r) = true ∧ ref.noirq = true ∧ (let size := 2 ^ s.rd F.HST_RING_CFG.CQ_SIZE r;
      (let tail := s.rd F.HST_RING_CQ.CQ_TAIL r; (let t := s.complete ref status result flag; c ∈ t.host.cmds))))) :=
  ⟨fetched1 0x201 true true, ref0, 0, 0, false, ⟨⟨0, 1, 8, false, true⟩, 0x0201, true, true, []⟩,
    by decide +kernel⟩

/-- The hypotheses of CompletionsAreWrittenOrHeld (O9), part `completionIsHeldWhilePortIsLost`, are met. -/
theorem test_met_completionIsHeldWhilePortIsLost :
    (∃ (s : State) (ref : CmdRef) (status result : Nat) (flag : Bool), (let r := ref.ring.toNat; s.rdb F.HST_RING_CFG.EN r =
      true ∧ s.portUp (s.ringPort r) = false)) :=
  ⟨lost0, ref0, 0, 0, false,
    by decide +kernel⟩

/-- The hypotheses of EventsReachFirmwareAndPorts (O10) are met. -/
theorem test_met_EventsReachFirmwareAndPorts :
    (∃ (s : State) (code sev source pay : Nat) (nme : Bool), s.recovery = false) ∧
    (∃ (s : State) (e : EventRec) (p : Fin 2), s.evtWanted p e = false) ∧
    (∃ (s : State) (e : EventRec) (p : Fin 2), s.evtWanted p e = true ∧ (s.rd F.HST_EVT_PTR.TAIL p + 1) % 2 ^ s.rd
      F.HST_EVT_CFG.SIZE p = s.rd F.HST_EVT_PTR.HEAD p) ∧
    (∃ (s : State) (e : EventRec) (p : Fin 2), s.evtWanted p e = true ∧ s.portUp p = true ∧ (s.rd F.HST_EVT_PTR.TAIL p + 1) %
      2 ^ s.rd F.HST_EVT_CFG.SIZE p ≠ s.rd F.HST_EVT_PTR.HEAD p ∧ (let t := s.evtToPort e p; e.sev ≠ sevFatal ∧ e.nme = false
      ∧ Sparse.get (fun _ => 0) s.host.evtNew p + 1 < 2 ^ s.rd F.HST_EVT_CFG.COAL_CNT p ∧ s.rd F.HST_EVT_CFG.COAL_US p ≠ 0)) :=
  ⟨⟨rdy, 0, 0, 0, 0, false,
     by decide +kernel⟩,
   ⟨rdy, rec1, 0,
     by decide +kernel⟩,
   ⟨evts, rec1, 0,
     by decide +kernel⟩,
   ⟨(evts.wr F.HST_EVT_CFG.COAL_CNT 1).wr F.HST_EVT_CFG.COAL_US 4 |>.wr F.HST_EVT_PTR.HEAD 3, rec1, 0,
     by decide +kernel⟩⟩

/-- The hypotheses of DoorbellsAndFetchesMoveRings (O11), part `doorbellsMoveTheirRing`, are met. -/
theorem test_met_doorbellsMoveTheirRing :
    (∃ (s : State) (p : Port) (r : BitVec 8) (v : BitVec 32), s.hostOpen = true ∧ s.rdb F.HST_RING_CFG.EN r.toNat = true ∧
      s.ringPort r.toNat = portNat p ∧ v.toNat < 2 ^ s.rd F.HST_RING_CFG.SQ_SIZE r.toNat) ∧
    (∃ (s : State) (p : Port) (r : BitVec 8) (v : BitVec 32), s.hostOpen = true ∧ s.rdb F.HST_RING_CFG.EN r.toNat = true ∧
      s.ringPort r.toNat = portNat p ∧ v.toNat < 2 ^ s.rd F.HST_RING_CFG.CQ_SIZE r.toNat) ∧
    (∃ (s : State) (p : Port) (r : BitVec 8) (v : BitVec 32), s.hostOpen = true ∧ (s.rdb F.HST_RING_CFG.EN r.toNat = false ∨
      s.ringPort r.toNat ≠ portNat p)) ∧
    (∃ (s : State) (p : Port) (v : BitVec 32), s.hostOpen = true ∧ s.rdb F.GLB_EVT_CFG.ENABLE (portNat p) = true ∧ v.toNat < 2
      ^ s.rd F.HST_EVT_CFG.SIZE (portNat p)) ∧
    (∃ (s : State) (p q : Port) (v : BitVec 32), s.hostOpen = true ∧ p ≠ q) :=
  ⟨⟨rdy, .p0, 0, 15,
     by decide +kernel⟩,
   ⟨rdy, .p0, 0, 15,
     by decide +kernel⟩,
   ⟨rdy, .p0, 1, 1,
     by decide +kernel⟩,
   ⟨rdy.wr F.GLB_EVT_CFG.ENABLE 1, .p0, 15,
     by decide +kernel⟩,
   ⟨rdy, .p0, .p1, 0,
     by decide +kernel⟩⟩

/-- The hypotheses of DoorbellsAndFetchesMoveRings (O11), part `fetchTakesTheHeadEntry`, are met. -/
theorem test_met_fetchTakesTheHeadEntry :
    (∃ (s : State) (ring : BitVec 8), s.hostOpen = true ∧ (let r := ring.toNat; (let p := s.ringPort r;
      (let head := s.rd F.HST_RING_STAT.SQ_HEAD r; (let size := 2 ^ s.rd F.HST_RING_CFG.SQ_SIZE r;
      (let d := s.hostRead p (s.rd64 F.HST_SQ_BASE_LO.BASE r + 64 * (head % size)) 64; s.rdb F.HST_RING_CFG.EN r = true ∧
      s.portUp p = true ∧ s.rdb F.HST_STATUS.FROZEN = false ∧ 1 ≤ ((s.ring r).sqTail + size - head) % size ∧ s.hasCredit r =
      true ∧ bit (fieldAt d 2 1) 2 = false ∧ badDescriptor d = false ∧ head ∉ (s.ring r).marks)))))) :=
  ⟨nop0, 0,
    by decide +kernel⟩

/-- The hypotheses of SemaphoresHaveOneOwner (O12) are met. -/
theorem test_met_SemaphoresHaveOneOwner :
    (∃ (s : State) (p : Port) (n : BitVec 5), s.bar0Open 0x20400 = true ∧ s.rd F.HST_SEM.FREE n.toNat = 1) ∧
    (∃ (s : State) (p : Port) (n : BitVec 5), s.bar0Open 0x20400 = true ∧ s.rd F.HST_SEM.FREE n.toNat = 0) ∧
    (∃ (s : State) (p : Port) (n : BitVec 5) (v : BitVec 32), s.bar0Open 0x20500 = true ∧ v.getLsbD 0 = true ∧ s.rd
      F.HST_SEM_OWNER.OWNER n.toNat = portNat p + 1 ∧ n ≠ 0) ∧
    (∃ (s : State) (p : Port) (n : BitVec 5) (v : BitVec 32), s.bar0Open 0x20500 = true ∧ v.getLsbD 0 = true ∧ s.rd
      F.HST_SEM_OWNER.OWNER n.toNat = portNat p + 1 ∧ n = 0 ∧ s.host.armed = none) ∧
    (∃ (s : State) (p : Port) (n : BitVec 5) (v : BitVec 32), s.bar0Open 0x20500 = true ∧ v.getLsbD 0 = true ∧ s.rd
      F.HST_SEM_OWNER.OWNER n.toNat ≠ portNat p + 1) ∧
    (∃ (s : State) (p : Port) (n : BitVec 5) (v : BitVec 32), s.bar0Open 0x20404 = true ∧ s.rd F.HST_SEM_OWNER.OWNER n.toNat =
      portNat p + 1) ∧
    (∃ (s : State) (p : Port) (n : BitVec 5) (v : BitVec 32), s.bar0Open 0x20404 = true ∧ s.rd F.HST_SEM_OWNER.OWNER n.toNat ≠
      portNat p + 1) ∧
    (∃ (s : State) (p : Port) (n : BitVec 5) (v : BitVec 32), v.getLsbD 0 = false) ∧
    (∃ (s : State) (p : Port) (t0 : Nat), s.alive = true ∧ Sparse.find s.host.lostAt (portNat p) = some t0 ∧ t0 + 1000000 ≤
      s.now) ∧
    (∃ (s : State) (n : BitVec 5), s.rd F.HST_SEM.FREE n.toNat = 1) :=
  ⟨⟨rdy, .p0, 1,
     by decide +kernel⟩,
   ⟨rdy, .p0, 0,
     by decide +kernel⟩,
   ⟨rdy.wr F.HST_SEM_OWNER.OWNER 1 1 |>.wr F.HST_SEM.FREE 0 1, .p0, 1, 1,
     by decide +kernel⟩,
   ⟨rdy, .p0, 0, 1,
     by decide +kernel⟩,
   ⟨rdy, .p1, 1, 1,
     by decide +kernel⟩,
   ⟨rdy, .p0, 0, 1,
     by decide +kernel⟩,
   ⟨rdy, .p0, 1, 0,
     by decide +kernel⟩,
   ⟨rdy, .p0, 1, 0,
     by decide +kernel⟩,
   ⟨at' lostP0 1000000, .p0, 0,
     by decide +kernel⟩,
   ⟨rdy, 1,
     by decide +kernel⟩⟩

/-- The hypotheses of HostSetsUpRingsAndMovesMemory (O14), part `ringsAreSetUp`, are met. -/
theorem test_met_ringsAreSetUp :
    (∃ (s : State) (ring : BitVec 8) (v : BitVec 32), s.bar0Open 0x21000 = true ∧ s.rdb F.HST_RING_CFG.EN ring.toNat = false ∧
      v.getLsbD 31 = true) ∧
    (∃ (s : State) (ring : BitVec 8) (k : BitVec 2) (v : BitVec 32), s.bar0Open 0x21000 = true) ∧
    (∃ (s : State) (q : Port) (k : Fin 3) (v : BitVec 32), s.bar0Open 0x20100 = true ∧ k = 0) ∧
    (∃ (s : State) (q : Port) (k : Fin 3) (v : BitVec 32), s.bar0Open 0x20100 = true ∧ k = 1) ∧
    (∃ (s : State) (q : Port) (k : Fin 3) (v : BitVec 32), s.bar0Open 0x20100 = true ∧ k = 2) ∧
    (∃ (s : State) (q : Port) (v : BitVec 32), s.bar0Open 0x20080 = true) :=
  ⟨⟨rdy, 1, 0xFFFFFFFF,
     by decide +kernel⟩,
   ⟨rdy, 1, 0, 0xFFFFFFFF,
     by decide +kernel⟩,
   ⟨rdy, .p0, 0, 0xFFFFFFFF,
     by decide +kernel⟩,
   ⟨rdy, .p0, 1, 0,
     by decide +kernel⟩,
   ⟨rdy, .p0, 2, 0xFFFFFFFF,
     by decide +kernel⟩,
   ⟨rdy, .p0, 0xFFFFFFFF,
     by decide +kernel⟩⟩

/-- The hypotheses of PortsAndFreezesComeAndGo (O13), part `portsAreLostAndRestored`, are met. -/
theorem test_met_portsAreLostAndRestored :
    (∃ (s : State) (p : Port), s.alive = true ∧ s.portUp (portNat p) = true) ∧
    (∃ (s : State) (p : Port), s.alive = true ∧ s.portUp (portNat p) = false) ∧
    (∃ (s : State) (p : Port) (t0 : Nat), s.alive = true ∧ Sparse.find s.host.lostAt (portNat p) = some t0 ∧ t0 + 1000000 ≤
      s.now) ∧
    (∃ (s : State) (p : Port) (t0 : Nat), s.alive = true ∧ Sparse.find s.host.lostAt (portNat p) = some t0 ∧ s.now < t0 +
      1000000) :=
  ⟨⟨rdy, .p0,
     by decide +kernel⟩,
   ⟨lost0, .p0,
     by decide +kernel⟩,
   ⟨at' lostP0 1000000, .p0, 0,
     by decide +kernel⟩,
   ⟨at' lostP0 999999, .p0, 0,
     by decide +kernel⟩⟩

/-- The hypotheses of PortsAndFreezesComeAndGo (O13), part `freezeQuiescesAndEnds`, are met. -/
theorem test_met_freezeQuiescesAndEnds :
    (∃ (s : State), s.alive = true ∧ s.host.armed = none ∧ (∀ c ∈ s.host.cmds, c.accepted = true ∧ c.early = false) ∧ (s.rdb
      F.PAIR_CFG.EN && s.rd F.PAIR_STAT.ROLE == 0) = false ∧ s.noneOutstanding = true) ∧
    (∃ (s : State) (t0 : Nat), s.alive = true ∧ s.host.pfwEdge = some t0 ∧ (t0 + 5000000 ≤ s.now ∨ s.noneOutstanding = true)) ∧
    (∃ (s : State) (v : BitVec 32), s.bar0Open 0x20004 = true ∧ v.getLsbD 0 = true) :=
  ⟨⟨rdy,
     by decide +kernel⟩,
   ⟨at' (rdy.setHost { rdy.host with pfwEdge := some 0, cmds := (fetched1 0x0301 true true).host.cmds }) 5000000, 0,
     by decide +kernel⟩,
   ⟨rdy, 1,
     by decide +kernel⟩⟩

/-- The hypotheses of HostSetsUpRingsAndMovesMemory (O14), part `hostMovesMemoryAndSignals`, are met. -/
theorem test_met_hostMovesMemoryAndSignals :
    (∃ (s : State) (ref : CmdRef) (toHost : Bool) (host : BitVec 64) (far len : BitVec 32), s.takes ref 0x0207 ∧
      (let u := s.accept ref 0x0207; (let p := s.cmdPort ref; (let r := u.memRead (reqHost p) (far.toNat * 16) len.toNat;
      s.memWaits (reqHost p) (far.toNat * 16) len.toNat = false ∧ (len.toNat = 0 ∨ len.toNat % 16 ≠ 0))))) ∧
    (∃ (s : State) (ref : CmdRef) (toHost : Bool) (host : BitVec 64) (far len : BitVec 32), s.takes ref 0x0207 ∧
      (let u := s.accept ref 0x0207; (let p := s.cmdPort ref; (let r := u.memRead (reqHost p) (far.toNat * 16) len.toNat;
      s.memWaits (reqHost p) (far.toNat * 16) len.toNat = false ∧ 0 < len.toNat ∧ len.toNat % 16 = 0 ∧ far.toNat + len.toNat /
      16 ≤ 0x80800000 ∧ s.portUp p = false)))) ∧
    (∃ (s : State) (ref : CmdRef) (toHost : Bool) (host : BitVec 64) (far len : BitVec 32), s.takes ref 0x0207 ∧
      (let u := s.accept ref 0x0207; (let p := s.cmdPort ref; (let r := u.memRead (reqHost p) (far.toNat * 16) len.toNat;
      s.memWaits (reqHost p) (far.toNat * 16) len.toNat = false ∧ 0 < len.toNat ∧ len.toNat % 16 = 0 ∧ far.toNat + len.toNat /
      16 ≤ 0x80800000 ∧ s.portUp p = true ∧ poisoned r.bytes = false)))) ∧
    (∃ (s : State) (ref : CmdRef) (toHost : Bool) (host : BitVec 64) (far len : BitVec 32), s.takes ref 0x0207 ∧
      (let u := s.accept ref 0x0207; (let p := s.cmdPort ref; (let r := u.memRead (reqHost p) (far.toNat * 16) len.toNat;
      s.memWaits (reqHost p) (far.toNat * 16) len.toNat = false ∧ 0 < len.toNat ∧ len.toNat % 16 = 0 ∧ far.toNat + len.toNat /
      16 ≤ 0x80800000 ∧ s.portUp p = true ∧ poisoned r.bytes = true)))) ∧
    (∃ (s : State) (p : Port) (ofs : BitVec 28) (len : BitVec 12) (data : List Byte), s.hostOpen = true ∧
      (let a := s.rd F.HST_WIN.BASE (portNat p) * 65536 * 16 + ofs.toNat; s.memWaits (reqHost (portNat p)) a data.length =
      false)) ∧
    (∃ (s : State) (p : Port) (ofs : BitVec 28) (len : BitVec 12) (data : List Byte), s.hostOpen = true ∧
      (let a := s.rd F.HST_WIN.BASE (portNat p) * 65536 * 16 + ofs.toNat; s.memWaits (reqHost (portNat p)) a len.toNat = false
      ∧ (let r := s.memRead (reqHost (portNat p)) a len.toNat; poisoned r.bytes = false))) ∧
    (∃ (s : State) (p : Port) (ring : BitVec 8) (t0 : Nat), s.alive = true ∧ (let r := ring.toNat; (s.ring r).firstUnsig =
      some t0 ∧ s.now < t0 + 1000 * s.rd F.HST_RING_CFG.COAL_US r)) ∧
    (∃ (s : State) (p : Port) (ring : BitVec 8) (t0 : Nat), s.alive = true ∧ (let r := ring.toNat; (s.ring r).firstUnsig =
      some t0 ∧ t0 + 1000 * s.rd F.HST_RING_CFG.COAL_US r ≤ s.now ∧ s.rd F.HST_MSIX.WORD (s.ringPort r) (4 * s.rd
      F.HST_RING_CFG.VECTOR r + 3) % 2 = 0 ∧ s.portUp (s.ringPort r) = true)) :=
  ⟨⟨hbm0, ref0, false, 0x1000, 0, 0,
     by unfold State.takes; decide +kernel⟩,
   ⟨hbm0.wr F.HST_STATUS.PORT_UP 2, ref0, false, 0x1000, 0, 16,
     by unfold State.takes; decide +kernel⟩,
   ⟨hbm0, ref0, false, 0x1000, 0, 16,
     by unfold State.takes; decide +kernel⟩,
   ⟨hbm0.wr F.MEM_PART_OWN.MASK 0, ref0, false, 0x1000, 0, 16,
     by unfold State.takes; decide +kernel⟩,
   ⟨hbm0, .p0, 0, 16, [],
     by decide +kernel⟩,
   ⟨hbm0, .p0, 0, 16, [],
     by decide +kernel⟩,
   ⟨at' coal0 3999, .p0, 0, 0,
     by decide +kernel⟩,
   ⟨at' coal0 4000, .p0, 0, 0,
     by decide +kernel⟩⟩

/-- The hypotheses of OnlyAlignedWordsAreAccessed (O15) are met. -/
theorem test_met_OnlyAlignedWordsAreAccessed :
    (∃ (s : State) (p : Port) (off : BitVec 24) (size : BitVec 4) (v : BitVec 32) (drains : BitVec 80), s.alive = true ∧ s.rdb
      F.GLB_STATUS.READY = true ∧ (off.toNat % 4 ≠ 0 ∨ size ≠ 4)) :=
  ⟨rdy, .p0, 2, 4, 0, 0,
    by decide +kernel⟩

/-- The hypotheses of UnoccupiedOffsetsReadZero (O16) are met. -/
theorem test_met_UnoccupiedOffsetsReadZero :
    (∃ (s : State) (p : Port) (off : BitVec 24) (v : BitVec 32) (drains : BitVec 80), s.alive = true ∧ s.rdb
      F.GLB_STATUS.READY = true ∧ regRow off.toNat = none) ∧
    (∃ (s : State) (off : BitVec 24), lowerWord off.toNat = false ∧ (off.toNat < 4 ∨ lowerWord (off.toNat - 4) = false) ∧
      s.alive = true ∧ s.rdb F.GLB_STATUS.READY = true) :=
  ⟨⟨rdy, .p0, 0xFFFFFC, 0, 0,
     by decide +kernel⟩,
   ⟨rdy, 0xFFFFFC,
     by decide +kernel⟩⟩

/-- The hypotheses of WritesReachUnlockedFields (O17), part `writesReachTheirFields`, are met. -/
theorem test_met_writesReachTheirFields :
    (∃ (s : State) (p : Port) (off : BitVec 24) (v : BitVec 32) (drains : BitVec 80) (r : RegDef), s.bar0Open off.toNat = true
      ∧ off.toNat % 4 = 0 ∧ regRow off.toNat = some r ∧ plainRegister off.toNat r) :=
  ⟨rdy, .p0, 0x83008, 5, 0, ((regRow 0x83008).get (by decide)),
    by unfold plainRegister; and_intros <;> first | decide +kernel | (intros; rfl)⟩

/-- The hypotheses of WritesReachUnlockedFields (O17), part `committedRegistersAreLocked`, are met. -/
theorem test_met_committedRegistersAreLocked :
    (∃ (s : State) (p : Port) (off : BitVec 24) (v : BitVec 32) (drains : BitVec 80) (r : RegDef), regRow off.toNat = some r ∧
      r.has .rwl = true ∧ r.has .w1c = false ∧ s.actionWrite (portNat p) off.toNat v.toNat = none ∧ s.isCommitted off.toNat =
      true) :=
  ⟨rdy.setHost { rdy.host with committed := [(0x10204, true)] }, .p0, 0x10204, 99, 0, ((regRow 0x10204).get (by decide)),
    by decide +kernel⟩

/-- The hypotheses of WritesReachUnlockedFields (O17), part `directWritesActAsACommit`, are met. -/
theorem test_met_directWritesActAsACommit :
    (∃ (s : State) (p : Port) (off : BitVec 24) (v : BitVec 32) (drains : BitVec 80) (r : RegDef), s.bar0Open off.toNat = true
      ∧ off.toNat % 4 = 0 ∧ regRow off.toNat = some r ∧ r.has .rwl = true ∧ r.has .w1c = false ∧ s.actionWrite (portNat p)
      off.toNat v.toNat = none ∧ s.isCommitted off.toNat = false ∧ (let set := [(off.toNat, v.toNat)]; s.check set ≠ none)) ∧
    (∃ (s : State) (p : Port) (off : BitVec 24) (v : BitVec 32) (drains : BitVec 80) (r : RegDef), s.bar0Open off.toNat = true
      ∧ off.toNat % 4 = 0 ∧ regRow off.toNat = some r ∧ r.has .rwl = true ∧ r.has .w1c = false ∧ s.actionWrite (portNat p)
      off.toNat v.toNat = none ∧ s.isCommitted off.toNat = false ∧ (let set := [(off.toNat, v.toNat)]; (0x10100 ≤ off.toNat ∧
      off.toNat < 0x10164 ∨ off.toNat = 0x10020))) ∧
    (∃ (s : State) (p : Port) (off : BitVec 24) (v : BitVec 32) (drains : BitVec 80) (r : RegDef), s.bar0Open off.toNat = true
      ∧ off.toNat % 4 = 0 ∧ regRow off.toNat = some r ∧ r.has .rwl = true ∧ r.has .w1c = false ∧ s.actionWrite (portNat p)
      off.toNat v.toNat = none ∧ s.isCommitted off.toNat = false ∧ (let set := [(off.toNat, v.toNat)]; (off.toNat < 0x10100 ∨
      0x10164 ≤ off.toNat) ∧ off.toNat ≠ 0x10020 ∧ s.check set = none ∧ s.standbyLocked = false ∧ s.fab.load = none)) :=
  ⟨⟨rdy, .p0, 0x10204, 3, 0, ((regRow 0x10204).get (by decide)),
     by decide +kernel⟩,
   ⟨rdy, .p0, 0x10020, 1, 0, ((regRow 0x10020).get (by decide)),
     by decide +kernel⟩,
   ⟨rdy, .p0, 0x10204, 99, 0, ((regRow 0x10204).get (by decide)),
     by decide +kernel⟩⟩

/-- The hypotheses of WidePairsReadConsistently (O18), part `pairsReadConsistently`, are met. -/
theorem test_met_pairsReadConsistently :
    (∃ (s : State) (p : Port) (off : BitVec 24), off.toNat + 4 < 2 ^ 24 ∧ off.toNat % 4 = 0 ∧ lowerWord off.toNat = true ∧
      s.bar0Open off.toNat = true) ∧
    (∃ (s : State) (p : Port) (off : BitVec 24), ∃ v, off.toNat + 4 < 2 ^ 24 ∧ off.toNat % 4 = 0 ∧ lowerWord off.toNat = true
      ∧ lowerWord (off.toNat + 4) = false ∧ (regRow (off.toNat + 4)).isSome = true ∧ s.bar0Open (off.toNat + 4) = true ∧
      (let k := shadowKey off.toNat (portNat p); Sparse.find s.host.shadows k = some v)) ∧
    (∃ (s : State) (p : Port) (off : BitVec 24), off.toNat + 4 < 2 ^ 24 ∧ off.toNat % 4 = 0 ∧ lowerWord off.toNat = true ∧
      lowerWord (off.toNat + 4) = false ∧ (regRow (off.toNat + 4)).isSome = true ∧ s.bar0Open (off.toNat + 4) = true ∧
      (let k := shadowKey off.toNat (portNat p); Sparse.find s.host.shadows k = none)) ∧
    (∃ (s : State) (p : Port) (off : BitVec 24) (size : BitVec 4), lowerWord off.toNat = false ∧ (off.toNat < 4 ∨ lowerWord
      (off.toNat - 4) = false)) ∧
    (∃ (s : State) (off : BitVec 24), s.alive = true ∧ s.rdb F.SEC_FUSE_STAT.DBG_DIS = false ∧ s.sec.jtag = 0x10 ∧ s.bar0Open
      off.toNat = true ∧ off.toNat % 4 = 0 ∧ lowerWord off.toNat = true) :=
  ⟨⟨rdy, .p0, 0x10,
     by decide +kernel⟩,
   ⟨rdy.setHost { rdy.host with shadows := [(0x40, 5)] }, .p0, 0x10, 5,
     by decide +kernel⟩,
   ⟨rdy, .p0, 0x10,
     by decide +kernel⟩,
   ⟨rdy, .p0, 0, 4,
     by decide +kernel⟩,
   ⟨rdy.setSec { rdy.sec with jtag := 0x10 }, 0x10,
     by decide +kernel⟩⟩

/-- The hypotheses of WidePairsReadConsistently (O18), part `timebaseReadsLive`, are met. -/
theorem test_met_timebaseReadsLive :
    (∃ (s : State) (p : Port), s.alive = true ∧ s.rdb F.GLB_STATUS.READY = true) :=
  ⟨rdy, .p0,
    by decide +kernel⟩

/-- The hypotheses of OwnersReachTheirMemory (O19), part `ownersReadAndWriteBankWords`, are met. -/
theorem test_met_ownersReadAndWriteBankWords :
    (∃ (s : State) (req : BitVec 16) (a : BitVec 36) (b : Nat) (data : List Byte) (poison : Bool), ownAccess s req.toNat
      a.toNat ∧ s.target a.toNat = .bank b ∧ a.toNat % 8 = 0 ∧ (let w := (a.toNat - hbmBytes) % 2 ^ 21 / 8; data.length = 8)) ∧
    (∃ (s : State) (req : BitVec 16) (a : BitVec 36) (b : Nat), ownAccess s req.toNat a.toNat ∧ s.target a.toNat = .bank b ∧
      a.toNat % 8 = 0 ∧ (let w := (a.toNat - hbmBytes) % 2 ^ 21 / 8; (s.bankGet (s.bankKey b w)).valid = true ∧ (s.bankGet
      (s.bankKey b w)).flips = 0)) ∧
    (∃ (s : State) (req : BitVec 16) (a : BitVec 36) (b : Nat), ownAccess s req.toNat a.toNat ∧ s.target a.toNat = .bank b ∧
      a.toNat % 8 = 0 ∧ (let w := (a.toNat - hbmBytes) % 2 ^ 21 / 8; (s.bankGet (s.bankKey b w)).valid = false)) :=
  ⟨⟨bank0, 0x5000, 0x800000008, 0, [1,2,3,4,5,6,7,8], true,
     by unfold ownAccess; decide +kernel⟩,
   ⟨bank0.bankSet 1 ⟨5, true, 0⟩, 0x5001, 0x800000008, 0,
     by unfold ownAccess; decide +kernel⟩,
   ⟨bank0, 0x5000, 0x800000008, 0,
     by unfold ownAccess; decide +kernel⟩⟩

/-- The hypotheses of OwnersReachTheirMemory (O19), part `ownersWriteHbm`, are met. -/
theorem test_met_ownersWriteHbm :
    (∃ (s : State) (req : BitVec 16) (a : BitVec 36) (p : Nat) (data : List Byte), ownAccess s req.toNat a.toNat ∧ s.target
      a.toNat = .part p ∧ 1 ≤ data.length ∧ a.toNat % 32 + data.length ≤ 32) :=
  ⟨hbm0, 0x5000, 31, 0, [9],
    by unfold ownAccess; decide +kernel⟩

/-- The hypotheses of OthersWaitOrAreRefused (O20), part `nonOwnersAreRefused`, are met. -/
theorem test_met_nonOwnersAreRefused :
    (∃ (s : State) (req : BitVec 16) (a : BitVec 36) (data : List Byte), s.alive = true ∧ s.gatePending a.toNat = false ∧
      a.toNat < windowBytes ∧ a.toNat % 8 = 0 ∧ data.length = 8 ∧ s.owns req.toNat a.toNat = false ∧ s.gated a.toNat = true) :=
  ⟨rdy.setMem { rdy.mem with off := [0x30] }, 0x1000, 0x800000008, List.replicate 8 1,
    by decide +kernel⟩

/-- The hypotheses of OthersWaitOrAreRefused (O20), part `heldRequestsWaitInOrder`, are met. -/
theorem test_met_heldRequestsWaitInOrder :
    (∃ (s : State) (req : BitVec 16) (write : Bool) (a : BitVec 36) (n : BitVec 12) (data : List Byte), s.alive = true ∧
      a.toNat < windowBytes ∧ s.memHolds a.toNat = true ∧ s.owns req.toNat a.toNat = true) :=
  ⟨bank0.wr F.MEM_BANK_STAT.STATE 1, 0x5000, false, 0x800000008, 8, [],
    by decide +kernel⟩

/-- The hypotheses of BanksAndKilnRunTheirCourse (O21), part `banksBecomeReady`, are met. -/
theorem test_met_banksBecomeReady :
    (∃ (s : State) (b : BitVec 7), s.alive = true ∧ s.mem.held = [] ∧ b.toNat < 64 ∧ s.rd F.MEM_BANK_STAT.STATE b.toNat = 1) ∧
    (∃ (s : State) (b : BitVec 7), s.alive = true ∧ s.mem.held = [] ∧ 64 ≤ b.toNat ∧ b.toNat < 80) ∧
    (∃ (s : State) (b : BitVec 6), s.alive = true ∧ s.mem.held = [] ∧ s.rd F.MEM_BANK_STAT.STATE b.toNat = 2) ∧
    (∃ (s : State) (b : BitVec 6) (w : BitVec 18), s.alive = true) ∧
    (∃ (s : State) (m0 m1 : BitVec 32), s.alive = true) :=
  ⟨⟨bank0.wr F.MEM_BANK_STAT.STATE 1, 0,
     by decide +kernel⟩,
   ⟨rdy.setMem { rdy.mem with partDrain := 0xFFFF }, 64,
     by decide +kernel⟩,
   ⟨(bank0.wr F.MEM_BANK_STAT.STATE 2).bankSet 1 ⟨5, true, 0⟩, 0,
     by decide +kernel⟩,
   ⟨bank0.wr F.MEM_BANK_STAT.STATE 1, 0, 0,
     by decide +kernel⟩,
   ⟨bank0.wr F.MEM_BANK_STAT.STATE 1, 0, 0,
     by decide +kernel⟩⟩

/-- The hypotheses of BanksAndKilnRunTheirCourse (O21), part `kilnRunsOverItsBanks`, are met. -/
theorem test_met_kilnRunsOverItsBanks :
    (∃ (s : State) (ref : CmdRef) (banks : BitVec 64) (alg bg : BitVec 8) (preserve repair : Bool), s.takes ref 0x0301 ∧ banks
      ≠ 0 ∧ alg.toNat < 2 ∧ bg.toNat < 3 ∧ (let u := s.accept ref 0x0301; (∀ b ∈ maskBits 64 banks.toNat, u.kilnRefuses b =
      false) ∧ s.rdb F.MEM_KILN_STAT.BUSY = false)) ∧
    (∃ (s : State) (k : KilnRun), s.alive = true ∧ s.mem.kiln = some k ∧ k.ref = none ∧ k.preserve = true) :=
  ⟨⟨rdy.wr F.MEM_KILN_STAT.BUSY 0 |>.setMem { rdy.mem with kiln := none }, ref0, 1, 1, 2, false, false,
     by unfold State.takes; decide +kernel⟩,
   ⟨rdy.setMem { rdy.mem with kiln := some ⟨none, 1, 0, true, 0, true⟩ }, ⟨none, 1, 0, true, 0, true⟩,
     by decide +kernel⟩⟩

/-- The hypotheses of ResetsKeepWhatTheRulesSay (O22), part `powerOnStartsFromReset`, are met. -/
theorem test_met_powerOnStartsFromReset :
    (∃ (s : State) (x : BitVec 3), s.sec.fuseOp = none ∧ s.sec.flashOp = none) :=
  ⟨rdy, 7,
    by decide +kernel⟩

/-- The hypotheses of ResetsKeepWhatTheRulesSay (O22), part `warmResetKeepsMemory`, are met. -/
theorem test_met_warmResetKeepsMemory :
    (∃ (s : State), s.clk.por = false) ∧
    (∃ (s : State), s.bar0Open 0x10010 = true) :=
  ⟨⟨rdy,
     by decide +kernel⟩,
   ⟨rdy,
     by decide +kernel⟩⟩

/-- The hypotheses of StopsAndSuppliesRuleThePads (O26), part `stopsReleaseThePins`, are met. -/
theorem test_met_stopsReleaseThePins :
    (∃ (s : State), s.alive = true) :=
  ⟨rdy,
    by decide +kernel⟩

/-- The hypotheses of XrefQualifiesAndFailsOver (O23), part `xrefQualifiesByWindows`, are met. -/
theorem test_met_xrefQualifiesByWindows :
    (∃ (s : State), s.alive = true ∧ s.strapDelay ≤ s.now) ∧
    (∃ (s : State), s.alive = true ∧ s.now < s.strapDelay) ∧
    (∃ (s : State) (n : BitVec 11), s.alive = true ∧ s.clk.strapDone = true ∧ s.clk.rcoFailed = false ∧ s.rdb
      F.CLK_STATUS.MON_ARMED = false ∧ s.rdb F.CLK_STATUS.XTAL_RDY = false ∧ 1003 ≤ n.toNat ∧ n.toNat ≤ 1130 ∧ s.clk.windows +
      1 < (if s.clk.failedOver then 1024 else 4)) ∧
    (∃ (s : State) (n : BitVec 11), s.alive = true ∧ s.clk.strapDone = true ∧ s.clk.rcoFailed = false ∧ s.rdb
      F.CLK_STATUS.MON_ARMED = false ∧ s.rdb F.CLK_STATUS.XTAL_RDY = false ∧ 1003 ≤ n.toNat ∧ n.toNat ≤ 1130 ∧ (if
      s.clk.failedOver then 1024 else 4) ≤ s.clk.windows + 1 ∧ s.clk.switched = false) ∧
    (∃ (s : State) (n : BitVec 11), s.alive = true ∧ s.clk.strapDone = true ∧ s.clk.rcoFailed = false ∧ s.rdb
      F.CLK_STATUS.MON_ARMED = false ∧ s.rdb F.CLK_STATUS.XTAL_RDY = false ∧ (n.toNat < 1003 ∨ 1130 < n.toNat)) ∧
    (∃ (s : State), s.alive = true ∧ 4 * s.strapDelay ≤ s.now ∧ s.clk.switched = false ∧ s.rdb F.CLK_STATUS.XTAL_TIMEOUT =
      false ∧ s.recovery = false) :=
  ⟨⟨at' rdy 4000000000,
     by decide +kernel⟩,
   ⟨rdy,
     by decide +kernel⟩,
   ⟨rdy.setClk { rdy.clk with strapDone := true, windows := 2, failedOver := false, switched := false }, 1003,
     by decide +kernel⟩,
   ⟨rdy.setClk { rdy.clk with strapDone := true, windows := 3, failedOver := false, switched := false }, 1130,
     by decide +kernel⟩,
   ⟨rdy.setClk { rdy.clk with strapDone := true, windows := 3, failedOver := true, switched := false }, 1002,
     by decide +kernel⟩,
   ⟨at' rdy 4000000000,
     by decide +kernel⟩⟩

/-- The hypotheses of XrefQualifiesAndFailsOver (O23), part `xrefFailsOver`, are met. -/
theorem test_met_xrefFailsOver :
    (∃ (s : State) (n : BitVec 11), s.alive = true ∧ s.rdb F.CLK_STATUS.MON_ARMED = true ∧ s.clk.strapDone = true ∧
      s.clk.rcoFailed = false ∧ 1003 ≤ n.toNat ∧ n.toNat ≤ 1130) ∧
    (∃ (s : State) (n : BitVec 11), s.alive = true ∧ s.rdb F.CLK_STATUS.MON_ARMED = true ∧ s.clk.strapDone = true ∧
      s.clk.rcoFailed = false ∧ (n.toNat < 1003 ∨ 1130 < n.toNat)) ∧
    (∃ (s : State) (n : BitVec 11), s.alive = true ∧ s.rdb F.CLK_STATUS.MON_ARMED = true ∧ (∀ r, r < 16 → s.rlive r = false)) :=
  ⟨⟨(fs rdy [(F.CLK_STATUS.MON_ARMED, 1, 0)]).setClk { rdy.clk with strapDone := true }, 1003,
     by decide +kernel⟩,
   ⟨(fs rdy [(F.CLK_STATUS.MON_ARMED, 1, 0)]).setClk { rdy.clk with strapDone := true }, 1002,
     by decide +kernel⟩,
   ⟨(fs rdy [(F.CLK_STATUS.MON_ARMED, 1, 0)]).setClk { rdy.clk with strapDone := true }, 1003,
     by decide +kernel⟩⟩

/-- The hypotheses of ClockEventsFollow (O27), part `clockFlagsFollow`, are met. -/
theorem test_met_clockFlagsFollow :
    (∃ (s : State) (d : BitVec 5), s.alive = true ∧ d.toNat ∈ pllDomains ∧ s.mem.selfRefresh = false) ∧
    (∃ (s : State) (n : BitVec 11) (p0 p1 l : Bool), s.alive = true ∧ s.clk.rcoFailed = false ∧ (n.toNat < 1318 ∨ 1611 <
      n.toNat)) ∧
    (∃ (s : State) (n : BitVec 11) (p0 p1 l : Bool), s.alive = true ∧ s.clk.rcoFailed = true) ∧
    (∃ (s : State) (v : BitVec 32), s.bar0Open 0x10008 = true) :=
  ⟨⟨rdy, 25,
     by decide +kernel⟩,
   ⟨rdy, 1317, false, false, false,
     by decide +kernel⟩,
   ⟨rdy.setClk { rdy.clk with rcoFailed := true }, 1552, false, false, false,
     by decide +kernel⟩,
   ⟨rdy, 3,
     by decide +kernel⟩⟩

/-- The hypotheses of PowerIsManagedAndGated (O24), part `powerManagerStepsThroughItsStages`, are met. -/
theorem test_met_powerManagerStepsThroughItsStages :
    (∃ (s : State) (p t0 : BitVec 16), s.alive = true ∧ 100 * s.rd F.CLK_PWR_CAP.CAP < p.toNat ∧ s.clk.holds = false) ∧
    (∃ (s : State) (p t0 : BitVec 16), s.alive = true ∧ 100 * s.rd F.CLK_PWR_CAP.CAP < p.toNat ∧ s.clk.holds = true ∧ s.rd
      F.CLK_PWR_CAP.SCI_MIN < min s.sciFreq s.clk.ceiling) ∧
    (∃ (s : State) (p t0 : BitVec 16), s.alive = true ∧ p.toNat ≤ 100 * s.rd F.CLK_PWR_CAP.CAP ∧ 100 * s.rd F.CLK_PWR_CAP.CAP
      < p.toNat + 200) ∧
    (∃ (s : State) (p t0 : BitVec 16), s.alive = true ∧ p.toNat + 200 ≤ 100 * s.rd F.CLK_PWR_CAP.CAP ∧ s.clk.lowRun + 1 < 10) ∧
    (∃ (s : State) (p t0 : BitVec 16), s.alive = true ∧ p.toNat + 200 ≤ 100 * s.rd F.CLK_PWR_CAP.CAP ∧ 10 ≤ s.clk.lowRun + 1) :=
  ⟨⟨(rdy.wr F.CLK_PWR_CAP.CAP 100).setClk { rdy.clk with holds := false, lowRun := 0 }, 10001, 1,
     by decide +kernel⟩,
   ⟨(rdy.wr F.CLK_PWR_CAP.CAP 100).setClk { rdy.clk with holds := true, lowRun := 0 }, 10001, 1,
     by decide +kernel⟩,
   ⟨(rdy.wr F.CLK_PWR_CAP.CAP 100).setClk { rdy.clk with holds := true, lowRun := 0 }, 10000, 1,
     by decide +kernel⟩,
   ⟨(rdy.wr F.CLK_PWR_CAP.CAP 100).setClk { rdy.clk with holds := true, lowRun := 8 }, 9800, 1,
     by decide +kernel⟩,
   ⟨(rdy.wr F.CLK_PWR_CAP.CAP 100).setClk { rdy.clk with holds := true, lowRun := 9 }, 9800, 1,
     by decide +kernel⟩⟩

/-- The hypotheses of PowerIsManagedAndGated (O24), part `gatesAndStandby`, are met. -/
theorem test_met_gatesAndStandby :
    (∃ (s : State) (b : BitVec 6), s.alive = true ∧ (0x30 + b.toNat) ∈ s.mem.gates ∧ s.mem.held = [] ∧ s.gateDue (0x30 +
      b.toNat) = false) ∧
    (∃ (s : State) (b : BitVec 6), s.alive = true ∧ (0x30 + b.toNat) ∈ s.mem.gates ∧ s.mem.held = [] ∧ s.gateDue (0x30 +
      b.toNat) = true) ∧
    (∃ (s : State), s.alive = true ∧ s.rd F.CLK_STATUS.PSTATE = 3) :=
  ⟨⟨rdy.setMem { rdy.mem with gates := [0x30] }, 0,
     by decide +kernel⟩,
   ⟨at' (rdy.setMem { rdy.mem with gates := [0x30] }) 100000, 0,
     by decide +kernel⟩,
   ⟨rdy.wr F.CLK_STATUS.PSTATE 3,
     by decide +kernel⟩⟩

/-- The hypotheses of ClockEventsFollow (O27), part `pulsesLastEightTicks`, are met. -/
theorem test_met_pulsesLastEightTicks :
    (∃ (s : State) (i : BitVec 2), s.alive = true ∧ s.rdb F.CLK_TBP_CFG.EN i.toNat = true ∧
      (let phase := s.rd64 F.CLK_TBP_PHASE_LO.PHASE i.toNat;
      (let at_ := s.now - (s.now - phase) % s.rd F.CLK_TBP_PERIOD.PERIOD i.toNat; phase ≤ s.now ∧ Sparse.get (fun _ => 0)
      s.clk.pulseAt i.toNat ≤ at_ ∧ s.now < at_ + 8))) ∧
    (∃ (s : State) (i : BitVec 2), s.alive = true ∧ s.rdb F.CLK_TBP_CFG.EN i.toNat = true ∧
      (let phase := s.rd64 F.CLK_TBP_PHASE_LO.PHASE i.toNat;
      (let at_ := s.now - (s.now - phase) % s.rd F.CLK_TBP_PERIOD.PERIOD i.toNat; phase ≤ s.now ∧ Sparse.get (fun _ => 0)
      s.clk.pulseAt i.toNat ≤ at_ ∧ at_ + 8 ≤ s.now))) :=
  ⟨⟨at' (fs rdy [(F.CLK_TBP_CFG.EN,1,0)]) 7, 0,
     by decide +kernel⟩,
   ⟨at' (fs rdy [(F.CLK_TBP_CFG.EN,1,0)]) 8, 0,
     by decide +kernel⟩⟩

/-- The hypotheses of BootEndsInReadyOrRecovery (O25) are met. -/
theorem test_met_BootEndsInReadyOrRecovery :
    (∃ (s : State) (rf : Bool), s.alive = true ∧ s.rdb F.GLB_STATUS.BOOT_OK = false ∧ s.rd F.SEC_BOOT.STATE = 0) ∧
    (∃ (s : State) (m : Bool), s.alive = true ∧ s.rdb F.GLB_STATUS.BOOT_OK = false ∧ s.rd F.SEC_BOOT.STATE = 0 ∧ s.fwCheck
      s.flashRead ≠ 0) ∧
    (∃ (s : State), s.alive = true ∧ s.rdb F.GLB_STATUS.BOOT_OK = true ∧ (s.rdb F.CLK_STATUS.XTAL_RDY = true ∨ s.rdb
      F.CLK_STATUS.XTAL_TIMEOUT = true)) ∧
    (∃ (s : State), s.alive = true ∧ s.mem.kiln = none ∧ (s.recovery = true ∨ (s.rdb F.GLB_STATUS.BOOT_OK = true ∧
      s.clk.hbmTrained = true))) ∧
    (∃ (s : State), s.alive = true ∧ s.mem.kiln ≠ none) :=
  ⟨⟨rdy.wr F.GLB_STATUS.BOOT_OK 0, false,
     by decide +kernel⟩,
   ⟨rdy.wr F.GLB_STATUS.BOOT_OK 0, false,
     by decide +kernel⟩,
   ⟨rdy.wr F.CLK_STATUS.XTAL_RDY 1,
     by decide +kernel⟩,
   ⟨rdy.wr F.SEC_BOOT.STATE 2 |>.setMem { rdy.mem with kiln := none },
     by decide +kernel⟩,
   ⟨rdy.wr F.GLB_STATUS.BOOT_OK 0,
     by decide +kernel⟩⟩

/-- The hypotheses of StopsAndSuppliesRuleThePads (O26), part `suppliesAndHoldsRuleThePads`, are met. -/
theorem test_met_suppliesAndHoldsRuleThePads :
    (∃ (s : State) (b : BitVec 4), s.alive = true ∧ s.rdb F.PIN_BANK_STAT.VIO_GOOD b.toNat = true ∧ s.recovery = false) ∧
    (∃ (s : State) (b : BitVec 4), s.alive = true ∧ s.rdb F.PIN_BANK_STAT.VIO_GOOD b.toNat = false ∧ s.recovery = false) ∧
    (∃ (s : State), s.host.hsEarly = true) ∧
    (∃ (s : State), s.host.hsEarly = false) :=
  ⟨⟨rdy.wr F.PIN_BANK_STAT.VIO_GOOD 1 15, 15,
     by decide +kernel⟩,
   ⟨rdy, 0,
     by decide +kernel⟩,
   ⟨rdy.wr F.PIN_BANK_STAT.VIO_GOOD 1 15,
     by decide +kernel⟩,
   ⟨rdy.setHost { rdy.host with hsEarly := false },
     by decide +kernel⟩⟩

/-- The hypotheses of ClockEventsFollow (O27), part `clockOutputsFollowTheirLoops`, are met. -/
theorem test_met_clockOutputsFollowTheirLoops :
    (∃ (s : State) (k : BitVec 3), s.alive = true ∧ s.rdb F.PIN_DCO_CTRL.EN k.toNat = true ∧ s.rdb F.PIN_DCO_CTRL.LOCKED
      k.toNat = true ∧ s.recovery = false) ∧
    (∃ (s : State) (k : BitVec 3), s.alive = true ∧ s.rdb F.PIN_DCO_CTRL.EN k.toNat = true ∧ s.rdb F.PIN_DCO_CTRL.LOCKED
      k.toNat = false) :=
  ⟨⟨fs rdy [(F.PIN_DCO_CTRL.EN,1,7),(F.PIN_DCO_CTRL.LOCKED,1,7)], 7,
     by decide +kernel⟩,
   ⟨fs rdy [(F.PIN_DCO_CTRL.EN,1,7)], 7,
     by decide +kernel⟩⟩

/-- The hypotheses of TriggersStartAndHaltsEndRuns (O28), part `triggersStartFrames`, are met. -/
theorem test_met_triggersStartFrames :
    (∃ (s : State) (r : BitVec 4), s.alive = true ∧ s.rlive r.toNat = true ∧ s.timerDue r.toNat = true ∧ s.haltDue r.toNat =
      false ∧ s.rstate r.toNat = rgWaiting ∧ (s.rgn r.toNat).accepted = none) ∧
    (∃ (s : State) (r : BitVec 4), ∃ a, s.alive = true ∧ s.rlive r.toNat = true ∧ s.timerDue r.toNat = true ∧ s.haltDue
      r.toNat = false ∧ s.deferred r.toNat = false ∧ (s.rgn r.toNat).accepted = some a ∧ s.fab.g < a.e + a.lam ∧ s.rdb
      F.FAB_RGN_STATUS.HALT_PENDING r.toNat = false ∧ (s.rgn r.toNat).haltAt = none) ∧
    (∃ (s : State) (r : BitVec 4), ∃ a, s.alive = true ∧ s.rlive r.toNat = true ∧ s.timerDue r.toNat = true ∧ s.haltDue
      r.toNat = false ∧ s.deferred r.toNat = false ∧ (s.rgn r.toNat).accepted = some a ∧ s.fab.g < a.e + a.lam ∧ s.rdb
      F.FAB_RGN_STATUS.HALT_PENDING r.toNat = false ∧ s.recovery = false) ∧
    (∃ (s : State) (r : BitVec 4), s.alive = true ∧ s.timerDue r.toNat = false) ∧
    (∃ (s : State) (c : BitVec 5) (up : Bool) (r : BitVec 4), s.alive = true ∧ s.rdb F.PIN_BANK_STAT.VIO_GOOD (c.toNat / 2) =
      true ∧ s.replaying = false ∧ s.trigNow F.FAB_RGN_TRIG.MODE r.toNat = 2 ∧ s.trigNow F.FAB_RGN_TRIG.CLKPIN r.toNat =
      c.toNat ∧ bit (s.trigNow F.FAB_RGN_TRIG.EDGE r.toNat) (if up then 0 else 1) = true ∧ s.rstate r.toNat = rgWaiting ∧
      s.haltDue r.toNat = false ∧ (s.rgn r.toNat).accepted = none) ∧
    (∃ (s : State) (c : BitVec 5) (up : Bool) (r : BitVec 4), s.alive = true ∧ s.rdb F.PIN_BANK_STAT.VIO_GOOD (c.toNat / 2) =
      false) ∧
    (∃ (s : State) (p : Port) (r : BitVec 4), s.hostOpen = true ∧ s.trigNow F.FAB_RGN_TRIG.MODE r.toNat = 4 ∧ s.rstate r.toNat
      = rgWaiting ∧ s.haltDue r.toNat = false ∧ s.replaying = false ∧ (s.rgn r.toNat).accepted = none) ∧
    (∃ (s : State) (p : Port) (r : BitVec 4), s.hostOpen = true ∧ (s.trigNow F.FAB_RGN_TRIG.MODE r.toNat ≠ 4 ∨ s.rlive r.toNat
      = false)) :=
  ⟨⟨rg rgWaiting 1 {}, 0,
     by decide +kernel⟩,
   ⟨rg rgWaiting 1 { accepted := some { e := 0, lam := 1, anchor := none, gap := 0 } }, 0,
     { e := 0, lam := 1, anchor := none, gap := 0 },
     by decide +kernel⟩,
   ⟨rg rgWaiting 1 { accepted := some { e := 0, lam := 1, anchor := none, gap := 0 } }, 0,
     { e := 0, lam := 1, anchor := none, gap := 0 },
     by decide +kernel⟩,
   ⟨rdy, 0,
     by decide +kernel⟩,
   ⟨rg rgWaiting 2 {} |>.wr F.PIN_BANK_STAT.VIO_GOOD 1, 0, true, 0,
     by decide +kernel⟩,
   ⟨rg rgWaiting 1 {}, 0, false, 0,
     by decide +kernel⟩,
   ⟨rg rgWaiting 4 {}, .p0, 0,
     by decide +kernel⟩,
   ⟨rg rgWaiting 1 {}, .p0, 0,
     by decide +kernel⟩⟩

/-- The hypotheses of TriggersStartAndHaltsEndRuns (O28), part `haltsTakeEffectAtTheirStep`, are met. -/
theorem test_met_haltsTakeEffectAtTheirStep :
    (∃ (s : State) (r : BitVec 4), s.alive = true ∧ s.haltDue r.toNat = false) ∧
    (∃ (s : State) (r : BitVec 4), s.alive = true ∧ s.haltDue r.toNat = true) :=
  ⟨⟨rdy, 0,
     by decide +kernel⟩,
   ⟨rg rgRunning 1 { haltAt := some 0 }, 0,
     by decide +kernel⟩⟩

/-- The hypotheses of RestsLaunchesAndArrivals (O29), part `restsAndLaunches`, are met. -/
theorem test_met_restsAndLaunches :
    (∃ (s : State), s.alive = true ∧ s.restLate = true) ∧
    (∃ (s : State), s.alive = true ∧ s.restLate = false) ∧
    (∃ (s : State), s.alive = true ∧ s.fab.rest = 2 ∧ s.fab.holdLen < s.rd F.FAB_PWR_HOLD.LEN) ∧
    (∃ (s : State), s.alive = true ∧ s.fab.rest = 2 ∧ s.rd F.FAB_PWR_HOLD.LEN ≤ s.fab.holdLen ∧ s.absentItems.isEmpty = true) ∧
    (∃ (s : State) (v : BitVec 32), s.bar0Open 0x101038 = true ∧ v.getLsbD 0 = true) ∧
    (∃ (s : State) (v : BitVec 32), s.bar0Open 0x101038 = true ∧ v.getLsbD 0 = false) ∧
    (∃ (s : State) (q : BitVec 6) (e : TlqEntry) (l : List TlqEntry), s.alive = true ∧ s.tlq q.toNat = e :: l ∧ e.ready = true
      ∧ s.now < e.t) ∧
    (∃ (s : State) (q : BitVec 6) (e : TlqEntry) (l : List TlqEntry), s.alive = true ∧ s.tlq q.toNat = e :: l ∧ e.ready = true
      ∧ e.t ≤ s.now ∧ (∀ x ∈ l, x.ready = false ∧ s.now + 16 ≤ x.t)) :=
  ⟨⟨(fs (rg rgRunning 1 {}) [(F.FAB_REST_LIMIT.LIMIT,1,0),(F.FAB_RGN_CFG.CLASS,1,0)]).setFab { (rg rgRunning 1 {}).fab with rest := 1, nonPower := 2 },
     by decide +kernel⟩,
   ⟨(fs (rg rgRunning 1 {}) [(F.FAB_REST_LIMIT.LIMIT,1,0)]).setFab { (rg rgRunning 1 {}).fab with rest := 1, nonPower := 1 },
     by decide +kernel⟩,
   ⟨rdy.setFab { rdy.fab with rest := 2, holdLen := 1023 },
     by decide +kernel⟩,
   ⟨rdy.setFab { rdy.fab with rest := 2, holdLen := 1024 },
     by decide +kernel⟩,
   ⟨rdy, 1,
     by decide +kernel⟩,
   ⟨(fs (rg rgRunning 1 {}) [(F.FAB_REST_LIMIT.LIMIT,1,0),(F.FAB_RGN_CFG.CLASS,1,0)]).setFab { (rg rgRunning 1 {}).fab with rest := 1, nonPower := 2 },
     0,
     by decide +kernel⟩,
   ⟨fs (rdy.setTlq 0 [tlq1 1]) [(F.PIN_CFG.OWNER,2,0),(F.PIN_BANK_STAT.RELEASED,1,0)], 0, tlq1 1, [],
     by decide +kernel⟩,
   ⟨rdy.setTlq 0 [tlq1 0], 0, tlq1 0, [],
     by decide +kernel⟩⟩

/-- The hypotheses of RestsLaunchesAndArrivals (O29), part `collectedItemsArrive`, are met. -/
theorem test_met_collectedItemsArrive :
    (∃ (s : State) (tile : BitVec 6) (c : BitVec 13) (i : Item), ∃ w, ∃ l, s.alive = true ∧ s.replaying = false ∧
      (s.fab.items.find? fun i => i.acc.tile == tile.toNat && i.acc.collect == c.toNat && !i.present) = some i ∧ i.sent = true
      ∧ i.acc.kind = 3 ∧ (s.gw i.acc.unit).rx = w :: l) ∧
    (∃ (s : State) (tile : BitVec 6) (c : BitVec 13) (i : Item), s.alive = true ∧ s.replaying = false ∧ (s.fab.items.find? fun
      i => i.acc.tile == tile.toNat && i.acc.collect == c.toNat && !i.present) = some i ∧ i.sent = true ∧ i.acc.kind = 3 ∧
      (s.gw i.acc.unit).rx = []) ∧
    (∃ (s : State) (tile : BitVec 6) (c : BitVec 13), s.alive = true ∧ (∀ i ∈ s.fab.items, ¬ (i.acc.tile = tile.toNat ∧
      i.acc.collect = c.toNat ∧ i.present = false))) :=
  ⟨⟨(rdy.setFab { rdy.fab with items := [item1] }).setGw 1 { rx := [(5, false)] }, 2, 3, item1, (5, false), [],
     by decide +kernel⟩,
   ⟨rdy.setFab { rdy.fab with items := [item1] }, 2, 3, item1,
     by decide +kernel⟩,
   ⟨rdy.setFab { rdy.fab with items := [item1] }, 2, 4,
     by decide +kernel⟩⟩

/-- The hypotheses of RegionsStartHaltAndRestart (O30), part `startsAndResumes`, are met. -/
theorem test_met_startsAndResumes :
    (∃ (s : State) (ref : CmdRef) (mask : BitVec 16) (w : BitVec 8) (at_ : BitVec 64), s.takes ref 0x0402 ∧ mask ≠ 0 ∧ (w = 0
      ∨ w = 2) ∧ s.standbyLocked = false ∧ (∀ r : BitVec 4, mask.getLsbD r.toNat = true → s.rstate r.toNat = rgStopped)) ∧
    (∃ (s : State) (ref : CmdRef) (mask : BitVec 16) (w : BitVec 8) (at_ : BitVec 64), s.takes ref 0x0402 ∧ mask ≠ 0 ∧ (w = 0
      ∨ w = 2) ∧ (s.standbyLocked = true ∨ (∃ r : BitVec 4, mask.getLsbD r.toNat = true ∧ s.rstate r.toNat ≠ rgStopped))) ∧
    (∃ (s : State) (c : StartCmd), s.alive = true ∧ (s.fab.starts.find? fun c => decide (c.t ≤ s.now)) = some c ∧ (∀ r :
      BitVec 4, bit c.mask r.toNat = true → s.rstate r.toNat = rgStopped)) ∧
    (∃ (s : State), s.alive = true ∧ (∀ c ∈ s.fab.starts, s.now < c.t)) ∧
    (∃ (s : State) (ref : CmdRef) (mask : BitVec 16), s.takes ref 0x0404 ∧ mask ≠ 0 ∧ s.standbyLocked = false ∧ (∀ r : BitVec
      4, mask.getLsbD r.toNat = true → s.haltedCleanly r.toNat = true)) ∧
    (∃ (s : State) (ref : CmdRef) (mask : BitVec 16), s.takes ref 0x0404 ∧ mask ≠ 0 ∧ (s.standbyLocked = true ∨ (∃ r : BitVec
      4, mask.getLsbD r.toNat = true ∧ s.haltedCleanly r.toNat = false))) :=
  ⟨⟨rg rgStopped 0 {}, ref0, 1, 2, 0,
     by unfold State.takes; decide +kernel⟩,
   ⟨rg rgStopped 0 {}, ref0, 3, 0, 0,
     by unfold State.takes; decide +kernel⟩,
   ⟨(rg rgStopped 0 {}).setFab { (rg rgStopped 0 {}).fab with starts := [⟨ref0, 1, 0⟩] }, ⟨ref0, 1, 0⟩,
     by decide +kernel⟩,
   ⟨rg rgStopped 0 {},
     by decide +kernel⟩,
   ⟨rg rgHalted 0 {} |>.wr F.FAB_RGN_STATUS.HALT_CAUSE 0xFE, ref0, 1,
     by unfold State.takes; decide +kernel⟩,
   ⟨rg rgStopped 0 {}, ref0, 1,
     by unfold State.takes; decide +kernel⟩⟩

/-- The hypotheses of RegionsStartHaltAndRestart (O30), part `haltsFramesAndRestarts`, are met. -/
theorem test_met_haltsFramesAndRestarts :
    (∃ (s : State) (ref : CmdRef) (mask : BitVec 16) (r : BitVec 4), s.takes ref 0x0403 ∧ mask.getLsbD r.toNat = true ∧
      s.standbyLocked = false ∧ (∀ q : BitVec 4, mask.getLsbD q.toNat = true → s.rlive q.toNat = true ∨ s.rstate q.toNat =
      rgHalted) ∧ s.rlive r.toNat = true ∧ s.rdb F.FAB_RGN_STATUS.HALT_PENDING r.toNat = false ∧ (s.rgn r.toNat).haltAt = none
      ∧ s.rstate r.toNat = rgWaiting) ∧
    (∃ (s : State) (ref : CmdRef) (mask : BitVec 16) (r : BitVec 4), s.takes ref 0x0403 ∧ mask.getLsbD r.toNat = true ∧
      s.standbyLocked = false ∧ (∀ q : BitVec 4, mask.getLsbD q.toNat = true → s.rlive q.toNat = true ∨ s.rstate q.toNat =
      rgHalted) ∧ s.rlive r.toNat = true ∧ s.rdb F.FAB_RGN_STATUS.HALT_PENDING r.toNat = false ∧ (s.rgn r.toNat).haltAt = none
      ∧ s.rstate r.toNat = rgRunning) ∧
    (∃ (s : State) (ref : CmdRef) (r : BitVec 8), s.takes ref 0x0405 ∧ r.toNat < 16 ∧ s.standbyLocked = false ∧ s.trigNow
      F.FAB_RGN_TRIG.MODE r.toNat ≠ 4 ∧ (s.rstate r.toNat = rgStopped ∨ s.haltedCleanly r.toNat = true)) ∧
    (∃ (s : State) (ref : CmdRef) (mask : BitVec 16) (keep : BitVec 8), s.takes ref 0x0406 ∧ mask ≠ 0 ∧ keep.toNat ≤ 1 ∧
      s.standbyLocked = false ∧ (∀ q : BitVec 4, mask.getLsbD q.toNat = true → s.rstate q.toNat = rgStopped ∨ s.rstate q.toNat
      = rgHalted) ∧ keep = 1) :=
  ⟨⟨rg rgWaiting 0 {}, ref0, 1, 0,
     by unfold State.takes; decide +kernel⟩,
   ⟨rg rgRunning 0 {}, ref0, 1, 0,
     by unfold State.takes; decide +kernel⟩,
   ⟨rg rgStopped 0 {}, ref0, 0,
     by unfold State.takes; decide +kernel⟩,
   ⟨rg rgStopped 0 {}, ref0, 1, 1,
     by unfold State.takes; decide +kernel⟩⟩

/-- The hypotheses of GristIsLoadedPhaseByPhase (O31), part `loadsFetchAuthenticateAndCheck`, are met. -/
theorem test_met_loadsFetchAuthenticateAndCheck :
    (∃ (s : State) (ref : CmdRef) (mode stage part : BitVec 8) (addr ofs len : BitVec 64), s.takes ref 0x0401 ∧ mode.toNat ≤ 1
      ∧ stage.toNat ≤ 15 ∧ (let u := s.accept ref 0x0401; s.fab.load.isSome = true)) ∧
    (∃ (s : State) (ref : CmdRef) (mode stage part : BitVec 8) (addr ofs len : BitVec 64), s.takes ref 0x0401 ∧ mode.toNat ≤ 1
      ∧ stage.toNat ≤ 15 ∧ (let u := s.accept ref 0x0401; s.fab.load = none ∧ u.standbyLocked = false ∧ u.fabBusy = false ∧
      u.hostPart stage.toNat = true ∧ len.toNat ≤ 2 ^ 33 ∧ u.inPart stage.toNat ofs.toNat len.toNat = true)) ∧
    (∃ (s : State) (l : LoadSt), s.alive = true ∧ s.fab.load = some l ∧ l.phase = 1 ∧ l.fromHbm = false ∧ s.portUp l.port =
      true ∧ s.memWaits (reqHost l.port) (s.partAddr l.part l.ofs) l.length = false ∧ s.hostBad l.port l.addr l.length =
      false) ∧
    (∃ (s : State) (l : LoadSt), s.alive = true ∧ s.fab.load = some l ∧ l.phase = 1 ∧ l.fromHbm = false ∧ s.portUp l.port =
      true ∧ s.memWaits (reqHost l.port) (s.partAddr l.part l.ofs) l.length = false ∧ s.hostBad l.port l.addr l.length = true) ∧
    (∃ (s : State) (l : LoadSt), s.alive = true ∧ s.fab.load = some l ∧ l.phase = 2 ∧ (fieldAt l.image 0 4 ≠ 0x54535247 ∨ bit
      (fieldAt l.image 0x00B 1) 0 = false)) ∧
    (∃ (s : State) (l : LoadSt), s.alive = true ∧ s.fab.load = some l ∧ l.phase = 3 ∧ s.gristCheck l.length l.sigOk l.image =
      none ∧ l.verify = false) ∧
    (∃ (s : State) (l : LoadSt), s.alive = true ∧ s.fab.load = some l ∧ l.phase = 3 ∧ s.gristCheck l.length l.sigOk l.image =
      none ∧ l.verify = true) :=
  ⟨⟨loading 1 false [1], ref0, 0, 0, 0, 0, 0, 0,
     by unfold State.takes; decide +kernel⟩,
   ⟨hbm0, ref0, 0, 0, 0, 0, 0, 0x4000000,
     by unfold State.takes; decide +kernel⟩,
   ⟨loading 1 false [1], ld 1 false [1],
     by decide +kernel⟩,
   ⟨(loading 1 false [1]).setHost { (loading 1 false [1]).host with badTlp := [0] }, ld 1 false [1],
     by decide +kernel⟩,
   ⟨loading 2 false [1], ld 2 false [1],
     by decide +kernel⟩,
   ⟨loading 3 false grist0, ld 3 false grist0,
     by decide +kernel⟩,
   ⟨loading 3 true grist0, ld 3 true grist0,
     by decide +kernel⟩⟩

/-- The hypotheses of GristIsLoadedPhaseByPhase (O31), part `loadsWriteAndCalibrate`, are met. -/
theorem test_met_loadsWriteAndCalibrate :
    (∃ (s : State) (l : LoadSt) (snap : List (BitVec 13 × BitVec 16 × BitVec 7)), s.alive = true ∧ s.fab.load = some l ∧
      l.phase = 4 ∧ s.memWaits (reqHost l.port) (s.partAddr l.part l.ofs) l.length = false ∧ (s.gristRead l).2.1 = false) ∧
    (∃ (s : State) (l : LoadSt) (snap : List (BitVec 13 × BitVec 16 × BitVec 7)), s.alive = true ∧ s.fab.load = some l ∧
      l.phase = 4 ∧ s.memWaits (reqHost l.port) (s.partAddr l.part l.ofs) l.length = false ∧ (s.gristRead l).2.1 = true) ∧
    (∃ (s : State) (l : LoadSt) (fail : BitVec 4), s.alive = true ∧ s.fab.load = some l ∧ l.phase = 5 ∧ s.recovery = false) ∧
    (∃ (s : State) (v : BitVec 32), s.bar0Open 0x103054 = true) :=
  ⟨⟨loading 4 false [1], ld 4 false [1], [],
     by decide +kernel⟩,
   ⟨(loading 4 false [1]).setMem { hbm0.mem with hbmPoison := [(0, true)] }, ld 4 false [1], [],
     by decide +kernel⟩,
   ⟨loading 5 false [1], ld 5 false [1], 0,
     by decide +kernel⟩,
   ⟨loading 4 false [1], 0,
     by decide +kernel⟩⟩

/-- The hypotheses of FabricStepsCount (O32) are met. -/
theorem test_met_FabricStepsCount :
    (∃ (s : State) (x : StepIn), s.alive = true ∧ s.rdb F.PAIR_CFG.EN = false) :=
  ⟨rdy, ⟨1, [], [], []⟩,
    by decide +kernel⟩

/-- The hypotheses of ElaReleasesAndHolds (O33) are met. -/
theorem test_met_ElaReleasesAndHolds :
    (∃ (s : State) (ref : CmdRef) (sc : BitVec 8), s.takes ref 0x0502 ∧ scopeOf sc.toNat = none) ∧
    (∃ (s : State) (ref : CmdRef) (sc : BitVec 8), ∃ n, s.takes ref 0x0502 ∧ scopeOf sc.toNat = some n ∧ s.standbyLocked =
      false ∧ s.scope 16 ≠ scLoading ∧ s.scope n ≠ scLoading ∧ s.scope n ≠ scConfigured) ∧
    (∃ (s : State) (ref : CmdRef) (sc : BitVec 8), ∃ n, s.takes ref 0x0502 ∧ scopeOf sc.toNat = some n ∧ s.standbyLocked =
      false ∧ s.scope 16 ≠ scLoading ∧ s.scope n = scConfigured ∧ s.isReleased n = false ∧ (∀ r ∈ s.ela.rel, r.scope ≠ n)) ∧
    (∃ (s : State) (sc : BitVec 8) (n : Nat), s.alive = true ∧ scopeOf sc.toNat = some n ∧ (∃ r ∈ s.ela.rel, r.scope = n ∧
      r.gwe = false ∧ s.gweDue r = true)) ∧
    (∃ (s : State) (sc : BitVec 8) (n : Nat), ∃ r, s.alive = true ∧ scopeOf sc.toNat = some n ∧ (s.ela.rel.find? fun r =>
      r.scope == n && r.gwe && s.gsrDue r) = some r ∧ n < 16) ∧
    (∃ (s : State) (sc : BitVec 8) (n : Nat), ∃ r, s.alive = true ∧ scopeOf sc.toNat = some n ∧ (s.ela.rel.find? fun r =>
      r.scope == n && r.gwe && s.gsrDue r) = some r ∧ s.recovery = false) ∧
    (∃ (s : State) (sc : BitVec 8) (n : Nat), s.alive = true ∧ scopeOf sc.toNat = some n ∧ (∀ r ∈ s.ela.rel, r.scope = n →
      s.gweDue r = false)) ∧
    (∃ (s : State) (sc : BitVec 8) (n : Nat), s.alive = true ∧ scopeOf sc.toNat = some n ∧ (∀ r ∈ s.ela.rel, r.scope = n →
      s.gsrDue r = false)) ∧
    (∃ (s : State) (ref : CmdRef) (sc : BitVec 8) (n : Nat), s.takes ref 0x0503 ∧ scopeOf sc.toNat = some n ∧ s.standbyLocked
      = false ∧ s.scope n ≠ scLoading ∧ n < 16) ∧
    (∃ (s : State) (ref : CmdRef) (sc : BitVec 8) (n : Nat), s.takes ref 0x0503 ∧ scopeOf sc.toNat = some n ∧ s.standbyLocked
      = false ∧ s.scope n = scLoading) ∧
    (∃ (s : State) (pins : BitVec 512) (dco : BitVec 8) (sys : Bool), s.alive = true ∧ s.scope 16 ≠ scConfigured) ∧
    (∃ (s : State) (line : BitVec 7), s.alive = true ∧
      (let d := ((s.elaCtx s.ela.inp).drivers s.ela.val.oe line.toNat).length; (s.scope 16 ≠ scConfigured ∨ d < 2))) ∧
    (∃ (s : State) (r : BitVec 4) (v : BitVec 32), s.hostOpen = true ∧ s.recovery = false) :=
  ⟨⟨rdy, ref0, 0x10,
     by unfold State.takes; decide +kernel⟩,
   ⟨rdy, ref0, 0, 0,
     by unfold State.takes; decide +kernel⟩,
   ⟨arr 3, ref0, 0xFF, 16,
     by unfold State.takes; decide +kernel⟩,
   ⟨at' (elaOf (arr 3) fun e => { e with rel := [⟨16, none, false, 0⟩] }) 100000, 0xFF, 16,
     by decide +kernel⟩,
   ⟨at' (elaOf (arr 3) fun e => { e with rel := [⟨0, none, true, 0⟩] }) 100000, 0, 0, ⟨0, none, true, 0⟩,
     by decide +kernel⟩,
   ⟨at' (elaOf (arr 3) fun e => { e with rel := [⟨0, none, true, 0⟩] }) 100000, 0, 0, ⟨0, none, true, 0⟩,
     by decide +kernel⟩,
   ⟨rdy, 0, 0,
     by decide +kernel⟩,
   ⟨rdy, 0, 0,
     by decide +kernel⟩,
   ⟨rdy, ref0, 0, 0,
     by unfold State.takes; decide +kernel⟩,
   ⟨arr 1, ref0, 0xFF, 16,
     by unfold State.takes; decide +kernel⟩,
   ⟨rdy, 0, 0, false,
     by decide +kernel⟩,
   ⟨rdy, 0,
     by decide +kernel⟩,
   ⟨rdy, 0, 0,
     by decide +kernel⟩⟩

/-- The hypotheses of StreamsConfigureTheArray (O34) are met. -/
theorem test_met_StreamsConfigureTheArray :
    (∃ (s : State) (ref : CmdRef) (src part : BitVec 8) (addr : BitVec 64) (len : BitVec 32), s.takes ref 0x0501 ∧ 2 <
      src.toNat) ∧
    (∃ (s : State) (ref : CmdRef) (src part : BitVec 8) (addr : BitVec 64) (len : BitVec 32), s.takes ref 0x0501 ∧ src.toNat ≤
      2 ∧ src ≠ 1 ∧ s.standbyLocked = false ∧ s.ela.load.isSome = true) ∧
    (∃ (s : State) (ref : CmdRef) (src part : BitVec 8) (addr : BitVec 64) (len : BitVec 32), s.takes ref 0x0501 ∧ src.toNat ≤
      2 ∧ src ≠ 1 ∧ s.standbyLocked = false ∧ s.ela.load = none) ∧
    (∃ (s : State) (l : CfgLoad), s.alive = true ∧ s.ela.load = some l ∧ l.past = false ∧ l.src = 1 ∧ s.portUp l.port = true ∧
      (let h := s.hostRead l.port (l.addr + l.raw.length) 128;
      (let n := if fieldAt h 0x0C 1 = 0xFF then 16 else fieldAt h 0x0C 1; s.headerError l h ≠ 0))) ∧
    (∃ (s : State) (l : CfgLoad), s.alive = true ∧ s.ela.load = some l ∧ l.past = false ∧ l.src = 1 ∧ s.portUp l.port = true ∧
      (let h := s.hostRead l.port (l.addr + l.raw.length) 128;
      (let n := if fieldAt h 0x0C 1 = 0xFF then 16 else fieldAt h 0x0C 1; s.headerError l h = 0))) ∧
    (∃ (s : State) (l : CfgLoad), s.alive = true ∧ s.ela.load = some l ∧ l.past = true ∧ l.frames < l.frameRecs ∧ (l.scope ≠
      16 ∨ l.frames ≠ 0) ∧ l.framePos + 264 ≤ l.taken ∧ (let r := l.plain l.framePos 264; (let far := fieldAt r 0 4; fieldAt r
      4 4 = 0 ∧ s.inFence l.scope far = true ∧ (∀ f, l.far = some f → f < far)))) ∧
    (∃ (s : State) (l : CfgLoad), s.alive = true ∧ s.ela.load = some l ∧ l.past = true ∧ l.frames < l.frameRecs ∧ (l.scope ≠
      16 ∨ l.frames ≠ 0) ∧ l.framePos + 264 ≤ l.taken ∧ (let r := l.plain l.framePos 264; (let far := fieldAt r 0 4; (fieldAt
      r 4 4 ≠ 0 ∨ s.inFence l.scope far = false) ∧ l.scope ≤ 16))) ∧
    (∃ (s : State) (l : CfgLoad), s.alive = true ∧ s.ela.load = some l ∧ l.past = true ∧ l.frameRecs ≤ l.frames ∧ l.maps = 0 ∧
      0 < l.mapRecs ∧ (let head := l.plain l.framePos 8; (let far := fieldAt head 0 4; l.framePos + mapSize head ≤ l.taken ∧
      l.framePos + mapSize head ≤ l.payLen ∧ s.inFence l.scope far = true))) ∧
    (∃ (s : State) (l : CfgLoad), s.alive = true ∧ s.ela.load = some l ∧ l.past = true ∧ l.frameRecs ≤ l.frames ∧ l.mapRecs ≤
      l.maps ∧ l.raw.length = streamLen l.raw ∧ l.scope ≤ 16 ∧ bit (fieldAt l.raw 0x0E 1) 0 = false ∧ tagOk l.raw l.key
      l.payLen = true ∧ (s.checker l).isSome = true) ∧
    (∃ (s : State) (l : CfgLoad), s.alive = true ∧ s.ela.load = some l ∧ l.past = true ∧ l.frameRecs ≤ l.frames ∧ l.mapRecs ≤
      l.maps ∧ l.raw.length = streamLen l.raw ∧ l.scope ≤ 16 ∧ bit (fieldAt l.raw 0x0E 1) 0 = false ∧ tagOk l.raw l.key
      l.payLen = false) ∧
    (∃ (s : State), s.alive = true ∧ s.ela.scpIn = []) ∧
    (∃ (s : State), ∃ l, s.alive = true ∧ s.ela.scpIn = 0x4E525053 :: l ∧ s.ela.load = none) ∧
    (∃ (s : State) (l : CfgLoad), s.alive = true ∧ s.ela.load = some l ∧ l.src = 4 ∧ l.raw.length < 128 ∧ l.at_ + 1000000 ≤
      s.now) ∧
    (∃ (s : State) (l : CfgLoad), s.alive = true ∧ s.ela.load = some l ∧ s.now < l.at_ + 1000000) :=
  ⟨⟨rdy, ref0, 3, 0, 0, 0,
     by unfold State.takes; decide +kernel⟩,
   ⟨loadingEla (cl 1 []), ref0, 2, 0, 0, 0,
     by unfold State.takes; decide +kernel⟩,
   ⟨rdy, ref0, 2, 0, 0, 0,
     by unfold State.takes; decide +kernel⟩,
   ⟨loadingEla ({ cl 1 (hdr 264 1 0 0) with raw := [], length := 144 + 264 }),
     ({ cl 1 (hdr 264 1 0 0) with raw := [], length := 144 + 264 }),
     by decide +kernel⟩,
   ⟨(loadingEla ({ cl 1 [] with length := 144 + 23 * 264 })).hostWrite 0 0 (hdr (23*264) 23 0 0),
     ({ cl 1 [] with length := 144 + 23 * 264 }),
     by decide +kernel⟩,
   ⟨loadingEla ({ cl 1 (hdr 264 1 0 0 ++ leBytes 8 22 ++ List.replicate 256 1) with past := true, scope := 0 }),
     ({ cl 1 (hdr 264 1 0 0 ++ leBytes 8 22 ++ List.replicate 256 1) with past := true, scope := 0 }),
     by decide +kernel⟩,
   ⟨loadingEla ({ cl 1 (hdr 264 1 0 0 ++ leBytes 8 23 ++ List.replicate 256 1) with past := true, scope := 0 }),
     ({ cl 1 (hdr 264 1 0 0 ++ leBytes 8 23 ++ List.replicate 256 1) with past := true, scope := 0 }),
     by decide +kernel⟩,
   ⟨loadingEla ({ cl 1 (hdr 16 0 1 2 ++ leBytes 4 22 ++ leBytes 4 1 ++ List.replicate 8 1) with past := true, scope := 0 }),
     ({ cl 1 (hdr 16 0 1 2 ++ leBytes 4 22 ++ leBytes 4 1 ++ List.replicate 8 1) with past := true, scope := 0 }),
     by decide +kernel⟩,
   ⟨loadingEla { cl 1 (hdr 0 0 0 0 ++ slice (hash (hdr 0 0 0 0)) 0 16) with past := true, scope := 0, mapBad := some 5 },
     { cl 1 (hdr 0 0 0 0 ++ slice (hash (hdr 0 0 0 0)) 0 16) with past := true, scope := 0, mapBad := some 5 },
     by refine ⟨by decide +kernel, rfl, rfl, by decide +kernel, by decide +kernel, by decide +kernel, by decide +kernel, by decide +kernel, by decide +kernel, ?_⟩; unfold State.checker; dsimp only; split; rfl; exact Eq.trans (congrArg _ (if_pos (Bool.or_true _))) rfl⟩,
   ⟨loadingEla ({ cl 1 (hdr 0 0 0 0 ++ List.replicate 16 0) with past := true, scope := 0 }),
     ({ cl 1 (hdr 0 0 0 0 ++ List.replicate 16 0) with past := true, scope := 0 }),
     by decide +kernel⟩,
   ⟨rdy,
     by decide +kernel⟩,
   ⟨elaOf (arr 3) fun e => { e with scpIn := [0x4E525053] }, [],
     by decide +kernel⟩,
   ⟨at' (loadingEla (cl 4 [0])) 1000000, (cl 4 [0]),
     by decide +kernel⟩,
   ⟨loadingEla ({ cl 1 (hdr 264 1 0 0) with raw := [], length := 144 + 264 }),
     ({ cl 1 (hdr 264 1 0 0) with raw := [], length := 144 + 264 }),
     by decide +kernel⟩⟩

/-- The hypotheses of KeysFlashAndScrubbing (O35) are met. -/
theorem test_met_KeysFlashAndScrubbing :
    (∃ (s : State) (ref : CmdRef) (slot : BitVec 8) (key : BitVec 256), s.takes ref 0x0505 ∧ 1 < slot.toNat) ∧
    (∃ (s : State) (ref : CmdRef) (slot : BitVec 8) (key : BitVec 256), s.takes ref 0x0505 ∧ slot = 1 ∧ s.rdb
      F.CFG_FUSE.KEY1_DIS = false) ∧
    (∃ (s : State) (ref : CmdRef) (slot : BitVec 8) (key : BitVec 256), s.takes ref 0x0505 ∧ slot = 0 ∧ s.rdb
      F.SEC_CTRL.FUSE_EN = true ∧ s.rdb F.CFG_FUSE.KEY0_PROG = false ∧ s.sec.fuseOp = none) ∧
    (∃ (s : State) (ref : CmdRef) (ofs len : BitVec 32) (part : BitVec 8) (addr : BitVec 64), s.takes ref 0x0504 ∧ ofs.toNat %
      2 ^ 16 = 0 ∧ flashProtected ofs.toNat len.toNat = true) ∧
    (∃ (s : State) (ref : CmdRef) (ofs len : BitVec 32) (part : BitVec 8) (addr : BitVec 64), s.takes ref 0x0504 ∧ ofs.toNat %
      2 ^ 16 = 0 ∧ flashProtected ofs.toNat len.toNat = false ∧ s.sec.flashOp = none ∧ (∀ l, s.ela.load = some l → l.src ≠ 3)) ∧
    (∃ (s : State) (o : FlashOp) (ok : Bool), s.alive = true ∧ s.sec.flashOp = some o ∧ o.kind = 2 ∧ 0 < o.len) ∧
    (∃ (s : State) (v : BitVec 8) (w : BitVec 5) (i : Fin 72), s.alive = true ∧ s.rdb F.CFG_SPG_CTRL.EN = true ∧
      (let far := s.rd F.CFG_SPG_POS.FAR; (∀ w, w < 32 → s.flip (32 * far + w) = 0) ∧ s.scope (s.frameScope far) =
      scConfigured ∧ (64 ≤ i.val ∨ (s.essential (32 * far + w.toNat)).getLsbD i.val = false))) :=
  ⟨⟨rdy, ref0, 2, 0,
     by unfold State.takes; decide +kernel⟩,
   ⟨rdy, ref0, 1, 2^255,
     by unfold State.takes; decide +kernel⟩,
   ⟨rdy.wr F.SEC_CTRL.FUSE_EN 1, ref0, 0, 5,
     by unfold State.takes; decide +kernel⟩,
   ⟨rdy, ref0, 0, 0, 0, 0,
     by unfold State.takes; decide +kernel⟩,
   ⟨rdy, ref0, 0x400000, 1, 0, 0,
     by unfold State.takes; decide +kernel⟩,
   ⟨(rdy.flashProgram 0x42FFFF [1,2]).setSec { (rdy.flashProgram 0x42FFFF [1,2]).sec with flashOp := some ⟨none, 2, 0x430000, 1, [], 0, false, 0, 0⟩ },
     ⟨none, 2, 0x430000, 1, [], 0, false, 0, 0⟩, true,
     by decide +kernel⟩,
   ⟨arr 3, 0, 31, 71,
     by decide +kernel⟩⟩

/-- The hypotheses of ArithmeticWritesItsResult (O36) are met. -/
theorem test_met_ArithmeticWritesItsResult :
    (∃ row, ∃ (s : State) (core : BitVec 6) (b : Bundle), row ∈ rowsR3 ++ rowsRI ∧ s.executes core.toNat row.opc b row.op ∧
      (let n := core.toNat; (let sr := (s.core n).val rSR; row.test = false))) :=
  ⟨(rowsR3[0]'(by decide)), core0 0x01 (bd 795136) [(1, rv 0x80008000), (2, rv 0x7FFFFFFF)], 0, bd 795136,
    by refine ⟨List.mem_append_left _ (List.getElem_mem _), ?_⟩; unfold State.executes State.atBundle; decide +kernel⟩

/-- The hypotheses of FlagsFollowTheResult (O37) are met. -/
theorem test_met_FlagsFollowTheResult :
    (∃ row, ∃ (s : State) (core : BitVec 6) (b : Bundle), row ∈ rowsR3 ++ rowsRI ∧ s.executes core.toNat row.opc b row.op ∧
      rSR ∉ moveWrites s core.toNat b) :=
  ⟨(rowsR3[0]'(by decide)), core0 0x01 (bd 795136) [(1, rv 0x80008000), (2, rv 0x7FFFFFFF)], 0, bd 795136,
    by refine ⟨List.mem_append_left _ (List.getElem_mem _), ?_⟩; unfold State.executes State.atBundle; decide +kernel⟩

/-- The hypotheses of AccumulationIsExactAndFitted (O38) are met. -/
theorem test_met_AccumulationIsExactAndFitted :
    (∃ row, ∃ (s : State) (core : BitVec 6) (b : Bundle), row ∈ ([(Instr.opQmac, 0x40, opQmac), (.opCmac, 0x41, opCmac),
      (.opDmac, 0x43, opDmac)] : List ((BitVec 6 → Bundle → Instr) × Nat × (OpCtx → Fx))) ∧ s.executes core.toNat row.2.1 b
      row.2.2) ∧
    (∃ (s : State) (core : BitVec 6) (b : Bundle), s.executes core.toNat 0x42 b opWmac) :=
  ⟨⟨(Instr.opQmac, 0x40, opQmac), core0 0x40 (bd 0) [], 0, bd 0,
     by refine ⟨List.mem_cons_self, ?_⟩; unfold State.executes State.atBundle; decide +kernel⟩,
   ⟨core0 0x42 (bd 0) [], 0, bd 0,
     by unfold State.executes State.atBundle; decide +kernel⟩⟩

/-- The hypotheses of AccumulatorsShiftAndExtract (O39), part `accumulatorsShiftAndNormalise`, are met. -/
theorem test_met_accumulatorsShiftAndNormalise :
    (∃ (s : State) (core : BitVec 6) (b : Bundle), s.executes core.toNat 0x48 b opAclr) ∧
    (∃ (s : State) (core : BitVec 6) (b : Bundle), s.executes core.toNat 0x49 b opAadd ∧ (let n := core.toNat;
      (let x := (s.bundleStart n).bundleCtx n b;
      (let sum := accVal (s.core n) x.ac.k + (if x.ac.sub then -accVal (s.core n) x.ac.j else accVal (s.core n) x.ac.j); ¬
      fitsIn 48 sum)))) ∧
    (∃ (s : State) (core : BitVec 6) (b : Bundle), s.executes core.toNat 0x4A b opAsh) ∧
    (∃ (s : State) (core : BitVec 6) (b : Bundle), s.executes core.toNat 0x4B b opAld) ∧
    (∃ (s : State) (core : BitVec 6) (b : Bundle), s.executes core.toNat 0x4C b opNorm) ∧
    (∃ (s : State) (core : BitVec 6) (b : Bundle), s.executes core.toNat 0x4D b opExp ∧ (let n := core.toNat;
      (let d := bits b.opf.toNat 21 18; (let x := (s.bundleStart n).bundleCtx n b; bits b.opf.toNat 15 14 = 0)))) ∧
    (∃ (s : State) (core : BitVec 6) (b : Bundle), s.executes core.toNat 0x4E b opBexp) :=
  ⟨⟨core0 0x48 (bd 0) [], 0, bd 0,
     by unfold State.executes State.atBundle; decide +kernel⟩,
   ⟨core0 0x49 (bd 0) [(40, rv 0x7FFFFFFFFFFF)], 0, bd 0,
     by unfold fitsIn State.executes State.atBundle; decide +kernel⟩,
   ⟨core0 0x4A (bd 0) [], 0, bd 0,
     by unfold State.executes State.atBundle; decide +kernel⟩,
   ⟨core0 0x4B (bd 0) [], 0, bd 0,
     by unfold State.executes State.atBundle; decide +kernel⟩,
   ⟨core0 0x4C (bd 0) [], 0, bd 0,
     by unfold State.executes State.atBundle; decide +kernel⟩,
   ⟨core0 0x4D (bd 0) [], 0, bd 0,
     by unfold State.executes State.atBundle; decide +kernel⟩,
   ⟨core0 0x4E (bd 0) [], 0, bd 0,
     by unfold State.executes State.atBundle; decide +kernel⟩⟩

/-- The hypotheses of AccumulatorsShiftAndExtract (O39), part `extractionRoundsAndSaturates`, are met. -/
theorem test_met_extractionRoundsAndSaturates :
    (∃ (s : State) (core : BitVec 6) (b : Bundle), s.executes core.toNat 0x50 b opExt16 ∧ (let n := core.toNat;
      (let x := (s.bundleStart n).bundleCtx n b; (let d := bits b.opf.toNat 21 18;
      (let q (k : Nat) : Int := roundedAt 16 x.rnd (sint 48 ((s.core n).seen (40 + k)).v.toNat);
      (let h (k : Nat) : BitVec 16 := BitVec.ofInt 16 (if x.sat then clampTo 16 (q k) else q k);
      (let k := bits b.opf.toNat 17 16; (let old := BitVec.ofNat 32 ((s.core n).val d); x.sat = true ∧ clampTo 16 (q k) ≠ q
      k)))))))) ∧
    (∃ (s : State) (core : BitVec 6) (b : Bundle), s.executes core.toNat 0x51 b opExt32 ∧ (let n := core.toNat;
      (let x := (s.bundleStart n).bundleCtx n b; (let d := bits b.opf.toNat 21 18;
      (let a := sint 48 ((s.core n).seen (40 + bits b.opf.toNat 17 16)).v.toNat; x.sat = true ∧ clampTo 32 a ≠ a))))) ∧
    (∃ (s : State) (core : BitVec 6) (b : Bundle), s.executes core.toNat 0x52 b opExtp ∧ (let n := core.toNat;
      (let x := (s.bundleStart n).bundleCtx n b; (let d := bits b.opf.toNat 21 18; (let k := bits b.opf.toNat 17 16;
      (let q := roundedAt 32 x.rnd (pairVal ((s.core n).seen (40 + 2 * k)).v.toNat ((s.core n).seen (41 + 2 * k)).v.toNat);
      x.sat = true ∧ clampTo 32 q ≠ q)))))) :=
  ⟨⟨core0 0x50 (bd 0) [(40, rv 0x7FFFFFFFFFFF), (41, rv 0x7FFFFFFFFFFF), (51, rv 512)], 0, bd 0,
     by unfold State.executes State.atBundle; decide +kernel⟩,
   ⟨core0 0x51 (bd 0) [(40, rv 0x7FFFFFFFFFFF), (41, rv 0x7FFFFFFFFFFF), (51, rv 512)], 0, bd 0,
     by unfold State.executes State.atBundle; decide +kernel⟩,
   ⟨core0 0x52 (bd 0) [(40, rv 0x7FFFFFFFFFFF), (41, rv 0x7FFFFFFFFFFF), (51, rv 512)], 0, bd 0,
     by unfold State.executes State.atBundle; decide +kernel⟩⟩

/-- The hypotheses of MovesReachTheirRegister (O40) are met. -/
theorem test_met_MovesReachTheirRegister :
    (∃ (s : State) (core : BitVec 6) (b : Bundle), s.executes core.toNat 0 b (opNop 0)) ∧
    (∃ (s : State) (core : BitVec 6) (b : Bundle), s.executes core.toNat 0x30 b opMovi ∧ (let n := core.toNat;
      (let d := bits b.opf.toNat 21 18; (let imm : BitVec 16 := b.opf.setWidth 16; (let old := (s.core n).reg d; bits
      b.opf.toNat 17 16 = 0))))) ∧
    (∃ (s : State) (core : BitVec 6) (b : Bundle), s.executes core.toNat 0x30 b opMovi ∧ (let n := core.toNat;
      (let d := bits b.opf.toNat 21 18; (let imm : BitVec 16 := b.opf.setWidth 16; (let old := (s.core n).reg d; bits
      b.opf.toNat 17 16 = 1))))) ∧
    (∃ (s : State) (core : BitVec 6) (b : Bundle), s.executes core.toNat 0x30 b opMovi ∧ (let n := core.toNat;
      (let d := bits b.opf.toNat 21 18; (let imm : BitVec 16 := b.opf.setWidth 16; (let old := (s.core n).reg d; bits
      b.opf.toNat 17 16 = 2))))) ∧
    (∃ (s : State) (core : BitVec 6) (b : Bundle), s.executes core.toNat 0x31 b opMov ∧ (let n := core.toNat;
      (let d := bits b.opf.toNat 21 16; (let v := ((s.bundleStart n).core n).read (bits b.opf.toNat 15 10); d < 16)))) ∧
    (∃ (s : State) (core : BitVec 6) (b : Bundle), s.executes core.toNat 0x31 b opMov ∧ (let n := core.toNat;
      (let d := bits b.opf.toNat 21 16; (let v := ((s.bundleStart n).core n).read (bits b.opf.toNat 15 10); d < 40)))) ∧
    (∃ (s : State) (core : BitVec 6) (b : Bundle), s.executes core.toNat 0x32 b opSrbit ∧ (let n := core.toNat;
      (let k := bits b.opf.toNat 4 0; k ≠ 10 ∧ k ≠ 11))) ∧
    (∃ (y : Bool) (s : State) (core : BitVec 6) (b : Bundle), (let n := core.toNat; (let r := bits b.opf.toNat 21 16;
      (let w := bits b.opf.toNat 15 0 / 4; (let v := ((s.bundleStart n).core n).read r; s.executes n (if y then 0x36 else
      0x34) b (opLoadAbs y) ∧ r < 16))))) ∧
    (∃ (y : Bool) (s : State) (core : BitVec 6) (b : Bundle), (let n := core.toNat; (let r := bits b.opf.toNat 21 16;
      (let w := bits b.opf.toNat 15 0 / 4; (let v := ((s.bundleStart n).core n).read r; s.executes n (if y then 0x37 else
      0x35) b (opStoreAbs y)))))) :=
  ⟨⟨core0 0 (bd 0) [], 0, bd 0,
     by unfold State.executes State.atBundle; decide +kernel⟩,
   ⟨core0 0x30 (bd 0x1234) [], 0, bd 0x1234,
     by unfold State.executes State.atBundle; decide +kernel⟩,
   ⟨core0 0x30 (bd 0x11234) [], 0, bd 0x11234,
     by unfold State.executes State.atBundle; decide +kernel⟩,
   ⟨core0 0x30 (bd 0x21234) [], 0, bd 0x21234,
     by unfold State.executes State.atBundle; decide +kernel⟩,
   ⟨core0 0x31 (bd 0) [], 0, bd 0,
     by unfold State.executes State.atBundle; decide +kernel⟩,
   ⟨core0 0x31 (bd 0x100000) [], 0, bd 0x100000,
     by unfold State.executes State.atBundle; decide +kernel⟩,
   ⟨core0 0x32 (bd 0) [], 0, bd 0,
     by unfold State.executes State.atBundle; decide +kernel⟩,
   ⟨true, core0 0x36 (bd 0) [], 0, bd 0,
     by unfold State.executes State.atBundle; decide +kernel⟩,
   ⟨false, core0 0x35 (bd 0) [], 0, bd 0,
     by unfold State.executes State.atBundle; decide +kernel⟩⟩

/-- The hypotheses of ControlFlowGoesWhereItSays (O41) are met. -/
theorem test_met_ControlFlowGoesWhereItSays :
    (∃ row, ∃ (s : State) (core : BitVec 6) (b : Bundle), row ∈ branchRows ∧ s.executes core.toNat row.2.1 b row.2.2.1 ∧
      (let n := core.toNat; (let x := (s.bundleStart n).bundleCtx n b; (let calls := row.2.1 = 0x63 ∨ row.2.1 = 0x65; (s.core
      n).rep = 0 ∧ calls)))) ∧
    (∃ row, ∃ (s : State) (core : BitVec 6) (b : Bundle), row ∈ branchRows ∧ s.executes core.toNat row.2.1 b row.2.2.1 ∧
      (let n := core.toNat; (let x := (s.bundleStart n).bundleCtx n b; (let calls := row.2.1 = 0x63 ∨ row.2.1 = 0x65; (s.core
      n).rep = 0 ∧ ¬ calls)))) ∧
    (∃ row, ∃ (s : State) (core : BitVec 6) (b : Bundle), row ∈ ([(Instr.opLoopi, 0x68, opLoopi, fun x => bits x.opf 21 13),
      (.opLoopd, 0x69, opLoopd, fun x => (x.dReg (bits x.opf 21 18)).1)] : List ((BitVec 6 → Bundle → Instr) × Nat × (OpCtx →
      Fx) × (OpCtx → Nat))) ∧ s.executes core.toNat row.2.1 b row.2.2.1 ∧ (let n := core.toNat;
      (let x := (s.bundleStart n).bundleCtx n b; (let count := row.2.2.2 x; (let e := bits b.opf.toNat 12 0; (s.core n).rep =
      0 ∧ (s.core n).br = none ∧ ((s.core n).seen rLC).v = 0))))) ∧
    (∃ row, ∃ (s : State) (core : BitVec 6) (b : Bundle), row ∈ ([(Instr.opRepi, 0x6A, opRepi, fun x => bits x.opf 12 0),
      (.opRepd, 0x6B, opRepd, fun x => (x.dReg (bits x.opf 21 18)).1)] : List ((BitVec 6 → Bundle → Instr) × Nat × (OpCtx →
      Fx) × (OpCtx → Nat))) ∧ s.executes core.toNat row.2.1 b row.2.2.1 ∧ (let n := core.toNat;
      (let x := (s.bundleStart n).bundleCtx n b; (let count := row.2.2.2 x; (s.core n).rep = 0)))) :=
  ⟨⟨(branchRows[3]'(by decide)), core0 0x63 (bd 0) [], 0, bd 0,
     by refine ⟨List.getElem_mem _, ?_⟩; unfold State.executes State.atBundle; decide +kernel⟩,
   ⟨(branchRows[0]'(by decide)), core0 0x60 (bd 0) [], 0, bd 0,
     by refine ⟨List.getElem_mem _, ?_⟩; unfold State.executes State.atBundle; decide +kernel⟩,
   ⟨(Instr.opLoopi, 0x68, opLoopi, fun x => bits x.opf 21 13), core0 0x68 (bd 24581) [], 0, bd 24581,
     by refine ⟨List.mem_cons_self, ?_⟩; unfold State.executes State.atBundle; decide +kernel⟩,
   ⟨(Instr.opRepi, 0x6A, opRepi, fun x => bits x.opf 12 0), core0 0x6A (bd 0) [], 0, bd 0,
     by refine ⟨List.mem_cons_self, ?_⟩; unfold State.executes State.atBundle; decide +kernel⟩⟩

/-- The hypotheses of SystemAndHubBundlesTakeEffect (O42), part `systemBundlesChangeMode`, are met. -/
theorem test_met_systemBundlesChangeMode :
    (∃ (s : State) (core : BitVec 6) (b : Bundle), s.executes core.toNat 0x70 b opTrap ∧ (let n := core.toNat; goesOnNext s
      n)) ∧
    (∃ (s : State) (core : BitVec 6) (b : Bundle), s.executes core.toNat 0x71 b opScall ∧ (let n := core.toNat; goesOnNext s
      n)) ∧
    (∃ row, ∃ (s : State) (core : BitVec 6) (b : Bundle), row ∈ ([(Instr.opSret, 0x72, opSret), (.opRti, 0x73, opRti)] : List
      ((BitVec 6 → Bundle → Instr) × Nat × (OpCtx → Fx))) ∧ s.executes core.toNat row.2.1 b row.2.2 ∧ (let n := core.toNat;
      (s.core n).rep = 0)) ∧
    (∃ (s : State) (core : BitVec 6) (b : Bundle) (target mode : Nat) (sr : CReg), s.executes core.toNat 0 b (opNop 0) ∧
      (let n := core.toNat; (s.core n).rep = 0 ∧ (s.core n).br = some (1, target) ∧ (s.core n).back = some (sr, mode) ∧ mode <
      4)) ∧
    (∃ (s : State) (core : BitVec 6) (b : Bundle), s.executes core.toNat 0x74 b opWait) :=
  ⟨⟨core0 0x70 (bd 0) [(51, rv 0)], 0, bd 0,
     by unfold goesOnNext State.executes State.atBundle; decide +kernel⟩,
   ⟨core0 0x71 (bd 0) [] |>.wr F.SC_SEC.PAGES 0x80, 0, bd 0,
     by unfold goesOnNext State.executes State.atBundle; decide +kernel⟩,
   ⟨(Instr.opSret, 0x72, opSret), core0 0x72 (bd 0) [(53, rv 2)], 0, bd 0,
     by refine ⟨List.mem_cons_self, ?_⟩; unfold State.executes State.atBundle; decide +kernel⟩,
   ⟨(core0 0 (bd 0) []).setCore 0 { (core0 0 (bd 0) []).core 0 with br := some (1, 5), back := some (rv 7, 2) }, 0, bd 0, 5,
     2, rv 7,
     by unfold State.executes State.atBundle; decide +kernel⟩,
   ⟨core0 0x74 (bd 0) [], 0, bd 0,
     by unfold State.executes State.atBundle; decide +kernel⟩⟩

/-- The hypotheses of SystemAndHubBundlesTakeEffect (O42), part `hubOperationsQueueAndBlock`, are met. -/
theorem test_met_hubOperationsQueueAndBlock :
    (∃ (s : State) (core : BitVec 6) (b : Bundle), (let n := core.toNat; s.atBundle n 0x78 b ∧ b.opf = 0 ∧ b.xmv = 0 ∧ b.ymv =
      0 ∧ (s.core n).br = none ∧ s.rdb F.SC_STATUS.TASK n = false)) ∧
    (∃ (s : State) (core : BitVec 6) (b : Bundle), (let n := core.toNat; s.atBundle n 0x7A b ∧ bits b.opf.toNat 17 3 = 0 ∧
      b.xmv = 0 ∧ b.ymv = 0 ∧ (s.core n).br = none)) ∧
    (∃ (s : State) (core : BitVec 6) (b : Bundle), s.executes core.toNat 0x75 b opSwi ∧ (s.core core.toNat).hub = []) ∧
    (∃ (s : State) (core : BitVec 6) (b : Bundle), s.executes core.toNat 0x79 b opDone ∧ (let n := core.toNat; s.openTask n =
      none)) ∧
    (∃ (s : State) (core : BitVec 6) (b : Bundle), s.executes core.toNat 0x7B b opFree ∧ (let n := core.toNat;
      (let d := (s.core n).val (bits b.opf.toNat 21 18) % 2 ^ 32; (s.core n).hub = []))) ∧
    (∃ (s : State) (core : BitVec 6) (b : Bundle), s.executes core.toNat 0x7C b opXfer) ∧
    (∃ (s : State) (core : BitVec 6) (b : Bundle), s.executes core.toNat 0x7D b opXwait) :=
  ⟨⟨core0 0x78 (bd 0) [], 0, bd 0,
     by unfold State.atBundle; decide +kernel⟩,
   ⟨core0 0x7A (bd 0x40000) [], 0, bd 0x40000,
     by unfold State.atBundle; decide +kernel⟩,
   ⟨core0 0x75 (bd 0) [], 0, bd 0,
     by unfold State.executes State.atBundle; decide +kernel⟩,
   ⟨(core0 0x79 (bd 0) []).wr F.SC_STATUS.TASK 1, 0, bd 0,
     by unfold State.executes State.atBundle; decide +kernel⟩,
   ⟨core0 0x7B (bd 0) [], 0, bd 0,
     by unfold State.executes State.atBundle; decide +kernel⟩,
   ⟨core0 0x7C (bd 0x48000) [(1, rv 64), (2, rv 16)], 0, bd 0x48000,
     by unfold State.executes State.atBundle; decide +kernel⟩,
   ⟨core0 0x7D (bd 0) [], 0, bd 0,
     by unfold State.executes State.atBundle; decide +kernel⟩⟩

/-- The hypotheses of BundlesRunOrRaise (O43) are met. -/
theorem test_met_BundlesRunOrRaise :
    (∃ row, ∃ (s : State) (core : BitVec 6) (b : Bundle), row ∈ arithmeticOps ++ otherOps ∧ (let n := core.toNat;
      (let faults := (s.bundleStart n).bundleFaults n row.2.1 b (s.effect n b row.2.2); s.executes n row.2.1 b row.2.2))) ∧
    (∃ row, ∃ (s : State) (core : BitVec 6) (b : Bundle), row ∈ arithmeticOps ++ otherOps ∧ (let n := core.toNat;
      (let faults := (s.bundleStart n).bundleFaults n row.2.1 b (s.effect n b row.2.2); s.coreReady n = false))) ∧
    (∃ row, ∃ (s : State) (core : BitVec 6) (b : Bundle), row ∈ arithmeticOps ++ otherOps ∧ (let n := core.toNat;
      (let faults := (s.bundleStart n).bundleFaults n row.2.1 b (s.effect n b row.2.2); s.pageValid n = true ∧ s.pageDenied n
      = false ∧ s.fetches n (bundleWord row.2.1 b) = false))) ∧
    (∃ row, ∃ (s : State) (core : BitVec 6) (b : Bundle), ∃ cause, row ∈ arithmeticOps ++ otherOps ∧ (let n := core.toNat;
      (let faults := (s.bundleStart n).bundleFaults n row.2.1 b (s.effect n b row.2.2); ((s.atBundle n row.2.1 b ∧ firstFault
      faults = some cause) ∨ (s.coreReady n = true ∧ s.pageValid n = false ∧ cause = xPAGE) ∨ (s.coreReady n = true ∧
      s.pageValid n = true ∧ s.pageDenied n = true ∧ cause = xSECURITY)) ∧ bit ((s.core n).val rSR) 13 = false ∧ (s.core n).xq
      = []))) ∧
    (∃ row, ∃ (s : State) (core : BitVec 6) (b : Bundle), ∃ cause, row ∈ arithmeticOps ++ otherOps ∧ (let n := core.toNat;
      (let faults := (s.bundleStart n).bundleFaults n row.2.1 b (s.effect n b row.2.2); ((s.atBundle n row.2.1 b ∧ firstFault
      faults = some cause) ∨ (s.coreReady n = true ∧ s.pageValid n = false ∧ cause = xPAGE) ∨ (s.coreReady n = true ∧
      s.pageValid n = true ∧ s.pageDenied n = true ∧ cause = xSECURITY)) ∧ bit ((s.core n).val rSR) 13 = true))) :=
  ⟨⟨(Instr.opAdd, 0x01, opAdd), core0 0x01 (bd 0) [], 0, bd 0,
     by refine ⟨List.mem_cons_self, ?_⟩; unfold State.executes State.atBundle; decide +kernel⟩,
   ⟨(Instr.opAdd, 0x01, opAdd), rdy, 0, bd 0,
     by refine ⟨List.mem_cons_self, ?_⟩; decide +kernel⟩,
   ⟨(Instr.opAdd, 0x01, opAdd), core0 0x01 (bd 0) [], 0, bd 1,
     by refine ⟨List.mem_cons_self, ?_⟩; decide +kernel⟩,
   ⟨(Instr.opAdd, 0x01, opAdd), (core0 0x01 (bd 0) [(51, rv 0)]).wr F.SC_STATUS.VALID 0, 0, bd 0, xPAGE,
     by refine ⟨List.mem_cons_self, ?_⟩; unfold State.atBundle; decide +kernel⟩,
   ⟨(Instr.opAdd, 0x01, opAdd), (core0 0x01 (bd 0) [(51, rv 8192)]).wr F.SC_STATUS.VALID 0, 0, bd 0, xPAGE,
     by refine ⟨List.mem_cons_self, ?_⟩; unfold State.atBundle; decide +kernel⟩⟩

/-- The hypotheses of CoreEventsAreTaken (O44) are met. -/
theorem test_met_CoreEventsAreTaken :
    (∃ (s : State) (core : BitVec 6), ∃ k, (let n := core.toNat; s.atBoundary n = true ∧ s.lineQualifies n = some k)) ∧
    (∃ (s : State) (core : BitVec 6), (let n := core.toNat; (s.atBoundary n = false ∨ s.lineQualifies n = none))) ∧
    (∃ (s : State) (core : BitVec 6), (let n := core.toNat; s.atBoundary n = true ∧ (s.core n).xferExc = true ∧ bit ((s.core
      n).val rSR) 13 = false)) ∧
    (∃ (s : State) (core : BitVec 6), (let n := core.toNat; s.atBoundary n = true ∧ (s.core n).halting = true)) ∧
    (∃ (s : State) (core : BitVec 6), (let n := core.toNat; (s.core n).halting = false)) ∧
    (∃ (s : State) (core : BitVec 6), (let n := core.toNat; s.hostOpen = true)) ∧
    (∃ (s : State) (h : BitVec 4), s.alive = true ∧ s.ela.hubRise.getLsbD h.toNat = true) ∧
    (∃ (s : State) (h : BitVec 4), s.alive = true ∧ s.ela.hubRise.getLsbD h.toNat = false) ∧
    (∃ (s : State) (core : BitVec 6) (x : Xfer) (l : List Xfer), s.alive = true ∧ (let n := core.toNat; (s.core n).xq = x :: l
      ∧ x.toFar = false ∧ x.far < windowBase ∧ x.secure = true ∧ s.memWaits (reqCore n) (x.far * 16) x.len = false ∧
      (let r := s.memRead (reqCore n) (x.far * 16 + x.done) (x.len - x.done); x.irq = true))) ∧
    (∃ (s : State) (core : BitVec 6), s.alive = true ∧ (s.core core.toNat).xq = []) ∧
    (∃ (s : State) (core : BitVec 6) (p : Nat), s.alive = true ∧ (let n := core.toNat; (s.core n).alloc = some p)) ∧
    (∃ (s : State) (core : BitVec 6) (a k : Nat), s.alive = true ∧ (let n := core.toNat; (s.core n).hub = [.free a false k] ∧
      s.poolReject k a false = none)) ∧
    (∃ (s : State) (core : BitVec 6) (a k : Nat), s.alive = true ∧ (let n := core.toNat; (s.core n).hub = [.free a false k] ∧
      s.poolReject k a false ≠ none ∧ s.recovery = false)) :=
  ⟨⟨fs (core0 0 (bd 0) [(51, rv 0xF001000)]) [(F.SC_IRQ_PEND.PEND, 0xC, 0)], 0, 2,
     by decide +kernel⟩,
   ⟨core0 0 (bd 0) [(51, rv 0)], 0,
     by decide +kernel⟩,
   ⟨(core0 0 (bd 0) [(51, rv 0)]).setCore 0 { (core0 0 (bd 0) [(51, rv 0)]).core 0 with xferExc := true, halting := true }, 0,
     by decide +kernel⟩,
   ⟨(core0 0 (bd 0) [(51, rv 0)]).setCore 0 { (core0 0 (bd 0) [(51, rv 0)]).core 0 with xferExc := true, halting := true }, 0,
     by decide +kernel⟩,
   ⟨fs (core0 0 (bd 0) [(51, rv 0xF001000)]) [(F.SC_IRQ_PEND.PEND, 0xC, 0)], 0,
     by decide +kernel⟩,
   ⟨fs (core0 0 (bd 0) [(51, rv 0xF001000)]) [(F.SC_IRQ_PEND.PEND, 0xC, 0)], 0,
     by decide +kernel⟩,
   ⟨elaOf (core0 0 (bd 0) []) fun e => { e with hubRise := 1 }, 0,
     by decide +kernel⟩,
   ⟨fs (core0 0 (bd 0) [(51, rv 0xF001000)]) [(F.SC_IRQ_PEND.PEND, 0xC, 0)], 0,
     by decide +kernel⟩,
   ⟨xq1 (dsp0 1 []) (xfer1 false 1 16), 0, xfer1 false 1 16, [],
     by decide +kernel⟩,
   ⟨fs (core0 0 (bd 0) [(51, rv 0xF001000)]) [(F.SC_IRQ_PEND.PEND, 0xC, 0)], 0,
     by decide +kernel⟩,
   ⟨(pool0.poolEnable 0 true).setCore 0 { pool0.core 0 with alloc := some 0 }, 0, 0,
     by decide +kernel⟩,
   ⟨((pool0.poolEnable 0 true).setPool 0 []).setCore 0 { pool0.core 0 with hub := [.free 0 false 0] }, 0, 0, 0,
     by decide +kernel⟩,
   ⟨(pool0.poolEnable 0 true).setCore 0 { pool0.core 0 with hub := [.free 16 false 0] }, 0, 16, 0,
     by decide +kernel⟩⟩

/-- The hypotheses of SubmissionsAreAccepted (O45) are met. -/
theorem test_met_SubmissionsAreAccepted :
    (∃ (s : State) (ref : CmdRef) (desc : List Byte), s.takes ref 0x0701 ∧ (let u := s.accept ref 0x0701;
      (let k := taskOf (.host ref) (padTo 64 desc); u.descOk k (padTo 64 desc) = true ∧ u.hasRoom k.flow = true))) ∧
    (∃ (s : State) (ref : CmdRef) (desc : List Byte), s.takes ref 0x0701 ∧ (let u := s.accept ref 0x0701;
      (let k := taskOf (.host ref) (padTo 64 desc); u.descOk k (padTo 64 desc) = false))) ∧
    (∃ (s : State) (ref : CmdRef) (desc : List Byte), s.takes ref 0x0701 ∧ (let u := s.accept ref 0x0701;
      (let k := taskOf (.host ref) (padTo 64 desc); u.descOk k (padTo 64 desc) = true ∧ u.hasRoom k.flow = false))) ∧
    (∃ (s u : State) (core : BitVec 6) (x : Xfer) (d : List PByte), s.windowTake core.toNat 0xFFFF0000 (2 ^ 32) 64 = some (x,
      d, u) ∧ poisoned d = false ∧ (let k := taskOf (.core core.toNat) (plain d); u.descOk k (plain d) = true ∧ u.hasRoom
      k.flow = true)) ∧
    (∃ (s u : State) (core : BitVec 6) (x : Xfer) (d : List PByte), s.windowTake core.toNat 0xFFFF0000 (2 ^ 32) 64 = some (x,
      d, u) ∧ poisoned d = false ∧ (let k := taskOf (.core core.toNat) (plain d); (u.descOk k (plain d) = false ∨ u.hasRoom
      k.flow = false))) ∧
    (∃ (s : State) (d : BitVec 4), s.alive = true ∧
      (let v := s.setEla { s.ela with hubRise := s.ela.hubRise &&& ~~~(BitVec.ofNat 32 (2 ^ (16 + d.toNat))) };
      (let f := v.fetchDesc (s.rd F.DSP_PROD.TEMPLATE (336 + d.toNat) * 4); (let k := taskOf (.entry (336 + d.toNat)) f.1;
      s.ela.hubRise.getLsbD (16 + d.toNat) = false)))) ∧
    (∃ (s : State) (d : BitVec 4), s.alive = true ∧
      (let v := s.setEla { s.ela with hubRise := s.ela.hubRise &&& ~~~(BitVec.ofNat 32 (2 ^ (16 + d.toNat))) };
      (let f := v.fetchDesc (s.rd F.DSP_PROD.TEMPLATE (336 + d.toNat) * 4); (let k := taskOf (.entry (336 + d.toNat)) f.1;
      s.ela.hubRise.getLsbD (16 + d.toNat) = true ∧ s.rdb F.DSP_PROD.EN (336 + d.toNat) = false)))) ∧
    (∃ (s : State) (d : BitVec 4), s.alive = true ∧
      (let v := s.setEla { s.ela with hubRise := s.ela.hubRise &&& ~~~(BitVec.ofNat 32 (2 ^ (16 + d.toNat))) };
      (let f := v.fetchDesc (s.rd F.DSP_PROD.TEMPLATE (336 + d.toNat) * 4); (let k := taskOf (.entry (336 + d.toNat)) f.1;
      s.ela.hubRise.getLsbD (16 + d.toNat) = true ∧ s.rdb F.DSP_PROD.EN (336 + d.toNat) = true ∧ f.2.1 = false ∧ f.2.2.descOk
      k f.1 = true ∧ f.2.2.hasRoom k.flow = true)))) ∧
    (∃ (s : State) (d : BitVec 4), s.alive = true ∧
      (let v := s.setEla { s.ela with hubRise := s.ela.hubRise &&& ~~~(BitVec.ofNat 32 (2 ^ (16 + d.toNat))) };
      (let f := v.fetchDesc (s.rd F.DSP_PROD.TEMPLATE (336 + d.toNat) * 4); (let k := taskOf (.entry (336 + d.toNat)) f.1;
      s.ela.hubRise.getLsbD (16 + d.toNat) = true ∧ s.rdb F.DSP_PROD.EN (336 + d.toNat) = true ∧ f.2.1 = false ∧ (f.2.2.descOk
      k f.1 = false ∨ f.2.2.hasRoom k.flow = false))))) :=
  ⟨⟨dsp0 2 [], ref0, desc1,
     by unfold State.takes; decide +kernel⟩,
   ⟨dsp0 2 [], ref0, [2],
     by unfold State.takes; decide +kernel⟩,
   ⟨(dsp0 2 []).setDsp { tasks := (List.range 256).map fun k => { task1 with slot := k } }, ref0, [1],
     by unfold State.takes; decide +kernel⟩,
   ⟨xq1 ((dsp0 1 []).setCore 0 { (dsp0 1 []).core 0 with x := [(0, ⟨1, false⟩)] }) (xfer1 true 0xFFFF0000 64),
     (((xq1 ((dsp0 1 []).setCore 0 { (dsp0 1 []).core 0 with x := [(0, ⟨1, false⟩)] }) (xfer1 true 0xFFFF0000 64)).windowTake 0 0xFFFF0000 (2 ^ 32) 64).get (by decide)).2.2,
     0, xfer1 true 0xFFFF0000 64, (1, false) :: ((List.range 63).map fun _ => (0, false)),
     by decide +kernel⟩,
   ⟨xq1 (dsp0 1 []) (xfer1 true 0xFFFF0000 64), (((xq1 (dsp0 1 []) (xfer1 true 0xFFFF0000 64)).windowTake 0 0xFFFF0000 (2 ^
     32) 64).get (by decide)).2.2, 0, xfer1 true 0xFFFF0000 64, (List.range 64).map fun _ => (0, false),
     by decide +kernel⟩,
   ⟨dsp0 2 [], 0,
     by decide +kernel⟩,
   ⟨elaOf (rdy) fun e => { e with hubRise := 0x10000 }, 0,
     by decide +kernel⟩,
   ⟨elaOf ((((dsp0 2 []).wr F.DSP_PROD.EN 1 336).wr F.DSP_PROD.TEMPLATE 4 336).hbmPut 256 desc1) fun e => { e with hubRise := 0x10000 },
     0,
     by decide +kernel⟩,
   ⟨elaOf ((dsp0 2 []).wr F.DSP_PROD.EN 1 336) fun e => { e with hubRise := 0x10000 }, 0,
     by decide +kernel⟩⟩

/-- The hypotheses of GrantsFollowTheOrderOfReadyTasks (O46) are met. -/
theorem test_met_GrantsFollowTheOrderOfReadyTasks :
    (∃ (s : State), s.alive = true ∧ (∀ k ∈ s.readyTasks, s.chooseCore k (s.objOf k.code) = none)) ∧
    (∃ (s : State) (l : List Task) (k : Task) (r : List Task) (n : Nat), s.alive = true ∧ s.readyTasks = l ++ k :: r ∧ (∀ x ∈
      l, s.chooseCore x (s.objOf x.code) = none) ∧ s.chooseCore k (s.objOf k.code) = some n ∧ s.missing n k.code (s.objOf
      k.code) ≠ []) ∧
    (∃ (s : State) (n : Nat) (k : Task) (o : CodeObj), n < 64) ∧
    (∃ (s : State) (core : BitVec 6) (k : Task) (p : Nat) (l : List Nat), s.alive = true ∧ (s.dsp.tasks.find? fun t => t.core
      == core.toNat && t.phase == .loading) = some k ∧ (let n := core.toNat; (let o := s.objOf k.code;
      (let r := s.loadPage n p k.code o; (let t := r.2.sat F.DSP_CORE_PMISS.COUNT n; s.missing n k.code o = p :: l ∧ p < 8 ∧
      s.pageWaits k.code p = false ∧ s.eligible n k.code o = true ∧ r.1 = true ∧ l ≠ []))))) ∧
    (∃ (s : State) (core : BitVec 6) (k : Task) (p : Nat) (l : List Nat), s.alive = true ∧ (s.dsp.tasks.find? fun t => t.core
      == core.toNat && t.phase == .loading) = some k ∧ (let n := core.toNat; (let o := s.objOf k.code;
      (let r := s.loadPage n p k.code o; (let t := r.2.sat F.DSP_CORE_PMISS.COUNT n; s.missing n k.code o = p :: l ∧ p < 8 ∧
      s.pageWaits k.code p = false ∧ s.eligible n k.code o = true ∧ r.1 = true ∧ l = []))))) :=
  ⟨⟨dsp0 2 [],
     by decide +kernel⟩,
   ⟨dsp0 2 [task1], [], task1, [], 0,
     by decide +kernel⟩,
   ⟨dsp0 2 [task1], 0, task1, ⟨512, 0, 1, false, 3⟩,
     by decide +kernel⟩,
   ⟨(dsp0 2 [{ task1 with phase := .loading, core := 0 }]).hbmPut 20 [0x90], 0, { task1 with phase := .loading, core := 0 },
     0, [1],
     by decide +kernel⟩,
   ⟨dsp0 2 [{ task1 with phase := .loading, core := 0 }], 0, { task1 with phase := .loading, core := 0 }, 0, [],
     by decide +kernel⟩⟩

/-- The hypotheses of DispatcherCommandsComplete (O47) are met. -/
theorem test_met_DispatcherCommandsComplete :
    (∃ (s : State) (ref : CmdRef) (flow seq : BitVec 16), s.takes ref 0x0702 ∧ flow.toNat ≤ 511 ∧
      (let u := s.accept ref 0x0702; (let v := (u.cancelTask flow.toNat seq.toNat).2; (∀ k ∈ s.dsp.tasks, ¬ (k.flow =
      flow.toNat ∧ k.seq = seq.toNat))))) ∧
    (∃ (s : State) (ref : CmdRef) (flow seq : BitVec 16), ∃ k, s.takes ref 0x0702 ∧ flow.toNat ≤ 511 ∧
      (let u := s.accept ref 0x0702; (let v := (u.cancelTask flow.toNat seq.toNat).2; (s.dsp.tasks.find? fun k => k.flow ==
      flow.toNat && k.seq == seq.toNat) = some k ∧ k.phase = .queued))) ∧
    (∃ (s : State) (ref : CmdRef) (flow seq : BitVec 16), ∃ k, s.takes ref 0x0702 ∧ flow.toNat ≤ 511 ∧
      (let u := s.accept ref 0x0702; (let v := (u.cancelTask flow.toNat seq.toNat).2; (s.dsp.tasks.find? fun k => k.flow ==
      flow.toNat && k.seq == seq.toNat) = some k ∧ (k.phase = .running ∨ k.phase = .loading) ∧ k.core < 64))) ∧
    (∃ (s : State) (ref : CmdRef) (flow seq : BitVec 16), ∃ k, s.takes ref 0x0702 ∧ flow.toNat ≤ 511 ∧
      (let u := s.accept ref 0x0702; (let v := (u.cancelTask flow.toNat seq.toNat).2; (s.dsp.tasks.find? fun k => k.flow ==
      flow.toNat && k.seq == seq.toNat) = some k ∧ k.phase = .ended))) ∧
    (∃ (s : State) (tag : BitVec 32), s.bar0Open 0x80010 = true) ∧
    (∃ (s : State) (ref : CmdRef) (i : BitVec 16) (e : List Byte), s.takes ref 0x0703 ∧ i.toNat ≤ 4095 ∧ (let d := padTo 16 e;
      (let u := s.accept ref 0x0703; (let o := codeObjOf d; fieldAt d 5 1 = 0 ∧ bits (fieldAt d 6 2) 15 13 = 0 ∧ fieldAt d 8 8
      = 0 ∧ (∃ k ∈ s.dsp.tasks, k.code = i.toNat))))) ∧
    (∃ (s : State) (ref : CmdRef) (i : BitVec 16) (e : List Byte), s.takes ref 0x0703 ∧ i.toNat ≤ 4095 ∧ (let d := padTo 16 e;
      (let u := s.accept ref 0x0703; (let o := codeObjOf d; fieldAt d 5 1 = 0 ∧ bits (fieldAt d 6 2) 15 13 = 0 ∧ fieldAt d 8 8
      = 0 ∧ (∀ k ∈ s.dsp.tasks, k.code ≠ i.toNat) ∧ u.objPages i.toNat = [] ∧ (8 < o.home + o.npages ∨ o.npages = 0 ∨ 4 <
      o.npages ∨ o.far % 512 ≠ 0))))) ∧
    (∃ (s : State) (ref : CmdRef) (i : BitVec 16) (e : List Byte), s.takes ref 0x0703 ∧ i.toNat ≤ 4095 ∧ (let d := padTo 16 e;
      (let u := s.accept ref 0x0703; (let o := codeObjOf d; fieldAt d 5 1 = 0 ∧ bits (fieldAt d 6 2) 15 13 = 0 ∧ fieldAt d 8 8
      = 0 ∧ (∀ k ∈ s.dsp.tasks, k.code ≠ i.toNat) ∧ u.objPages i.toNat = [] ∧ o.home + o.npages ≤ 8 ∧ o.npages ≠ 0 ∧ o.npages
      ≤ 4 ∧ o.far % 512 = 0 ∧ u.rdb F.SEC_FUSE_STAT.REQ_CODE = false ∧ o.secure = false ∧
      (let r := u.memRead reqPager (o.far * 16) (o.npages * 8192 + 256); fieldAt ((plain r.bytes).drop (o.npages * 8192)) 0 4
      ≠ 0x47495343))))) ∧
    (∃ (s : State) (ref : CmdRef) (i : BitVec 16) (m : BitVec 64), s.takes ref 0x0704 ∧ i.toNat ≤ 4095 ∧ m ≠ 0 ∧
      (let u := s.accept ref 0x0704;
      (let left := (maskBits 64 m.toNat).flatMap fun n => (u.missing n i.toNat (u.objOf i.toNat)).map fun k => (n, k);
      u.codeValid i.toNat = true ∧ (∀ n ∈ maskBits 64 m.toNat, u.eligible n i.toNat (u.objOf i.toNat) = true ∧ u.islandOff n =
      false) ∧ left = []))) ∧
    (∃ (s : State) (ref : CmdRef) (i : BitVec 16) (m : BitVec 64), s.takes ref 0x0704 ∧ i.toNat ≤ 4095 ∧ m ≠ 0 ∧
      (let u := s.accept ref 0x0704;
      (let left := (maskBits 64 m.toNat).flatMap fun n => (u.missing n i.toNat (u.objOf i.toNat)).map fun k => (n, k);
      u.codeValid i.toNat = true ∧ (∀ n ∈ maskBits 64 m.toNat, u.eligible n i.toNat (u.objOf i.toNat) = true ∧ u.islandOff n =
      false) ∧ left ≠ []))) ∧
    (∃ (s : State) (ref : CmdRef) (first : BitVec 16) (m : BitVec 64), s.takes ref 0x0705 ∧ first.toNat % 64 = 0 ∧ first.toNat
      ≤ 448 ∧
      (let hit (f : Nat) : Bool := decide (first.toNat ≤ f) && decide (f < first.toNat + 64) && m.getLsbD (f - first.toNat);
      (∃ k ∈ s.dsp.tasks, hit k.flow = true))) ∧
    (∃ (s : State) (ref : CmdRef) (first : BitVec 16) (m : BitVec 64), s.takes ref 0x0705 ∧ first.toNat % 64 = 0 ∧ first.toNat
      ≤ 448 ∧
      (let hit (f : Nat) : Bool := decide (first.toNat ≤ f) && decide (f < first.toNat + 64) && m.getLsbD (f - first.toNat);
      (∀ k ∈ s.dsp.tasks, hit k.flow = false))) ∧
    (∃ (s : State) (v : BitVec 32), s.bar0Open 0x89000 = true ∧ v.getLsbD 0 = true) ∧
    (∃ (s : State) (v : BitVec 32), s.bar0Open 0x89000 = true ∧ v.getLsbD 0 = false) :=
  ⟨⟨dsp0 2 [], ref0, 511, 0xFFFF,
     by unfold State.takes; decide +kernel⟩,
   ⟨dsp0 2 [taskS .queued], ref0, 0, 0, taskS .queued,
     by unfold State.takes; decide +kernel⟩,
   ⟨dsp0 2 [taskS .running], ref0, 0, 0, taskS .running,
     by unfold State.takes; decide +kernel⟩,
   ⟨dsp0 2 [taskS .ended], ref0, 0, 0, taskS .ended,
     by unfold State.takes; decide +kernel⟩,
   ⟨dsp0 2 [], 0,
     by decide +kernel⟩,
   ⟨dsp0 2 [taskS .ended], ref0, 1, [0,0,0,0,0x88],
     by unfold State.takes; decide +kernel⟩,
   ⟨dsp0 2 [], ref0, 0, [],
     by unfold State.takes; decide +kernel⟩,
   ⟨dsp0 2 [], ref0, 4095, [0,0,0,0,0x8F],
     by unfold State.takes; decide +kernel⟩,
   ⟨heldPage (dsp0 2 []), ref0, 1, 1,
     by unfold State.takes; decide +kernel⟩,
   ⟨dsp0 2 [], ref0, 1, 1,
     by unfold State.takes; decide +kernel⟩,
   ⟨dsp0 2 [taskS .ended], ref0, 0, 1,
     by unfold State.takes; decide +kernel⟩,
   ⟨dsp0 2 [], ref0, 0, 0,
     by unfold State.takes; decide +kernel⟩,
   ⟨rdy, 1,
     by decide +kernel⟩,
   ⟨dsp0 2 [], 0,
     by decide +kernel⟩⟩

/-- The hypotheses of BoundariesAndTimersFire (O48) are met. -/
theorem test_met_BoundariesAndTimersFire :
    (∃ (s : State) (domain : BitVec 4), s.alive = true ∧ (let d := domain.toNat;
      (let n := (s.now - s.boundary d 0) / s.domPeriod d; s.rdb F.RAD_DOM_CFG.EN d = true ∧ s.boundary d 0 ≤ s.now ∧ (∀ k,
      Sparse.find s.rad.doms d = some k → k < n) ∧ Sparse.get (fun _ => 0) s.rad.domAt d < s.boundary d n))) ∧
    (∃ (s : State) (domain : BitVec 4), s.alive = true ∧ (let d := domain.toNat;
      (let n := (s.now - s.boundary d 0) / s.domPeriod d; (s.rdb F.RAD_DOM_CFG.EN d = false ∨ s.now < s.boundary d 0 ∨
      Sparse.find s.rad.doms d = some n)))) ∧
    (∃ (s : State) (timer : BitVec 6), s.alive = true ∧ (let k := timer.toNat;
      (let key := k * 16 + s.rd F.RAD_TMR_CFG.DOMAIN k; s.timerNext k = none))) ∧
    (∃ (s : State) (timer : BitVec 6), ∃ f, s.alive = true ∧ (let k := timer.toNat;
      (let key := k * 16 + s.rd F.RAD_TMR_CFG.DOMAIN k; s.timerNext k = some f ∧ (s.rdb F.RAD_TMR_CFG.EN k = false ∨ (s.now :
      Int) < f.2)))) ∧
    (∃ (s : State) (timer : BitVec 6), ∃ f, s.alive = true ∧ (let k := timer.toNat;
      (let key := k * 16 + s.rd F.RAD_TMR_CFG.DOMAIN k; s.timerNext k = some f ∧ s.rdb F.RAD_TMR_CFG.EN k = true ∧ f.2 ≤
      (s.now : Int) ∧
      (let u := (s.setRad { s.rad with tmrs := Sparse.insert s.rad.tmrs key (f.1 :: s.tmrFired k) }).inc F.RAD_TMR_FIRES.COUNT k;
      s.rdb F.DSP_PROD.EN k = false)))) ∧
    (∃ (s : State) (timer : BitVec 6), ∃ f, s.alive = true ∧ (let k := timer.toNat;
      (let key := k * 16 + s.rd F.RAD_TMR_CFG.DOMAIN k; s.timerNext k = some f ∧ s.rdb F.RAD_TMR_CFG.EN k = true ∧ f.2 ≤
      (s.now : Int) ∧
      (let u := (s.setRad { s.rad with tmrs := Sparse.insert s.rad.tmrs key (f.1 :: s.tmrFired k) }).inc F.RAD_TMR_FIRES.COUNT k;
      s.rdb F.DSP_PROD.EN k = true ∧ (let g := u.fetchDesc (u.rd F.DSP_PROD.TEMPLATE k * 4);
      (let d := slice g.1 0 24 ++ leBytes 8 ((fieldAt g.1 24 8 + f.2.toNat) % 2 ^ 64) ++ slice g.1 32 32; g.2.1 = false ∧
      g.2.2.descOk (taskOf (.entry k) d) d = true ∧ g.2.2.hasRoom (taskOf (.entry k) d).flow = true)))))) :=
  ⟨⟨at' radio0 100, 0,
     by decide +kernel⟩,
   ⟨rdy, 15,
     by decide +kernel⟩,
   ⟨rdy, 0,
     by decide +kernel⟩,
   ⟨at' radio0 99, 0, (1, 100),
     by decide +kernel⟩,
   ⟨at' radio0 100, 0, (1, 100),
     by decide +kernel⟩,
   ⟨at' (fs radio0 [(F.DSP_PROD.EN,1,0),(F.DSP_PROD.TEMPLATE,4,0)]) 100 |>.hbmPut 256 desc1, 0, (1, 100),
     by decide +kernel⟩⟩

/-- The hypotheses of PacketsAndGroupsAreTransmitted (O49) are met. -/
theorem test_met_PacketsAndGroupsAreTransmitted :
    (∃ (s : State) (ref : CmdRef) (k : BitVec 8) (desc : List Byte), s.takes ref 0x0803 ∧ (let u := s.accept ref 0x0803; 63 <
      k.toNat)) ∧
    (∃ (s : State) (ref : CmdRef) (k : BitVec 8) (desc : List Byte), s.takes ref 0x0803 ∧ (let u := s.accept ref 0x0803;
      k.toNat ≤ 63 ∧ 16 ≤ (s.txQueue k.toNat).length)) ∧
    (∃ (s : State) (ref : CmdRef) (k : BitVec 8) (desc : List Byte), s.takes ref 0x0803 ∧ (let u := s.accept ref 0x0803;
      k.toNat ≤ 63 ∧ (s.txQueue k.toNat).length < 16)) ∧
    (∃ (s u : State) (core : BitVec 6) (x : Xfer) (d : List PByte), s.windowTake core.toNat 0xFFFE8000 0xFFFEC000 64 = some
      (x, d, u) ∧ (let k := (x.far + x.done / 16 - 0xFFFE8000) / 0x100; 16 ≤ (s.txQueue k).length)) ∧
    (∃ (s u : State) (core : BitVec 6) (x : Xfer) (d : List PByte), s.windowTake core.toNat 0xFFFE8000 0xFFFEC000 64 = some
      (x, d, u) ∧ (let k := (x.far + x.done / 16 - 0xFFFE8000) / 0x100; (s.txQueue k).length < 16)) ∧
    (∃ (s : State) (tx : BitVec 6) (j : Job) (l : List Job), s.alive = true ∧ (let k := tx.toNat;
      (let slot := s.rd F.RAD_TX_CFG.SLOT k; (let n := fieldAt j.desc 12 2; (let start := fieldAt j.desc 0 8;
      (let next := max (Sparse.get (fun _ => 0) s.rad.txEnd k) (max (s.slot slot).txM (s.bbAt slot (s.now + s.rd F.RAD_GLB_LEAD.LEAD)));
      (let asap := bit (fieldAt j.desc 14 1) 1; (let first := if asap then next else s.bbAt slot start; s.txQueue k = j :: l ∧
      Sparse.find s.rad.txNow k = none ∧ s.rdb F.RAD_TX_CFG.EN k = true ∧ j.poison = false ∧ (s.txProfile k).maxLen <
      n)))))))) ∧
    (∃ (s : State) (tx : BitVec 6) (j : Job) (l : List Job), s.alive = true ∧ (let k := tx.toNat;
      (let slot := s.rd F.RAD_TX_CFG.SLOT k; (let n := fieldAt j.desc 12 2; (let start := fieldAt j.desc 0 8;
      (let next := max (Sparse.get (fun _ => 0) s.rad.txEnd k) (max (s.slot slot).txM (s.bbAt slot (s.now + s.rd F.RAD_GLB_LEAD.LEAD)));
      (let asap := bit (fieldAt j.desc 14 1) 1; (let first := if asap then next else s.bbAt slot start; s.txQueue k = j :: l ∧
      Sparse.find s.rad.txNow k = none ∧ s.rdb F.RAD_TX_CFG.EN k = true ∧ j.poison = false ∧ n ≤ (s.txProfile k).maxLen ∧ asap
      = false ∧ (s.fetchTime slot first < s.now ∨ first < (s.slot slot).txM))))))))) ∧
    (∃ (s : State) (tx : BitVec 6) (j : Job) (l : List Job), s.alive = true ∧ (let k := tx.toNat;
      (let slot := s.rd F.RAD_TX_CFG.SLOT k; (let n := fieldAt j.desc 12 2; (let start := fieldAt j.desc 0 8;
      (let next := max (Sparse.get (fun _ => 0) s.rad.txEnd k) (max (s.slot slot).txM (s.bbAt slot (s.now + s.rd F.RAD_GLB_LEAD.LEAD)));
      (let asap := bit (fieldAt j.desc 14 1) 1; (let first := if asap then next else s.bbAt slot start; s.txQueue k = j :: l ∧
      Sparse.find s.rad.txNow k = none ∧ s.rdb F.RAD_TX_CFG.EN k = true ∧ j.poison = false ∧ n ≤ (s.txProfile k).maxLen ∧
      (asap = true ∨ s.now ≤ s.fetchTime slot first ∧ (s.slot slot).txM ≤ first))))))))) ∧
    (∃ (s : State) (slot : BitVec 8), s.alive = true ∧ (let i := slot.toNat; (let m := (s.slot i).txM; (s.rdb
      F.RAD_SLOT_CFG.EN i = false ∨ s.rdb F.RAD_SLOT_CFG.TX_EN i = false ∨ s.now < s.fetchTime i m)))) ∧
    (∃ (s : State) (slot : BitVec 8), s.alive = true ∧ (let i := slot.toNat; (let m := (s.slot i).txM; s.rdb F.RAD_SLOT_CFG.EN
      i = true ∧ s.rdb F.RAD_SLOT_CFG.TX_EN i = true ∧ s.fetchTime i m ≤ s.now))) :=
  ⟨⟨rdy, ref0, 64, [],
     by unfold State.takes; decide +kernel⟩,
   ⟨rdy.setTxQueue 63 (List.replicate 16 (txJob 0 0 0)), ref0, 63, [],
     by unfold State.takes; decide +kernel⟩,
   ⟨rdy, ref0, 63, [],
     by unfold State.takes; decide +kernel⟩,
   ⟨(win 0xfffe8000).setTxQueue 0 (List.replicate 16 (txJob 0 0 0)), (((win 0xfffe8000).setTxQueue 0 (List.replicate 16 (txJob
     0 0 0))).windowTake 0 0xFFFE8000 0xFFFEC000 64).get (by decide) |>.2.2, 0, xfer1 true 0xfffe8000 64, (List.range 64).map
     fun _ => (0, false),
     by decide +kernel⟩,
   ⟨win 0xfffe8000, ((win 0xfffe8000).windowTake 0 0xFFFE8000 0xFFFEC000 64).get (by decide) |>.2.2, 0, xfer1 true 0xfffe8000
     64, (List.range 64).map fun _ => (0, false),
     by decide +kernel⟩,
   ⟨txS 11 0 0 0, 0, txJob 11 0 0, [],
     by decide +kernel⟩,
   ⟨txS 10 0 99 100000, 0, txJob 10 0 99, [],
     by decide +kernel⟩,
   ⟨txS 10 2 0 100, 0, txJob 10 2 0, [],
     by decide +kernel⟩,
   ⟨rdy, 0,
     by decide +kernel⟩,
   ⟨txS 11 0 0 0, 0,
     by decide +kernel⟩⟩

/-- The hypotheses of TransformsAndTapsComplete (O50) are met. -/
theorem test_met_TransformsAndTapsComplete :
    (∃ (s : State) (ref : CmdRef) (q : BitVec 8) (desc : List Byte), s.takes ref 0x0801 ∧ (let u := s.accept ref 0x0801; 7 <
      q.toNat)) ∧
    (∃ (s : State) (ref : CmdRef) (q : BitVec 8) (desc : List Byte), s.takes ref 0x0801 ∧ (let u := s.accept ref 0x0801;
      q.toNat ≤ 7 ∧ 64 ≤ (s.xformQueue q.toNat).length)) ∧
    (∃ (s : State) (ref : CmdRef) (q : BitVec 8) (desc : List Byte), s.takes ref 0x0801 ∧ (let u := s.accept ref 0x0801;
      q.toNat ≤ 7 ∧ (s.xformQueue q.toNat).length < 64)) ∧
    (∃ (s u : State) (core : BitVec 6) (x : Xfer) (d : List PByte), s.windowTake core.toNat 0xFFFE0000 0xFFFE8000 64 = some
      (x, d, u) ∧ (let q := (x.far + x.done / 16 - 0xFFFE0000) / 0x1000; 64 ≤ (s.xformQueue q).length)) ∧
    (∃ (s u : State) (core : BitVec 6) (x : Xfer) (d : List PByte), s.windowTake core.toNat 0xFFFE0000 0xFFFE8000 64 = some
      (x, d, u) ∧ (let q := (x.far + x.done / 16 - 0xFFFE0000) / 0x1000; (s.xformQueue q).length < 64)) ∧
    (∃ (s : State) (q : Nat) (j : Job) (p : Nat) (k : Job) (l : List Job), ∃ b, s.xformPick = some (q, j) ∧ p < 8 ∧
      s.xformQueue p = k :: l ∧ k.deadline = some b) ∧
    (∃ (s : State) (q : Nat) (j : Job) (p : Nat) (k : Job) (l : List Job), s.xformPick = some (q, j) ∧ p < 8 ∧ s.xformQueue p
      = k :: l ∧ j.deadline = none) ∧
    (∃ (s : State) (q : Nat) (j : Job), s.alive = true ∧ s.xformPick = some (q, j) ∧ j.poison = false ∧
      (let u := s.setXformQueue q ((s.xformQueue q).drop 1); xformValid j.desc = false)) ∧
    (∃ (s : State) (q : Nat) (j : Job), s.alive = true ∧ s.xformPick = some (q, j) ∧ j.poison = false ∧
      (let u := s.setXformQueue q ((s.xformQueue q).drop 1); xformValid j.desc = true ∧ s.xformWaits j.desc = true)) ∧
    (∃ (s : State) (q : Nat) (j : Job), s.alive = true ∧ s.xformPick = some (q, j) ∧ j.poison = false ∧
      (let u := s.setXformQueue q ((s.xformQueue q).drop 1); xformValid j.desc = true ∧ s.xformWaits j.desc = false)) ∧
    (∃ (s : State), s.alive = true ∧ s.xformPick = none) ∧
    (∃ (s : State) (ref : CmdRef) (device : BitVec 8) (first count : BitVec 16) (addr : BitVec 64), s.takes ref 0x0802 ∧
      device.toNat ≤ 1 ∧ first.toNat + count.toNat ≤ 4096 ∧ (let u := s.accept ref 0x0802; s.tapsBusy first.toNat (first.toNat
      + count.toNat) = true)) ∧
    (∃ (s : State) (ref : CmdRef) (device : BitVec 8) (first count : BitVec 16) (addr : BitVec 64), s.takes ref 0x0802 ∧
      device.toNat ≤ 1 ∧ first.toNat + count.toNat ≤ 4096 ∧ (let u := s.accept ref 0x0802; s.tapsBusy first.toNat (first.toNat
      + count.toNat) = false ∧ device = 0 ∧ s.portUp (s.cmdPort ref) = false)) ∧
    (∃ (s : State) (ref : CmdRef) (device : BitVec 8) (first count : BitVec 16) (addr : BitVec 64), s.takes ref 0x0802 ∧
      device.toNat ≤ 1 ∧ first.toNat + count.toNat ≤ 4096 ∧ (let u := s.accept ref 0x0802; s.tapsBusy first.toNat (first.toNat
      + count.toNat) = false ∧ device = 0 ∧ s.portUp (s.cmdPort ref) = true)) :=
  ⟨⟨rdy, ref0, 8, [],
     by unfold State.takes; decide +kernel⟩,
   ⟨rdy.setXformQueue 7 (List.replicate 64 (xfJob [])), ref0, 7, [],
     by unfold State.takes; decide +kernel⟩,
   ⟨rdy, ref0, 7, [],
     by unfold State.takes; decide +kernel⟩,
   ⟨(win 0xfffe0000).setXformQueue 0 (List.replicate 64 (xfJob [])), (((win 0xfffe0000).setXformQueue 0 (List.replicate 64
     (xfJob []))).windowTake 0 0xFFFE0000 0xFFFE8000 64).get (by decide) |>.2.2, 0, xfer1 true 0xfffe0000 64, (List.range
     64).map fun _ => (0, false),
     by decide +kernel⟩,
   ⟨win 0xfffe0000, ((win 0xfffe0000).windowTake 0 0xFFFE0000 0xFFFE8000 64).get (by decide) |>.2.2, 0, xfer1 true 0xfffe0000
     64, (List.range 64).map fun _ => (0, false),
     by decide +kernel⟩,
   ⟨xfS ([4,0,64,0,0,0,1,0] ++ List.replicate 8 0 ++ leBytes 8 9), 3, xfJob ([4,0,64,0,0,0,1,0] ++ List.replicate 8 0 ++
     leBytes 8 9), 3, xfJob ([4,0,64,0,0,0,1,0] ++ List.replicate 8 0 ++ leBytes 8 9), [], 9,
     by decide +kernel⟩,
   ⟨xfS [], 3, xfJob [], 3, xfJob [], [],
     by decide +kernel⟩,
   ⟨xfS [], 3, xfJob [],
     by decide +kernel⟩,
   ⟨(xfS ([0,0,64,0,0,0,1,0] ++ leBytes 4 0x80000000)).setMem { (xfS []).mem with gates := [0x30] }, 3, xfJob
     ([0,0,64,0,0,0,1,0] ++ leBytes 4 0x80000000),
     by decide +kernel⟩,
   ⟨xfS [0,0,64,0,0,0,1,0], 3, xfJob [0,0,64,0,0,0,1,0],
     by decide +kernel⟩,
   ⟨rdy,
     by decide +kernel⟩,
   ⟨radio0.wr F.RAD_TX_PROF_A.NCHIP 4, ref0, 1, 0, 1, 0,
     by unfold State.takes; decide +kernel⟩,
   ⟨lost0, ref0, 0, 0, 1, 0,
     by unfold State.takes; decide +kernel⟩,
   ⟨rdy, ref0, 0, 0, 0, 0,
     by unfold State.takes; decide +kernel⟩⟩

/-- The hypotheses of DecoderRunsJobsAndTables (O51), part `decoderJobsRunInOrder`, are met. -/
theorem test_met_decoderJobsRunInOrder :
    (∃ (s : State) (ref : CmdRef) (q : BitVec 8) (desc : List Byte), s.takes ref 0x0810 ∧ (let u := s.accept ref 0x0810;
      (let l := s.decQueue q.toNat; 3 < q.toNat))) ∧
    (∃ (s : State) (ref : CmdRef) (q : BitVec 8) (desc : List Byte), s.takes ref 0x0810 ∧ (let u := s.accept ref 0x0810;
      (let l := s.decQueue q.toNat; q.toNat ≤ 3 ∧ 64 ≤ l.length))) ∧
    (∃ (s : State) (ref : CmdRef) (q : BitVec 8) (desc : List Byte), s.takes ref 0x0810 ∧ (let u := s.accept ref 0x0810;
      (let l := s.decQueue q.toNat; q.toNat ≤ 3 ∧ l.length < 64 ∧ u.decValid (padTo 64 desc) = true ∧ (∀ j k, l = j :: k →
      j.done = none)))) ∧
    (∃ (s : State) (ref : CmdRef) (q : BitVec 8) (desc : List Byte), s.takes ref 0x0810 ∧ (let u := s.accept ref 0x0810;
      (let l := s.decQueue q.toNat; q.toNat ≤ 3 ∧ l = [] ∧ u.decValid (padTo 64 desc) = false))) ∧
    (∃ (s u : State) (core : BitVec 6) (x : Xfer) (d : List PByte), s.windowTake core.toNat 0xFFFEC000 0xFFFF0000 64 = some
      (x, d, u) ∧ poisoned d = false ∧ (let far := x.far + x.done / 16; (let q := (far - 0xFFFEC000) / 0x1000; 64 ≤
      (s.decQueue q).length))) ∧
    (∃ (s u : State) (core : BitVec 6) (x : Xfer) (d : List PByte), s.windowTake core.toNat 0xFFFEC000 0xFFFF0000 64 = some
      (x, d, u) ∧ poisoned d = false ∧ (let far := x.far + x.done / 16; (let q := (far - 0xFFFEC000) / 0x1000; (s.decQueue
      q).length < 64 ∧ u.decValid (plain d) = true ∧ (∀ j k, s.decQueue q = j :: k → j.done = none)))) ∧
    (∃ (s : State) (e q : Nat), s.decPick e = some q) ∧
    (∃ (s : State) (engine : BitVec 2), s.alive = true ∧ (let e := engine.toNat; (s.decBusy e = true ∨ s.decPick e = none))) ∧
    (∃ (s : State) (engine : BitVec 2), ∃ q, ∃ j, s.alive = true ∧ (let e := engine.toNat; s.decBusy e = false ∧ s.decPick e =
      some q ∧ s.decHead q = some j ∧ e = 3)) ∧
    (∃ (s : State) (engine : BitVec 2), ∃ q, ∃ j, s.alive = true ∧ (let e := engine.toNat; s.decBusy e = false ∧ s.decPick e =
      some q ∧ s.decHead q = some j ∧ e = 2)) ∧
    (∃ (s : State) (engine : BitVec 2), s.alive = true ∧ s.decBusy engine.toNat = false) ∧
    (∃ (s : State) (engine : BitVec 2) (h j : DecJob) (l : List DecJob), s.alive = true ∧ (let e := engine.toNat;
      (let r := s.decRun (decDesc j.job.desc); (let rb := decRecord stDone r.1 (decDesc j.job.desc).user; (∀ p k, k ∈
      s.decQueue p → k.engine = some e → k.done = none → p = 0 ∧ k = j) ∧ j.engine = some e ∧ j.done = none ∧ s.decWaits
      (decDesc j.job.desc) = true ∧ (s.decQueue 0 = [j] ∨ s.decQueue 0 = h :: j :: l))))) ∧
    (∃ (s : State) (engine : BitVec 2) (h j : DecJob) (l : List DecJob), s.alive = true ∧ (let e := engine.toNat;
      (let r := s.decRun (decDesc j.job.desc); (let rb := decRecord stDone r.1 (decDesc j.job.desc).user; (∀ p k, k ∈
      s.decQueue p → k.engine = some e → k.done = none → p = 0 ∧ k = j) ∧ j.engine = some e ∧ j.done = none ∧ s.decWaits
      (decDesc j.job.desc) = false ∧ s.decQueue 0 = [j])))) ∧
    (∃ (s : State) (engine : BitVec 2) (h j : DecJob) (l : List DecJob), s.alive = true ∧ (let e := engine.toNat;
      (let r := s.decRun (decDesc j.job.desc); (let rb := decRecord stDone r.1 (decDesc j.job.desc).user; (∀ p k, k ∈
      s.decQueue p → k.engine = some e → k.done = none → p = 0 ∧ k = j) ∧ j.engine = some e ∧ j.done = none ∧ s.decWaits
      (decDesc j.job.desc) = false ∧ s.decQueue 0 = h :: j :: l ∧ h ≠ j ∧ h.done = none)))) :=
  ⟨⟨rdy, ref0, 4, [],
     by unfold State.takes; decide +kernel⟩,
   ⟨decS rdy 3 (List.replicate 64 (dj crcD none none)), ref0, 3, [],
     by unfold State.takes; decide +kernel⟩,
   ⟨rdy, ref0, 3, crcD,
     by unfold State.takes; refine ⟨by decide +kernel, by decide +kernel, by decide +kernel, by decide +kernel, ?_⟩; intro j k h; cases (show rdy.decQueue 3 = [] by decide +kernel).symm.trans h⟩,
   ⟨rdy, ref0, 3, [5],
     by unfold State.takes; decide +kernel⟩,
   ⟨decS (win 0xfffec000) 0 (List.replicate 64 (dj crcD none none)), ((decS (win 0xfffec000) 0 (List.replicate 64 (dj crcD
     none none))).windowTake 0 0xFFFEC000 0xFFFF0000 64).get (by decide) |>.2.2, 0, xfer1 true 0xfffec000 64, (List.range
     64).map fun _ => (0, false),
     by decide +kernel⟩,
   ⟨xq1 ((dsp0 1 []).setCore 0 { (dsp0 1 []).core 0 with x := [(0, ⟨4, false⟩)] }) (xfer1 true 0xFFFEC000 64),
     (((xq1 ((dsp0 1 []).setCore 0 { (dsp0 1 []).core 0 with x := [(0, ⟨4, false⟩)] }) (xfer1 true 0xFFFEC000 64)).windowTake 0 0xFFFEC000 0xFFFF0000 64).get (by decide)).2.2,
     0, xfer1 true 0xFFFEC000 64, crcD.map fun b => (b, false),
     by refine ⟨by decide +kernel, by decide +kernel, by decide +kernel, by decide +kernel, ?_⟩; intro j k h; cases (show (xq1 ((dsp0 1 []).setCore 0 { (dsp0 1 []).core 0 with x := [(0, ⟨4, false⟩)] }) (xfer1 true 0xFFFEC000 64)).decQueue 0 = [] by decide +kernel).symm.trans h⟩,
   ⟨decS rdy 3 [dj crcD none none], 3, 3,
     by decide +kernel⟩,
   ⟨rdy, 0,
     by decide +kernel⟩,
   ⟨decS rdy 3 [dj crcD none none], 3, 3, dj crcD none none,
     by decide +kernel⟩,
   ⟨decS rdy 3 [dj [1] none none], 2, 3, dj [1] none none,
     by decide +kernel⟩,
   ⟨rdy, 0,
     by decide +kernel⟩,
   ⟨(decS rdy 0 [dj (padTo 64 ([4,0,0,0,0,0,0,0,8,0] ++ List.replicate 10 0 ++ leBytes 4 0x80000000)) (some 3) none]).setMem { rdy.mem with gates := [0x30] },
     3, dj (padTo 64 ([4,0,0,0,0,0,0,0,8,0] ++ List.replicate 10 0 ++ leBytes 4 0x80000000)) (some 3) none, dj (padTo 64
     ([4,0,0,0,0,0,0,0,8,0] ++ List.replicate 10 0 ++ leBytes 4 0x80000000)) (some 3) none, [],
     by refine ⟨by decide +kernel, ?_, by decide +kernel, by decide +kernel, by decide +kernel, by decide +kernel⟩; intro p k hk; by_cases hp : p = 0; (subst hp; revert k; decide +kernel); rw [show ((decS rdy 0 [dj (padTo 64 ([4,0,0,0,0,0,0,0,8,0] ++ List.replicate 10 0 ++ leBytes 4 0x80000000)) (some 3) none]).setMem { rdy.mem with gates := [0x30] }).decQueue p = (decS rdy 0 [dj (padTo 64 ([4,0,0,0,0,0,0,0,8,0] ++ List.replicate 10 0 ++ leBytes 4 0x80000000)) (some 3) none]).decQueue p from rfl, decS_other _ p hp] at hk; cases hk⟩,
   ⟨decS rdy 0 [dj crcD (some 3) none], 3, dj crcD (some 3) none, dj crcD (some 3) none, [],
     by refine ⟨by decide +kernel, ?_, by decide +kernel, by decide +kernel, by decide +kernel⟩; intro p k hk; by_cases hp : p = 0; (subst hp; revert k; decide +kernel); rw [decS_other _ p hp] at hk; cases hk⟩,
   ⟨decS rdy 0 [dj [] (some 1) none, dj crcD (some 3) none], 3, dj [] (some 1) none, dj crcD (some 3) none, [],
     by refine ⟨by decide +kernel, ?_, by decide +kernel, by decide +kernel, by decide +kernel, by decide +kernel, by decide +kernel⟩; intro p k hk; by_cases hp : p = 0; (subst hp; revert k; decide +kernel); rw [decS_other _ p hp] at hk; cases hk⟩⟩

/-- The hypotheses of DecoderRunsJobsAndTables (O51), part `decoderTablesAndCounters`, are met. -/
theorem test_met_decoderTablesAndCounters :
    (∃ (s : State) (ref : CmdRef) (n : BitVec 8) (addr : BitVec 64) (len : BitVec 32), s.takes ref 0x0811 ∧ n.toNat ≤ 7 ∧
      (let u := s.accept ref 0x0811; (let p := s.cmdPort ref; (let b := s.hostRead p addr.toNat len.toNat; (∃ x ∈ s.dec.q, ∃ j
      ∈ x.2, (decDesc j.job.desc).table = n.toNat + 2))))) ∧
    (∃ (s : State) (ref : CmdRef) (n : BitVec 8) (addr : BitVec 64) (len : BitVec 32), s.takes ref 0x0811 ∧ n.toNat ≤ 7 ∧
      (let u := s.accept ref 0x0811; (let p := s.cmdPort ref; (let b := s.hostRead p addr.toNat len.toNat; (∀ x ∈ s.dec.q, ∀ j
      ∈ x.2, (decDesc j.job.desc).table ≠ n.toNat + 2) ∧ len.toNat ≤ 4112 ∧ s.portUp p = true ∧ userTableOf b = none)))) ∧
    (∃ (s : State) (ref : CmdRef) (n : BitVec 8) (addr : BitVec 64) (len : BitVec 32), ∃ x, s.takes ref 0x0811 ∧ n.toNat ≤ 7 ∧
      (let u := s.accept ref 0x0811; (let p := s.cmdPort ref; (let b := s.hostRead p addr.toNat len.toNat; (∀ x ∈ s.dec.q, ∀ j
      ∈ x.2, (decDesc j.job.desc).table ≠ n.toNat + 2) ∧ len.toNat ≤ 4112 ∧ s.portUp p = true ∧ userTableOf b = some x)))) ∧
    (∃ (s : State) (v : BitVec 32), s.bar0Open 0x400230 = true ∧ v.getLsbD 0 = true) ∧
    (∃ (s : State) (v : BitVec 32), s.bar0Open 0x400230 = true ∧ v.getLsbD 0 = false) :=
  ⟨⟨decS rdy 0 [dj [4,0,0,0x90] none none], ref0, 7, 0, 0,
     by unfold State.takes; decide +kernel⟩,
   ⟨rdy, ref0, 7, 0, 0,
     by unfold State.takes; decide +kernel⟩,
   ⟨rdy.hostWrite 0 0 utab, ref0, 7, 0, 24, ⟨1, 2, 0, [(0, 0, 0), (0, 1, 0)]⟩,
     by unfold State.takes; decide +kernel⟩,
   ⟨rdy, 1,
     by decide +kernel⟩,
   ⟨decS rdy 0 [dj [4,0,0,0x90] none none], 0,
     by decide +kernel⟩⟩

/-- The hypotheses of ChannelsArmStopAndForce (O52) are met. -/
theorem test_met_ChannelsArmStopAndForce :
    (∃ (s : State) (ref : CmdRef) (mask : BitVec 16) (when_ : BitVec 8) (T : BitVec 64), s.takes ref 0x0901 ∧
      (let u := s.accept ref 0x0901; (let l := maskBits 16 mask.toNat;
      (let all := (List.range 16).filter fun c => u.capArmed c || (u.cap.arms.flatMap fun a => maskBits 16 a.2.1).contains c || l.contains c;
      (mask = 0 ∨ (when_ ≠ 0 ∧ when_ ≠ 2)))))) ∧
    (∃ (s : State) (ref : CmdRef) (mask : BitVec 16) (when_ : BitVec 8) (T : BitVec 64), s.takes ref 0x0901 ∧
      (let u := s.accept ref 0x0901; (let l := maskBits 16 mask.toNat;
      (let all := (List.range 16).filter fun c => u.capArmed c || (u.cap.arms.flatMap fun a => maskBits 16 a.2.1).contains c || l.contains c;
      mask ≠ 0 ∧ (when_ = 0 ∨ when_ = 2) ∧ (∃ c ∈ l, u.capArmRefused c = true))))) ∧
    (∃ (s : State) (ref : CmdRef) (mask : BitVec 16) (when_ : BitVec 8) (T : BitVec 64), s.takes ref 0x0901 ∧
      (let u := s.accept ref 0x0901; (let l := maskBits 16 mask.toNat;
      (let all := (List.range 16).filter fun c => u.capArmed c || (u.cap.arms.flatMap fun a => maskBits 16 a.2.1).contains c || l.contains c;
      mask ≠ 0 ∧ (when_ = 0 ∨ when_ = 2) ∧ (∀ c ∈ l, u.capArmRefused c = false) ∧ (∀ c ∈ l, u.capRangeOk all c = true) ∧
      u.capTotalOk all = true ∧ when_ = 2 ∧ s.now < T.toNat)))) ∧
    (∃ (s : State) (ref : CmdRef) (mask : BitVec 16) (when_ : BitVec 8) (T : BitVec 64), s.takes ref 0x0901 ∧
      (let u := s.accept ref 0x0901; (let l := maskBits 16 mask.toNat;
      (let all := (List.range 16).filter fun c => u.capArmed c || (u.cap.arms.flatMap fun a => maskBits 16 a.2.1).contains c || l.contains c;
      mask ≠ 0 ∧ (when_ = 0 ∨ when_ = 2) ∧ (∀ c ∈ l, u.capArmRefused c = false) ∧ (∀ c ∈ l, u.capRangeOk all c = true) ∧
      u.capTotalOk all = true ∧ (when_ = 0 ∨ T.toNat ≤ s.now))))) ∧
    (∃ (s : State) (ref : CmdRef) (mask T : Nat), s.alive = true ∧ s.cap.arms.find? (fun a => a.1 == ref) = some (ref, mask,
      T) ∧ s.now < T) ∧
    (∃ (s : State) (ref : CmdRef) (mask T : Nat), s.alive = true ∧ s.cap.arms.find? (fun a => a.1 == ref) = some (ref, mask,
      T) ∧ T ≤ s.now) ∧
    (∃ (s : State) (ref : CmdRef) (mask : BitVec 16), s.takes ref 0x0902 ∧ mask ≠ 0) ∧
    (∃ (s : State) (mask c : Nat), c < 16) ∧
    (∃ (s : State) (ref : CmdRef) (mask : BitVec 16), s.takes ref 0x0903 ∧ mask ≠ 0) ∧
    (∃ (s : State) (v : BitVec 32), s.bar0Open 0x441008 = true) :=
  ⟨⟨rdy, ref0, 0, 0, 0,
     by unfold State.takes; decide +kernel⟩,
   ⟨rdy, ref0, 1, 2, 0,
     by unfold State.takes; decide +kernel⟩,
   ⟨cap0, ref0, 1, 2, 1,
     by unfold State.takes; decide +kernel⟩,
   ⟨cap0, ref0, 1, 0, 9,
     by unfold State.takes; decide +kernel⟩,
   ⟨at' (cap0.setCap { cap0.cap with arms := [(ref0, 1, 5)] }) 4, ref0, 1, 5,
     by decide +kernel⟩,
   ⟨at' (cap0.setCap { cap0.cap with arms := [(ref0, 1, 5)] }) 5, ref0, 1, 5,
     by decide +kernel⟩,
   ⟨rdy, ref0, 1,
     by unfold State.takes; decide +kernel⟩,
   ⟨rdy, 0, 0,
     by decide +kernel⟩,
   ⟨rdy, ref0, 1,
     by unfold State.takes; decide +kernel⟩,
   ⟨rdy, 0,
     by decide +kernel⟩⟩

/-- The hypotheses of SamplesTriggerAndSegmentsClose (O53) are met. -/
theorem test_met_SamplesTriggerAndSegmentsClose :
    (∃ (s : State) (unit ts word c : Nat) (poison : Bool), c < 16 ∧ s.capArmed c = true ∧ s.rd F.CAP_CH_SRC.KIND c = 1 ∧
      (s.capCh c).armT ≤ ts) ∧
    (∃ (s : State) (channel : BitVec 4) (data : BitVec 512) (poison : Bool) (time : BitVec 64) (full late : Bool), s.alive =
      true ∧ (let c := channel.toNat; (let x := s.capCh c; (let p : CapSmp := ⟨time.toNat, data.toNat, poison⟩; (x.pipe.head?
      ≠ some p ∨ s.capArmed c = false ∨ x.lateAt p.ts ≠ late))))) ∧
    (∃ (s : State) (channel : BitVec 4) (data : BitVec 512) (poison : Bool) (time : BitVec 64) (full late : Bool), ∃ l,
      s.alive = true ∧ (let c := channel.toNat; (let x := s.capCh c; (let p : CapSmp := ⟨time.toNat, data.toNat, poison⟩;
      x.pipe = p :: l ∧ s.capArmed c = true ∧ x.lateAt p.ts = late ∧ (let u := s.waitBegins c p.ts; u.capCalm c = false ∧
      (s.now < p.ts + 256 ∨ u.linkWaits c p.ts = true)))))) ∧
    (∃ (s : State) (channel : BitVec 4) (data : BitVec 512) (poison : Bool) (time : BitVec 64) (full late : Bool), ∃ l,
      s.alive = true ∧ (let c := channel.toNat; (let x := s.capCh c; (let p : CapSmp := ⟨time.toNat, data.toNat, poison⟩;
      x.pipe = p :: l ∧ s.capArmed c = true ∧ x.lateAt p.ts = late ∧ (let u := s.waitBegins c p.ts; (u.capCalm c = true ∨
      (p.ts + 256 ≤ s.now ∧ u.linkWaits c p.ts = false)) ∧ full = true ∧ s.rdb F.CAP_CH_MODE.RAW c = true))))) ∧
    (∃ (s : State) (channel : BitVec 4) (data : BitVec 512) (poison : Bool) (time : BitVec 64) (full late : Bool), ∃ l,
      s.alive = true ∧ (let c := channel.toNat; (let x := s.capCh c; (let p : CapSmp := ⟨time.toNat, data.toNat, poison⟩;
      x.pipe = p :: l ∧ s.capArmed c = true ∧ x.lateAt p.ts = late ∧ (let u := s.waitBegins c p.ts; (u.capCalm c = true ∨
      (p.ts + 256 ≤ s.now ∧ u.linkWaits c p.ts = false)) ∧ full = false ∧ (∀ q ∈ s.cap.snaps, q.ch ≠ c) ∧ s.capState c = 2 ∧
      x.openAt ≤ p.ts ∧ (∃ e ∈ x.evts, e.kind = 9 ∧ e.at_ ≤ p.ts) ∧ 2 ≤ s.rd F.CAP_CH_POST.POST c ∧ c < 8))))) ∧
    (∃ (s : State) (channel : BitVec 4), s.alive = true ∧ (let c := channel.toNat; s.capState c ≠ 4)) ∧
    (∃ (s : State) (channel : BitVec 4), s.alive = true ∧ (let c := channel.toNat; s.capState c = 4 ∧ (s.capCh c).isOpen =
      true ∧ s.rdb F.CAP_CH_MODE.RING c = false ∧ s.rd F.CAP_CH_STAT.SEG c = s.rd F.CAP_CH_NSEG.NSEG_M1 c)) ∧
    (∃ (s : State) (channel : BitVec 4), s.alive = true ∧ (let c := channel.toNat; s.capState c = 4 ∧ (s.capCh c).isOpen =
      true ∧ (s.rdb F.CAP_CH_MODE.RING c = true ∨ s.rd F.CAP_CH_STAT.SEG c ≠ s.rd F.CAP_CH_NSEG.NSEG_M1 c))) ∧
    (∃ (s : State) (ref : CmdRef) (channel dest part : BitVec 8) (clear : Bool) (addr : BitVec 64) (len : BitVec 32), s.takes
      ref 0x0904 ∧ (let u := s.accept ref 0x0904; (let c := channel.toNat; (let x := s.capCh c;
      (let q : CapSnap := ⟨ref, c, x.idx + x.pipe.length - 1, dest == 1, part.toNat, clear, addr.toNat, len.toNat⟩; 15 <
      c))))) ∧
    (∃ (s : State) (ref : CmdRef) (channel dest part : BitVec 8) (clear : Bool) (addr : BitVec 64) (len : BitVec 32), s.takes
      ref 0x0904 ∧ (let u := s.accept ref 0x0904; (let c := channel.toNat; (let x := s.capCh c;
      (let q : CapSnap := ⟨ref, c, x.idx + x.pipe.length - 1, dest == 1, part.toNat, clear, addr.toNat, len.toNat⟩; c ≤ 15 ∧
      dest = 0 ∧ (s.rd F.CAP_CH_MODE.RED c = 0 ∨ s.capState c = 0)))))) ∧
    (∃ (s : State) (ref : CmdRef) (channel dest part : BitVec 8) (clear : Bool) (addr : BitVec 64) (len : BitVec 32), s.takes
      ref 0x0904 ∧ (let u := s.accept ref 0x0904; (let c := channel.toNat; (let x := s.capCh c;
      (let q : CapSnap := ⟨ref, c, x.idx + x.pipe.length - 1, dest == 1, part.toNat, clear, addr.toNat, len.toNat⟩; c ≤ 15 ∧
      dest = 0 ∧ s.rd F.CAP_CH_MODE.RED c ≠ 0 ∧ s.capState c ≠ 0 ∧ 16 + s.redState c ≤ len.toNat ∧ x.idx + x.pipe.length = 0 ∧
      s.capState c = 5))))) ∧
    (∃ (s : State) (ref : CmdRef) (channel dest part : BitVec 8) (clear : Bool) (addr : BitVec 64) (len : BitVec 32), s.takes
      ref 0x0904 ∧ (let u := s.accept ref 0x0904; (let c := channel.toNat; (let x := s.capCh c;
      (let q : CapSnap := ⟨ref, c, x.idx + x.pipe.length - 1, dest == 1, part.toNat, clear, addr.toNat, len.toNat⟩; c ≤ 15 ∧
      dest = 0 ∧ s.rd F.CAP_CH_MODE.RED c ≠ 0 ∧ s.capState c ≠ 0 ∧ 16 + s.redState c ≤ len.toNat ∧ (x.pipe ≠ [] ∨ (x.idx = 0 ∧
      s.capState c ≠ 5))))))) ∧
    (∃ (s : State) (ref : CmdRef) (channel dest part : BitVec 8) (clear : Bool) (addr : BitVec 64) (len : BitVec 32), s.takes
      ref 0x0904 ∧ (let u := s.accept ref 0x0904; (let c := channel.toNat; (let x := s.capCh c;
      (let q : CapSnap := ⟨ref, c, x.idx + x.pipe.length - 1, dest == 1, part.toNat, clear, addr.toNat, len.toNat⟩; c ≤ 15 ∧
      dest = 0 ∧ s.rd F.CAP_CH_MODE.RED c ≠ 0 ∧ s.capState c ≠ 0 ∧ 16 + s.redState c ≤ len.toNat ∧ x.idx ≠ 0 ∧ x.pipe = [] ∧
      s.portUp (s.cmdPort ref) = true ∧ clear = false ∧ poisoned (u.memRead (reqCapture c) (u.redAddr c) (u.redState c)).bytes
      = false))))) :=
  ⟨⟨(capS 1 { raw := 1 }).wr F.CAP_CH_SRC.DIV_M1 1 0, 0, 0, 0, 0, false,
     by decide +kernel⟩,
   ⟨rdy, 15, 0, false, 0, false, false,
     by decide +kernel⟩,
   ⟨at' (capS 2 { pipe := [⟨5, 1, false⟩] }) 260, 0, 1, false, 5, false, false, [],
     by decide +kernel⟩,
   ⟨at' (capS 2 { pipe := [⟨5, 1, false⟩] }) 261, 0, 1, false, 5, true, false, [],
     by decide +kernel⟩,
   ⟨at' (capS 2 { evts := [⟨0, 9, 0, 0, false⟩], pipe := [⟨5, 1, false⟩] }) 261, 0, 1, false, 5, false, false, [],
     by decide +kernel⟩,
   ⟨rdy, 15,
     by decide +kernel⟩,
   ⟨capS 4 { isOpen := true }, 0,
     by decide +kernel⟩,
   ⟨(capS 4 { isOpen := true, idx := 3 }).wr F.CAP_CH_NSEG.NSEG_M1 1 0, 0,
     by decide +kernel⟩,
   ⟨rdy, ref0, 16, 0, 0, false, 0, 0,
     by unfold State.takes; decide +kernel⟩,
   ⟨rdy, ref0, 15, 0, 0, false, 0, 0,
     by unfold State.takes; decide +kernel⟩,
   ⟨(capS 5 {}).wr F.CAP_CH_MODE.RED 1 0, ref0, 0, 0, 0, false, 0, 80,
     by unfold State.takes; decide +kernel⟩,
   ⟨(capS 1 {}).wr F.CAP_CH_MODE.RED 1 0, ref0, 0, 0, 0, false, 0, 80,
     by unfold State.takes; decide +kernel⟩,
   ⟨(capS 1 { idx := 3 }).wr F.CAP_CH_MODE.RED 1 0 |>.wr F.CAP_RED_DST.HBM 1 0, ref0, 0, 0, 0, false, 0, 80,
     by unfold State.takes; decide +kernel⟩⟩

/-- The hypotheses of FlitsCarryTheirSequenceNumber (O54) are met. -/
theorem test_met_FlitsCarryTheirSequenceNumber :
    (∃ (f : Flit) (seq : Nat), f.typ < 8 ∧ f.chan < 64 ∧ f.sub < 64 ∧ f.data.length = 60) :=
  ⟨flit0, 127,
    by decide +kernel⟩

/-- The hypotheses of LinksTrainAndComeUp (O55) are met. -/
theorem test_met_LinksTrainAndComeUp :
    (∃ (s : State), s.alive = true) ∧
    (∃ (s : State) (link pol : BitVec 4), s.alive = true ∧ (let k := link.toNat; s.lkState k ≠ 1 ∧ s.lkState k ≠ 4)) ∧
    (∃ (s : State) (link pol : BitVec 4), s.alive = true ∧ (let k := link.toNat; s.lkState k = 1 ∧ (s.link k).readyIn = none)) ∧
    (∃ (s : State) (link : BitVec 4) (role : BitVec 8) (id : BitVec 32), s.alive = true ∧ (let k := link.toNat; s.lkState k =
      0)) ∧
    (∃ (s : State) (link : BitVec 4) (role : BitVec 8) (id : BitVec 32), s.alive = true ∧ (let k := link.toNat; s.lkState k ≠
      0 ∧ s.lkState k ≠ 3)) ∧
    (∃ (s : State) (link : BitVec 4) (role : BitVec 8) (id : BitVec 32), s.alive = true ∧ (let k := link.toNat; s.lkState k ≠
      0 ∧ s.lkState k = 3 ∧ s.rd F.LNK_STAT.RX_PWR k ≠ 0)) ∧
    (∃ (s : State) (link : BitVec 4) (role : BitVec 8) (id : BitVec 32), s.alive = true ∧ (let k := link.toNat; s.lkState k ≠
      0 ∧ s.lkState k = 3 ∧ s.rd F.LNK_STAT.RX_PWR k = 0)) ∧
    (∃ (s : State) (link : BitVec 4) (next : BitVec 7) (role : BitVec 8) (id : BitVec 32), s.alive = true ∧
      (let k := link.toNat; s.lkState k < 2)) ∧
    (∃ (s : State) (link : BitVec 4) (next : BitVec 7) (role : BitVec 8) (id : BitVec 32), s.alive = true ∧
      (let k := link.toNat; s.lkState k = 3)) ∧
    (∃ (s : State) (link : BitVec 4) (next : BitVec 7) (role : BitVec 8) (id : BitVec 32), s.alive = true ∧
      (let k := link.toNat; s.lkState k = 2 ∧ (s.link k).readyOut = true ∧ rolesMatch (s.lkRole k) (role.toNat % 8) = true ∧
      s.recovery = false)) ∧
    (∃ (s : State) (link : BitVec 4) (next : BitVec 7) (role : BitVec 8) (id : BitVec 32), s.alive = true ∧
      (let k := link.toNat; s.lkState k = 2 ∧ (s.link k).readyOut = true ∧ rolesMatch (s.lkRole k) (role.toNat % 8) = false)) ∧
    (∃ (s : State) (link : BitVec 4) (next : BitVec 7) (role : BitVec 8) (id : BitVec 32), s.alive = true ∧
      (let k := link.toNat; s.lkState k = 4 ∧ (s.link k).readyOut = true ∧ rolesMatch (s.lkRole k) (role.toNat % 8) = true ∧
      (s.link k).position next.toNat ≤ (s.link k).replay.length)) ∧
    (∃ (s : State) (link : BitVec 4) (clock : Bool), s.alive = true ∧ (let k := link.toNat; s.lkState k = 2)) ∧
    (∃ (s : State) (link : BitVec 4) (clock : Bool), s.alive = true ∧ (let k := link.toNat; s.lkState k = 3 ∧ s.rd
      F.LNK_STAT.RX_PWR k = 0 ∧ s.recovery = false)) ∧
    (∃ (s : State) (link : BitVec 4) (clock : Bool), s.alive = true ∧ (let k := link.toNat; s.lkState k = 3 ∧ s.rd
      F.LNK_STAT.RX_PWR k = 1 ∧ clock = true)) ∧
    (∃ (s : State) (link : BitVec 4) (clock : Bool), s.alive = true ∧ (let k := link.toNat; s.lkState k = 3 ∧ ((s.rd
      F.LNK_STAT.RX_PWR k = 1 ∧ clock = false) ∨ s.rd F.LNK_STAT.RX_PWR k = 2))) ∧
    (∃ (s : State) (link : BitVec 4) (t0 : Nat), s.alive = true ∧ (let k := link.toNat; (s.link k).retrainAt = some t0 ∧
      s.lkState k = 4 ∧ s.now < t0 + s.rd F.LNK_TMO.RETRAIN_TO k * 100000)) ∧
    (∃ (s : State) (link : BitVec 4) (t0 : Nat), s.alive = true ∧ (let k := link.toNat; (s.link k).retrainAt = some t0 ∧
      s.lkState k = 4 ∧ t0 + s.rd F.LNK_TMO.RETRAIN_TO k * 100000 ≤ s.now ∧ s.recovery = false)) ∧
    (∃ (s : State) (link : BitVec 4), s.alive = true ∧ (let k := link.toNat; s.unlocked k = true ∧ (s.link k).noLockAt +
      10000000 ≤ s.now)) ∧
    (∃ (s : State) (link : BitVec 4), s.alive = true ∧ (let k := link.toNat; (s.unlocked k = false ∨ s.now < (s.link
      k).noLockAt + 10000000))) ∧
    (∃ (s : State) (link : BitVec 4), s.alive = true ∧ (let k := link.toNat; s.unlocked k = true ∧ s.rd F.LNK_STAT.BURST k =
      1)) ∧
    (∃ (s : State) (link : BitVec 4), s.alive = true ∧ (let k := link.toNat; (s.unlocked k = false ∨ s.rd F.LNK_STAT.BURST k =
      0))) :=
  ⟨⟨rdy,
     by decide +kernel⟩,
   ⟨rdy, 0, 0,
     by decide +kernel⟩,
   ⟨lk 1 { expect := 5 }, 0, 15,
     by decide +kernel⟩,
   ⟨rdy, 0, 0, 0,
     by decide +kernel⟩,
   ⟨lk 1 { expect := 5 }, 0, 0, 0,
     by decide +kernel⟩,
   ⟨(lk 3 {}).wr F.LNK_STAT.RX_PWR 2 0, 0, 0, 0,
     by decide +kernel⟩,
   ⟨lk 3 {}, 0, 2, 0,
     by decide +kernel⟩,
   ⟨rdy, 0, 0, 0, 0,
     by decide +kernel⟩,
   ⟨lk 3 {}, 0, 0, 2, 0,
     by decide +kernel⟩,
   ⟨lk 2 { readyOut := true }, 0, 0, 0, 0,
     by decide +kernel⟩,
   ⟨(lk 2 { readyOut := true }).wr F.LNK_CFG.ROLE 1 0, 0, 0, 2, 0,
     by decide +kernel⟩,
   ⟨lk 4 { readyOut := true, seq := 1, replay := [flit0] }, 0, 1, 0, 0,
     by decide +kernel⟩,
   ⟨lk 2 {}, 0, false,
     by decide +kernel⟩,
   ⟨lk 3 {}, 0, false,
     by decide +kernel⟩,
   ⟨(lk 3 {}).wr F.LNK_STAT.RX_PWR 1 0, 0, true,
     by decide +kernel⟩,
   ⟨(lk 3 {}).wr F.LNK_STAT.RX_PWR 2 0, 0, false,
     by decide +kernel⟩,
   ⟨at' (lk 4 { retrainAt := some 0 }) 999999, 0, 0,
     by decide +kernel⟩,
   ⟨at' (lk 4 { retrainAt := some 0 }) 1000000, 0, 0,
     by decide +kernel⟩,
   ⟨at' (lk 1 {}) 10000000, 0,
     by decide +kernel⟩,
   ⟨rdy, 0,
     by decide +kernel⟩,
   ⟨(lk 1 {}).wr F.LNK_STAT.BURST 1 0, 0,
     by decide +kernel⟩,
   ⟨rdy, 0,
     by decide +kernel⟩⟩

/-- The hypotheses of FlitsAreKeptUntilAcknowledged (O56) are met. -/
theorem test_met_FlitsAreKeptUntilAcknowledged :
    (∃ (s : State) (link : BitVec 4), s.alive = true ∧ (let k := link.toNat; (let u := s.txLink k; (let l := u.link k;
      s.lkState k = 3 ∧ s.rd F.LNK_STAT.TX_PWR k = 0 ∧ s.now < (s.link k).dataAt)))) ∧
    (∃ (s : State) (link : BitVec 4), s.alive = true ∧ (let k := link.toNat; (let u := s.txLink k; (let l := u.link k;
      s.lkState k = 3 ∧ s.rd F.LNK_STAT.TX_PWR k = 0 ∧ (s.link k).dataAt ≤ s.now ∧ (∀ i, i < 256 → (s.slot i).txHeld = []))))) ∧
    (∃ (s : State) (link : BitVec 4), ∃ f, ∃ q, s.alive = true ∧ (let k := link.toNat; (let u := s.txLink k;
      (let l := u.link k; s.lkState k = 3 ∧ s.rd F.LNK_STAT.TX_PWR k = 0 ∧ (s.link k).dataAt ≤ s.now ∧ l.resend = 0 ∧
      l.replay.length < 64 ∧ l.txq = f :: q ∧ f.poison = false)))) ∧
    (∃ (s : State) (link : BitVec 4), ∃ f, s.alive = true ∧ (let k := link.toNat; (let u := s.txLink k; (let l := u.link k;
      s.lkState k = 3 ∧ s.rd F.LNK_STAT.TX_PWR k = 0 ∧ (s.link k).dataAt ≤ s.now ∧ l.resend ≠ 0 ∧ l.replay[l.replay.length -
      l.resend]? = some f)))) ∧
    (∃ (s : State) (link : BitVec 4), s.alive = true ∧ (let k := link.toNat; (let u := s.txLink k; (let l := u.link k;
      s.lkState k = 3 ∧ s.rd F.LNK_STAT.TX_PWR k = 0 ∧ (s.link k).dataAt ≤ s.now ∧ l.resend = 0 ∧ 64 ≤ l.replay.length)))) ∧
    (∃ (s : State) (link : BitVec 4) (next : BitVec 7), s.alive = true ∧ s.lkState link.toNat = 3 ∧ (let k := link.toNat;
      (let l := s.link k; (let n := l.position next.toNat; (l.replay.length < n ∨ n = 0))))) ∧
    (∃ (s : State) (link : BitVec 4) (next : BitVec 7), s.alive = true ∧ s.lkState link.toNat = 3 ∧ (let k := link.toNat;
      (let l := s.link k; (let n := l.position next.toNat; n ≤ l.replay.length ∧ n ≠ 0 ∧ (∀ f ∈ l.replay.take n, f.typ ≠
      4))))) ∧
    (∃ (s : State) (link : BitVec 4) (next : BitVec 7), s.alive = true ∧ s.lkState link.toNat = 3 ∧ (let k := link.toNat;
      (let l := s.link k; (let n := l.position next.toNat; l.replay.length < n)))) ∧
    (∃ (s : State) (link : BitVec 4) (next : BitVec 7), s.alive = true ∧ s.lkState link.toNat = 3 ∧ (let k := link.toNat;
      (let l := s.link k; (let n := l.position next.toNat; n = 0 ∧ l.replay ≠ [] ∧ l.inRow < s.rd F.LNK_TMO.REPLAY_MAX k)))) ∧
    (∃ (s : State) (link : BitVec 4) (next : BitVec 7), s.alive = true ∧ s.lkState link.toNat = 3 ∧ (let k := link.toNat;
      (let l := s.link k; (let n := l.position next.toNat; n = 0 ∧ l.replay ≠ [] ∧ s.rd F.LNK_TMO.REPLAY_MAX k ≤ l.inRow)))) ∧
    (∃ (s : State) (link : BitVec 4), ∃ t0, s.alive = true ∧ s.lkState link.toNat = 3 ∧ (let k := link.toNat;
      (let l := s.link k; l.goodAt = some t0 ∧ s.now < t0 + 128))) ∧
    (∃ (s : State) (link : BitVec 4), ∃ t0, s.alive = true ∧ s.lkState link.toNat = 3 ∧ (let k := link.toNat;
      (let l := s.link k; l.goodAt = some t0 ∧ t0 + 128 ≤ s.now ∧ s.rd F.LNK_STAT.TX_PWR k = 0))) ∧
    (∃ (s : State) (link : BitVec 4), s.alive = true ∧ s.lkState link.toNat = 3 ∧ (let k := link.toNat; (let l := s.link k;
      l.nakOut = false ∧ s.now < l.oldestAt + s.rd F.LNK_TMO.REPLAY_TO k))) ∧
    (∃ (s : State) (link : BitVec 4), s.alive = true ∧ s.lkState link.toNat = 3 ∧ (let k := link.toNat; (let l := s.link k;
      l.nakOut = false ∧ l.replay ≠ [] ∧ l.oldestAt + s.rd F.LNK_TMO.REPLAY_TO k ≤ s.now ∧ l.inRow < s.rd F.LNK_TMO.REPLAY_MAX
      k))) ∧
    (∃ (s : State) (link : BitVec 4) (bytes : List Byte), s.alive = true ∧ s.lkState link.toNat = 3 ∧ (let k := link.toNat;
      (let l := s.link k; (let b := padTo 64 bytes; fieldAt b 62 2 ≠ flitCrc l.expect b ∧ l.nakOut = true)))) ∧
    (∃ (s : State) (link : BitVec 4) (bytes : List Byte), s.alive = true ∧ s.lkState link.toNat = 3 ∧ (let k := link.toNat;
      (let l := s.link k; (let b := padTo 64 bytes; fieldAt b 62 2 ≠ flitCrc l.expect b ∧ l.nakOut = false)))) ∧
    (∃ (s : State) (link : BitVec 4) (bytes : List Byte), s.alive = true ∧ s.lkState link.toNat = 3 ∧ (let k := link.toNat;
      (let l := s.link k; (let b := padTo 64 bytes; fieldAt b 62 2 = flitCrc l.expect b ∧ roleCarries (s.lkRole k) (flitOf
      b).typ = false ∧ l.good + 1 < 16)))) ∧
    (∃ (s : State) (link : BitVec 4) (bytes : List Byte), ∃ g, s.alive = true ∧ s.lkState link.toNat = 3 ∧
      (let k := link.toNat; (let l := s.link k; (let b := padTo 64 bytes; fieldAt b 62 2 = flitCrc l.expect b ∧ roleCarries
      (s.lkRole k) 2 = true ∧ (flitOf b).typ = 2 ∧ l.good + 1 < 16 ∧ 1 ≤ (flitOf b).sub ∧ (flitOf b).sub ≤ 7 ∧ s.forwards =
      false ∧ ((List.range 16).find? fun g => s.rdb F.LNK_GW_CFG.EN g && s.rd F.LNK_GW_CFG.LINK g == k && s.rd
      F.LNK_GW_CFG.CHAN g == (flitOf b).chan) = some g ∧ (s.gw g).rx.length + (flitOf b).sub ≤ 64)))) ∧
    (∃ (s : State) (link : BitVec 4), s.alive = true ∧ s.lkState link.toNat = 3 ∧ (let k := link.toNat;
      (let base := s.rd F.LNK_MTX_BASE.BASE k; (let q := s.radIdx (reqLink k) base 0 (s.link k).txWr;
      (let i := (s.link k).txRd + (s.link k).msgs; (let v := q.2.setLink k { q.2.link k with txWr := q.1 };
      (let r := v.memRead (reqLink k) (base * 16 + 64 + 64 * (i % 2 ^ v.rd F.LNK_MRING.TX_SIZE k)) 64; (s.lkRole k = 0 ∨ s.rd
      F.LNK_MRING.TX_SIZE k = 0)))))))) ∧
    (∃ (s : State) (link : BitVec 4), s.alive = true ∧ s.lkState link.toNat = 3 ∧ (let k := link.toNat;
      (let base := s.rd F.LNK_MTX_BASE.BASE k; (let q := s.radIdx (reqLink k) base 0 (s.link k).txWr;
      (let i := (s.link k).txRd + (s.link k).msgs; (let v := q.2.setLink k { q.2.link k with txWr := q.1 };
      (let r := v.memRead (reqLink k) (base * 16 + 64 + 64 * (i % 2 ^ v.rd F.LNK_MRING.TX_SIZE k)) 64; s.lkRole k ≠ 0 ∧ s.rd
      F.LNK_MRING.TX_SIZE k ≠ 0 ∧ i < q.1 ∧ v.memWaits (reqLink k) (base * 16 + 64 + 64 * (i % 2 ^ v.rd F.LNK_MRING.TX_SIZE
      k)) 64 = false))))))) ∧
    (∃ (s : State) (g : BitVec 4), s.alive = true ∧ (let x := s.gw g.toNat; (let k := s.rd F.LNK_GW_CFG.LINK g.toNat; (x.tx =
      [] ∨ s.now < x.txAt + 20)))) ∧
    (∃ (s : State) (g : BitVec 4), s.alive = true ∧ (let x := s.gw g.toNat; (let k := s.rd F.LNK_GW_CFG.LINK g.toNat; x.tx ≠
      [] ∧ x.txAt + 20 ≤ s.now ∧ s.rdb F.LNK_GW_CFG.EN g.toNat = true))) :=
  ⟨⟨lk 3 { txq := [flit0], dataAt := 40 }, 0,
     by decide +kernel⟩,
   ⟨lk 3 { txq := [flit0], seq := 127 }, 0,
     by decide +kernel⟩,
   ⟨lk 3 { txq := [flit0], seq := 127 }, 0, flit0, [],
     by decide +kernel⟩,
   ⟨lk 3 { seq := 0, replay := [flit0], resend := 1 }, 0, flit0,
     by decide +kernel⟩,
   ⟨lk 3 { seq := 64, replay := List.replicate 64 flit0 }, 0,
     by decide +kernel⟩,
   ⟨lk 3 { txq := [flit0], seq := 127 }, 0, 0,
     by decide +kernel⟩,
   ⟨lk 3 { seq := 0, replay := [flit0], resend := 1 }, 0, 0,
     by decide +kernel⟩,
   ⟨lk 3 { txq := [flit0], seq := 127 }, 0, 0,
     by decide +kernel⟩,
   ⟨lk 3 { seq := 64, replay := List.replicate 64 flit0 }, 0, 0,
     by decide +kernel⟩,
   ⟨lk 3 { seq := 1, replay := [flit0], inRow := 4 }, 0, 0,
     by decide +kernel⟩,
   ⟨at' (lk 3 { goodAt := some 0 }) 127, 0, 0,
     by decide +kernel⟩,
   ⟨at' (lk 3 { goodAt := some 0, good := 3 }) 128, 0, 0,
     by decide +kernel⟩,
   ⟨lk 3 { txq := [flit0], seq := 127 }, 0,
     by decide +kernel⟩,
   ⟨at' (lk 3 { replay := [flit0], seq := 1 }) 2000, 0,
     by decide +kernel⟩,
   ⟨lk 3 { nakOut := true }, 0, [],
     by decide +kernel⟩,
   ⟨lk 3 { txq := [flit0], seq := 127 }, 0, [],
     by decide +kernel⟩,
   ⟨lk 3 { expect := 127 }, 0, flit0.bytes 127,
     by decide +kernel⟩,
   ⟨(lk 3 {}).wr F.LNK_CFG.ROLE 2 0 |>.wr F.LNK_GW_CFG.EN 1 15 |>.wr F.LNK_GW_CFG.CHAN 5 15, 0, flit0.bytes 0, 15,
     by decide +kernel⟩,
   ⟨lk 3 { txq := [flit0], seq := 127 }, 0,
     by decide +kernel⟩,
   ⟨((hbm0.wr F.LNK_STAT.STATE 3 0).wr F.LNK_CFG.ROLE 1 0 |>.wr F.LNK_MRING.TX_SIZE 4 0).setLink 0 { txWr := 1 }, 0,
     by decide +kernel⟩,
   ⟨lk 3 { txq := [flit0], seq := 127 }, 0,
     by decide +kernel⟩,
   ⟨at' ((rdy.wr F.LNK_GW_CFG.EN 1 15).setGw 15 { tx := [1, 2, 3, 4, 5, 6, 7, 8] }) 20, 15,
     by decide +kernel⟩⟩

/-- The hypotheses of LinkSetsAndPowerStates (O57) are met. -/
theorem test_met_LinkSetsAndPowerStates :
    (∃ (s : State) (link : BitVec 4) (v : BitVec 56), s.alive = true ∧ (let k := link.toNat; (s.lkRole k ≠ 3 ∨ s.lkState k ≠ 3
      ∨ s.rdb F.PAIR_CFG.EN = false ∨ s.rd F.PAIR_STAT.ROLE ≠ 1))) ∧
    (∃ (s : State) (link : BitVec 4) (v : BitVec 56), s.alive = true ∧ (let k := link.toNat; s.lkRole k = 3 ∧ s.lkState k = 3
      ∧ s.rdb F.PAIR_CFG.EN = true ∧ s.rd F.PAIR_STAT.ROLE = 1)) ∧
    (∃ (s : State) (link : BitVec 4) (sleep : Bool), s.alive = true ∧ s.lkState link.toNat = 3) ∧
    (∃ (s : State) (link : BitVec 4) (v : BitVec 56), ∃ t0, s.alive = true ∧ s.lkState link.toNat = 3 ∧ (let k := link.toNat;
      (s.link k).echoAt = some t0 ∧ t0 % 2 ^ 56 = v.toNat)) ∧
    (∃ (s : State) (link : BitVec 4) (v : BitVec 56), s.alive = true ∧ s.lkState link.toNat = 3 ∧ (let k := link.toNat;
      (s.link k).echoAt = none ∧ s.rd F.LNK_STAT.TX_PWR k = 0)) ∧
    (∃ (s : State) (link : BitVec 4), s.alive = true ∧ s.lkState link.toNat = 3 ∧ s.rd F.LNK_STAT.TX_PWR link.toNat = 0 ∧
      (let k := link.toNat; (s.lkRole k = 0 ∨ s.now < (s.link k).timeAt + 1024))) ∧
    (∃ (s : State) (link : BitVec 4), s.alive = true ∧ s.lkState link.toNat = 3 ∧ s.rd F.LNK_STAT.TX_PWR link.toNat = 0 ∧
      (let k := link.toNat; s.lkRole k ≠ 0 ∧ (s.link k).timeAt + 1024 ≤ s.now)) ∧
    (∃ (s : State) (link : BitVec 4), s.alive = true ∧ s.lkState link.toNat = 3 ∧ s.rd F.LNK_STAT.TX_PWR link.toNat = 0 ∧
      (let k := link.toNat; (let u := s.txLink k; (s.rd F.LNK_CFG.IDLE_T k = 0 ∨ u.lkQuiet k = false)))) ∧
    (∃ (s : State) (link : BitVec 4), s.alive = true ∧ s.lkState link.toNat = 3 ∧ s.rd F.LNK_STAT.TX_PWR link.toNat = 0 ∧
      (let k := link.toNat; (let u := s.txLink k; s.rd F.LNK_CFG.IDLE_T k ≠ 0 ∧ u.lkQuiet k = true ∧ (u.link k).quietAt + s.rd
      F.LNK_CFG.IDLE_T k * 64 ≤ s.now))) ∧
    (∃ (s : State) (link : BitVec 4), s.alive = true ∧ (let k := link.toNat; s.rd F.LNK_STAT.TX_PWR k = 1 ∧ s.rd
      F.LNK_CFG.SLEEP_T k ≠ 0 ∧ (s.link k).quietAt + s.rd F.LNK_CFG.SLEEP_T k * 1000 ≤ s.now)) ∧
    (∃ (s : State) (link : BitVec 4), s.alive = true ∧ (let k := link.toNat; s.rd F.LNK_STAT.TX_PWR k ≠ 1)) ∧
    (∃ (s : State) (link : BitVec 4), s.alive = true ∧ (let k := link.toNat; s.lkState k = 3 ∧ s.rd F.LNK_STAT.TX_PWR k ≠ 0 ∧
      s.rd F.CLK_STATUS.PSTATE = 0 ∧ (((s.txLink k).link k).owed ≠ [] ∨ ((s.txLink k).link k).txq ≠ []))) ∧
    (∃ (s : State) (link : BitVec 4), s.alive = true ∧ (let k := link.toNat; s.rd F.LNK_STAT.TX_PWR k = 0)) :=
  ⟨⟨rdy, 15, 0,
     by decide +kernel⟩,
   ⟨(pair0 1 1).wr F.LNK_STAT.STATE 3 15, 15, 2^56-1,
     by decide +kernel⟩,
   ⟨(pair0 1 1).wr F.LNK_STAT.STATE 3 15, 15, false,
     by decide +kernel⟩,
   ⟨at' (lk 3 { echoAt := some 0 }) 70000, 0, 0, 0,
     by decide +kernel⟩,
   ⟨(pair0 1 1).wr F.LNK_STAT.STATE 3 15, 15, 2^56-1,
     by decide +kernel⟩,
   ⟨(pair0 1 1).wr F.LNK_STAT.STATE 3 15, 15,
     by decide +kernel⟩,
   ⟨at' ((lk 3 {}).wr F.LNK_CFG.ROLE 1 0) 1024, 0,
     by decide +kernel⟩,
   ⟨(pair0 1 1).wr F.LNK_STAT.STATE 3 15, 15,
     by decide +kernel⟩,
   ⟨at' ((lk 3 {}).wr F.LNK_CFG.IDLE_T 1 0) 64, 0,
     by decide +kernel⟩,
   ⟨at' (fs (lk 3 {}) [(F.LNK_STAT.TX_PWR,1,0),(F.LNK_CFG.SLEEP_T,1,0)]) 1000, 0,
     by decide +kernel⟩,
   ⟨rdy, 15,
     by decide +kernel⟩,
   ⟨(lk 3 { owed := [(0x66, 0)] }).wr F.LNK_STAT.TX_PWR 2 0, 0,
     by decide +kernel⟩,
   ⟨rdy, 15,
     by decide +kernel⟩⟩

/-- The hypotheses of PairsKeepAliveAndChangeRoles (O58), part `heartbeatsKeepThePair`, are met. -/
theorem test_met_heartbeatsKeepThePair :
    (∃ (s : State), s.alive = true ∧ s.rdb F.GLB_STATUS.BOOT_OK = false) ∧
    (∃ (s : State), s.alive = true ∧ s.rdb F.GLB_STATUS.BOOT_OK = true) ∧
    (∃ (s : State), s.alive = true ∧ s.hbLost = false) ∧
    (∃ (s : State), s.alive = true ∧ s.hbLost = true ∧ s.now < s.pair.flitAt + s.hbTo ∧ s.pair.hbFault = false ∧ s.recovery =
      false) ∧
    (∃ (s : State), s.alive = true ∧ s.hbLost = true ∧ (s.pair.flitAt + s.hbTo ≤ s.now ∨ s.pair.hbFault = true)) ∧
    (∃ (s : State), s.alive = true ∧ s.hbLost = true ∧ s.pair.flitAt + s.hbTo ≤ s.now ∧ s.rdb F.PAIR_CFG.AUTO = true ∧ s.rd
      F.PAIR_STAT.ROLE = 1 ∧ s.recovery = false) ∧
    (∃ (s : State) (second : Bool), s.alive = true ∧ (let k := if second then 15 else 14; (s.rdb F.PAIR_CFG.EN = false ∨
      s.lkState k ≠ 3))) ∧
    (∃ (s : State) (second : Bool), s.alive = true ∧ (let k := if second then 15 else 14; s.rdb F.PAIR_CFG.EN = true ∧
      s.lkState k = 3)) :=
  ⟨⟨rdy.wr F.GLB_STATUS.BOOT_OK 0,
     by decide +kernel⟩,
   ⟨pair0 0 0,
     by decide +kernel⟩,
   ⟨pair0 0 0,
     by decide +kernel⟩,
   ⟨(at' (pair0 1 1) 10000).setPair { rdy.pair with flitAt := 1 },
     by decide +kernel⟩,
   ⟨at' (pair0 1 1) 10000,
     by decide +kernel⟩,
   ⟨at' (pair0 1 1) 10000,
     by decide +kernel⟩,
   ⟨pair0 0 0, false,
     by decide +kernel⟩,
   ⟨pair0 0 0, true,
     by decide +kernel⟩⟩

/-- The hypotheses of PairsKeepAliveAndChangeRoles (O58), part `pairCommandsChangeRoles`, are met. -/
theorem test_met_pairCommandsChangeRoles :
    (∃ (s : State) (ref : CmdRef), s.takes ref 0x0B01 ∧ (let u := s.accept ref 0x0B01; s.rdb F.PAIR_CFG.EN = false)) ∧
    (∃ (s : State) (ref : CmdRef), s.takes ref 0x0B01 ∧ (let u := s.accept ref 0x0B01; s.rd F.PAIR_STAT.ROLE = 0 ∧ s.rdb
      F.PAIR_STAT.PARTNER_HB = false)) ∧
    (∃ (s : State) (ref : CmdRef), s.takes ref 0x0B01 ∧ (let u := s.accept ref 0x0B01; s.rdb F.PAIR_CFG.EN = true ∧ (s.rd
      F.PAIR_STAT.ROLE ≠ 0 ∨ s.rdb F.PAIR_STAT.PARTNER_HB = true) ∧ s.pair.failover.isSome = true)) ∧
    (∃ (s : State) (ref : CmdRef), s.takes ref 0x0B01 ∧ (let u := s.accept ref 0x0B01; s.rdb F.PAIR_CFG.EN = true ∧
      s.pair.failover = none ∧ s.rd F.PAIR_STAT.ROLE = 0 ∧ s.rdb F.PAIR_STAT.PARTNER_HB = true)) ∧
    (∃ (s : State) (ref : CmdRef), s.takes ref 0x0B01 ∧ (let u := s.accept ref 0x0B01; s.rdb F.PAIR_CFG.EN = true ∧
      s.pair.failover = none ∧ s.rd F.PAIR_STAT.ROLE = 1)) ∧
    (∃ (s : State) (ref : CmdRef) (same : Bool), s.takes ref 0x0B02 ∧ (let u := s.accept ref 0x0B02; (s.rdb F.PAIR_CFG.EN =
      false ∨ s.rd F.PAIR_STAT.ROLE ≠ 0 ∨ s.rdb F.PAIR_STAT.PARTNER_HB = false ∨ same = false))) ∧
    (∃ (s : State) (ref : CmdRef) (same : Bool), s.takes ref 0x0B02 ∧ (let u := s.accept ref 0x0B02; s.rdb F.PAIR_CFG.EN =
      true ∧ s.rd F.PAIR_STAT.ROLE = 0 ∧ s.rdb F.PAIR_STAT.PARTNER_HB = true ∧ same = true ∧ s.pair.join.isSome = true)) ∧
    (∃ (s : State) (ref : CmdRef) (same : Bool), s.takes ref 0x0B02 ∧ (let u := s.accept ref 0x0B02; s.rdb F.PAIR_CFG.EN =
      true ∧ s.rd F.PAIR_STAT.ROLE = 0 ∧ s.rdb F.PAIR_STAT.PARTNER_HB = true ∧ same = true ∧ s.pair.join = none)) :=
  ⟨⟨rdy, ref0,
     by unfold State.takes; decide +kernel⟩,
   ⟨rdy, ref0,
     by unfold State.takes; decide +kernel⟩,
   ⟨(pair0 0 1).setPair { rdy.pair with failover := some ref0 }, ref0,
     by unfold State.takes; decide +kernel⟩,
   ⟨pair0 0 1, ref0,
     by unfold State.takes; decide +kernel⟩,
   ⟨pair0 1 1, ref0,
     by unfold State.takes; decide +kernel⟩,
   ⟨rdy, ref0, false,
     by unfold State.takes; decide +kernel⟩,
   ⟨(pair0 0 1).setPair { rdy.pair with join := some ref0 }, ref0, true,
     by unfold State.takes; decide +kernel⟩,
   ⟨pair0 0 1, ref0, true,
     by unfold State.takes; decide +kernel⟩⟩

/-- The hypotheses of SecurityCommandsTakeEffect (O59), part `fusesAndFlashAreWritten`, are met. -/
theorem test_met_fusesAndFlashAreWritten :
    (∃ (s : State) (ref : CmdRef) (field : BitVec 8) (v : BitVec 384), s.takes ref 0x0C04 ∧ (let u := s.accept ref 0x0C04;
      (let k := field.toNat; (k < 1 ∨ 7 < k ∨ 2 ^ fuseWidth k ≤ v.toNat)))) ∧
    (∃ (s : State) (ref : CmdRef) (field : BitVec 8) (v : BitVec 384), s.takes ref 0x0C04 ∧ (let u := s.accept ref 0x0C04;
      (let k := field.toNat; 1 ≤ k ∧ k ≤ 7 ∧ v.toNat < 2 ^ fuseWidth k ∧ s.rdb F.SEC_CTRL.FUSE_EN = false))) ∧
    (∃ (s : State) (ref : CmdRef) (field : BitVec 8) (v : BitVec 384), s.takes ref 0x0C04 ∧ (let u := s.accept ref 0x0C04;
      (let k := field.toNat; 1 ≤ k ∧ k ≤ 7 ∧ v.toNat < 2 ^ fuseWidth k ∧ s.rdb F.SEC_CTRL.FUSE_EN = true ∧ s.sec.fuseOp.isSome
      = true))) ∧
    (∃ (s : State) (ref : CmdRef) (field : BitVec 8) (v : BitVec 384), s.takes ref 0x0C04 ∧ (let u := s.accept ref 0x0C04;
      (let k := field.toNat; 1 ≤ k ∧ k ≤ 7 ∧ v.toNat < 2 ^ fuseWidth k ∧ s.rdb F.SEC_CTRL.FUSE_EN = true ∧ s.sec.fuseOp = none
      ∧ k ≤ 4 ∧ bit (s.rd F.SEC_FUSE_STAT.CKH_PROG) (k - 1) = true))) ∧
    (∃ (s : State) (ref : CmdRef) (field : BitVec 8) (v : BitVec 384), s.takes ref 0x0C04 ∧ (let u := s.accept ref 0x0C04;
      (let k := field.toNat; 1 ≤ k ∧ k ≤ 7 ∧ v.toNat < 2 ^ fuseWidth k ∧ s.rdb F.SEC_CTRL.FUSE_EN = true ∧ s.sec.fuseOp = none
      ∧ (4 < k ∨ bit (s.rd F.SEC_FUSE_STAT.CKH_PROG) (k - 1) = false)))) ∧
    (∃ (s : State) (ref : CmdRef), s.takes ref 0x0C03 ∧ s.sec.fuseOp = none ∧ s.rd F.SEC_BOOT.FW_SVN ≤ s.rd
      F.SEC_BOOT.SVN_CTR) ∧
    (∃ (s : State) (ref : CmdRef), s.takes ref 0x0C03 ∧ s.sec.fuseOp = none ∧ s.rd F.SEC_BOOT.SVN_CTR < s.rd
      F.SEC_BOOT.FW_SVN) ∧
    (∃ (s : State), s.alive = true ∧ s.sec.fuseOp = none) ∧
    (∃ (s : State), ∃ ref, ∃ v, s.alive = true ∧ s.sec.fuseOp = some ⟨some ref, 8, [v]⟩) ∧
    (∃ (s : State), ∃ ref, ∃ v, s.alive = true ∧ s.sec.fuseOp = some ⟨some ref, 5, v⟩ ∧ leNat v < 16) ∧
    (∃ (s : State) (ref : CmdRef) (part : BitVec 8) (addr : BitVec 64) (len : BitVec 32), s.takes ref 0x0C02 ∧ s.portUp
      (s.cmdPort ref) = true ∧ (let u := s.accept ref 0x0C02; (let img := s.hostRead (s.cmdPort ref) addr.toNat len.toNat;
      len.toNat = 128 + fieldAt img 0x10 4 + 256 ∧ s.sec.flashOp.isSome = true))) ∧
    (∃ (s : State) (ref : CmdRef) (part : BitVec 8) (addr : BitVec 64) (len : BitVec 32), s.takes ref 0x0C02 ∧ s.portUp
      (s.cmdPort ref) = true ∧ (let u := s.accept ref 0x0C02; (let img := s.hostRead (s.cmdPort ref) addr.toNat len.toNat;
      len.toNat = 128 + fieldAt img 0x10 4 + 256 ∧ s.sec.flashOp = none ∧ u.fwCheck (fun o n => slice img o n) ≠ 0))) ∧
    (∃ (s : State) (ref : CmdRef) (addr : BitVec 64) (len : BitVec 16), s.takes ref 0x0C07 ∧ 5 ≤ len.toNat ∧ len.toNat ≤ 4096
      ∧ s.portUp (s.cmdPort ref) = true ∧ (let u := s.accept ref 0x0C07;
      (let d := s.hostRead (s.cmdPort ref) addr.toNat len.toNat; fieldAt d 0 4 = len.toNat - 4 ∧ holdsIdentity (d.drop 4) =
      false))) :=
  ⟨⟨rdy, ref0, 8, 0,
     by unfold State.takes; decide +kernel⟩,
   ⟨rdy, ref0, 1, 0,
     by unfold State.takes; decide +kernel⟩,
   ⟨(rdy.wr F.SEC_CTRL.FUSE_EN 1).setSec { rdy.sec with fuseOp := some ⟨some ref0, 8, [5]⟩ }, ref0, 4, 0,
     by unfold State.takes; decide +kernel⟩,
   ⟨(rdy.wr F.SEC_CTRL.FUSE_EN 1).wr F.SEC_FUSE_STAT.CKH_PROG 15, ref0, 4, 0,
     by unfold State.takes; decide +kernel⟩,
   ⟨rdy.wr F.SEC_CTRL.FUSE_EN 1, ref0, 1, 2^384-1,
     by unfold State.takes; decide +kernel⟩,
   ⟨rdy, ref0,
     by unfold State.takes; decide +kernel⟩,
   ⟨rdy.wr F.SEC_BOOT.FW_SVN 1, ref0,
     by unfold State.takes; decide +kernel⟩,
   ⟨rdy,
     by decide +kernel⟩,
   ⟨(rdy).setSec { rdy.sec with fuseOp := some ⟨some ref0, 8, [5]⟩ }, ref0, 5,
     by decide +kernel⟩,
   ⟨(rdy).setSec { rdy.sec with fuseOp := some ⟨some ref0, 5, [15]⟩ }, ref0, [15],
     by decide +kernel⟩,
   ⟨rdy.setSec { rdy.sec with flashOp := some ⟨none, 0, 0, 0, [], 0, false, 0, 0⟩ }, ref0, 0, 0, 384,
     by unfold State.takes; decide +kernel⟩,
   ⟨rdy, ref0, 0, 0, 384,
     by unfold State.takes; decide +kernel⟩,
   ⟨rdy.hostWrite 0 0 [1], ref0, 0, 5,
     by unfold State.takes; decide +kernel⟩⟩

/-- The hypotheses of SecurityCommandsTakeEffect (O59), part `attestationTokensAndSecureCores`, are met. -/
theorem test_met_attestationTokensAndSecureCores :
    (∃ (s : State) (ref : CmdRef) (sign part : BitVec 8) (addr : BitVec 64) (nonce : BitVec 384), s.takes ref 0x0C01 ∧
      sign.toNat ≤ 1 ∧ (let u := s.accept ref 0x0C01; (let p := s.cmdPort ref;
      (let rep := u.attestReport (sign = 1) (leBytes 48 nonce.toNat); s.portUp p = false)))) ∧
    (∃ (s : State) (ref : CmdRef) (sign part : BitVec 8) (addr : BitVec 64) (nonce : BitVec 384), s.takes ref 0x0C01 ∧
      sign.toNat ≤ 1 ∧ (let u := s.accept ref 0x0C01; (let p := s.cmdPort ref;
      (let rep := u.attestReport (sign = 1) (leBytes 48 nonce.toNat); s.portUp p = true)))) ∧
    (∃ (s : State) (ref : CmdRef) (mask : BitVec 64) (pages sec : BitVec 8), s.takes ref 0x0C05 ∧ (∃ n ∈ maskBits 64
      mask.toNat, s.rdb F.SC_CTRL.RUN n = true)) ∧
    (∃ (s : State) (ref : CmdRef) (mask : BitVec 64) (pages sec : BitVec 8), s.takes ref 0x0C05 ∧ (∀ n ∈ maskBits 64
      mask.toNat, s.rdb F.SC_CTRL.RUN n = false)) ∧
    (∃ (s : State) (ref : CmdRef), s.takes ref 0x0C06) ∧
    (∃ (s : State) (ref : CmdRef) (addr : BitVec 64), s.takes ref 0x0C06 ∧ addr ≠ 0 ∧ s.portUp (s.cmdPort ref) = true ∧
      (let u := s.accept ref 0x0C06; (let b := s.hostRead (s.cmdPort ref) addr.toNat 320;
      (let ok := u.sigOk 0x47495354 [0, 1, 2, 3, 4] (hash (slice b 0 64)) (slice b 64 256); ok = false)))) ∧
    (∃ (s : State) (ref : CmdRef) (addr : BitVec 64), s.takes ref 0x0C06 ∧ addr ≠ 0 ∧ s.portUp (s.cmdPort ref) = true ∧
      (let u := s.accept ref 0x0C06; (let b := s.hostRead (s.cmdPort ref) addr.toNat 320;
      (let ok := u.sigOk 0x47495354 [0, 1, 2, 3, 4] (hash (slice b 0 64)) (slice b 64 256); ok = true ∧ (fieldAt b 8 8 ≠
      s.rd64 F.GLB_SERIAL_LO.SERIAL ∨ fieldAt b 16 8 ≠ s.rd64 F.SEC_BOOT_NONCE_LO.NONCE))))) ∧
    (∃ (s : State) (ref : CmdRef) (addr : BitVec 64), s.takes ref 0x0C06 ∧ addr ≠ 0 ∧ s.portUp (s.cmdPort ref) = true ∧
      (let u := s.accept ref 0x0C06; (let b := s.hostRead (s.cmdPort ref) addr.toNat 320;
      (let ok := u.sigOk 0x47495354 [0, 1, 2, 3, 4] (hash (slice b 0 64)) (slice b 64 256); ok = true ∧ fieldAt b 0 4 =
      0x4B4F5454 ∧ fieldAt b 4 2 = 1 ∧ fieldAt b 8 8 = s.rd64 F.GLB_SERIAL_LO.SERIAL ∧ fieldAt b 16 8 = s.rd64
      F.SEC_BOOT_NONCE_LO.NONCE ∧ (fieldAt b 24 8 = 0 ∨ s.now < fieldAt b 24 8) ∧ s.recovery = false)))) ∧
    (∃ (s : State), s.alive = true ∧ (let na := s.rd64 F.SEC_TRC_AUTH_NA_LO.NOT_AFTER; (na = 0 ∨ s.now < na))) ∧
    (∃ (s : State), s.alive = true ∧ (let na := s.rd64 F.SEC_TRC_AUTH_NA_LO.NOT_AFTER; na ≠ 0 ∧ na ≤ s.now ∧ s.rdb
      F.SEC_TRC_AUTH.VALID = true ∧ s.recovery = false)) :=
  ⟨⟨lost0, ref0, 1, 0, 0, 0,
     by unfold State.takes; decide +kernel⟩,
   ⟨rdy, ref0, 1, 0, 0, 2^383,
     by unfold State.takes; decide +kernel⟩,
   ⟨rdy.wr F.SC_CTRL.RUN 1 0, ref0, 1, 0, 0,
     by unfold State.takes; decide +kernel⟩,
   ⟨lost0, ref0, 0, 0, 0,
     by unfold State.takes; decide +kernel⟩,
   ⟨lost0, ref0,
     by unfold State.takes; decide +kernel⟩,
   ⟨rdy, ref0, 2^63,
     by unfold State.takes; decide +kernel⟩,
   ⟨tok0.wr F.GLB_SERIAL_LO.SERIAL 1, ref0, 64,
     by unfold State.takes; decide +kernel⟩,
   ⟨tok0, ref0, 64,
     by unfold State.takes; decide +kernel⟩,
   ⟨lost0,
     by decide +kernel⟩,
   ⟨at' (fs rdy [(F.SEC_TRC_AUTH.VALID,1,0),(F.SEC_TRC_AUTH_NA_LO.NOT_AFTER,5,0)]) 5,
     by decide +kernel⟩⟩

/-- The hypotheses of TraceAndTestAccessFollowTheirRules (O60), part `traceStartsStopsAndFrames`, are met. -/
theorem test_met_traceStartsStopsAndFrames :
    (∃ (s : State) (v : BitVec 32), s.bar0Open 0x4F0000 = true ∧ s.rdb F.TRC_CTRL.EN = true ∧ v.getLsbD 31 = false) ∧
    (∃ (s : State) (v : BitVec 32), s.bar0Open 0x4F0000 = true ∧ s.rdb F.TRC_CTRL.EN = true ∧ v.getLsbD 31 = true) ∧
    (∃ (s : State) (v : BitVec 32), s.bar0Open 0x4F0000 = true ∧ s.rdb F.TRC_CTRL.EN = false ∧ v.getLsbD 31 = true) ∧
    (∃ (s : State), s.alive = true ∧ s.rdb F.TRC_CTRL.EN = false) ∧
    (∃ (s : State), s.alive = true ∧ s.rdb F.TRC_CTRL.EN = true ∧ s.rdb F.TRC_CTRL.SINK = true ∧ s.trcFrames = 255) ∧
    (∃ (s : State), s.alive = true ∧ s.rdb F.TRC_CTRL.EN = true ∧ s.rdb F.TRC_CTRL.SINK = true ∧ s.trcFrames ≠ 255 ∧ s.trcTurn
      = none) ∧
    (∃ (s : State), s.alive = true ∧ s.rdb F.TRC_CTRL.EN = true ∧ s.rdb F.TRC_CTRL.SINK = false ∧ s.rdb F.TRC_STAT.FULL =
      true) :=
  ⟨⟨trcOn 1, 0,
     by decide +kernel⟩,
   ⟨trcOn 1, 0xFFFFFFFF,
     by decide +kernel⟩,
   ⟨rdy, 0xFFFFFFFF,
     by decide +kernel⟩,
   ⟨rdy,
     by decide +kernel⟩,
   ⟨{ trcOn 1 with trcFrames := 255 },
     by decide +kernel⟩,
   ⟨trcOn 1,
     by decide +kernel⟩,
   ⟨(trcOn 0).wr F.TRC_STAT.FULL 1,
     by decide +kernel⟩⟩

/-- The hypotheses of TraceAndTestAccessFollowTheirRules (O60), part `jtagInstructionsScanTheirRegister`, are met. -/
theorem test_met_jtagInstructionsScanTheirRegister :
    (∃ (s : State) (code : BitVec 6), s.alive = true ∧ s.sec.jtag ≠ 0 ∧ s.sec.jtag ≠ 3 ∧ s.sec.jtag ≠ 4 ∧ code.toNat ≥ 5 ∧
      code.toNat ≠ 0x10) ∧
    (∃ (s : State) (request : BitVec 64), s.alive = true ∧ s.sec.jtag ≠ 0 ∧ s.sec.jtag ≠ 3 ∧ s.sec.jtag ≠ 4 ∧ s.rdb
      F.SEC_FUSE_STAT.DBG_DIS = true) ∧
    (∃ (s : State) (request : BitVec 64), s.alive = true ∧ s.sec.jtag ≠ 0 ∧ s.sec.jtag ≠ 3 ∧ s.sec.jtag ≠ 4 ∧ s.rdb
      F.SEC_FUSE_STAT.DBG_DIS = false ∧ request.getLsbD 63 = false) ∧
    (∃ (s : State) (pins : BitVec 512) (other : BitVec 64) (scan : List Bool), s.alive = true ∧ s.sec.jtag ≠ 0 ∧ s.sec.jtag ≠
      3 ∧ s.sec.jtag ≠ 4 ∧ s.recovery = false) :=
  ⟨⟨jt 2, 0x3F,
     by decide +kernel⟩,
   ⟨(jt 2).wr F.SEC_FUSE_STAT.DBG_DIS 1, (0x7FFFFFFFFFFFFFFF : BitVec 64),
     by decide +kernel⟩,
   ⟨jt 2, (0x7FFFFFFFFFFFFFFF : BitVec 64),
     by decide +kernel⟩,
   ⟨jt 2, (2^511 : BitVec 512), (1 : BitVec 64), [true],
     by decide +kernel⟩⟩

end Sys2Proof.Tests
end

section
/-! PROOF. Accesses to BAR0 registers: the register table, writes to fields, direct writes, and reads through shadows (R10 to
R15, R32, R502). -/

namespace Sys2Proof.Machine

/-! ### The register table -/

/-- A field lies in the 32 bits of its register. -/
abbrev FieldDef.inWord (f : FieldDef) : Prop := f.lo ≤ f.hi ∧ f.hi < 32

/-- Two fields have no bit in common. -/
abbrev FieldDef.apart (f g : FieldDef) : Prop := f.hi < g.lo ∨ g.hi < f.lo

/-- The fields of a register lie in its 32 bits, no two of them at a common bit. -/
def RegDef.laidOut (r : RegDef) : Prop := (∀ f ∈ r.fields, f.inWord) ∧ r.fields.Pairwise FieldDef.apart

/-- The rows of every block of Table ORG-5. -/
def everyRow : List RegDef :=
  regsGlb ++ regsClk ++ regsHst ++ regsMem ++ regsDsp ++ regsSc ++ regsFab ++ regsEla ++ regsCfg ++ regsPin ++ regsRad ++
    regsDec ++ regsCap ++ regsLnk ++ regsPair ++ regsSec ++ regsTrc

theorem mem_of_mem_ite {α : Type} {c : Prop} [Decidable c] {a : α} {l m : List α} (h : a ∈ if c then l else m) :
    a ∈ l ∨ a ∈ m := by
  split at h
  · exact .inl h
  · exact .inr h

theorem regBlock_subset_everyRow (off : Nat) : regBlock off ⊆ everyRow := by
  intro r hr
  unfold regBlock at hr
  simp only [everyRow, List.mem_append, or_assoc]
  iterate 16 refine (mem_of_mem_ite hr).imp id fun hr => ?_
  exact (mem_of_mem_ite hr).resolve_right List.not_mem_nil

theorem everyRow_laidOut : ∀ r ∈ everyRow, r.laidOut := by
  unfold RegDef.laidOut
  decide +kernel

theorem regRow_laidOut {off : Nat} {r : RegDef} (h : regRow off = some r) : r.laidOut :=
  everyRow_laidOut r (regBlock_subset_everyRow off (List.mem_of_find?_eq_some h))

/-- No pair of registers begins at a semaphore or at the word before the first one (R399). -/
theorem lowerWord_semaphore {off : Nat} (hal : off % 4 = 0) (h : 0x203FC ≤ off ∧ off < 0x20500) : lowerWord off = false := by
  have words : ∀ n < 65, lowerWord (0x203FC + 4 * n) = false := by decide +kernel
  have := words ((off - 0x203FC) / 4) (by omega)
  rwa [show 0x203FC + 4 * ((off - 0x203FC) / 4) = off by omega] at this

theorem lowerWord_isSome {off : Nat} (h : lowerWord off = true) : (regRow off).isNone = false := by
  unfold lowerWord at h
  split at h <;> simp_all

/-! ### The fields of a word that is written (R10, R12, R13) -/

/-- A word once its field `f` has taken its bits of `v`, where a write may set it to them. -/
def FieldDef.writeInto (v n : Nat) (f : FieldDef) : Nat :=
  if f.isSet && f.lists (bits v f.hi f.lo) then setBits n f.hi f.lo (bits v f.hi f.lo) else n

theorem RegDef.write_eq_foldl (r : RegDef) (old v : Nat) : r.write old v = r.fields.foldl (FieldDef.writeInto v) old := rfl

theorem FieldDef.bits_writeInto_same {f : FieldDef} (v n : Nat) (h : f.lo ≤ f.hi) :
    bits (f.writeInto v n) f.hi f.lo =
      if f.isSet && f.lists (bits v f.hi f.lo) then bits v f.hi f.lo else bits n f.hi f.lo := by
  unfold FieldDef.writeInto
  split
  · rw [bits_setBits_same _ _ h, Nat.mod_eq_of_lt (bits_lt ..)]
  · rfl

theorem FieldDef.bits_writeInto_apart {f g : FieldDef} (v n : Nat) (h : f.lo ≤ f.hi) (hd : f.apart g) :
    bits (f.writeInto v n) g.hi g.lo = bits n g.hi g.lo := by
  unfold FieldDef.writeInto
  split
  · exact bits_setBits_other _ _ h hd.symm
  · rfl

theorem FieldDef.writeInto_lt {f : FieldDef} (v : Nat) {n : Nat} (h : f.inWord) (hn : n < 2 ^ 32) :
    f.writeInto v n < 2 ^ 32 := by
  unfold FieldDef.writeInto
  split
  · exact setBits_lt _ _ _ h.1 h.2 hn
  · exact hn

theorem bits_foldl_writeInto_apart (v : Nat) (g : FieldDef) : ∀ (fs : List FieldDef) (n : Nat),
    (∀ f ∈ fs, f.inWord) → (∀ f ∈ fs, f.apart g) →
      bits (fs.foldl (FieldDef.writeInto v) n) g.hi g.lo = bits n g.hi g.lo
  | [], _, _, _ => rfl
  | f :: fs, n, hfit, hd => by
    rw [List.forall_mem_cons] at hfit hd
    rw [List.foldl_cons, bits_foldl_writeInto_apart v g fs _ hfit.2 hd.2,
      FieldDef.bits_writeInto_apart v n hfit.1.1 hd.1]

theorem bits_foldl_writeInto_mem (v : Nat) (g : FieldDef) : ∀ (fs : List FieldDef) (n : Nat),
    (∀ f ∈ fs, f.inWord) → fs.Pairwise FieldDef.apart → g ∈ fs →
      bits (fs.foldl (FieldDef.writeInto v) n) g.hi g.lo =
        if g.isSet && g.lists (bits v g.hi g.lo) then bits v g.hi g.lo else bits n g.hi g.lo
  | f :: fs, n, hfit, hpw, hg => by
    rw [List.forall_mem_cons] at hfit
    obtain ⟨hd, hpw⟩ := List.pairwise_cons.mp hpw
    rw [List.foldl_cons]
    rcases List.mem_cons.mp hg with rfl | hg
    · rw [bits_foldl_writeInto_apart v g fs _ hfit.2 fun f hf => (hd f hf).symm,
        FieldDef.bits_writeInto_same v n hfit.1.1]
    · rw [bits_foldl_writeInto_mem v g fs _ hfit.2 hpw hg, FieldDef.bits_writeInto_apart v n hfit.1.1 (hd g hg)]

theorem foldl_writeInto_lt (v : Nat) : ∀ (fs : List FieldDef) {n : Nat}, (∀ f ∈ fs, f.inWord) → n < 2 ^ 32 →
    fs.foldl (FieldDef.writeInto v) n < 2 ^ 32
  | [], _, _, hn => hn
  | f :: fs, _, hfit, hn => by
    rw [List.forall_mem_cons] at hfit
    exact foldl_writeInto_lt v fs hfit.2 (FieldDef.writeInto_lt v hfit.1 hn)

/-- Each field of a word that is written holds the value's bits where it takes them, and else its own. -/
theorem RegDef.bits_write {r : RegDef} (h : r.laidOut) (old v : Nat) {f : FieldDef} (hf : f ∈ r.fields) :
    bits (r.write old v) f.hi f.lo =
      if f.isSet && f.lists (bits v f.hi f.lo) then bits v f.hi f.lo else bits old f.hi f.lo := by
  rw [RegDef.write_eq_foldl]
  exact bits_foldl_writeInto_mem v f r.fields old h.1 h.2 hf

theorem RegDef.write_lt {r : RegDef} (h : r.laidOut) {old : Nat} (v : Nat) (hold : old < 2 ^ 32) : r.write old v < 2 ^ 32 := by
  rw [RegDef.write_eq_foldl]
  exact foldl_writeInto_lt v r.fields h.1 hold

theorem RegDef.acc_ne_of_has_false {r : RegDef} {a : Access} (h : r.has a = false) {f : FieldDef} (hf : f ∈ r.fields) :
    f.acc ≠ a := by
  simp only [RegDef.has, List.any_eq_false, beq_iff_eq] at h
  exact h f hf

/-- In a register that no commit locks, the fields that a write may set are the RW ones. -/
theorem FieldDef.isSet_eq_rw {r : RegDef} (h : r.has .rwl = false) {f : FieldDef} (hf : f ∈ r.fields) :
    f.isSet = decide (f.acc = .rw) := by
  have := RegDef.acc_ne_of_has_false h hf
  cases hacc : f.acc <;> simp_all [FieldDef.isSet]

/-! ### Writes -/

section
variable (s : State) (p : Nat) {off : Nat} (v : Nat) (drains : List Nat) {r : RegDef}

theorem State.regWrite_rw (hr : regRow off = some r) (ha : s.actionWrite p off v = none) (hc : r.has .w1c = false)
    (hl : r.has .rwl = false) (hw : r.has .rw = true) : s.regWrite p off v drains = s.writeEntry p off v := by
  simp [State.regWrite, hr, ha, hc, hl, hw]

theorem State.regWrite_rwl (hr : regRow off = some r) (ha : s.actionWrite p off v = none) (hc : r.has .w1c = false)
    (hl : r.has .rwl = true) : s.regWrite p off v drains = s.directWrite p off v drains := by
  simp [State.regWrite, hr, ha, hc, hl]

/-- A register that does nothing of its own takes the fields of the value (R10). -/
theorem State.writeEntry_plain (hp : plainRegister off r) : s.writeEntry p off v = s.writeFields off v := by
  obtain ⟨hhst, hremap, htrc, -⟩ := hp
  unfold State.writeEntry
  iterate 7 rw [if_neg (by omega)]

theorem State.writeFields_eq (hr : regRow off = some r) : s.writeFields off v = s.wrReg off (r.write (s.rdReg off) v) := by
  simp [State.writeFields, hr]

theorem State.directWrite_committed (h : s.isCommitted off = true) : s.directWrite p off v drains = s := by
  simp [State.directWrite, h]

theorem State.directWrite_clocks (h : 0x10100 ≤ off ∧ off < 0x10164 ∨ off = 0x10020) : s.directWrite p off v drains = s := by
  unfold State.directWrite
  exact if_pos (by simpa [or_assoc] using Or.inr h)

theorem State.directWrite_checkFails (h : s.check [(off, v)] ≠ none) : s.directWrite p off v drains = s := by
  simp [State.directWrite, Option.isSome_iff_ne_none.mpr h]

/-- A direct write that nothing discards is the commit of itself at the present instant (R11, R502). -/
theorem State.directWrite_commits (hc : s.isCommitted off = false) (hclk : off < 0x10100 ∨ 0x10164 ≤ off) (hpwr : off ≠ 0x10020)
    (hchk : s.check [(off, v)] = none) (hsb : s.standbyLocked = false) (hld : s.fab.load = none) :
    s.directWrite p off v drains = (s.forwardCommit [(off, v)]).applyEntries p [(off, v)] drains s.now := by
  have hr : ¬ (0x10100 ≤ off ∧ off < 0x10164) := by omega
  simp [State.directWrite, State.fabLocked, hc, hr, hpwr, hchk, hsb, hld]

end

/-- An aligned word that a port reaches is written (R14). -/
theorem exec_registerWrite_word (s : State) (p : Port) (off : BitVec 24) (v : BitVec 32) (drains : BitVec 80)
    (ho : s.bar0Open off.toNat = true) (hal : off.toNat % 4 = 0) :
    exec (.registerWrite p off 4 v drains) s =
      .next (s.regWrite (portNat p) off.toNat v.toNat (maskBits 80 drains.toNat)) := by
  simp [exec, execRegisterWrite, State.onlyIf, ho, hal]

/-- Any write of a register that changes nothing leaves the machine as it was, whether a port reaches the register or not. -/
theorem exec_registerWrite_unchanged (s : State) (p : Port) (off : BitVec 24) (v : BitVec 32) (drains : BitVec 80)
    (h : s.regWrite (portNat p) off.toNat v.toNat (maskBits 80 drains.toNat) = s) :
    exec (.registerWrite p off 4 v drains) s = .next s := by
  simp only [exec, execRegisterWrite, State.onlyIf, h, ite_self]

/-- A plain register takes the fields of the word that is written to it. -/
theorem exec_registerWrite_plain (s : State) (p : Port) (off : BitVec 24) (v : BitVec 32) (drains : BitVec 80) {r : RegDef}
    (ho : s.bar0Open off.toNat = true) (hal : off.toNat % 4 = 0) (hr : regRow off.toNat = some r)
    (hp : plainRegister off.toNat r) : exec (.registerWrite p off 4 v drains) s =
      .next (s.wrReg off.toNat (r.write (s.rdReg off.toNat) v.toNat)) := by
  have ⟨_, _, _, hc, hl, hw, ha⟩ := hp
  rw [exec_registerWrite_word s p off v drains ho hal, s.regWrite_rw _ _ _ hr (ha ..) hc hl hw, s.writeEntry_plain _ _ hp,
    s.writeFields_eq _ hr]

theorem writesReachTheirFields_holds : writesReachTheirFields := by
  intro s p off v drains r ho hal hr hp
  have ⟨_, _, _, _, hl, _, _⟩ := hp
  have hlay := regRow_laidOut hr
  refine ⟨_, exec_registerWrite_plain s p off v drains ho hal hr hp, fun f hf => ?_, fun o hne => ?_, rfl, rfl, rfl, rfl⟩
  · rw [State.rdReg_wrReg, if_pos rfl, Nat.mod_eq_of_lt (RegDef.write_lt hlay _ (s.rdReg_lt _)), RegDef.bits_write hlay _ _ hf,
      FieldDef.isSet_eq_rw hl hf]
    simp only [Bool.and_eq_true, decide_eq_true_eq]
  · rw [State.rdReg_wrReg, if_neg hne]

theorem committedRegistersAreLocked_holds : committedRegistersAreLocked := by
  intro s p off v drains r hr hl hc ha hcom
  apply exec_registerWrite_unchanged
  rw [s.regWrite_rwl _ _ _ hr ha hc hl, s.directWrite_committed _ _ _ hcom]

theorem directWritesActAsACommit_holds : directWritesActAsACommit := by
  intro s p off v drains r ho hal hr hl hc ha hcom set
  have hw := s.regWrite_rwl (portNat p) v.toNat (maskBits 80 drains.toNat) hr ha hc hl
  refine ⟨fun hchk => ?_, fun hclk => ?_, fun hclk hpwr hchk hsb hld => ?_⟩
  · exact exec_registerWrite_unchanged _ _ _ _ _ (hw.trans (s.directWrite_checkFails _ _ _ hchk))
  · exact exec_registerWrite_unchanged _ _ _ _ _ (hw.trans (s.directWrite_clocks _ _ _ hclk))
  · rw [exec_registerWrite_word s p off v drains ho hal, hw, s.directWrite_commits _ _ _ hcom hclk hpwr hchk hsb hld]

/-! ### What a read leaves of the host plane -/

theorem State.onlyIf_host (s : State) (c : Bool) {f : State → State} (h : (f s).host = s.host) :
    (s.onlyIf c f).host = s.host := by
  unfold State.onlyIf; split
  · exact h
  · rfl

theorem State.each_host {α : Type} (s : State) (l : List α) {f : State → α → State} (h : ∀ s a, (f s a).host = s.host) :
    (s.each l f).host = s.host := by
  induction l generalizing s with
  | nil => rfl
  | cons a l ih => exact (ih (f s a)).trans (h s a)

@[simp] theorem State.countCore_host (s : State) (n : Nat) : (s.countCore n).host = s.host := by
  unfold State.countCore
  dsimp only
  rw [State.onlyIf_host _ _ (State.sat64_host ..), State.onlyIf_host _ _ (State.sat64_host ..), State.setDsp_host]

/-- What a read brings up to date first stands in no part of the host plane. -/
@[simp] theorem State.freshen_host (s : State) (off : Nat) : (s.freshen off).host = s.host := by
  unfold State.freshen
  dsimp only
  rw [State.onlyIf_host _ _ rfl, State.onlyIf_host _ _ (State.each_host _ _ State.countCore_host),
    State.onlyIf_host _ _ (State.wrb_host ..), State.onlyIf_host _ _ (State.wr_host ..),
    State.onlyIf_host _ _ (State.wrb_host ..)]

@[simp] theorem State.clearRc_host (s : State) (off : Nat) : (s.clearRc off).host = s.host := by
  unfold State.clearRc
  split
  · exact State.onlyIf_host _ _ rfl
  · rfl

theorem State.semRead_shadows (s : State) (n reader : Nat) : (s.semRead n reader).host.shadows = s.host.shadows := by
  unfold State.semRead
  dsimp only
  rw [State.onlyIf_host _ _ rfl, State.setHost_host]

@[simp] theorem State.returns_rdata (s : State) (v : Nat) : (s.returns v).host.rdata = v := (rfl)
@[simp] theorem State.returns_shadows (s : State) (v : Nat) : (s.returns v).host.shadows = s.host.shadows := (rfl)
@[simp] theorem State.returns_units (s : State) (v : Nat) : (s.returns v).units = s.units := (rfl)

/-! ### Shadows (R15) -/

section
variable (s : State) (reader : Nat) {off : Nat}

theorem State.shadowRead_lower (h : lowerWord off = true) : s.shadowRead reader off =
    (s.liveWord off, s.setHost { s.host with
      shadows := Sparse.insert s.host.shadows (shadowKey off reader) (BitVec.ofNat 32 (s.liveWord (off + 4))) }) :=
  if_pos h

theorem State.shadowRead_full (h : lowerWord off = true) (h' : lowerWord (off + 4) = false) {v : BitVec 32}
    (hv : Sparse.find s.host.shadows (shadowKey off reader) = some v) : s.shadowRead reader (off + 4) =
    (v.toNat, s.setHost { s.host with shadows := Sparse.erase s.host.shadows (shadowKey off reader) }) := by
  unfold shadowKey at hv
  simp [State.shadowRead, shadowKey, h, h', hv]

theorem State.shadowRead_empty (h : lowerWord off = true) (h' : lowerWord (off + 4) = false)
    (hv : Sparse.find s.host.shadows (shadowKey off reader) = none) :
    s.shadowRead reader (off + 4) = (s.liveWord (off + 4), s) := by
  unfold shadowKey at hv
  simp [State.shadowRead, h, h', hv]

theorem State.shadowRead_unpaired (h : lowerWord off = false) (h' : off < 4 ∨ lowerWord (off - 4) = false) :
    s.shadowRead reader off = (s.liveWord off, s) := by
  unfold State.shadowRead
  rw [if_neg (by simp [h]), if_neg]
  rintro ⟨hlo, hlw⟩
  rcases h' with h' | h'
  · omega
  · simp [h'] at hlw

end

/-! ### Reads -/

theorem State.bar0Open_running {s : State} {off : Nat} (h : s.bar0Open off = true) :
    s.alive = true ∧ s.rdb F.GLB_STATUS.READY = true := by
  simp only [State.bar0Open, Bool.and_eq_true] at h
  exact h.1

/-- An aligned word that a port reaches is read (R14). -/
theorem State.bar0Read_word (s : State) (p : Nat) {off : Nat} (ho : s.bar0Open off = true) (hal : off % 4 = 0) :
    s.bar0Read p off 4 = s.regRead p off := by
  obtain ⟨halive, hready⟩ := State.bar0Open_running ho
  simp [State.bar0Read, halive, hready, ho, hal]

/-- An access of another size or alignment reads 0 (R14). -/
theorem State.bar0Read_notWord (s : State) (p : Nat) {off size : Nat} (ha : s.alive = true)
    (hr : s.rdb F.GLB_STATUS.READY = true) (h : off % 4 ≠ 0 ∨ size ≠ 4) : s.bar0Read p off size = s.returns 0 := by
  unfold State.bar0Read
  rw [if_neg (by simp [ha, hr]), if_neg]
  rcases h with h | h <;> simp [h]

/-- Every BAR0 read leaves the machine as it is, reads a register, or reads 0. -/
theorem State.bar0Read_cases (s : State) (p off size : Nat) :
    s.bar0Read p off size = s ∨ s.bar0Read p off size = s.regRead p off ∨ s.bar0Read p off size = s.returns 0 := by
  unfold State.bar0Read
  split
  · exact .inl rfl
  · split
    · exact .inr (.inl rfl)
    · exact .inr (.inr rfl)

/-- A register that is no semaphore returns what its reader finds, and its RC fields clear (R10, R15). -/
theorem State.regRead_notSemaphore (s : State) (p : Nat) {off : Nat} (hr : (regRow off).isNone = false)
    (hs : ¬ (0x20400 ≤ off ∧ off < 0x20500 ∧ off % 8 = 0)) : s.regRead p off =
      (((s.freshen off).shadowRead p off).2.returns ((s.freshen off).shadowRead p off).1).clearRc off := by
  unfold State.regRead
  dsimp only
  rw [if_neg (by simp [hr]), if_neg hs]

theorem State.regRead_lower (s : State) (p : Nat) {off : Nat} (hal : off % 4 = 0) (h : lowerWord off = true) : s.regRead p off =
    (((s.freshen off).shadowRead p off).2.returns ((s.freshen off).shadowRead p off).1).clearRc off := by
  refine s.regRead_notSemaphore p (lowerWord_isSome h) fun hs => ?_
  rw [lowerWord_semaphore hal (by omega)] at h
  exact Bool.false_ne_true h

theorem State.regRead_upper (s : State) (p : Nat) {off : Nat} (hal : off % 4 = 0) (h : lowerWord off = true)
    (hr : (regRow (off + 4)).isSome = true) : s.regRead p (off + 4) =
      (((s.freshen (off + 4)).shadowRead p (off + 4)).2.returns ((s.freshen (off + 4)).shadowRead p (off + 4)).1).clearRc
        (off + 4) := by
  refine s.regRead_notSemaphore p (by simpa [Option.isNone_eq_false_iff] using hr) fun hs => ?_
  rw [lowerWord_semaphore hal (by omega)] at h
  exact Bool.false_ne_true h

theorem State.regRead_unpaired_shadows (s : State) (p : Nat) {off : Nat} (h : lowerWord off = false)
    (h' : off < 4 ∨ lowerWord (off - 4) = false) : (s.regRead p off).host.shadows = s.host.shadows := by
  unfold State.regRead
  dsimp only
  split
  · rw [State.returns_shadows, State.freshen_host]
  · split
    · rw [State.semRead_shadows, State.freshen_host]
    · rw [State.clearRc_host, State.returns_shadows, State.shadowRead_unpaired _ _ h h', State.freshen_host]

/-- A read of the upper word of a pair is a read of the offset 4 above. -/
theorem toNat_upper {off : BitVec 24} (h : off.toNat + 4 < 2 ^ 24) : (off + 4).toNat = off.toNat + 4 := by
  rw [BitVec.toNat_add]
  exact Nat.mod_eq_of_lt h

theorem exec_read64bitLowerWord (s : State) (p : Port) (off : BitVec 24) :
    exec (.read64bitLowerWord p off) s = .next (s.bar0Read (portNat p) off.toNat 4) := rfl

theorem exec_readClearRegister (s : State) (p : Port) (off : BitVec 24) (size : BitVec 4) :
    exec (.readClearRegister p off size) s = .next (s.bar0Read (portNat p) off.toNat size.toNat) := rfl

/-- What a port finds in the lower word of a pair, and what its shadow holds afterwards. -/
theorem State.bar0Read_lower (s : State) (p : Nat) {off : Nat} (hal : off % 4 = 0) (hl : lowerWord off = true)
    (ho : s.bar0Open off = true) : (s.bar0Read p off 4).host.rdata = (s.freshen off).liveWord off ∧
      (s.bar0Read p off 4).host.shadows = Sparse.insert s.host.shadows (shadowKey off p)
        (BitVec.ofNat 32 ((s.freshen off).liveWord (off + 4))) := by
  rw [s.bar0Read_word p ho hal, s.regRead_lower p hal hl, State.clearRc_host, State.shadowRead_lower _ _ hl]
  simp

section
variable (s : State) (p : Nat) {off : Nat} (hal : off % 4 = 0) (hl : lowerWord off = true)
  (hl' : lowerWord (off + 4) = false) (hr : (regRow (off + 4)).isSome = true) (ho : s.bar0Open (off + 4) = true)
include hal hl hl' hr ho

/-- An upper word is read from a full shadow, which the read empties. -/
theorem State.bar0Read_full {v : BitVec 32} (hv : Sparse.find s.host.shadows (shadowKey off p) = some v) :
    (s.bar0Read p (off + 4) 4).host.rdata = v.toNat ∧
      (s.bar0Read p (off + 4) 4).host.shadows = Sparse.erase s.host.shadows (shadowKey off p) := by
  rw [← s.freshen_host (off + 4)] at hv
  rw [s.bar0Read_word p ho (by omega), s.regRead_upper p hal hl hr, State.clearRc_host, State.shadowRead_full _ _ hl hl' hv]
  simp

/-- An upper word whose shadow is empty is read live. -/
theorem State.bar0Read_empty (hv : Sparse.find s.host.shadows (shadowKey off p) = none) :
    (s.bar0Read p (off + 4) 4).host.rdata = (s.freshen (off + 4)).liveWord (off + 4) ∧
      (s.bar0Read p (off + 4) 4).host.shadows = s.host.shadows := by
  rw [← s.freshen_host (off + 4)] at hv
  rw [s.bar0Read_word p ho (by omega), s.regRead_upper p hal hl hr, State.clearRc_host, State.shadowRead_empty _ _ hl hl' hv]
  simp

end

/-! ### The JTAG read path (R480) -/

/-- The answer to a DBG request is of the offset that the request holds. -/
theorem bits_dbgRequest (off : BitVec 24) :
    bits (BitVec.ofNat 64 (2 ^ 63 + off.toNat * 2 ^ 32)).toNat 55 32 = off.toNat ∧
      bit (BitVec.ofNat 64 (2 ^ 63 + off.toNat * 2 ^ 32)).toNat 63 = true := by
  have := off.isLt
  rw [BitVec.toNat_ofNat, Nat.mod_eq_of_lt (by omega)]
  unfold bits bit
  rw [beq_iff_eq]
  omega

theorem State.jtagSelect_same (s : State) {i : Nat} (h : s.sec.jtag = i) : s.jtagSelect i = s := if_pos h

/-- A DBG request for an aligned word that a port could reach fills only the shadows of the JTAG read path. -/
theorem State.dbgRead_shadows (s : State) {req : Nat} (hv : bit req 63 = true) (ho : s.bar0Open (bits req 55 32) = true)
    (hal : bits req 55 32 % 4 = 0) : (s.dbgRead req).host.shadows =
      ((s.freshen (bits req 55 32)).shadowRead 2 (bits req 55 32)).2.host.shadows := by
  simp [State.dbgRead, hv, ho, hal]

theorem exec_dbg (s : State) (request : BitVec 64) (ha : s.alive = true) (hd : s.rdb F.SEC_FUSE_STAT.DBG_DIS = false)
    (hj : s.sec.jtag = 0x10) : exec (.dbg request) s =
      .next ((s.scanOut (numBits 64 s.sec.dbg.toNat)).dbgRead request.toNat) := by
  simp only [exec, execDbg, State.live_run s _ ha, s.jtagSelect_same hj, hd, Bool.false_eq_true, if_false]

theorem State.scanOut_bar0Open (s : State) (l : List Bool) (off : Nat) : (s.scanOut l).bar0Open off = s.bar0Open off := rfl

theorem State.scanOut_host (s : State) (l : List Bool) : (s.scanOut l).host = s.host := rfl

/-! ### The timebase (R32) -/

theorem State.freshen_timebase (s : State) {off : Nat} (h : off = 0x10 ∨ off = 0x14) : s.freshen off = s := by
  rcases h with rfl | rfl <;> simp [State.freshen, State.onlyIf]

theorem State.bar0Open_below (s : State) {off : Nat} (ha : s.alive = true) (hr : s.rdb F.GLB_STATUS.READY = true)
    (h : off < 0x20000) : s.bar0Open off = true := by
  unfold State.bar0Open
  rw [ha, hr]
  split <;> simp <;> omega

theorem State.clearRc_timebase (s : State) {off : Nat} (h : off = 0x10 ∨ off = 0x14) : s.clearRc off = s := by
  rcases h with rfl | rfl <;> rfl

theorem regRow_timebase {off : Nat} (h : off = 0x10 ∨ off = 0x14) : (regRow off).isNone = false := by
  rcases h with rfl | rfl <;> rfl

/-- A read of either word of the timebase returns what its reader finds and changes no register. -/
theorem State.bar0Read_timebase (s : State) (p : Nat) {off : Nat} (ha : s.alive = true)
    (hr : s.rdb F.GLB_STATUS.READY = true) (h : off = 0x10 ∨ off = 0x14) :
    s.bar0Read p off 4 = (s.shadowRead p off).2.returns (s.shadowRead p off).1 := by
  rw [s.bar0Read_word p (s.bar0Open_below ha hr (by omega)) (by omega),
    s.regRead_notSemaphore p (regRow_timebase h) (by omega), s.freshen_timebase h, State.clearRc_timebase _ h]

section
variable (s : State) (p : Nat) (ha : s.alive = true) (hr : s.rdb F.GLB_STATUS.READY = true)
include ha hr

/-- The lower word of the timebase is TB[31:0], and the shadow then holds TB[63:32] of the same instant. -/
theorem State.bar0Read_timebaseLower : (s.bar0Read p 0x10 4).host.rdata = s.tb.toNat % 2 ^ 32 ∧
    Sparse.find (s.bar0Read p 0x10 4).host.shadows (shadowKey 0x10 p) = some (BitVec.ofNat 32 (s.tb.toNat / 2 ^ 32)) ∧
    (s.bar0Read p 0x10 4).regs = s.regs ∧ (s.bar0Read p 0x10 4).units = s.units := by
  have hlow : lowerWord 0x10 = true := by decide +kernel
  rw [s.bar0Read_timebase p ha hr (.inl rfl), State.shadowRead_lower _ _ hlow]
  refine ⟨rfl, ?_, rfl, rfl⟩
  rw [State.returns_shadows, State.setHost_host, Sparse.find_insert, if_pos rfl]
  rfl

/-- The upper word of the timebase is read from a full shadow and touches no unit. -/
theorem State.bar0Read_timebaseUpper {v : BitVec 32} (hv : Sparse.find s.host.shadows (shadowKey 0x10 p) = some v) :
    (s.bar0Read p 0x14 4).host.rdata = v.toNat ∧ (s.bar0Read p 0x14 4).units = s.units := by
  have hlow : lowerWord 0x10 = true := by decide +kernel
  have hhigh : lowerWord (0x10 + 4) = false := by decide +kernel
  rw [s.bar0Read_timebase p ha hr (.inr rfl), State.shadowRead_full _ _ hlow hhigh hv]
  exact ⟨rfl, rfl⟩

end

theorem pairsReadConsistently_holds : pairsReadConsistently := by
  refine ⟨fun s p off hlt hal hl ho => ?_, fun s p off hlt hal hl hl' hr ho => ?_, fun s p off size hl hl' => ?_,
    fun s off ha hd hj ho hal hl => ?_⟩
  · obtain ⟨hdata, hshadows⟩ := s.bar0Read_lower (portNat p) hal hl ho
    refine ⟨_, exec_read64bitLowerWord s p off, hdata, ?_, fun k hk => ?_⟩
    · rw [hshadows, Sparse.find_insert, if_pos rfl]
    · rw [hshadows, Sparse.find_insert, if_neg hk]
  · have hexec : exec (.readClearRegister p (off + 4) 4) s = .next (s.bar0Read (portNat p) (off.toNat + 4) 4) := by
      rw [exec_readClearRegister, toNat_upper hlt]; rfl
    refine ⟨fun v hv => ⟨_, hexec, ?_⟩, fun hv => ⟨_, hexec, ?_⟩⟩
    · obtain ⟨hdata, hshadows⟩ := s.bar0Read_full (portNat p) hal hl hl' hr ho hv
      refine ⟨hdata, ?_, fun j hj => ?_⟩
      · rw [hshadows, Sparse.find_erase, if_pos rfl]
      · rw [hshadows, Sparse.find_erase, if_neg hj]
    · exact s.bar0Read_empty (portNat p) hal hl hl' hr ho hv
  · refine ⟨_, exec_readClearRegister s p off size, ?_⟩
    rcases s.bar0Read_cases (portNat p) off.toNat size.toNat with h | h | h <;> rw [h]
    · exact s.regRead_unpaired_shadows _ hl hl'
    · rfl
  · obtain ⟨hoff, hvalid⟩ := bits_dbgRequest off
    refine ⟨_, exec_dbg s _ ha hd hj, fun k hk => ?_⟩
    rw [State.dbgRead_shadows _ hvalid (by rw [hoff]; exact ho) (by rw [hoff]; exact hal), hoff,
      State.shadowRead_lower _ _ hl, State.setHost_host, Sparse.find_insert, if_neg hk, State.freshen_host,
      State.scanOut_host]

theorem timebaseReadsLive_holds : timebaseReadsLive := by
  intro s p ha hr
  obtain ⟨hdata, hshadow, hregs, hunits⟩ := s.bar0Read_timebaseLower (portNat p) ha hr
  refine ⟨_, exec_read64bitLowerWord s p 0x10, hdata, hregs, ?_⟩
  have ha' : (s.bar0Read (portNat p) 0x10 4).alive = true := by
    rw [State.alive, State.units_clk hunits]; exact ha
  have hr' : (s.bar0Read (portNat p) 0x10 4).rdb F.GLB_STATUS.READY = true := by
    rw [State.rdb_congr hregs]; exact hr
  obtain ⟨hdata', hunits'⟩ := State.bar0Read_timebaseUpper _ (portNat p) ha' hr' hshadow
  refine ⟨_, exec_readClearRegister _ p 0x14 4, hdata'.trans ?_, hunits'.trans hunits⟩
  have := s.tb.isLt
  rw [BitVec.toNat_ofNat, Nat.mod_eq_of_lt (by omega)]

end Sys2Proof.Machine

open Sys2Proof Sys2Proof.Machine

/-- Settles O15: an access of another size or alignment fails the guard of a write and reads 0. -/
theorem onlyAlignedWordsAreAccessed : Obligations.OnlyAlignedWordsAreAccessed := by
  intro s p off size v drains ha hr h
  have hw : (off.toNat % 4 == 0 && size == 4) = false := by
    rwa [Bool.and_eq_false_iff, beq_eq_false_iff_ne, beq_eq_false_iff_ne]
  have hs : off.toNat % 4 ≠ 0 ∨ size.toNat ≠ 4 := h.imp_right fun hne he => hne (BitVec.eq_of_toNat_eq he)
  constructor
  · simp only [exec, execRegisterWrite, Bool.and_assoc, hw, Bool.and_false, State.onlyIf_false]
  · rw [exec_readClearRegister, s.bar0Read_notWord _ ha hr hs]
    exact ⟨_, rfl, rfl, rfl, rfl, rfl⟩

/-- Settles O17: a plain register takes its fields, and a register that commits change is written by a commit of itself. -/
theorem writesReachUnlockedFields : Obligations.WritesReachUnlockedFields :=
  ⟨writesReachTheirFields_holds, committedRegistersAreLocked_holds, directWritesActAsACommit_holds⟩

/-- Settles O18: a read of a pair's lower word fills its reader's shadow, and one of the upper word empties it. -/
theorem widePairsReadConsistently : Obligations.WidePairsReadConsistently :=
  ⟨pairsReadConsistently_holds, timebaseReadsLive_holds⟩
end

section
/-! PROOF. Offsets that no register occupies, and what both ports read alike (R36). -/

namespace Sys2Proof.Machine

/-! ### What a read brings up to date first -/

section
variable {α : Type} {view : State → α} (s : State)

theorem State.onlyIf_keeps (c : Bool) {f : State → State} (h : ∀ t, view (f t) = view t) :
    view (s.onlyIf c f) = view s := by
  unfold State.onlyIf; split
  · exact h s
  · rfl

theorem State.each_keeps {β : Type} (l : List β) {f : State → β → State} (h : ∀ t b, view (f t b) = view t) :
    view (s.each l f) = view s := by
  induction l generalizing s with
  | nil => rfl
  | cons b l ih => exact (ih (f s b)).trans (h s b)

/-- Bringing an offset up to date touches the register file, the dispatcher's counters and the free values: a view of the
machine that writes of these leave alone stays as it was. -/
theorem State.freshen_keeps (off : Nat) (hreg : ∀ t o v, view (State.wrReg t o v) = view t)
    (hdsp : ∀ t x, view (State.setDsp t x) = view t) (hburn : ∀ t, view (State.burn t) = view t) :
    view (s.freshen off) = view s := by
  have hsat (t : State) (f : Field) (i n : Nat) : view (t.sat64 f i n) = view t := (hreg ..).trans (hreg ..)
  have hcore (t : State) (n : Nat) : view (t.countCore n) = view t := by
    unfold State.countCore
    dsimp only
    rw [State.onlyIf_keeps _ _ fun _ => hsat .., State.onlyIf_keeps _ _ fun _ => hsat .., hdsp]
  unfold State.freshen
  -- one step for each thing brought up to date, the last of them first
  calc view _
    _ = _ := State.onlyIf_keeps _ _ fun _ => (hburn _).trans (hreg ..)
    _ = _ := State.onlyIf_keeps _ _ fun _ => State.each_keeps _ _ hcore
    _ = _ := State.onlyIf_keeps _ _ fun _ => hreg ..
    _ = _ := State.onlyIf_keeps _ _ fun _ => hreg ..
    _ = view s := State.onlyIf_keeps _ _ fun _ => hreg ..

@[simp] theorem State.freshen_events (off : Nat) : (s.freshen off).events = s.events :=
  s.freshen_keeps off State.wrReg_events State.setDsp_events State.burn_events

@[simp] theorem State.freshen_hostMem (off : Nat) : (s.freshen off).hostMem = s.hostMem :=
  s.freshen_keeps off State.wrReg_hostMem State.setDsp_hostMem State.burn_hostMem

end

@[simp] theorem State.returns_events (s : State) (v : Nat) : (s.returns v).events = s.events := (rfl)
@[simp] theorem State.returns_hostMem (s : State) (v : Nat) : (s.returns v).hostMem = s.hostMem := (rfl)

/-! ### Offsets that no register occupies -/

section
variable (s : State) (p : Nat) {off : Nat} (hr : regRow off = none)
include hr

theorem State.regWrite_unoccupied (v : Nat) (drains : List Nat) : s.regWrite p off v drains = s := by
  simp [State.regWrite, hr]

theorem State.regRead_unoccupied : s.regRead p off = (s.freshen off).returns 0 := by
  simp [State.regRead, hr]

/-- A read of such an offset returns 0, whether the port reaches the offset or not, with no event. -/
theorem State.bar0Read_unoccupied (ha : s.alive = true) (hready : s.rdb F.GLB_STATUS.READY = true) (size : Nat) :
    (s.bar0Read p off size).host.rdata = 0 ∧ (s.bar0Read p off size).events = s.events ∧
      (s.bar0Read p off size).hostMem = s.hostMem := by
  unfold State.bar0Read
  rw [if_neg (by simp [ha, hready])]
  split
  · rw [s.regRead_unoccupied p hr]
    simp
  · exact ⟨rfl, rfl, rfl⟩

end

/-! ### The two ports -/

/-- A semaphore returns FREE to whichever reader comes (R399). -/
theorem State.semRead_rdata (s : State) (n reader : Nat) : (s.semRead n reader).host.rdata = s.rd F.HST_SEM.FREE n := by
  unfold State.semRead
  dsimp only
  rw [State.onlyIf_host _ _ rfl, State.setHost_host]

/-- The word that any reader finds outside the 64-bit pairs: 0 where no register lies, FREE of a semaphore, and else the
register itself (R15, R36, R399). -/
theorem State.regRead_unpaired_rdata (s : State) (p : Nat) {off : Nat} (h : lowerWord off = false)
    (h' : off < 4 ∨ lowerWord (off - 4) = false) : (s.regRead p off).host.rdata =
      if (regRow off).isNone then 0
      else if 0x20400 ≤ off ∧ off < 0x20500 ∧ off % 8 = 0 then (s.freshen off).rd F.HST_SEM.FREE ((off - 0x20400) / 8)
      else (s.freshen off).liveWord off := by
  unfold State.regRead
  dsimp only
  split
  · rw [State.returns_rdata]
  · split
    · rw [State.semRead_rdata]
    · rw [State.clearRc_host, State.returns_rdata, State.shadowRead_unpaired _ _ h h']

/-- Outside the 64-bit pairs, of which each port has a shadow of its own, two readers of an offset find the same word. -/
theorem State.bar0Read_unpaired_alike (s : State) (p q size : Nat) {off : Nat} (h : lowerWord off = false)
    (h' : off < 4 ∨ lowerWord (off - 4) = false) :
    (s.bar0Read p off size).host.rdata = (s.bar0Read q off size).host.rdata := by
  unfold State.bar0Read
  split
  · rfl
  · split
    · rw [s.regRead_unpaired_rdata p h h', s.regRead_unpaired_rdata q h h']
    · rfl

end Sys2Proof.Machine

open Sys2Proof Sys2Proof.Machine

/-- Settles O16: a write without a register row does nothing and a read without one returns 0; outside the pairs no case of a
read looks at which port it comes from. -/
theorem unoccupiedOffsetsReadZero : Obligations.UnoccupiedOffsetsReadZero :=
  ⟨fun s p off v drains ha hready hr =>
    ⟨exec_registerWrite_unchanged s p off v drains (s.regWrite_unoccupied _ hr _ _),
      _, exec_readClearRegister s p off 4, s.bar0Read_unoccupied _ hr ha hready _⟩,
  fun s off h h' _ _ =>
    ⟨_, _, exec_readClearRegister s .p0 off 4, exec_readClearRegister s .p1 off 4, s.bar0Read_unpaired_alike _ _ _ h h'⟩⟩
end

section
/-! PROOF. Clock flags, timebase pulses and clock outputs (R157, R158, R411, R412, R420 to R423, R431). -/

namespace Sys2Proof.Machine

/-! ### Fields after a write -/

theorem State.rd_wrb_other (s : State) (f g : Field) (b : Bool) (i j k l : Nat) (h : g.off k l ≠ f.off i j) :
    (s.wrb f b i j).rd g k l = s.rd g k l := s.rd_wr_other f g _ i j k l h

theorem State.rd_wrb_field (s : State) (f g : Field) (b : Bool) (i j k l : Nat) (h : f.lo ≤ f.hi ∧ f.hi < 32)
    (hg : g.hi < f.lo ∨ f.hi < g.lo) : (s.wrb f b i j).rd g k l = s.rd g k l := s.rd_wr_field f g _ i j k l h hg

/-- A one-bit field holds the truth value written to it. -/
theorem State.rd_wrb_same (s : State) (f : Field) (b : Bool) (i j : Nat) (h : f.lo ≤ f.hi ∧ f.hi < 32) (hw : f.hi = f.lo) :
    (s.wrb f b i j).rd f i j = b2n b := by
  rw [State.wrb, State.rd_wr_same _ _ _ _ _ h, hw, Nat.add_sub_cancel_left]
  cases b <;> rfl

theorem b2n_ne_zero (b : Bool) : (b2n b != 0) = b := by cases b <;> rfl

theorem State.rd_setClk (s : State) (x : ClkSt) (f : Field) (i j : Nat) : (s.setClk x).rd f i j = s.rd f i j := rfl

/-! ### The registers that an event may change -/

/-- The registers that the delivery of an event to the two ports writes: lost records, ring pointers, pending messages (R39,
R40, R394). -/
def evtOffsets : List Nat :=
  [0, 1].flatMap fun p => [F.GLB_EVT_LOST.COUNT.off p 0, F.HST_EVT_PTR.TAIL.off p 0, F.HST_MSIX_PBA.PEND.off p 0]

section
variable (s : State) {off : Nat}

theorem State.msix_rdReg (p v : Nat) (h : off ≠ F.HST_MSIX_PBA.PEND.off p (v / 32)) :
    (s.msix p v).rdReg off = s.rdReg off := by
  unfold State.msix
  dsimp only
  split
  · exact s.rdReg_wr_other _ _ _ _ _ h
  · rw [State.rdReg, State.hostWrite_regs]; rfl

theorem State.evtSignal_rdReg (p : Nat) (urgent : Bool) (h : off ≠ F.HST_MSIX_PBA.PEND.off p 0) :
    (s.evtSignal p urgent).rdReg off = s.rdReg off := by
  unfold State.evtSignal
  dsimp only
  split
  · exact State.msix_rdReg _ _ _ h
  · rfl

theorem State.evtToPort_rdReg (e : EventRec) (p : Nat) (hlost : off ≠ F.GLB_EVT_LOST.COUNT.off p 0)
    (htail : off ≠ F.HST_EVT_PTR.TAIL.off p 0) (hpend : off ≠ F.HST_MSIX_PBA.PEND.off p 0) :
    (s.evtToPort e p).rdReg off = s.rdReg off := by
  unfold State.evtToPort
  dsimp only
  split
  · rfl
  · split
    · exact State.rdReg_wr_other _ _ _ _ _ _ hlost
    · rw [State.evtSignal_rdReg _ _ _ hpend, State.rdReg_wr_other _ _ _ _ _ _ htail, State.rdReg, State.setHost_regs,
        State.hostWrite_regs]
      rfl

/-- An event leaves every register alone but those of the two event rings. -/
theorem State.event_rdReg {code sev source pay : Nat} {nme : Bool} (h : off ∉ evtOffsets) :
    (s.event code sev source pay nme).rdReg off = s.rdReg off := by
  simp only [evtOffsets, List.flatMap_cons, List.flatMap_nil, List.mem_append, List.mem_cons, List.not_mem_nil, or_false,
    not_or] at h
  obtain ⟨⟨hlost, htail, hpend⟩, hlost', htail', hpend'⟩ := h
  unfold State.event
  split
  · rfl
  · dsimp only
    rw [State.evtToPort_rdReg _ _ _ hlost' htail' hpend', State.evtToPort_rdReg _ _ _ hlost htail hpend]
    rfl

theorem State.event_rd {code sev source pay : Nat} {nme : Bool} {f : Field} {i j : Nat} (h : f.off i j ∉ evtOffsets) :
    (s.event code sev source pay nme).rd f i j = s.rd f i j := by
  rw [State.rd, s.event_rdReg h, State.rd]

end

/-! ### PLL_SETTLED (R411, R420) -/

/-- Without self-refresh to end, a loop of a PLL domain that settles shows LOCKED and is no longer settling. -/
theorem exec_pllSettled (s : State) (d : BitVec 5) (ha : s.alive = true) (hd : d.toNat ∈ pllDomains)
    (hr : s.mem.selfRefresh = false) : exec (.pllSettled d) s =
      .next ((s.setClk { s.clk with settling := s.clk.settling &&& ~~~(1#26 <<< d.toNat) }).wr F.CLK_DOM_CFG.LOCKED 1
        (d.toNat - 1)) := by
  have range : ∀ n ∈ pllDomains, 1 ≤ n ∧ n ≤ 25 := by decide
  have hc : pllDomains.contains d.toNat = true := List.contains_iff_mem.mpr hd
  simp only [exec, execPllSettled, s.live_run _ ha, decide_eq_true (range _ hd), hc, Bool.true_or, State.onlyIf_true,
    State.wr_mem, State.setClk_mem, hr, Bool.false_and, State.onlyIf_false]

theorem pllSettled_follows (s : State) (d : BitVec 5) (ha : s.alive = true) (hd : d.toNat ∈ pllDomains)
    (hr : s.mem.selfRefresh = false) : ∃ t, exec (.pllSettled d) s = .next t ∧
      t.rd F.CLK_DOM_CFG.LOCKED (d.toNat - 1) = 1 ∧ t.clk.settling.getLsbD d.toNat = false ∧
      (∀ e, e ≠ d.toNat → t.clk.settling.getLsbD e = s.clk.settling.getLsbD e) ∧ t.mem = s.mem := by
  have hlt := d.isLt
  refine ⟨_, exec_pllSettled s d ha hd hr, ?_, ?_, fun e he => ?_, State.wr_mem ..⟩
  · exact State.rd_wr_same _ _ _ _ _ ⟨by decide, by decide⟩
  · simp
  · rw [State.wr_clk, State.setClk_clk, BitVec.getLsbD_and, BitVec.getLsbD_not, BitVec.getLsbD_shiftLeft]
    by_cases hw : e < 26
    · have : e < d.toNat ∨ e - d.toNat ≠ 0 := by omega
      rcases this with h | h <;> simp [hw, h]
    · rw [BitVec.getLsbD_of_ge _ _ (by omega), Bool.false_and]

/-! ### AON_PERIOD_END (R412, R422) -/

/-- The flags that follow the count of RCO and the reference clocks of a period. -/
def State.aonFlags (s : State) (n : Nat) (p0 p1 l : Bool) : State :=
  let s := (((s.wr F.CLK_MON.RCOCOUNT n).wrb F.CLK_STATUS.P0REF_RDY p0).wrb F.CLK_STATUS.P1REF_RDY p1).wrb
    F.CLK_STATUS.LREF_RDY l
  let s := (s.wrb F.CLK_STATUS.RCO_RDY (decide (1377 ≤ n ∧ n ≤ 1552))).showArmed
  s.setClk { s.clk with
    rcoFailed := decide (n < 1318 ∨ 1611 < n), windows := if decide (n < 1318 ∨ 1611 < n) then 0 else s.clk.windows }

/-- RCO has failed: its non-maskable event. -/
def State.rcoFails (s : State) (n : Nat) : State :=
  (s.wr F.CLK_NME.RCO_FAIL 1).clkEvent 0x0102 sevWarn 0 (payload [(16, 2, n)]) true

theorem exec_aonPeriodEnd (s : State) (n : BitVec 11) (p0 p1 l : Bool) (ha : s.alive = true) :
    exec (.aonPeriodEnd n p0 p1 l) s = .next ((s.aonFlags n.toNat p0 p1 l).onlyIf
      (decide (n.toNat < 1318 ∨ 1611 < n.toNat) && !s.clk.rcoFailed) fun s => s.rcoFails n.toNat) := by
  simp only [exec, execAonPeriodEnd, s.live_run _ ha]
  rfl

section
variable (s : State) (n : Nat) (p0 p1 l : Bool)

theorem State.aonFlags_events : (s.aonFlags n p0 p1 l).events = s.events := by
  simp only [State.aonFlags, State.showArmed, State.setClk_events, State.wrb_events, State.wr_events]

theorem State.aonFlags_rcoFailed : (s.aonFlags n p0 p1 l).clk.rcoFailed = decide (n < 1318 ∨ 1611 < n) := by
  rw [State.aonFlags, State.setClk_clk]

theorem State.aonFlags_rcoCount (hn : n < 2 ^ 11) : (s.aonFlags n p0 p1 l).rd F.CLK_MON.RCOCOUNT = n := by
  unfold State.aonFlags State.showArmed
  dsimp only
  simp (disch := decide) only [State.rd_setClk, State.rd_wrb_other]
  rw [State.rd_wr_same _ _ _ _ _ ⟨by decide, by decide⟩]
  exact Nat.mod_eq_of_lt hn

theorem State.aonFlags_ready : (s.aonFlags n p0 p1 l).rdb F.CLK_STATUS.RCO_RDY = decide (1377 ≤ n ∧ n ≤ 1552) ∧
    (s.aonFlags n p0 p1 l).rdb F.CLK_STATUS.P0REF_RDY = p0 ∧ (s.aonFlags n p0 p1 l).rdb F.CLK_STATUS.P1REF_RDY = p1 ∧
    (s.aonFlags n p0 p1 l).rdb F.CLK_STATUS.LREF_RDY = l := by
  have harmed (t : State) (f : Field) (hf : 0 < f.lo) : t.showArmed.rd f = t.rd f :=
    t.rd_wrb_field _ _ _ _ _ _ _ (by decide) (.inr hf)
  unfold State.aonFlags State.rdb
  simp (disch := decide) only [State.rd_setClk, harmed, State.rd_wrb_field, State.rd_wrb_same, b2n_ne_zero, and_self]

theorem State.rcoFails_clk : (s.rcoFails n).clk = s.clk := State.units_clk (State.event_units ..)

/-- The event of a failed RCO leaves the clock registers alone but for its bit of CLK_NME. -/
theorem State.rcoFails_rd (f : Field) (h : f.off 0 0 ∉ evtOffsets) (hn : f.off 0 0 ≠ F.CLK_NME.RCO_FAIL.off 0 0) :
    (s.rcoFails n).rd f = s.rd f := by
  rw [State.rcoFails, State.clkEvent, State.event_rd _ h, State.rd_wr_other _ _ _ _ _ _ _ _ hn]

theorem State.rcoFails_rcoFail : (s.rcoFails n).rd F.CLK_NME.RCO_FAIL = 1 := by
  rw [State.rcoFails, State.clkEvent, State.event_rd _ (by decide),
    State.rd_wr_same _ _ _ _ _ ⟨by decide, by decide⟩]
  rfl

end

theorem aonPeriodEnd_follows (s : State) (n : BitVec 11) (p0 p1 l : Bool) (ha : s.alive = true) :
    ∃ t, exec (.aonPeriodEnd n p0 p1 l) s = .next t ∧ t.rd F.CLK_MON.RCOCOUNT = n.toNat ∧
      t.rdb F.CLK_STATUS.RCO_RDY = decide (1377 ≤ n.toNat ∧ n.toNat ≤ 1552) ∧ t.rdb F.CLK_STATUS.P0REF_RDY = p0 ∧
      t.rdb F.CLK_STATUS.P1REF_RDY = p1 ∧ t.rdb F.CLK_STATUS.LREF_RDY = l ∧
      t.clk.rcoFailed = decide (n.toNat < 1318 ∨ 1611 < n.toNat) ∧
      (s.clk.rcoFailed = false → n.toNat < 1318 ∨ 1611 < n.toNat → t.rd F.CLK_NME.RCO_FAIL = 1) ∧
      (s.clk.rcoFailed = true → t.events = s.events) := by
  obtain ⟨hrco, hp0, hp1, hl⟩ := s.aonFlags_ready n.toNat p0 p1 l
  have hstatus (c : Bool) (f : Field) (hf : f.off 0 0 = 0x10000) :
      ((s.aonFlags n.toNat p0 p1 l).onlyIf c fun s => s.rcoFails n.toNat).rdb f = (s.aonFlags n.toNat p0 p1 l).rdb f :=
    State.onlyIf_keeps (view := fun s => s.rdb f) _ c fun t =>
      congrArg (· != 0) (t.rcoFails_rd _ f (by rw [hf]; decide) (by rw [hf]; decide))
  refine ⟨_, exec_aonPeriodEnd s n p0 p1 l ha, ?_, (hstatus _ _ rfl).trans hrco, (hstatus _ _ rfl).trans hp0,
    (hstatus _ _ rfl).trans hp1, (hstatus _ _ rfl).trans hl, ?_, fun hf hn => ?_, fun hf => ?_⟩
  · rw [State.onlyIf_keeps (view := fun s => s.rd F.CLK_MON.RCOCOUNT) _ _ fun t =>
      t.rcoFails_rd _ _ (by decide) (by decide), s.aonFlags_rcoCount _ _ _ _ n.isLt]
  · rw [State.onlyIf_keeps (view := State.clk) _ _ fun t => t.rcoFails_clk _, State.aonFlags_rcoFailed]
  · rw [decide_eq_true hn, hf]
    exact State.rcoFails_rcoFail ..
  · rw [hf, Bool.not_true, Bool.and_false, State.onlyIf_false, State.aonFlags_events]

/-! ### CLK_NME_CLEAR (R423) -/

theorem bit_toNat {w : Nat} (v : BitVec w) (i : Nat) : bit v.toNat i = v.getLsbD i := by
  rw [bit, ← BitVec.testBit_toNat, Nat.testBit_eq_decide_div_mod_eq]
  rfl

theorem exec_clkNmeClear (s : State) (v : BitVec 32) (ho : s.bar0Open 0x10008 = true) :
    exec (.clkNmeClear v) s = .next (s.nmeWrite v.toNat) := by
  simp only [exec, execClkNmeClear, ho, State.onlyIf_true]

theorem State.nmeWrite_host (s : State) (v : Nat) : (s.nmeWrite v).host = s.host :=
  (State.onlyIf_keeps _ _ fun _ => State.wr_host ..).trans (State.onlyIf_keeps _ _ fun _ => State.wr_host ..)

theorem State.nmeWrite_units (s : State) (v : Nat) : (s.nmeWrite v).units = s.units :=
  (State.onlyIf_keeps _ _ fun _ => State.wr_units ..).trans (State.onlyIf_keeps _ _ fun _ => State.wr_units ..)

/-- A field after it has been cleared where a condition holds. -/
theorem State.rd_onlyIf_clear (s : State) (c : Bool) {f : Field} (h : f.fits) :
    (s.onlyIf c fun s => s.wr f 0).rd f = if c then 0 else s.rd f := by
  cases c
  · rfl
  · rw [State.onlyIf_true, State.rd_wr_same _ _ _ _ _ h, Nat.zero_mod, if_pos rfl]

theorem State.rd_onlyIf_clear_field (s : State) (c : Bool) {f g : Field} (h : f.fits) (hg : g.hi < f.lo ∨ f.hi < g.lo) :
    (s.onlyIf c fun s => s.wr f 0).rd g = s.rd g :=
  State.onlyIf_keeps (view := fun s => s.rd g) s c fun t => t.rd_wr_field f g _ _ _ _ _ h hg

theorem clkNmeClear_follows (s : State) (v : BitVec 32) (ho : s.bar0Open 0x10008 = true) :
    ∃ t, exec (.clkNmeClear v) s = .next t ∧
      t.rd F.CLK_NME.XREF_FAIL = (if v.getLsbD 0 then 0 else s.rd F.CLK_NME.XREF_FAIL) ∧
      t.rd F.CLK_NME.RCO_FAIL = (if v.getLsbD 1 then 0 else s.rd F.CLK_NME.RCO_FAIL) ∧ t.host = s.host ∧
      t.units = s.units := by
  refine ⟨_, exec_clkNmeClear s v ho, ?_, ?_, s.nmeWrite_host _, s.nmeWrite_units _⟩
  · rw [State.nmeWrite, State.rd_onlyIf_clear_field _ _ ⟨by decide, by decide⟩ (by decide),
      State.rd_onlyIf_clear _ _ ⟨by decide, by decide⟩, bit_toNat]
  · rw [State.nmeWrite, State.rd_onlyIf_clear _ _ ⟨by decide, by decide⟩,
      State.rd_onlyIf_clear_field _ _ ⟨by decide, by decide⟩ (by decide), bit_toNat]

theorem clockFlagsFollow_holds : clockFlagsFollow :=
  ⟨pllSettled_follows, aonPeriodEnd_follows, clkNmeClear_follows⟩

/-! ### What the array leaves alone -/

theorem State.hubEdges_keeps {α : Type} {view : State → α} (s : State) (hcap : ∀ t x, view (State.setCap t x) = view t)
    (hub : BitVec 48) : view (s.hubEdges hub) = view s := State.each_keeps _ _ fun _ _ => hcap ..

section
variable {α : Type} {view : State → α} (s : State) (hreg : ∀ t o v, view (State.wrReg t o v) = view t)
include hreg

theorem State.setPad_keeps (p : Nat) (level oe : Bool) : view (s.setPad p level oe) = view s :=
  (hreg ..).trans (State.onlyIf_keeps _ _ fun _ => hreg ..)

theorem State.ownerTakes_keeps (p : Nat) : view (s.ownerTakes p) = view s := by
  unfold State.ownerTakes
  split
  · exact s.setPad_keeps hreg ..
  · exact s.setPad_keeps hreg ..
  · rfl
  · exact s.setPad_keeps hreg ..

variable (hpins : ∀ t x, view (State.setPins t x) = view t) (hela : ∀ t x, view (State.setEla t x) = view t)
  (hcap : ∀ t x, view (State.setCap t x) = view t) (hburn : ∀ t, view (State.burn t) = view t)

include hpins in
theorem State.elaDrives_keeps (out oe goe : BitVec 512) : view (s.elaDrives out oe goe) = view s :=
  (State.each_keeps _ _ fun _ _ => State.onlyIf_keeps _ _ fun t => t.ownerTakes_keeps hreg _).trans (hpins ..)

include hela in
theorem State.elaNets_keeps (x : ElaCtx) : view (s.elaNets x) = view s := (hreg ..).trans (hela ..)

include hpins hela hcap

theorem State.elaPublish_keeps (x : ElaCtx) (v : ElaVal) : view (s.elaPublish x v) = view s := by
  unfold State.elaPublish
  calc view _
    _ = _ := (hreg ..).trans ((hreg ..).trans (hela ..))
    _ = _ := State.hubEdges_keeps _ hcap _
    _ = view s := s.elaDrives_keeps hreg hpins ..

theorem State.elaOff_keeps (inp : ElaIn) : view (s.elaOff inp) = view s := by
  unfold State.elaOff
  calc view _
    _ = _ := State.elaNets_keeps _ hreg hela _
    _ = _ := (hreg ..).trans (hreg ..)
    _ = _ := State.elaDrives_keeps _ hreg hpins ..
    _ = _ := hela ..
    _ = view s := s.hubEdges_keeps hcap _

include hburn

theorem State.elaMove_keeps (inp : ElaIn) : view (s.elaMove inp) = view s := by
  unfold State.elaMove
  calc view _
    _ = _ := State.elaNets_keeps _ hreg hela _
    _ = _ := State.elaPublish_keeps _ hreg hpins hela hcap ..
    _ = _ := (hburn _).trans (hela ..)
    _ = view s := State.onlyIf_keeps _ _ fun _ => hela ..

/-- When the array settles again it touches the register file, the pins, its own state, the capture engine and the free
values: a view of the machine that writes of these leave alone stays as it was. -/
theorem State.elaAgain_keeps : view s.elaAgain = view s := by
  unfold State.elaAgain State.elaStep
  split
  · exact s.elaOff_keeps hreg hpins hela hcap _
  · rw [State.elaMove_keeps _ hreg hpins hela hcap hburn, State.elaMove_keeps _ hreg hpins hela hcap hburn]

end

section
variable (s : State)

theorem State.elaAgain_clk : s.elaAgain.clk = s.clk :=
  s.elaAgain_keeps State.wrReg_clk State.setPins_clk State.setEla_clk State.setCap_clk State.burn_clk

theorem State.elaAgain_fab : s.elaAgain.fab = s.fab :=
  s.elaAgain_keeps State.wrReg_fab State.setPins_fab State.setEla_fab State.setCap_fab State.burn_fab

theorem State.elaAgain_mem : s.elaAgain.mem = s.mem :=
  s.elaAgain_keeps State.wrReg_mem State.setPins_mem State.setEla_mem State.setCap_mem State.burn_mem

theorem State.elaAgain_host : s.elaAgain.host = s.host :=
  s.elaAgain_keeps State.wrReg_host State.setPins_host State.setEla_host State.setCap_host State.burn_host

theorem State.elaAgain_events : s.elaAgain.events = s.events :=
  s.elaAgain_keeps State.wrReg_events State.setPins_events State.setEla_events State.setCap_events State.burn_events

end

/-! ### TB_PULSE (R431) -/

/-- The latest instant of pulse k (R431). -/
def State.pulseInstant (s : State) (k : Nat) : Nat :=
  s.now - (s.now - s.rd64 F.CLK_TBP_PHASE_LO.PHASE k) % s.rd F.CLK_TBP_PERIOD.PERIOD k

/-- After an instant that its last commit acts on, an enabled pulse goes high where its eight ticks are not yet over. -/
theorem exec_tbPulse (s : State) (i : BitVec 2) (ha : s.alive = true) (he : s.rdb F.CLK_TBP_CFG.EN i.toNat = true)
    (hphase : s.rd64 F.CLK_TBP_PHASE_LO.PHASE i.toNat ≤ s.now)
    (hat : Sparse.get (fun _ => 0) s.clk.pulseAt i.toNat ≤ s.pulseInstant i.toNat) : exec (.tbPulse i) s =
      .next (s.onlyIf (decide (s.now < s.pulseInstant i.toNat + 8)) fun t => (t.setClk { t.clk with
        pulses := Sparse.insert t.clk.pulses i.toNat (s.pulseInstant i.toNat + 8) }).elaAgain) := by
  unfold State.pulseInstant at *
  simp only [exec, execTbPulse, s.live_run _ ha, he, decide_eq_true hphase, decide_eq_true hat, Bool.true_and, Bool.and_true]

theorem pulsesLastEightTicks_holds : pulsesLastEightTicks := by
  intro s i ha he phase at_ hphase hat
  rw [exec_tbPulse s i ha he hphase hat]
  refine ⟨fun h => ⟨_, rfl, ?_⟩, fun h => ?_⟩
  · rw [show s.pulseInstant i.toNat = at_ from rfl, decide_eq_true h, State.onlyIf_true, State.elaAgain_clk,
      State.elaAgain_fab, State.elaAgain_mem, State.elaAgain_host, State.elaAgain_events, State.setClk_clk]
    refine ⟨?_, fun k hk => ?_, rfl, rfl, rfl, rfl⟩
    · rw [Sparse.find_insert, if_pos rfl]
    · rw [Sparse.find_insert, if_neg hk]
  · rw [show s.pulseInstant i.toNat = at_ from rfl, decide_eq_false (Nat.not_lt.mpr h), State.onlyIf_false]

/-! ### Clock outputs (R157, R158) -/

section
variable (s : State) (k : BitVec 3) (v : Nat)

/-- A write of LOCKED leaves alone every register outside those of the clock outputs. -/
theorem State.rd_wr_dcoLocked (f : Field) (i j : Nat) (h : f.off i j < 0x306000 ∨ 0x306100 ≤ f.off i j) :
    (s.wr F.PIN_DCO_CTRL.LOCKED v k.toNat).rd f i j = s.rd f i j := by
  have := k.isLt
  refine s.rd_wr_other _ _ _ _ _ _ _ ?_
  rw [show F.PIN_DCO_CTRL.LOCKED.off k.toNat 0 = 0x306000 + 32 * k.toNat from rfl]
  omega

theorem State.rd_wr_dcoLocked_other {j : BitVec 3} (h : j ≠ k) :
    (s.wr F.PIN_DCO_CTRL.LOCKED v k.toNat).rd F.PIN_DCO_CTRL.LOCKED j.toNat = s.rd F.PIN_DCO_CTRL.LOCKED j.toNat := by
  have hne : j.toNat ≠ k.toNat := fun e => h (BitVec.eq_of_toNat_eq e)
  refine s.rd_wr_other _ _ _ _ _ _ _ ?_
  simp only [Field.off, F.PIN_DCO_CTRL.LOCKED]
  omega

theorem State.padsFree_wr_dcoLocked : (s.wr F.PIN_DCO_CTRL.LOCKED v k.toNat).padsFree = s.padsFree := by
  simp (disch := decide) only [State.padsFree, State.pairHeld, State.boundaryHolds, State.rdb, State.rd_wr_dcoLocked,
    State.wr_host, State.wr_pair, State.wr_sec]

theorem State.recovery_wr_dcoLocked : (s.wr F.PIN_DCO_CTRL.LOCKED v k.toNat).recovery = s.recovery := by
  rw [State.recovery, State.rd_wr_dcoLocked _ _ _ _ _ _ (by decide), State.recovery]

/-- LOCKED is no part of the modulation (R157). -/
theorem State.dcoWords_wr_dcoLocked : (s.wr F.PIN_DCO_CTRL.LOCKED v k.toNat).dcoWords k.toNat = s.dcoWords k.toNat := by
  have hk := k.isLt
  have hctrl (f : Field) (hf : f.hi < 7) : (s.wr F.PIN_DCO_CTRL.LOCKED v k.toNat).rd f k.toNat = s.rd f k.toNat :=
    s.rd_wr_field _ _ _ _ _ _ _ ⟨by decide, by decide⟩ (.inl hf)
  have hssc (f : Field) (hf : f.off k.toNat 0 = 0x30600C + 32 * k.toNat) :
      (s.wr F.PIN_DCO_CTRL.LOCKED v k.toNat).rd f k.toNat = s.rd f k.toNat := by
    refine s.rd_wr_other _ _ _ _ _ _ _ ?_
    rw [hf, show F.PIN_DCO_CTRL.LOCKED.off k.toNat 0 = 0x306000 + 32 * k.toNat from rfl]
    omega
  have hprof (i : Nat) : (s.wr F.PIN_DCO_CTRL.LOCKED v k.toNat).rdReg (F.PIN_DCO_PROF.P_EVEN.off k.toNat i) =
      s.rdReg (F.PIN_DCO_PROF.P_EVEN.off k.toNat i) := by
    refine s.rdReg_wr_other _ _ _ _ _ ?_
    simp only [Field.off, F.PIN_DCO_CTRL.LOCKED, F.PIN_DCO_PROF.P_EVEN]
    omega
  simp only [State.dcoWords, hprof]
  rw [hctrl F.PIN_DCO_CTRL.SSC (by decide), hctrl F.PIN_DCO_CTRL.PROFILE (by decide), hssc F.PIN_DCO_SSC.RATE rfl,
    hssc F.PIN_DCO_SSC.DEPTH rfl]

theorem dcoLocked_not_evtOffset : F.PIN_DCO_CTRL.LOCKED.off k.toNat 0 ∉ evtOffsets := by
  have above : ∀ o ∈ evtOffsets, o < 0x306000 := by decide
  intro h
  have := above _ h
  rw [show F.PIN_DCO_CTRL.LOCKED.off k.toNat 0 = 0x306000 + 32 * k.toNat from rfl] at this
  omega

/-- The pad of a clock output that is set, free or held, and those of the others. -/
theorem State.setDco_dcoPad (s : State) (k v j : Nat) :
    (s.setDco k v).dcoPad j = if j = k then (if s.padsFree then v else 0) else s.dcoPad j :=
  Sparse.get_set ..

theorem State.setDco_rd (s : State) (k v : Nat) (f : Field) (i j : Nat) : (s.setDco k v).rd f i j = s.rd f i j := rfl

theorem State.dcoPad_congr {s t : State} (h : t.pin = s.pin) (k : Nat) : t.dcoPad k = s.dcoPad k := by
  rw [State.dcoPad, h, State.dcoPad]

theorem State.dcoModulate_dcoMod (s : State) (k j : Nat) : Sparse.get (fun _ => []) (s.dcoModulate k).pin.dcoMod j =
    if j = k then s.dcoWords k else Sparse.get (fun _ => []) s.pin.dcoMod j := by
  rw [State.dcoModulate, State.setPins_pin, Sparse.get_set]

/-- A clock output shows LOCKED or its loss, and its pad runs or is held low. -/
def State.dcoShow (s : State) (k : Nat) (locked pad : Nat) : State := (s.wr F.PIN_DCO_CTRL.LOCKED locked k).setDco k pad

theorem State.dcoShow_locked (pad : Nat) : (s.dcoShow k.toNat v pad).rd F.PIN_DCO_CTRL.LOCKED k.toNat = v % 2 :=
  s.rd_wr_same _ _ _ _ ⟨by decide, by decide⟩

theorem State.dcoShow_pad (pad : Nat) : (s.dcoShow k.toNat v pad).dcoPad k.toNat = if s.padsFree then pad else 0 := by
  rw [State.dcoShow, State.setDco_dcoPad, if_pos rfl, State.padsFree_wr_dcoLocked]

theorem State.dcoShow_other (pad : Nat) {j : BitVec 3} (h : j ≠ k) :
    (s.dcoShow k.toNat v pad).rd F.PIN_DCO_CTRL.LOCKED j.toNat = s.rd F.PIN_DCO_CTRL.LOCKED j.toNat ∧
      (s.dcoShow k.toNat v pad).dcoPad j.toNat = s.dcoPad j.toNat := by
  constructor
  · rw [State.dcoShow, State.setDco_rd, State.rd_wr_dcoLocked_other _ _ _ h]
  · rw [State.dcoShow, State.setDco_dcoPad, if_neg fun e => h (BitVec.eq_of_toNat_eq e)]
    rfl

variable (ha : s.alive = true)
include ha

theorem exec_dcoUnlock (he : s.rdb F.PIN_DCO_CTRL.EN k.toNat = true) (hl : s.rdb F.PIN_DCO_CTRL.LOCKED k.toNat = true) :
    exec (.dcoUnlock k) s =
      .next ((s.dcoShow k.toNat 0 1).event 0x0604 sevError (sourceId 0x0604 0 (0x100 + k.toNat))) := by
  simp only [exec, execDcoUnlock, s.live_run _ ha, he, hl, Bool.and_true, State.onlyIf_true, State.dcoShow]

theorem exec_dcoLockAcquired (he : s.rdb F.PIN_DCO_CTRL.EN k.toNat = true)
    (hl : s.rdb F.PIN_DCO_CTRL.LOCKED k.toNat = false) :
    exec (.dcoLockAcquired k) s = .next ((s.dcoShow k.toNat 1 2).dcoModulate k.toNat) := by
  simp only [exec, execDcoLockAcquired, s.live_run _ ha, he, hl, Bool.not_false, Bool.and_true, State.onlyIf_true,
    State.dcoShow]

theorem exec_dcoModulationPeriodStart : exec (.dcoModulationPeriodStart k) s =
    .next (s.onlyIf (s.rdb F.PIN_DCO_CTRL.LOCKED k.toNat) fun s => s.dcoModulate k.toNat) := by
  simp only [exec, execDcoModulationPeriodStart, s.live_run _ ha]

/-- An output that loses its lock is held low, and DCO_UNLOCK is raised. -/
theorem dcoUnlock_follows (he : s.rdb F.PIN_DCO_CTRL.EN k.toNat = true) (hl : s.rdb F.PIN_DCO_CTRL.LOCKED k.toNat = true) :
    ∃ t, exec (.dcoUnlock k) s = .next t ∧ t.rd F.PIN_DCO_CTRL.LOCKED k.toNat = 0 ∧
      t.dcoPad k.toNat = (if s.padsFree then 1 else 0) ∧
      (∀ j : BitVec 3, j ≠ k → t.rd F.PIN_DCO_CTRL.LOCKED j.toNat = s.rd F.PIN_DCO_CTRL.LOCKED j.toNat ∧
        t.dcoPad j.toNat = s.dcoPad j.toNat) ∧ t.pin.dcoMod = s.pin.dcoMod ∧ t.fab = s.fab ∧
      (s.recovery = false → t.events.map (·.code) = 0x0604 :: s.events.map (·.code)) := by
  have hunits := (s.dcoShow k.toNat 0 1).event_units 0x0604 sevError (sourceId 0x0604 0 (0x100 + k.toNat)) 0 false
  have hpin := State.units_pin hunits
  refine ⟨_, exec_dcoUnlock s k ha he hl, ?_, ?_, fun j hj => ?_, ?_, ?_, fun hr => ?_⟩
  · rw [State.event_rd _ (dcoLocked_not_evtOffset k), State.dcoShow_locked]
  · rw [State.dcoPad_congr hpin, State.dcoShow_pad]
  · rw [State.event_rd _ (dcoLocked_not_evtOffset j), State.dcoPad_congr hpin]
    exact s.dcoShow_other k 0 1 hj
  · rw [hpin]; rfl
  · rw [State.units_fab hunits]; rfl
  · have hr' : (s.dcoShow k.toNat 0 1).recovery = false := (s.recovery_wr_dcoLocked k 0).trans hr
    rw [State.event_events, hr']
    rfl

/-- An output whose loop locks runs with the modulation that is committed. -/
theorem dcoLockAcquired_follows (he : s.rdb F.PIN_DCO_CTRL.EN k.toNat = true)
    (hl : s.rdb F.PIN_DCO_CTRL.LOCKED k.toNat = false) :
    ∃ t, exec (.dcoLockAcquired k) s = .next t ∧ t.rd F.PIN_DCO_CTRL.LOCKED k.toNat = 1 ∧
      t.dcoPad k.toNat = (if s.padsFree then 2 else 0) ∧
      Sparse.get (fun _ => []) t.pin.dcoMod k.toNat = s.dcoWords k.toNat ∧ t.host = s.host ∧ t.fab = s.fab ∧
      t.events = s.events := by
  refine ⟨_, exec_dcoLockAcquired s k ha he hl, s.dcoShow_locked k 1 2, s.dcoShow_pad k 1 2, ?_, rfl, rfl, rfl⟩
  rw [State.dcoModulate_dcoMod, if_pos rfl]
  exact s.dcoWords_wr_dcoLocked k 1

/-- A modulation period of a locked output takes up the committed words; without lock there is none. -/
theorem dcoModulationPeriodStart_follows :
    (s.rdb F.PIN_DCO_CTRL.LOCKED k.toNat = true → ∃ t, exec (.dcoModulationPeriodStart k) s = .next t ∧
      Sparse.get (fun _ => []) t.pin.dcoMod k.toNat = s.dcoWords k.toNat ∧
      (∀ j, j ≠ k.toNat → Sparse.get (fun _ => []) t.pin.dcoMod j = Sparse.get (fun _ => []) s.pin.dcoMod j) ∧
      t.pin.dcoPad = s.pin.dcoPad ∧ t.regs = s.regs ∧ t.host = s.host ∧ t.fab = s.fab) ∧
    (s.rdb F.PIN_DCO_CTRL.LOCKED k.toNat = false → exec (.dcoModulationPeriodStart k) s = .next s) := by
  rw [exec_dcoModulationPeriodStart s k ha]
  refine ⟨fun hl => ⟨_, rfl, ?_⟩, fun hl => by rw [hl, State.onlyIf_false]⟩
  rw [hl, State.onlyIf_true]
  refine ⟨?_, fun j hj => ?_, rfl, rfl, rfl, rfl⟩
  · rw [State.dcoModulate_dcoMod, if_pos rfl]
  · rw [State.dcoModulate_dcoMod, if_neg hj]

end

theorem clockOutputsFollowTheirLoops_holds : clockOutputsFollowTheirLoops :=
  ⟨dcoUnlock_follows, dcoLockAcquired_follows, dcoModulationPeriodStart_follows⟩

end Sys2Proof.Machine

open Sys2Proof Sys2Proof.Machine

/-- Settles O27: an event touches no clock register and no pad, and the array that settles again no pulse. -/
theorem clockEventsFollow : Obligations.ClockEventsFollow :=
  ⟨clockFlagsFollow_holds, pulsesLastEightTicks_holds, clockOutputsFollowTheirLoops_holds⟩
end

section
/-! PROOF. Release, hold, clocking and contention of the Edge Logic Array (R167, R169, R175 to R178, Table ELA-4). -/

namespace Sys2Proof.Machine

theorem State.each_keeps_of_mem {α β : Type} {view : State → α} (s : State) (l : List β) {f : State → β → State}
    (h : ∀ t, ∀ b ∈ l, view (f t b) = view t) : view (s.each l f) = view s := by
  induction l generalizing s with
  | nil => rfl
  | cons b l ih => exact (ih _ fun t c hc => h t c (List.mem_cons_of_mem _ hc)).trans (h s b List.mem_cons_self)

theorem maskBits_lt {n m p : Nat} (h : p ∈ maskBits n m) : p < n := List.mem_range.mp (List.mem_filter.mp h).1

/-! ### What acceptance and completion of a command leave alone (R42, R390 to R394) -/

/-- A view of the machine that writes to the host plane leave alone: to its registers, to its state, and to host memory. -/
structure HostBlind {α : Type} (view : State → α) : Prop where
  reg : ∀ t o v, o < 0x40000 → view (State.wrReg t o v) = view t
  host : ∀ t x, view (State.setHost t x) = view t
  hostMem : ∀ t x, view (State.setHostMem t x) = view t

theorem hostBlind_events : HostBlind State.events := ⟨fun _ _ _ _ => rfl, fun _ _ => rfl, fun _ _ => rfl⟩

theorem hostBlind_rd {f : Field} {i j : Nat} (h : 0x40000 ≤ f.off i j) : HostBlind fun s => s.rd f i j where
  reg t o v ho := by
    show bits ((t.wrReg o v).rdReg _) _ _ = _
    rw [State.rdReg_wrReg, if_neg (by omega), State.rd]
  host _ _ := rfl
  hostMem _ _ := rfl

namespace HostBlind

variable {α : Type} {view : State → α} (hb : HostBlind view) (s : State)
include hb

theorem hostWrite (p a : Nat) (l : List Byte) : view (s.hostWrite p a l) = view s := by
  induction l generalizing s a with
  | nil => rfl
  | cons b bs ih => exact (ih _ _).trans (hb.hostMem ..)

/-- The registers of a message that is held back are those of the ports' 128 pending bits each. -/
theorem msix {p v : Nat} (hp : p < 2) (hv : v < 128) : view (s.msix p v) = view s := by
  unfold State.msix
  dsimp only
  split
  · refine hb.reg _ _ _ ?_
    simp only [Field.off, F.HST_MSIX_PBA.PEND]
    omega
  · exact hb.hostWrite ..

theorem ringMsg (r : Nat) : view (s.ringMsg r) = view s :=
  (hb.msix _ (bits_lt ..) (bits_lt ..)).trans (hb.host ..)

section
variable {r : Nat} (hr : r < 256)
include hr

theorem wrRing {f : Field} (v : Nat) (h : f.base < 0x22000 ∧ f.s1 = 32) : view (s.wr f v r) = view s := by
  refine hb.reg _ _ _ ?_
  rw [Field.off, h.2]
  omega

theorem postCpl (c : Cpl) : view (s.postCpl r c) = view s := by
  have hset (t : State) (x : RingSt) : view (t.setRing r x) = view t := hb.host ..
  have hmsg (t : State) : view (t.ringMsg r) = view t := hb.ringMsg ..
  have htail (t : State) (v : Nat) : view (t.wr F.HST_RING_CQ.CQ_TAIL v r) = view t := hb.wrRing _ hr _ (by decide)
  unfold State.postCpl
  dsimp only
  repeat' split
  all_goals simp only [hset, hmsg, htail, hb.hostWrite]

theorem settle (n : Nat) : view (s.settle r n) = view s := hb.wrRing _ hr _ (by decide)

theorem deliverCpl (c : Cpl) : view (s.deliverCpl r c) = view s := by
  unfold State.deliverCpl
  split
  · exact hb.settle _ hr _
  · split
    · exact (hb.postCpl _ hr _).trans (hb.settle _ hr _)
    · exact (hb.wrRing _ hr _ (by decide)).trans (hb.host ..)

end

theorem quiesceIfIdle : view s.quiesceIfIdle = view s := by
  unfold State.quiesceIfIdle
  split
  · exact (hb.reg _ _ _ (by decide)).trans (hb.host ..)
  · rfl

theorem complete (ref : CmdRef) (status result : Nat) (flag : Bool) :
    view (s.complete ref status result flag) = view s :=
  (hb.quiesceIfIdle _).trans ((hb.deliverCpl _ ref.ring.isLt _).trans (hb.host ..))

theorem completeOpt (ref : Option CmdRef) (status result : Nat) (flag : Bool) :
    view (s.completeOpt ref status result flag) = view s := by
  cases ref with
  | none => rfl
  | some ref => exact hb.complete ..

theorem accept (ref : CmdRef) (op : Nat) : view (s.accept ref op) = view s := by
  unfold State.accept
  split
  · exact hb.host ..
  · exact (hb.wrRing _ ref.ring.isLt _ (by decide)).trans ((hb.host ..).trans (hb.host ..))

theorem pastPoint (ref : CmdRef) : view (s.pastPoint ref) = view s := hb.host ..

end HostBlind

/-! ### What the array leaves alone when its levels move -/

/-- The registers in which the array's levels show: the clock nets, the hub signals, and the pads. -/
abbrev showsLevels (o : Nat) : Prop :=
  o = 0x200010 ∨ o = 0x200020 ∨ o = 0x200024 ∨ (0x300000 ≤ o ∧ o < 0x302000)

/-- The array apart from its levels: configuration, controls, release sequences, loads and keys. -/
def ElaSt.still (e : ElaSt) : ElaSt :=
  { e with inp := {}, val := {}, clk := 0, nets := 0, netAt := [], xout := 0, hubOut := 0, hubRise := 0, scpIn := [] }

theorem ElaSt.still_levels {e : ElaSt} {inp : ElaIn} {val : ElaVal} {clk : BitVec 8192} {nets : BitVec 16}
    {netAt : List (Nat × Nat)} {xout : BitVec 1024} {hubOut : BitVec 48} {hubRise : BitVec 32} {scpIn : List Nat} :
    { e with inp := inp, val := val, clk := clk, nets := nets, netAt := netAt, xout := xout, hubOut := hubOut,
             hubRise := hubRise, scpIn := scpIn }.still = e.still := rfl

/-- A view of the machine that the array's levels, and what follows them at once, leave alone. -/
structure ElaBlind {α : Type} (view : State → α) : Prop where
  reg : ∀ t o v, showsLevels o → view (State.wrReg t o v) = view t
  pins : ∀ t x, view (State.setPins t x) = view t
  ela : ∀ t x, x.still = t.ela.still → view (State.setEla t x) = view t
  cap : ∀ t x, view (State.setCap t x) = view t
  burn : ∀ t, view (State.burn t) = view t

theorem elaBlind_events : ElaBlind State.events :=
  ⟨fun _ _ _ _ => rfl, fun _ _ => rfl, fun _ _ _ => rfl, fun _ _ => rfl, fun _ => rfl⟩

theorem elaBlind_fab : ElaBlind State.fab :=
  ⟨fun _ _ _ _ => rfl, fun _ _ => rfl, fun _ _ _ => rfl, fun _ _ => rfl, fun _ => rfl⟩

theorem elaBlind_mem : ElaBlind State.mem :=
  ⟨fun _ _ _ _ => rfl, fun _ _ => rfl, fun _ _ _ => rfl, fun _ _ => rfl, fun _ => rfl⟩

theorem elaBlind_rd {f : Field} {i j : Nat} (h : ¬ showsLevels (f.off i j)) : ElaBlind fun s => s.rd f i j where
  reg t o v ho := by
    show bits ((t.wrReg o v).rdReg _) _ _ = _
    rw [State.rdReg_wrReg, if_neg fun e : f.off i j = o => h (e ▸ ho), State.rd]
  pins _ _ := rfl
  ela _ _ _ := rfl
  cap _ _ := rfl
  burn _ := rfl

/-- What can be told of the array without its levels. -/
theorem elaBlind_still {β : Type} {f : ElaSt → β} (hf : ∀ e, f e.still = f e) : ElaBlind fun s => f s.ela where
  reg _ _ _ _ := rfl
  pins _ _ := rfl
  ela t x hx := (hf x).symm.trans ((congrArg f hx).trans (hf t.ela))
  cap _ _ := rfl
  burn _ := rfl

namespace ElaBlind

variable {α : Type} {view : State → α} (hb : ElaBlind view) (s : State)
include hb

section
variable {p : Nat} (hp : p < 512)
include hp

theorem setPad (level oe : Bool) : view (s.setPad p level oe) = view s := by
  have hstat (t : State) (f : Field) (v : Nat) (h : f.base = 0x300008 ∧ f.s1 = 16 ∧ f.s2 = 0) :
      view (t.wr f v p) = view t := by
    refine hb.reg _ _ _ ?_
    rw [Field.off, h.1, h.2.1, h.2.2]
    omega
  exact (hstat _ _ _ (by decide)).trans (State.onlyIf_keeps _ _ fun _ => hstat _ _ _ (by decide))

theorem ownerTakes : view (s.ownerTakes p) = view s := by
  unfold State.ownerTakes
  split
  · exact hb.setPad _ hp ..
  · exact hb.setPad _ hp ..
  · rfl
  · exact hb.setPad _ hp ..

end

theorem elaDrives (out oe goe : BitVec 512) : view (s.elaDrives out oe goe) = view s := by
  unfold State.elaDrives
  refine (State.each_keeps_of_mem _ _ fun t p hp => ?_).trans (hb.pins ..)
  exact State.onlyIf_keeps _ _ fun u => hb.ownerTakes u (maskBits_lt hp)

theorem elaNets (x : ElaCtx) : view (s.elaNets x) = view s :=
  (hb.reg _ _ _ (by decide)).trans (hb.ela _ _ ElaSt.still_levels)

theorem elaPublish (x : ElaCtx) (v : ElaVal) : view (s.elaPublish x v) = view s := by
  unfold State.elaPublish
  calc view _
    _ = _ := (hb.reg _ _ _ (by decide)).trans ((hb.reg _ _ _ (by decide)).trans (hb.ela _ _ ElaSt.still_levels))
    _ = _ := State.hubEdges_keeps _ hb.cap _
    _ = view s := hb.elaDrives ..

theorem elaOff (inp : ElaIn) : view (s.elaOff inp) = view s := by
  unfold State.elaOff
  calc view _
    _ = _ := hb.elaNets ..
    _ = _ := (hb.reg _ _ _ (by decide)).trans (hb.reg _ _ _ (by decide))
    _ = _ := hb.elaDrives ..
    _ = _ := hb.ela _ _ ElaSt.still_levels
    _ = view s := s.hubEdges_keeps hb.cap _

theorem elaMove (inp : ElaIn) : view (s.elaMove inp) = view s := by
  unfold State.elaMove
  calc view _
    _ = _ := hb.elaNets ..
    _ = _ := hb.elaPublish ..
    _ = _ := (hb.burn _).trans (hb.ela _ _ ElaSt.still_levels)
    _ = view s := State.onlyIf_keeps _ _ fun _ => hb.ela _ _ ElaSt.still_levels

theorem elaStep (inp : ElaIn) : view (s.elaStep inp) = view s := by
  unfold State.elaStep
  split
  · exact hb.elaOff ..
  · exact (hb.elaMove ..).trans (hb.elaMove ..)

theorem elaAgain : view s.elaAgain = view s := hb.elaStep ..

end ElaBlind

/-! ### Bits of a field -/

theorem bit_setBits_b2n (n k : Nat) (b : Bool) : bit (setBits n k k (b2n b)) k = b := by
  have hbits : bit (setBits n k k (b2n b)) k = (bits (setBits n k k (b2n b)) k k == 1) := by
    rw [bit, bits, Nat.add_sub_cancel_left, Nat.pow_one]
  rw [hbits, bits_setBits_same _ _ (Nat.le_refl k), Nat.add_sub_cancel_left]
  cases b <;> rfl

/-- A field holds a value that its width can hold. -/
theorem State.rd_wr_lt (s : State) {f : Field} {v i j : Nat} (h : f.fits) (hv : v < 2 ^ (f.hi + 1 - f.lo)) :
    (s.wr f v i j).rd f i j = v := by
  rw [State.rd_wr_same _ _ _ _ _ h, Nat.mod_eq_of_lt hv]

/-- A field of which one bit has been set has that bit. -/
theorem State.bit_wr_setBits (s : State) {f : Field} {i j k : Nat} (b : Bool) (h : f.fits) (hk : k < f.hi + 1 - f.lo) :
    bit ((s.wr f (setBits (s.rd f i j) k k (b2n b)) i j).rd f i j) k = b := by
  have hlt : s.rd f i j < 2 ^ (f.hi + 1 - f.lo) := bits_lt ..
  rw [s.rd_wr_lt h (setBits_lt _ _ _ (Nat.le_refl k) hk hlt), bit_setBits_b2n]

theorem sub_and_eq_and_not {w : Nat} (x y : BitVec w) : x - (x &&& y) = x &&& ~~~y := by
  have hzero : (x &&& y) &&& (x &&& ~~~y) = 0#w := by
    ext i
    simp only [BitVec.getElem_and, BitVec.getElem_not, BitVec.getElem_zero]
    cases x[i] <;> cases y[i] <;> rfl
  have hor : (x &&& y) ||| (x &&& ~~~y) = x := by
    ext i
    simp only [BitVec.getElem_or, BitVec.getElem_and, BitVec.getElem_not]
    cases x[i] <;> cases y[i] <;> rfl
  have hsum : (x &&& y) + (x &&& ~~~y) = x := (BitVec.add_eq_or_of_and_eq_zero _ _ hzero).trans hor
  calc x - (x &&& y)
    _ = (x &&& ~~~y) + (x &&& y) - (x &&& y) := by rw [BitVec.add_comm (x &&& ~~~y), hsum]
    _ = x &&& ~~~y := BitVec.add_sub_cancel ..

theorem bit_sub_and {w d k : Nat} (hd : d < 2 ^ w) (v : BitVec w) (hk : k < w) :
    bit (d - (d &&& v.toNat)) k = (bit d k && !v.getLsbD k) := by
  have hx : (BitVec.ofNat w d).toNat = d := by rw [BitVec.toNat_ofNat, Nat.mod_eq_of_lt hd]
  have hle : BitVec.ofNat w d &&& v ≤ BitVec.ofNat w d := by
    rw [BitVec.le_def, BitVec.toNat_and]
    exact Nat.and_le_left
  have hsub : d - (d &&& v.toNat) = (BitVec.ofNat w d &&& ~~~v).toNat := by
    rw [← sub_and_eq_and_not, BitVec.toNat_sub_of_le hle, BitVec.toNat_and, hx]
  have hbit := bit_toNat (BitVec.ofNat w d) k
  rw [hx] at hbit
  rw [hsub, bit_toNat, BitVec.getLsbD_and, BitVec.getLsbD_not, hbit, decide_eq_true hk, Bool.true_and]

/-! ### Registers and events along a step -/

theorem not_mem_evtOffsets {off : Nat} (h : 0x40000 ≤ off) : off ∉ evtOffsets := by
  have below : ∀ o ∈ evtOffsets, o < 0x40000 := by decide
  exact fun hm => absurd (below _ hm) (by omega)

/-- Outside RECOVERY an event that is raised is the latest of the log. -/
theorem State.event_codes (s : State) (code sev source pay : Nat) (hr : s.recovery = false) :
    (s.event code sev source pay).events.map (·.code) = code :: s.events.map (·.code) := by
  rw [State.event_events, hr]
  rfl

section
variable (s : State)

theorem State.accept_ela (ref : CmdRef) (op : Nat) : (s.accept ref op).ela = s.ela := State.units_ela (s.accept_units ..)

theorem State.accept_rd (ref : CmdRef) (op : Nat) {f : Field} {i j : Nat} (h : 0x40000 ≤ f.off i j) :
    (s.accept ref op).rd f i j = s.rd f i j := (hostBlind_rd h).accept ..

theorem State.accept_scope (ref : CmdRef) (op n : Nat) : (s.accept ref op).scope n = s.scope n := by
  simp (disch := decide) only [State.scope, State.accept_rd]

theorem State.accept_standbyLocked (ref : CmdRef) (op : Nat) : (s.accept ref op).standbyLocked = s.standbyLocked := by
  simp (disch := decide) only [State.standbyLocked, State.rdb, State.accept_rd]

theorem State.loadingScope_false {n : Nat} (h : s.scope n ≠ scLoading) : s.loadingScope n = false :=
  beq_eq_false_iff_ne.mpr h

theorem State.loadingScope_true {n : Nat} (h : s.scope n = scLoading) : s.loadingScope n = true := beq_iff_eq.mpr h

theorem State.accept_loadingScope (ref : CmdRef) (op n : Nat) : (s.accept ref op).loadingScope n = s.loadingScope n := by
  simp only [State.loadingScope, State.accept_scope]

theorem State.accept_isReleased (ref : CmdRef) (op n : Nat) : (s.accept ref op).isReleased n = s.isReleased n := by
  simp only [State.isReleased, State.accept_ela]

end

/-! ### The controls of a scope (R175 to R177) -/

section
variable (s : State)

theorem State.elaAgain_goe : s.elaAgain.ela.goe = s.ela.goe := (elaBlind_still fun _ => rfl).elaAgain s
theorem State.elaAgain_gwe : s.elaAgain.ela.gwe = s.ela.gwe := (elaBlind_still fun _ => rfl).elaAgain s
theorem State.elaAgain_gsr : s.elaAgain.ela.gsr = s.ela.gsr := (elaBlind_still fun _ => rfl).elaAgain s
theorem State.elaAgain_rel : s.elaAgain.ela.rel = s.ela.rel := (elaBlind_still fun _ => rfl).elaAgain s
theorem State.elaAgain_frames : s.elaAgain.ela.frames = s.ela.frames := (elaBlind_still fun _ => rfl).elaAgain s

theorem State.elaAgain_rd {f : Field} {i j : Nat} (h : ¬ showsLevels (f.off i j)) :
    s.elaAgain.rd f i j = s.rd f i j := (elaBlind_rd h).elaAgain s

theorem State.showEla_keeps {α : Type} {view : State → α} (hreg : ∀ t o v, view (State.wrReg t o v) = view t) :
    view s.showEla = view s := (hreg ..).trans ((hreg ..).trans ((hreg ..).trans (hreg ..)))

theorem State.setReleased_keeps {α : Type} {view : State → α} (hreg : ∀ t o v, view (State.wrReg t o v) = view t)
    (n : Nat) (b : Bool) : view (s.setReleased n b) = view s := State.onlyIf_keeps _ _ fun _ => hreg ..

theorem State.showEla_ela : s.showEla.ela = s.ela := s.showEla_keeps State.wrReg_ela

theorem State.showEla_rd_other {f : Field} {i j : Nat} (h : f.off i j ≠ 0x200000) :
    s.showEla.rd f i j = s.rd f i j := by
  unfold State.showEla
  iterate 4 rw [State.rd_wrb_other _ _ _ _ _ _ _ _ h]

/-- REL_BUSY shows that a release sequence is in progress. -/
theorem State.showEla_relBusy : s.showEla.rd F.ELA_STATUS.REL_BUSY = b2n (!s.ela.rel.isEmpty) :=
  State.rd_wrb_same _ _ _ _ _ ⟨by decide, by decide⟩ rfl

theorem State.setReleased_ela (n : Nat) (b : Bool) : (s.setReleased n b).ela = s.ela :=
  s.setReleased_keeps State.wrReg_ela n b

theorem State.setReleased_rd_other {f : Field} {i j : Nat} (n : Nat) (b : Bool) (h : f.off i j ≠ 0x20000C) :
    (s.setReleased n b).rd f i j = s.rd f i j :=
  State.onlyIf_keeps (view := fun s => s.rd f i j) _ _ fun t => t.rd_wr_other _ _ _ _ _ _ _ h

theorem State.setReleased_bit {n : Nat} (hn : n < 16) (b : Bool) :
    bit ((s.setReleased n b).rd F.ELA_REL_RGN.RELEASED) n = b := by
  have h16 : (n != 16) = true := bne_iff_ne.mpr (by omega)
  rw [State.setReleased, h16, State.onlyIf_true, State.bit_wr_setBits _ _ ⟨by decide, by decide⟩ hn]

end

/-! ### ELA_RELEASE (R175, R176) -/

section
variable {s : State} {ref : CmdRef} {sc : BitVec 8} (ht : s.takes ref 0x0502)
include ht

theorem exec_elaRelease_range (hsc : scopeOf sc.toNat = none) :
    exec (.elaRelease ref sc) s = .next ((s.accept ref 0x0502).complete ref stRange) := by
  simp only [exec, execElaRelease, s.command_run _ _ _ ht, hsc]

variable {n : Nat} (hsc : scopeOf sc.toNat = some n) (hsb : s.standbyLocked = false) (h16 : s.scope 16 ≠ scLoading)
include hsc hsb h16

theorem exec_elaRelease_refused (hl : s.scope n ≠ scLoading) (hc : s.scope n ≠ scConfigured) :
    exec (.elaRelease ref sc) s = .next ((s.accept ref 0x0502).complete ref stRefused) := by
  have hne : (s.scope n != scConfigured) = true := bne_iff_ne.mpr hc
  simp only [exec, execElaRelease, s.command_run _ _ _ ht, hsc, s.accept_standbyLocked, hsb, s.accept_loadingScope,
    s.loadingScope_false hl, s.loadingScope_false h16, s.accept_scope, hne, Bool.and_false, Bool.or_false,
    Bool.false_eq_true, if_false, if_true]

/-- A configured scope that is neither released nor being released begins its sequence. -/
theorem exec_elaRelease_begins (hc : s.scope n = scConfigured) (hr : s.isReleased n = false)
    (hrel : ∀ r ∈ s.ela.rel, r.scope ≠ n) :
    exec (.elaRelease ref sc) s = .next ((s.accept ref 0x0502).beginRelease n (some ref)) := by
  have hl : s.scope n ≠ scLoading := by rw [hc]; decide
  have hne : (s.scope n != scConfigured) = false := bne_eq_false_iff_eq.mpr hc
  have hany : (s.ela.rel.any fun r => r.scope == n) = false :=
    List.any_eq_false.mpr fun r hmem he => hrel r hmem (beq_iff_eq.mp he)
  simp only [exec, execElaRelease, s.command_run _ _ _ ht, hsc, s.accept_standbyLocked, hsb, s.accept_loadingScope,
    s.loadingScope_false hl, s.loadingScope_false h16, s.accept_scope, hne, s.accept_isReleased, hr, s.accept_ela, hany,
    Bool.and_false, Bool.or_false, Bool.false_eq_true, if_false]

end

/-- A sequence that begins raises GOE of its scope, and no other control. -/
theorem State.beginRelease_raises_goe (s : State) (n : Nat) (ref : CmdRef) :
    (s.beginRelease n (some ref)).ela.goe = ctlBit s.ela.goe n true ∧
    (s.beginRelease n (some ref)).ela.gwe = s.ela.gwe ∧ (s.beginRelease n (some ref)).ela.gsr = s.ela.gsr ∧
    (s.beginRelease n (some ref)).ela.rel = s.ela.rel ++ [⟨n, some ref, false, s.now⟩] ∧
    (s.beginRelease n (some ref)).ela.frames = s.ela.frames := by
  unfold State.beginRelease
  rw [State.elaAgain_goe, State.elaAgain_gwe, State.elaAgain_gsr, State.elaAgain_rel, State.elaAgain_frames]
  exact ⟨rfl, rfl, rfl, rfl, rfl⟩

theorem State.beginRelease_relBusy (s : State) (n : Nat) (ref : CmdRef) :
    (s.beginRelease n (some ref)).rd F.ELA_STATUS.REL_BUSY = 1 := by
  have hbusy (l : List ElaRel) (r : ElaRel) : (l ++ [r]).isEmpty = false :=
    List.isEmpty_eq_false_iff.mpr (List.append_ne_nil_of_right_ne_nil _ (List.cons_ne_nil _ _))
  unfold State.beginRelease
  rw [State.elaAgain_rd _ (by decide), State.showEla_relBusy, State.setEla_ela, hbusy]
  rfl

theorem State.beginRelease_mem (s : State) (n : Nat) (ref : CmdRef) : (s.beginRelease n (some ref)).mem = s.mem := by
  unfold State.beginRelease
  rw [State.elaAgain_mem, State.showEla_keeps _ State.wrReg_mem, State.setEla_mem, State.units_mem (State.pastPoint_units ..)]

theorem State.beginRelease_fab (s : State) (n : Nat) (ref : CmdRef) : (s.beginRelease n (some ref)).fab = s.fab := by
  unfold State.beginRelease
  rw [State.elaAgain_fab, State.showEla_keeps _ State.wrReg_fab, State.setEla_fab, State.units_fab (State.pastPoint_units ..)]

theorem elaRelease_follows {s : State} {ref : CmdRef} {sc : BitVec 8} {n : Nat} (ht : s.takes ref 0x0502)
    (hsc : scopeOf sc.toNat = some n) (hsb : s.standbyLocked = false) (h16 : s.scope 16 ≠ scLoading)
    (hc : s.scope n = scConfigured) (hr : s.isReleased n = false) (hrel : ∀ r ∈ s.ela.rel, r.scope ≠ n) :
    ∃ t, exec (.elaRelease ref sc) s = .next t ∧ t.ela.goe = ctlBit s.ela.goe n true ∧ t.ela.gwe = s.ela.gwe ∧
      t.ela.gsr = s.ela.gsr ∧ t.ela.rel = s.ela.rel ++ [⟨n, some ref, false, s.now⟩] ∧
      t.rd F.ELA_STATUS.REL_BUSY = 1 ∧ t.ela.frames = s.ela.frames ∧ t.mem = s.mem ∧ t.fab = s.fab := by
  have hunits := s.accept_units ref 0x0502
  have hnow : (s.accept ref 0x0502).now = s.now := congrArg BitVec.toNat (State.units_tb hunits)
  obtain ⟨hgoe, hgwe, hgsr, hseq, hframes⟩ := (s.accept ref 0x0502).beginRelease_raises_goe n ref
  rw [s.accept_ela] at hgoe hgwe hgsr hseq hframes
  rw [hnow] at hseq
  exact ⟨_, exec_elaRelease_begins ht hsc hsb h16 hc hr hrel, hgoe, hgwe, hgsr, hseq, State.beginRelease_relBusy .., hframes,
    (State.beginRelease_mem ..).trans (State.units_mem hunits), (State.beginRelease_fab ..).trans (State.units_fab hunits)⟩

/-! ### ELA_GWE_ASSERT and ELA_GSR_DEASSERT (R175, R178) -/

/-- GWE of a scope rises. -/
def State.gweRises (s : State) (n : Nat) : State :=
  ((s.setEla { s.ela with
      gwe := ctlBit s.ela.gwe n true
      rel := s.ela.rel.map fun (r : ElaRel) => if r.scope == n then { r with gwe := true } else r }).showEla).elaAgain

/-- GSR of a scope falls and its sequence ends: the scope is released. -/
def State.gsrFalls (s : State) (n : Nat) : State :=
  (((s.setEla { s.ela with
      gsr := ctlBit s.ela.gsr n false
      rel := s.ela.rel.filter fun (r : ElaRel) => r.scope != n }).setReleased n true).showEla).elaAgain

section
variable (s : State) (n : Nat)

theorem State.gweRises_rel : ∀ r ∈ (s.gweRises n).ela.rel, r.scope = n → r.gwe = true := by
  intro r hr hn
  rw [State.gweRises, State.elaAgain_rel] at hr
  obtain ⟨q, -, rfl⟩ := List.mem_map.mp hr
  split at hn
  · next h => rw [if_pos h]
  · next h => exact absurd (beq_iff_eq.mpr hn) h

theorem State.gweRises_controls : (s.gweRises n).ela.gwe = ctlBit s.ela.gwe n true ∧
    (s.gweRises n).ela.goe = s.ela.goe ∧ (s.gweRises n).ela.gsr = s.ela.gsr ∧
    (s.gweRises n).ela.frames = s.ela.frames := by
  unfold State.gweRises
  rw [State.elaAgain_gwe, State.elaAgain_goe, State.elaAgain_gsr, State.elaAgain_frames]
  exact ⟨rfl, rfl, rfl, rfl⟩

theorem State.gweRises_events : (s.gweRises n).events = s.events := by
  rw [State.gweRises, State.elaAgain_events, State.showEla_keeps _ State.wrReg_events, State.setEla_events]

theorem State.gsrFalls_controls : (s.gsrFalls n).ela.gsr = ctlBit s.ela.gsr n false ∧
    (s.gsrFalls n).ela.goe = s.ela.goe ∧ (s.gsrFalls n).ela.gwe = s.ela.gwe ∧
    (s.gsrFalls n).ela.rel = s.ela.rel.filter fun r => r.scope != n := by
  unfold State.gsrFalls
  rw [State.elaAgain_gsr, State.elaAgain_goe, State.elaAgain_gwe, State.elaAgain_rel, State.showEla_ela,
    State.setReleased_ela]
  exact ⟨rfl, rfl, rfl, rfl⟩

theorem State.gsrFalls_released (hn : n < 16) : bit ((s.gsrFalls n).rd F.ELA_REL_RGN.RELEASED) n = true := by
  rw [State.gsrFalls, State.elaAgain_rd _ (by decide), State.showEla_rd_other _ (by decide), State.setReleased_bit _ hn]

theorem State.gsrFalls_recovery : (s.gsrFalls n).recovery = s.recovery := by
  rw [State.recovery, State.gsrFalls, State.elaAgain_rd _ (by decide), State.showEla_rd_other _ (by decide),
    State.setReleased_rd_other _ _ _ (by decide)]
  rfl

theorem State.gsrFalls_events : (s.gsrFalls n).events = s.events := by
  rw [State.gsrFalls, State.elaAgain_events, State.showEla_keeps _ State.wrReg_events,
    State.setReleased_keeps _ State.wrReg_events, State.setEla_events]

end

section
variable {s : State} {sc : BitVec 8} {n : Nat} (ha : s.alive = true) (hsc : scopeOf sc.toNat = some n)
include ha hsc

theorem exec_elaGweAssert : exec (.elaGweAssert sc) s =
    .next (if s.ela.rel.any fun r => r.scope == n && !r.gwe && s.gweDue r then s.gweRises n else s) := by
  simp only [exec, execElaGweAssert, s.live_run _ ha, hsc]
  rfl

/-- Once GAP1 cycles have passed, GWE rises. -/
theorem elaGweAssert_due (h : ∃ r ∈ s.ela.rel, r.scope = n ∧ r.gwe = false ∧ s.gweDue r = true) :
    exec (.elaGweAssert sc) s = .next (s.gweRises n) := by
  obtain ⟨r, hr, hn, hg, hd⟩ := h
  have hp : (r.scope == n && !r.gwe && s.gweDue r) = true := by
    simp only [hn, hg, hd, beq_self_eq_true, Bool.not_false, Bool.and_self]
  rw [exec_elaGweAssert ha hsc, if_pos (List.any_eq_true.mpr ⟨r, hr, hp⟩)]

theorem elaGweAssert_early (h : ∀ r ∈ s.ela.rel, r.scope = n → s.gweDue r = false) :
    exec (.elaGweAssert sc) s = .next s := by
  rw [exec_elaGweAssert ha hsc, if_neg]
  rw [List.any_eq_true]
  rintro ⟨r, hr, hp⟩
  simp only [Bool.and_eq_true, beq_iff_eq] at hp
  obtain ⟨⟨hn, -⟩, hd⟩ := hp
  exact Bool.false_ne_true ((h r hr hn).symm.trans hd)

/-- After GAP2 cycles more GSR falls, the event is raised and the command completes. -/
theorem elaGsrDeassert_due {r : ElaRel} (h : (s.ela.rel.find? fun r => r.scope == n && r.gwe && s.gsrDue r) = some r) :
    exec (.elaGsrDeassert sc) s = .next
      (((s.gsrFalls n).event 0x0502 sevInfo (sourceId 0x0502 0 (scopeUnit n))).completeOpt r.ref stDone) := by
  simp only [exec, execElaGsrDeassert, s.live_run _ ha, hsc, h]
  rfl

theorem elaGsrDeassert_early (h : ∀ r ∈ s.ela.rel, r.scope = n → s.gsrDue r = false) :
    exec (.elaGsrDeassert sc) s = .next s := by
  have hnone : (s.ela.rel.find? fun r => r.scope == n && r.gwe && s.gsrDue r) = none := by
    refine List.find?_eq_none.mpr fun r hr hp => ?_
    simp only [Bool.and_eq_true, beq_iff_eq] at hp
    obtain ⟨⟨hn, -⟩, hd⟩ := hp
    exact Bool.false_ne_true ((h r hr hn).symm.trans hd)
  simp only [exec, execElaGsrDeassert, s.live_run _ ha, hsc, hnone]

theorem elaGweAssert_follows (h : ∃ r ∈ s.ela.rel, r.scope = n ∧ r.gwe = false ∧ s.gweDue r = true) :
    ∃ t, exec (.elaGweAssert sc) s = .next t ∧
      t.ela.gwe = ctlBit s.ela.gwe n true ∧ t.ela.goe = s.ela.goe ∧ t.ela.gsr = s.ela.gsr ∧
      (∀ r ∈ t.ela.rel, r.scope = n → r.gwe = true) ∧ t.ela.frames = s.ela.frames ∧ t.events = s.events := by
  obtain ⟨hgwe, hgoe, hgsr, hframes⟩ := s.gweRises_controls n
  exact ⟨_, elaGweAssert_due ha hsc h, hgwe, hgoe, hgsr, s.gweRises_rel n, hframes, s.gweRises_events n⟩

theorem elaGsrDeassert_follows {r : ElaRel}
    (h : (s.ela.rel.find? fun r => r.scope == n && r.gwe && s.gsrDue r) = some r) :
    ∃ t, exec (.elaGsrDeassert sc) s = .next t ∧
      t.ela.gsr = ctlBit s.ela.gsr n false ∧ t.ela.goe = s.ela.goe ∧ t.ela.gwe = s.ela.gwe ∧
      t.ela.rel = (s.ela.rel.filter fun r => r.scope != n) ∧
      (n < 16 → bit (t.rd F.ELA_REL_RGN.RELEASED) n = true) ∧
      (s.recovery = false → t.events.map (·.code) = 0x0502 :: s.events.map (·.code)) := by
  obtain ⟨hgsr, hgoe, hgwe, hrel⟩ := s.gsrFalls_controls n
  refine ⟨_, elaGsrDeassert_due ha hsc h, ?_⟩
  rw [State.units_ela (State.completeOpt_units ..), State.units_ela (State.event_units ..)]
  refine ⟨hgsr, hgoe, hgwe, hrel, fun hn => ?_, fun hr => ?_⟩
  · rw [(hostBlind_rd (by decide)).completeOpt, State.event_rd _ (not_mem_evtOffsets (by decide))]
    exact s.gsrFalls_released n hn
  · rw [hostBlind_events.completeOpt, State.event_codes _ _ _ _ _ ((s.gsrFalls_recovery n).trans hr), s.gsrFalls_events]

end

/-! ### ELA_HOLD (R177) -/

section
variable (s : State) (n : Nat)

/-- A view that the host plane, the registers and the array's own state leave alone is as it was in the held state. -/
theorem State.holdControls_keeps {α : Type} {view : State → α} (hb : HostBlind view)
    (hreg : ∀ t o v, view (State.wrReg t o v) = view t) (hela : ∀ t x, view (State.setEla t x) = view t) :
    view (s.holdControls n) = view s := by
  unfold State.holdControls
  calc view _
    _ = _ := State.each_keeps _ _ fun t r => hb.completeOpt t ..
    _ = _ := State.showEla_keeps _ hreg
    _ = _ := State.setReleased_keeps _ hreg ..
    _ = view s := hela ..

theorem State.holdControls_ela : (s.holdControls n).ela = { s.ela with
    goe := ctlBit s.ela.goe n false, gwe := ctlBit s.ela.gwe n false, gsr := ctlBit s.ela.gsr n true
    rel := s.ela.rel.filter fun (r : ElaRel) => r.scope != n } := by
  unfold State.holdControls
  dsimp only
  rw [State.each_keeps (view := State.ela) _ _ fun t (r : ElaRel) =>
      State.units_ela (t.completeOpt_units r.ref stIncomplete 0 false),
    State.showEla_ela, State.setReleased_ela, State.setEla_ela]

theorem State.holdControls_released (hn : n < 16) :
    bit ((s.holdControls n).rd F.ELA_REL_RGN.RELEASED) n = false := by
  unfold State.holdControls
  dsimp only
  rw [State.each_keeps (view := fun s => s.rd F.ELA_REL_RGN.RELEASED) _ _ fun t r =>
    (hostBlind_rd (by decide)).completeOpt t .., State.showEla_rd_other _ (by decide), State.setReleased_bit _ hn]

end

section
variable {s : State} {ref : CmdRef} {sc : BitVec 8} {n : Nat} (ht : s.takes ref 0x0503)
  (hsc : scopeOf sc.toNat = some n) (hsb : s.standbyLocked = false)
include ht hsc hsb

theorem exec_elaHold_held (hl : s.scope n ≠ scLoading) :
    exec (.elaHold ref sc) s = .next (((s.accept ref 0x0503).holdScope n).complete ref stDone) := by
  simp only [exec, execElaHold, s.command_run _ _ _ ht, hsc, s.accept_standbyLocked, hsb, s.accept_loadingScope,
    s.loadingScope_false hl, Bool.false_eq_true, if_false]

theorem exec_elaHold_loading (hl : s.scope n = scLoading) :
    exec (.elaHold ref sc) s = .next ((s.accept ref 0x0503).complete ref stDone) := by
  simp only [exec, execElaHold, s.command_run _ _ _ ht, hsc, s.accept_standbyLocked, hsb, s.accept_loadingScope,
    s.loadingScope_true hl, Bool.false_eq_true, if_false, if_true]

theorem elaHold_follows (hl : s.scope n ≠ scLoading) :
    ∃ t, exec (.elaHold ref sc) s = .next t ∧ t.ela.goe = ctlBit s.ela.goe n false ∧
      t.ela.gwe = ctlBit s.ela.gwe n false ∧ t.ela.gsr = ctlBit s.ela.gsr n true ∧
      (∀ r ∈ t.ela.rel, r.scope ≠ n) ∧ (n < 16 → bit (t.rd F.ELA_REL_RGN.RELEASED) n = false) ∧
      t.ela.frames = s.ela.frames ∧ t.fab = s.fab ∧ t.events = s.events := by
  refine ⟨_, exec_elaHold_held ht hsc hsb hl, ?_⟩
  have hunits := ((s.accept ref 0x0503).holdScope n).complete_units ref stDone 0 false
  rw [State.units_ela hunits, State.units_fab hunits, State.holdScope, State.elaAgain_goe, State.elaAgain_gwe,
    State.elaAgain_gsr, State.elaAgain_rel, State.elaAgain_frames, State.elaAgain_fab, State.holdControls_ela,
    s.accept_ela]
  refine ⟨rfl, rfl, rfl, fun r hr => ?_, fun hn => ?_, rfl, ?_, ?_⟩
  · exact bne_iff_ne.mp (List.mem_filter.mp hr).2
  · rw [(hostBlind_rd (by decide)).complete, State.elaAgain_rd _ (by decide), State.holdControls_released _ _ hn]
  · rw [State.holdControls_keeps _ _ ⟨fun _ _ _ _ => rfl, fun _ _ => rfl, fun _ _ => rfl⟩ State.wrReg_fab State.setEla_fab,
      State.units_fab (s.accept_units ..)]
  · rw [hostBlind_events.complete, State.elaAgain_events, State.holdControls_keeps _ _ hostBlind_events State.wrReg_events
      State.setEla_events, hostBlind_events.accept]

end

/-! ### ELA_CLOCK_EDGE (R169) -/

section
variable (s : State) (inp : ElaIn)

theorem State.elaNets_ela (x : ElaCtx) : (s.elaNets x).ela =
    { s.ela with nets := (s.elaNets x).ela.nets, netAt := (s.elaNets x).ela.netAt } := (rfl)

theorem State.elaDrives_ela (out oe goe : BitVec 512) : (s.elaDrives out oe goe).ela = s.ela :=
  s.elaDrives_keeps State.wrReg_ela State.setPins_ela ..

theorem State.hubEdges_ela (hub : BitVec 48) : (s.hubEdges hub).ela = s.ela := s.hubEdges_keeps State.setCap_ela hub

theorem State.elaPublish_inp (x : ElaCtx) (v : ElaVal) : (s.elaPublish x v).ela.inp = s.ela.inp := by
  unfold State.elaPublish
  dsimp only
  rw [State.wr_ela, State.wr_ela, State.setEla_ela, State.hubEdges_ela, State.elaDrives_ela]

theorem State.elaMove_inp : (s.elaMove inp).ela.inp = inp := by
  unfold State.elaMove
  dsimp only
  rw [State.elaNets_ela]
  dsimp only
  rw [State.elaPublish_inp, State.burn_ela, State.setEla_ela]

theorem State.elaOff_ela : ∃ nets netAt, (s.elaOff inp).ela = { s.ela with
    inp := inp, val := { lines := s.ela.val.lines }, clk := 0, xout := 0, hubOut := 0, nets := nets, netAt := netAt } := by
  unfold State.elaOff
  dsimp only
  rw [State.elaNets_ela, State.wr_ela, State.wr_ela, State.elaDrives_ela, State.setEla_ela, State.hubEdges_ela]
  exact ⟨_, _, rfl⟩

theorem State.elaOff_inp : (s.elaOff inp).ela.inp = inp := by
  obtain ⟨nets, netAt, h⟩ := s.elaOff_ela inp
  rw [h]

/-- The array has settled for the inputs from outside it, and for what the device itself gives it. -/
theorem State.elaStep_inp : (s.elaStep inp).ela.inp = s.elaOwnIn inp := by
  unfold State.elaStep
  split
  · exact s.elaOff_inp _
  · exact State.elaMove_inp _ _

theorem State.elaStep_off (h : s.scope 16 ≠ scConfigured) : s.elaStep inp = s.elaOff (s.elaOwnIn inp) :=
  if_pos (bne_iff_ne.mpr h)

theorem State.elaDrives_pin (out oe goe : BitVec 512) :
    (s.elaDrives out oe goe).pin = { s.pin with elaOut := out, elaOe := oe, elaGoe := goe } := by
  unfold State.elaDrives
  exact State.each_keeps _ _ fun _ _ => State.onlyIf_keeps _ _ fun t => t.ownerTakes_keeps State.wrReg_pin _

/-- Without a complete configuration nothing leaves the array, and the long lines keep their levels. -/
theorem State.elaOff_quiet : (s.elaOff inp).pin.elaOut = 0 ∧ (s.elaOff inp).pin.elaOe = 0 ∧ (s.elaOff inp).ela.xout = 0 ∧
    (s.elaOff inp).ela.hubOut = 0 ∧ (s.elaOff inp).ela.val.q = 0 ∧ (s.elaOff inp).ela.val.lines = s.ela.val.lines := by
  obtain ⟨hout, hoe⟩ : (s.elaOff inp).pin.elaOut = 0 ∧ (s.elaOff inp).pin.elaOe = 0 := by
    unfold State.elaOff
    dsimp only
    rw [State.elaNets_keeps (view := State.pin) _ State.wrReg_pin State.setEla_pin, State.wr_pin, State.wr_pin,
      State.elaDrives_pin]
    exact ⟨rfl, rfl⟩
  obtain ⟨nets, netAt, hela⟩ := s.elaOff_ela inp
  rw [hela]
  exact ⟨hout, hoe, rfl, rfl, rfl, rfl⟩

end

theorem elaClockEdge_follows (s : State) (pins : BitVec 512) (dco : BitVec 8) (sys : Bool) (ha : s.alive = true) :
    ∃ t, exec (.elaClockEdge pins dco sys) s = .next t ∧ t.ela.inp.pins = s.received pins ∧ t.ela.inp.dco = dco ∧
      t.ela.inp.sys = sys ∧ (s.scope 16 ≠ scConfigured → t.pin.elaOut = 0 ∧ t.pin.elaOe = 0 ∧ t.ela.xout = 0 ∧
        t.ela.hubOut = 0 ∧ t.ela.val.q = 0 ∧ t.ela.val.lines = s.ela.val.lines) ∧
      t.ela.frames = s.ela.frames ∧ t.ela.goe = s.ela.goe ∧ t.ela.gsr = s.ela.gsr ∧ t.fab = s.fab ∧ t.mem = s.mem ∧
      t.events = s.events := by
  have hexec : exec (.elaClockEdge pins dco sys) s =
      .next ((s.setRecv pins).elaStep { s.ela.inp with dco := dco, sys := sys }) := by
    simp only [exec, execElaClockEdge, s.live_run _ ha]
  have hinp := (s.setRecv pins).elaStep_inp { s.ela.inp with dco := dco, sys := sys }
  refine ⟨_, hexec, congrArg ElaIn.pins hinp, congrArg ElaIn.dco hinp, congrArg ElaIn.sys hinp, fun hc => ?_,
    (elaBlind_still fun _ => rfl).elaStep .., (elaBlind_still fun _ => rfl).elaStep ..,
    (elaBlind_still fun _ => rfl).elaStep .., elaBlind_fab.elaStep .., elaBlind_mem.elaStep .., elaBlind_events.elaStep ..⟩
  rw [(s.setRecv pins).elaStep_off _ hc]
  exact State.elaOff_quiet ..

/-! ### ELA_CONTENTION (R167) -/

/-- A line on which drivers contend is disabled, and the contention counted. -/
def State.disableLine (s : State) (n : Nat) : State :=
  (s.wr F.ELA_LL_DIS.DISABLED (setBits (s.rd F.ELA_LL_DIS.DISABLED (n / 8)) (n % 8) (n % 8) 1) (n / 8)).sat
    F.ELA_LL_CNT.COUNT

theorem llDis_off (i : Nat) : F.ELA_LL_DIS.DISABLED.off i 0 = 0x200100 + 4 * i := rfl

theorem llCnt_off : F.ELA_LL_CNT.COUNT.off 0 0 = 0x200014 := rfl

theorem llDis_not_showsLevels {i : Nat} (h : i < 16) : ¬ showsLevels (F.ELA_LL_DIS.DISABLED.off i 0) := by
  rw [llDis_off, showsLevels]
  omega

section
variable (s : State) {n : Nat}

theorem State.disableLine_disabled : bit ((s.disableLine n).rd F.ELA_LL_DIS.DISABLED (n / 8)) (n % 8) = true := by
  have hcnt : F.ELA_LL_DIS.DISABLED.off (n / 8) 0 ≠ F.ELA_LL_CNT.COUNT.off 0 0 := by
    rw [llDis_off, llCnt_off]
    omega
  have hk : n % 8 < 8 := Nat.mod_lt _ (by decide)
  rw [State.disableLine, State.sat, State.rd_wr_other _ _ _ _ _ _ _ _ hcnt]
  exact s.bit_wr_setBits true ⟨by decide, by decide⟩ hk

theorem State.disableLine_rd_other {f : Field} {i j : Nat} (hdis : f.off i j ≠ 0x200100 + 4 * (n / 8))
    (hcnt : f.off i j ≠ 0x200014) : (s.disableLine n).rd f i j = s.rd f i j := by
  rw [State.disableLine, State.sat, State.rd_wr_other _ _ _ _ _ _ _ _ hcnt, State.rd_wr_other _ _ _ _ _ _ _ _ hdis]

theorem satAdd_eq_min (top a b : Nat) : satAdd top a b = min top (a + b) := by
  unfold satAdd
  split <;> omega

theorem State.disableLine_count : (s.disableLine n).rd F.ELA_LL_CNT.COUNT = min (2 ^ 32 - 1) (s.rd F.ELA_LL_CNT.COUNT + 1) := by
  have hdis : F.ELA_LL_CNT.COUNT.off 0 0 ≠ F.ELA_LL_DIS.DISABLED.off (n / 8) 0 := by
    rw [llDis_off, llCnt_off]
    omega
  have hlt : min (2 ^ 32 - 1) (s.rd F.ELA_LL_CNT.COUNT + 1) < 2 ^ 32 := by omega
  rw [State.disableLine, State.sat, State.rd_wr_other _ _ _ _ _ _ _ _ hdis, satAdd_eq_min]
  exact State.rd_wr_lt _ ⟨by decide, by decide⟩ hlt

theorem State.disableLine_recovery (hn : n < 128) : (s.disableLine n).recovery = s.recovery := by
  have hdis : F.SEC_BOOT.STATE.off 0 0 ≠ 0x200100 + 4 * (n / 8) := by
    rw [show F.SEC_BOOT.STATE.off 0 0 = 0x4E0000 from rfl]
    omega
  rw [State.recovery, s.disableLine_rd_other hdis (by decide), State.recovery]

theorem State.disableLine_ela : (s.disableLine n).ela = s.ela := by
  rw [State.disableLine, State.sat, State.wr_ela, State.wr_ela]

theorem State.disableLine_events : (s.disableLine n).events = s.events := by
  rw [State.disableLine, State.sat, State.wr_events, State.wr_events]

variable (ha : s.alive = true) (line : BitVec 7)
include ha

theorem exec_elaContention_none
    (h : s.scope 16 ≠ scConfigured ∨ ((s.elaCtx s.ela.inp).drivers s.ela.val.oe line.toNat).length < 2) :
    exec (.elaContention line) s = .next s := by
  have hcond : (s.scope 16 != scConfigured ||
      decide (((s.elaCtx s.ela.inp).drivers s.ela.val.oe line.toNat).length < 2)) = true :=
    Bool.or_eq_true_iff.mpr (h.imp bne_iff_ne.mpr decide_eq_true)
  simp only [exec, execElaContention, s.live_run _ ha]
  rw [if_pos hcond]

theorem exec_elaContention_two (hc : s.scope 16 = scConfigured)
    (hd : 2 ≤ ((s.elaCtx s.ela.inp).drivers s.ela.val.oe line.toNat).length) :
    ∃ pay, exec (.elaContention line) s = .next
      ((s.disableLine line.toNat).event 0x0501 sevError (sourceId 0x0501 0 line.toNat) pay).elaAgain := by
  have hcond : (s.scope 16 != scConfigured ||
      decide (((s.elaCtx s.ela.inp).drivers s.ela.val.oe line.toNat).length < 2)) = false :=
    Bool.or_eq_false_iff.mpr ⟨bne_eq_false_iff_eq.mpr hc, decide_eq_false (Nat.not_lt.mpr hd)⟩
  simp only [exec, execElaContention, s.live_run _ ha]
  rw [if_neg (Bool.eq_false_iff.mp hcond)]
  exact ⟨_, rfl⟩

end

theorem elaContention_follows (s : State) (line : BitVec 7) (ha : s.alive = true) :
    let d := ((s.elaCtx s.ela.inp).drivers s.ela.val.oe line.toNat).length
    ∃ t, exec (.elaContention line) s = .next t ∧ t.ela.frames = s.ela.frames ∧
      (s.scope 16 = scConfigured → 2 ≤ d →
        bit (t.rd F.ELA_LL_DIS.DISABLED (line.toNat / 8)) (line.toNat % 8) = true ∧
        t.rd F.ELA_LL_CNT.COUNT = min (2 ^ 32 - 1) (s.rd F.ELA_LL_CNT.COUNT + 1) ∧
        (s.recovery = false → t.events.map (·.code) = 0x0501 :: s.events.map (·.code))) ∧
      (s.scope 16 ≠ scConfigured ∨ d < 2 → t = s) := by
  intro d
  by_cases h : s.scope 16 ≠ scConfigured ∨ d < 2
  · refine ⟨s, exec_elaContention_none s ha line h, rfl, fun hc hd => ?_, fun _ => rfl⟩
    rcases h with h | h
    · exact absurd hc h
    · omega
  · obtain ⟨hc, hd⟩ := not_or.mp h
    obtain ⟨pay, hexec⟩ := exec_elaContention_two s ha line (Decidable.not_not.mp hc) (Nat.not_lt.mp hd)
    have hlt : line.toNat / 8 < 16 := by omega
    have hrow : 0x40000 ≤ F.ELA_LL_DIS.DISABLED.off (line.toNat / 8) 0 := by
      rw [llDis_off]
      omega
    refine ⟨_, hexec, ?_, fun _ _ => ⟨?_, ?_, fun hr => ?_⟩, fun h' => absurd h' h⟩
    · rw [State.elaAgain_frames, State.units_ela (State.event_units ..), State.disableLine_ela]
    · rw [State.elaAgain_rd _ (llDis_not_showsLevels hlt), State.event_rd _ (not_mem_evtOffsets hrow)]
      exact s.disableLine_disabled
    · rw [State.elaAgain_rd _ (by decide), State.event_rd _ (not_mem_evtOffsets (by decide)), State.disableLine_count]
    · rw [State.elaAgain_events, State.event_codes _ _ _ _ _ ((s.disableLine_recovery line.isLt).trans hr),
        State.disableLine_events]

/-! ### ELA_LL_DIS (R167) -/

theorem exec_elaLlDis (s : State) (r : BitVec 4) (v : BitVec 32) (ho : s.hostOpen = true) (hr : s.recovery = false) :
    exec (.elaLlDis r v) s = .next (s.llDisWrite r.toNat v.toNat) := by
  simp only [State.hostOpen, hr, Bool.or_false, Bool.and_eq_true] at ho
  obtain ⟨⟨ha, hready⟩, hboot⟩ := ho
  simp only [exec, execElaLlDis, ha, hready, hboot, hr, Bool.not_false, Bool.and_self, State.onlyIf_true]

theorem elaLlDis_follows (s : State) (r : BitVec 4) (v : BitVec 32) (ho : s.hostOpen = true) (hr : s.recovery = false) :
    ∃ t, exec (.elaLlDis r v) s = .next t ∧
      (∀ k, k < 8 → bit (t.rd F.ELA_LL_DIS.DISABLED r.toNat) k =
        (bit (s.rd F.ELA_LL_DIS.DISABLED r.toNat) k && !v.getLsbD k)) ∧
      (∀ q : BitVec 4, q ≠ r → t.rd F.ELA_LL_DIS.DISABLED q.toNat = s.rd F.ELA_LL_DIS.DISABLED q.toNat) ∧
      t.ela.frames = s.ela.frames ∧ t.events = s.events := by
  refine ⟨_, exec_elaLlDis s r v ho hr, fun k hk => ?_, fun q hq => ?_, ?_, ?_⟩
  · have hlt : s.rd F.ELA_LL_DIS.DISABLED r.toNat < 2 ^ 8 := bits_lt ..
    rw [State.llDisWrite, State.elaAgain_rd _ (llDis_not_showsLevels r.isLt),
      State.rd_wr_lt _ ⟨by decide, by decide⟩ (Nat.lt_of_le_of_lt (Nat.sub_le ..) hlt)]
    exact bit_sub_and (by omega) v (by omega)
  · have hne : q.toNat ≠ r.toNat := fun h => hq (BitVec.eq_of_toNat_eq h)
    rw [State.llDisWrite, State.elaAgain_rd _ (llDis_not_showsLevels q.isLt), State.rd_wr_other]
    rw [llDis_off, llDis_off]
    omega
  · rw [State.llDisWrite, State.elaAgain_frames]
    rfl
  · rw [State.llDisWrite, State.elaAgain_events]
    rfl

end Sys2Proof.Machine

open Sys2Proof Sys2Proof.Machine

/-- Settles O33: the array that settles again moves none of its controls and no register but those of its levels. -/
theorem elaReleasesAndHolds : Obligations.ElaReleasesAndHolds :=
  ⟨fun _ _ _ ht => ⟨exec_elaRelease_range ht, fun _ hsc hsb h16 =>
      ⟨exec_elaRelease_refused ht hsc hsb h16, elaRelease_follows ht hsc hsb h16⟩⟩,
    fun _ _ _ ha hsc => ⟨elaGweAssert_follows ha hsc, fun _ => elaGsrDeassert_follows ha hsc, elaGweAssert_early ha hsc,
      elaGsrDeassert_early ha hsc⟩,
    fun _ _ _ _ ht hsc hsb => ⟨elaHold_follows ht hsc hsb, exec_elaHold_loading ht hsc hsb⟩,
    elaClockEdge_follows, elaContention_follows, elaLlDis_follows⟩
end

section
/-! PROOF. Loads of streams, keys, the configuration flash and the sparge engine (R186, R192 to R194, R197 to R199). -/

namespace Sys2Proof.Machine

/-! ### The end of a load with an error (R186, R190, Table CFG-5) -/

/-- The registers that the end of a load writes: CFG_STATUS, CFG_LOAD_ERR_FAR, CFG_RGN_STATE and ELA_STATUS. -/
abbrev endsLoad (o : Nat) : Prop := o = 0x280000 ∨ o = 0x280008 ∨ o = 0x28000C ∨ o = 0x200000

theorem State.setScope_keeps {α : Type} {view : State → α} (hreg : ∀ t o v, endsLoad o → view (State.wrReg t o v) = view t)
    (s : State) (n v : Nat) : view (s.setScope n v) = view s := by
  unfold State.setScope
  split
  · exact (hreg _ _ _ (by decide)).trans (hreg _ _ _ (by decide))
  · exact hreg _ _ _ (by decide)

/-- A load that fails touches, beyond the host plane, the array's levels and the event log, only the load in progress and
the four registers that show its end. -/
theorem State.cfgFail_keeps {α : Type} {view : State → α} (hh : HostBlind view) (ha : ElaBlind view)
    (hload : ∀ t l, view (State.setLoad t l) = view t)
    (hreg : ∀ t o v, endsLoad o → view (State.wrReg t o v) = view t)
    (hevent : ∀ (t : State) code sev source pay, view (t.event code sev source pay) = view t)
    (s : State) (l : CfgLoad) (code : Nat) (far : Option Nat) (status : Nat) :
    view (s.cfgFail l code far status) = view s := by
  have hpast (t : State) (pay : Nat) :
      view (((t.setScope l.scope scIncomplete).event 0x0511 sevError (sourceId 0x0511 0 (scopeUnit l.scope)) pay).elaAgain) =
        view t :=
    (ha.elaAgain _).trans ((hevent ..).trans (State.setScope_keeps hreg ..))
  unfold State.cfgFail
  refine (hh.completeOpt ..).trans ((State.onlyIf_keeps _ _ fun t => hpast t _).trans ((hreg _ _ _ (by decide)).trans ?_))
  split
  · exact (hreg _ _ _ (by decide)).trans ((hreg _ _ _ (by decide)).trans (hload ..))
  · exact (hreg _ _ _ (by decide)).trans (hload ..)

/-- Before the point of no return the code of the error shows in CFG_STATUS. -/
theorem State.cfgFail_errCode (s : State) {l : CfgLoad} {code : Nat} (status : Nat) (hp : l.past = false)
    (hc : code < 256) : (s.cfgFail l code none status).rd F.CFG_STATUS.ERR_CODE = code := by
  unfold State.cfgFail
  dsimp only
  rw [(hostBlind_rd (by decide)).completeOpt, hp, State.onlyIf_false,
    State.rd_wr_field _ _ _ _ _ _ _ _ ⟨by decide, by decide⟩ (by decide)]
  exact State.rd_wr_lt _ ⟨by decide, by decide⟩ hc

/-! ### The header phase (R186) -/

theorem State.headerError_magic (s : State) (l : CfgLoad) {h : List Byte} (hm : fieldAt h 0 4 ≠ 0x4E525053) :
    s.headerError l h = 0x01 := by
  unfold State.headerError
  exact if_pos (.inl hm)

section
variable {s : State} {l : CfgLoad} (ha : s.alive = true) (hl : s.ela.load = some l) (hp : l.past = false) (hs : l.src = 1)
  (hup : s.portUp l.port = true) (hbad : s.hostBad l.port (l.addr + l.raw.length) 128 = true)
include ha hl hp hs hup hbad

/-- A header that host memory delivers in a poisoned packet ends the load with code 0x17, whatever the header says. -/
theorem cfgStreamHeader_poisoned : ∃ t, exec .cfgStreamHeader s = .next t ∧ t.rd F.CFG_STATUS.ERR_CODE = 0x17 := by
  have hwait : s.cfgWaits l 128 = false := by rw [State.cfgWaits, hs]; rfl
  have hfetch : (s.cfgFetch l 128).ended = false ∧ (s.cfgFetch l 128).poison = true := by
    simp only [State.cfgFetch, hs, hup, hbad, Bool.not_true, Bool.and_self, and_self]
  obtain ⟨hended, hpoison⟩ := hfetch
  have hexec : ∃ u : State, exec .cfgStreamHeader s = .next (u.cfgFail l 0x17) := by
    simp only [exec, execCfgStreamHeader, s.live_run _ ha, State.streamHeader, hl, hp, hs, hwait, hended, hpoison,
      Nat.reduceEqDiff, Nat.reduceBEq, Bool.false_and, Bool.or_self, Bool.false_eq_true, if_false, if_true]
    exact ⟨_, rfl⟩
  obtain ⟨u, hu⟩ := hexec
  exact ⟨_, hu, u.cfgFail_errCode _ hp (by decide)⟩

end

/-- A load from host memory that waits for its header: nothing but zeros lies there, and their first byte arrives in a
poisoned packet. -/
def poisonedLoad : CfgLoad := { ref := some ⟨0, 0, 7, false, true⟩, src := 1, length := 144 }

/-- A running device with both ports up and that load in progress. -/
def poisonedHeader : State :=
  ((State.reset.wr F.HST_STATUS.PORT_UP 3).setHost { badTlp := [0] }).setEla { load := some poisonedLoad }

theorem poisonedHeader_error : poisonedHeader.headerError poisonedLoad (poisonedHeader.hostRead 0 0 128) = 0x01 :=
  State.headerError_magic _ _ (by decide)

end Sys2Proof.Machine

open Sys2Proof Sys2Proof.Machine

/-- Refutes O34: the clause about a header that fails has no premise that its bytes arrive unpoisoned. Poison is judged
before the header itself (R192, Table CFG-5): the load ends with code 0x17, not with the header's own 0x01. -/
theorem not_streamsConfigureTheArray : ¬ Obligations.StreamsConfigureTheArray := by
  rintro ⟨-, hheader, -⟩
  have halive : poisonedHeader.alive = true := by decide
  have hup : poisonedHeader.portUp 0 = true := by decide
  have hbad : poisonedHeader.hostBad 0 0 128 = true := by decide
  obtain ⟨hfails, -⟩ := hheader poisonedHeader poisonedLoad halive rfl rfl rfl hup
  have hne : poisonedHeader.headerError poisonedLoad (poisonedHeader.hostRead 0 0 128) ≠ 0 := by
    rw [poisonedHeader_error]; decide
  obtain ⟨t, hexec, -, hcode, -⟩ := hfails hne
  obtain ⟨u, hexec', hpoison⟩ := cfgStreamHeader_poisoned halive rfl rfl rfl hup hbad
  obtain rfl : t = u := Host.Outcome.next.inj (hexec.symm.trans hexec')
  have h : 0x01 = 0x17 := poisonedHeader_error.symm.trans (hcode.symm.trans hpoison)
  exact absurd h (by decide)
end

section
/-! PROOF. Keys, the configuration flash and the sparge engine (R193, R194, R197 to R199). -/

namespace Sys2Proof.Machine

/-! ### CFG_KEY (R197) -/

theorem kcv_lt (key : List Byte) : kcv key < 2 ^ 32 := by
  have h := leNat_lt (slice (aes256 key (List.replicate 16 0)) 0 4)
  rw [slice_length] at h
  exact h

theorem State.setKey1_kcv (s : State) (key : List Byte) : (s.setKey1 key).rd F.CFG_KEY1_KCV.KCV = kcv key :=
  State.rd_wr_lt _ ⟨by decide, by decide⟩ (kcv_lt key)

theorem State.setKey1_valid (s : State) (key : List Byte) : (s.setKey1 key).rd F.CFG_KEY_STATUS.KEY1_VALID = 1 := by
  rw [State.setKey1, State.rd_wr_other _ _ _ _ _ _ _ _ (by decide)]
  exact State.rd_wr_lt _ ⟨by decide, by decide⟩ (by decide)

/-- A key that is written touches nothing but the array's keys and their registers. -/
theorem State.setKey1_keeps {α : Type} {view : State → α} (hreg : ∀ t o v, view (State.wrReg t o v) = view t)
    (hela : ∀ t x, view (State.setEla t x) = view t) (s : State) (key : List Byte) : view (s.setKey1 key) = view s :=
  (hreg ..).trans ((hreg ..).trans (hela ..))

section
variable {s : State} {ref : CmdRef} {slot : BitVec 8} {key : BitVec 256} (ht : s.takes ref 0x0505)
include ht

theorem exec_cfgKey_range (h : 1 < slot.toNat) :
    exec (.cfgKey ref slot key) s = .next ((s.accept ref 0x0505).complete ref stRange) := by
  simp only [exec, execCfgKey, s.command_run _ _ _ ht, if_pos h]

/-- A key for slot 1 is held in the key RAM. -/
theorem exec_cfgKey_held (h : slot = 1) (hdis : s.rdb F.CFG_FUSE.KEY1_DIS = false) :
    exec (.cfgKey ref slot key) s = .next (((s.accept ref 0x0505).setKey1 (leBytes 32 key.toNat)).complete ref stDone
      (kcv (leBytes 32 key.toNat))) := by
  subst h
  have hdis' : (s.accept ref 0x0505).rdb F.CFG_FUSE.KEY1_DIS = false := by
    rw [State.rdb, s.accept_rd _ _ (by decide)]
    exact hdis
  have hslot : ¬ 1 < (1 : BitVec 8).toNat ∧ (1 : BitVec 8) ≠ 0 := by decide
  simp only [exec, execCfgKey, s.command_run _ _ _ ht, if_neg hslot.1, if_neg hslot.2, hdis', Bool.false_eq_true, if_false]

/-- The blowing of the slot-0 key begins. -/
theorem exec_cfgKey_blown (h : slot = 0) (hen : s.rdb F.SEC_CTRL.FUSE_EN = true)
    (hprog : s.rdb F.CFG_FUSE.KEY0_PROG = false) (hop : s.sec.fuseOp = none) :
    exec (.cfgKey ref slot key) s = .next (((s.accept ref 0x0505).setSec { s.sec with
      fuseOp := some ⟨ref, fuseKey0, leBytes 32 key.toNat⟩ }).pastPoint ref) := by
  subst h
  have hfuses : (s.accept ref 0x0505).rdb F.SEC_CTRL.FUSE_EN = true ∧
      (s.accept ref 0x0505).rdb F.CFG_FUSE.KEY0_PROG = false := by
    simp (disch := decide) only [State.rdb, State.accept_rd]
    exact ⟨hen, hprog⟩
  have hsec : (s.accept ref 0x0505).sec = s.sec := State.units_sec (s.accept_units ..)
  have hslot : ¬ 1 < (0 : BitVec 8).toNat := by decide
  simp only [exec, execCfgKey, s.command_run _ _ _ ht, if_neg hslot, hfuses.1, hfuses.2, hsec, hop, Bool.not_true,
    Bool.or_self, Bool.false_eq_true, if_false, if_true, Option.isSome_none]

theorem cfgKey_holds_slot1 (h : slot = 1) (hdis : s.rdb F.CFG_FUSE.KEY1_DIS = false) :
    ∃ t, exec (.cfgKey ref slot key) s = .next t ∧ t.ela = { s.ela with key1 := leBytes 32 key.toNat } ∧
      t.rd F.CFG_KEY_STATUS.KEY1_VALID = 1 ∧ t.rd F.CFG_KEY1_KCV.KCV = kcv (leBytes 32 key.toNat) ∧ t.sec = s.sec ∧
      t.mem = s.mem ∧ t.events = s.events := by
  have hunits := s.accept_units ref 0x0505
  refine ⟨_, exec_cfgKey_held ht h hdis, ?_⟩
  rw [State.units_ela (State.complete_units ..), State.units_sec (State.complete_units ..),
    State.units_mem (State.complete_units ..), hostBlind_events.complete, (hostBlind_rd (by decide)).complete,
    (hostBlind_rd (by decide)).complete, State.setKey1_valid, State.setKey1_kcv,
    State.setKey1_keeps State.wrReg_sec State.setEla_sec, State.setKey1_keeps State.wrReg_mem State.setEla_mem,
    State.setKey1_keeps State.wrReg_events State.setEla_events, State.units_sec hunits, State.units_mem hunits,
    hostBlind_events.accept]
  refine ⟨?_, rfl, rfl, rfl, rfl, rfl⟩
  rw [← s.accept_ela ref 0x0505]
  rfl

theorem cfgKey_blows_slot0 (h : slot = 0) (hen : s.rdb F.SEC_CTRL.FUSE_EN = true)
    (hprog : s.rdb F.CFG_FUSE.KEY0_PROG = false) (hop : s.sec.fuseOp = none) :
    ∃ t, exec (.cfgKey ref slot key) s = .next t ∧
      t.sec = { s.sec with fuseOp := some ⟨ref, fuseKey0, leBytes 32 key.toNat⟩ } ∧ t.ela = s.ela ∧
      t.events = s.events :=
  ⟨_, exec_cfgKey_blown ht h hen hprog hop, rfl, s.accept_ela ref _, hostBlind_events.accept s ref _⟩

end

/-! ### The key RAM is lost (R198) -/

/-- The key RAM is empty, and CFG_KEY_STATUS shows that and why: 1 tamper, else VBAT. -/
def State.keyCleared (s : State) (info : Nat) : State :=
  let s := ((s.setEla { s.ela with key1 := [] }).wr F.CFG_KEY_STATUS.KEY1_VALID 0).wr F.CFG_KEY1_KCV.KCV 0
  if info = 1 then s.wr F.CFG_KEY_STATUS.TAMPER_SEEN 1 else s.wr F.CFG_KEY_STATUS.VBAT_LOST 1

section
variable (s : State) (info : Nat)

/-- What follows a loss of the key RAM, its event and the end of a load under the key, touches beyond the host plane, the
array's levels and the event log only the events owed, the load in progress and the registers that show its end. -/
theorem State.keyLost_keeps {α : Type} {view : State → α} (hh : HostBlind view) (ha : ElaBlind view)
    (hload : ∀ t l, view (State.setLoad t l) = view t)
    (howed : ∀ (t : State) o, view (t.setEla { t.ela with owed := o }) = view t)
    (hreg : ∀ t o v, endsLoad o → view (State.wrReg t o v) = view t)
    (hevent : ∀ (t : State) code sev source pay, view (t.event code sev source pay) = view t) :
    view (s.keyLost info) = view (s.keyCleared info) := by
  have hfail (t : State) (l : CfgLoad) (code : Nat) : view (t.cfgFail l code) = view t :=
    State.cfgFail_keeps hh ha hload hreg hevent ..
  have howes (t : State) (c : Bool) : view (if c then t.cfgEvent 0x0515 sevWarn 0 0 0 info 0 0
      else t.setEla { t.ela with owed := t.ela.owed ++ [info] }) = view t := by
    cases c
    · exact howed ..
    · exact hevent ..
  unfold State.keyLost
  dsimp only
  split
  · split
    · exact (hfail ..).trans (howes ..)
    · exact howes ..
  · exact howes ..

theorem State.keyLost_keys : (s.keyLost info).ela.key1 = [] ∧ (s.keyLost info).ela.key0 = s.ela.key0 := by
  have hkeys : ((s.keyLost info).ela.key1, (s.keyLost info).ela.key0) =
      ((s.keyCleared info).ela.key1, (s.keyCleared info).ela.key0) :=
    s.keyLost_keeps info (view := fun s => (s.ela.key1, s.ela.key0)) ⟨fun _ _ _ _ => rfl, fun _ _ => rfl, fun _ _ => rfl⟩
      (elaBlind_still (f := fun e => (e.key1, e.key0)) fun _ => rfl) (fun _ _ => rfl) (fun _ _ => rfl) (fun _ _ _ _ => rfl)
      fun t code sev source pay => by rw [State.units_ela (t.event_units code sev source pay false)]
  obtain ⟨h1, h0⟩ := Prod.mk.inj hkeys
  rw [h1, h0]
  unfold State.keyCleared
  split <;> exact ⟨rfl, rfl⟩

theorem State.keyLost_rd {f : Field} (hf : f.off 0 0 = 0x280014) : (s.keyLost info).rd f = (s.keyCleared info).rd f := by
  have hhost : 0x40000 ≤ f.off 0 0 := by rw [hf]; decide
  refine s.keyLost_keeps info (view := fun s => s.rd f) (hostBlind_rd hhost) (elaBlind_rd (by rw [hf]; decide))
    (fun _ _ => rfl) (fun _ _ => rfl) (fun t o v ho => ?_) fun t _ _ _ _ => t.event_rd (not_mem_evtOffsets hhost)
  have hne : f.off 0 0 ≠ o := fun e => by rw [← e, hf] at ho; exact absurd ho (by decide)
  show bits ((t.wrReg o v).rdReg _) _ _ = _
  rw [State.rdReg_wrReg, if_neg hne, State.rd]

theorem State.keyCleared_valid : (s.keyCleared info).rd F.CFG_KEY_STATUS.KEY1_VALID = 0 := by
  have hvalid (t : State) : ((t.wr F.CFG_KEY_STATUS.KEY1_VALID 0).wr F.CFG_KEY1_KCV.KCV 0).rd F.CFG_KEY_STATUS.KEY1_VALID = 0 := by
    rw [State.rd_wr_other _ _ _ _ _ _ _ _ (by decide)]
    exact State.rd_wr_lt _ ⟨by decide, by decide⟩ (by decide)
  unfold State.keyCleared
  split <;> exact (State.rd_wr_field _ _ _ _ _ _ _ _ ⟨by decide, by decide⟩ (by decide)).trans (hvalid _)

end

theorem State.keyCleared_tamper (s : State) : (s.keyCleared 1).rd F.CFG_KEY_STATUS.TAMPER_SEEN = 1 :=
  State.rd_wr_lt _ ⟨by decide, by decide⟩ (by decide)

theorem State.keyCleared_vbat (s : State) : (s.keyCleared 2).rd F.CFG_KEY_STATUS.VBAT_LOST = 1 :=
  State.rd_wr_lt _ ⟨by decide, by decide⟩ (by decide)

theorem tamperNLow_follows (s : State) : ∃ t, exec .tamperNLow s = .next t ∧ t.ela.key1 = [] ∧
    t.rd F.CFG_KEY_STATUS.KEY1_VALID = 0 ∧ t.rd F.CFG_KEY_STATUS.TAMPER_SEEN = 1 ∧ t.ela.key0 = s.ela.key0 :=
  ⟨_, rfl, (s.keyLost_keys 1).1, (s.keyLost_rd 1 rfl).trans (s.keyCleared_valid 1), (s.keyLost_rd 1 rfl).trans
    s.keyCleared_tamper, (s.keyLost_keys 1).2⟩

theorem vbatLoss_follows (s : State) : ∃ t, exec .vbatLoss s = .next t ∧ t.ela.key1 = [] ∧
    t.rd F.CFG_KEY_STATUS.KEY1_VALID = 0 ∧ t.rd F.CFG_KEY_STATUS.VBAT_LOST = 1 ∧ t.ela.key0 = s.ela.key0 :=
  ⟨_, rfl, (s.keyLost_keys 2).1, (s.keyLost_rd 2 rfl).trans (s.keyCleared_valid 2), (s.keyLost_rd 2 rfl).trans
    s.keyCleared_vbat, (s.keyLost_keys 2).2⟩

/-! ### CFG_FLASH (R194, R461) -/

section
variable {s : State} {ref : CmdRef} {ofs len : BitVec 32} {part : BitVec 8} {addr : BitVec 64} (ht : s.takes ref 0x0504)
  (hofs : ofs.toNat % 2 ^ 16 = 0)
include ht hofs

theorem exec_cfgFlash_protected (hp : flashProtected ofs.toNat len.toNat = true) :
    exec (.cfgFlash ref 2 0 part ofs addr len) s = .next ((s.accept ref 0x0504).complete ref stRefused) := by
  have hblock : ofs.toNat % 65536 = 0 := hofs
  simp [exec, execCfgFlash, s.command_run _ _ _ ht, hblock, hp]

/-- Outside the protected ranges an erase of whole blocks begins where no other user of the flash is at work. -/
theorem exec_cfgFlash_erase (hp : flashProtected ofs.toNat len.toNat = false) (hop : s.sec.flashOp = none)
    (hl : ∀ l, s.ela.load = some l → l.src ≠ 3) :
    exec (.cfgFlash ref 2 0 part ofs addr len) s = .next ((s.accept ref 0x0504).setFlashOp
      (some ⟨some ref, 2, ofs.toNat, len.toNat, [], 0, false, part.toNat, addr.toNat⟩)) := by
  have hblock : ofs.toNat % 65536 = 0 := hofs
  have hsec : (s.accept ref 0x0504).sec = s.sec := State.units_sec (s.accept_units ..)
  cases h : s.ela.load with
  | none => simp [exec, execCfgFlash, s.command_run _ _ _ ht, hblock, hp, hsec, hop, s.accept_ela, h]
  | some l => simp [exec, execCfgFlash, s.command_run _ _ _ ht, hblock, hp, hsec, hop, s.accept_ela, h, hl l h]

theorem cfgFlash_erases (hp : flashProtected ofs.toNat len.toNat = false) (hop : s.sec.flashOp = none)
    (hl : ∀ l, s.ela.load = some l → l.src ≠ 3) :
    ∃ t, exec (.cfgFlash ref 2 0 part ofs addr len) s = .next t ∧
      t.sec = { s.sec with flashOp := some ⟨some ref, 2, ofs.toNat, len.toNat, [], 0, false, part.toNat, addr.toNat⟩ } ∧
      t.ela = s.ela ∧ t.mem = s.mem := by
  refine ⟨_, exec_cfgFlash_erase ht hofs hp hop hl, ?_, s.accept_ela ref _,
    (State.setSec_mem ..).trans (State.units_mem (s.accept_units ref _))⟩
  rw [← State.units_sec (s.accept_units ref 0x0504)]
  rfl

end


/-- What a key reads as once only the keys that pass a test have been kept. -/
theorem Sparse.find_keep {α : Type} (p : Nat → Bool) (m : List (Nat × α)) (k : Nat) :
    Sparse.find (Sparse.keep p m) k = if p k then Sparse.find m k else none := by
  induction m with
  | nil => exact (ite_self _).symm
  | cons e m ih =>
    unfold Sparse.keep at ih ⊢
    rw [List.filter_cons, Sparse.find_cons]
    by_cases hk : e.1 = k
    · subst hk
      cases hp : p e.1 with
      | true => rw [if_pos rfl, if_pos rfl, if_pos rfl, Sparse.find_cons, if_pos rfl]
      | false => rw [if_neg Bool.false_ne_true, ih, hp]; rfl
    · rw [if_neg hk, ← ih]
      split
      · exact if_neg hk
      · rfl

theorem Sparse.get_keep {α : Type} (d : Nat → α) (p : Nat → Bool) (m : List (Nat × α)) (k : Nat) :
    Sparse.get d (Sparse.keep p m) k = if p k then Sparse.get d m k else d k := by
  rw [Sparse.get, Sparse.find_keep]
  split <;> rfl

section
variable (s : State)

theorem State.flashRead_one (k : Nat) : s.flashRead k 1 = [Sparse.get (fun _ => (0xFF : Byte)) s.sec.flash k] := rfl

theorem State.flashRead_congr {s t : State} (h : t.sec.flash = s.sec.flash) (ofs n : Nat) :
    t.flashRead ofs n = s.flashRead ofs n := by
  unfold State.flashRead
  rw [h]

/-- A byte of a 64 KiB block that an erased range touches is erased, and every other byte is as it was. -/
theorem State.flashErase_read (ofs n k : Nat) : (s.flashErase ofs n).flashRead k 1 =
    if k / 2 ^ 16 < ofs / 2 ^ 16 ∨ (ofs + n - 1) / 2 ^ 16 < k / 2 ^ 16 then s.flashRead k 1 else [0xFF] := by
  rw [State.flashRead_one, State.flashRead_one, State.flashErase, State.setSec_sec]
  dsimp only
  rw [Sparse.get_keep, ← Bool.decide_or]
  by_cases h : k / 2 ^ 16 < ofs / 2 ^ 16 ∨ (ofs + n - 1) / 2 ^ 16 < k / 2 ^ 16
  · rw [if_pos h, if_pos (decide_eq_true h)]
  · rw [if_neg h, if_neg (by rwa [decide_eq_true_iff])]

variable {s} {o : FlashOp} (ha : s.alive = true) (ho : s.sec.flashOp = some o) (hk : o.kind = 2) (hlen : 0 < o.len)
include ha ho hk hlen

theorem exec_flashOperationComplete_erase (ok : Bool) : exec (.flashOperationComplete ok) s =
    .next (((s.flashErase o.ofs o.len).setFlashOp none).completeOpt o.ref stDone) := by
  simp [exec, execFlashOperationComplete, s.live_run _ ha, ho, hk, State.cfgFlashEnd, Nat.ne_of_gt hlen]

theorem flashErase_ends (ok : Bool) : ∃ t, exec (.flashOperationComplete ok) s = .next t ∧ t.sec.flashOp = none ∧
    (∀ k, o.ofs / 2 ^ 16 ≤ k / 2 ^ 16 → k / 2 ^ 16 ≤ (o.ofs + o.len - 1) / 2 ^ 16 → t.flashRead k 1 = [0xFF]) ∧
    (∀ k, k / 2 ^ 16 < o.ofs / 2 ^ 16 ∨ (o.ofs + o.len - 1) / 2 ^ 16 < k / 2 ^ 16 → t.flashRead k 1 = s.flashRead k 1) ∧
    t.ela = s.ela ∧ t.mem = s.mem := by
  have hunits := ((s.flashErase o.ofs o.len).setFlashOp none).completeOpt_units o.ref stDone 0 false
  have hread (k : Nat) := State.flashRead_congr (congrArg SecSt.flash (State.units_sec hunits)) k 1
  refine ⟨_, exec_flashOperationComplete_erase ha ho hk hlen ok, congrArg SecSt.flashOp (State.units_sec hunits),
    fun k hlo hhi => ?_, fun k hout => ?_, (State.units_ela hunits).trans rfl, (State.units_mem hunits).trans rfl⟩
  · exact (hread k).trans ((s.flashErase_read ..).trans (if_neg (by omega)))
  · exact (hread k).trans ((s.flashErase_read ..).trans (if_pos hout))

end

/-! ### Words with flipped bits (R181) -/

theorem elaSyn_zero : elaSyn 0 = none := by decide

theorem maskBits_two_pow {n i : Nat} (h : i < n) : maskBits n (2 ^ i) = [i] := by
  have hbit : bit (2 ^ i) = fun k => decide (k = i) := by
    funext k
    calc bit (2 ^ i) k
      _ = (2 ^ i).testBit k := by rw [bit, Nat.testBit_eq_decide_div_mod_eq]; rfl
      _ = decide (k = i) := by rw [Nat.testBit_two_pow]; exact decide_eq_decide.mpr eq_comm
  rw [maskBits, hbit, List.filter_eq, List.nodup_range.count, if_pos (List.mem_range.mpr h)]
  rfl

/-- One flipped bit shows as a single error at its place. -/
theorem elaSyn_single (i : Fin 72) : elaSyn (BitVec.ofNat 72 (2 ^ i.val)) = some (some i) := by
  have hlt : 2 ^ i.val < 2 ^ 72 := Nat.pow_lt_pow_right (by decide) i.isLt
  rw [elaSyn, BitVec.toNat_ofNat, Nat.mod_eq_of_lt hlt, maskBits_two_pow i.isLt]
  exact congrArg some (dif_pos i.isLt)

theorem State.flip_congr {s t : State} (h : t.ela = s.ela) (k : Nat) : t.flip k = s.flip k := by
  rw [State.flip, h, State.flip]

theorem State.flip_setFlip (s : State) (k j : Nat) (v : BitVec 72) :
    (s.setFlip k v).flip j = if j = k then v else s.flip j := Sparse.get_set ..

theorem State.setFlip_rd (s : State) (k : Nat) (v : BitVec 72) (f : Field) (i j : Nat) :
    (s.setFlip k v).rd f i j = s.rd f i j := rfl

theorem State.setFlip_scope (s : State) (k : Nat) (v : BitVec 72) (n : Nat) : (s.setFlip k v).scope n = s.scope n := rfl

theorem State.setFlip_frameScope (s : State) (k : Nat) (v : BitVec 72) (far : Nat) :
    (s.setFlip k v).frameScope far = s.frameScope far := rfl

theorem State.setFlip_essential (s : State) (k : Nat) (v : BitVec 72) (j : Nat) :
    (s.setFlip k v).essential j = s.essential j := rfl

theorem State.setFlip_frames (s : State) (k : Nat) (v : BitVec 72) : (s.setFlip k v).ela.frames = s.ela.frames := rfl

theorem State.setFlip_events (s : State) (k : Nat) (v : BitVec 72) : (s.setFlip k v).events = s.events := rfl

/-! ### A frame slot (R199) -/

theorem State.each_fixed {β : Type} {s : State} {f : State → β → State} {l : List β} (h : ∀ b ∈ l, f s b = s) :
    s.each l f = s := by
  induction l with
  | nil => rfl
  | cons b l ih =>
    refine Eq.trans (congrArg (fun t : State => t.each l f) (h b List.mem_cons_self)) ?_
    exact ih fun c hc => h c (List.mem_cons_of_mem _ hc)

/-- Of the elements of a list only one does anything, before it has been taken and after it. -/
theorem State.each_single {β : Type} {s : State} {f : State → β → State} {l : List β} {b : β} (hnd : l.Nodup) (hb : b ∈ l)
    (hbefore : ∀ c ∈ l, c ≠ b → f s c = s) (hafter : ∀ c ∈ l, c ≠ b → f (f s b) c = f s b) : s.each l f = f s b := by
  induction l with
  | nil => exact absurd hb List.not_mem_nil
  | cons c l ih =>
    obtain ⟨hc, hnd⟩ := List.nodup_cons.mp hnd
    show (f s c).each l f = f s b
    rcases List.mem_cons.mp hb with rfl | hb
    · exact State.each_fixed fun d hd => hafter d (List.mem_cons_of_mem _ hd) fun e => hc (e ▸ hd)
    · rw [hbefore c List.mem_cons_self fun e => hc (e ▸ hb)]
      exact ih hnd hb (fun d hd => hbefore d (List.mem_cons_of_mem _ hd)) fun d hd => hafter d (List.mem_cons_of_mem _ hd)

/-- The engine's position moves to the next frame, or to the first with a pass counted. -/
def State.spargeNext (s : State) (far : Nat) : State :=
  if far + 1 < 6144 then s.wr F.CFG_SPG_POS.FAR (far + 1) else (s.wr F.CFG_SPG_POS.FAR 0).inc F.CFG_SPG_PASS.COUNT

/-- The words of a frame are read where its scope is scrubbed. -/
def State.spargeRead (s : State) (far : Nat) : State :=
  s.onlyIf (s.scope (s.frameScope far) == scConfigured) fun s => s.each (List.range 32) fun s w => s.spargeWord far w

theorem State.spargeSlot_nil (s : State) :
    s.spargeSlot [] [] = (s.spargeRead (s.rd F.CFG_SPG_POS.FAR)).spargeNext (s.rd F.CFG_SPG_POS.FAR) := rfl

theorem State.spargeSlot_one (s : State) (w : BitVec 5) (x : BitVec 72) :
    let far := s.rd F.CFG_SPG_POS.FAR
    let k := 32 * far + w.toNat
    s.spargeSlot [(w, x)] [] = ((s.setFlip k (s.flip k ^^^ x)).spargeRead far).spargeNext far := rfl

section
variable (s : State) (far : Nat)

theorem State.spargeNext_keeps {α : Type} {view : State → α} (hreg : ∀ t o v, view (State.wrReg t o v) = view t) :
    view (s.spargeNext far) = view s := by
  unfold State.spargeNext
  split
  · exact hreg ..
  · exact (hreg ..).trans (hreg ..)

theorem State.spargeNext_rd_other {f : Field} (hpos : f.off 0 0 ≠ 0x28004C) (hpass : f.off 0 0 ≠ 0x280034) :
    (s.spargeNext far).rd f = s.rd f := by
  unfold State.spargeNext
  split
  · exact s.rd_wr_other _ _ _ _ _ _ _ hpos
  · exact (State.rd_wr_other _ _ _ _ _ _ _ _ hpass).trans (s.rd_wr_other _ _ _ _ _ _ _ hpos)

theorem State.spargeNext_position :
    (s.spargeNext far).rd F.CFG_SPG_POS.FAR = if far + 1 < 6144 then far + 1 else 0 := by
  unfold State.spargeNext
  split
  · next h => exact s.rd_wr_lt ⟨by decide, by decide⟩ (Nat.lt_trans h (by decide))
  · rw [State.inc, State.rd_wr_other _ _ _ _ _ _ _ _ (by decide)]
    exact s.rd_wr_lt ⟨by decide, by decide⟩ (by decide)

/-- A saturating counter of 32 bits after it has counted. -/
theorem State.rd_sat (f : Field) (n : Nat) (hf : f.hi = 31 ∧ f.lo = 0) :
    (s.sat f (n := n)).rd f = min (2 ^ 32 - 1) (s.rd f + n) := by
  have hfits : f.fits := ⟨by omega, by omega⟩
  rw [State.sat, hf.1, hf.2, satAdd_eq_min]
  refine State.rd_wr_lt _ hfits ?_
  rw [hf.1, hf.2]
  omega

variable {far}

theorem State.spargeWord_clean {w : Nat} (h : s.flip (32 * far + w) = 0) : s.spargeWord far w = s := by
  simp only [State.spargeWord, h, elaSyn_zero]

/-- A single upset bit that is not essential is put right and counted. -/
theorem State.spargeWord_single {w : Nat} (i : Fin 72) (h : s.flip (32 * far + w) = BitVec.ofNat 72 (2 ^ i.val))
    (hne : 64 ≤ i.val ∨ (s.essential (32 * far + w)).getLsbD i.val = false) :
    s.spargeWord far w = (s.setFlip (32 * far + w) 0).sat F.CFG_SPG_NE_CNT.COUNT := by
  have hcond : (decide (64 ≤ i.val) || !(s.essential (32 * far + w)).getLsbD i.val) = true := by
    rcases hne with h64 | hess
    · rw [decide_eq_true h64, Bool.true_or]
    · rw [hess, Bool.not_false, Bool.or_true]
  simp only [State.spargeWord, h, elaSyn_single, BitVec.xor_self]
  exact if_pos hcond

end

section
variable {s : State} {far : Nat}

theorem State.spargeRead_clean (hclean : ∀ w, w < 32 → s.flip (32 * far + w) = 0) : s.spargeRead far = s := by
  unfold State.spargeRead State.onlyIf
  split
  · exact State.each_fixed fun w hw => s.spargeWord_clean (hclean w (List.mem_range.mp hw))
  · rfl

/-- Of the words of a frame that is scrubbed only one is upset, in one bit that is not essential. -/
theorem State.spargeRead_single {w : Nat} (hw : w < 32) (i : Fin 72)
    (hupset : s.flip (32 * far + w) = BitVec.ofNat 72 (2 ^ i.val))
    (hclean : ∀ c, c < 32 → c ≠ w → s.flip (32 * far + c) = 0) (hconf : s.scope (s.frameScope far) = scConfigured)
    (hne : 64 ≤ i.val ∨ (s.essential (32 * far + w)).getLsbD i.val = false) :
    s.spargeRead far = (s.setFlip (32 * far + w) 0).sat F.CFG_SPG_NE_CNT.COUNT := by
  have hword := s.spargeWord_single i hupset hne
  rw [State.spargeRead, hconf, beq_self_eq_true, State.onlyIf_true, ← hword]
  refine State.each_single List.nodup_range (List.mem_range.mpr hw)
    (fun c hc hcw => s.spargeWord_clean (hclean c (List.mem_range.mp hc) hcw)) fun c hc hcw => ?_
  rw [hword]
  refine State.spargeWord_clean _ ?_
  rw [State.flip_congr (State.sat_ela ..), State.flip_setFlip, if_neg (by omega), hclean c (List.mem_range.mp hc) hcw]

end

/-- The disagreements that the engine's voters have corrected are counted (R200). -/
def State.countVotes (s : State) (n : Nat) : State := s.sat F.CFG_SPG_TMR_CNT.COUNT (n := n)

section
variable (s : State) (n : Nat)

theorem State.countVotes_ela : (s.countVotes n).ela = s.ela := State.sat_ela ..

theorem State.countVotes_essential (k : Nat) : (s.countVotes n).essential k = s.essential k := by
  unfold State.essential
  rw [State.countVotes_ela]

theorem State.countVotes_events : (s.countVotes n).events = s.events := State.sat_events ..

theorem State.countVotes_rd_other {f : Field} {i j : Nat} (h : f.off i j ≠ 0x280048) :
    (s.countVotes n).rd f i j = s.rd f i j := s.rd_wr_other _ _ _ _ _ _ _ h

theorem State.countVotes_scope (k : Nat) : (s.countVotes n).scope k = s.scope k := by
  simp (disch := decide) only [State.scope, State.countVotes_rd_other]

theorem State.countVotes_frameScope (far : Nat) : (s.countVotes n).frameScope far = s.frameScope far := by
  have hblocks (r w : Nat) : (s.countVotes n).rd F.CFG_RGN_BLK.BLOCKS r w = s.rd F.CFG_RGN_BLK.BLOCKS r w := by
    refine s.countVotes_rd_other n ?_
    rw [Field.off, show F.CFG_RGN_BLK.BLOCKS.base = 0x280100 from rfl]
    omega
  simp only [State.frameScope, State.blockRegion, State.inRegion, hblocks]

end

section
variable {s : State} (ha : s.alive = true) (hen : s.rdb F.CFG_SPG_CTRL.EN = true) (v : BitVec 8)
include ha hen

theorem exec_spargeFrameSlot (upsets mapUpsets : List (BitVec 5 × BitVec 72)) :
    exec (.spargeFrameSlot upsets mapUpsets v) s = .next ((s.countVotes v.toNat).spargeSlot upsets mapUpsets) := by
  have hen' : (s.countVotes v.toNat).rdb F.CFG_SPG_CTRL.EN = true := by
    rw [State.rdb, State.countVotes_rd_other _ _ (by decide)]
    exact hen
  rw [State.countVotes] at hen' ⊢
  simp only [exec, execSpargeFrameSlot, s.live_run _ ha, hen', State.onlyIf_true]

variable {far : Nat} (hfar : s.rd F.CFG_SPG_POS.FAR = far) (hclean : ∀ w, w < 32 → s.flip (32 * far + w) = 0)
include hfar hclean

/-- Where the words of the frame at the position are clean, the slot moves on. -/
theorem spargeFrameSlot_clean : ∃ t, exec (.spargeFrameSlot [] [] v) s = .next t ∧
    t.rd F.CFG_SPG_POS.FAR = (if far + 1 < 6144 then far + 1 else 0) ∧
    t.rd F.CFG_SPG_TMR_CNT.COUNT = min (2 ^ 32 - 1) (s.rd F.CFG_SPG_TMR_CNT.COUNT + v.toNat) ∧ t.ela = s.ela ∧
    t.events = s.events := by
  have hread : (s.countVotes v.toNat).spargeRead far = s.countVotes v.toNat :=
    State.spargeRead_clean fun w hw => (State.flip_congr (s.countVotes_ela _) _).trans (hclean w hw)
  refine ⟨_, exec_spargeFrameSlot ha hen v [] [], ?_⟩
  rw [State.spargeSlot_nil, State.countVotes_rd_other _ _ (by decide), hfar, hread, State.spargeNext_position,
    State.spargeNext_rd_other _ _ (by decide) (by decide), State.spargeNext_keeps _ _ State.wrReg_ela,
    State.spargeNext_keeps _ _ State.wrReg_events, State.countVotes_ela, State.countVotes_events, State.countVotes,
    State.rd_sat _ _ _ ⟨rfl, rfl⟩]
  exact ⟨rfl, rfl, rfl, rfl⟩

/-- A bit that flips in a clean frame of a configured scope, and is not essential, is put right and counted. -/
theorem spargeFrameSlot_single (w : BitVec 5) (i : Fin 72) (hconf : s.scope (s.frameScope far) = scConfigured)
    (hne : 64 ≤ i.val ∨ (s.essential (32 * far + w.toNat)).getLsbD i.val = false) :
    ∃ t, exec (.spargeFrameSlot [(w, BitVec.ofNat 72 (2 ^ i.val))] [] v) s = .next t ∧
      t.flip (32 * far + w.toNat) = 0 ∧ t.ela.frames = s.ela.frames ∧
      t.rd F.CFG_SPG_NE_CNT.COUNT = min (2 ^ 32 - 1) (s.rd F.CFG_SPG_NE_CNT.COUNT + 1) ∧ t.events = s.events := by
  have hclean' (c : Nat) (hc : c < 32) : (s.countVotes v.toNat).flip (32 * far + c) = 0 :=
    (State.flip_congr (s.countVotes_ela _) _).trans (hclean c hc)
  have hupset : (s.countVotes v.toNat).flip (32 * far + w.toNat) ^^^ BitVec.ofNat 72 (2 ^ i.val) =
      BitVec.ofNat 72 (2 ^ i.val) := by
    rw [hclean' _ w.isLt]
    exact BitVec.zero_xor
  have hread : ((s.countVotes v.toNat).setFlip (32 * far + w.toNat) (BitVec.ofNat 72 (2 ^ i.val))).spargeRead far =
      (((s.countVotes v.toNat).setFlip (32 * far + w.toNat) (BitVec.ofNat 72 (2 ^ i.val))).setFlip
        (32 * far + w.toNat) 0).sat F.CFG_SPG_NE_CNT.COUNT := by
    refine State.spargeRead_single w.isLt i ?_ (fun c hc hcw => ?_) ?_ ?_
    · rw [State.flip_setFlip, if_pos rfl]
    · rw [State.flip_setFlip, if_neg (by omega), hclean' c hc]
    · rw [State.setFlip_frameScope, State.setFlip_scope, State.countVotes_frameScope, State.countVotes_scope, hconf]
    · rwa [State.setFlip_essential, State.countVotes_essential]
  refine ⟨_, exec_spargeFrameSlot ha hen v _ [], ?_⟩
  rw [State.spargeSlot_one, State.countVotes_rd_other _ _ (by decide), hfar, hupset, hread]
  refine ⟨?_, ?_, ?_, ?_⟩
  · rw [State.flip_congr (State.spargeNext_keeps _ _ State.wrReg_ela), State.flip_congr (State.sat_ela ..),
      State.flip_setFlip, if_pos rfl]
  · rw [State.spargeNext_keeps _ _ State.wrReg_ela, State.sat_ela, State.setFlip_frames, State.setFlip_frames,
      State.countVotes_ela]
  · rw [State.spargeNext_rd_other _ _ (by decide) (by decide), State.rd_sat _ _ _ ⟨rfl, rfl⟩, State.setFlip_rd,
      State.setFlip_rd, State.countVotes_rd_other _ _ (by decide)]
  · rw [State.spargeNext_keeps _ _ State.wrReg_events, State.sat_events, State.setFlip_events, State.setFlip_events,
      State.countVotes_events]

end

end Sys2Proof.Machine

open Sys2Proof Sys2Proof.Machine

/-- Settles O35: a lost key and a failed load leave alone all that the statement looks at; in a frame slot only the word
with the upset is written. -/
theorem keysFlashAndScrubbing : Obligations.KeysFlashAndScrubbing :=
  ⟨fun _ _ _ _ ht => ⟨exec_cfgKey_range ht, cfgKey_holds_slot1 ht, cfgKey_blows_slot0 ht⟩,
    fun s => ⟨tamperNLow_follows s, vbatLoss_follows s⟩,
    fun _ _ _ _ _ _ ht hofs => ⟨exec_cfgFlash_protected ht hofs, cfgFlash_erases ht hofs⟩,
    fun _ _ ok ha ho hk hlen => flashErase_ends ha ho hk hlen ok,
    fun _ v ha hen hclean => ⟨spargeFrameSlot_clean ha hen v rfl hclean, spargeFrameSlot_single ha hen v rfl hclean⟩⟩
end

section
/-! PROOF. Bundles in the last delay slot of a return: MODE changes with them (R222, R249). -/

namespace Sys2Proof.Machine

/-- A bundle whose operation field and moves are all 0. -/
def bareBundle : Bundle := ⟨0, 0, 0⟩

theorem State.bundleMove_bare (s : State) (n : Nat) (y : Bool) : s.bundleMove n bareBundle y = {} := by
  cases y <;> rfl

theorem moveWrites_bare (s : State) (n : Nat) : moveWrites s n bareBundle = [] := by
  simp only [moveWrites, State.bundleMove_bare]
  rfl

/-- Core 0 as a reset leaves it, running in page 0: at address 0 a return to user mode, at 1 a NOP, at 2 the operation. -/
def returnProgram (opc : Nat) : State :=
  ((State.reset.wr F.SC_STATUS.STATE 1).wr F.SC_STATUS.VALID 1).setCore 0
    { pram := [(0, BitVec.ofNat 64 (bundleWord 0x73 bareBundle)), (2, BitVec.ofNat 64 (bundleWord opc bareBundle))] }

/-- The return and its first delay slot have run: the operation stands in the last one. -/
def lastSlot (opc : Nat) : State :=
  ((returnProgram opc).bundle 0 0x73 bareBundle opRti).bundle 0 0 bareBundle (opNop 0)

theorem exec_opRti {core : BitVec 6} {n : Nat} (h : core.toNat = n) (b : Bundle) (s : State) :
    exec (.opRti core b) s = .next (s.bundle n 0x73 b opRti) := by
  subst h
  rfl

theorem exec_opNop_zero {core : BitVec 6} {n : Nat} (h : core.toNat = n) (b : Bundle) (s : State) :
    exec (.opNop core 0 b) s = .next (s.bundle n 0 b (opNop 0)) := by
  subst h
  have hopc : (0 : BitVec 8).toNat = 0 := rfl
  have hnop : ¬ (opcListed 0 && (0 : BitVec 8) != 0) = true := by decide
  show execOpNop core 0 b s = _
  rw [execOpNop, hopc, if_neg hnop]

/-- `lastSlot` is a state that the model's own commands reach. -/
theorem lastSlot_reached (opc : Nat) : ∃ s, exec (.opRti 0 bareBundle) (returnProgram opc) = .next s ∧
    exec (.opNop 0 0 bareBundle) s = .next (lastSlot opc) :=
  ⟨_, exec_opRti (n := 0) rfl .., exec_opNop_zero (n := 0) rfl ..⟩

/-- A bundle that changes MODE otherwise than by a register it names does not keep to its frame. -/
theorem not_bundleFrame_of_mode {s t : State} {n : Nat} {b : Bundle} {ws : List Nat} (hws : rMODE ∉ ws)
    (hmoves : rMODE ∉ moveWrites s n b) (hmode : (t.core n).val rMODE ≠ (s.core n).val rMODE) : ¬ bundleFrame s t n b ws := by
  rintro ⟨hkeep, -⟩
  exact hmode (congrArg (·.v.toNat) (hkeep rMODE hws hmoves (by decide) (by decide) (by decide)))

/-! ### ACLR and QMAC in the last delay slot -/

theorem aclr_executes : (lastSlot 0x48).executes 0 0x48 bareBundle opAclr := by
  unfold State.executes State.atBundle
  decide +kernel

theorem qmac_executes : (lastSlot 0x40).executes 0 0x40 bareBundle opQmac := by
  unfold State.executes State.atBundle
  decide +kernel

theorem aclr_changes_mode : (((lastSlot 0x48).bundle 0 0x48 bareBundle opAclr).core 0).val rMODE ≠
    ((lastSlot 0x48).core 0).val rMODE := by
  decide +kernel

theorem qmac_changes_mode : (((lastSlot 0x40).bundle 0 0x40 bareBundle opQmac).core 0).val rMODE ≠
    ((lastSlot 0x40).core 0).val rMODE := by
  decide +kernel

end Sys2Proof.Machine

open Sys2Proof Sys2Proof.Machine

/-- Refutes O38: in the last delay slot of a return, a QMAC is the bundle with which SR and MODE are restored (R222, R249), so
MODE does not stay as the frame says. The statement has no premise that no return is in progress. -/
theorem not_accumulationIsExactAndFitted : ¬ Obligations.AccumulationIsExactAndFitted := by
  rintro ⟨hmac, -⟩
  obtain ⟨t, m, hexec, -, -, hframe, -⟩ :=
    hmac (.opQmac, 0x40, opQmac) List.mem_cons_self (lastSlot 0x40) 0 bareBundle qmac_executes
  obtain rfl : (lastSlot 0x40).bundle 0 0x40 bareBundle opQmac = t := Host.Outcome.next.inj hexec
  have hws : rMODE ∉ (macTerms 0x40 (((lastSlot 0x40).bundleStart 0).bundleCtx 0 bareBundle) m).map fun e => 40 + e.1 := by
    show rMODE ∉ [40, 41, 42, 43]
    decide
  have hmoves : rMODE ∉ moveWrites (lastSlot 0x40) 0 bareBundle := by
    rw [moveWrites_bare]
    exact List.not_mem_nil
  exact not_bundleFrame_of_mode hws hmoves qmac_changes_mode hframe

/-- Refutes O39: in the last delay slot of a return, an ACLR is the bundle with which SR and MODE are restored (R222, R249), so
MODE does not stay as the frame says. The statement has no premise that no return is in progress. -/
theorem not_accumulatorsShiftAndExtract : ¬ Obligations.AccumulatorsShiftAndExtract := by
  rintro ⟨⟨haclr, -⟩, -⟩
  obtain ⟨t, hexec, -, hframe, -⟩ := haclr (lastSlot 0x48) 0 bareBundle aclr_executes
  obtain rfl : (lastSlot 0x48).bundle 0 0x48 bareBundle opAclr = t := Host.Outcome.next.inj hexec
  have hmoves : rMODE ∉ moveWrites (lastSlot 0x48) 0 bareBundle := by
    rw [moveWrites_bare]
    exact List.not_mem_nil
  exact not_bundleFrame_of_mode (by decide) hmoves aclr_changes_mode hframe
end

section
/-! PROOF. A double fault whose open task names a pool that the device lacks (R222, R230, R361). -/

namespace Sys2Proof.Machine

/-- The number of a pool whose MEM_POOL_FREE would lie where SC_STATUS of core 0 lies; the device has pools 0 to 7. -/
def strayPool : Nat := 0x3D80

theorem strayPool_free_off : F.MEM_POOL_FREE.FREE.off strayPool 0 = F.SC_STATUS.STATE.off 0 0 := rfl

/-- A task that runs on core 0 and frees its handoff buffer, at address 0, to that pool when it is released (Table DSP-6). -/
def strayTask : Task :=
  { taskOf (.core 0) [] with action := 4, hmode := true, hpool := strayPool, hbuf := 0, phase := .running, core := 0 }

/-- Core 0 as a reset leaves it, with EXL set and no page valid, runs that task; the pool has one buffer. -/
def strayRelease : State :=
  ((((State.reset.wr F.SC_STATUS.STATE 1).wr F.SC_STATUS.TASK 1).wr F.MEM_POOL_CFG.EN 1 strayPool).wr F.MEM_POOL_CFG.COUNT 1
    strayPool).setDsp { tasks := [strayTask] }

theorem strayRelease_excluded : strayRelease.coreReady 0 = true ∧ strayRelease.pageValid 0 = false ∧
    bit ((strayRelease.core 0).val rSR) 13 = true := by
  decide +kernel

theorem strayRelease_state : (strayRelease.bundle 0 0x01 bareBundle opAdd).coreState 0 = 1 := by
  decide +kernel

end Sys2Proof.Machine

open Sys2Proof Sys2Proof.Machine

/-- Refutes O43 in its last clause: a double fault ends the core's open task INCOMPLETE (R230), and the release of a task
writes MEM_POOL_FREE of the pool it names. With pool 15744 that write lands on SC_STATUS of core 0, and STATE reads 1, not 6.
A descriptor names pools 0 to 7 only (Table DSP-1), but the statement ranges over every state and has no premise on its
tasks. -/
theorem not_bundlesRunOrRaise : ¬ Obligations.BundlesRunOrRaise := by
  intro h
  obtain ⟨hready, hinvalid, hexl⟩ := strayRelease_excluded
  obtain ⟨-, -, -, hraises⟩ :=
    h (.opAdd, 0x01, opAdd) (List.mem_append_left _ List.mem_cons_self) strayRelease 0 bareBundle
  obtain ⟨-, hdouble⟩ := hraises xPAGE (.inr (.inl ⟨hready, hinvalid, rfl⟩))
  obtain ⟨t, hexec, hstate⟩ := hdouble hexl
  obtain rfl : strayRelease.bundle 0 0x01 bareBundle opAdd = t := Host.Outcome.next.inj hexec
  exact absurd (hstate.symm.trans strayRelease_state) (by decide)
end

section
/-! PROOF. An answer of a pool that arrives with the end of a return (R222, R231). -/

namespace Sys2Proof.Machine

/-- Core 0 waits for pool 0, which has no buffer, in the last delay slot of a return that restores 0 to SR. -/
def allocInSlot : State := State.reset.setCore 0 { alloc := some 0, br := some (1, 0), back := some (⟨0, false⟩, 0) }

theorem allocInSlot_waits : allocInSlot.alive = true ∧ (allocInSlot.core 0).alloc = some 0 ∧
    (allocInSlot.poolList 0).isEmpty = true := by
  decide +kernel

theorem allocInSlot_clears_zero : ∃ t, exec (.poolAllocResponse 0) allocInSlot = .next t ∧
    bit ((t.core 0).val rSR) 0 = false :=
  ⟨_, rfl, by decide +kernel⟩

end Sys2Proof.Machine

open Sys2Proof Sys2Proof.Machine

/-- Refutes O44 in its clause on POOL_ALLOC_RESPONSE: an empty pool sets Z, and where the bundle of the ALLOC is the last delay
slot of a return, SR is restored after that and Z is lost (R222). No bundle brings a core into that state, ALLOC being illegal
in a delay slot (R252), but the statement ranges over every state and has no premise that no branch is in progress. -/
theorem not_coreEventsAreTaken : ¬ Obligations.CoreEventsAreTaken := by
  rintro ⟨-, -, -, -, hanswer, -⟩
  obtain ⟨halive, halloc, hempty⟩ := allocInSlot_waits
  obtain ⟨t, hexec, -, -, hzero, -⟩ := hanswer allocInSlot 0 0 halive halloc
  obtain ⟨u, hexec', hcleared⟩ := allocInSlot_clears_zero
  obtain rfl : t = u := Host.Outcome.next.inj (hexec.symm.trans hexec')
  exact absurd (hcleared.symm.trans (hzero.trans hempty)) (by decide)
end

section
/-! PROOF. Arithmetic and NOP in the last delay slot of a return: SR and MODE are restored with them (R222, R249). -/

namespace Sys2Proof.Machine

theorem notMem_moveWrites_bare (k : Nat) (s : State) (n : Nat) : k ∉ moveWrites s n bareBundle := by
  rw [moveWrites_bare]
  exact List.not_mem_nil

/-- A bundle without moves that changes MODE does not keep to its frame, unless it names MODE. -/
theorem not_bundleFrame_bare_of_mode {s t : State} {n : Nat} {ws : List Nat} (hws : rMODE ∉ ws)
    (hmode : (t.core n).val rMODE ≠ (s.core n).val rMODE) : ¬ bundleFrame s t n bareBundle ws :=
  not_bundleFrame_of_mode hws (notMem_moveWrites_bare rMODE s n) hmode

/-! ### ADD in the last delay slot -/

theorem add_executes : (lastSlot 0x01).executes 0 0x01 bareBundle opAdd := by
  unfold State.executes State.atBundle
  decide +kernel

theorem add_changes_mode : (((lastSlot 0x01).bundle 0 0x01 bareBundle opAdd).core 0).val rMODE ≠
    ((lastSlot 0x01).core 0).val rMODE := by
  decide +kernel

/-- EXL, which no row of Table ISA-8 writes, is set before the ADD and clear after it. -/
theorem add_changes_exl : bit ((((lastSlot 0x01).bundle 0 0x01 bareBundle opAdd).core 0).val rSR) 13 ≠
    bit ((((lastSlot 0x01).bundleStart 0).core 0).val rSR) 13 := by
  decide +kernel

/-! ### NOP in the last delay slot -/

theorem nop_executes : (lastSlot 0).executes 0 0 bareBundle (opNop 0) := by
  unfold State.executes State.atBundle
  decide +kernel

theorem nop_changes_mode : (((lastSlot 0).bundle 0 0 bareBundle (opNop 0)).core 0).val rMODE ≠
    ((lastSlot 0).core 0).val rMODE := by
  decide +kernel

end Sys2Proof.Machine

open Sys2Proof Sys2Proof.Machine

/-- Refutes O36: in the last delay slot of a return, an ADD is the bundle with which SR and MODE are restored (R222, R249), so
MODE does not stay as the frame says. The statement has no premise that no return is in progress. -/
theorem not_arithmeticWritesItsResult : ¬ Obligations.ArithmeticWritesItsResult := by
  intro h
  obtain ⟨t, o, hexec, -, -, hframe, -⟩ :=
    h _ (List.mem_append_left _ List.mem_cons_self) (lastSlot 0x01) 0 bareBundle add_executes
  obtain rfl : (lastSlot 0x01).bundle 0 0x01 bareBundle opAdd = t := Host.Outcome.next.inj hexec
  exact not_bundleFrame_bare_of_mode (by decide) add_changes_mode hframe

/-- Refutes O37: in the last delay slot of a return, SR as a whole is restored with an ADD (R222, R249), so that its bit EXL
does not stay as it was. The statement excludes a move that loads SR, and not a return in progress. -/
theorem not_flagsFollowTheResult : ¬ Obligations.FlagsFollowTheResult := by
  intro h
  obtain ⟨t, o, hexec, -, -, -, -, -, -, -, hrest⟩ :=
    h _ (List.mem_append_left _ List.mem_cons_self) (lastSlot 0x01) 0 bareBundle add_executes (notMem_moveWrites_bare _ _ _)
  obtain rfl : (lastSlot 0x01).bundle 0 0x01 bareBundle opAdd = t := Host.Outcome.next.inj hexec
  exact add_changes_exl (hrest 13 (by decide))

/-- Refutes O40 in its clause on NOP: in the last delay slot of a return, a NOP is the bundle with which SR and MODE are
restored (R222, R249), so MODE does not stay as the frame says. The statement has no premise that no return is in progress. -/
theorem not_movesReachTheirRegister : ¬ Obligations.MovesReachTheirRegister := by
  rintro ⟨hnop, -⟩
  obtain ⟨t, hexec, hframe, -⟩ := hnop (lastSlot 0) 0 bareBundle nop_executes
  obtain rfl : (lastSlot 0).bundle 0 0 bareBundle (opNop 0) = t :=
    Host.Outcome.next.inj ((exec_opNop_zero (n := 0) rfl ..).symm.trans hexec)
  exact not_bundleFrame_bare_of_mode List.not_mem_nil nop_changes_mode hframe
end

section
/-! PROOF. Submissions to the work dispatcher: the slot, the number and the place that an accepted task takes, and what becomes
of a refused one (R255 to R260, R269). -/

namespace Sys2Proof.Machine

/-! ### What a write of memory leaves alone (R340 to R359) -/

/-- A view of the machine that a memory access leaves alone: it writes registers, the memory system, the fabric's library and
events. -/
structure MemBlind {α : Type} (view : State → α) : Prop where
  reg : ∀ t o v, view (State.wrReg t o v) = view t
  mem : ∀ t x, view (State.setMem t x) = view t
  fab : ∀ t x, view (State.setFab t x) = view t
  event : ∀ (t : State) code sev source pay nme, view (t.event code sev source pay nme) = view t

theorem memBlind_dsp : MemBlind State.dsp :=
  ⟨fun _ _ _ => rfl, fun _ _ => rfl, fun _ _ => rfl, fun _ _ _ _ _ _ => State.units_dsp (State.event_units ..)⟩

namespace MemBlind

variable {α : Type} {view : State → α} (hb : MemBlind view) (s : State)
include hb

theorem sat64 (f : Field) (i n : Nat) : view (s.sat64 f i n) = view s := (hb.reg ..).trans (hb.reg ..)

theorem firstError (b w req : Nat) (ue : Bool) : view (s.firstError b w req ue) = view s := by
  unfold State.firstError
  split
  · rfl
  · exact (hb.reg ..).trans ((hb.reg ..).trans ((hb.reg ..).trans (hb.reg ..)))

theorem hardFault (b w data : Nat) : view (s.hardFault b w data) = view s := by
  unfold State.hardFault
  split
  · exact hb.event ..
  · refine (hb.event ..).trans ((hb.reg ..).trans ((hb.reg ..).trans ((hb.reg ..).trans ((hb.mem ..).trans ?_))))
    split
    · exact (hb.reg ..).trans (hb.reg ..)
    · rfl

theorem trkCount (b w data n : Nat) (l : List TrkEntry) : view (s.trkCount b w data n l) = view s := by
  unfold State.trkCount
  refine (hb.mem ..).trans ?_
  split
  · exact hb.mem ..
  · rfl

theorem track (b w data : Nat) : view (s.track b w data) = view s := by
  unfold State.track
  dsimp only
  split
  · split
    · exact (hb.hardFault ..).trans (hb.mem ..)
    · exact hb.trkCount ..
  · split
    · exact hb.trkCount ..
    · split
      · exact hb.trkCount ..
      · exact hb.reg ..

theorem bankRead (req b w : Nat) : view (s.bankRead req b w).2.2 = view s := by
  unfold State.bankRead
  dsimp only
  split
  · rfl
  · split
    · rfl
    · rfl
    · exact (hb.track ..).trans ((hb.firstError ..).trans (hb.sat64 ..))
    · exact (hb.event ..).trans ((hb.firstError ..).trans (hb.reg ..))

theorem bankStore (req b w k : Nat) (l : List Byte) (poison : Bool) : view (s.bankStore req b w k l poison) = view s := by
  have hwrite (t : State) (data : Nat) (p : Bool) : view (t.bankWrite b w data p) = view t := (hb.mem ..).trans (hb.mem ..)
  unfold State.bankStore
  split
  · exact hwrite ..
  · exact (hwrite ..).trans (hb.bankRead ..)

theorem hbmPut (a : Nat) (l : List Byte) : view (s.hbmPut a l) = view s := by
  induction l generalizing s a with
  | nil => rfl
  | cons b bs ih => exact (ih _ _).trans (hb.mem ..)

theorem vlibDrop (p : VlibEntry → Bool) : view (s.vlibDrop p) = view s := by
  unfold State.vlibDrop
  split
  · exact (hb.reg ..).trans (hb.fab ..)
  · rfl

theorem hbmWrite (a : Nat) (l : List PByte) : view (s.hbmWrite a l) = view s := by
  have hput (p : VlibEntry → Bool) (l : List Byte) : view ((s.hbmPut a l).vlibDrop p) = view s :=
    (hb.vlibDrop ..).trans (hb.hbmPut ..)
  unfold State.hbmWrite
  dsimp only
  split
  · split <;> exact (hb.mem ..).trans (hput ..)
  · split
    · exact (hb.mem ..).trans (hput ..)
    · exact hput ..

theorem writeHere (req a : Nat) (l : List PByte) : view (s.writeHere req a l) = view s := by
  unfold State.writeHere
  split
  · exact hb.bankStore ..
  · exact hb.hbmWrite ..

theorem violation (req a op : Nat) : view (s.violation req a op) = view s := by
  have hraise (t : State) (c : Bool) (x : MemSt) (code sev source pay : Nat) :
      view (if c then t else (t.setMem x).event code sev source pay) = view t := by
    split
    · rfl
    · exact (hb.event ..).trans (hb.mem ..)
  unfold State.violation State.violationOn
  refine (hraise ..).trans ?_
  cases s.target a with
  | part p => exact hb.reg ..
  | bank b => exact hb.reg ..
  | nowhere => rfl

theorem refuse (req a op : Nat) : view (s.refuse req a op) = view s := by
  unfold State.refuse
  split
  · exact hb.reg ..
  · exact hb.violation ..

theorem writeUnit (req a : Nat) (l : List PByte) : view (s.writeUnit req a l).s = view s := by
  unfold State.writeUnit
  split
  · exact hb.mem ..
  · split
    · exact hb.refuse ..
    · split
      · exact hb.mem ..
      · exact hb.writeHere ..

theorem writeGo (fuel req a : Nat) (l : List PByte) : view (State.writeGo fuel s req a l).s = view s := by
  induction fuel generalizing s a l with
  | zero => rfl
  | succ fuel ih =>
    unfold State.writeGo
    split
    · rfl
    · exact (ih ..).trans (hb.writeUnit ..)

theorem put (req a : Nat) (l : List Byte) : view (s.put req a l) = view s := hb.writeGo ..

end MemBlind

/-! ### The free slot (R255) -/

/-- A step of the search for a free number. -/
def passTaken (taken : Nat → Bool) (k : Nat) : Nat := if taken k then k + 1 else k

/-- Where the search stands after n steps from 0. -/
def searchFree (taken : Nat → Bool) (n : Nat) : Nat := (List.range n).foldl (fun k _ => passTaken taken k) 0

theorem searchFree_succ (taken : Nat → Bool) (n : Nat) :
    searchFree taken (n + 1) = passTaken taken (searchFree taken n) := by
  simp only [searchFree, List.range_succ, List.foldl_append, List.foldl_cons, List.foldl_nil]

/-- The search passes taken numbers only, and it stands on a taken one only if it never stopped. -/
theorem searchFree_passes (taken : Nat → Bool) (n : Nat) :
    (∀ j < searchFree taken n, taken j = true) ∧ (taken (searchFree taken n) = true → searchFree taken n = n) := by
  induction n with
  | zero => exact ⟨fun j hj => absurd hj (Nat.not_lt_zero j), fun _ => rfl⟩
  | succ n ih =>
    rw [searchFree_succ]
    generalize searchFree taken n = k at ih
    obtain ⟨hpassed, hstop⟩ := ih
    unfold passTaken
    split
    next hk =>
      refine ⟨fun j hj => ?_, fun _ => congrArg (· + 1) (hstop hk)⟩
      rcases Nat.lt_succ_iff_lt_or_eq.mp hj with hj | rfl
      · exact hpassed j hj
      · exact hk
    next hk => exact ⟨hpassed, fun h => absurd h hk⟩

/-- A list that holds every number below n has n entries or more. -/
theorem le_length_of_lt_mem {n : Nat} {l : List Nat} (h : ∀ j < n, j ∈ l) : n ≤ l.length := by
  induction n generalizing l with
  | zero => exact Nat.zero_le _
  | succ n ih =>
    have hn : n ∈ l := h n (Nat.lt_succ_self n)
    have hrest : n ≤ (l.erase n).length := ih fun j hj =>
      (List.mem_erase_of_ne (Nat.ne_of_lt hj)).mpr (h j (Nat.lt_succ_of_lt hj))
    have hpos := List.length_pos_of_mem hn
    rw [List.length_erase_of_mem hn] at hrest
    omega

/-- Some task is in slot k. -/
def State.slotTaken (s : State) (k : Nat) : Bool := s.dsp.tasks.any fun t => t.slot == k

theorem State.slotTaken_iff (s : State) (k : Nat) : s.slotTaken k = true ↔ k ∈ s.dsp.tasks.map (·.slot) := by
  simp only [State.slotTaken, List.any_eq_true, beq_iff_eq, List.mem_map]

theorem State.freeSlot_eq_searchFree (s : State) : s.freeSlot = searchFree s.slotTaken (s.dsp.tasks.length + 1) := rfl

/-- The free slot is free: one more number was tried than there are tasks. -/
theorem State.freeSlot_free (s : State) : s.slotTaken s.freeSlot = false := by
  obtain ⟨hpassed, hstop⟩ := searchFree_passes s.slotTaken (s.dsp.tasks.length + 1)
  rw [← s.freeSlot_eq_searchFree] at hpassed hstop
  cases h : s.slotTaken s.freeSlot with
  | false => rfl
  | true =>
    rw [hstop h] at hpassed
    have hlen := le_length_of_lt_mem fun j hj => (s.slotTaken_iff j).mp (hpassed j hj)
    rw [List.length_map] at hlen
    omega

theorem State.slot_ne_freeSlot (s : State) {x : Task} (hx : x ∈ s.dsp.tasks) : x.slot ≠ s.freeSlot := fun h =>
  Bool.false_ne_true (s.freeSlot_free.symm.trans ((s.slotTaken_iff _).mpr (h ▸ List.mem_map_of_mem hx)))

theorem State.freeSlot_congr {s t : State} (h : t.dsp = s.dsp) : t.freeSlot = s.freeSlot := by
  unfold State.freeSlot
  rw [h]

/-! ### An accepted task (R256, R257) -/

/-- The task that a descriptor's task becomes when it is accepted: in the free slot, with the next number of its flow. -/
def State.placed (s : State) (k : Task) : Task :=
  { k with slot := s.freeSlot, seq := Sparse.get (fun _ => 0) s.dsp.seq k.flow }

theorem State.placed_congr {s t : State} (h : t.dsp = s.dsp) (k : Task) : t.placed k = s.placed k := by
  rw [State.placed, State.freeSlot_congr h, h, State.placed]

/-- A task with the instant since which it has been ready, if it is (R272). -/
def Task.readySince (k : Task) (r : Option Nat) : Task := { k with readyAt := r }

theorem State.stampReady_eq (s : State) (k : Task) : ∃ r, s.stampReady k = k.readySince r := by
  unfold State.stampReady
  split <;> exact ⟨_, rfl⟩

@[simp] theorem State.stampReady_slot (s : State) (k : Task) : (s.stampReady k).slot = k.slot := by
  obtain ⟨r, h⟩ := s.stampReady_eq k
  rw [h, Task.readySince]

theorem State.refresh_dsp (s : State) : s.refresh.dsp = { s.dsp with tasks := s.dsp.tasks.map s.stampReady } := by
  have hshow (t : State) (p : Nat) : ((t.wr F.DSP_Q_DEPTH.DEPTH (t.readyCount p) p).onlyIf
      (decide (t.rd F.DSP_Q_DEPTH.MAX p < t.readyCount p))
      fun s => s.wr F.DSP_Q_DEPTH.MAX (t.readyCount p) p).dsp = t.dsp :=
    (State.onlyIf_keeps _ _ fun _ => State.wr_dsp ..).trans (State.wr_dsp ..)
  unfold State.refresh
  dsimp only
  rw [State.each_keeps (view := State.dsp) _ _ hshow, State.setDsp_dsp]

theorem State.setTasks_dsp (s : State) (l : List Task) (f : Nat) : (s.setTasks l f).dsp = { s.dsp with tasks := l } := by
  simp only [State.setTasks, State.wr_dsp, State.setDsp_dsp]

section
variable (s : State) (k : Task) (d : List Byte)

/-- An accepted task comes behind every earlier one, and its flow's number goes up by one. -/
theorem State.acceptTask_dsp : ∃ u : State,
    (s.acceptTask k d).2.dsp.tasks = (s.dsp.tasks ++ [s.placed k]).map u.stampReady ∧
    (s.acceptTask k d).2.dsp.seq =
      Sparse.set (fun _ => 0) s.dsp.seq k.flow ((Sparse.get (fun _ => 0) s.dsp.seq k.flow + 1) % 65536) := by
  have hput (req a : Nat) (l : List Byte) : (s.put req a l).dsp = s.dsp := memBlind_dsp.put ..
  unfold State.acceptTask
  dsimp only
  rw [State.refresh_dsp, State.setTasks_dsp, State.setDsp_dsp, hput]
  exact ⟨_, rfl, rfl⟩

theorem State.acceptTask_slots :
    (s.acceptTask k d).2.dsp.tasks.map (·.slot) = s.dsp.tasks.map (·.slot) ++ [s.freeSlot] := by
  obtain ⟨u, htasks, -⟩ := s.acceptTask_dsp k d
  rw [htasks]
  simp only [List.map_map, List.map_append, List.map_cons, List.map_nil, Function.comp_def, State.stampReady_slot,
    State.placed]

theorem State.acceptTask_mem : ∃ r, (s.placed k).readySince r ∈ (s.acceptTask k d).2.dsp.tasks := by
  obtain ⟨u, htasks, -⟩ := s.acceptTask_dsp k d
  obtain ⟨r, hr⟩ := u.stampReady_eq (s.placed k)
  rw [htasks]
  exact ⟨r, hr ▸ List.mem_map_of_mem (List.mem_append_right _ List.mem_cons_self)⟩

theorem State.acceptTask_seq (f : Nat) : Sparse.get (fun _ => 0) (s.acceptTask k d).2.dsp.seq f =
    if f = k.flow then (Sparse.get (fun _ => 0) s.dsp.seq k.flow + 1) % 65536 else Sparse.get (fun _ => 0) s.dsp.seq f := by
  obtain ⟨u, -, hseq⟩ := s.acceptTask_dsp k d
  rw [hseq, Sparse.get_set]

end

/-! ### An offered descriptor (R258, R259) -/

section
variable (s : State) (p : Producer) (d : List Byte)

theorem State.offer_taken (hok : s.descOk (taskOf p d) d = true) (hroom : s.hasRoom (taskOf p d).flow = true) :
    s.offer p d = (.taken (s.acceptTask (taskOf p d) d).1, (s.acceptTask (taskOf p d) d).2) := by
  simp only [State.offer, hok, hroom, Bool.not_true, Bool.false_eq_true, if_false]

theorem State.offer_bad (hok : s.descOk (taskOf p d) d = false) : s.offer p d = (.badDescriptor, s) := by
  simp only [State.offer, hok, Bool.not_false, if_true]

theorem State.offer_full (hok : s.descOk (taskOf p d) d = true) (hroom : s.hasRoom (taskOf p d).flow = false) :
    s.offer p d = (.noRoom, s) := by
  simp only [State.offer, hok, hroom, Bool.not_true, Bool.not_false, Bool.false_eq_true, if_false, if_true]

/-- A refused descriptor leaves the machine as it is; the producer decides what follows. -/
theorem State.offer_refused (h : s.descOk (taskOf p d) d = false ∨ s.hasRoom (taskOf p d).flow = false) :
    s.offer p d = (.badDescriptor, s) ∨ s.offer p d = (.noRoom, s) := by
  cases hok : s.descOk (taskOf p d) d with
  | false => exact .inl (s.offer_bad p d hok)
  | true => exact .inr (s.offer_full p d hok (h.resolve_left (ne_false_of_eq_true hok)))

end

/-! ### DSP_SUBMIT (R259, R269) -/

section
variable {s : State} {ref : CmdRef} (ht : s.takes ref 0x0701) (desc : List Byte)
include ht

theorem exec_dspSubmit_taken
    (hok : (s.accept ref 0x0701).descOk (taskOf (.host ref) (padTo 64 desc)) (padTo 64 desc) = true)
    (hroom : (s.accept ref 0x0701).hasRoom (taskOf (.host ref) (padTo 64 desc)).flow = true) :
    exec (.dspSubmit ref desc) s =
      .next (((s.accept ref 0x0701).acceptTask (taskOf (.host ref) (padTo 64 desc)) (padTo 64 desc)).2.pastPoint ref) := by
  simp only [exec, execDspSubmit, State.command_run _ _ _ _ ht, State.offer_taken _ _ _ hok hroom]

theorem exec_dspSubmit_bad
    (hok : (s.accept ref 0x0701).descOk (taskOf (.host ref) (padTo 64 desc)) (padTo 64 desc) = false) :
    exec (.dspSubmit ref desc) s = .next ((s.accept ref 0x0701).complete ref stRange) := by
  simp only [exec, execDspSubmit, State.command_run _ _ _ _ ht, State.offer_bad _ _ _ hok]

theorem exec_dspSubmit_full
    (hok : (s.accept ref 0x0701).descOk (taskOf (.host ref) (padTo 64 desc)) (padTo 64 desc) = true)
    (hroom : (s.accept ref 0x0701).hasRoom (taskOf (.host ref) (padTo 64 desc)).flow = false) :
    exec (.dspSubmit ref desc) s = .next ((s.accept ref 0x0701).complete ref stBusy) := by
  simp only [exec, execDspSubmit, State.command_run _ _ _ _ ht, State.offer_full _ _ _ hok hroom]

end

/-- What an accepted command of a host leaves in the dispatcher. -/
theorem dspSubmit_takes_slot (s : State) (ref : CmdRef) (k : Task) (d : List Byte) :
    let t := ((s.accept ref 0x0701).acceptTask k d).2.pastPoint ref
    (∃ r, (s.placed k).readySince r ∈ t.dsp.tasks) ∧
      t.dsp.tasks.map (·.slot) = s.dsp.tasks.map (·.slot) ++ [s.freeSlot] ∧
      ∀ f, Sparse.get (fun _ => 0) t.dsp.seq f = if f = k.flow then
        (Sparse.get (fun _ => 0) s.dsp.seq k.flow + 1) % 65536 else Sparse.get (fun _ => 0) s.dsp.seq f := by
  have hu : (s.accept ref 0x0701).dsp = s.dsp := State.units_dsp (State.accept_units ..)
  have hp (t : State) : (t.pastPoint ref).dsp = t.dsp := State.units_dsp (State.pastPoint_units ..)
  dsimp only
  rw [hp, ← State.placed_congr hu, ← State.freeSlot_congr hu, ← hu]
  exact ⟨State.acceptTask_mem .., State.acceptTask_slots .., State.acceptTask_seq _ k d⟩

/-! ### SUBMISSION_WINDOW_WRITE (R260) -/

section
variable (s : State) (n : Nat) (d : List Byte)

theorem State.coreSubmit_taken (hok : s.descOk (taskOf (.core n) d) d = true)
    (hroom : s.hasRoom (taskOf (.core n) d).flow = true) :
    s.coreSubmit n d false = (true, (s.acceptTask (taskOf (.core n) d) d).2) := by
  simp only [State.coreSubmit, State.offer_taken _ _ _ hok hroom, Bool.false_eq_true, if_false]

theorem State.coreSubmit_refused (h : s.descOk (taskOf (.core n) d) d = false ∨ s.hasRoom (taskOf (.core n) d).flow = false) :
    s.coreSubmit n d false = (false, s.submitRefused n) := by
  unfold State.coreSubmit
  rcases s.offer_refused _ _ h with ho | ho <;> rw [ho] <;> rfl

end

/-! The next 64 bytes of a transfer into the window, without poison, are offered as the core's submission. -/

section
variable {s t u : State} {core : BitVec 6} {x : Xfer} {d : List PByte}
  (hw : s.windowTake core.toNat 0xFFFF0000 (2 ^ 32) 64 = some (x, d, u)) (hd : poisoned d = false)
include hw hd

theorem exec_submissionWindowWrite_taken (h : u.coreSubmit core.toNat (plain d) false = (true, t)) :
    exec (.submissionWindowWrite core) s = .next t := by
  simp only [exec, execSubmissionWindowWrite, hw, hd, State.onlyIf_false, h, if_true]

theorem exec_submissionWindowWrite_refused (h : u.coreSubmit core.toNat (plain d) false = (false, t)) :
    exec (.submissionWindowWrite core) s = .next (t.xferError core.toNat) := by
  simp only [exec, execSubmissionWindowWrite, hw, hd, State.onlyIf_false, h, Bool.false_eq_true, if_false]

end

/-! ### ELA_DOORBELL (R172, R259) -/

/-- A rising edge of hub output n is taken: it is no longer pending. -/
def State.riseTaken (s : State) (n : Nat) : State :=
  s.setEla { s.ela with hubRise := s.ela.hubRise &&& ~~~(BitVec.ofNat 32 (2 ^ n)) }

theorem State.takeRise_none (s : State) {n : Nat} (f : State → State) (h : s.ela.hubRise.getLsbD n = false) :
    s.takeRise n f = s := by
  rw [State.takeRise, h, State.onlyIf_false]

theorem State.takeRise_run (s : State) {n : Nat} (f : State → State) (h : s.ela.hubRise.getLsbD n = true) :
    s.takeRise n f = f (s.riseTaken n) := by
  rw [State.takeRise, h, State.onlyIf_true, State.riseTaken]

section
variable (s : State) (i : Nat) (fill : List Byte → List Byte)

theorem State.produce_disabled (h : s.rdb F.DSP_PROD.EN i = false) : s.produce i fill = s := by
  simp only [State.produce, h, Bool.not_false, if_true]

/-- The template of entry i, as the dispatcher reads it. -/
def State.template (s : State) (i : Nat) : List Byte × Bool × State := s.fetchDesc (s.rd F.DSP_PROD.TEMPLATE i * 4)

section
variable (hen : s.rdb F.DSP_PROD.EN i = true) (hclean : (s.template i).2.1 = false)
include hen hclean

theorem State.produce_taken
    (hok : (s.template i).2.2.descOk (taskOf (.entry i) (fill (s.template i).1)) (fill (s.template i).1) = true)
    (hroom : (s.template i).2.2.hasRoom (taskOf (.entry i) (fill (s.template i).1)).flow = true) :
    s.produce i fill =
      ((s.template i).2.2.acceptTask (taskOf (.entry i) (fill (s.template i).1)) (fill (s.template i).1)).2 := by
  unfold State.template at *
  simp only [State.produce, hen, hclean, State.offer_taken _ _ _ hok hroom, Bool.not_true, Bool.false_eq_true, if_false]

theorem State.produce_refused
    (h : (s.template i).2.2.descOk (taskOf (.entry i) (fill (s.template i).1)) (fill (s.template i).1) = false ∨
      (s.template i).2.2.hasRoom (taskOf (.entry i) (fill (s.template i).1)).flow = false) :
    s.produce i fill = (s.template i).2.2.producerDrop i := by
  unfold State.template at *
  simp only [State.produce, hen, hclean, Bool.not_true, Bool.false_eq_true, if_false]
  rcases State.offer_refused _ _ _ h with ho | ho <;> rw [ho]

end

end

theorem exec_elaDoorbell_none {s : State} {d : BitVec 4} (ha : s.alive = true)
    (hr : s.ela.hubRise.getLsbD (16 + d.toNat) = false) : exec (.elaDoorbell d) s = .next s := by
  simp only [exec, execElaDoorbell, State.live_run _ _ ha, State.takeRise_none _ _ hr]

/-- A rising edge is an occurrence of the doorbell's producer entry, whose template is submitted as it stands. -/
theorem exec_elaDoorbell_rise {s : State} {d : BitVec 4} (ha : s.alive = true)
    (hr : s.ela.hubRise.getLsbD (16 + d.toNat) = true) :
    exec (.elaDoorbell d) s = .next ((s.riseTaken (16 + d.toNat)).produce (336 + d.toNat) id) := by
  simp only [exec, execElaDoorbell, State.live_run _ _ ha, State.takeRise_run _ _ hr]

end Sys2Proof.Machine

open Sys2Proof Sys2Proof.Machine

/-- Settles O45: every producer's descriptor goes through one offer, and acceptance tries one more slot than there are tasks, so
that the one it takes is free. That it is the lowest free one is the model's choice, where R255 gives a slot. -/
theorem submissionsAreAccepted : Obligations.SubmissionsAreAccepted := by
  refine ⟨fun s ref desc ht => ⟨fun hok hroom => ?_, exec_dspSubmit_bad ht desc, exec_dspSubmit_full ht desc⟩,
    fun s u core x d hw hd => ⟨fun hok hroom => ?_, fun h => ?_⟩,
    fun s d ha => ⟨exec_elaDoorbell_none ha, fun hr hen => ?_, fun hr hen hclean => ⟨fun hok hroom => ?_, fun h => ?_⟩⟩⟩
  · obtain ⟨⟨r, hmem⟩, hslots, hseq⟩ := dspSubmit_takes_slot s ref (taskOf (.host ref) (padTo 64 desc)) (padTo 64 desc)
    exact ⟨_, exec_dspSubmit_taken ht desc hok hroom, ⟨_, hmem, rfl, rfl, rfl, rfl, rfl, rfl, rfl⟩, hslots,
      fun x => s.slot_ne_freeSlot, (hseq _).trans (if_pos rfl), fun f hf => (hseq f).trans (if_neg hf)⟩
  · exact exec_submissionWindowWrite_taken hw hd (u.coreSubmit_taken _ _ hok hroom)
  · exact exec_submissionWindowWrite_refused hw hd (u.coreSubmit_refused _ _ h)
  · exact (exec_elaDoorbell_rise ha hr).trans (congrArg _ (State.produce_disabled _ _ id hen))
  · exact (exec_elaDoorbell_rise ha hr).trans (congrArg _ (State.produce_taken _ _ id hen hclean hok hroom))
  · exact (exec_elaDoorbell_rise ha hr).trans (congrArg _ (State.produce_refused _ _ id hen hclean h))
end

section
/-! PROOF. What commands, transfers and memory accesses leave of the radio engine, and its queues (R288, R298, R351). -/

namespace Sys2Proof.Machine

/-! ### What a read of memory leaves alone (R340 to R359) -/

namespace MemBlind

variable {α : Type} {view : State → α} (hb : MemBlind view) (s : State)
include hb

theorem hbmRead (a n : Nat) : view (s.hbmRead a n).2 = view s := by
  unfold State.hbmRead
  dsimp only
  split
  · exact (hb.event ..).trans (hb.reg ..)
  · rfl

theorem readHere (req a n : Nat) : view (s.readHere req a n).s = view s := by
  unfold State.readHere
  split
  · exact hb.bankRead ..
  · exact hb.hbmRead _ a n

theorem readUnit (req a n : Nat) : view (s.readUnit req a n).s = view s := by
  unfold State.readUnit
  split
  · exact hb.reg ..
  · split
    · exact hb.refuse ..
    · split
      · rfl
      · exact hb.readHere ..

theorem readGo (fuel req a n : Nat) : view (State.readGo fuel s req a n).s = view s := by
  induction fuel generalizing s a n with
  | zero => rfl
  | succ fuel ih =>
    unfold State.readGo
    split
    · rfl
    · exact (ih ..).trans (hb.readUnit ..)

theorem memRead (req a n : Nat) : view (s.memRead req a n).s = view s := hb.readGo ..

theorem memWrite (req a : Nat) (l : List PByte) : view (s.memWrite req a l).s = view s := hb.writeGo ..

theorem poisonConsumed (req a consumer : Nat) : view (s.poisonConsumed req a consumer) = view s := hb.event ..

theorem fetchDesc (far : Nat) : view (s.fetchDesc far).2.2 = view s :=
  (State.onlyIf_keeps _ _ fun t => hb.poisonConsumed t ..).trans (hb.memRead ..)

/-! ### What an offered descriptor leaves alone (R258 to R260) -/

section
variable (hdsp : ∀ t x, view (State.setDsp t x) = view t)
include hdsp

theorem refresh : view s.refresh = view s := by
  unfold State.refresh
  exact (State.each_keeps _ _ fun t p => (State.onlyIf_keeps _ _ fun _ => hb.reg ..).trans (hb.reg ..)).trans (hdsp ..)

theorem setTasks (l : List Task) (flow : Nat) : view (s.setTasks l flow) = view s :=
  (hb.reg ..).trans ((hb.reg ..).trans (hdsp ..))

theorem acceptTask (k : Task) (d : List Byte) : view (s.acceptTask k d).2 = view s := by
  unfold State.acceptTask
  dsimp only
  rw [hb.refresh _ hdsp, hb.setTasks _ hdsp, hdsp, hb.put]

theorem coreSubmit (n : Nat) (d : List Byte) (poison : Bool) : view (s.coreSubmit n d poison).2 = view s := by
  have hrefused (t : State) : view (t.submitRefused n) = view t := hb.event ..
  cases poison with
  | true => exact hrefused s
  | false =>
    cases hok : s.descOk (taskOf (.core n) d) d with
    | false => rw [s.coreSubmit_refused n d (.inl hok), hrefused]
    | true =>
      cases hroom : s.hasRoom (taskOf (.core n) d).flow with
      | false => rw [s.coreSubmit_refused n d (.inr hroom), hrefused]
      | true => rw [s.coreSubmit_taken n d hok hroom, hb.acceptTask _ hdsp]

end

end MemBlind

theorem memBlind_rad : MemBlind State.rad :=
  ⟨fun _ _ _ => rfl, fun _ _ => rfl, fun _ _ => rfl, fun _ _ _ _ _ _ => State.units_rad (State.event_units ..)⟩

/-! ### What a command finds when it is accepted -/

section
variable (s : State) (ref : CmdRef) (op : Nat)

theorem State.accept_rad : (s.accept ref op).rad = s.rad := State.units_rad (s.accept_units ..)

theorem State.accept_mem : (s.accept ref op).mem = s.mem := State.units_mem (s.accept_units ..)

theorem State.accept_events : (s.accept ref op).events = s.events := hostBlind_events.accept ..

theorem State.accept_hostMem : (s.accept ref op).hostMem = s.hostMem := by
  unfold State.accept
  split
  · rfl
  · rw [State.inc, State.wr_hostMem, State.setRing_hostMem, State.setHost_hostMem]

/-- Of the registers, acceptance writes OUTSTANDING of the command's ring only. -/
theorem State.accept_rd_other {f : Field} {i j : Nat} (h : f.off i j ≠ F.HST_RING_STAT.OUTSTANDING.off ref.ring.toNat 0) :
    (s.accept ref op).rd f i j = s.rd f i j := by
  unfold State.accept
  split
  · rfl
  · rw [State.inc, State.rd_wr_other _ _ _ _ _ _ _ _ h]
    rfl

theorem State.accept_portUp (p : Nat) : (s.accept ref op).portUp p = s.portUp p := by
  have hne : F.HST_STATUS.PORT_UP.off 0 0 ≠ F.HST_RING_STAT.OUTSTANDING.off ref.ring.toNat 0 := by
    simp only [Field.off, F.HST_STATUS.PORT_UP, F.HST_RING_STAT.OUTSTANDING]
    omega
  rw [State.portUp, s.accept_rd_other ref op hne, State.portUp]

theorem State.accept_cmdPort : (s.accept ref op).cmdPort ref = s.cmdPort ref := by
  have hne : F.HST_RING_CFG.PORT.off ref.ring.toNat 0 ≠ F.HST_RING_STAT.OUTSTANDING.off ref.ring.toNat 0 := by
    simp only [Field.off, F.HST_RING_CFG.PORT, F.HST_RING_STAT.OUTSTANDING]
    omega
  exact s.accept_rd_other ref op hne

theorem State.hostRead_congr {s t : State} (h : t.hostMem = s.hostMem) (p a n : Nat) : t.hostRead p a n = s.hostRead p a n := by
  rw [State.hostRead, h, State.hostRead]

end

/-! ### What a transfer into a window has been taken from (R208, R260) -/

/-- Taking a descriptor from a transfer changes the core that makes it, and nothing else. -/
theorem State.windowTake_core {s u : State} {n lo hi size : Nat} {x : Xfer} {d : List PByte}
    (h : s.windowTake n lo hi size = some (x, d, u)) : ∃ c, u = s.setCore n c := by
  unfold State.windowTake at h
  split at h
  · split at h
    · obtain ⟨-, -, rfl⟩ := Option.some.inj h
      exact ⟨_, rfl⟩
    · cases h
  · cases h

section
variable {s u : State} {n lo hi size : Nat} {x : Xfer} {d : List PByte} (h : s.windowTake n lo hi size = some (x, d, u))
include h

theorem State.windowTake_rad : u.rad = s.rad := by obtain ⟨c, rfl⟩ := State.windowTake_core h; exact s.setCore_rad n c
theorem State.windowTake_mem : u.mem = s.mem := by obtain ⟨c, rfl⟩ := State.windowTake_core h; exact s.setCore_mem n c
theorem State.windowTake_host : u.host = s.host := by obtain ⟨c, rfl⟩ := State.windowTake_core h; exact s.setCore_host n c
theorem State.windowTake_events : u.events = s.events := by
  obtain ⟨c, rfl⟩ := State.windowTake_core h
  exact s.setCore_events n c

end

end Sys2Proof.Machine
end

section
/-! PROOF. Cell timing: slot boundaries and slot timers (R285, R286). -/

namespace Sys2Proof.Machine

/-! ### Slot boundaries (R285) -/

/-- Domain d passes boundary n: the frame and the slot that begin there show. -/
def State.passBoundary (s : State) (d n : Nat) : State :=
  ((s.setRad { s.rad with doms := Sparse.insert s.rad.doms d n }).wr F.RAD_DOM_NOW.FRAME (n / s.domSlots d) d).wr
    F.RAD_DOM_NOW.SLOT (n % s.domSlots d) d

section
variable (s : State) (d n : Nat)

theorem State.passBoundary_frame : (s.passBoundary d n).rd F.RAD_DOM_NOW.FRAME d = n / s.domSlots d % 2 ^ 10 := by
  rw [State.passBoundary, State.rd_wr_field _ _ _ _ _ _ _ _ ⟨by decide, by decide⟩ (by decide)]
  exact State.rd_wr_same _ _ _ _ _ ⟨by decide, by decide⟩

theorem State.passBoundary_slot : (s.passBoundary d n).rd F.RAD_DOM_NOW.SLOT d = n % s.domSlots d % 2 ^ 16 :=
  State.rd_wr_same _ _ _ _ _ ⟨by decide, by decide⟩

theorem State.passBoundary_rad : (s.passBoundary d n).rad = { s.rad with doms := Sparse.insert s.rad.doms d n } := by
  rw [State.passBoundary, State.wr_rad, State.wr_rad, State.setRad_rad]

theorem State.passBoundary_doms (e : Nat) :
    Sparse.find (s.passBoundary d n).rad.doms e = if e = d then some n else Sparse.find s.rad.doms e := by
  rw [State.passBoundary_rad, Sparse.find_insert]

theorem State.passBoundary_mem : (s.passBoundary d n).mem = s.mem := by
  rw [State.passBoundary, State.wr_mem, State.wr_mem, State.setRad_mem]

theorem State.passBoundary_events : (s.passBoundary d n).events = s.events := by
  rw [State.passBoundary, State.wr_events, State.wr_events, State.setRad_events]

theorem State.passBoundary_host : (s.passBoundary d n).host = s.host := by
  rw [State.passBoundary, State.wr_host, State.wr_host, State.setRad_host]

end

section
variable {s : State} {domain : BitVec 4} {n : Nat} (ha : s.alive = true)
  (hn : (s.now - s.boundary domain.toNat 0) / s.domPeriod domain.toNat = n)
include ha hn

theorem exec_domainSlotBoundary_due (hen : s.rdb F.RAD_DOM_CFG.EN domain.toNat = true)
    (hdue : s.boundary domain.toNat 0 ≤ s.now) (hnew : ∀ k, Sparse.find s.rad.doms domain.toNat = some k → k < n)
    (hafter : Sparse.get (fun _ => 0) s.rad.domAt domain.toNat < s.boundary domain.toNat n) :
    exec (.domainSlotBoundary domain) s = .next (s.passBoundary domain.toNat n) := by
  simp only [exec, execDomainSlotBoundary, s.live_run _ ha, hn, hen, decide_eq_true hdue, decide_eq_true hafter,
    Bool.and_true, Bool.true_and]
  cases hlast : Sparse.find s.rad.doms domain.toNat with
  | none => rfl
  | some k =>
    simp only [decide_eq_true (hnew k hlast)]
    rfl

theorem exec_domainSlotBoundary_none (h : s.rdb F.RAD_DOM_CFG.EN domain.toNat = false ∨
      s.now < s.boundary domain.toNat 0 ∨ Sparse.find s.rad.doms domain.toNat = some n) :
    exec (.domainSlotBoundary domain) s = .next s := by
  simp only [exec, execDomainSlotBoundary, s.live_run _ ha, hn]
  rcases h with hen | hearly | hpassed
  · simp only [hen, Bool.false_and, State.onlyIf_false]
  · simp only [decide_eq_false (Nat.not_le.mpr hearly), Bool.and_false, Bool.false_and, State.onlyIf_false]
  · simp only [hpassed, decide_eq_false (Nat.lt_irrefl n), Bool.and_false, Bool.false_and, State.onlyIf_false]

end

/-! ### The boundary for which a timer fires next (R286) -/

/-- The search passes entries of the list only, and stops at the first number that is none, if its steps last that far. -/
theorem firstFree_stops (step : Nat) (l : List Nat) (fuel n : Nat) : ∃ i, firstFree step l fuel n = n + i * step ∧
    (∀ j < i, n + j * step ∈ l) ∧ (n + i * step ∈ l → i = fuel) := by
  induction fuel generalizing n with
  | zero => exact ⟨0, by simp [firstFree], fun j hj => absurd hj (Nat.not_lt_zero j), fun _ => rfl⟩
  | succ fuel ih =>
    by_cases h : n ∈ l
    · obtain ⟨i, hi, hpassed, hstop⟩ := ih (n + step)
      have hshift (j : Nat) : n + (j + 1) * step = n + step + j * step := by rw [Nat.succ_mul]; omega
      refine ⟨i + 1, ?_, fun j hj => ?_, fun hm => congrArg (· + 1) (hstop (hshift i ▸ hm))⟩
      · rw [firstFree, if_pos (List.contains_iff_mem.mpr h), hi, hshift]
      · cases j with
        | zero => simpa using h
        | succ j => exact hshift j ▸ hpassed j (Nat.lt_of_succ_lt_succ hj)
    · refine ⟨0, ?_, fun j hj => absurd hj (Nat.not_lt_zero j), fun hm => absurd (by simpa using hm) h⟩
      rw [firstFree, if_neg (mt List.contains_iff_mem.mp h), Nat.zero_mul, Nat.add_zero]

/-- A list cannot hold more terms of a rising sequence than it has entries. -/
theorem exists_step_not_mem {step : Nat} (hstep : 0 < step) (l : List Nat) (n : Nat) :
    ∃ j, j ≤ l.length ∧ n + j * step ∉ l := by
  refine Decidable.byContradiction fun hnone => ?_
  have hindex (j : Nat) (hj : j < l.length + 1) : j ∈ l.map fun x => (x - n) / step := by
    have hmem : n + j * step ∈ l := Decidable.byContradiction fun h => hnone ⟨j, Nat.lt_succ_iff.mp hj, h⟩
    refine List.mem_map.mpr ⟨_, hmem, ?_⟩
    rw [Nat.add_sub_cancel_left, Nat.mul_div_cancel _ hstep]
  have hlen := le_length_of_lt_mem hindex
  rw [List.length_map] at hlen
  omega

theorem firstFree_not_mem {step : Nat} (hstep : 0 < step) (l : List Nat) (n : Nat) :
    firstFree step l l.length n ∉ l := by
  obtain ⟨i, hi, hpassed, hstop⟩ := firstFree_stops step l l.length n
  obtain ⟨j, hj, hfree⟩ := exists_step_not_mem hstep l n
  rw [hi]
  intro hm
  obtain rfl := hstop hm
  rcases Nat.lt_or_eq_of_le hj with hlt | rfl
  · exact hfree (hpassed j hlt)
  · exact hfree hm

theorem firstFree_mod (step : Nat) (l : List Nat) (fuel n : Nat) : firstFree step l fuel n % step = n % step := by
  obtain ⟨i, hi, -⟩ := firstFree_stops step l fuel n
  rw [hi, Nat.add_mul_mod_self_right]

/-- The first number from `low` on that is congruent to `phase`. -/
theorem roundUp_mod {every phase : Nat} (h : phase < every) (low : Nat) :
    (low + (phase + every - low % every) % every) % every = phase := by
  have hlow : low % every < every := Nat.mod_lt _ (by omega)
  calc (low + (phase + every - low % every) % every) % every
    _ = (low % every + (phase + every - low % every)) % every := by rw [Nat.add_mod_mod, ← Nat.mod_add_mod]
    _ = (phase + every) % every := by congr 1; omega
    _ = phase := by rw [Nat.add_mod_right, Nat.mod_eq_of_lt h]

/-- The boundary from `low` on that the search finds for a timer of EVERY, PHASE and boundaries fired for. -/
def dueBoundary (every phase : Nat) (fired : List Nat) (low : Nat) : Nat :=
  firstFree every fired fired.length (low + (phase + every - low % every) % every)

theorem dueBoundary_new {every phase : Nat} (h : phase < every) (fired : List Nat) (low : Nat) :
    dueBoundary every phase fired low % every = phase ∧ dueBoundary every phase fired low ∉ fired :=
  ⟨(firstFree_mod ..).trans (roundUp_mod h low), firstFree_not_mem (Nat.zero_lt_of_lt h) _ _⟩

section
variable {s : State} {k : Nat} {f : Nat × Int}

theorem State.timerIn_some {x : DomSpan} (h : s.timerIn k x = some f) :
    s.rd F.RAD_TMR_CFG.PHASE k < s.rd F.RAD_TMR_CFG.EVERY k ∧
      ∃ low, f.1 = dueBoundary (s.rd F.RAD_TMR_CFG.EVERY k) (s.rd F.RAD_TMR_CFG.PHASE k) (s.tmrFired k) low := by
  unfold State.timerIn at h
  dsimp only at h
  split at h
  · cases h
  next hphase =>
    refine ⟨Nat.not_le.mp hphase, ?_⟩
    split at h
    · split at h
      · cases h
      · exact ⟨_, (congrArg Prod.fst (Option.some.inj h)).symm⟩
    · exact ⟨_, (congrArg Prod.fst (Option.some.inj h)).symm⟩

/-- The boundary for which a timer fires next is the one of some setting of its domain. -/
theorem State.timerNext_some (h : s.timerNext k = some f) : ∃ x, s.timerIn k x = some f := by
  unfold State.timerNext at h
  refine List.foldlRecOn (motive := fun best => ∀ f, best = some f → ∃ x, s.timerIn k x = some f) _ _
    (fun f hf => ?_) (fun best hbest x _ f hf => ?_) f h
  · cases hf
  · split at hf
    next => exact hbest f hf
    next hx => exact ⟨x, hx.trans hf⟩
    next hx =>
      split at hf
      · exact ⟨x, hx.trans hf⟩
      · exact hbest f hf

/-- That boundary is congruent to PHASE, and the timer has not fired for it. -/
theorem State.timerNext_new (h : s.timerNext k = some f) :
    f.1 % s.rd F.RAD_TMR_CFG.EVERY k = s.rd F.RAD_TMR_CFG.PHASE k ∧ f.1 ∉ s.tmrFired k := by
  obtain ⟨x, hx⟩ := State.timerNext_some h
  obtain ⟨hphase, low, hlow⟩ := State.timerIn_some hx
  exact hlow ▸ dueBoundary_new hphase _ low

end

/-! ### Firing (R286, R259) -/

/-- A timer has fired for boundary n of its domain. -/
def State.timerFired (s : State) (k n : Nat) : State :=
  (s.setRad { s.rad with tmrs := Sparse.insert s.rad.tmrs (k * 16 + s.rd F.RAD_TMR_CFG.DOMAIN k) (n :: s.tmrFired k) }).inc
    F.RAD_TMR_FIRES.COUNT k

/-- A template with an instant added to its DEADLINE. -/
def deadlineFrom (t : Nat) : List Byte → List Byte := fun d =>
  slice d 0 24 ++ leBytes 8 ((fieldAt d 24 8 + t) % 2 ^ 64) ++ slice d 32 32

theorem State.timerFired_count (s : State) (k n : Nat) :
    (s.timerFired k n).rd F.RAD_TMR_FIRES.COUNT k = (s.rd F.RAD_TMR_FIRES.COUNT k + 1) % 2 ^ 32 :=
  State.rd_wr_same _ _ _ _ _ ⟨by decide, by decide⟩

theorem State.timerFired_prod (s : State) (timer : BitVec 6) (n : Nat) :
    (s.timerFired timer.toNat n).rdb F.DSP_PROD.EN timer.toNat = s.rdb F.DSP_PROD.EN timer.toNat := by
  have hlt := timer.isLt
  have hne : F.DSP_PROD.EN.off timer.toNat 0 ≠ F.RAD_TMR_FIRES.COUNT.off timer.toNat 0 := by
    simp only [Field.off, F.DSP_PROD.EN, F.RAD_TMR_FIRES.COUNT]
    omega
  rw [State.rdb, State.timerFired, State.inc, State.rd_wr_other _ _ _ _ _ _ _ _ hne]
  rfl

section
variable {s : State} {timer : BitVec 6} (ha : s.alive = true)
include ha

theorem exec_slotTimerFire_none (h : s.timerNext timer.toNat = none) : exec (.slotTimerFire timer) s = .next s := by
  simp only [exec, execSlotTimerFire, s.live_run _ ha, h]

variable {f : Nat × Int} (hf : s.timerNext timer.toNat = some f)
include hf

theorem exec_slotTimerFire_notDue (h : s.rdb F.RAD_TMR_CFG.EN timer.toNat = false ∨ (s.now : Int) < f.2) :
    exec (.slotTimerFire timer) s = .next s := by
  simp only [exec, execSlotTimerFire, s.live_run _ ha, hf]
  rcases h with hen | hearly
  · rw [hen, Bool.false_and, State.onlyIf_false]
  · rw [decide_eq_false (Int.not_le.mpr hearly), Bool.and_false, State.onlyIf_false]

theorem exec_slotTimerFire_due (hen : s.rdb F.RAD_TMR_CFG.EN timer.toNat = true) (hdue : f.2 ≤ (s.now : Int)) :
    exec (.slotTimerFire timer) s =
      .next ((s.timerFired timer.toNat f.1).produce timer.toNat (deadlineFrom f.2.toNat)) := by
  simp only [exec, execSlotTimerFire, s.live_run _ ha, hf, hen, decide_eq_true hdue, Bool.and_self, State.onlyIf_true,
    State.timerFired]
  rfl

end

end Sys2Proof.Machine

open Sys2Proof Sys2Proof.Machine

/-- Settles O48: the search for a boundary that a timer has not fired for tries more boundaries than there are fired ones, and
all it tries are congruent to PHASE. -/
theorem boundariesAndTimersFire : Obligations.BoundariesAndTimersFire := by
  refine ⟨fun s domain ha => ⟨fun hen hdue hnew hafter => ?_, exec_domainSlotBoundary_none ha rfl⟩,
    fun s timer ha => ⟨exec_slotTimerFire_none ha, fun f hf => ?_, fun f hf hen hdue => ?_⟩⟩
  · refine ⟨_, exec_domainSlotBoundary_due ha rfl hen hdue hnew hafter, State.passBoundary_frame ..,
      State.passBoundary_slot .., ?_, fun e he => ?_, ?_, State.passBoundary_mem .., State.passBoundary_events ..,
      State.passBoundary_host ..⟩
    · rw [State.passBoundary_doms, if_pos rfl]
    · rw [State.passBoundary_doms, if_neg he]
    · rw [State.passBoundary_rad]
  · obtain ⟨hphase, hfresh⟩ := State.timerNext_new hf
    exact ⟨hphase, hfresh, exec_slotTimerFire_notDue ha hf⟩
  · have hfire := exec_slotTimerFire_due ha hf hen hdue
    have hprod := s.timerFired_prod timer f.1
    exact ⟨s.timerFired_count .., fun hoff => hfire.trans (congrArg _ (State.produce_disabled _ _ _ (hprod.trans hoff))),
      fun hon hclean hok hroom =>
        hfire.trans (congrArg _
          (State.produce_taken _ _ (deadlineFrom f.2.toNat) (hprod.trans hon) hclean hok hroom))⟩
end

section
/-! PROOF. Transmitters: their queues, the packets they build, and the sample groups of a slot (R283, R298). -/

namespace Sys2Proof.Machine

/-! ### The queue of a transmitter (R298) -/

section
variable (s : State) (k : Nat) (l : List Job) (j : Job)

theorem State.txQueue_congr {s t : State} (h : t.rad = s.rad) (k : Nat) : t.txQueue k = s.txQueue k := by
  rw [State.txQueue, h, State.txQueue]

theorem State.setTxQueue_rad :
    (s.setTxQueue k l).rad = { s.rad with txq := Sparse.set (fun _ => []) s.rad.txq k l } := by
  rw [State.setTxQueue, State.wr_rad, State.setRad_rad]

theorem State.txQueue_setTxQueue (i : Nat) : (s.setTxQueue k l).txQueue i = if i = k then l else s.txQueue i := by
  rw [State.txQueue, State.setTxQueue_rad]
  exact Sparse.get_set ..

theorem State.setTxQueue_mem : (s.setTxQueue k l).mem = s.mem := by rw [State.setTxQueue, State.wr_mem, State.setRad_mem]

theorem State.setTxQueue_cores : (s.setTxQueue k l).cores = s.cores := by
  rw [State.setTxQueue, State.wr_cores, State.setRad_cores]

theorem State.setTxQueue_host : (s.setTxQueue k l).host = s.host := by
  rw [State.setTxQueue, State.wr_host, State.setRad_host]

theorem State.setTxQueue_events : (s.setTxQueue k l).events = s.events := by
  rw [State.setTxQueue, State.wr_events, State.setRad_events]

theorem State.setTxQueue_depth (h : l.length < 2 ^ 5) : (s.setTxQueue k l).rd F.RAD_TX_STAT.DEPTH k = l.length :=
  State.rd_wr_lt _ ⟨by decide, by decide⟩ h

theorem State.txSubmit_full (h : 16 ≤ (s.txQueue k).length) : s.txSubmit k j = none := if_pos h

theorem State.txSubmit_room (h : (s.txQueue k).length < 16) :
    s.txSubmit k j = some (s.setTxQueue k (s.txQueue k ++ [j])) := if_neg (Nat.not_le.mpr h)

end

/-! ### RAD_TX (R298) -/

section
variable {s : State} {ref : CmdRef} {k : BitVec 8} (ht : s.takes ref 0x0803) (desc : List Byte)
include ht

theorem exec_radTx_range (h : 63 < k.toNat) :
    exec (.radTx ref k desc) s = .next ((s.accept ref 0x0803).complete ref stRange) := by
  simp only [exec, execRadTx, s.command_run _ _ _ ht, if_pos h]

variable (hk : k.toNat ≤ 63)
include hk

theorem exec_radTx_full (h : 16 ≤ (s.txQueue k.toNat).length) :
    exec (.radTx ref k desc) s = .next ((s.accept ref 0x0803).complete ref stBusy) := by
  have hq := State.txQueue_congr (s.accept_rad ref 0x0803) k.toNat
  simp only [exec, execRadTx, s.command_run _ _ _ ht, if_neg (Nat.not_lt.mpr hk), State.txSubmit_full _ _ _ (hq ▸ h)]

theorem exec_radTx_room (h : (s.txQueue k.toNat).length < 16) : exec (.radTx ref k desc) s =
    .next ((s.accept ref 0x0803).setTxQueue k.toNat (s.txQueue k.toNat ++ [⟨some ref, padTo 64 desc, false⟩])) := by
  have hq := State.txQueue_congr (s.accept_rad ref 0x0803) k.toNat
  simp only [exec, execRadTx, s.command_run _ _ _ ht, if_neg (Nat.not_lt.mpr hk), State.txSubmit_room _ _ _ (hq ▸ h), hq]

/-- A packet command that is taken waits behind the packets before it. -/
theorem radTx_queues (h : (s.txQueue k.toNat).length < 16) : ∃ t, exec (.radTx ref k desc) s = .next t ∧
    t.txQueue k.toNat = s.txQueue k.toNat ++ [⟨some ref, padTo 64 desc, false⟩] ∧
    t.rd F.RAD_TX_STAT.DEPTH k.toNat = (s.txQueue k.toNat).length + 1 ∧
    (∀ j, j ≠ k.toNat → t.txQueue j = s.txQueue j) ∧ t.mem = s.mem ∧ t.events = s.events := by
  refine ⟨_, exec_radTx_room ht desc hk h, ?_, ?_, fun j hj => ?_, ?_, ?_⟩
  · rw [State.txQueue_setTxQueue, if_pos rfl]
  · have hlen (a : Job) : (s.txQueue k.toNat ++ [a]).length = (s.txQueue k.toNat).length + 1 := by
      rw [List.length_append, List.length_singleton]
    rw [State.setTxQueue_depth _ _ _ (by rw [hlen]; omega), hlen]
  · rw [State.txQueue_setTxQueue, if_neg hj, State.txQueue_congr (s.accept_rad ..)]
  · rw [State.setTxQueue_mem, State.accept_mem]
  · rw [State.setTxQueue_events, State.accept_events]

end

/-! ### TX_JOB_WINDOW_WRITE (R298) -/

section
variable {s u : State} {core : BitVec 6} {x : Xfer} {d : List PByte} {k : Nat}
  (hw : s.windowTake core.toNat 0xFFFE8000 0xFFFEC000 64 = some (x, d, u))
  (hk : (x.far + x.done / 16 - 0xFFFE8000) / 0x100 = k)
include hw hk

theorem exec_txJobWindowWrite_full (h : 16 ≤ (s.txQueue k).length) : exec (.txJobWindowWrite core) s = .next s := by
  have hq := State.txQueue_congr (State.windowTake_rad hw) k
  simp only [exec, execTxJobWindowWrite, hw, hk, State.txSubmit_full _ _ _ (hq ▸ h)]

theorem exec_txJobWindowWrite_room (h : (s.txQueue k).length < 16) : exec (.txJobWindowWrite core) s =
    .next (u.setTxQueue k (s.txQueue k ++ [⟨none, plain d, poisoned d⟩])) := by
  have hq := State.txQueue_congr (State.windowTake_rad hw) k
  simp only [exec, execTxJobWindowWrite, hw, hk, State.txSubmit_room _ _ _ (hq ▸ h), hq]

theorem txJobWindowWrite_queues (h : (s.txQueue k).length < 16) : ∃ t, exec (.txJobWindowWrite core) s = .next t ∧
    t.txQueue k = s.txQueue k ++ [⟨none, plain d, poisoned d⟩] ∧ (∀ j, j ≠ k → t.txQueue j = s.txQueue j) ∧
    t.cores = u.cores ∧ t.mem = s.mem ∧ t.host = s.host ∧ t.events = s.events := by
  refine ⟨_, exec_txJobWindowWrite_room hw hk h, ?_, fun j hj => ?_, State.setTxQueue_cores .., ?_, ?_, ?_⟩
  · rw [State.txQueue_setTxQueue, if_pos rfl]
  · rw [State.txQueue_setTxQueue, if_neg hj, State.txQueue_congr (State.windowTake_rad hw)]
  · rw [State.setTxQueue_mem, State.windowTake_mem hw]
  · rw [State.setTxQueue_host, State.windowTake_host hw]
  · rw [State.setTxQueue_events, State.windowTake_events hw]

end

/-! ### TX_PACKET_START (R298) -/

/-- The ASAP bit of a packet descriptor (Table RAD-8). -/
def Job.asap (j : Job) : Bool := bit (fieldAt j.desc 14 1) 1

/-- The first baseband sample of a packet: its START's, or with ASAP the earliest that is free, not yet fetched, and LEAD
away. -/
def State.txFirst (s : State) (k : Nat) (j : Job) : Nat :=
  let slot := s.rd F.RAD_TX_CFG.SLOT k
  if j.asap then
    max (Sparse.get (fun _ => 0) s.rad.txEnd k) (max (s.slot slot).txM (s.bbAt slot (s.now + s.rd F.RAD_GLB_LEAD.LEAD)))
  else s.bbAt slot (fieldAt j.desc 0 8)

/-- The fetch time of a packet's first sample has passed. -/
def State.txMissed (s : State) (k : Nat) (j : Job) : Bool :=
  let slot := s.rd F.RAD_TX_CFG.SLOT k
  !j.asap && decide (s.fetchTime slot (s.txFirst k j) < s.now ∨ s.txFirst k j < (s.slot slot).txM)

/-- The payload of a packet, as it is read once the packet has left its queue, behind which `l` waits. -/
def State.payloadRead (s : State) (k : Nat) (j : Job) (l : List Job) : RdRes :=
  (s.setTxQueue k l).memRead (reqRadio 1) (fieldAt j.desc 8 4 * 16) (fieldAt j.desc 12 2)

/-- The packet that transmitter k makes of a job. -/
def State.packet (s : State) (k : Nat) (j : Job) (l : List Job) : TxPkt :=
  ⟨j, s.txFirst k j, (s.txProfile k).length (fieldAt j.desc 12 2), plain (s.payloadRead k j l).bytes,
    poisoned (s.payloadRead k j l).bytes⟩

/-- The packet at the head of a queue becomes the one that is sent. -/
def State.buildPacket (s : State) (k : Nat) (j : Job) (l : List Job) : State :=
  let t := (s.payloadRead k j l).s
  t.setRad { t.rad with txNow := Sparse.insert t.rad.txNow k (s.packet k j l) }

section
variable (s : State) (l : List Job)

theorem State.setTxQueue_rdReg (k : Nat) {off : Nat} (h : off ≠ 0x388004 + 64 * k) :
    (s.setTxQueue k l).rdReg off = s.rdReg off := State.rdReg_wr_other _ _ _ _ _ _ h

theorem State.setTxQueue_rd (k : Nat) {f : Field} {i j : Nat} (h : f.off i j ≠ 0x388004 + 64 * k) :
    (s.setTxQueue k l).rd f i j = s.rd f i j := State.rd_wr_other _ _ _ _ _ _ _ _ h

/-- DEPTH of a transmitter is no part of the times of a slot. -/
theorem State.setTxQueue_fetchTime {k i : Nat} (hk : k < 64) (hi : i < 256) (m : Nat) :
    (s.setTxQueue k l).fetchTime i m = s.fetchTime i m := by
  have hslot (f : Field) (h : f.base < 0x380040 ∧ f.s1 = 64 ∧ f.s2 = 0) : (s.setTxQueue k l).rd f i = s.rd f i := by
    obtain ⟨hbase, hs1, hs2⟩ := h
    refine s.setTxQueue_rd l k ?_
    rw [Field.off, hs1, hs2]
    omega
  have hlead : (s.setTxQueue k l).rd F.RAD_GLB_LEAD.LEAD = s.rd F.RAD_GLB_LEAD.LEAD := by
    refine s.setTxQueue_rd l k ?_
    rw [show F.RAD_GLB_LEAD.LEAD.off 0 0 = 0x38A000 from rfl]
    omega
  have hstart : (s.setTxQueue k l).slotStart i = s.slotStart i := by
    have hoff : F.RAD_SLOT_START_LO.TS.off i 0 = 0x380018 + 64 * i := rfl
    rw [State.slotStart, State.rd64, hoff, s.setTxQueue_rdReg l k (by omega), s.setTxQueue_rdReg l k (by omega)]
    rfl
  simp only [State.fetchTime, State.bbTime, State.bbTime16, State.fbNum, State.fbDen, hstart, hlead,
    hslot F.RAD_SLOT_RATE.FL (by decide), hslot F.RAD_SLOT_RSMP.RATIO (by decide), hslot F.RAD_SLOT_RSMP.H (by decide)]

theorem State.setTxQueue_slot (k i : Nat) : (s.setTxQueue k l).slot i = s.slot i := by
  rw [State.slot, State.setTxQueue_rad, State.slot]

theorem State.setTxQueue_now (k : Nat) : (s.setTxQueue k l).now = s.now := by
  rw [State.now, State.setTxQueue, State.wr_tb, State.setRad_tb, State.now]

end

section
variable {s : State} {tx : BitVec 6} {j : Job} {l : List Job} (ha : s.alive = true) (hq : s.txQueue tx.toNat = j :: l)
  (hidle : Sparse.find s.rad.txNow tx.toNat = none) (hen : s.rdb F.RAD_TX_CFG.EN tx.toNat = true) (hclean : j.poison = false)
include ha hq hidle hen hclean

/-- What becomes of the packet at the head of a transmitter that sends nothing. -/
theorem exec_txPacketStart : exec (.txPacketStart tx) s = .next (
    if (s.txProfile tx.toNat).maxLen < fieldAt j.desc 12 2 then (s.setTxQueue tx.toNat l).txDone j stRange
    else if s.txMissed tx.toNat j then
      ((((s.setTxQueue tx.toNat l).sat F.RAD_TX_MISSED.COUNT tx.toNat).radEvent 0x0804 (0x140 + tx.toNat)
        (fieldAt j.desc 0 8)).txDone j stRefused)
    else s.buildPacket tx.toNat j l) := by
  have hslot : s.rd F.RAD_TX_CFG.SLOT tx.toNat < 256 := bits_lt ..
  simp only [exec, execTxPacketStart, s.live_run _ ha, hq, hidle, hen, hclean, Bool.not_true, Bool.false_eq_true, if_false,
    State.setTxQueue_slot, State.setTxQueue_now, s.setTxQueue_fetchTime l tx.isLt hslot]
  rfl

theorem exec_txPacketStart_range (h : (s.txProfile tx.toNat).maxLen < fieldAt j.desc 12 2) :
    exec (.txPacketStart tx) s = .next ((s.setTxQueue tx.toNat l).txDone j stRange) := by
  rw [exec_txPacketStart ha hq hidle hen hclean, if_pos h]

variable (hlen : fieldAt j.desc 12 2 ≤ (s.txProfile tx.toNat).maxLen)
include hlen

theorem exec_txPacketStart_missed (h : s.txMissed tx.toNat j = true) : exec (.txPacketStart tx) s =
    .next ((((s.setTxQueue tx.toNat l).sat F.RAD_TX_MISSED.COUNT tx.toNat).radEvent 0x0804 (0x140 + tx.toNat)
      (fieldAt j.desc 0 8)).txDone j stRefused) := by
  rw [exec_txPacketStart ha hq hidle hen hclean, if_neg (Nat.not_lt.mpr hlen), if_pos h]

theorem exec_txPacketStart_built (h : s.txMissed tx.toNat j = false) :
    exec (.txPacketStart tx) s = .next (s.buildPacket tx.toNat j l) := by
  rw [exec_txPacketStart ha hq hidle hen hclean, if_neg (Nat.not_lt.mpr hlen), h, if_neg Bool.false_ne_true]

end

section
variable (s : State) (k : Nat) (j : Job) (l : List Job)

theorem State.txMissed_true (hstart : j.asap = false)
    (h : s.fetchTime (s.rd F.RAD_TX_CFG.SLOT k) (s.txFirst k j) < s.now ∨
      s.txFirst k j < (s.slot (s.rd F.RAD_TX_CFG.SLOT k)).txM) : s.txMissed k j = true := by
  rw [State.txMissed, hstart, decide_eq_true h]
  rfl

theorem State.txMissed_false (h : j.asap = true ∨ s.now ≤ s.fetchTime (s.rd F.RAD_TX_CFG.SLOT k) (s.txFirst k j) ∧
    (s.slot (s.rd F.RAD_TX_CFG.SLOT k)).txM ≤ s.txFirst k j) : s.txMissed k j = false := by
  rw [State.txMissed]
  rcases h with h | ⟨hfetch, hfree⟩
  · rw [h]
    rfl
  · rw [decide_eq_false (not_or.mpr ⟨Nat.not_lt.mpr hfetch, Nat.not_lt.mpr hfree⟩), Bool.and_false]

/-- Reading the payload leaves the radio engine as it is. -/
theorem State.buildPacket_rad : (s.buildPacket k j l).rad =
    { (s.setTxQueue k l).rad with txNow := Sparse.insert s.rad.txNow k (s.packet k j l) } := by
  have hread : (s.payloadRead k j l).s.rad = (s.setTxQueue k l).rad := memBlind_rad.memRead ..
  rw [State.buildPacket, State.setRad_rad, hread, State.setTxQueue_rad]

theorem State.buildPacket_txNow (i : Nat) : Sparse.find (s.buildPacket k j l).rad.txNow i =
    if i = k then some (s.packet k j l) else Sparse.find s.rad.txNow i := by
  rw [State.buildPacket_rad]
  exact Sparse.find_insert ..

theorem State.buildPacket_txQueue (i : Nat) : (s.buildPacket k j l).txQueue i = if i = k then l else s.txQueue i := by
  rw [← State.txQueue_setTxQueue, State.txQueue, State.buildPacket_rad, State.txQueue]

theorem State.buildPacket_follows : ∃ w, Sparse.find (s.buildPacket k j l).rad.txNow k = some w ∧ w.job = j ∧
    w.first = s.txFirst k j ∧ w.len = (s.txProfile k).length (fieldAt j.desc 12 2) ∧ (s.buildPacket k j l).txQueue k = l ∧
    ∀ i, i ≠ k → (s.buildPacket k j l).txQueue i = s.txQueue i ∧
      Sparse.find (s.buildPacket k j l).rad.txNow i = Sparse.find s.rad.txNow i :=
  ⟨s.packet k j l, (s.buildPacket_txNow k j l k).trans (if_pos rfl), rfl, rfl, rfl,
    (s.buildPacket_txQueue k j l k).trans (if_pos rfl), fun i hi =>
      ⟨(s.buildPacket_txQueue k j l i).trans (if_neg hi), (s.buildPacket_txNow k j l i).trans (if_neg hi)⟩⟩

end

/-! ### What the transmit path of a slot leaves alone -/

/-- Every stream slot but slot i. -/
def State.otherSlots (s : State) (i : Nat) : Nat → Option RadSlot := fun k => if k = i then none else some (s.slot k)

/-- The sample that slot i fetches next, and the other slots. -/
def State.fetchPoint (i : Nat) (s : State) : Nat × (Nat → Option RadSlot) := ((s.slot i).txM, s.otherSlots i)

theorem State.slot_setSlot (s : State) (i : Nat) (x : RadSlot) (k : Nat) :
    (s.setSlot i x).slot k = if k = i then x else s.slot k := by
  rw [State.slot, State.setSlot, State.setRad_rad]
  exact Sparse.get_set ..

theorem State.slot_congr {s t : State} (h : t.rad.slots = s.rad.slots) (k : Nat) : t.slot k = s.slot k := by
  rw [State.slot, h, State.slot]

theorem State.otherSlots_setSlot (s : State) (i : Nat) (x : RadSlot) : (s.setSlot i x).otherSlots i = s.otherSlots i := by
  funext k
  unfold State.otherSlots
  rw [State.slot_setSlot]
  split <;> rfl

theorem State.otherSlots_slot {s t : State} {i : Nat} (h : t.otherSlots i = s.otherSlots i) {k : Nat} (hk : k ≠ i) :
    t.slot k = s.slot k := by
  have hk' := congrFun h k
  rw [State.otherSlots, State.otherSlots, if_neg hk, if_neg hk] at hk'
  exact Option.some.inj hk'

section
variable {s t : State} (i : Nat)

theorem State.otherSlots_congr (h : t.rad.slots = s.rad.slots) : t.otherSlots i = s.otherSlots i := by
  unfold State.otherSlots
  simp only [State.slot_congr h]

theorem State.fetchPoint_congr (h : t.rad.slots = s.rad.slots) : t.fetchPoint i = s.fetchPoint i := by
  rw [State.fetchPoint, State.slot_congr h, State.otherSlots_congr i h, State.fetchPoint]

theorem State.fetchPoint_rad (h : t.rad = s.rad) : t.fetchPoint i = s.fetchPoint i :=
  State.fetchPoint_congr i (congrArg RadSt.slots h)

theorem State.otherSlots_of_fetchPoint (h : t.fetchPoint i = s.fetchPoint i) : t.otherSlots i = s.otherSlots i :=
  congrArg Prod.snd h

theorem State.fetchPoint_setSlot (s : State) (x : RadSlot) : (s.setSlot i x).fetchPoint i = (x.txM, s.otherSlots i) := by
  rw [State.fetchPoint, State.slot_setSlot, if_pos rfl, State.otherSlots_setSlot]

/-- A slot that is set anew with the same next sample. -/
theorem State.fetchPoint_touch (s : State) {x : RadSlot} (hx : x.txM = (s.slot i).txM) :
    (s.setSlot i x).fetchPoint i = s.fetchPoint i := by
  rw [State.fetchPoint_setSlot, hx, State.fetchPoint]

end

theorem State.radIdx_rad (s : State) (req far ofs was : Nat) : (s.radIdx req far ofs was).2.rad = s.rad := by
  unfold State.radIdx
  dsimp only
  split
  · rw [memBlind_rad.poisonConsumed, memBlind_rad.memRead]
  · rw [memBlind_rad.memRead]

theorem State.radEvent_rad (s : State) (code unit v : Nat) : (s.radEvent code unit v).rad = s.rad := memBlind_rad.event ..

theorem State.capFeed_rad (s : State) (kind unit point ts : Nat) (poison : Bool) (wants : Nat → Bool)
    (data : Nat → List Byte) : (s.capFeed kind unit point ts poison wants data).rad = s.rad := by
  rw [State.capFeed, State.onArmed, State.setCap_rad]

theorem State.linkQueue_rad (s : State) (k : Nat) (f : Flit) : (s.linkQueue k f).rad = s.rad := by
  rw [State.linkQueue, State.setLink_rad]

theorem State.txDone_rad (s : State) (j : Job) (status : Nat) : (s.txDone j status).rad = s.rad := by
  unfold State.txDone
  dsimp only
  rw [State.units_rad (State.completeOpt_units ..)]
  exact State.onlyIf_keeps _ _ fun t => memBlind_rad.put t _ _ _

/-! What a fetch from the transmit ring leaves, by where the ring stands (R283). -/

/-- The ring's WR_IDX as it is read for slot i, and the slot with it. -/
def State.ringWr (s : State) (i : Nat) : Nat × State :=
  let q := s.radIdx (reqRadio 0) (s.rd F.RAD_SLOT_TXRING.BASE i) 0 (s.slot i).txWr
  (q.1, q.2.setSlot i { q.2.slot i with txWr := q.1 })

/-- An underrun is counted, and its event raised if it is the first after a group that was there. -/
def State.underrun (s : State) (i m : Nat) : State :=
  let u := (s.sat F.RAD_SLOT_UNDER.COUNT i).onlyIf (!((s.sat F.RAD_SLOT_UNDER.COUNT i).slot i).under) fun s =>
    s.radEvent 0x0801 i m
  u.setSlot i { u.slot i with under := true }

/-- A group of slot i has been read at far address a. -/
def State.groupRead (s : State) (i a : Nat) : State :=
  let t := (s.memRead (reqRadio 0) a 64).s
  t.setSlot i { t.slot i with under := false }

section
variable (s : State) (i m : Nat)

theorem State.ringFetch_early (h : s.fetchTime i m < (s.slot i).from_) : (s.ringFetch i m).2 = s :=
  congrArg Prod.snd (if_pos h)

section
variable (h : ¬ s.fetchTime i m < (s.slot i).from_)
include h

theorem State.ringFetch_under (hwr : (s.ringWr i).1 < m + 16) : (s.ringFetch i m).2 = (s.ringWr i).2.underrun i m := by
  simp only [State.ringWr] at hwr
  simp only [State.ringFetch, if_neg h, if_pos hwr, State.underrun, State.ringWr]

theorem State.ringFetch_read (hwr : ¬ (s.ringWr i).1 < m + 16) :
    ∃ a, (s.ringFetch i m).2 = (s.ringWr i).2.groupRead i a := by
  simp only [State.ringWr] at hwr
  simp only [State.ringFetch, if_neg h, if_neg hwr, State.groupRead, State.ringWr]
  exact ⟨_, rfl⟩

end

theorem State.ringWr_fetchPoint : (s.ringWr i).2.fetchPoint i = s.fetchPoint i := by
  simp only [State.ringWr]
  rw [State.fetchPoint_touch, State.fetchPoint_rad _ (State.radIdx_rad ..)]
  rfl

theorem State.underrun_fetchPoint : (s.underrun i m).fetchPoint i = s.fetchPoint i := by
  have hevent (t : State) : (t.radEvent 0x0801 i m).fetchPoint i = t.fetchPoint i :=
    State.fetchPoint_rad _ (t.radEvent_rad ..)
  simp only [State.underrun]
  rw [State.fetchPoint_touch, State.onlyIf_keeps _ _ hevent, State.fetchPoint_rad _ (s.sat_rad ..)]
  rfl

theorem State.groupRead_fetchPoint (a : Nat) : (s.groupRead i a).fetchPoint i = s.fetchPoint i := by
  simp only [State.groupRead]
  rw [State.fetchPoint_touch, State.fetchPoint_rad _ (memBlind_rad.memRead ..)]
  rfl

theorem State.ringFetch_fetchPoint : (s.ringFetch i m).2.fetchPoint i = s.fetchPoint i := by
  by_cases hearly : s.fetchTime i m < (s.slot i).from_
  · rw [s.ringFetch_early i m hearly]
  · by_cases hwr : (s.ringWr i).1 < m + 16
    · rw [s.ringFetch_under i m hearly hwr, State.underrun_fetchPoint, State.ringWr_fetchPoint]
    · obtain ⟨a, ha⟩ := s.ringFetch_read i m hearly hwr
      rw [ha, State.groupRead_fetchPoint, State.ringWr_fetchPoint]

theorem State.txFlits_fetchPoint (n : Nat) : (State.txFlits n s i).fetchPoint i = s.fetchPoint i := by
  induction n generalizing s with
  | zero => rfl
  | succ n ih =>
    unfold State.txFlits
    dsimp only
    split
    · rfl
    · rw [ih, State.fetchPoint_rad _ (State.linkQueue_rad ..), State.fetchPoint_touch]
      rfl

theorem State.txSampleOut_fetchPoint (w : Nat) (poison : Bool) :
    (s.txSampleOut i m w poison).fetchPoint i = s.fetchPoint i := by
  have hfeed (t : State) (point ts : Nat) (data : Nat → List Byte) :
      (t.capFeed 2 i point ts poison (fun _ => true) data).fetchPoint i = t.fetchPoint i :=
    State.fetchPoint_rad _ (State.capFeed_rad ..)
  have hsat (t : State) (c : Bool) : (t.onlyIf c fun s => s.sat F.RAD_SLOT_SAT.TX i).fetchPoint i = t.fetchPoint i :=
    State.onlyIf_keeps _ _ fun u => State.fetchPoint_rad _ (u.sat_rad ..)
  have hset {t u : State} {x : RadSlot} (h : t.fetchPoint i = u.fetchPoint i) (hx : x.txM = (u.slot i).txM) :
      (t.setSlot i x).fetchPoint i = u.fetchPoint i := by
    rw [State.fetchPoint_setSlot, State.otherSlots_of_fetchPoint i h, hx, State.fetchPoint]
  unfold State.txSampleOut
  refine (State.each_keeps (view := State.fetchPoint i) _ _ fun t k => ?_).trans ?_
  · exact hset (hfeed ..) rfl
  · exact hset ((hfeed ..).trans (hsat ..)) rfl

theorem State.txFlow_fetchPoint (t : Nat) : (s.txFlow i t).fetchPoint i = s.fetchPoint i := by
  unfold State.txFlow
  dsimp only
  split
  · rfl
  · rw [State.txFlits_fetchPoint, State.each_keeps (view := State.fetchPoint i) _ _ fun u k => u.txSampleOut_fetchPoint ..,
      State.fetchPoint_touch]
    rfl

theorem State.txEnds_slots : (s.txEnds i m).rad.slots = s.rad.slots := by
  unfold State.txEnds
  refine State.each_keeps (view := fun s => s.rad.slots) _ _ fun t e => ?_
  dsimp only
  rw [State.txDone_rad, State.setRad_rad]

end

/-! ### TX_GROUP_FETCH (R283) -/

theorem State.each_range_succ (s : State) (n : Nat) (f : State → Nat → State) :
    s.each (List.range (n + 1)) f = f (s.each (List.range n) f) n := by
  rw [State.each, List.range_succ, List.foldl_append, List.foldl_cons, List.foldl_nil, State.each]

/-- Samples that each move slot i on to the next one, and no other slot, move it on by their number. -/
theorem State.each_fetchPoint {f : State → Nat → State} {i m : Nat}
    (hf : ∀ t k, (f t k).fetchPoint i = (m + k + 1, t.otherSlots i)) (s : State) (n : Nat) :
    (s.each (List.range (n + 1)) f).fetchPoint i = (m + n + 1, s.otherSlots i) := by
  have hother : (s.each (List.range n) f).otherSlots i = s.otherSlots i :=
    State.each_keeps (view := fun t => t.otherSlots i) _ _ fun t k => congrArg Prod.snd (hf t k)
  rw [State.each_range_succ, hf, hother]

section
variable {s : State} {slot : BitVec 8} (ha : s.alive = true)
include ha

theorem exec_txGroupFetch_notDue (h : s.rdb F.RAD_SLOT_CFG.EN slot.toNat = false ∨
      s.rdb F.RAD_SLOT_CFG.TX_EN slot.toNat = false ∨ s.now < s.fetchTime slot.toNat (s.slot slot.toNat).txM) :
    exec (.txGroupFetch slot) s = .next s := by
  simp only [exec, execTxGroupFetch, s.live_run _ ha]
  rcases h with h | h | h
  · simp only [h, Bool.not_false, Bool.true_or, if_true]
  · simp only [h, Bool.not_false, Bool.or_true, Bool.true_or, if_true]
  · simp only [decide_eq_true h, Bool.or_true, if_true]

variable (hen : s.rdb F.RAD_SLOT_CFG.EN slot.toNat = true) (htx : s.rdb F.RAD_SLOT_CFG.TX_EN slot.toNat = true)
  (hdue : s.fetchTime slot.toNat (s.slot slot.toNat).txM ≤ s.now)
include hen htx hdue

/-- A group that is due moves its slot on by its 16 samples, and no other slot. -/
theorem exec_txGroupFetch_due : ∃ t, exec (.txGroupFetch slot) s = .next t ∧
    t.fetchPoint slot.toNat = ((s.slot slot.toNat).txM + 16, s.otherSlots slot.toNat) := by
  have hput (t : State) (c : Bool) (a : State → Nat) (l : List Byte) :
      (t.onlyIf c fun s => s.put (reqRadio 0) (a s) l).fetchPoint slot.toNat = t.fetchPoint slot.toNat :=
    State.onlyIf_keeps _ _ fun t => State.fetchPoint_rad _ (memBlind_rad.put t ..)
  have hsat (t : State) (c : Bool) : (t.onlyIf c fun s => s.sat F.RAD_SLOT_SAT.TX slot.toNat).fetchPoint slot.toNat =
      t.fetchPoint slot.toNat := State.onlyIf_keeps _ _ fun u => State.fetchPoint_rad _ (u.sat_rad ..)
  simp only [exec, execTxGroupFetch, s.live_run _ ha, hen, htx, decide_eq_false (Nat.not_lt.mpr hdue), Bool.not_true,
    Bool.or_self, Bool.false_eq_true, if_false]
  refine ⟨_, rfl, ?_⟩
  rw [State.txFlow_fetchPoint, State.fetchPoint_congr _ (State.txEnds_slots ..), hput,
    State.each_fetchPoint (m := (s.slot slot.toNat).txM) fun t k => ?_]
  · split
    · rfl
    · rw [State.otherSlots_of_fetchPoint _ (s.ringFetch_fetchPoint ..)]
  · rw [State.fetchPoint_setSlot, State.otherSlots_of_fetchPoint _ (hsat ..)]

end

end Sys2Proof.Machine

open Sys2Proof Sys2Proof.Machine

/-- Settles O49: of the radio engine, the transmit path moves its own slot only, and the queue's DEPTH is no part of a packet's
times. That a LEN above MAXLEN completes RANGE is DEDUCED in log 68; R298 gives it no status. -/
theorem packetsAndGroupsAreTransmitted : Obligations.PacketsAndGroupsAreTransmitted := by
  refine ⟨fun s ref k desc ht => ⟨exec_radTx_range ht desc, exec_radTx_full ht desc, radTx_queues ht desc⟩,
    fun s u core x d hw => ⟨exec_txJobWindowWrite_full hw rfl, txJobWindowWrite_queues hw rfl⟩,
    fun s tx j l ha => fun hq hidle hen hclean => ⟨exec_txPacketStart_range ha hq hidle hen hclean, fun hlen hstart h => ?_,
      fun hlen h => ?_⟩,
    fun s slot ha => ⟨exec_txGroupFetch_notDue ha, fun hen htx hdue => ?_⟩⟩
  · exact exec_txPacketStart_missed ha hq hidle hen hclean hlen (s.txMissed_true _ _ hstart h)
  · obtain ⟨w, hw⟩ := s.buildPacket_follows tx.toNat j l
    exact ⟨_, w, exec_txPacketStart_built ha hq hidle hen hclean hlen (s.txMissed_false _ _ h), hw⟩
  · obtain ⟨t, hexec, hpoint⟩ := exec_txGroupFetch_due ha hen htx hdue
    obtain ⟨hmoved, hother⟩ := Prod.mk.inj hpoint
    exact ⟨t, hexec, hmoved, fun k hk => State.otherSlots_slot hother hk⟩
end

section
/-! PROOF. Transform jobs and correlator taps (R287 to R292). -/

namespace Sys2Proof.Machine

/-! ### The queues of transform jobs (R288) -/

section
variable (s : State) (q : Nat) (l : List Job) (j : Job)

theorem State.xformQueue_congr {s t : State} (h : t.rad = s.rad) (q : Nat) : t.xformQueue q = s.xformQueue q := by
  rw [State.xformQueue, h, State.xformQueue]

theorem State.xformQueue_setXformQueue (p : Nat) :
    (s.setXformQueue q l).xformQueue p = if p = q then l else s.xformQueue p := by
  rw [State.xformQueue, State.setXformQueue, State.setRad_rad]
  exact Sparse.get_set ..

theorem State.xformSubmit_full (h : 64 ≤ (s.xformQueue q).length) : s.xformSubmit q j = none := if_pos h

theorem State.xformSubmit_room (h : (s.xformQueue q).length < 64) :
    s.xformSubmit q j = some (s.setXformQueue q (s.xformQueue q ++ [j])) := if_neg (Nat.not_le.mpr h)

end

/-! ### RAD_XFORM (R288) -/

section
variable {s : State} {ref : CmdRef} {q : BitVec 8} (ht : s.takes ref 0x0801) (desc : List Byte)
include ht

theorem exec_radXform_range (h : 7 < q.toNat) :
    exec (.radXform ref q desc) s = .next ((s.accept ref 0x0801).complete ref stRange) := by
  simp only [exec, execRadXform, s.command_run _ _ _ ht, if_pos h]

variable (hq : q.toNat ≤ 7)
include hq

theorem exec_radXform_full (h : 64 ≤ (s.xformQueue q.toNat).length) :
    exec (.radXform ref q desc) s = .next ((s.accept ref 0x0801).complete ref stBusy) := by
  have hsame := State.xformQueue_congr (s.accept_rad ref 0x0801) q.toNat
  simp only [exec, execRadXform, s.command_run _ _ _ ht, if_neg (Nat.not_lt.mpr hq), State.xformSubmit_full _ _ _ (hsame ▸ h)]

theorem exec_radXform_room (h : (s.xformQueue q.toNat).length < 64) : exec (.radXform ref q desc) s =
    .next ((s.accept ref 0x0801).setXformQueue q.toNat (s.xformQueue q.toNat ++ [⟨some ref, padTo 64 desc, false⟩])) := by
  have hsame := State.xformQueue_congr (s.accept_rad ref 0x0801) q.toNat
  simp only [exec, execRadXform, s.command_run _ _ _ ht, if_neg (Nat.not_lt.mpr hq), State.xformSubmit_room _ _ _ (hsame ▸ h),
    hsame]

/-- A job that is taken waits behind those before it. -/
theorem radXform_queues (h : (s.xformQueue q.toNat).length < 64) : ∃ t, exec (.radXform ref q desc) s = .next t ∧
    t.xformQueue q.toNat = s.xformQueue q.toNat ++ [⟨some ref, padTo 64 desc, false⟩] ∧
    (∀ p, p ≠ q.toNat → t.xformQueue p = s.xformQueue p) ∧ t.mem = s.mem ∧ t.events = s.events := by
  refine ⟨_, exec_radXform_room ht desc hq h, ?_, fun p hp => ?_, ?_, ?_⟩
  · rw [State.xformQueue_setXformQueue, if_pos rfl]
  · rw [State.xformQueue_setXformQueue, if_neg hp, State.xformQueue_congr (s.accept_rad ..)]
  · rw [State.setXformQueue, State.setRad_mem, State.accept_mem]
  · rw [State.setXformQueue, State.setRad_events, State.accept_events]

end

/-! ### XFORM_JOB_WINDOW_WRITE (R288) -/

section
variable {s u : State} {core : BitVec 6} {x : Xfer} {d : List PByte} {q : Nat}
  (hw : s.windowTake core.toNat 0xFFFE0000 0xFFFE8000 64 = some (x, d, u))
  (hq : (x.far + x.done / 16 - 0xFFFE0000) / 0x1000 = q)
include hw hq

theorem exec_xformJobWindowWrite_full (h : 64 ≤ (s.xformQueue q).length) :
    exec (.xformJobWindowWrite core) s = .next s := by
  have hsame := State.xformQueue_congr (State.windowTake_rad hw) q
  simp only [exec, execXformJobWindowWrite, hw, hq, State.xformSubmit_full _ _ _ (hsame ▸ h)]

theorem exec_xformJobWindowWrite_room (h : (s.xformQueue q).length < 64) : exec (.xformJobWindowWrite core) s =
    .next (u.setXformQueue q (s.xformQueue q ++ [⟨none, plain d, poisoned d⟩])) := by
  have hsame := State.xformQueue_congr (State.windowTake_rad hw) q
  simp only [exec, execXformJobWindowWrite, hw, hq, State.xformSubmit_room _ _ _ (hsame ▸ h), hsame]

theorem xformJobWindowWrite_queues (h : (s.xformQueue q).length < 64) :
    ∃ t, exec (.xformJobWindowWrite core) s = .next t ∧
    t.xformQueue q = s.xformQueue q ++ [⟨none, plain d, poisoned d⟩] ∧ (∀ p, p ≠ q → t.xformQueue p = s.xformQueue p) ∧
    t.cores = u.cores ∧ t.mem = s.mem ∧ t.host = s.host ∧ t.events = s.events := by
  refine ⟨_, exec_xformJobWindowWrite_room hw hq h, ?_, fun p hp => ?_, ?_, ?_, ?_, ?_⟩
  · rw [State.xformQueue_setXformQueue, if_pos rfl]
  · rw [State.xformQueue_setXformQueue, if_neg hp, State.xformQueue_congr (State.windowTake_rad hw)]
  · rw [State.setXformQueue, State.setRad_cores]
  · rw [State.setXformQueue, State.setRad_mem, State.windowTake_mem hw]
  · rw [State.setXformQueue, State.setRad_host, State.windowTake_host hw]
  · rw [State.setXformQueue, State.setRad_events, State.windowTake_events hw]

end

/-! ### The job that the engine takes next (R289) -/

/-- The heads of the queues that hold jobs, by rising queue. -/
def State.xformHeads (s : State) : List (Nat × Job) :=
  (List.range 8).filterMap fun q => (s.xformQueue q).head?.map fun j => (q, j)

/-- The earlier of the earliest deadline so far, with its queue and job, and a further head's. -/
def earlierHead (b : Option (Nat × Nat × Job)) (e : Nat × Job) : Option (Nat × Nat × Job) :=
  match e.2.deadline, b with
  | some t, none => some (t, e)
  | some t, some x => if t < x.1 then some (t, e) else some x
  | none, x => x

theorem State.xformPick_eq (s : State) : s.xformPick = match s.xformHeads.foldl earlierHead none with
    | some x => some x.2
    | none => s.xformHeads.head? := rfl

/-- What is found among heads: nothing where none has a deadline, else the earliest deadline with a head that has it. -/
def EarliestHead (l : List (Nat × Job)) : Option (Nat × Nat × Job) → Prop
  | none => ∀ d ∈ l, d.2.deadline = none
  | some (t, e) => e ∈ l ∧ e.2.deadline = some t ∧ ∀ d ∈ l, ∀ a, d.2.deadline = some a → t ≤ a

theorem EarliestHead.concat {l : List (Nat × Job)} {b : Option (Nat × Nat × Job)} (h : EarliestHead l b) (e : Nat × Job) :
    EarliestHead (l ++ [e]) (earlierHead b e) := by
  have hlast : e ∈ l ++ [e] := List.mem_append_right _ List.mem_cons_self
  have hall {P : Nat × Job → Prop} (hl : ∀ d ∈ l, P d) (he : P e) : ∀ d ∈ l ++ [e], P d :=
    List.forall_mem_append.mpr ⟨hl, List.forall_mem_singleton.mpr he⟩
  cases hd : e.2.deadline with
  | none =>
    cases b with
    | none =>
      simp only [earlierHead, hd]
      exact hall h hd
    | some x =>
      obtain ⟨hmem, hx, hmin⟩ := h
      simp only [earlierHead, hd]
      exact ⟨List.mem_append_left _ hmem, hx, hall hmin fun a ha => nomatch hd.symm.trans ha⟩
  | some t =>
    have hself (u : Nat) (hu : u ≤ t) (a : Nat) (ha : e.2.deadline = some a) : u ≤ a :=
      Option.some.inj (hd.symm.trans ha) ▸ hu
    cases b with
    | none =>
      simp only [earlierHead, hd]
      exact ⟨hlast, hd, hall (fun d hl a ha => nomatch (h d hl).symm.trans ha) (hself t (Nat.le_refl t))⟩
    | some x =>
      obtain ⟨hmem, hx, hmin⟩ := h
      simp only [earlierHead, hd]
      split
      next hlt => exact ⟨hlast, hd, hall (fun d hl a ha => Nat.le_of_lt (Nat.lt_of_lt_of_le hlt (hmin d hl a ha)))
        (hself t (Nat.le_refl t))⟩
      next hge => exact ⟨List.mem_append_left _ hmem, hx, hall hmin (hself _ (Nat.not_lt.mp hge))⟩

theorem EarliestHead.foldl {l m : List (Nat × Job)} {b : Option (Nat × Nat × Job)} (h : EarliestHead l b) :
    EarliestHead (l ++ m) (m.foldl earlierHead b) := by
  induction m generalizing l b with
  | nil => rwa [List.append_nil]
  | cons e m ih =>
    rw [List.append_cons]
    exact ih (h.concat e)

theorem earliestHead_foldl (l : List (Nat × Job)) : EarliestHead l (l.foldl earlierHead none) :=
  EarliestHead.foldl (l := []) fun _ hd => nomatch hd

section
variable {s : State} {q p : Nat} {j k : Job}

theorem State.mem_xformHeads : (p, k) ∈ s.xformHeads ↔ p < 8 ∧ ∃ l, s.xformQueue p = k :: l := by
  simp only [State.xformHeads, List.mem_filterMap, List.mem_range, Option.map_eq_some_iff, Prod.mk.injEq,
    List.head?_eq_some_iff]
  constructor
  · rintro ⟨a, ha, b, hb, rfl, rfl⟩
    exact ⟨ha, hb⟩
  · rintro ⟨hp, hk⟩
    exact ⟨p, hp, k, hk, rfl, rfl⟩

theorem State.xformHeads_rising (s : State) : s.xformHeads.Pairwise fun a b => a.1 < b.1 := by
  refine List.Pairwise.filterMap _ (fun a b hab x hx y hy => ?_) List.pairwise_lt_range
  obtain ⟨_, -, rfl⟩ := Option.map_eq_some_iff.mp hx
  obtain ⟨_, -, rfl⟩ := Option.map_eq_some_iff.mp hy
  exact hab

/-- The first head is that of the lowest queue. -/
theorem State.xformHeads_first (h : s.xformHeads.head? = some (q, j)) (hk : (p, k) ∈ s.xformHeads) : q ≤ p := by
  obtain ⟨l, hl⟩ := List.head?_eq_some_iff.mp h
  have hrising := s.xformHeads_rising
  rw [hl] at hrising hk
  rcases List.mem_cons.mp hk with heq | hmem
  · exact Nat.le_of_eq (congrArg Prod.fst heq).symm
  · exact Nat.le_of_lt ((List.pairwise_cons.mp hrising).1 _ hmem)

/-- The engine takes a head with the earliest deadline, or the first head where none has one. -/
theorem State.xformPick_earliest (h : s.xformPick = some (q, j)) : (q, j) ∈ s.xformHeads ∧
    ∀ p k, (p, k) ∈ s.xformHeads → (∀ b, k.deadline = some b → ∃ a, j.deadline = some a ∧ a ≤ b) ∧
      (j.deadline = none → k.deadline = none ∧ q ≤ p) := by
  have hearliest := earliestHead_foldl s.xformHeads
  rw [State.xformPick_eq] at h
  cases hfound : s.xformHeads.foldl earlierHead none with
  | none =>
    rw [hfound] at h hearliest
    exact ⟨List.mem_of_mem_head? h, fun p k hk => ⟨fun b hb => (nomatch (hearliest _ hk).symm.trans hb),
      fun _ => ⟨hearliest _ hk, State.xformHeads_first h hk⟩⟩⟩
  | some x =>
    rw [hfound] at h hearliest
    obtain ⟨hmem, hdeadline, hmin⟩ := hearliest
    rw [Option.some.inj h] at hmem hdeadline
    exact ⟨hmem, fun p k hk =>
      ⟨fun b hb => ⟨_, hdeadline, hmin _ hk b hb⟩, fun hj => nomatch hdeadline.symm.trans hj⟩⟩

end

/-! ### XFORM_JOB_COMPLETE (R288, R289) -/

theorem State.xformRun_rad (s : State) (d : List Byte) : (s.xformRun d).2.rad = s.rad := by
  unfold State.xformRun
  refine List.foldlRecOn (motive := fun a : Nat × State => a.2.rad = s.rad) _ _ rfl fun a ha b _ => ?_
  dsimp only
  rw [memBlind_rad.memWrite, memBlind_rad.memRead, ha]

theorem State.xformEnd_rad (s : State) (j : Job) (unit status sats : Nat) :
    (s.xformEnd j unit status sats).rad = s.rad := by
  unfold State.xformEnd
  dsimp only
  rw [State.units_rad (State.completeOpt_units ..)]
  refine (State.onlyIf_keeps _ _ fun t => ?_).trans ((State.onlyIf_keeps _ _ fun t => memBlind_rad.event t ..).trans ?_)
  · rw [memBlind_rad.coreSubmit _ State.setDsp_rad, memBlind_rad.fetchDesc]
  · exact State.onlyIf_keeps _ _ fun t => memBlind_rad.put t _ _ _

section
variable {s : State} (ha : s.alive = true)
include ha

theorem exec_xformJobComplete_none (h : s.xformPick = none) : exec .xformJobComplete s = .next s := by
  simp only [exec, execXformJobComplete, s.live_run _ ha, h]

variable {q : Nat} {j : Job} (hpick : s.xformPick = some (q, j)) (hclean : j.poison = false)
include hpick hclean

theorem exec_xformJobComplete_invalid (h : xformValid j.desc = false) : exec .xformJobComplete s =
    .next ((s.setXformQueue q ((s.xformQueue q).drop 1)).xformEnd j (0x200 + q) stRange 0) := by
  simp only [exec, execXformJobComplete, s.live_run _ ha, hpick, hclean, h, Bool.not_false, Bool.and_false, Bool.false_and,
    Bool.false_eq_true, if_false, if_true]

theorem exec_xformJobComplete_waits (h : xformValid j.desc = true) (hwaits : s.xformWaits j.desc = true) :
    exec .xformJobComplete s = .next s := by
  simp only [exec, execXformJobComplete, s.live_run _ ha, hpick, hclean, h, hwaits, Bool.not_false, Bool.and_self, if_true]

theorem exec_xformJobComplete_done (h : xformValid j.desc = true) (hwaits : s.xformWaits j.desc = false) :
    exec .xformJobComplete s = .next
      (((s.setXformQueue q ((s.xformQueue q).drop 1)).xformRun j.desc).2.xformEnd j (0x200 + q) stDone
        ((s.setXformQueue q ((s.xformQueue q).drop 1)).xformRun j.desc).1) := by
  simp only [exec, execXformJobComplete, s.live_run _ ha, hpick, hclean, h, hwaits, Bool.not_false, Bool.not_true,
    Bool.and_false, Bool.false_eq_true, if_false]

end

/-- A job that ends leaves the queues as they are, with its transform made. -/
theorem State.xformQueue_xformEnd (s : State) (d : List Byte) (j : Job) (unit status sats p : Nat) :
    ((s.xformRun d).2.xformEnd j unit status sats).xformQueue p = s.xformQueue p :=
  State.xformQueue_congr ((State.xformEnd_rad ..).trans (s.xformRun_rad d)) p

/-! ### RAD_TAPS (R292) -/

/-- n taps from tap a on set. -/
def setTaps (taps : List (Nat × BitVec 32)) (a n : Nat) (f : Nat → BitVec 32) : List (Nat × BitVec 32) :=
  (List.range n).foldl (fun t k => Sparse.set (fun _ => (0 : BitVec 32)) t (a + k) (f k)) taps

theorem get_setTaps (taps : List (Nat × BitVec 32)) (a n : Nat) (f : Nat → BitVec 32) (i : Nat) :
    Sparse.get (fun _ => (0 : BitVec 32)) (setTaps taps a n f) i =
      if a ≤ i ∧ i < a + n then f (i - a) else Sparse.get (fun _ => 0) taps i := by
  induction n with
  | zero => exact (if_neg (by omega)).symm
  | succ n ih =>
    have hset : setTaps taps a (n + 1) f = Sparse.set (fun _ => 0) (setTaps taps a n f) (a + n) (f n) := by
      rw [setTaps, List.range_succ, List.foldl_append, List.foldl_cons, List.foldl_nil, setTaps]
    rw [hset, Sparse.get_set, ih]
    by_cases hi : i = a + n
    · subst hi
      rw [if_pos rfl, if_pos (by omega), Nat.add_sub_cancel_left]
    · rw [if_neg hi]
      exact ite_congr (propext (by omega)) (fun _ => rfl) fun _ => rfl

/-- Part of what is read of host memory is what is read there. -/
theorem State.slice_hostRead (s : State) (p a : Nat) {i m n : Nat} (h : i + m ≤ n) :
    slice (s.hostRead p a n) i m = s.hostRead p (a + i) m := by
  have hlen (b k : Nat) : (s.hostRead p b k).length = k := by rw [State.hostRead, List.length_map, List.length_range]
  have hpart : ((s.hostRead p a n).drop i).take m = s.hostRead p (a + i) m := by
    refine List.ext_getElem ?_ fun k h1 h2 => ?_
    · rw [List.length_take, List.length_drop, hlen, hlen]
      omega
    · simp only [State.hostRead, List.getElem_take, List.getElem_drop, List.getElem_map, List.getElem_range, Nat.add_assoc]
  rw [slice, hpart, hlen, Nat.sub_self, List.replicate_zero, List.append_nil]

theorem State.plain_hostBytes (s : State) (p a n : Nat) : plain (s.hostBytes p a n) = s.hostRead p a n := by
  refine List.ext_getElem ?_ fun k h1 h2 => ?_
  · rw [plain, State.hostBytes, List.length_map, List.length_mapIdx]
  · simp only [plain, State.hostBytes, List.getElem_map, List.getElem_mapIdx]

/-- A profile has a tap from a on and below b. -/
def Profile.hasTapIn (a b : Nat) (p : Profile) : Bool := decide (p.base < b) && decide (a < p.base + p.taps)

theorem State.tapsBusy_eq (s : State) (a b : Nat) : s.tapsBusy a b = (List.range 64).any fun r =>
    (s.rdb F.RAD_RX_CFG.EN r && (List.range (s.rd F.RAD_RX_CFG.HYPS r)).any fun h => (s.rxProfile r h).hasTapIn a b) ||
      (s.rdb F.RAD_TX_CFG.EN r && (s.txProfile r).hasTapIn a b) := rfl

/-- Acceptance of a command moves no tap range. -/
theorem State.accept_tapsBusy (s : State) (ref : CmdRef) (op a b : Nat) :
    (s.accept ref op).tapsBusy a b = s.tapsBusy a b := by
  have hrd (f : Field) (i j : Nat) (h : 0x40000 ≤ f.base) : (s.accept ref op).rd f i j = s.rd f i j :=
    s.accept_rd ref op (by rw [Field.off]; omega)
  simp (disch := decide) only [State.tapsBusy_eq, State.rxProfile, State.txProfile, State.rdb, hrd]

/-- The taps from tap a on are set from n words of port p's host memory. -/
def State.tapsFromHost (s : State) (p addr a n : Nat) : State :=
  let l := plain (s.hostBytes p addr (4 * n))
  s.setRad { s.rad with taps := setTaps s.rad.taps a n fun k => BitVec.ofNat 32 (fieldAt l (4 * k) 4) }

theorem State.tapsFromHost_tap (s : State) (p addr a n i : Nat) :
    Sparse.get (fun _ => (0 : BitVec 32)) (s.tapsFromHost p addr a n).rad.taps i =
      if a ≤ i ∧ i < a + n then BitVec.ofNat 32 (leNat (s.hostRead p (addr + 4 * (i - a)) 4))
      else Sparse.get (fun _ => 0) s.rad.taps i := by
  rw [State.tapsFromHost, State.setRad_rad, get_setTaps]
  split
  next hi => rw [State.plain_hostBytes, fieldAt, s.slice_hostRead p addr (by omega)]
  next => rfl

section
variable {s : State} {ref : CmdRef} {device : BitVec 8} {first count : BitVec 16} (addr : BitVec 64)
  (ht : s.takes ref 0x0802) (hdev : device.toNat ≤ 1) (hrange : first.toNat + count.toNat ≤ 4096)
include ht hdev hrange

theorem exec_radTaps_busy (h : s.tapsBusy first.toNat (first.toNat + count.toNat) = true) :
    exec (.radTaps ref device first count addr) s = .next ((s.accept ref 0x0802).complete ref stBusy) := by
  have hin : ¬ (1 < device.toNat ∨ 4096 < first.toNat + count.toNat) := by omega
  simp only [exec, execRadTaps, s.command_run _ _ _ ht, if_neg hin, State.accept_tapsBusy, h, if_true]

variable (h : s.tapsBusy first.toNat (first.toNat + count.toNat) = false) (hhost : device = 0)
include h hhost

theorem exec_radTaps_down (hup : s.portUp (s.cmdPort ref) = false) :
    exec (.radTaps ref device first count addr) s = .next ((s.accept ref 0x0802).complete ref stIncomplete) := by
  have hin : ¬ (1 < device.toNat ∨ 4096 < first.toNat + count.toNat) := by omega
  simp only [exec, execRadTaps, s.command_run _ _ _ ht, if_neg hin, State.accept_tapsBusy, h, State.accept_cmdPort,
    State.accept_portUp, hup, Bool.false_eq_true, if_false, Bool.not_false, and_true, if_pos hhost]

theorem exec_radTaps_host (hup : s.portUp (s.cmdPort ref) = true) : exec (.radTaps ref device first count addr) s = .next
    (((s.accept ref 0x0802).tapsFromHost (s.cmdPort ref) addr.toNat first.toNat count.toNat).complete ref stDone) := by
  have hin : ¬ (1 < device.toNat ∨ 4096 < first.toNat + count.toNat) := by omega
  have hne : device ≠ 1 := by rw [hhost]; decide
  simp only [exec, execRadTaps, s.command_run _ _ _ ht, if_neg hin, State.accept_tapsBusy, h, State.accept_cmdPort,
    State.accept_portUp, hup, Bool.false_eq_true, if_false, Bool.not_true, and_false, if_neg hne, State.tapsFromHost,
    setTaps]

/-- The taps named are set from the host's memory, and no other. -/
theorem radTaps_sets (hup : s.portUp (s.cmdPort ref) = true) :
    ∃ t v : State, exec (.radTaps ref device first count addr) s = .next t ∧ t = v.complete ref stDone ∧
      (∀ k, k < count.toNat → Sparse.get (fun _ => (0 : BitVec 32)) v.rad.taps (first.toNat + k) =
        BitVec.ofNat 32 (leNat (s.hostRead (s.cmdPort ref) (addr.toNat + 4 * k) 4))) ∧
      (∀ k, k < first.toNat ∨ first.toNat + count.toNat ≤ k →
        Sparse.get (fun _ => (0 : BitVec 32)) v.rad.taps k = Sparse.get (fun _ => (0 : BitVec 32)) s.rad.taps k) ∧
      v.mem = s.mem ∧ v.events = s.events := by
  refine ⟨_, _, exec_radTaps_host addr ht hdev hrange h hhost hup, rfl, fun k hk => ?_, fun k hk => ?_, ?_, ?_⟩
  · rw [State.tapsFromHost_tap, if_pos (by omega), Nat.add_sub_cancel_left, State.hostRead_congr (s.accept_hostMem ..)]
  · rw [State.tapsFromHost_tap, if_neg (by omega), State.accept_rad]
  · rw [State.tapsFromHost, State.setRad_mem, State.accept_mem]
  · rw [State.tapsFromHost, State.setRad_events, State.accept_events]

end

end Sys2Proof.Machine

open Sys2Proof Sys2Proof.Machine

/-- Settles O50: the search among the heads keeps the earliest deadline of those it has passed, and what a job reads, writes and
submits when it ends is no part of the queues. -/
theorem transformsAndTapsComplete : Obligations.TransformsAndTapsComplete := by
  refine ⟨fun s ref q desc ht => ⟨exec_radXform_range ht desc, exec_radXform_full ht desc, radXform_queues ht desc⟩,
    fun s u core x d hw => ⟨exec_xformJobWindowWrite_full hw rfl, xformJobWindowWrite_queues hw rfl⟩,
    fun s q j hpick => ?_,
    fun s q j ha hpick hclean => ⟨exec_xformJobComplete_invalid ha hpick hclean, exec_xformJobComplete_waits ha hpick hclean,
      fun hvalid hwaits => ?_⟩,
    fun s => exec_xformJobComplete_none,
    fun s ref device first count addr ht hdev hrange => ⟨exec_radTaps_busy addr ht hdev hrange, fun hfree =>
      ⟨exec_radTaps_down addr ht hdev hrange hfree, radTaps_sets addr ht hdev hrange hfree⟩⟩⟩
  · obtain ⟨hmem, hearliest⟩ := State.xformPick_earliest hpick
    obtain ⟨hq, hhead⟩ := State.mem_xformHeads.mp hmem
    exact ⟨hq, hhead, fun p k l hp hk => hearliest p k (State.mem_xformHeads.mpr ⟨hp, l, hk⟩)⟩
  · refine ⟨_, exec_xformJobComplete_done ha hpick hclean hvalid hwaits, rfl, ?_, fun p hp => ?_⟩
    · rw [State.xformQueue_xformEnd, State.xformQueue_setXformQueue, if_pos rfl]
    · rw [State.xformQueue_xformEnd, State.xformQueue_setXformQueue, if_neg hp]
end

section
/-! PROOF. Flits as bytes and their CRC (R371, Table LNK-3). -/

namespace Sys2Proof.Machine

/-! ### The CRC (Table LNK-3) -/

/-- One bit of the CRC register's shift. -/
def crc16Shift (c : BitVec 16) : BitVec 16 := if c.getLsbD 15 then (c <<< 1) ^^^ 0x1021#16 else c <<< 1

theorem crc16Byte_eq (c : BitVec 16) (b : Byte) :
    crc16Byte c b = (List.range 8).foldl (fun c _ => crc16Shift c) (c ^^^ (b.setWidth 16 <<< 8)) := rfl

/-- The lowest bit after a shift is the highest before it. -/
theorem crc16Shift_low (c : BitVec 16) : (crc16Shift c).getLsbD 0 = c.getLsbD 15 := by
  unfold crc16Shift
  cases h : c.getLsbD 15 <;> simp

theorem shiftLeft_one_bit (c : BitVec 16) {i : Nat} (hi : i < 15) : (c <<< 1).getLsbD (i + 1) = c.getLsbD i := by
  rw [BitVec.getLsbD_shiftLeft, decide_eq_true (by omega), decide_eq_false (by omega), Nat.add_sub_cancel]
  rfl

theorem crc16Shift_injective : Function.Injective crc16Shift := by
  intro c d h
  have htop : c.getLsbD 15 = d.getLsbD 15 := by rw [← crc16Shift_low, h, crc16Shift_low]
  have hshift : c <<< 1 = d <<< 1 := by
    unfold crc16Shift at h
    rw [htop] at h
    split at h
    · exact (BitVec.xor_left_inj _).mp h
    · exact h
  refine BitVec.eq_of_getLsbD_eq fun i hi => ?_
  by_cases hi' : i = 15
  · rw [hi', htop]
  · rw [← shiftLeft_one_bit c (by omega), hshift, shiftLeft_one_bit d (by omega)]

theorem foldl_injective {α β : Type} {f : α → β → α} (hf : ∀ b, Function.Injective (f · b)) (l : List β) :
    Function.Injective (l.foldl f) := by
  induction l with
  | nil => exact fun _ _ h => h
  | cons b l ih => exact fun _ _ h => hf b (ih h)

theorem foldl_crc16Shift_injective : Function.Injective ((List.range 8).foldl fun c (_ : Nat) => crc16Shift c) :=
  foldl_injective (fun _ => crc16Shift_injective) _

/-- Registers that differ before a byte differ after it. -/
theorem crc16Byte_injective (b : Byte) : Function.Injective (crc16Byte · b) := fun _ _ h =>
  (BitVec.xor_left_inj _).mp (foldl_crc16Shift_injective h)

/-- Bytes that differ make the register differ. -/
theorem crc16Byte_byte_injective (c : BitVec 16) : Function.Injective (crc16Byte c) := by
  intro a b h
  have hshift : a.setWidth 16 <<< 8 = b.setWidth 16 <<< 8 := (BitVec.xor_right_inj _).mp (foldl_crc16Shift_injective h)
  refine BitVec.eq_of_getLsbD_eq fun i hi => ?_
  have hbit := congrArg (fun x : BitVec 16 => x.getLsbD (i + 8)) hshift
  simpa [BitVec.getLsbD_shiftLeft, BitVec.getLsbD_setWidth, show i < 16 by omega, show i + 8 < 16 by omega, hi] using hbit

theorem flitCrc_inj (l : List Byte) (a b : Nat) : flitCrc a l = flitCrc b l ↔ a % 128 = b % 128 := by
  refine ⟨fun h => ?_, fun h => by rw [flitCrc, flitCrc, h]⟩
  have hfirst : BitVec.ofNat 8 (a % 128) = BitVec.ofNat 8 (b % 128) :=
    crc16Byte_byte_injective _ (foldl_injective crc16Byte_injective (l.take 62) (BitVec.eq_of_toNat_eq h))
  have hnat := congrArg BitVec.toNat hfirst
  rw [BitVec.toNat_ofNat, BitVec.toNat_ofNat] at hnat
  omega

/-! ### The bytes of a flit -/

theorem slice_exact (l : List Byte) {i n : Nat} (h : i + n ≤ l.length) : slice l i n = (l.drop i).take n := by
  have hlen : ((l.drop i).take n).length = n := by rw [List.length_take, List.length_drop]; omega
  rw [slice, hlen, Nat.sub_self, List.replicate_zero, List.append_nil]

theorem padTo_same {n : Nat} {l : List Byte} (h : l.length = n) : padTo n l = l := by
  rw [padTo, slice_exact _ (by omega), List.drop_zero, List.take_of_length_le (by omega)]

/-- A field between bytes before and after it. -/
theorem slice_middle (a b c : List Byte) {i n : Nat} (hi : a.length = i) (hn : b.length = n) :
    slice (a ++ b ++ c) i n = b := by
  rw [slice_exact _ (by simp only [List.length_append]; omega), List.append_assoc, List.drop_left' hi, List.take_left' hn]

theorem flitCrc_lt (seq : Nat) (l : List Byte) : flitCrc seq l < 2 ^ 16 := BitVec.isLt _

section
variable {f : Flit} (seq : Nat)

theorem Flit.header_lt (htyp : f.typ < 8) (hchan : f.chan < 64) (hsub : f.sub < 64) : f.header < 2 ^ 16 := by
  have hp : b2n f.poison ≤ 1 := by cases f.poison <;> decide
  unfold Flit.header
  omega

/-- The fields of a header are those of the flit. -/
theorem Flit.header_fields (htyp : f.typ < 8) (hchan : f.chan < 64) (hsub : f.sub < 64) :
    bits f.header 15 13 = f.typ ∧ bits f.header 12 7 = f.chan ∧ bit f.header 6 = f.poison ∧ bits f.header 5 0 = f.sub := by
  have hp : b2n f.poison ≤ 1 := by cases f.poison <;> decide
  have hbit : f.header / 2 ^ 6 % 2 = b2n f.poison := by
    unfold Flit.header
    omega
  refine ⟨?_, ?_, ?_, ?_⟩
  · simp only [bits, Flit.header]
    omega
  · simp only [bits, Flit.header]
    omega
  · rw [bit, hbit]
    cases f.poison <;> rfl
  · simp only [bits, Flit.header]
    omega

variable (hdata : f.data.length = 60)
include hdata

theorem Flit.bytes_eq : ∃ crc, f.bytes seq = leBytes 2 f.header ++ f.data ++ leBytes 2 crc ∧
    crc = flitCrc seq (leBytes 2 f.header ++ f.data) :=
  ⟨_, by rw [Flit.bytes, padTo_same hdata], rfl⟩

theorem Flit.bytes_length : (f.bytes seq).length = 64 := by
  obtain ⟨crc, h, -⟩ := Flit.bytes_eq seq hdata
  simp only [h, List.length_append, leBytes_length, hdata]

/-- The CRC of a flit stands in its last two bytes and is that of its bytes. -/
theorem Flit.bytes_crc : fieldAt (f.bytes seq) 62 2 = flitCrc seq (f.bytes seq) := by
  obtain ⟨crc, h, hcrc⟩ := Flit.bytes_eq seq hdata
  have hfirst : (leBytes 2 f.header ++ f.data).length = 62 := by rw [List.length_append, leBytes_length, hdata]
  have hover : flitCrc seq (f.bytes seq) = crc := by
    rw [hcrc, h, flitCrc, flitCrc, List.take_left' hfirst, List.take_of_length_le (by omega)]
  have hfield := slice_middle (leBytes 2 f.header ++ f.data) (leBytes 2 crc) [] hfirst (leBytes_length ..)
  rw [List.append_nil] at hfield
  rw [hover, h, fieldAt, hfield, leNat_leBytes, hcrc]
  exact Nat.mod_eq_of_lt (flitCrc_lt ..)

theorem flitOf_bytes (htyp : f.typ < 8) (hchan : f.chan < 64) (hsub : f.sub < 64) : flitOf (f.bytes seq) = f := by
  obtain ⟨crc, h, -⟩ := Flit.bytes_eq seq hdata
  have hheader : fieldAt (f.bytes seq) 0 2 = f.header := by
    have hfield := slice_middle [] (leBytes 2 f.header) (f.data ++ leBytes 2 crc) (i := 0) rfl (leBytes_length ..)
    rw [List.nil_append, ← List.append_assoc] at hfield
    rw [h, fieldAt, hfield, leNat_leBytes]
    exact Nat.mod_eq_of_lt (Flit.header_lt htyp hchan hsub)
  have hbody : slice (f.bytes seq) 2 60 = f.data := by rw [h, slice_middle _ _ _ (leBytes_length ..) hdata]
  obtain ⟨htyp', hchan', hpoison, hsub'⟩ := Flit.header_fields htyp hchan hsub
  simp only [flitOf, hheader, hbody, htyp', hchan', hpoison, hsub']

end

end Sys2Proof.Machine

open Sys2Proof Sys2Proof.Machine

/-- Settles O54: each step of the CRC register is one to one in the register and in the byte, so the first byte, which is the
sequence number, can be told from the CRC. -/
theorem flitsCarryTheirSequenceNumber : Obligations.FlitsCarryTheirSequenceNumber :=
  ⟨fun _ seq htyp hchan hsub hdata => ⟨Flit.bytes_length seq hdata, flitOf_bytes seq hdata htyp hchan hsub,
    Flit.bytes_crc seq hdata⟩, flitCrc_inj⟩
end

section
/-! PROOF. Steps of the machine: every command answers, a stopped device rests, a closed one keeps its state (R384, R422, R427,
R430, R487). -/

namespace Sys2Proof.Machine

/-! ### A device that hosts do not reach -/

/-- Nothing that a host does reaches the device: it does not run, or it is closed. -/
def State.shut (s : State) : Prop := s.alive = false ∨ s.closed

namespace State.shut

variable {s : State} (h : s.shut)
include h

theorem hostOpen : s.hostOpen = false := by
  rcases h with h | ⟨h, -⟩ <;> simp [State.hostOpen, h]

theorem bar0Open (off : Nat) : s.bar0Open off = false := by
  rcases h with h | ⟨h, -⟩ <;> simp [State.bar0Open, h]

theorem onlyIf_bar0Open (off : Nat) (f : State → State) : s.onlyIf (s.bar0Open off) f = s := by
  rw [h.bar0Open, State.onlyIf_false]

theorem onlyIf_bar0Open_and (off : Nat) (c : Bool) (f : State → State) : s.onlyIf (s.bar0Open off && c) f = s := by
  rw [h.bar0Open, Bool.false_and, State.onlyIf_false]

theorem command (ref : CmdRef) (op : Nat) (f : State → State) : s.command ref op f = s := by
  rcases h with h | ⟨-, h⟩
  · exact s.command_wait _ _ _ (.inl h)
  · exact s.command_wait _ _ _ (.inr (.inl (h ref.ring)))

theorem ringBell (p r v size : Nat) (f : State → State) : s.ringBell p r v size f = s := by
  rw [State.ringBell, h.hostOpen]
  rfl

theorem fetch (r : Nat) (bad : Bool) : s.fetch r bad = s := by
  simp only [State.fetch, h.hostOpen, Bool.not_false, Bool.true_or, if_true]

theorem bar0Read (p off size : Nat) : s.bar0Read p off size = s := by
  rcases h with h | ⟨h, -⟩ <;> simp [State.bar0Read, h]

end State.shut

/-- A host's commands, doorbells and accesses leave a device that they do not reach as it was. -/
theorem exec_hostSide_shut {c : Instr} {s : State} (hc : hostSide c = true) (h : s.shut) : exec c s = .next s := by
  cases c
  case frameDoorbell => simp only [exec, execFrameDoorbell, h.hostOpen, Bool.not_false, if_true]
  case eventRingHeadDoorbell => simp only [exec, execEventRingHeadDoorbell, h.hostOpen, Bool.not_false, if_true]
  case bar4Access => simp only [exec, execBar4Access, h.hostOpen, Bool.not_false, if_true]
  case softwareInterruptDoorbell => simp only [exec, execSoftwareInterruptDoorbell, h.hostOpen, State.onlyIf_false]
  case sqTailDoorbell => exact congrArg _ (h.ringBell ..)
  case cqHeadDoorbell => exact congrArg _ (h.ringBell ..)
  case commandFetchComplete => exact congrArg _ (h.fetch ..)
  case dma => simp only [exec, execDma, h.command, ite_self]
  case elaLlDis =>
    rcases h with h | ⟨h, -⟩ <;> simp [exec, execElaLlDis, h, State.onlyIf]
  case readClearRegister | read64bitLowerWord => exact congrArg _ (h.bar0Read ..)
  case fabRestClr | dspCntClr => exact congrArg _ (h.onlyIf_bar0Open_and ..)
  case registerWrite => simp only [exec, execRegisterWrite, Bool.and_assoc, h.onlyIf_bar0Open_and]
  case clkNmeClear | unfreeze | fabVlibInv | dspCancelReq | decCntClr | capForceRegisterWrite | hstSem | hstSemRel
    | hstSemOwnerTagWrite | ringCfgWrite | ringBaseWrite | eventRingConfigWrite | hstWinWrite | trcCtrlEnWrite =>
    exact congrArg _ (h.onlyIf_bar0Open ..)
  case hostNop | stageWrite | stageClear | check | commit | abort | memKiln | loadGrist | fabStart | fabHalt | fabResume |
    fabFrame | fabRestart | elaLoad | elaRelease | elaHold | cfgFlash | cfgKey | dspSubmit | dspCancel | dspCodeDefine |
    dspPreload | dspFlowReset | radXform | radTaps | radTx | decJob | decTable | capArm | capStop | capForce | capSnap |
    pairFailover | pairJoin | secAttest | secFwUpdate | secSvnAdvance | secFuse | secCoreSecure | secTraceAuth |
    secCertWrite =>
    exact congrArg _ (h.command ..)
  all_goals exact absurd hc Bool.false_ne_true

/-! ### A device that does not run -/

section
variable {s : State} (h : s.alive = false)
include h

theorem State.bundle_stopped (n opc : Nat) (b : Bundle) (op : OpCtx → Fx) : s.bundle n opc b op = s := by
  simp only [State.bundle, State.coreReady, h, Bool.false_and, Bool.not_false, if_true]

theorem State.atBoundary_stopped (n : Nat) : s.atBoundary n = false := by
  simp only [State.atBoundary, h, Bool.false_and]

theorem State.windowTake_stopped (n lo hi size : Nat) : s.windowTake n lo hi size = none := by
  unfold State.windowTake
  split
  · rw [if_neg fun hx => absurd (h.symm.trans hx.1) Bool.false_ne_true]
  · rfl

/-- What only reaches a running device leaves one that is stopped as it was. -/
theorem exec_stopped (c : Instr) (hc : reachesStopped c = false) : exec c s = .next s := by
  cases hh : hostSide c
  case true => exact exec_hostSide_shut hh (.inl h)
  cases c
  case powerOnResetRelease | railLoss | warmReset | hsEarlyNFall | tamperNLow | vbatLoss | heartbeatToggle | hsEarlyNRise =>
    exact absurd hc.symm Bool.false_ne_true
  case idle => rfl
  case coreHalt => simp only [exec, execCoreHalt, State.atBoundary_stopped h, Bool.not_false, Bool.or_true, if_true]
  case interruptEntry =>
    simp only [exec, execInterruptEntry, State.takeInterrupt, State.atBoundary_stopped h, Bool.not_false, if_true]
  case xferExceptionTaken =>
    simp only [exec, execXferExceptionTaken, State.atBoundary_stopped h, Bool.not_false, Bool.true_or, if_true]
  case submissionWindowWrite => simp only [exec, execSubmissionWindowWrite, State.windowTake_stopped h]
  case xformJobWindowWrite => simp only [exec, execXformJobWindowWrite, State.windowTake_stopped h]
  case txJobWindowWrite => simp only [exec, execTxJobWindowWrite, State.windowTake_stopped h]
  case decJobWindowWrite => simp only [exec, execDecJobWindowWrite, State.windowTake_stopped h]
  case opNop => simp only [exec, execOpNop, State.bundle_stopped h, ite_self]
  case opAdd | opAdc | opSub | opSbc | opAnd | opOr | opXor | opAndn | opMin | opMax | opAbs | opNeg | opCmp | opTst |
    opLsl | opLsr | opAsr | opRor | opAdds | opSubs | opAdd2 | opSub2 | opAdds2 | opSubs2 | opAsr2 | opSwaph | opConj |
    opMull | opBtst | opBset | opBclr | opAddi | opCmpi | opAndi | opOri | opXori | opTsti | opLsli | opLsri | opAsri |
    opRori | opBtsti | opBseti | opBclri | opAsr2i | opMovi | opMov | opSrbit | opLdxA | opStxA | opLdyA | opStyA | opQmac
    | opCmac | opWmac | opDmac | opAclr | opAadd | opAsh | opAld | opNorm | opExp | opBexp | opExt16 | opExt32 | opExtp |
    opBr | opBrz | opBrnz | opCall | opJmp | opCallr | opLoopi | opLoopd | opRepi | opRepd | opTrap | opScall | opSret |
    opRti | opWait | opSwi | opGet | opDone | opAlloc | opFree | opXfer | opXwait =>
    exact congrArg _ (State.bundle_stopped h ..)
  case bootComplete | hbmTrainingComplete | deviceReady | crystalStartDelayExpiry | xrefWindowEnd | xrefNoEdgeDetection |
    xtalTimeout | aonPeriodEnd | pllSettled | powerWindowEnd | temperatureTrip | gateApplied | gateTimeout |
    standbyExitComplete | tbPulse | pfwNFall | quiesceTimeout | pinSupplyLost | pinSupplyOk | dcoUnlock | dcoLockAcquired
    | dcoModulationPeriodStart | fabricStep | regionHaltTakesEffect | deferredItemArrival | restTimeout | powerHoldEnd |
    timerTrigger | uutclkEdge | tlqLaunch | commitArmed | commitInstant | kilnComplete | gristFetchComplete |
    gristAuthenticateComplete | gristCheckComplete | gristWriteComplete | gristCalibrateComplete | fabStartStep |
    cfgStreamHeader | cfgFrameRecord | cfgMapRecord | cfgLoadEnd | scpWord | scpIdleTimeout | elaGweAssert |
    elaGsrDeassert | elaContention | spargeFrameSlot | hubSignalInterrupt | elaDoorbell | poolAllocResponse | poolFree |
    transferComplete | pitch | pageLoad | slotTimerFire | domainSlotBoundary | txGroupFetch | xformJobComplete |
    txPacketStart | decJobStart | decJobComplete | capArmInstant | captureSample | segmentClose | memoryAccess |
    trackerWatchExpiry | bankDrainEnd | bankClearingDone | ecsResultsRead | txPllLock | receiverLock | train | ready | ack
    | nak | time | squelch | echo | linkFlitReceive | flitTransmit | gatewayFlushTimeout | ackDueTimeout | replayTimeout |
    lossOfBlockLock | retrainTimeout | burstModeEntry | trainingBurst | idleTimeout | sleepTimeout | linkWake |
    timeSendInterval | messageRingSend | msixCoalesceTimeout | portPerstAssert | linkRecoveryTimeout | functionLevelReset
    | portRestored | semaphoreLossTimeout | heartbeatTimeout | pairTakeover | controlFlitInterval | traceTokenExpiry |
    extest | samplePreload | idcode | highz | clamp | dbg | bypass | jtagTestLogicReset | pairHbInEdge | traceFrame |
    elaClockEdge | flashOperationComplete | fuseProgrammingComplete =>
    exact congrArg _ (s.live_stopped _ h)
  all_goals exact absurd hh Bool.noConfusion

end

/-! ### Idle steps and the queue -/

theorem step_nil {s : State} (hp : s.pending = []) : step s = .next s.idle := by rw [step, hp]

theorem step_cons {s : State} {c : Instr} {rest : List Instr} (hp : s.pending = c :: rest) :
    step s = exec c (s.withPending rest) := by rw [step, hp]

theorem idleStepCountsOneTick_holds : idleStepCountsOneTick := fun s hp => by
  rw [step_nil hp, State.idle]
  exact ⟨fun ha => by rw [if_pos ha], fun ha => by rw [ha]; rfl⟩

theorem State.closed_congr {s t : State} (h : t.regs = s.regs) (hs : s.closed) : t.closed :=
  ⟨(State.rdb_congr h ..).trans hs.1, fun r => (State.rdb_congr h ..).trans (hs.2 r)⟩

theorem closedInvariant_idle {σ s : State} (hs : closedInvariant σ s) : closedInvariant σ s.idle := by
  obtain ⟨hclosed, hhost, heq⟩ := hs
  unfold State.idle
  split
  · exact ⟨State.closed_congr rfl hclosed, hhost, heq⟩
  · exact ⟨hclosed, hhost, heq⟩

/-- Taking a row off the queue changes nothing else. -/
theorem closedInvariant_rest {σ s : State} {c : Instr} {rest : List Instr} (hs : closedInvariant σ s)
    (hp : s.pending = c :: rest) : closedInvariant σ (s.withPending rest) := by
  obtain ⟨hclosed, hhost, heq⟩ := hs
  exact ⟨State.closed_congr rfl hclosed, fun d hd => hhost d (hp ▸ List.mem_cons_of_mem c hd), heq⟩

theorem reset_closed : State.reset.closed := by
  refine ⟨by decide, ?_⟩
  unfold State.ringsOff
  decide

end Sys2Proof.Machine

open Sys2Proof Sys2Proof.Machine

/-- Settles O4: an idle tick moves the timebase alone, and a host's row finds neither an open register nor an enabled ring. -/
theorem closedDeviceKeepsItsState : Obligations.ClosedDeviceKeepsItsState := by
  intro σ s t hs ht
  cases hp : s.pending with
  | nil =>
    rw [step_nil hp] at ht
    cases ht
    exact closedInvariant_idle hs
  | cons c rest =>
    have hrest := closedInvariant_rest hs hp
    have hc : hostSide c = true := hs.2.1 c (hp ▸ List.mem_cons_self)
    rw [step_cons hp, exec_hostSide_shut hc (.inr hrest.1)] at ht
    cases ht
    exact hrest

/-- Settles O5. -/
theorem closedAtReset : Obligations.ClosedAtReset := fun _ hl => ⟨State.closed_congr rfl reset_closed, hl, rfl⟩

/-- Settles O3. -/
theorem idleAndStoppedStepsDoNothingElse : Obligations.IdleAndStoppedStepsDoNothingElse :=
  ⟨idleStepCountsOneTick_holds, fun c _ h hc => exec_stopped h c hc⟩

/-- Settles O1. -/
theorem stepRunsFront : Obligations.StepRunsFront := fun _ _ _ hp => step_cons hp

/-- Settles O2: each command's meaning is a next state. -/
theorem everyCommandAnswers : Obligations.EveryCommandAnswers := fun c s => by
  cases c <;> exact ⟨_, rfl⟩
end

section
/-! PROOF. What the completion of a command leaves of the host plane; staging and CHECK (R390, R391, R397, R401, R402, R406). -/

namespace Sys2Proof.Machine

/-! ### What a completion leaves of the host plane (R390 to R394, R408) -/

/-- The registers that completions write: the quiesced flag, the counts and pointers of the rings, and pending messages. -/
abbrev answersAt (o : Nat) : Prop := o = 0x20000 ∨ (0x21014 ≤ o ∧ o < 0x23000 ∧ 0x14 ≤ o % 32) ∨ (0x38000 ≤ o ∧ o < 0x38020)

/-- The host plane apart from its rings, its outstanding commands and the edge of a freeze. -/
def HostSt.apart (h : HostSt) : HostSt := { h with rings := [], cmds := [], pfwEdge := none }

/-- A view of the machine that completions leave alone. -/
structure AnswerBlind {α : Type} (view : State → α) : Prop where
  reg : ∀ t o v, answersAt o → view (State.wrReg t o v) = view t
  host : ∀ t x, x.apart = t.host.apart → view (State.setHost t x) = view t
  hostMem : ∀ t x, view (State.setHostMem t x) = view t

theorem answerBlind_rd {f : Field} {i j : Nat} (h : ¬ answersAt (f.off i j)) : AnswerBlind fun s => s.rd f i j where
  reg t o v ho := by
    show bits ((t.wrReg o v).rdReg _) _ _ = _
    rw [State.rdReg_wrReg, if_neg fun e : f.off i j = o => h (e ▸ ho), State.rd]
  host _ _ _ := rfl
  hostMem _ _ := rfl

/-- What can be told of the host plane without its rings and commands. -/
theorem answerBlind_host {β : Type} {f : HostSt → β} (hf : ∀ h, f h.apart = f h) : AnswerBlind fun s => f s.host where
  reg _ _ _ _ := rfl
  host t x hx := (hf x).symm.trans ((congrArg f hx).trans (hf t.host))
  hostMem _ _ := rfl

namespace AnswerBlind

variable {α : Type} {view : State → α} (hb : AnswerBlind view) (s : State)
include hb

theorem hostWrite (p a : Nat) (l : List Byte) : view (s.hostWrite p a l) = view s := by
  induction l generalizing s a with
  | nil => rfl
  | cons b bs ih => exact (ih _ _).trans (hb.hostMem ..)

theorem msix {p v : Nat} (hp : p < 2) (hv : v < 128) : view (s.msix p v) = view s := by
  unfold State.msix
  dsimp only
  split
  · refine hb.reg _ _ _ (.inr (.inr ?_))
    simp only [Field.off, F.HST_MSIX_PBA.PEND]
    omega
  · exact hb.hostWrite ..

theorem setRing (r : Nat) (x : RingSt) : view (s.setRing r x) = view s := hb.host _ _ rfl

theorem ringMsg (r : Nat) : view (s.ringMsg r) = view s :=
  (hb.msix _ (bits_lt ..) (bits_lt ..)).trans (hb.setRing ..)

section
variable {r : Nat} (hr : r < 256)
include hr

theorem wrRing {f : Field} (v : Nat) (h : (f.base = 0x21014 ∨ f.base = 0x21018 ∨ f.base = 0x2101c) ∧ f.s1 = 32 ∧ f.s2 = 0) :
    view (s.wr f v r) = view s := by
  obtain ⟨hbase, hs1, hs2⟩ := h
  refine hb.reg _ _ _ (.inr (.inl ?_))
  rw [Field.off, hs1, hs2]
  omega

theorem postCpl (c : Cpl) : view (s.postCpl r c) = view s := by
  have htail (t : State) (v : Nat) : view (t.wr F.HST_RING_CQ.CQ_TAIL v r) = view t := hb.wrRing _ hr _ (by decide)
  unfold State.postCpl
  dsimp only
  repeat' split
  all_goals simp only [hb.setRing, hb.ringMsg, htail, hb.hostWrite]

theorem settle (n : Nat) : view (s.settle r n) = view s := hb.wrRing _ hr _ (by decide)

theorem deliverCpl (c : Cpl) : view (s.deliverCpl r c) = view s := by
  unfold State.deliverCpl
  split
  · exact hb.settle _ hr _
  · split
    · exact (hb.postCpl _ hr _).trans (hb.settle _ hr _)
    · exact (hb.wrRing _ hr _ (by decide)).trans (hb.setRing ..)

end

theorem quiesceIfIdle : view s.quiesceIfIdle = view s := by
  unfold State.quiesceIfIdle
  split
  · exact (hb.reg _ _ _ (.inl rfl)).trans (hb.host _ _ rfl)
  · rfl

theorem complete (ref : CmdRef) (status result : Nat) (flag : Bool) :
    view (s.complete ref status result flag) = view s :=
  (hb.quiesceIfIdle _).trans ((hb.deliverCpl _ ref.ring.isLt _).trans (hb.host _ _ rfl))

theorem accept (ref : CmdRef) (op : Nat) : view (s.accept ref op) = view s := by
  unfold State.accept
  split
  · exact hb.host _ _ rfl
  · exact (hb.wrRing _ ref.ring.isLt _ (by decide)).trans ((hb.setRing ..).trans (hb.host _ _ rfl))

theorem pastPoint (ref : CmdRef) : view (s.pastPoint ref) = view s := hb.host _ _ rfl

end AnswerBlind

theorem State.complete_stage (s : State) (ref : CmdRef) (status result : Nat) :
    (s.complete ref status result).host.stage = s.host.stage := (answerBlind_host fun _ => rfl).complete s ..

theorem State.accept_stage (s : State) (ref : CmdRef) (op : Nat) : (s.accept ref op).host.stage = s.host.stage :=
  (answerBlind_host fun _ => rfl).accept s ..

theorem State.accept_armed (s : State) (ref : CmdRef) (op : Nat) : (s.accept ref op).host.armed = s.host.armed :=
  (answerBlind_host fun _ => rfl).accept s ..

/-! ### The staging set (R401) -/

theorem keys_replaced (l : List (Nat × BitVec 32)) (off : Nat) (v : BitVec 32) :
    (l.map fun x => if x.1 == off then (off, v) else x).map (·.1) = l.map (·.1) := by
  rw [List.map_map]
  refine List.map_congr_left fun x _ => ?_
  by_cases h : x.1 = off <;> simp [h]

theorem lookup_cons_ite (k : Nat) (w : BitVec 32) (l : List (Nat × BitVec 32)) (o : Nat) :
    ((k, w) :: l).lookup o = if o = k then some w else l.lookup o := by
  rw [List.lookup_cons]
  by_cases h : o = k
  · rw [beq_iff_eq.mpr h, if_pos h]
  · rw [beq_eq_false_iff_ne.mpr h, if_neg h]

section
variable (v : BitVec 32) {off : Nat}

theorem lookup_replaced_same {l : List (Nat × BitVec 32)} (h : off ∈ l.map (·.1)) :
    (l.map fun x => if x.1 == off then (off, v) else x).lookup off = some v := by
  induction l with
  | nil => exact absurd h List.not_mem_nil
  | cons x l ih =>
    obtain ⟨k, w⟩ := x
    by_cases hk : k = off
    · simp [hk]
    · have hl : off ∈ l.map (·.1) := (List.mem_cons.mp h).resolve_left (Ne.symm hk)
      simp only [List.map_cons, beq_eq_false_iff_ne.mpr hk, Bool.false_eq_true, if_false, lookup_cons_ite, Ne.symm hk, ih hl]

theorem lookup_replaced_other (l : List (Nat × BitVec 32)) {o : Nat} (ho : o ≠ off) :
    (l.map fun x => if x.1 == off then (off, v) else x).lookup o = l.lookup o := by
  induction l with
  | nil => rfl
  | cons x l ih =>
    obtain ⟨k, w⟩ := x
    by_cases hk : k = off
    · subst hk
      simp only [List.map_cons, beq_self_eq_true, if_true, lookup_cons_ite, ho, if_false, ih]
    · simp only [List.map_cons, beq_eq_false_iff_ne.mpr hk, Bool.false_eq_true, if_false, lookup_cons_ite, ih]

end

theorem lookup_none_of_notMem {l : List (Nat × BitVec 32)} {o : Nat} (h : o ∉ l.map (·.1)) : l.lookup o = none := by
  rw [List.lookup_eq_none_iff]
  exact fun p hp => by
    have hne : o ≠ p.1 := fun e => h (e ▸ List.mem_map_of_mem hp)
    simpa using hne

/-- An entry of a new offset joins at the end. -/
theorem stageAdd_new {l : List (Nat × BitVec 32)} {off : Nat} (v : BitVec 32) (h : off ∉ l.map (·.1)) :
    stageAdd l (off, v) = l ++ [(off, v)] := by
  have hany : (l.any fun x => x.1 == off) = false := by
    rw [List.any_eq_false]
    exact fun x hx e => h ((beq_iff_eq.mp e) ▸ List.mem_map_of_mem hx)
  simp only [stageAdd, hany, Bool.false_eq_true, if_false]

/-- An entry of a staged offset replaces its value. -/
theorem stageAdd_staged {l : List (Nat × BitVec 32)} {off : Nat} (v : BitVec 32) (h : off ∈ l.map (·.1)) :
    stageAdd l (off, v) = l.map fun x => if x.1 == off then (off, v) else x := by
  obtain ⟨x, hx, rfl⟩ := List.mem_map.mp h
  have hany : (l.any fun y => y.1 == x.1) = true := List.any_eq_true.mpr ⟨x, hx, beq_self_eq_true _⟩
  simp only [stageAdd, hany, if_true]

theorem stagingReplacesOrAppends_holds : stagingReplacesOrAppends := by
  intro l off v hnd
  by_cases h : off ∈ l.map (·.1)
  · rw [stageAdd_staged v h]
    refine ⟨?_, ?_, fun o ho => ?_, fun _ => keys_replaced .., fun h' => absurd h h'⟩
    · rwa [keys_replaced]
    · exact lookup_replaced_same v h
    · exact lookup_replaced_other v l ho
  · rw [stageAdd_new v h]
    refine ⟨?_, ?_, fun o ho => ?_, fun h' => absurd h' h, fun _ => rfl⟩
    · rw [List.map_append, List.nodup_append]
      refine ⟨hnd, List.nodup_singleton _, fun a ha b hb e => h ?_⟩
      rw [List.map_singleton, List.mem_singleton] at hb
      have hab : a = off := e.trans hb
      exact hab ▸ ha
    · rw [List.lookup_append, lookup_none_of_notMem h, lookup_cons_ite, if_pos rfl, Option.none_or]
    · rw [List.lookup_append, lookup_cons_ite, if_neg ho, List.lookup_nil, Option.or_none]

/-! ### HOST_NOP, STAGE_CLEAR, STAGE_WRITE (R397, R401) -/

theorem stagingCommandsComplete_holds : stagingCommandsComplete := by
  refine ⟨fun s ref ht => ?_, fun s ref ht ho ha => ?_, fun s ref n es ht ho ha h1 h6 hlen hzero hoff => ?_⟩
  · exact congrArg _ (s.command_run ref _ _ ht)
  · simp only [exec, execStageClear, s.command_run _ _ _ ht, ho, State.accept_armed, ha, Bool.not_true, Bool.false_eq_true,
      if_false, Option.isSome_none]
  · intro l hl
    have hrest : ((es.drop n.toNat).any fun e => e.1 != 0 || e.2 != 0) = false := by
      rw [List.any_eq_false]
      exact fun e he => by rw [hzero e he]; decide
    have hwords : (((es.take n.toNat).map fun e => (e.1.toNat, e.2)).any fun e => e.1 % 4 != 0 || decide (2 ^ 24 ≤ e.1)) =
        false := by
      rw [List.any_eq_false]
      intro e he
      obtain ⟨x, hx, rfl⟩ := List.mem_map.mp he
      obtain ⟨hal, hin⟩ := hoff x hx
      simp only [hal, bne_self_eq_false, Bool.false_or, decide_eq_true_eq]
      omega
    simp only [exec, execStageWrite, s.command_run _ _ _ ht, hrest, ho, State.accept_armed, State.accept_stage, ha, hwords,
      Bool.not_true, Bool.false_eq_true, if_false, Option.isSome_none, or_false]
    have hcount : ¬ (n.toNat < 1 ∨ 6 < n.toNat ∨ es.length < n.toNat ∨ 4096 < l.length) := by omega
    rw [if_neg hcount]

/-! ### CHECK (R402) -/

section
variable {s : State} {ref : CmdRef} (ht : s.takes ref 0x0204) (ho : (s.accept ref 0x0204).ownsStage ref = true)

theorem State.accept_stageSet (ref : CmdRef) (op : Nat) : (s.accept ref op).stageSet = s.stageSet := by
  rw [State.stageSet, State.accept_stage, State.stageSet]

include ht ho

theorem exec_check_passes (hc : (s.accept ref 0x0204).check s.stageSet = none) : exec (.check ref) s =
    .next (((s.accept ref 0x0204).wr F.HST_STG_STATUS.CHECKED 1).complete ref stDone) := by
  simp only [exec, execCheck, s.command_run _ _ _ ht, ho, Bool.not_true, Bool.false_eq_true, if_false,
    State.accept_stageSet, hc, State.showCheck]

theorem exec_check_fails {i c : Nat} (hc : (s.accept ref 0x0204).check s.stageSet = some (i, c)) : exec (.check ref) s =
    .next (((s.accept ref 0x0204).showCheck (some (i, c))).complete ref stCheckFailed (i + c * 2 ^ 16)) := by
  simp only [exec, execCheck, s.command_run _ _ _ ht, ho, Bool.not_true, Bool.false_eq_true, if_false,
    State.accept_stageSet, hc, checkResult]

end

theorem State.complete_rd_staging (s : State) (ref : CmdRef) (status result : Nat) {f : Field} (hf : f.off 0 0 = 0x20600) :
    (s.complete ref status result).rd f = s.rd f :=
  (answerBlind_rd (by rw [hf]; decide)).complete s ..

theorem checkReportsItsFinding_holds : checkReportsItsFinding := by
  intro s ref ht ho
  refine ⟨fun hc => ⟨_, exec_check_passes ht ho hc, rfl, ?_, ?_⟩,
    fun i c hc => ⟨_, _, exec_check_fails ht ho hc, rfl, ?_, ?_, ?_⟩⟩
  · rw [State.complete_rd_staging _ _ _ _ rfl, State.rd_wr_same _ _ _ _ _ ⟨by decide, by decide⟩]
    rfl
  · rw [State.complete_stage, State.wr_host, State.accept_stage]
  · rw [State.complete_rd_staging _ _ _ _ rfl, State.showCheck, State.rd_wr_field _ _ _ _ _ _ _ _ ⟨by decide, by decide⟩ (by decide),
      State.rd_wr_field _ _ _ _ _ _ _ _ ⟨by decide, by decide⟩ (by decide), State.rd_wr_same _ _ _ _ _ ⟨by decide, by decide⟩]
    rfl
  · rw [State.complete_rd_staging _ _ _ _ rfl, State.showCheck, State.rd_wr_field _ _ _ _ _ _ _ _ ⟨by decide, by decide⟩ (by decide),
      State.rd_wr_same _ _ _ _ _ ⟨by decide, by decide⟩]
    rfl
  · rw [State.complete_stage, State.showCheck, State.wr_host, State.wr_host, State.wr_host, State.accept_stage]

end Sys2Proof.Machine

open Sys2Proof Sys2Proof.Machine

/-- Settles O6. -/
theorem stagedSetsAreBuiltAndChecked : Obligations.StagedSetsAreBuiltAndChecked :=
  ⟨stagingCommandsComplete_holds, stagingReplacesOrAppends_holds, checkReportsItsFinding_holds⟩
end

section
/-! PROOF. Completions, written to their queue or held while the port is lost (R390, R391, R406). -/

namespace Sys2Proof.Machine

/-! ### Bytes in host memory -/

theorem hostKey_apart (p a : Nat) {k : Nat} (h0 : 0 < k) (h : k < 2 ^ 64) : hostKey p a ≠ hostKey p (a + k) := by
  unfold hostKey
  omega

theorem State.hostWrite_get_other (s : State) (p a : Nat) (l : List Byte) {key : Nat}
    (h : ∀ k < l.length, key ≠ hostKey p (a + k)) :
    Sparse.get (fun _ => (0 : Byte)) (s.hostWrite p a l).hostMem key = Sparse.get (fun _ => 0) s.hostMem key := by
  induction l generalizing s a with
  | nil => rfl
  | cons b bs ih =>
    unfold State.hostWrite
    rw [ih _ _ fun k hk => by
      rw [Nat.add_assoc, Nat.add_comm 1]
      exact h (k + 1) (Nat.succ_lt_succ hk)]
    exact Sparse.get_set_other _ _ _ (h 0 (Nat.succ_pos _))

theorem State.hostWrite_get (s : State) (p a : Nat) {l : List Byte} (hl : l.length ≤ 2 ^ 64) {i : Nat} (hi : i < l.length) :
    Sparse.get (fun _ => (0 : Byte)) (s.hostWrite p a l).hostMem (hostKey p (a + i)) = l[i] := by
  induction l generalizing s a i with
  | nil => exact absurd hi (Nat.not_lt_zero _)
  | cons b bs ih =>
    rw [List.length_cons] at hl hi
    unfold State.hostWrite
    cases i with
    | zero =>
      rw [State.hostWrite_get_other _ _ _ _ fun k hk => by
        rw [Nat.add_assoc]
        exact hostKey_apart p a (by omega) (by omega)]
      exact Sparse.get_set_same ..
    | succ i =>
      rw [show a + (i + 1) = a + 1 + i by omega]
      exact ih _ _ (by omega) (by omega)

/-- What was written to host memory is read back. -/
theorem State.hostRead_hostWrite (s : State) (p a : Nat) {l : List Byte} (hl : l.length ≤ 2 ^ 64) :
    (s.hostWrite p a l).hostRead p a l.length = l := by
  refine List.ext_getElem (by simp [State.hostRead]) fun i hi hi' => ?_
  simp only [State.hostRead, List.getElem_map, List.getElem_range]
  exact s.hostWrite_get p a hl hi'

theorem Cpl.bytes_length (c : Cpl) (phase : Bool) : (c.bytes phase).length = 16 := by
  simp only [Cpl.bytes, List.length_append, leBytes_length]

/-! ### The completion of a command (R390, R391, R406) -/

/-- The machine after a command has left the outstanding ones. -/
def State.without (s : State) (ref : CmdRef) : State :=
  s.setHost { s.host with cmds := s.host.cmds.filter fun c => !c.is ref }

/-- The completion entry of a command. -/
def cplOf (ref : CmdRef) (status result : Nat) (flag : Bool) : Cpl :=
  ⟨ref.tag.toNat, ref.index.toNat, status, flag, result % 2 ^ 64, ref.noirq⟩

theorem State.quiesceIfIdle_cases (s : State) : s.quiesceIfIdle = s ∨
    s.quiesceIfIdle = (s.setHost { s.host with pfwEdge := none }).wr F.HST_STATUS.QUIESCED 1 := by
  unfold State.quiesceIfIdle
  split
  · exact .inr rfl
  · exact .inl rfl

theorem State.quiesceIfIdle_hostMem (s : State) : s.quiesceIfIdle.hostMem = s.hostMem := by
  rcases s.quiesceIfIdle_cases with h | h <;> rw [h]
  rfl

theorem State.quiesceIfIdle_ring (s : State) (r : Nat) : s.quiesceIfIdle.ring r = s.ring r := by
  rcases s.quiesceIfIdle_cases with h | h <;> rw [h]
  rfl

theorem State.quiesceIfIdle_cmds (s : State) : s.quiesceIfIdle.host.cmds = s.host.cmds := by
  rcases s.quiesceIfIdle_cases with h | h <;> rw [h]
  rfl

theorem State.quiesceIfIdle_rd (s : State) {f : Field} {i j : Nat} (hf : f.off i j ≠ 0x20000) :
    s.quiesceIfIdle.rd f i j = s.rd f i j := by
  rcases s.quiesceIfIdle_cases with h | h <;> rw [h]
  exact State.rd_wr_other _ _ _ _ _ _ _ _ hf

theorem State.without_cmds (s : State) (ref : CmdRef) : ∀ c ∈ (s.without ref).host.cmds, c.is ref = false := fun c hc => by
  have hkept := (List.mem_filter.mp hc).2
  rwa [Bool.not_eq_true'] at hkept

theorem State.ring_setRing (s : State) (r : Nat) (x : RingSt) : (s.setRing r x).ring r = x := Sparse.get_set_same ..

/-- The configuration of a ring stands in other registers than its counts. -/
theorem State.settle_rd (s : State) (r n : Nat) {f : Field} {i j : Nat} (hf : f.off i j ≠ 0x21014 + 32 * r) :
    (s.settle r n).rd f i j = s.rd f i j := State.rd_wr_other _ _ _ _ _ _ _ _ hf

theorem State.settle_rd64 (s : State) (r n : Nat) {f : Field} {i : Nat} (hlo : f.off i 0 ≠ 0x21014 + 32 * r)
    (hhi : f.off i 0 + 4 ≠ 0x21014 + 32 * r) : (s.settle r n).rd64 f i = s.rd64 f i := by
  unfold State.rd64
  rw [State.settle, State.rdReg_wr_other _ _ _ _ _ _ hlo, State.rdReg_wr_other _ _ _ _ _ _ hhi]

section
variable (s : State) (r : Nat) (c : Cpl)

/-- Where the next completion of a ring stands in its queue. -/
def State.nextTail (s : State) (r : Nat) : Nat := (s.rd F.HST_RING_CQ.CQ_TAIL r + 1) % 2 ^ s.rd F.HST_RING_CFG.CQ_SIZE r

/-- An entry that asks for no interrupt is written at the tail, and the tail moves on. -/
theorem State.postCpl_noirq (h : c.noirq = true) : s.postCpl r c = ((s.hostWrite (s.ringPort r)
    (s.rd64 F.HST_CQ_BASE_LO.BASE r + 16 * s.rd F.HST_RING_CQ.CQ_TAIL r) (c.bytes (s.ring r).phase)).wr
      F.HST_RING_CQ.CQ_TAIL (s.nextTail r) r).setRing r
        (if s.nextTail r = 0 then { s.ring r with phase := !(s.ring r).phase } else s.ring r) := by
  simp only [State.postCpl, h, Bool.true_or, if_true]
  rfl

theorem State.postCpl_hostRead (h : c.noirq = true) : (s.postCpl r c).hostRead (s.ringPort r)
    (s.rd64 F.HST_CQ_BASE_LO.BASE r + 16 * s.rd F.HST_RING_CQ.CQ_TAIL r) 16 = c.bytes (s.ring r).phase := by
  have hwritten := s.hostRead_hostWrite (s.ringPort r)
    (s.rd64 F.HST_CQ_BASE_LO.BASE r + 16 * s.rd F.HST_RING_CQ.CQ_TAIL r) (l := c.bytes (s.ring r).phase)
    (by rw [Cpl.bytes_length]; decide)
  rw [Cpl.bytes_length] at hwritten
  rw [State.postCpl_noirq s r c h, State.hostRead_congr (State.setRing_hostMem ..), State.hostRead_congr (State.wr_hostMem ..)]
  exact hwritten

theorem State.nextTail_lt : s.nextTail r < 2 ^ 16 := by
  have hsize : s.rd F.HST_RING_CFG.CQ_SIZE r < 2 ^ 4 := bits_lt ..
  exact Nat.lt_of_lt_of_le (Nat.mod_lt _ (Nat.two_pow_pos _)) (Nat.pow_le_pow_right (by decide) (by omega))

theorem State.postCpl_tail (h : c.noirq = true) : (s.postCpl r c).rd F.HST_RING_CQ.CQ_TAIL r = s.nextTail r := by
  rw [State.postCpl_noirq s r c h, State.rd_congr (State.setRing_regs ..)]
  exact State.rd_wr_lt _ ⟨by decide, by decide⟩ (s.nextTail_lt r)

theorem State.postCpl_phase (h : c.noirq = true) : ((s.postCpl r c).ring r).phase =
    if s.nextTail r = 0 then !(s.ring r).phase else (s.ring r).phase := by
  rw [State.postCpl_noirq s r c h, State.ring_setRing]
  split <;> rfl

theorem State.postCpl_cmds (h : c.noirq = true) : (s.postCpl r c).host.cmds = s.host.cmds := by
  rw [State.postCpl_noirq s r c h]
  rw [State.setRing, State.setHost_host, State.wr_host, State.hostWrite_host]

end

theorem State.complete_eq (s : State) (ref : CmdRef) (status result : Nat) (flag : Bool) :
    s.complete ref status result flag =
      ((s.without ref).deliverCpl ref.ring.toNat (cplOf ref status result flag)).quiesceIfIdle := (rfl)

section
variable {s : State} (ref : CmdRef) (status result : Nat) (flag : Bool)
    (he : s.rdb F.HST_RING_CFG.EN ref.ring.toNat = true)
include he

theorem State.complete_up (hup : s.portUp (s.ringPort ref.ring.toNat) = true) : s.complete ref status result flag =
    (((s.without ref).settle ref.ring.toNat 1).postCpl ref.ring.toNat (cplOf ref status result flag)).quiesceIfIdle := by
  have he' : (s.without ref).rdb F.HST_RING_CFG.EN ref.ring.toNat = true := he
  have hup' : (s.without ref).portUp ((s.without ref).ringPort ref.ring.toNat) = true := hup
  simp only [State.complete_eq, State.deliverCpl, he', hup', Bool.not_true, Bool.false_eq_true, if_false, if_true]

theorem State.complete_lost (hup : s.portUp (s.ringPort ref.ring.toNat) = false) : s.complete ref status result flag =
    (((s.without ref).setRing ref.ring.toNat { s.ring ref.ring.toNat with
      held := (s.ring ref.ring.toNat).held ++ [cplOf ref status result flag] }).wr F.HST_RING_HELD.HELD
        ((s.ring ref.ring.toNat).held.length + 1) ref.ring.toNat).quiesceIfIdle := by
  have he' : (s.without ref).rdb F.HST_RING_CFG.EN ref.ring.toNat = true := he
  have hup' : (s.without ref).portUp ((s.without ref).ringPort ref.ring.toNat) = false := hup
  simp only [State.complete_eq, State.deliverCpl, he', hup', Bool.not_true, Bool.false_eq_true, if_false]
  rfl

end

/-! A command that leaves the outstanding ones leaves its ring's set-up and state as they were. -/

/-- The machine when the completion of a command is about to be written. -/
def State.settled (s : State) (ref : CmdRef) : State := (s.without ref).settle ref.ring.toNat 1

theorem State.without_regs (s : State) (ref : CmdRef) : (s.without ref).regs = s.regs := rfl

section
variable (s : State) (ref : CmdRef)

theorem State.settled_ring (r : Nat) : (s.settled ref).ring r = s.ring r := by
  unfold State.ring State.settled State.settle
  rw [State.wr_host]
  rfl

theorem State.settled_rd {f : Field} (h : f.off ref.ring.toNat 0 ≠ 0x21014 + 32 * ref.ring.toNat) :
    (s.settled ref).rd f ref.ring.toNat = s.rd f ref.ring.toNat :=
  (State.settle_rd _ _ _ h).trans (State.rd_congr (s.without_regs ref) ..)

theorem State.settled_config {f : Field} (h : f.base = 0x21010 ∧ f.s1 = 32 ∧ f.s2 = 0) :
    (s.settled ref).rd f ref.ring.toNat = s.rd f ref.ring.toNat := s.settled_rd ref (by
  obtain ⟨hbase, hs1, hs2⟩ := h
  rw [Field.off, hbase, hs1, hs2]
  omega)

theorem State.settled_tail : (s.settled ref).rd F.HST_RING_CQ.CQ_TAIL ref.ring.toNat = s.rd F.HST_RING_CQ.CQ_TAIL ref.ring.toNat :=
  s.settled_rd ref (by simp only [Field.off, F.HST_RING_CQ.CQ_TAIL]; omega)

theorem State.settled_base :
    (s.settled ref).rd64 F.HST_CQ_BASE_LO.BASE ref.ring.toNat = s.rd64 F.HST_CQ_BASE_LO.BASE ref.ring.toNat := by
  rw [State.settled, State.settle_rd64 _ _ _ (by simp only [Field.off, F.HST_CQ_BASE_LO.BASE]; omega)
    (by simp only [Field.off, F.HST_CQ_BASE_LO.BASE]; omega)]
  simp only [State.rd64, State.rdReg, State.without_regs]

theorem State.settled_port : (s.settled ref).ringPort ref.ring.toNat = s.ringPort ref.ring.toNat :=
  s.settled_config ref (by decide)

theorem State.settled_nextTail : (s.settled ref).nextTail ref.ring.toNat = s.nextTail ref.ring.toNat := by
  rw [State.nextTail, s.settled_tail ref, s.settled_config ref (by decide), State.nextTail]

end

section
variable {s : State} {ref : CmdRef} (status result : Nat) (flag : Bool)
    (he : s.rdb F.HST_RING_CFG.EN ref.ring.toNat = true) (hup : s.portUp (s.ringPort ref.ring.toNat) = true)
    (hn : ref.noirq = true)
include he hup hn

theorem State.complete_hostRead : (s.complete ref status result flag).hostRead (s.ringPort ref.ring.toNat)
    (s.rd64 F.HST_CQ_BASE_LO.BASE ref.ring.toNat + 16 * s.rd F.HST_RING_CQ.CQ_TAIL ref.ring.toNat) 16 =
      (cplOf ref status result flag).bytes (s.ring ref.ring.toNat).phase := by
  have hwritten := (s.settled ref).postCpl_hostRead ref.ring.toNat (cplOf ref status result flag) hn
  rw [s.settled_port, s.settled_base, s.settled_tail, s.settled_ring] at hwritten
  rw [State.complete_up _ _ _ _ he hup, State.hostRead_congr (State.quiesceIfIdle_hostMem _)]
  exact hwritten

theorem State.complete_tail : (s.complete ref status result flag).rd F.HST_RING_CQ.CQ_TAIL ref.ring.toNat =
    s.nextTail ref.ring.toNat := by
  rw [State.complete_up _ _ _ _ he hup, State.quiesceIfIdle_rd _ (by simp only [Field.off, F.HST_RING_CQ.CQ_TAIL]; omega),
    ← s.settled_nextTail ref]
  exact State.postCpl_tail _ _ _ hn

theorem State.complete_phase : ((s.complete ref status result flag).ring ref.ring.toNat).phase =
    if s.nextTail ref.ring.toNat = 0 then !(s.ring ref.ring.toNat).phase else (s.ring ref.ring.toNat).phase := by
  rw [State.complete_up _ _ _ _ he hup, State.quiesceIfIdle_ring, ← s.settled_nextTail ref, ← s.settled_ring ref]
  exact State.postCpl_phase _ _ _ hn

theorem State.complete_cmds : ∀ c ∈ (s.complete ref status result flag).host.cmds, c.is ref = false := by
  rw [State.complete_up _ _ _ _ he hup, State.quiesceIfIdle_cmds, State.postCpl_cmds _ _ _ hn, State.settle, State.wr_host]
  exact s.without_cmds ref

end

theorem completionIsWritten_holds : completionIsWritten := fun s ref status result flag he hup hn => by
  have hread := State.complete_hostRead status result flag he hup hn
  rw [cplOf, hn] at hread
  exact ⟨hread, State.complete_tail status result flag he hup hn, State.complete_phase status result flag he hup hn,
    State.complete_cmds status result flag he hup hn, State.complete_units ..⟩

theorem completionIsHeldWhilePortIsLost_holds : completionIsHeldWhilePortIsLost := by
  intro s ref status result flag r he hup t
  have ht := State.complete_lost ref status result flag he hup
  refine ⟨?_, ?_, State.complete_units ..⟩
  · show ((s.complete ref status result flag).ring r).held = _
    rw [ht, State.quiesceIfIdle_ring]
    exact congrArg RingSt.held (State.ring_setRing ..)
  · show (s.complete ref status result flag).hostMem = _
    rw [ht, State.quiesceIfIdle_hostMem]
    rfl

end Sys2Proof.Machine

open Sys2Proof Sys2Proof.Machine

/-- Settles O9. -/
theorem completionsAreWrittenOrHeld : Obligations.CompletionsAreWrittenOrHeld :=
  ⟨completionIsWritten_holds, completionIsHeldWhilePortIsLost_holds⟩
end

section
/-! PROOF. The hardware semaphores (R399 to R401). -/

namespace Sys2Proof.Machine

/-! ### The registers of the semaphores -/

/-- The registers of semaphore n. -/
abbrev semAt (n o : Nat) : Prop := o = 0x20400 + 8 * n ∨ o = 0x20404 + 8 * n

/-- What semaphore n shows. -/
def State.semWords (n : Nat) (s : State) : Nat × Nat := (s.rdReg (0x20400 + 8 * n), s.rdReg (0x20404 + 8 * n))

theorem semFree_off (n : Nat) : F.HST_SEM.FREE.off n 0 = 0x20400 + 8 * n := by
  rw [Field.off, Nat.mul_zero, Nat.add_zero, F.HST_SEM.FREE]

theorem semOwner_off (n : Nat) : F.HST_SEM_OWNER.OWNER.off n 0 = 0x20404 + 8 * n := by
  rw [Field.off, Nat.mul_zero, Nat.add_zero, F.HST_SEM_OWNER.OWNER]

theorem semTag_off (n : Nat) : F.HST_SEM_OWNER.TAG.off n 0 = 0x20404 + 8 * n := by
  rw [Field.off, Nat.mul_zero, Nat.add_zero, F.HST_SEM_OWNER.TAG]

/-- The fields of a semaphore are those of its words. -/
theorem State.sem_of_words {s t : State} {n : Nat} (h : s.semWords n = t.semWords n) :
    s.rd F.HST_SEM.FREE n = t.rd F.HST_SEM.FREE n ∧ s.rd F.HST_SEM_OWNER.OWNER n = t.rd F.HST_SEM_OWNER.OWNER n ∧
      s.rd F.HST_SEM_OWNER.TAG n = t.rd F.HST_SEM_OWNER.TAG n := by
  obtain ⟨hfree, howner⟩ := Prod.mk.inj h
  simp only [State.rd, semFree_off, semOwner_off, semTag_off, hfree, howner, and_self]

theorem State.semWords_wrReg (s : State) {n o : Nat} (v : Nat) (h : ¬ semAt n o) :
    (s.wrReg o v).semWords n = s.semWords n := by
  unfold State.semWords
  rw [State.rdReg_wrReg, State.rdReg_wrReg, if_neg (by omega), if_neg (by omega)]

theorem State.semWords_setHost (s : State) (n : Nat) (x : HostSt) : (s.setHost x).semWords n = s.semWords n := rfl

theorem answerBlind_semWords {n : Nat} (hn : n < 32) : AnswerBlind (State.semWords n) where
  reg t o v ho := t.semWords_wrReg v (by omega)
  host _ _ _ := rfl
  hostMem _ _ := rfl

/-- A write of a field of another semaphore. -/
theorem State.semWords_wr_other (s : State) {f : Field} {m n : Nat} (v : Nat)
    (hf : (f.base = 0x20400 ∨ f.base = 0x20404) ∧ f.s1 = 8 ∧ f.s2 = 0) (h : n ≠ m) :
    (s.wr f v m).semWords n = s.semWords n := by
  obtain ⟨hbase, hs1, hs2⟩ := hf
  refine s.semWords_wrReg _ ?_
  rw [Field.off, hs1, hs2]
  omega

section
variable (s : State) (n : Nat)

theorem State.free_wr_owner (v : Nat) : (s.wr F.HST_SEM_OWNER.OWNER v n).rd F.HST_SEM.FREE n = s.rd F.HST_SEM.FREE n :=
  s.rd_wr_other _ _ _ _ _ _ _ (by simp only [Field.off, F.HST_SEM.FREE, F.HST_SEM_OWNER.OWNER]; omega)

theorem State.free_wr_tag (v : Nat) : (s.wr F.HST_SEM_OWNER.TAG v n).rd F.HST_SEM.FREE n = s.rd F.HST_SEM.FREE n :=
  s.rd_wr_other _ _ _ _ _ _ _ (by simp only [Field.off, F.HST_SEM.FREE, F.HST_SEM_OWNER.TAG]; omega)

theorem State.free_wr_same (v : Nat) : (s.wr F.HST_SEM.FREE v n).rd F.HST_SEM.FREE n = v % 2 :=
  s.rd_wr_same _ _ _ _ ⟨by decide, by decide⟩

theorem State.owner_wr_same (v : Nat) : (s.wr F.HST_SEM_OWNER.OWNER v n).rd F.HST_SEM_OWNER.OWNER n = v % 4 :=
  s.rd_wr_same _ _ _ _ ⟨by decide, by decide⟩

theorem State.owner_wr_tag (v : Nat) : (s.wr F.HST_SEM_OWNER.TAG v n).rd F.HST_SEM_OWNER.OWNER n = s.rd F.HST_SEM_OWNER.OWNER n :=
  s.rd_wr_field _ _ _ _ _ _ _ ⟨by decide, by decide⟩ (by decide)

theorem State.tag_wr_same (v : Nat) : (s.wr F.HST_SEM_OWNER.TAG v n).rd F.HST_SEM_OWNER.TAG n = v % 2 ^ 16 :=
  s.rd_wr_same _ _ _ _ ⟨by decide, by decide⟩

/-! ### Reading a semaphore (R399) -/

/-- A free semaphore is the reader's alone. -/
theorem State.semRead_free {reader : Nat} (h : s.rd F.HST_SEM.FREE n = 1) (hr : reader < 4) :
    (s.semRead n reader).host.rdata = 1 ∧ (s.semRead n reader).rd F.HST_SEM.FREE n = 0 ∧
      (s.semRead n reader).rd F.HST_SEM_OWNER.OWNER n = reader ∧
      (∀ m, m ≠ n → (s.semRead n reader).semWords m = s.semWords m) ∧ (s.semRead n reader).units = s.units := by
  have hread : s.semRead n reader = ((s.setHost { s.host with rdata := 1, rpoison := false }).wr F.HST_SEM.FREE 0 n).wr
      F.HST_SEM_OWNER.OWNER reader n := by
    simp only [State.semRead, h, beq_self_eq_true, State.onlyIf_true]
  rw [hread]
  refine ⟨by rw [State.wr_host, State.wr_host, State.setHost_host], ?_, ?_, fun m hm => ?_,
    by rw [State.wr_units, State.wr_units, State.setHost_units]⟩
  · rw [State.free_wr_owner, State.free_wr_same]
  · rw [State.owner_wr_same, Nat.mod_eq_of_lt hr]
  · rw [State.semWords_wr_other _ _ (by decide) hm, State.semWords_wr_other _ _ (by decide) hm, State.semWords_setHost]

/-- A semaphore that is taken reads 0 and stays as it is. -/
theorem State.semRead_taken (reader : Nat) (h : s.rd F.HST_SEM.FREE n = 0) :
    s.semRead n reader = s.setHost { s.host with rdata := 0, rpoison := false } := by
  simp only [State.semRead, h, show ((0 : Nat) == 1) = false from rfl, State.onlyIf_false]

/-! ### Releasing a semaphore (R399 to R401) -/

theorem State.dropStage_semWords (hn : n < 32) : s.dropStage.semWords n = s.semWords n := by
  have hb := answerBlind_semWords hn
  have hpast : s.commitPast.semWords n = s.semWords n := by
    unfold State.commitPast
    split
    · split
      · exact State.onlyIf_keeps _ _ fun t => hb.pastPoint t _
      · rfl
    · rfl
  have hreg (t : State) {f : Field} (v : Nat) (hf : f.off 0 0 = 0x20600 ∨ f.off 0 0 = 0x20604) :
      (t.wr f v).semWords n = t.semWords n := t.semWords_wrReg _ (by omega)
  have hempty : (((s.commitPast.setHost { s.commitPast.host with stage := [] }).wr F.HST_STG_COUNT.ENTRIES 0).wr
      F.HST_STG_STATUS.CHECKED 0).semWords n = s.semWords n := by
    rw [hreg _ _ (.inl rfl), hreg _ _ (.inr rfl), State.semWords_setHost, hpast]
  unfold State.dropStage
  dsimp only
  split
  · split
    · exact hempty
    · rw [hb.complete, hreg _ _ (.inl rfl), State.semWords_setHost, hempty]
  · exact hempty

/-- The registers of a released semaphore. -/
def State.semFreed (s : State) (n : Nat) : State :=
  ((s.wr F.HST_SEM.FREE 1 n).wr F.HST_SEM_OWNER.OWNER 0 n).wr F.HST_SEM_OWNER.TAG 0 n

theorem State.semRelease_eq : s.semRelease n = (s.semFreed n).onlyIf (n == 0) State.dropStage := rfl

theorem State.semFreed_follows : (s.semFreed n).rd F.HST_SEM.FREE n = 1 ∧ (s.semFreed n).rd F.HST_SEM_OWNER.OWNER n = 0 ∧
    (s.semFreed n).rd F.HST_SEM_OWNER.TAG n = 0 := by
  unfold State.semFreed
  exact ⟨by rw [State.free_wr_tag, State.free_wr_owner, State.free_wr_same], by rw [State.owner_wr_tag, State.owner_wr_same],
    by rw [State.tag_wr_same, Nat.zero_mod]⟩

theorem State.semRelease_words {m : Nat} (hm : m < 32) : (s.semRelease n).semWords m = (s.semFreed n).semWords m :=
  State.onlyIf_keeps _ _ fun t => t.dropStage_semWords m hm

/-- A released semaphore has no owner and no TAG. -/
theorem State.semRelease_follows (hn : n < 32) : (s.semRelease n).rd F.HST_SEM.FREE n = 1 ∧
    (s.semRelease n).rd F.HST_SEM_OWNER.OWNER n = 0 ∧ (s.semRelease n).rd F.HST_SEM_OWNER.TAG n = 0 := by
  obtain ⟨hfree, howner, htag⟩ := State.sem_of_words (s.semRelease_words n hn)
  obtain ⟨hfree', howner', htag'⟩ := s.semFreed_follows n
  exact ⟨hfree.trans hfree', howner.trans howner', htag.trans htag'⟩

theorem State.semRelease_other {m : Nat} (hm : m < 32) (h : m ≠ n) : (s.semRelease n).semWords m = s.semWords m := by
  rw [State.semRelease_words _ _ hm, State.semFreed, State.semWords_wr_other _ _ (by decide) h,
    State.semWords_wr_other _ _ (by decide) h, State.semWords_wr_other _ _ (by decide) h]

/-- A release of semaphore 0 with no COMMIT armed empties the staging set. -/
theorem State.semRelease_zero (h : s.host.armed = none) : (s.semRelease 0).host.stage = [] ∧
    (s.semRelease 0).rd F.HST_STG_COUNT.ENTRIES = 0 := by
  have hfreed : (s.semFreed 0).host.armed = none := by rw [State.semFreed, State.wr_host, State.wr_host, State.wr_host, h]
  have hdrop : s.semRelease 0 = (((s.semFreed 0).setHost { (s.semFreed 0).host with stage := [] }).wr
      F.HST_STG_COUNT.ENTRIES 0).wr F.HST_STG_STATUS.CHECKED 0 := by
    rw [State.semRelease_eq, show ((0 : Nat) == 0) = true from rfl, State.onlyIf_true]
    simp only [State.dropStage, State.commitPast, hfreed, State.wr_host, State.setHost_host]
  rw [hdrop]
  refine ⟨by rw [State.wr_host, State.wr_host, State.setHost_host], ?_⟩
  rw [State.rd_wr_other _ _ _ _ _ _ _ _ (by decide), State.rd_wr_same _ _ _ _ _ ⟨by decide, by decide⟩]
  rfl

/-! ### Release by force (R400) -/

theorem semAt_not_evtOffset {n o : Nat} (hn : n < 32) (h : semAt n o) : o ∉ evtOffsets := by
  have apart : ∀ e ∈ evtOffsets, e < 0x20400 ∨ 0x20500 ≤ e := by decide
  exact fun hm => by
    have := apart o hm
    omega

theorem State.event_semWords (code sev source pay : Nat) (nme : Bool) (hn : n < 32) :
    (s.event code sev source pay nme).semWords n = s.semWords n := by
  unfold State.semWords
  rw [s.event_rdReg (semAt_not_evtOffset hn (.inl rfl)), s.event_rdReg (semAt_not_evtOffset hn (.inr rfl))]

theorem State.semForce_other {m : Nat} (hm : m < 32) (h : m ≠ n) : (s.semForce n).semWords m = s.semWords m := by
  rw [State.semForce, State.semRelease_other _ _ hm h, State.event_semWords _ _ _ _ _ _ _ hm]

/-- One turn of the forced release of a port's semaphores. -/
def State.semForceOne (p : Nat) (s : State) (n : Nat) : State :=
  s.onlyIf (s.rd F.HST_SEM_OWNER.OWNER n == p + 1) fun s => s.semForce n

theorem State.semForceOne_other (p : Nat) {m : Nat} (hm : m < 32) (h : m ≠ n) :
    (s.semForceOne p n).semWords m = s.semWords m := State.onlyIf_keeps _ _ fun t => t.semForce_other n hm h

theorem State.semForceOne_each_other (p : Nat) {m : Nat} (hm : m < 32) {l : List Nat} (h : m ∉ l) :
    (s.each l (State.semForceOne p)).semWords m = s.semWords m :=
  State.each_keeps_of_mem _ _ fun t b hb => t.semForceOne_other b p hm fun e => h (e ▸ hb)

/-- What a port owned is free, and nothing else has changed. -/
theorem State.semForcePort_words (p : Nat) {m : Nat} (hm : m < 32) :
    ∃ u : State, u.semWords m = s.semWords m ∧ (s.semForcePort p).semWords m = (u.semForceOne p m).semWords m := by
  obtain ⟨l, l', hsplit⟩ := List.append_of_mem (List.mem_range.mpr hm)
  have hnd : (m :: (l ++ l')).Nodup := List.nodup_middle.mp (hsplit ▸ List.nodup_range)
  have hnot : m ∉ l ++ l' := (List.nodup_cons.mp hnd).1
  rw [List.mem_append, not_or] at hnot
  refine ⟨s.each l (State.semForceOne p), s.semForceOne_each_other p hm hnot.1, ?_⟩
  show (s.each (List.range 32) (State.semForceOne p)).semWords m = _
  rw [hsplit, State.each, List.foldl_append, List.foldl_cons]
  exact State.semForceOne_each_other _ p hm hnot.2

end

/-! ### The commands (R399, R400) -/

section
variable {s : State} {p : Port} {n : BitVec 5} {v : BitVec 32}

theorem portNat_lt (p : Port) : portNat p < 2 := by cases p <;> decide

theorem exec_hstSem (ho : s.bar0Open 0x20400 = true) (both : Bool) : exec (.hstSem p both n) s = .next
    (if both then (s.semRead n.toNat 1).semRead n.toNat 2 else s.semRead n.toNat (portNat p + 1)) := by
  simp only [exec, execHstSem, ho, State.onlyIf_true]

theorem hstSem_grants (ho : s.bar0Open 0x20400 = true) (hf : s.rd F.HST_SEM.FREE n.toNat = 1) :
    ∃ t, exec (.hstSem p false n) s = .next t ∧ t.host.rdata = 1 ∧ t.rd F.HST_SEM.FREE n.toNat = 0 ∧
      t.rd F.HST_SEM_OWNER.OWNER n.toNat = portNat p + 1 ∧
      (∀ m : BitVec 5, m ≠ n → t.rd F.HST_SEM.FREE m.toNat = s.rd F.HST_SEM.FREE m.toNat ∧
        t.rd F.HST_SEM_OWNER.OWNER m.toNat = s.rd F.HST_SEM_OWNER.OWNER m.toNat) ∧ t.units = s.units := by
  have hp := portNat_lt p
  obtain ⟨hrdata, hfree, howner, hother, hunits⟩ := s.semRead_free n.toNat hf (reader := portNat p + 1) (by omega)
  refine ⟨_, exec_hstSem ho false, hrdata, hfree, howner, fun m hm => ?_, hunits⟩
  obtain ⟨hfree', howner', -⟩ := State.sem_of_words (hother m.toNat fun e => hm (BitVec.eq_of_toNat_eq e))
  exact ⟨hfree', howner'⟩

/-- Of two ports that read in one cycle the first is granted the semaphore. -/
theorem hstSem_grants_first (ho : s.bar0Open 0x20400 = true) (hf : s.rd F.HST_SEM.FREE n.toNat = 1) :
    ∃ t, exec (.hstSem p true n) s = .next t ∧ t.rd F.HST_SEM.FREE n.toNat = 0 ∧
      t.rd F.HST_SEM_OWNER.OWNER n.toNat = 1 ∧ t.host.rdata = 0 := by
  obtain ⟨-, hfree, howner, -, -⟩ := s.semRead_free n.toNat hf (reader := 1) (by decide)
  refine ⟨_, exec_hstSem ho true, ?_⟩
  rw [if_pos rfl, State.semRead_taken _ _ _ hfree]
  exact ⟨hfree, howner, rfl⟩

theorem hstSem_taken (ho : s.bar0Open 0x20400 = true) (hf : s.rd F.HST_SEM.FREE n.toNat = 0) :
    ∃ t, exec (.hstSem p false n) s = .next t ∧ t.host.rdata = 0 ∧ t.regs = s.regs ∧ t.units = s.units := by
  refine ⟨_, exec_hstSem ho false, ?_⟩
  rw [if_neg Bool.false_ne_true, State.semRead_taken _ _ _ hf]
  exact ⟨rfl, rfl, rfl⟩

theorem exec_hstSemRel (ho : s.bar0Open 0x20500 = true) (hv : v.getLsbD 0 = true) : exec (.hstSemRel p n v) s = .next
    (if s.rd F.HST_SEM_OWNER.OWNER n.toNat == portNat p + 1 then s.semRelease n.toNat
      else s.sat F.HST_PORT_ERR.SEM_BAD (portNat p)) := by
  simp only [exec, execHstSemRel, ho, State.onlyIf_true, State.semRelWrite, bit_toNat, hv, Bool.not_true, Bool.false_eq_true,
    if_false]

theorem hstSemRel_owner (ho : s.bar0Open 0x20500 = true) (hv : v.getLsbD 0 = true)
    (hown : s.rd F.HST_SEM_OWNER.OWNER n.toNat = portNat p + 1) : ∃ t, exec (.hstSemRel p n v) s = .next t ∧
      (n ≠ 0 → t.rd F.HST_SEM.FREE n.toNat = 1 ∧ t.rd F.HST_SEM_OWNER.OWNER n.toNat = 0 ∧
        t.rd F.HST_SEM_OWNER.TAG n.toNat = 0 ∧ t.host = s.host ∧ t.units = s.units) ∧
      (n = 0 → s.host.armed = none → t.rd F.HST_SEM.FREE 0 = 1 ∧ t.rd F.HST_SEM_OWNER.OWNER 0 = 0 ∧
        t.host.stage = [] ∧ t.rd F.HST_STG_COUNT.ENTRIES = 0) := by
  obtain ⟨hfree, howner, htag⟩ := s.semRelease_follows n.toNat n.isLt
  refine ⟨_, (exec_hstSemRel ho hv).trans (by rw [beq_iff_eq.mpr hown, if_pos rfl]), fun hn => ⟨hfree, howner, htag, ?_, ?_⟩,
    fun hn harmed => ?_⟩
  · have hne : (n.toNat == 0) = false := beq_eq_false_iff_ne.mpr fun e => hn (BitVec.eq_of_toNat_eq e)
    rw [State.semRelease_eq, hne, State.onlyIf_false, State.semFreed, State.wr_host, State.wr_host, State.wr_host]
  · have hne : (n.toNat == 0) = false := beq_eq_false_iff_ne.mpr fun e => hn (BitVec.eq_of_toNat_eq e)
    rw [State.semRelease_eq, hne, State.onlyIf_false, State.semFreed, State.wr_units, State.wr_units, State.wr_units]
  · subst hn
    exact ⟨hfree, howner, s.semRelease_zero harmed⟩

theorem hstSemRel_other (ho : s.bar0Open 0x20500 = true) (hv : v.getLsbD 0 = true)
    (hown : s.rd F.HST_SEM_OWNER.OWNER n.toNat ≠ portNat p + 1) : ∃ t, exec (.hstSemRel p n v) s = .next t ∧
      t.rd F.HST_PORT_ERR.SEM_BAD (portNat p) = min (2 ^ 16 - 1) (s.rd F.HST_PORT_ERR.SEM_BAD (portNat p) + 1) ∧
      t.rd F.HST_SEM.FREE n.toNat = s.rd F.HST_SEM.FREE n.toNat ∧
      t.rd F.HST_SEM_OWNER.OWNER n.toNat = s.rd F.HST_SEM_OWNER.OWNER n.toNat ∧ t.host = s.host ∧ t.units = s.units := by
  have hp := portNat_lt p
  have hwords : (s.sat F.HST_PORT_ERR.SEM_BAD (portNat p)).semWords n.toNat = s.semWords n.toNat :=
    s.semWords_wrReg _ (by simp only [Field.off, F.HST_PORT_ERR.SEM_BAD]; omega)
  obtain ⟨hfree, howner, -⟩ := State.sem_of_words hwords
  refine ⟨_, (exec_hstSemRel ho hv).trans (by rw [beq_eq_false_iff_ne.mpr hown, if_neg Bool.false_ne_true]), ?_, hfree, howner,
    State.sat_host .., State.sat_units ..⟩
  rw [State.sat, satAdd_eq_min]
  exact State.rd_wr_lt _ ⟨by decide, by decide⟩ (Nat.lt_of_le_of_lt (Nat.min_le_left _ _) (by decide))

theorem hstSemRel_zero (hv : v.getLsbD 0 = false) : exec (.hstSemRel p n v) s = .next s := by
  simp only [exec, execHstSemRel, State.semRelWrite, bit_toNat, hv, Bool.not_false, if_true]
  exact congrArg _ (State.onlyIf_keeps (view := id) _ _ fun _ => rfl)

theorem exec_hstSemOwnerTagWrite (ho : s.bar0Open 0x20404 = true) : exec (.hstSemOwnerTagWrite p n v) s = .next
    (s.onlyIf (s.rd F.HST_SEM_OWNER.OWNER n.toNat == portNat p + 1) fun s => s.wr F.HST_SEM_OWNER.TAG v.toNat n.toNat) := by
  simp only [exec, execHstSemOwnerTagWrite, ho, State.onlyIf_true, State.semTagWrite]

theorem hstSemOwnerTagWrite_owner (ho : s.bar0Open 0x20404 = true)
    (hown : s.rd F.HST_SEM_OWNER.OWNER n.toNat = portNat p + 1) : ∃ t, exec (.hstSemOwnerTagWrite p n v) s = .next t ∧
      t.rd F.HST_SEM_OWNER.TAG n.toNat = v.toNat % 2 ^ 16 ∧
      t.rd F.HST_SEM_OWNER.OWNER n.toNat = s.rd F.HST_SEM_OWNER.OWNER n.toNat ∧ t.host = s.host ∧ t.units = s.units :=
  ⟨_, (exec_hstSemOwnerTagWrite ho).trans (by rw [beq_iff_eq.mpr hown, State.onlyIf_true]), State.tag_wr_same ..,
    State.owner_wr_tag .., State.wr_host .., State.wr_units ..⟩

theorem hstSemOwnerTagWrite_other (ho : s.bar0Open 0x20404 = true)
    (hown : s.rd F.HST_SEM_OWNER.OWNER n.toNat ≠ portNat p + 1) : exec (.hstSemOwnerTagWrite p n v) s = .next s := by
  rw [exec_hstSemOwnerTagWrite ho, beq_eq_false_iff_ne.mpr hown, State.onlyIf_false]

/-- Of the semaphores, those that a port owned are free when its loss has lasted 1 ms, and no other changes. -/
theorem semaphoreLossTimeout_frees {t0 : Nat} (ha : s.alive = true)
    (hlost : Sparse.find s.host.lostAt (portNat p) = some t0) (hdue : t0 + 1000000 ≤ s.now) :
    ∃ t, exec (.semaphoreLossTimeout p) s = .next t ∧ ∀ n : BitVec 5,
      (s.rd F.HST_SEM_OWNER.OWNER n.toNat = portNat p + 1 → t.rd F.HST_SEM.FREE n.toNat = 1 ∧
        t.rd F.HST_SEM_OWNER.OWNER n.toNat = 0 ∧ t.rd F.HST_SEM_OWNER.TAG n.toNat = 0) ∧
      (s.rd F.HST_SEM_OWNER.OWNER n.toNat ≠ portNat p + 1 → t.rd F.HST_SEM.FREE n.toNat = s.rd F.HST_SEM.FREE n.toNat ∧
        t.rd F.HST_SEM_OWNER.OWNER n.toNat = s.rd F.HST_SEM_OWNER.OWNER n.toNat ∧
        t.rd F.HST_SEM_OWNER.TAG n.toNat = s.rd F.HST_SEM_OWNER.TAG n.toNat) := by
  have hexec : exec (.semaphoreLossTimeout p) s = .next
      ((s.setHost { s.host with lostAt := Sparse.erase s.host.lostAt (portNat p) }).semForcePort (portNat p)) := by
    simp only [exec, execSemaphoreLossTimeout, s.live_run _ ha, hlost, decide_eq_true hdue, State.onlyIf_true]
  refine ⟨_, hexec, fun n => ?_⟩
  obtain ⟨u, hu, hwords⟩ := State.semForcePort_words
    (s.setHost { s.host with lostAt := Sparse.erase s.host.lostAt (portNat p) }) (portNat p) n.isLt
  rw [State.semWords_setHost] at hu
  obtain ⟨hfree, howner, htag⟩ := State.sem_of_words hwords
  obtain ⟨-, howner', -⟩ := State.sem_of_words hu
  rw [hfree, howner, htag]
  refine ⟨fun hown => ?_, fun hown => ?_⟩
  · rw [State.semForceOne, howner', beq_iff_eq.mpr hown, State.onlyIf_true, State.semForce]
    exact State.semRelease_follows _ _ n.isLt
  · rw [State.semForceOne, howner', beq_eq_false_iff_ne.mpr hown, State.onlyIf_false]
    exact State.sem_of_words hu

end

end Sys2Proof.Machine

open Sys2Proof Sys2Proof.Machine

/-- Settles O12: a forced release goes through the semaphores one by one, and each turn touches the words of one alone. -/
theorem semaphoresHaveOneOwner : Obligations.SemaphoresHaveOneOwner :=
  ⟨fun _ _ _ ho hf => ⟨hstSem_grants ho hf, hstSem_grants_first ho hf⟩, fun _ _ _ => hstSem_taken,
    fun _ _ _ _ ho hv => ⟨hstSemRel_owner ho hv, hstSemRel_other ho hv⟩,
    fun _ _ _ _ ho => ⟨hstSemOwnerTagWrite_owner ho, hstSemOwnerTagWrite_other ho⟩, fun _ _ _ _ => hstSemRel_zero,
    fun _ _ _ => semaphoreLossTimeout_frees,
    fun s n hf => by
      obtain ⟨-, hfree, howner, -, -⟩ := s.semRead_free n.toNat hf (reader := 3) (by decide)
      exact ⟨howner, hfree⟩⟩
end

section
/-! PROOF. A warm reset of a state that lists a core twice: the listing it had not read comes to the front (R429). -/

namespace Sys2Proof.Machine

/-- What a warm reset leaves of a core: its memories and its cycle counter. -/
def CoreSt.warm (c : CoreSt) : CoreSt := { x := c.x, y := c.y, pram := c.pram, cyc := c.cyc }

section
variable {α : Type} {view : State → α} (s : State) (hreg : ∀ t o v, view (State.wrReg t o v) = view t)
include hreg

theorem State.showRelease_keeps (b : Nat) : view (s.showRelease b) = view s := by
  have hrel (want : Bool) : view (s.wrb F.PIN_BANK_STAT.RELEASED want b) = view s := hreg ..
  unfold State.showRelease
  dsimp only
  split
  · exact (State.each_keeps _ _ fun t p => t.ownerTakes_keeps hreg p).trans (hrel _)
  · split
    · exact (State.each_keeps _ _ fun t p => t.setPad_keeps hreg p false false).trans (hrel _)
    · exact hrel _

theorem State.showReleases_keeps : view s.showReleases = view s :=
  State.each_keeps _ _ fun t b => t.showRelease_keeps hreg b

theorem State.warmBank_keeps (hmem : ∀ t x, view (State.setMem t x) = view t) (st : List Nat) (b : Nat) :
    view (s.warmBank st b) = view s := by
  unfold State.warmBank
  split
  · exact hreg ..
  · exact (hreg ..).trans (hmem ..)
  · exact hreg ..
  · exact (hreg ..).trans (hreg ..)
  · rfl

end

theorem State.showDco_keeps {α : Type} {view : State → α} (s : State)
    (hpins : ∀ t x, view (State.setPins t x) = view t) : view s.showDco = view s := State.each_keeps _ _ fun _ _ => hpins ..

theorem State.abortOutstanding_units (s : State) : s.abortOutstanding.units = s.units :=
  State.each_keeps _ _ fun _ _ => State.complete_units ..

/-- The cores after a warm reset: each listed one as it is left, but for those that are as after power-on. -/
theorem State.warmReset_cores (s : State) (cause : Nat) :
    (s.warmReset cause).cores = (s.cores.map fun e => (e.1, e.2.warm)).filter fun e => e.2 != {} := by
  have hbanks (t : State) (st : List Nat) : ((List.range 64).foldl (fun t b => t.warmBank st b) t).cores = t.cores :=
    State.each_keeps t _ fun t b => t.warmBank_keeps State.wrReg_cores State.setMem_cores st b
  have hlinks (t : State) : ((List.range 16).foldl (fun t k => t.wr F.LNK_STAT.STATE 1 k) t).cores = t.cores :=
    State.each_keeps t _ fun _ _ => State.wr_cores ..
  unfold State.warmReset
  dsimp only
  rw [State.showDco_keeps _ State.setPins_cores, State.showReleases_keeps _ State.wrReg_cores, State.wr_cores,
    State.onlyIf_keeps _ _ hlinks, State.wrb_cores, State.wr_cores, State.wr_cores, State.wr_cores, hbanks,
    State.units_cores s.abortOutstanding_units]
  rfl

/-- A state that lists core 0 twice, of which the first listing counts. -/
def twiceListed : State := { State.reset with cores := [(0, {}), (0, { pram := [(0, 1)] })] }

theorem exec_warmReset_pin (s : State) (hp : s.clk.por = false) (ht : s.clk.tripped = false) :
    exec (.warmReset false) s = .next (s.warmReset 1) := by
  simp only [exec, execWarmReset, hp, ht, Bool.false_eq_true, if_false]

theorem twiceListed_pram : (twiceListed.core 0).pram = [] ∧ ((twiceListed.warmReset 1).core 0).pram = [(0, 1)] := by
  refine ⟨by decide, ?_⟩
  unfold State.core
  rw [State.warmReset_cores]
  decide

end Sys2Proof.Machine

open Sys2Proof Sys2Proof.Machine

/-- Refutes O22: where a state lists core 0 twice, first as after power-on and then with a word of PRAM, the core reads as the
first; a warm reset drops the listing that is as after power-on, so PRAM reads as the second. -/
theorem not_resetsKeepWhatTheRulesSay : ¬ Obligations.ResetsKeepWhatTheRulesSay := by
  intro ⟨_, hwarm, _⟩
  obtain ⟨t, ht, -, -, -, -, -, -, -, hcore⟩ := hwarm twiceListed rfl
  obtain ⟨-, -, hpram, -⟩ := hcore 0
  rw [exec_warmReset_pin _ rfl rfl] at ht
  obtain ⟨hbefore, hafter⟩ := twiceListed_pram
  rw [← Host.Outcome.next.inj ht, hafter, hbefore] at hpram
  exact absurd hpram (List.cons_ne_nil _ _)
end

section
/-! PROOF. The crystal oscillator's qualification, its monitor and failover (R414, R416, R417, R419, R420). -/

namespace Sys2Proof.Machine

/-! ### The inputs of the PLL domains (R411) -/

section
variable (s : State)

theorem clkSrc_off (i : Nat) : F.CLK_DOM_CFG.SRC.off i 0 = 0x10100 + 4 * i := by
  rw [Field.off, Nat.mul_zero, Nat.add_zero, F.CLK_DOM_CFG.SRC]

theorem State.rd_wr_src (src i j : Nat) : (s.wr F.CLK_DOM_CFG.SRC src i).rd F.CLK_DOM_CFG.SRC j =
    if j = i then src % 2 else s.rd F.CLK_DOM_CFG.SRC j := by
  split
  · rename_i h
    subst h
    exact s.rd_wr_same _ _ _ _ ⟨by decide, by decide⟩
  · exact s.rd_wr_other _ _ _ _ _ _ _ (by rw [clkSrc_off, clkSrc_off]; omega)

/-- The inputs after some domains have been moved. -/
theorem State.moveDomains_src (l : List Nat) (src i : Nat) : (s.moveDomains l src).rd F.CLK_DOM_CFG.SRC i =
    if i ∈ l.map (· - 1) then src % 2 else s.rd F.CLK_DOM_CFG.SRC i := by
  show (s.each l fun s d => s.wr F.CLK_DOM_CFG.SRC src (d - 1)).rd F.CLK_DOM_CFG.SRC i = _
  induction l generalizing s with
  | nil => rfl
  | cons d l ih =>
    refine (ih _).trans ?_
    rw [State.rd_wr_src]
    by_cases hl : i ∈ l.map (· - 1)
    · rw [if_pos hl, List.map_cons, if_pos (List.mem_cons_of_mem _ hl)]
    · by_cases hd : i = d - 1 <;> simp [hl, hd, List.mem_cons]

/-- Moving domains writes the registers of those domains alone. -/
theorem State.moveDomains_rd {l : List Nat} (src : Nat) (hl : ∀ d ∈ l, d ≤ 25) {f : Field} {i j : Nat}
    (h : f.off i j < 0x10100 ∨ 0x10200 ≤ f.off i j) : (s.moveDomains l src).rd f i j = s.rd f i j := by
  rw [State.moveDomains, State.rd_setClk]
  refine State.each_keeps_of_mem (view := fun s => s.rd f i j) _ _ fun t d hd => t.rd_wr_other _ _ _ _ _ _ _ ?_
  have := hl d hd
  rw [clkSrc_off]
  omega

theorem pllDomains_le : ∀ d ∈ pllDomains, d ≤ 25 := by decide

/-- The loops that settle are all that a move of domains changes of the clocks' state. -/
theorem State.moveDomains_clk (l : List Nat) (src : Nat) : ∃ m, (s.moveDomains l src).clk = { s.clk with settling := m } := by
  have hclk : (s.each l fun s d => s.wr F.CLK_DOM_CFG.SRC src (d - 1)).clk = s.clk :=
    State.each_keeps _ _ fun _ _ => State.wr_clk ..
  exact ⟨l.foldl (fun m d => m ||| (1#26 <<< d)) s.clk.settling, by rw [State.moveDomains, State.setClk_clk, hclk]⟩

/-! ### Status flags (R419) -/

theorem State.showArmed_rd {f : Field} {i j : Nat} (h : f.off i j ≠ 0x10000 ∨ 0 < f.lo) : s.showArmed.rd f i j = s.rd f i j := by
  rcases h with h | h
  · exact s.rd_wr_other _ _ _ _ _ _ _ h
  · exact s.rd_wr_field _ _ _ _ _ _ _ ⟨by decide, by decide⟩ (.inr h)

theorem State.showArmed_armed :
    s.showArmed.rd F.CLK_STATUS.MON_ARMED = b2n (s.rdb F.CLK_STATUS.RCO_RDY && s.rdb F.CLK_STATUS.XTAL_RDY) :=
  s.rd_wrb_same _ _ _ _ ⟨by decide, by decide⟩ rfl

theorem State.rd_eq_zero_of_rdb {f : Field} {i j : Nat} (h : s.rdb f i j = false) : s.rd f i j = 0 :=
  bne_eq_false_iff_eq.mp h

theorem State.rdb_of_rd {f : Field} {i j n : Nat} (h : s.rd f i j = n) : s.rdb f i j = (n != 0) := by rw [State.rdb, h]

/-! ### Qualification (R414, R416, R417) -/

/-- The machine with the windows in range that have been counted. -/
def State.counted (s : State) (n w : Nat) : State := (s.wr F.CLK_MON.XCOUNT n).setClk { s.clk with windows := w }

theorem State.counted_clk (n w : Nat) : (s.counted n w).clk = { s.clk with windows := w } := by
  rw [State.counted, State.setClk_clk]

theorem State.counted_rd (n w : Nat) {f : Field} {i j : Nat} (h : f.off i j ≠ 0x1000c) :
    (s.counted n w).rd f i j = s.rd f i j := by
  rw [State.counted, State.rd_setClk, s.rd_wr_other _ _ _ _ _ _ _ h]

theorem State.counted_xcount (n : BitVec 11) (w : Nat) : (s.counted n.toNat w).rd F.CLK_MON.XCOUNT = n.toNat := by
  rw [State.counted, State.rd_setClk, s.rd_wr_lt ⟨by decide, by decide⟩ n.isLt]

variable {s}

theorem exec_crystalStartDelayExpiry (ha : s.alive = true) : exec .crystalStartDelayExpiry s = .next
    (s.onlyIf (decide (s.strapDelay ≤ s.now)) fun s => s.setClk { s.clk with strapDone := true }) := by
  simp only [exec, execCrystalStartDelayExpiry, s.live_run _ ha]

theorem crystalStartDelayExpiry_follows (ha : s.alive = true) :
    (s.strapDelay ≤ s.now → ∃ t, exec .crystalStartDelayExpiry s = .next t ∧ t = s.setClk { s.clk with strapDone := true }) ∧
      (s.now < s.strapDelay → exec .crystalStartDelayExpiry s = .next s) := by
  rw [exec_crystalStartDelayExpiry ha]
  exact ⟨fun h => ⟨_, rfl, by rw [decide_eq_true h, State.onlyIf_true]⟩,
    fun h => by rw [decide_eq_false (by omega), State.onlyIf_false]⟩

theorem exec_xtalTimeout (ha : s.alive = true) (hd : 4 * s.strapDelay ≤ s.now) (hs : s.clk.switched = false)
    (ht : s.rdb F.CLK_STATUS.XTAL_TIMEOUT = false) :
    exec .xtalTimeout s = .next ((s.wr F.CLK_STATUS.XTAL_TIMEOUT 1).clkEvent 0x0103 sevWarn 0 0) := by
  simp only [exec, execXtalTimeout, s.live_run _ ha, decide_eq_true hd, hs, ht, Bool.not_false, Bool.and_self, State.onlyIf_true]

/-- The state of the boot ROM stands in its own register. -/
theorem State.recovery_wr {f : Field} {v i j : Nat} (h : f.off i j ≠ 0x4E0000) : (s.wr f v i j).recovery = s.recovery := by
  rw [State.recovery, s.rd_wr_other _ _ _ _ _ _ _ (Ne.symm h), State.recovery]

theorem xtalTimeout_follows (ha : s.alive = true) (hd : 4 * s.strapDelay ≤ s.now) (hs : s.clk.switched = false)
    (ht : s.rdb F.CLK_STATUS.XTAL_TIMEOUT = false) : ∃ t, exec .xtalTimeout s = .next t ∧
      t.rd F.CLK_STATUS.XTAL_TIMEOUT = 1 ∧ t.units = s.units ∧
      (s.recovery = false → t.events.map (·.code) = 0x0103 :: s.events.map (·.code)) := by
  refine ⟨_, exec_xtalTimeout ha hd hs ht, ?_, ?_, fun hr => ?_⟩
  · rw [State.clkEvent, State.event_rd _ (by decide)]
    exact State.rd_wr_same _ _ _ _ _ ⟨by decide, by decide⟩
  · rw [State.clkEvent, State.event_units, State.wr_units]
  · rw [State.clkEvent, State.event_codes _ _ _ _ _ ((State.recovery_wr (by decide)).trans hr), State.wr_events]

section
variable {n : BitVec 11} (ha : s.alive = true) (hd : s.clk.strapDone = true) (hf : s.clk.rcoFailed = false)
include ha hd hf

theorem exec_xrefWindowEnd_armed (hm : s.rdb F.CLK_STATUS.MON_ARMED = true) : exec (.xrefWindowEnd n) s = .next
    ((s.wr F.CLK_MON.XCOUNT n.toNat).onlyIf (!xrefOk n.toNat) fun s => s.failXref n.toNat 0) := by
  have hm' : (s.wr F.CLK_MON.XCOUNT n.toNat).rdb F.CLK_STATUS.MON_ARMED = true := by
    rw [State.rdb, s.rd_wr_other _ _ _ _ _ _ _ (by decide)]
    exact hm
  simp only [exec, execXrefWindowEnd, s.live_run _ ha, hd, hf, Bool.not_false, Bool.and_self, State.onlyIf_true, hm', if_true]

theorem exec_xrefWindowEnd (hm : s.rdb F.CLK_STATUS.MON_ARMED = false) (hx : s.rdb F.CLK_STATUS.XTAL_RDY = false) (w : Nat)
    (hw : w = if xrefOk n.toNat then s.clk.windows + 1 else 0) : exec (.xrefWindowEnd n) s = .next
      ((s.counted n.toNat w).onlyIf (decide ((if s.clk.failedOver then 1024 else 4) ≤ w)) State.qualify) := by
  have hm' : (s.wr F.CLK_MON.XCOUNT n.toNat).rdb F.CLK_STATUS.MON_ARMED = false := by
    rw [State.rdb, s.rd_wr_other _ _ _ _ _ _ _ (by decide)]
    exact hm
  have hx' : (s.counted n.toNat w).rdb F.CLK_STATUS.XTAL_RDY = false := by
    rw [State.rdb, State.counted, State.rd_setClk, s.rd_wr_other _ _ _ _ _ _ _ (by decide)]
    exact hx
  have hrun : (s.clk.strapDone && !s.clk.rcoFailed) = true := by rw [hd, hf]; rfl
  rw [exec, execXrefWindowEnd, s.live_run _ ha, hrun, State.onlyIf_true]
  simp only [hm', Bool.false_eq_true, if_false, ← hw, State.wr_clk]
  rw [← State.counted, hx', Bool.not_false, Bool.true_and, State.counted_clk]

end

/-- The machine whose oscillator has just qualified, before any domain moves. -/
def State.ready (s : State) : State :=
  ((s.wr F.CLK_STATUS.XTAL_RDY 1).showArmed).setClk { s.clk with windows := 0, switched := true, failedOver := false }

theorem State.qualify_eq : s.qualify =
    s.ready.onlyIf (!s.clk.switched) fun s => (s.moveDomains pllDomains 0).wr F.GLB_STATUS.TB_DEGRADED 0 := rfl

theorem State.ready_src (i : Nat) : s.ready.rd F.CLK_DOM_CFG.SRC i = s.rd F.CLK_DOM_CFG.SRC i := by
  have hoff : F.CLK_DOM_CFG.SRC.off i 0 ≠ 0x10000 := by rw [clkSrc_off]; omega
  rw [State.ready, State.rd_setClk, State.showArmed_rd _ (.inl hoff), State.rd_wr_other _ _ _ _ _ _ _ _ hoff]

theorem State.qualify_xtalRdy : s.qualify.rd F.CLK_STATUS.XTAL_RDY = 1 := by
  have hmove (t : State) : ((t.moveDomains pllDomains 0).wr F.GLB_STATUS.TB_DEGRADED 0).rd F.CLK_STATUS.XTAL_RDY =
      t.rd F.CLK_STATUS.XTAL_RDY := by
    rw [State.rd_wr_other _ _ _ _ _ _ _ _ (by decide), State.moveDomains_rd _ _ pllDomains_le (.inl (by decide))]
  rw [State.qualify_eq, State.onlyIf_keeps (view := fun s => s.rd F.CLK_STATUS.XTAL_RDY) _ _ hmove, State.ready, State.rd_setClk,
    State.showArmed_rd _ (.inr (by decide)), State.rd_wr_same _ _ _ _ _ ⟨by decide, by decide⟩]
  rfl

theorem State.qualify_clk :
    s.qualify.clk.windows = 0 ∧ s.qualify.clk.switched = true ∧ s.qualify.clk.failedOver = false := by
  have hmove (t : State) : ((t.moveDomains pllDomains 0).wr F.GLB_STATUS.TB_DEGRADED 0).clk.windows = t.clk.windows ∧
      ((t.moveDomains pllDomains 0).wr F.GLB_STATUS.TB_DEGRADED 0).clk.switched = t.clk.switched ∧
      ((t.moveDomains pllDomains 0).wr F.GLB_STATUS.TB_DEGRADED 0).clk.failedOver = t.clk.failedOver := by
    obtain ⟨m, hm⟩ := t.moveDomains_clk pllDomains 0
    rw [State.wr_clk, hm]
    exact ⟨rfl, rfl, rfl⟩
  have hready : s.ready.clk = { s.clk with windows := 0, switched := true, failedOver := false } := rfl
  rw [State.qualify_eq, State.onlyIf_keeps (view := fun s => s.clk.windows) _ _ fun t => (hmove t).1,
    State.onlyIf_keeps (view := fun s => s.clk.switched) _ _ fun t => (hmove t).2.1,
    State.onlyIf_keeps (view := fun s => s.clk.failedOver) _ _ fun t => (hmove t).2.2, hready]
  exact ⟨rfl, rfl, rfl⟩

/-- The first qualification moves the timebase and every PLL domain to the crystal oscillator. -/
theorem State.qualify_first (h : s.clk.switched = false) : s.qualify.rd F.GLB_STATUS.TB_DEGRADED = 0 ∧
    ∀ d ∈ pllDomains, s.qualify.rd F.CLK_DOM_CFG.SRC (d - 1) = 0 := by
  rw [State.qualify_eq, h, Bool.not_false, State.onlyIf_true]
  refine ⟨State.rd_wr_same _ _ _ _ _ ⟨by decide, by decide⟩, fun d hd => ?_⟩
  rw [State.rd_wr_other _ _ _ _ _ _ _ _ (by
    rw [clkSrc_off]
    simp only [Field.off, F.GLB_STATUS.TB_DEGRADED]
    omega), State.moveDomains_src, if_pos (List.mem_map_of_mem hd)]

theorem State.qualify_again (h : s.clk.switched = true) (i : Nat) :
    s.qualify.rd F.CLK_DOM_CFG.SRC i = s.rd F.CLK_DOM_CFG.SRC i := by
  rw [State.qualify_eq, h, Bool.not_true, State.onlyIf_false, State.ready_src]

theorem xrefOk_true {n : Nat} (h : 1003 ≤ n ∧ n ≤ 1130) : xrefOk n = true := decide_eq_true h

theorem xrefOk_false {n : Nat} (h : n < 1003 ∨ 1130 < n) : xrefOk n = false := decide_eq_false (by omega)

end

section
variable {s : State} {n : BitVec 11} (ha : s.alive = true) (hd : s.clk.strapDone = true) (hf : s.clk.rcoFailed = false)
  (hm : s.rdb F.CLK_STATUS.MON_ARMED = false) (hx : s.rdb F.CLK_STATUS.XTAL_RDY = false)
include ha hd hf hm hx

theorem exec_xrefWindowEnd_counts (hn : 1003 ≤ n.toNat ∧ n.toNat ≤ 1130)
    (hw : s.clk.windows + 1 < (if s.clk.failedOver then 1024 else 4)) :
    exec (.xrefWindowEnd n) s = .next (s.counted n.toNat (s.clk.windows + 1)) := by
  rw [exec_xrefWindowEnd ha hd hf hm hx _ (by rw [xrefOk_true hn, if_pos rfl]), decide_eq_false (by omega), State.onlyIf_false]

theorem exec_xrefWindowEnd_qualifies (hn : 1003 ≤ n.toNat ∧ n.toNat ≤ 1130)
    (hw : (if s.clk.failedOver then 1024 else 4) ≤ s.clk.windows + 1) :
    exec (.xrefWindowEnd n) s = .next (s.counted n.toNat (s.clk.windows + 1)).qualify := by
  rw [exec_xrefWindowEnd ha hd hf hm hx _ (by rw [xrefOk_true hn, if_pos rfl]), decide_eq_true hw, State.onlyIf_true]

theorem exec_xrefWindowEnd_startsAgain (hn : n.toNat < 1003 ∨ 1130 < n.toNat) :
    exec (.xrefWindowEnd n) s = .next (s.counted n.toNat 0) := by
  have hmany : ¬ (if s.clk.failedOver then 1024 else 4) ≤ 0 := by split <;> decide
  rw [exec_xrefWindowEnd ha hd hf hm hx 0 (by rw [xrefOk_false hn]; rfl), decide_eq_false hmany, State.onlyIf_false]

end

theorem State.counted_xtalRdy {s : State} (hx : s.rdb F.CLK_STATUS.XTAL_RDY = false) (n w : Nat) :
    (s.counted n w).rd F.CLK_STATUS.XTAL_RDY = 0 :=
  (s.counted_rd n w (by decide)).trans (s.rd_eq_zero_of_rdb hx)

theorem State.counted_qualify_again {s : State} (h : s.clk.switched = true) (n w i : Nat) :
    (s.counted n w).qualify.rd F.CLK_DOM_CFG.SRC i = s.rd F.CLK_DOM_CFG.SRC i := by
  have hc : (s.counted n w).clk.switched = true := by rw [s.counted_clk]; exact h
  rw [State.qualify_again hc, s.counted_rd _ _ (by rw [clkSrc_off]; omega)]

theorem State.counted_qualify_first {s : State} (h : s.clk.switched = false) (n w : Nat) :
    (s.counted n w).qualify.rd F.GLB_STATUS.TB_DEGRADED = 0 ∧
      ∀ d ∈ pllDomains, (s.counted n w).qualify.rd F.CLK_DOM_CFG.SRC (d - 1) = 0 :=
  State.qualify_first (by rw [s.counted_clk]; exact h)

theorem xrefQualifiesByWindows_holds : xrefQualifiesByWindows := by
  refine ⟨fun s => crystalStartDelayExpiry_follows, fun s n ha hd hf hm hx => ⟨fun hn hw => ?_, fun hn hw => ?_, fun hn => ?_⟩,
    fun s => xtalTimeout_follows⟩
  · exact ⟨_, exec_xrefWindowEnd_counts ha hd hf hm hx hn hw, s.counted_clk .., State.counted_xtalRdy hx _ _,
      s.counted_xcount ..⟩
  · obtain ⟨hwindows, hswitched, hover⟩ := State.qualify_clk (s := s.counted n.toNat (s.clk.windows + 1))
    exact ⟨_, exec_xrefWindowEnd_qualifies ha hd hf hm hx hn hw, State.qualify_xtalRdy, hwindows, hswitched, hover,
      fun h => State.counted_qualify_first h _ _, fun h d => State.counted_qualify_again h _ _ _⟩
  · exact ⟨_, exec_xrefWindowEnd_startsAgain ha hd hf hm hx hn, s.counted_clk .., State.counted_xtalRdy hx _ _⟩

/-! ### Failover (R419, R420) -/

/-- The status that a failure of XREF shows, before any domain moves. -/
def State.xrefFailed (s : State) (count : Nat) : State :=
  ((s.wr F.CLK_STATUS.XTAL_RDY 0).showArmed.wr F.CLK_STATUS.XREF_FAILED 1).wr F.CLK_MON.XCOUNT count

/-- The PLL domains on XREF. -/
def State.onXref (s : State) : List Nat := pllDomains.filter fun d => s.rd F.CLK_DOM_CFG.SRC (d - 1) == 0

/-- The machine once XREF has failed, before its regions halt: every domain on XREF runs on RCO. -/
def State.xrefLost (s : State) (count kind : Nat) : State :=
  let s := s.xrefFailed count
  let s := (s.moveDomains s.onXref 1).wr F.GLB_STATUS.TB_DEGRADED 1
  let hbm := s.clk.settling.getLsbD 19 || s.clk.settling.getLsbD 20
  let s := (s.setClk { s.clk with windows := 0, failedOver := true }).setMem { s.mem with selfRefresh := hbm }
  let s := s.wr F.CLK_NME.XREF_FAIL 1
  s.clkEvent 0x0101 sevWarn 0 (payload [(16, 2, count), (18, 1, kind)]) true

theorem State.failXref_eq (s : State) (count kind : Nat) : s.failXref count kind = (s.xrefLost count kind).clockFail := rfl

section
variable (s : State) (count kind : Nat)

theorem State.onXref_le : ∀ d ∈ s.onXref, d ≤ 25 := fun d hd => pllDomains_le d (List.mem_of_mem_filter hd)

/-- Behind the moves of the domains, a failure of XREF writes TB_DEGRADED, CLK_NME and what its event writes. -/
theorem State.xrefLost_rd_moved {f : Field} {i j : Nat} (hevt : f.off i j ∉ evtOffsets) (hdeg : f.off i j ≠ 0x18)
    (hnme : f.off i j ≠ 0x10008) : (s.xrefLost count kind).rd f i j =
      ((s.xrefFailed count).moveDomains (s.xrefFailed count).onXref 1).rd f i j := by
  rw [State.xrefLost, State.clkEvent, State.event_rd _ hevt, State.rd_wr_other _ _ _ _ _ _ _ _ hnme,
    State.rd_congr (State.setMem_regs ..), State.rd_setClk, State.rd_wr_other _ _ _ _ _ _ _ _ hdeg]

theorem State.xrefLost_rd {f : Field} {i j : Nat} (hevt : f.off i j ∉ evtOffsets) (hdeg : f.off i j ≠ 0x18)
    (hnme : f.off i j ≠ 0x10008) (hsrc : f.off i j < 0x10100 ∨ 0x10200 ≤ f.off i j) :
    (s.xrefLost count kind).rd f i j = (s.xrefFailed count).rd f i j := by
  rw [s.xrefLost_rd_moved _ _ hevt hdeg hnme, State.moveDomains_rd _ _ (State.onXref_le _) hsrc]

theorem State.xrefLost_tbDegraded : (s.xrefLost count kind).rd F.GLB_STATUS.TB_DEGRADED = 1 := by
  rw [State.xrefLost, State.clkEvent, State.event_rd _ (by decide), State.rd_wr_other _ _ _ _ _ _ _ _ (by decide),
    State.rd_congr (State.setMem_regs ..), State.rd_setClk, State.rd_wr_lt _ ⟨by decide, by decide⟩ (by decide)]

theorem State.xrefLost_nme : (s.xrefLost count kind).rd F.CLK_NME.XREF_FAIL = 1 := by
  rw [State.xrefLost, State.clkEvent, State.event_rd _ (by decide), State.rd_wr_lt _ ⟨by decide, by decide⟩ (by decide)]

theorem State.xrefLost_clk : (s.xrefLost count kind).clk.failedOver = true ∧ (s.xrefLost count kind).clk.windows = 0 := by
  have hclk (t : State) (code sev src pay : Nat) (nme : Bool) : (t.event code sev src pay nme).clk = t.clk :=
    State.units_clk (t.event_units ..)
  rw [State.xrefLost, State.clkEvent, hclk, State.wr_clk, State.setMem_clk, State.setClk_clk]
  exact ⟨rfl, rfl⟩

/-- Every domain that ran on XREF runs on RCO, and the others did so before. -/
theorem State.xrefLost_src (d : Nat) (hd : d ∈ pllDomains) : (s.xrefLost count kind).rd F.CLK_DOM_CFG.SRC (d - 1) = 1 := by
  have hle := pllDomains_le d hd
  rw [s.xrefLost_rd_moved _ _ (fun h => ?_) (by rw [clkSrc_off]; omega) (by rw [clkSrc_off]; omega), State.moveDomains_src]
  · split
    · rfl
    · rename_i hkeep
      have hon : d ∉ (s.xrefFailed count).onXref := fun h => hkeep (List.mem_map_of_mem h)
      have hne : (s.xrefFailed count).rd F.CLK_DOM_CFG.SRC (d - 1) ≠ 0 := fun h =>
        hon (List.mem_filter.mpr ⟨hd, beq_iff_eq.mpr h⟩)
      have hlt : (s.xrefFailed count).rd F.CLK_DOM_CFG.SRC (d - 1) < _ := bits_lt ..
      change _ < 2 at hlt
      omega
  · have outside : ∀ o ∈ evtOffsets, o < 0x10100 ∨ 0x10200 ≤ o := by decide
    have := outside _ h
    rw [clkSrc_off] at this
    omega

theorem State.xrefFailed_rd {f : Field} {i j : Nat} (hs : f.off i j ≠ 0x10000) (hm : f.off i j ≠ 0x1000c) :
    (s.xrefFailed count).rd f i j = s.rd f i j := by
  rw [State.xrefFailed, State.rd_wr_other _ _ _ _ _ _ _ _ hm, State.rd_wr_other _ _ _ _ _ _ _ _ hs,
    State.showArmed_rd _ (.inl hs), State.rd_wr_other _ _ _ _ _ _ _ _ hs]

theorem State.xrefFailed_flags : (s.xrefFailed count).rd F.CLK_STATUS.XTAL_RDY = 0 ∧
    (s.xrefFailed count).rd F.CLK_STATUS.MON_ARMED = 0 ∧ (s.xrefFailed count).rd F.CLK_STATUS.XREF_FAILED = 1 := by
  have hrdy : (s.wr F.CLK_STATUS.XTAL_RDY 0).rd F.CLK_STATUS.XTAL_RDY = 0 := s.rd_wr_same _ _ _ _ ⟨by decide, by decide⟩
  have hkeep (t : State) {f : Field} (hf : f.off 0 0 ≠ 0x1000c) (hbit : f.hi < 8) :
      ((t.wr F.CLK_STATUS.XREF_FAILED 1).wr F.CLK_MON.XCOUNT count).rd f = t.rd f := by
    rw [State.rd_wr_other _ _ _ _ _ _ _ _ hf, State.rd_wr_field _ _ _ _ _ _ _ _ ⟨by decide, by decide⟩ (.inl hbit)]
  rw [State.xrefFailed, hkeep _ (by decide) (by decide), hkeep _ (by decide) (by decide), State.showArmed_armed,
    State.showArmed_rd _ (.inr (by decide)), hrdy, State.rdb_of_rd _ hrdy, State.rd_wr_other _ _ _ _ _ _ _ _ (by decide),
    State.rd_wr_lt _ ⟨by decide, by decide⟩ (by decide)]
  exact ⟨rfl, by rw [bne_self_eq_false, Bool.and_false]; rfl, rfl⟩

theorem State.xrefFailed_xcount (n : BitVec 11) : (s.xrefFailed n.toNat).rd F.CLK_MON.XCOUNT = n.toNat :=
  State.rd_wr_lt _ ⟨by decide, by decide⟩ n.isLt

theorem State.xrefLost_rlive (r : Nat) : (s.xrefLost count kind).rlive r = s.rlive r := by
  have hoff : 0x100000 ≤ F.FAB_RGN_STATUS.STATE.off r 0 := by simp only [Field.off, F.FAB_RGN_STATUS.STATE]; omega
  have hrd : (s.xrefLost count kind).rd F.FAB_RGN_STATUS.STATE r = s.rd F.FAB_RGN_STATUS.STATE r := by
    rw [s.xrefLost_rd _ _ (not_mem_evtOffsets (by omega)) (by omega) (by omega) (by omega),
      s.xrefFailed_rd _ (by omega) (by omega)]
  rw [State.rlive, State.rstate, hrd, State.rlive, State.rstate]

/-- With no region waiting or running, none halts. -/
theorem State.failXref_of_idle (h : ∀ r, r < 16 → s.rlive r = false) : s.failXref count kind = s.xrefLost count kind := by
  rw [State.failXref_eq, State.clockFail]
  refine State.each_fixed fun r hr => ?_
  rw [s.xrefLost_rlive, h r (List.mem_range.mp hr), State.onlyIf_false]

end

theorem exec_xrefNoEdgeDetection {s : State} {n : BitVec 11} (ha : s.alive = true)
    (hm : s.rdb F.CLK_STATUS.MON_ARMED = true) : exec (.xrefNoEdgeDetection n) s = .next (s.failXref n.toNat 1) := by
  simp only [exec, execXrefNoEdgeDetection, s.live_run _ ha, hm, State.onlyIf_true]

/-- What a failure of XREF shows while no region waits or runs. -/
theorem State.failXref_shows {s : State} (n : BitVec 11) (h : ∀ r, r < 16 → s.rlive r = false) :
    let t := s.failXref n.toNat 1
    t.rd F.CLK_STATUS.XTAL_RDY = 0 ∧ t.rd F.CLK_STATUS.MON_ARMED = 0 ∧ t.rd F.CLK_STATUS.XREF_FAILED = 1 ∧
      t.rd F.GLB_STATUS.TB_DEGRADED = 1 ∧ t.rd F.CLK_NME.XREF_FAIL = 1 ∧ t.rd F.CLK_MON.XCOUNT = n.toNat ∧
      t.clk.failedOver = true ∧ t.clk.windows = 0 ∧ ∀ d ∈ pllDomains, t.rd F.CLK_DOM_CFG.SRC (d - 1) = 1 := by
  have flag {f : Field} (hf : f.off 0 0 ∉ evtOffsets ∧ f.off 0 0 ≠ 0x18 ∧ f.off 0 0 ≠ 0x10008 ∧ f.off 0 0 < 0x10100) :
      (s.xrefLost n.toNat 1).rd f = (s.xrefFailed n.toNat).rd f :=
    s.xrefLost_rd _ _ hf.1 hf.2.1 hf.2.2.1 (.inl hf.2.2.2)
  obtain ⟨hrdy, harmed, hfailed⟩ := s.xrefFailed_flags n.toNat
  obtain ⟨hover, hwindows⟩ := s.xrefLost_clk n.toNat 1
  rw [s.failXref_of_idle _ _ h]
  exact ⟨(flag (by decide)).trans hrdy, (flag (by decide)).trans harmed, (flag (by decide)).trans hfailed,
    s.xrefLost_tbDegraded .., s.xrefLost_nme .., (flag (by decide)).trans (s.xrefFailed_xcount n), hover, hwindows,
    s.xrefLost_src _ _⟩

theorem xrefFailsOver_holds : xrefFailsOver := by
  refine fun s n ha hm => ⟨fun hd hf hn => ?_, fun hd hf hn => ?_, _, exec_xrefNoEdgeDetection ha hm, rfl, State.failXref_shows n⟩
  · rw [exec_xrefWindowEnd_armed ha hd hf hm, xrefOk_true hn, Bool.not_true, State.onlyIf_false]
  · rw [exec_xrefWindowEnd_armed ha hd hf hm, xrefOk_false hn, Bool.not_false, State.onlyIf_true]

end Sys2Proof.Machine
open Sys2Proof Sys2Proof.Machine

/-- Settles O23: the qualification counts windows in range in CLK_MON's word, and a failure of XREF writes the flags, the
domains' inputs and what its event writes; with no region waiting or running nothing else follows. -/
theorem xrefQualifiesAndFailsOver : Obligations.XrefQualifiesAndFailsOver :=
  ⟨xrefQualifiesByWindows_holds, xrefFailsOver_holds⟩
end

section
/-! PROOF. Boot and readiness (R430, R457, R458). -/

namespace Sys2Proof.Machine

/-! ### What the boot ROM writes before its verdict -/

/-- The machine once the boot ROM has looked at the flash and derived the identity. -/
def State.booted (s : State) (flash : Option Bool) : State :=
  ((s.wrb F.CFG_FLASH.PRESENT flash.isSome).wrb F.CFG_FLASH.MODE (flash == some true)).bootIdentity

section
variable (s : State)

theorem State.bootIdentity_keeps {α : Type} {view : State → α}
    (h : ∀ (t : State) (k v : Nat), k < 12 → view (t.wr F.SEC_ID_HASH.HASH v k) = view t) : view s.bootIdentity = view s :=
  State.each_keeps_of_mem _ _ fun t k hk => h t k _ (List.mem_range.mp hk)

theorem State.bootIdentity_rd {f : Field} {i j : Nat} (h : f.off i j < 0x4e0040 ∨ 0x4e0070 ≤ f.off i j) :
    s.bootIdentity.rd f i j = s.rd f i j := by
  refine s.bootIdentity_keeps (view := fun s => s.rd f i j) fun t k v hk => t.rd_wr_other _ _ _ _ _ _ _ ?_
  have hoff : F.SEC_ID_HASH.HASH.off k 0 = 0x4e0040 + 4 * k := by
    rw [Field.off, Nat.mul_zero, Nat.add_zero, F.SEC_ID_HASH.HASH]
  omega

variable (flash : Option Bool)

theorem State.booted_rd {f : Field} {i j : Nat} (hf : f.off i j ≠ 0x280020)
    (h : f.off i j < 0x4e0040 ∨ 0x4e0070 ≤ f.off i j) : (s.booted flash).rd f i j = s.rd f i j := by
  rw [State.booted, State.bootIdentity_rd _ h, State.rd_wrb_other _ _ _ _ _ _ _ _ hf, State.rd_wrb_other _ _ _ _ _ _ _ _ hf]

theorem State.booted_flash : (s.booted flash).rd F.CFG_FLASH.PRESENT = b2n flash.isSome ∧
    (s.booted flash).rd F.CFG_FLASH.MODE = b2n (flash == some true) := by
  rw [State.booted, State.bootIdentity_rd _ (.inl (by decide)), State.bootIdentity_rd _ (.inl (by decide)),
    State.rd_wrb_field _ _ _ _ _ _ _ _ ⟨by decide, by decide⟩ (.inl (by decide)),
    State.rd_wrb_same _ _ _ _ _ ⟨by decide, by decide⟩ rfl, State.rd_wrb_same _ _ _ _ _ ⟨by decide, by decide⟩ rfl]
  exact ⟨rfl, rfl⟩

/-- The boot ROM writes registers and nothing else. -/
theorem State.booted_keeps {α : Type} {view : State → α} (h : ∀ (t : State) f v i j, view (t.wr f v i j) = view t) :
    view (s.booted flash) = view s := by
  rw [State.booted, State.bootIdentity_keeps _ fun t k v _ => h t _ v k 0, State.wrb, h, State.wrb, h]

/-- The firmware checks read the flash, SVN_CTR and the key that the fuses hold. -/
theorem State.fwCheck_congr {s t : State} (hsvn : t.rd F.SEC_BOOT.SVN_CTR = s.rd F.SEC_BOOT.SVN_CTR)
    (hvpk : t.rd F.SEC_FUSE_STAT.VPK_PROG = s.rd F.SEC_FUSE_STAT.VPK_PROG)
    (hrev : t.rd F.SEC_FUSE_STAT.CKH_REVOKE = s.rd F.SEC_FUSE_STAT.CKH_REVOKE) (hsec : t.sec = s.sec)
    (get : Nat → Nat → List Byte) : t.fwCheck get = s.fwCheck get := by
  have hkey (sel : Nat) : t.keyHash sel = s.keyHash sel := by
    rw [State.keyHash, State.rdb, hvpk, hrev, hsec, State.keyHash, State.rdb]
  have hsig (magic : Nat) (sels : List Nat) (digest block : List Byte) :
      t.sigOk magic sels digest block = s.sigOk magic sels digest block := by
    rw [State.sigOk, hkey, State.sigOk]
  simp only [State.fwCheck, hsvn, hsig]

theorem State.booted_sec : (s.booted flash).sec = s.sec := s.booted_keeps flash fun _ _ _ _ _ => State.wr_sec ..

theorem State.booted_fwCheck : (s.booted flash).fwCheck (s.booted flash).flashRead = s.fwCheck s.flashRead := by
  have hsec := s.booted_sec flash
  have hflash : (s.booted flash).flashRead = s.flashRead := funext fun _ => funext fun _ => by
    rw [State.flashRead, hsec, State.flashRead]
  rw [hflash, State.fwCheck_congr (s.booted_rd flash (by decide) (.inl (by decide)))
    (s.booted_rd flash (by decide) (by decide)) (s.booted_rd flash (by decide) (by decide)) hsec]

end

/-! ### The verdict -/

/-- The boot ends in RECOVERY (R458). -/
def State.toRecovery (s : State) (cause : Nat) : State := (s.wr F.SEC_BOOT.STATE 2).wr F.SEC_BOOT.CAUSE cause

section
variable {s : State}

theorem State.toRecovery_recovery (cause : Nat) : (s.toRecovery cause).recovery = true := by
  have h : (s.toRecovery cause).rd F.SEC_BOOT.STATE = 2 := by
    rw [State.toRecovery, State.rd_wr_field _ _ _ _ _ _ _ _ ⟨by decide, by decide⟩ (.inr (by decide)),
      State.rd_wr_lt _ ⟨by decide, by decide⟩ (by decide)]
  rw [State.recovery, h]
  rfl

theorem State.toRecovery_cause {cause : Nat} (h : cause < 256) : (s.toRecovery cause).rd F.SEC_BOOT.CAUSE = cause :=
  State.rd_wr_lt _ ⟨by decide, by decide⟩ h

theorem State.toRecovery_rd (cause : Nat) {f : Field} {i j : Nat} (h : f.off i j ≠ 0x4e0000) :
    (s.toRecovery cause).rd f i j = s.rd f i j := by
  rw [State.toRecovery, State.rd_wr_other _ _ _ _ _ _ _ _ h, State.rd_wr_other _ _ _ _ _ _ _ _ h]

/-- A field of n bytes. -/
theorem fieldAt_lt (l : List Byte) (i n : Nat) : fieldAt l i n < 256 ^ n := by
  refine (leNat_lt _).trans_le (Nat.pow_le_pow_right (by decide) ?_)
  simp only [slice, List.length_append, List.length_take, List.length_replicate]
  omega

/-- The status registers that firmware sets as it starts. -/
def State.bootRegs (s : State) (get : Nat → Nat → List Byte) : State :=
  let s := (s.wr F.SEC_BOOT.STATE 1).wr F.SEC_BOOT.CAUSE 0
  (s.wr F.SEC_BOOT.FW_SVN (fieldAt (get 0 128) 8 1)).wr F.GLB_STATUS.BOOT_OK 1

/-- TEMP_TRIP, owed since the boot before this one (R427). -/
def State.bootTrip (s : State) : State := s.onlyIf s.clk.tripPending fun s =>
  (s.setClk { s.clk with tripPending := false }).clkEvent 0x0107 sevFatal 0 (payload [(16, 2, s.rd F.CLK_TEMP.TJ)])

/-- The measurement of the firmware that starts. -/
def State.measured (s : State) (get : Nat → Nat → List Byte) : State := s.setSec { s.sec with fwMeas := fwMeasure get }

theorem State.bootOk_eq (get : Nat → Nat → List Byte) : s.bootOk get =
    let t := ((s.bootRegs get).measured get).bootTrip
    (t.setPair { t.pair with hbAt := t.now, flitAt := t.now }).bootKeyEvents.bootLoad := rfl

/-- A view that neither events nor the loader's tables touch is left alone behind the owed TEMP_TRIP. -/
theorem State.bootOk_keeps {α : Type} {view : State → α} (get : Nat → Nat → List Byte)
    (hpair : ∀ (t : State) x, view (t.setPair x) = view t) (hela : ∀ (t : State) x, view (t.setEla x) = view t)
    (hevt : ∀ (t : State) code sev src pay, view (t.event code sev src pay) = view t) :
    view (s.bootOk get) = view ((s.bootRegs get).measured get).bootTrip := by
  have hload (t : State) : view t.bootLoad = view t := by
    rw [State.bootLoad]
    split
    · exact hela ..
    · rfl
  have hkeys (t : State) : view t.bootKeyEvents = view t := by
    rw [State.bootKeyEvents]
    exact (State.each_keeps _ _ fun t k => hevt t _ _ _ _).trans (hela ..)
  rw [State.bootOk_eq, hload, hkeys, hpair]

theorem State.event_clk (t : State) (code sev src pay : Nat) (nme : Bool) : (t.event code sev src pay nme).clk = t.clk :=
  State.units_clk (t.event_units ..)

theorem State.event_sec (t : State) (code sev src pay : Nat) (nme : Bool) : (t.event code sev src pay nme).sec = t.sec :=
  State.units_sec (t.event_units ..)

theorem State.bootTrip_rd {f : Field} {i j : Nat} (h : f.off i j ∉ evtOffsets) : s.bootTrip.rd f i j = s.rd f i j :=
  State.onlyIf_keeps (view := fun s => s.rd f i j) _ _ fun _ => (State.event_rd _ h).trans (State.rd_setClk ..)

theorem State.bootTrip_tripPending : s.bootTrip.clk.tripPending = false := by
  rw [State.bootTrip]
  by_cases h : s.clk.tripPending = true
  · rw [h, State.onlyIf_true, State.clkEvent, State.event_clk, State.setClk_clk]
  · rw [Bool.not_eq_true] at h
    rw [h, State.onlyIf_false, h]

theorem State.bootTrip_sec : s.bootTrip.sec = s.sec :=
  State.onlyIf_keeps (view := State.sec) _ _ fun _ => (State.event_sec _ _ _ _ _ _).trans (State.setClk_sec ..)

variable (s) (get : Nat → Nat → List Byte)

theorem State.bootOk_rd {f : Field} {i j : Nat} (h : f.off i j ∉ evtOffsets) :
    (s.bootOk get).rd f i j = (s.bootRegs get).rd f i j := by
  rw [State.bootOk_keeps (view := fun s => s.rd f i j) get (fun _ _ => State.rd_congr (State.setPair_regs ..) _ _ _)
    (fun _ _ => State.rd_congr (State.setEla_regs ..) _ _ _) fun _ _ _ _ _ => State.event_rd _ h, State.bootTrip_rd h,
    State.measured, State.rd_congr (State.setSec_regs ..)]

theorem State.bootOk_fwMeas : (s.bootOk get).sec.fwMeas = fwMeasure get := by
  rw [State.bootOk_keeps (view := State.sec) get (fun _ _ => State.setPair_sec ..) (fun _ _ => State.setEla_sec ..)
    fun _ _ _ _ _ => State.event_sec .., State.bootTrip_sec, State.measured, State.setSec_sec]

theorem State.bootOk_tripPending : (s.bootOk get).clk.tripPending = false := by
  rw [State.bootOk_keeps (view := State.clk) get (fun _ _ => State.setPair_clk ..) (fun _ _ => State.setEla_clk ..)
    fun _ _ _ _ _ => State.event_clk .., State.bootTrip_tripPending]

/-- The fields of SEC_BOOT that firmware sets as it starts. -/
theorem State.bootRegs_boot : (s.bootRegs get).rd F.SEC_BOOT.STATE = 1 ∧ (s.bootRegs get).rd F.SEC_BOOT.CAUSE = 0 ∧
    (s.bootRegs get).rd F.SEC_BOOT.FW_SVN = fieldAt (get 0 128) 8 1 := by
  have hkeep (t : State) {f : Field} (h : f.off 0 0 ≠ 0x18) : (t.wr F.GLB_STATUS.BOOT_OK 1).rd f = t.rd f :=
    t.rd_wr_other _ _ _ _ _ _ _ h
  have hsvn (t : State) {f : Field} (h : F.SEC_BOOT.FW_SVN.hi < f.lo) (v : Nat) :
      (t.wr F.SEC_BOOT.FW_SVN v).rd f = t.rd f :=
    t.rd_wr_field _ _ _ _ _ _ _ ⟨by decide, by decide⟩ (.inr h)
  rw [State.bootRegs, hkeep _ (by decide), hkeep _ (by decide), hkeep _ (by decide), hsvn _ (by decide), hsvn _ (by decide)]
  refine ⟨?_, State.rd_wr_lt _ ⟨by decide, by decide⟩ (by decide), State.rd_wr_lt _ ⟨by decide, by decide⟩ (fieldAt_lt ..)⟩
  rw [State.rd_wr_field _ _ _ _ _ _ _ _ ⟨by decide, by decide⟩ (.inr (by decide))]
  exact State.rd_wr_lt _ ⟨by decide, by decide⟩ (by decide)

/-- The running firmware shows itself: no cause, its version, BOOT_OK (R457). -/
theorem State.bootOk_status : (s.bootOk get).rd F.SEC_BOOT.STATE = 1 ∧ (s.bootOk get).rd F.SEC_BOOT.CAUSE = 0 ∧
    (s.bootOk get).rd F.SEC_BOOT.FW_SVN = fieldAt (get 0 128) 8 1 ∧ (s.bootOk get).rd F.GLB_STATUS.BOOT_OK = 1 := by
  obtain ⟨hstate, hcause, hsvn⟩ := s.bootRegs_boot get
  refine ⟨(s.bootOk_rd get (by decide)).trans hstate, (s.bootOk_rd get (by decide)).trans hcause,
    (s.bootOk_rd get (by decide)).trans hsvn, (s.bootOk_rd get (by decide)).trans ?_⟩
  exact State.rd_wr_lt _ ⟨by decide, by decide⟩ (by decide)

end

theorem State.bootOk_flash (s : State) (get : Nat → Nat → List Byte) {f : Field} (h : f.off 0 0 = 0x280020) :
    (s.bootOk get).rd f = s.rd f := by
  rw [s.bootOk_rd get (by rw [h]; decide), State.bootRegs, State.rd_wr_other _ _ _ _ _ _ _ _ (by rw [h]; decide),
    State.rd_wr_other _ _ _ _ _ _ _ _ (by rw [h]; decide), State.rd_wr_other _ _ _ _ _ _ _ _ (by rw [h]; decide),
    State.rd_wr_other _ _ _ _ _ _ _ _ (by rw [h]; decide)]

/-! ### The steps -/

section
variable {s : State} (ha : s.alive = true)
include ha

section
variable (hb : s.rdb F.GLB_STATUS.BOOT_OK = false) (hst : s.rd F.SEC_BOOT.STATE = 0)
include hb hst

theorem exec_bootComplete (flash : Option Bool) (rf : Bool) : exec (.bootComplete flash rf) s = .next
    (let t := s.booted flash
     let cause := if flash.isNone then 1 else if rf then 6 else s.fwCheck s.flashRead
     if cause = 0 then t.bootOk t.flashRead else t.toRecovery cause) := by
  have hrun : (!s.rdb F.GLB_STATUS.BOOT_OK && s.rd F.SEC_BOOT.STATE == 0) = true := by rw [hb, hst]; rfl
  rw [exec, execBootComplete, s.live_run _ ha, hrun, State.onlyIf_true]
  dsimp only
  rw [← State.booted, s.booted_fwCheck]
  rfl

end

theorem exec_deviceReady : exec .deviceReady s = .next
    (s.onlyIf (s.mem.kiln.isNone && (s.recovery || (s.rdb F.GLB_STATUS.BOOT_OK && s.clk.hbmTrained))) fun s =>
      s.wr F.GLB_STATUS.READY 1) := by
  rw [exec, execDeviceReady, s.live_run _ ha]

end

/-! ### The clauses -/

theorem State.fwCheck_lt (s : State) (get : Nat → Nat → List Byte) : s.fwCheck get < 256 := by
  rw [State.fwCheck]
  dsimp only
  split_ifs <;> decide

theorem State.recovered_bootOk {s : State} (hb : s.rdb F.GLB_STATUS.BOOT_OK = false) (flash : Option Bool) (cause : Nat) :
    ((s.booted flash).toRecovery cause).rdb F.GLB_STATUS.BOOT_OK = false := by
  rw [State.rdb, State.toRecovery_rd _ (by decide), s.booted_rd _ (by decide) (.inl (by decide))]
  exact hb

section
variable {s : State} (ha : s.alive = true) (hb : s.rdb F.GLB_STATUS.BOOT_OK = false) (hst : s.rd F.SEC_BOOT.STATE = 0)
include ha hb hst

/-- Without a flash: RECOVERY with cause 1. -/
theorem bootComplete_noFlash (rf : Bool) : ∃ t, exec (.bootComplete none rf) s = .next t ∧ t.recovery = true ∧
    t.rd F.SEC_BOOT.CAUSE = 1 ∧ t.rdb F.GLB_STATUS.BOOT_OK = false ∧ t.rd F.CFG_FLASH.PRESENT = 0 ∧ t.events = s.events := by
  refine ⟨(s.booted none).toRecovery 1, exec_bootComplete ha hb hst none rf, State.toRecovery_recovery 1,
    State.toRecovery_cause (by decide), State.recovered_bootOk hb none 1, ?_, ?_⟩
  · rw [State.toRecovery_rd _ (by decide)]
    exact (s.booted_flash none).1
  · rw [State.toRecovery, State.wr_events, State.wr_events]
    exact s.booted_keeps none fun _ _ _ _ _ => State.wr_events ..

/-- A flash that cannot be read: RECOVERY with cause 6. -/
theorem bootComplete_readFail (m : Bool) : ∃ t, exec (.bootComplete (some m) true) s = .next t ∧ t.recovery = true ∧
    t.rd F.SEC_BOOT.CAUSE = 6 :=
  ⟨(s.booted (some m)).toRecovery 6, exec_bootComplete ha hb hst (some m) true, State.toRecovery_recovery 6,
    State.toRecovery_cause (by decide)⟩

theorem exec_bootComplete_runs (m : Bool) (hok : s.fwCheck s.flashRead = 0) :
    exec (.bootComplete (some m) false) s = .next ((s.booted (some m)).bootOk s.flashRead) := by
  have hflash : (s.booted (some m)).flashRead = s.flashRead := funext fun _ => funext fun _ =>
    State.flashRead_congr (by rw [s.booted_sec]) _ _
  rw [exec_bootComplete ha hb hst]
  simp only [Option.isNone_some, Bool.false_eq_true, if_false, hok, if_true, hflash]

theorem exec_bootComplete_fails (m : Bool) (hbad : s.fwCheck s.flashRead ≠ 0) : exec (.bootComplete (some m) false) s =
    .next ((s.booted (some m)).toRecovery (s.fwCheck s.flashRead)) := by
  rw [exec_bootComplete ha hb hst]
  simp only [Option.isNone_some, Bool.false_eq_true, if_false, hbad]

/-- A flash that can be read: its image runs, or brings RECOVERY with the cause of the check that failed. -/
theorem bootComplete_flash (m : Bool) : ∃ t, exec (.bootComplete (some m) false) s = .next t ∧
    t.rd F.CFG_FLASH.PRESENT = 1 ∧ t.rdb F.CFG_FLASH.MODE = m ∧ t.rd F.SEC_BOOT.CAUSE = s.fwCheck s.flashRead ∧
      (s.fwCheck s.flashRead = 0 → t.rd F.SEC_BOOT.STATE = 1 ∧ t.rdb F.GLB_STATUS.BOOT_OK = true ∧
        t.rd F.SEC_BOOT.FW_SVN = fieldAt (s.flashRead 0 128) 8 1 ∧ t.sec.fwMeas = fwMeasure s.flashRead ∧
        t.clk.tripPending = false) ∧
      (s.fwCheck s.flashRead ≠ 0 → t.recovery = true ∧ t.rdb F.GLB_STATUS.BOOT_OK = false) := by
  obtain ⟨hpresent, hmode⟩ := s.booted_flash (some m)
  have hflag {t : State} (h : t.rd F.CFG_FLASH.MODE = (s.booted (some m)).rd F.CFG_FLASH.MODE) : t.rdb F.CFG_FLASH.MODE = m := by
    rw [State.rdb, h, hmode]
    cases m <;> rfl
  by_cases hok : s.fwCheck s.flashRead = 0
  · obtain ⟨hstate, hcause, hsvn, hboot⟩ := (s.booted (some m)).bootOk_status s.flashRead
    have hword {f : Field} (h : f.off 0 0 = 0x280020) := (s.booted (some m)).bootOk_flash s.flashRead h
    exact ⟨_, exec_bootComplete_runs ha hb hst m hok, (hword rfl).trans hpresent, hflag (hword rfl), hcause.trans hok.symm,
      fun _ => ⟨hstate, State.rdb_of_rd _ hboot, hsvn, State.bootOk_fwMeas .., State.bootOk_tripPending ..⟩,
      fun h => absurd hok h⟩
  · exact ⟨_, exec_bootComplete_fails ha hb hst m hok, (State.toRecovery_rd _ (by decide)).trans hpresent,
      hflag (State.toRecovery_rd _ (by decide)), State.toRecovery_cause (s.fwCheck_lt _), fun h => absurd h hok,
      fun _ => ⟨State.toRecovery_recovery _, State.recovered_bootOk hb _ _⟩⟩

end

section
variable {s : State} (ha : s.alive = true)
include ha

theorem hbmTrainingComplete_shows (hb : s.rdb F.GLB_STATUS.BOOT_OK = true)
    (hx : s.rdb F.CLK_STATUS.XTAL_RDY = true ∨ s.rdb F.CLK_STATUS.XTAL_TIMEOUT = true) :
    ∃ t, exec .hbmTrainingComplete s = .next t ∧ t.rd F.MEM_HBM_STAT.READY = 3 ∧ t.clk.hbmTrained = true ∧ t.mem = s.mem := by
  have hrun : (s.rdb F.GLB_STATUS.BOOT_OK && (s.rdb F.CLK_STATUS.XTAL_RDY || s.rdb F.CLK_STATUS.XTAL_TIMEOUT)) = true := by
    rw [hb, Bool.true_and, Bool.or_eq_true]
    exact hx
  have hexec : exec .hbmTrainingComplete s =
      .next ((s.wr F.MEM_HBM_STAT.READY 3).setClk { s.clk with hbmTrained := true }) := by
    rw [exec, execHbmTrainingComplete, s.live_run _ ha, hrun, State.onlyIf_true]
  refine ⟨_, hexec, ?_, by rw [State.setClk_clk], by rw [State.setClk_mem, State.wr_mem]⟩
  rw [State.rd_setClk]
  exact s.rd_wr_lt ⟨by decide, by decide⟩ (by decide)

theorem deviceReady_shows (hk : s.mem.kiln = none)
    (h : s.recovery = true ∨ (s.rdb F.GLB_STATUS.BOOT_OK = true ∧ s.clk.hbmTrained = true)) :
    ∃ t, exec .deviceReady s = .next t ∧ t.rd F.GLB_STATUS.READY = 1 ∧
      t.rd F.GLB_STATUS.BOOT_OK = s.rd F.GLB_STATUS.BOOT_OK ∧ t.host = s.host ∧ t.units = s.units := by
  have hrun : (s.mem.kiln.isNone && (s.recovery || (s.rdb F.GLB_STATUS.BOOT_OK && s.clk.hbmTrained))) = true := by
    rw [hk, Option.isNone_none, Bool.true_and, Bool.or_eq_true, Bool.and_eq_true]
    exact h
  have hexec := exec_deviceReady ha
  rw [hrun, State.onlyIf_true] at hexec
  exact ⟨_, hexec, s.rd_wr_lt ⟨by decide, by decide⟩ (by decide), s.rd_wr_field _ _ _ _ _ _ _ ⟨by decide, by decide⟩ (.inr (by decide)),
    State.wr_host .., State.wr_units ..⟩

theorem deviceReady_waits (hk : s.mem.kiln ≠ none) : exec .deviceReady s = .next s := by
  rw [exec_deviceReady ha, Option.isNone_eq_false_iff.mpr (Option.isSome_iff_ne_none.mpr hk), Bool.false_and, State.onlyIf_false]

end

end Sys2Proof.Machine
open Sys2Proof Sys2Proof.Machine

/-- Settles O25: the boot ROM's verdict is `fwCheck` of the flash, which what it writes before leaves as it was. -/
theorem bootEndsInReadyOrRecovery : Obligations.BootEndsInReadyOrRecovery :=
  ⟨fun _ rf ha hb hst => bootComplete_noFlash ha hb hst rf,
    fun _ m ha hb hst => ⟨bootComplete_readFail ha hb hst m, bootComplete_flash ha hb hst m⟩,
    fun _ ha hb hx => hbmTrainingComplete_shows ha hb hx, fun _ ha hk h => deviceReady_shows ha hk h,
    fun _ ha hk => deviceReady_waits ha hk⟩
end

section
/-! PROOF. The channel decoder: its queues, engines, tables and counters (R304 to R307, R311, R315, R317). -/

namespace Sys2Proof.Machine

/-! ### What leaves the decoder alone -/

theorem memBlind_dec : MemBlind State.dec :=
  ⟨fun _ _ _ => rfl, fun _ _ => rfl, fun _ _ => rfl, fun _ _ _ _ _ _ => State.units_dec (State.event_units ..)⟩

section
variable (s : State)

theorem State.accept_dec (ref : CmdRef) (op : Nat) : (s.accept ref op).dec = s.dec := State.units_dec (s.accept_units ..)

/-- A job that is run reads and writes memory. -/
theorem State.decRun_dec (d : DecDesc) : (s.decRun d).2.dec = s.dec := by
  rw [State.decRun]
  dsimp only
  rw [memBlind_dec.memWrite, memBlind_dec.memWrite]
  split
  · rw [memBlind_dec.memRead, memBlind_dec.memRead]
  · rw [memBlind_dec.memRead]

/-- A job that is released counts, writes its record, submits its successor and completes its command. -/
theorem State.decRelease_dec (q : Nat) (j : DecJob) (rb : List Byte) : (s.decRelease q j rb).dec = s.dec := by
  have hcount (t : State) (f g h : Field) (c : Bool) (n : Nat) :
      (((t.sat f).onlyIf c fun s => s.sat g).sat64 h 0 n).dec = t.dec := by
    rw [State.sat64_dec, State.onlyIf_keeps (view := State.dec) _ _ fun t => State.sat_dec .., State.sat_dec]
  have hsat (t : State) (c : Bool) (f : Field) : (t.onlyIf c fun s => s.sat f).dec = t.dec :=
    State.onlyIf_keeps _ _ fun t => State.sat_dec ..
  rw [State.decRelease]
  dsimp only
  rw [State.units_dec (State.completeOpt_units ..),
    State.onlyIf_keeps (view := State.dec) _ _ fun t => by
      rw [memBlind_dec.coreSubmit _ State.setDsp_dec, memBlind_dec.fetchDesc],
    State.onlyIf_keeps (view := State.dec) _ _ fun t => memBlind_dec.put t _ _ _,
    State.onlyIf_keeps (view := State.dec) _ _ fun t => memBlind_dec.event t .., hsat, hsat, hsat,
    State.onlyIf_keeps (view := State.dec) _ _ fun t => hcount t .., State.onlyIf_keeps (view := State.dec) _ _ fun t => hcount t ..]

end

/-! ### The queues (R304) -/

section
variable (s : State) (q : Nat) (l : List DecJob)

theorem State.decQueue_congr {s t : State} (h : t.dec = s.dec) (q : Nat) : t.decQueue q = s.decQueue q := by
  rw [State.decQueue, h, State.decQueue]

/-- Setting a queue changes it, and DEC_Q shows its depth and its greatest depth. -/
theorem State.setDecQueue_keeps {α : Type} {view : State → α} (hdec : ∀ t x, view (State.setDec t x) = view t)
    (hreg : ∀ t v i, view (State.wr t F.DEC_Q.DEPTH v i) = view t) (hmax : ∀ t v i, view (State.wr t F.DEC_Q.MAX v i) = view t) :
    view (s.setDecQueue q l) = view s := by
  rw [State.setDecQueue]
  dsimp only
  rw [State.onlyIf_keeps _ _ fun t => hmax t _ _, hreg, hdec]

theorem State.setDecQueue_dec : (s.setDecQueue q l).dec = { s.dec with q := Sparse.set (fun _ => []) s.dec.q q l } := by
  rw [State.setDecQueue]
  dsimp only
  rw [State.onlyIf_keeps (view := State.dec) _ _ fun t => State.wr_dec .., State.wr_dec, State.setDec_dec]

theorem State.decQueue_setDecQueue (p : Nat) : (s.setDecQueue q l).decQueue p = if p = q then l else s.decQueue p := by
  rw [State.decQueue, State.setDecQueue_dec]
  exact Sparse.get_set ..

theorem State.setDecQueue_mem : (s.setDecQueue q l).mem = s.mem :=
  s.setDecQueue_keeps q l State.setDec_mem (fun _ _ _ => State.wr_mem ..) fun _ _ _ => State.wr_mem ..

theorem State.setDecQueue_events : (s.setDecQueue q l).events = s.events :=
  s.setDecQueue_keeps q l State.setDec_events (fun _ _ _ => State.wr_events ..) fun _ _ _ => State.wr_events ..

theorem State.setDecQueue_host : (s.setDecQueue q l).host = s.host :=
  s.setDecQueue_keeps q l State.setDec_host (fun _ _ _ => State.wr_host ..) fun _ _ _ => State.wr_host ..

theorem State.setDecQueue_cores : (s.setDecQueue q l).cores = s.cores :=
  s.setDecQueue_keeps q l State.setDec_cores (fun _ _ _ => State.wr_cores ..) fun _ _ _ => State.wr_cores ..

theorem State.setDecQueue_depth (h : l.length < 128) : (s.setDecQueue q l).rd F.DEC_Q.DEPTH q = l.length := by
  rw [State.setDecQueue]
  dsimp only
  rw [State.onlyIf_keeps (view := fun s => s.rd F.DEC_Q.DEPTH q) _ _ fun t =>
    t.rd_wr_field _ _ _ _ _ _ _ ⟨by decide, by decide⟩ (.inl (by decide))]
  exact State.rd_wr_lt _ ⟨by decide, by decide⟩ h

theorem State.setDecQueue_max (h : l.length < 128) :
    (s.setDecQueue q l).rd F.DEC_Q.MAX q = max (s.rd F.DEC_Q.MAX q) l.length := by
  have hkeep (t : State) : (t.wr F.DEC_Q.DEPTH l.length q).rd F.DEC_Q.MAX q = t.rd F.DEC_Q.MAX q :=
    t.rd_wr_field _ _ _ _ _ _ _ ⟨by decide, by decide⟩ (.inr (by decide))
  rw [State.setDecQueue]
  dsimp only
  rw [hkeep, State.rd_congr (State.setDec_regs ..)]
  by_cases hm : s.rd F.DEC_Q.MAX q < l.length
  · rw [decide_eq_true hm, State.onlyIf_true, State.rd_wr_lt _ ⟨by decide, by decide⟩ h]
    omega
  · rw [decide_eq_false hm, State.onlyIf_false, hkeep, State.rd_congr (State.setDec_regs ..)]
    omega

/-- A queue that holds a job stands in the table of the queues. -/
theorem State.decQueue_mem {j : DecJob} (h : j ∈ s.decQueue q) : ∃ x ∈ s.dec.q, j ∈ x.2 := by
  have find_mem (m : List (Nat × List DecJob)) : ∀ a, Sparse.find m q = some a → ∃ x ∈ m, x.2 = a := by
    induction m with
    | nil => exact fun a h => nomatch h
    | cons x m ih =>
      intro a h
      rw [show x = (x.1, x.2) from rfl, Sparse.find_cons] at h
      split at h
      · exact ⟨x, List.mem_cons_self, Option.some.inj h⟩
      · obtain ⟨y, hy, hya⟩ := ih a h
        exact ⟨y, List.mem_cons_of_mem _ hy, hya⟩
  rw [State.decQueue, Sparse.get] at h
  cases hf : Sparse.find s.dec.q q with
  | none => rw [hf] at h; exact absurd h List.not_mem_nil
  | some a =>
    rw [hf] at h
    obtain ⟨x, hx, rfl⟩ := find_mem _ _ hf
    exact ⟨x, hx, h⟩

/-- A queue whose head has not ended releases nothing. -/
theorem State.decReleases_waits (n : Nat) (h : ∀ j k, s.decQueue q = j :: k → j.done = none) : s.decReleases n q = s := by
  cases n with
  | zero => rfl
  | succ n =>
    rw [State.decReleases]
    split
    · rename_i j k hq
      rw [h j k hq]
    · rfl

/-- A queue whose only job has ended releases it. -/
theorem State.decReleases_last (n : Nat) {j : DecJob} {rb : List Byte} (h : s.decQueue q = [j]) (hd : j.done = some rb) :
    s.decReleases (n + 1) q = (s.setDecQueue q []).decRelease q j rb := by
  have hempty : ((s.setDecQueue q []).decRelease q j rb).decQueue q = [] := by
    rw [State.decQueue_congr (State.decRelease_dec ..), State.decQueue_setDecQueue, if_pos rfl]
  rw [State.decReleases]
  simp only [h, hd]
  exact State.decReleases_waits _ _ _ fun j k hq => nomatch hempty.symm.trans hq

end

/-! ### Submission (R304, R305, R315) -/

section
variable (s : State) (q far : Nat) (j : Job)

/-- The machine that has discarded a poisoned descriptor. -/
def State.decDiscard (s : State) (q far : Nat) : State :=
  ((s.poisonConsumed reqDec (far * 16) 4).event 0x0810 sevWarn (sourceId 0x0810 0 (0x300 + q)) (payload [(16, 4, far)])).sat
    F.DEC_Q.DISC q

theorem State.decSubmit_poisoned (h : j.poison = true) :
    s.decSubmit q far j = some ((s.decDiscard q far).completeOpt j.ref stRange) := by
  rw [State.decSubmit, if_pos h]
  rfl

theorem State.decDiscard_dec : (s.decDiscard q far).dec = s.dec := by
  rw [State.decDiscard, State.sat_dec, memBlind_dec.event, memBlind_dec.poisonConsumed]

theorem State.decDiscard_mem : (s.decDiscard q far).mem = s.mem := by
  rw [State.decDiscard, State.sat_mem, State.units_mem (State.event_units ..), State.poisonConsumed]
  exact State.units_mem (State.event_units ..)

theorem State.decDiscard_disc :
    (s.decDiscard q far).rd F.DEC_Q.DISC q = min 255 (s.rd F.DEC_Q.DISC q + 1) := by
  have hoff : 0x40000 ≤ F.DEC_Q.DISC.off q 0 := by simp only [Field.off, F.DEC_Q.DISC]; omega
  have hkeep : ((s.poisonConsumed reqDec (far * 16) 4).event 0x0810 sevWarn (sourceId 0x0810 0 (0x300 + q))
      (payload [(16, 4, far)])).rd F.DEC_Q.DISC q = s.rd F.DEC_Q.DISC q := by
    rw [State.event_rd _ (not_mem_evtOffsets hoff), State.poisonConsumed]
    exact State.event_rd _ (not_mem_evtOffsets hoff)
  rw [State.decDiscard, State.sat, satAdd_eq_min, hkeep]
  exact State.rd_wr_lt _ ⟨by decide, by decide⟩ (Nat.lt_of_le_of_lt (Nat.min_le_left ..) (by decide))

section
variable {j} (hclean : j.poison = false)
include hclean

theorem State.decSubmit_full (h : 64 ≤ (s.decQueue q).length) : s.decSubmit q far j = none := by
  rw [State.decSubmit, if_neg (by rw [hclean]; decide), if_pos h]

/-- The machine with a job in its queue, its command past its point of no return. -/
def State.decQueued (s : State) (q far : Nat) (j : Job) (done : Option (List Byte)) : State :=
  let s := s.setDecQueue q (s.decQueue q ++ [⟨j, far, none, done⟩])
  match j.ref with | some r => s.pastPoint r | none => s

theorem State.decSubmit_room (h : (s.decQueue q).length < 64) : s.decSubmit q far j = some ((s.decQueued q far j
    (if s.decValid j.desc then none else some (decRecord stRange {} (decDesc j.desc).user))).decReleases 1 q) := by
  rw [State.decSubmit, if_neg (by rw [hclean]; decide), if_neg (Nat.not_le.mpr h)]
  rfl

end

theorem State.decQueued_keeps {α : Type} {view : State → α} (hhost : ∀ t x, view (State.setHost t x) = view t)
    (done : Option (List Byte)) :
    view (s.decQueued q far j done) = view (s.setDecQueue q (s.decQueue q ++ [⟨j, far, none, done⟩])) := by
  rw [State.decQueued]
  split
  · exact hhost ..
  · rfl

theorem State.decQueue_decQueued (done : Option (List Byte)) (p : Nat) : (s.decQueued q far j done).decQueue p =
    if p = q then s.decQueue q ++ [⟨j, far, none, done⟩] else s.decQueue p := by
  rw [State.decQueue_congr (s.decQueued_keeps q far j State.setHost_dec done), State.decQueue_setDecQueue]

end

/-! ### DEC_JOB (R304, R305) -/

section
variable {s : State} {ref : CmdRef} {q : BitVec 8} (desc : List Byte) (ht : s.takes ref 0x0810)
include ht

theorem exec_decJob_range (h : 3 < q.toNat) :
    exec (.decJob ref q desc false) s = .next ((s.accept ref 0x0810).complete ref stRange) := by
  simp only [exec, execDecJob, s.command_run _ _ _ ht, if_pos h]

variable (hq : q.toNat ≤ 3)
include hq

theorem exec_decJob_full (h : 64 ≤ (s.decQueue q.toNat).length) :
    exec (.decJob ref q desc false) s = .next ((s.accept ref 0x0810).complete ref stBusy) := by
  have hsame := State.decQueue_congr (s.accept_dec ref 0x0810) q.toNat
  simp only [exec, execDecJob, s.command_run _ _ _ ht, if_neg (Nat.not_lt.mpr hq),
    State.decSubmit_full _ _ _ (j := ⟨some ref, padTo 64 desc, false⟩) rfl (hsame ▸ h)]

theorem exec_decJob_room (h : (s.decQueue q.toNat).length < 64) : exec (.decJob ref q desc false) s =
    .next (((s.accept ref 0x0810).decQueued q.toNat 0 ⟨some ref, padTo 64 desc, false⟩
      (if (s.accept ref 0x0810).decValid (padTo 64 desc) then none
        else some (decRecord stRange {} (decDesc (padTo 64 desc)).user))).decReleases 1 q.toNat) := by
  have hsame := State.decQueue_congr (s.accept_dec ref 0x0810) q.toNat
  simp only [exec, execDecJob, s.command_run _ _ _ ht, if_neg (Nat.not_lt.mpr hq),
    State.decSubmit_room _ _ _ (j := ⟨some ref, padTo 64 desc, false⟩) rfl (hsame ▸ h)]

theorem exec_decJob_poisoned : exec (.decJob ref q desc true) s =
    .next (((s.accept ref 0x0810).decDiscard q.toNat 0).complete ref stRange) := by
  simp only [exec, execDecJob, s.command_run _ _ _ ht, if_neg (Nat.not_lt.mpr hq),
    State.decSubmit_poisoned _ _ _ ⟨some ref, padTo 64 desc, true⟩ rfl]
  rfl

theorem decJob_discards : ∃ t v : State, exec (.decJob ref q desc true) s = .next t ∧ t = v.complete ref stRange ∧
    v.dec = s.dec ∧ v.rd F.DEC_Q.DISC q.toNat = min 255 (s.rd F.DEC_Q.DISC q.toNat + 1) ∧ v.mem = s.mem := by
  refine ⟨_, _, exec_decJob_poisoned desc ht hq, rfl, ?_, ?_, ?_⟩
  · rw [State.decDiscard_dec, State.accept_dec]
  · rw [State.decDiscard_disc, s.accept_rd ref _ (by simp only [Field.off, F.DEC_Q.DISC]; omega)]
  · rw [State.decDiscard_mem, State.accept_mem]

/-- A valid job waits in its place. -/
theorem decJob_queues (h : (s.decQueue q.toNat).length < 64) (hv : (s.accept ref 0x0810).decValid (padTo 64 desc) = true)
    (hw : ∀ j k, s.decQueue q.toNat = j :: k → j.done = none) : ∃ t, exec (.decJob ref q desc false) s = .next t ∧
      t.decQueue q.toNat = s.decQueue q.toNat ++ [⟨⟨some ref, padTo 64 desc, false⟩, 0, none, none⟩] ∧
      t.rd F.DEC_Q.DEPTH q.toNat = (s.decQueue q.toNat).length + 1 ∧
      t.rd F.DEC_Q.MAX q.toNat = max (s.rd F.DEC_Q.MAX q.toNat) ((s.decQueue q.toNat).length + 1) ∧
      (∀ p, p ≠ q.toNat → t.decQueue p = s.decQueue p) ∧ t.mem = s.mem ∧ t.events = s.events := by
  have hsame := State.decQueue_congr (s.accept_dec ref 0x0810)
  have hexec := exec_decJob_room desc ht hq h
  rw [if_pos hv, State.decReleases_waits] at hexec
  · refine ⟨_, hexec, ?_, ?_, ?_, fun p hp => ?_, ?_, ?_⟩
    · rw [State.decQueue_decQueued, if_pos rfl, hsame]
    · rw [State.decQueued_keeps (view := fun s => s.rd F.DEC_Q.DEPTH q.toNat) _ _ _ _ fun _ _ => rfl,
        State.setDecQueue_depth _ _ _ (by rw [List.length_append, hsame]; exact Nat.lt_trans (Nat.succ_lt_succ h) (by decide)),
        List.length_append, hsame]
      rfl
    · rw [State.decQueued_keeps (view := fun s => s.rd F.DEC_Q.MAX q.toNat) _ _ _ _ fun _ _ => rfl,
        State.setDecQueue_max _ _ _ (by rw [List.length_append, hsame]; exact Nat.lt_trans (Nat.succ_lt_succ h) (by decide)),
        List.length_append, hsame, s.accept_rd ref _ (by simp only [Field.off, F.DEC_Q.MAX]; omega)]
      rfl
    · rw [State.decQueue_decQueued, if_neg hp, hsame]
    · rw [State.decQueued_keeps _ _ _ _ State.setHost_mem, State.setDecQueue_mem, State.accept_mem]
    · rw [State.decQueued_keeps _ _ _ _ State.setHost_events, State.setDecQueue_events, State.accept_events]
  · rw [State.decQueue_decQueued, if_pos rfl, hsame]
    intro j k hjk
    cases hl : s.decQueue q.toNat with
    | nil =>
      rw [hl, List.nil_append] at hjk
      rw [← (List.cons.inj hjk).1]
    | cons a l =>
      rw [hl, List.cons_append] at hjk
      exact (List.cons.inj hjk).1 ▸ hw a l hl

/-- An invalid job of an empty queue is complete and released at once, with status RANGE. -/
theorem decJob_invalid (hl : s.decQueue q.toNat = []) (hv : (s.accept ref 0x0810).decValid (padTo 64 desc) = false) :
    ∃ t v : State, exec (.decJob ref q desc false) s = .next t ∧ t.decQueue q.toNat = [] ∧
      t = v.decRelease q.toNat ⟨⟨some ref, padTo 64 desc, false⟩, 0, none,
        some (decRecord stRange {} (decDesc (padTo 64 desc)).user)⟩ (decRecord stRange {} (decDesc (padTo 64 desc)).user) := by
  have hsame := State.decQueue_congr (s.accept_dec ref 0x0810) q.toNat
  have hexec := exec_decJob_room desc ht hq (by rw [hl]; decide)
  rw [if_neg (by rw [hv]; decide), State.decReleases_last _ _ _ (j := ⟨⟨some ref, padTo 64 desc, false⟩, 0, none, _⟩)
    (by rw [State.decQueue_decQueued, if_pos rfl, hsame, hl, List.nil_append]) rfl] at hexec
  refine ⟨_, _, hexec, ?_, rfl⟩
  rw [State.decQueue_congr (State.decRelease_dec ..), State.decQueue_setDecQueue, if_pos rfl]

end

/-! ### DEC_JOB_WINDOW_WRITE (R304) -/

theorem State.windowTake_decQueue {s u : State} {n lo hi size : Nat} {x : Xfer} {d : List PByte}
    (h : s.windowTake n lo hi size = some (x, d, u)) (p : Nat) : u.decQueue p = s.decQueue p := by
  obtain ⟨c, rfl⟩ := State.windowTake_core h
  exact State.decQueue_congr (s.setCore_dec n c) p

section
variable {s u : State} {core : BitVec 6} {x : Xfer} {d : List PByte} {far q : Nat}
  (hw : s.windowTake core.toNat 0xFFFEC000 0xFFFF0000 64 = some (x, d, u)) (hclean : poisoned d = false)
  (hfar : x.far + x.done / 16 = far) (hq : (far - 0xFFFEC000) / 0x1000 = q)
include hw hclean hfar hq

theorem exec_decJobWindowWrite_full (h : 64 ≤ (s.decQueue q).length) : exec (.decJobWindowWrite core) s = .next s := by
  have hsame := State.windowTake_decQueue hw q
  simp only [exec, execDecJobWindowWrite, hw, hfar, hq, State.decSubmit_full _ _ _ (j := ⟨none, plain d, poisoned d⟩) hclean
    (hsame ▸ h)]

theorem decJobWindowWrite_queues (h : (s.decQueue q).length < 64) (hv : u.decValid (plain d) = true)
    (hwait : ∀ j k, s.decQueue q = j :: k → j.done = none) : ∃ t, exec (.decJobWindowWrite core) s = .next t ∧
      t.decQueue q = s.decQueue q ++ [⟨⟨none, plain d, false⟩, far, none, none⟩] ∧ t.cores = u.cores ∧ t.mem = s.mem ∧
      t.host = s.host ∧ t.events = s.events := by
  have hsame := State.windowTake_decQueue hw q
  have hexec : exec (.decJobWindowWrite core) s =
      .next (u.setDecQueue q (s.decQueue q ++ [⟨⟨none, plain d, false⟩, far, none, none⟩])) := by
    have hstays : (u.decQueued q far ⟨none, plain d, false⟩ none).decReleases 1 q = u.decQueued q far ⟨none, plain d, false⟩ none := by
      refine State.decReleases_waits _ _ _ fun j k hjk => ?_
      rw [State.decQueue_decQueued, if_pos rfl, hsame] at hjk
      cases hl : s.decQueue q with
      | nil =>
        rw [hl, List.nil_append] at hjk
        rw [← (List.cons.inj hjk).1]
      | cons a l =>
        rw [hl, List.cons_append] at hjk
        exact (List.cons.inj hjk).1 ▸ hwait a l hl
    simp only [exec, execDecJobWindowWrite, hw, hfar, hq, hclean,
      State.decSubmit_room _ _ _ (j := ⟨none, plain d, false⟩) rfl (hsame ▸ h), hv, if_true, hstays]
    rw [State.decQueued, hsame]
  refine ⟨_, hexec, ?_, ?_, ?_, ?_, ?_⟩
  · rw [State.decQueue_setDecQueue, if_pos rfl]
  · rw [State.setDecQueue_cores]
  · rw [State.setDecQueue_mem, State.windowTake_mem hw]
  · rw [State.setDecQueue_host, State.windowTake_host hw]
  · rw [State.setDecQueue_events, State.windowTake_events hw]

end

/-! ### The queue whose head an engine takes (R306) -/

/-- The heads that an engine may take, by rising queue. -/
def State.decHeads (s : State) (e : Nat) : List (Nat × DecDesc) :=
  (List.range 4).filterMap fun q => (s.decHead q).bind fun j => if j.forEngine e then some (q, decDesc j.job.desc) else none

/-- The earlier of the earliest deadline so far, with its queue, and a further head's. -/
def earlierDec (b : Option (Nat × Nat)) (x : Nat × DecDesc) : Option (Nat × Nat) :=
  if x.2.dlEn then
    match b with
    | none => some (x.2.deadline, x.1)
    | some y => if x.2.deadline < y.1 then some (x.2.deadline, x.1) else some y
  else b

theorem State.decPick_eq (s : State) (e : Nat) : s.decPick e = match (s.decHeads e).foldl earlierDec none with
    | some x => some x.2
    | none => (s.decHeads e).head?.map (·.1) := rfl

/-- What is found among heads: nothing where none has a deadline, else the earliest deadline with the queue that has it. -/
def EarliestDec (l : List (Nat × DecDesc)) : Option (Nat × Nat) → Prop
  | none => ∀ d ∈ l, d.2.dlEn = false
  | some (t, q) => (∃ d, (q, d) ∈ l ∧ d.dlEn = true ∧ d.deadline = t) ∧ ∀ d ∈ l, d.2.dlEn = true → t ≤ d.2.deadline

theorem EarliestDec.concat {l : List (Nat × DecDesc)} {b : Option (Nat × Nat)} (h : EarliestDec l b) (e : Nat × DecDesc) :
    EarliestDec (l ++ [e]) (earlierDec b e) := by
  have hlast : (e.1, e.2) ∈ l ++ [e] := List.mem_append_right _ List.mem_cons_self
  have hall {P : Nat × DecDesc → Prop} (hl : ∀ d ∈ l, P d) (he : P e) : ∀ d ∈ l ++ [e], P d :=
    List.forall_mem_append.mpr ⟨hl, List.forall_mem_singleton.mpr he⟩
  cases hd : e.2.dlEn with
  | false =>
    simp only [earlierDec, hd, Bool.false_eq_true, if_false]
    cases b with
    | none => exact hall h hd
    | some x =>
      obtain ⟨⟨d, hmem, hen, hdl⟩, hmin⟩ := h
      exact ⟨⟨d, List.mem_append_left _ hmem, hen, hdl⟩, hall hmin fun hen => nomatch hd.symm.trans hen⟩
  | true =>
    simp only [earlierDec, hd, if_true]
    cases b with
    | none => exact ⟨⟨e.2, hlast, hd, rfl⟩, hall (fun d hl hen => nomatch (h d hl).symm.trans hen) fun _ => Nat.le_refl _⟩
    | some x =>
      obtain ⟨⟨d, hmem, hen, hdl⟩, hmin⟩ := h
      show EarliestDec _ (if e.2.deadline < x.1 then some (e.2.deadline, e.1) else some x)
      split
      next hlt => exact ⟨⟨e.2, hlast, hd, rfl⟩,
        hall (fun d hl hen => Nat.le_of_lt (Nat.lt_of_lt_of_le hlt (hmin d hl hen))) fun _ => Nat.le_refl _⟩
      next hge => exact ⟨⟨d, List.mem_append_left _ hmem, hen, hdl⟩, hall hmin fun _ => Nat.not_lt.mp hge⟩

theorem EarliestDec.foldl {l m : List (Nat × DecDesc)} {b : Option (Nat × Nat)} (h : EarliestDec l b) :
    EarliestDec (l ++ m) (m.foldl earlierDec b) := by
  induction m generalizing l b with
  | nil => rwa [List.append_nil]
  | cons e m ih =>
    rw [List.append_cons]
    exact ih (h.concat e)

theorem earliestDec_foldl (l : List (Nat × DecDesc)) : EarliestDec l (l.foldl earlierDec none) :=
  EarliestDec.foldl (l := []) fun _ hd => nomatch hd

section
variable {s : State} {e q p : Nat} {d : DecDesc}

theorem State.mem_decHeads : (p, d) ∈ s.decHeads e ↔
    p < 4 ∧ ∃ j, s.decHead p = some j ∧ j.forEngine e = true ∧ decDesc j.job.desc = d := by
  simp only [State.decHeads, List.mem_filterMap, List.mem_range, Option.bind_eq_some_iff]
  constructor
  · rintro ⟨a, ha, j, hj, h⟩
    obtain ⟨hfor, h⟩ := Option.ite_none_right_eq_some.mp h
    obtain ⟨rfl, rfl⟩ := Prod.mk.inj (Option.some.inj h)
    exact ⟨ha, j, hj, hfor, rfl⟩
  · rintro ⟨hp, j, hj, hfor, rfl⟩
    exact ⟨p, hp, j, hj, if_pos hfor⟩

theorem State.decHeads_rising (s : State) (e : Nat) : (s.decHeads e).Pairwise fun a b => a.1 < b.1 := by
  refine List.Pairwise.filterMap _ (fun a b hab x hx y hy => ?_) List.pairwise_lt_range
  obtain ⟨_, -, hx⟩ := Option.bind_eq_some_iff.mp hx
  obtain ⟨_, -, hy⟩ := Option.bind_eq_some_iff.mp hy
  obtain ⟨-, hx⟩ := Option.ite_none_right_eq_some.mp hx
  obtain ⟨-, hy⟩ := Option.ite_none_right_eq_some.mp hy
  rw [← Option.some.inj hx, ← Option.some.inj hy]
  exact hab

/-- The first head is that of the lowest queue. -/
theorem State.decHeads_first {x : Nat × DecDesc} (h : (s.decHeads e).head? = some x) (hk : (p, d) ∈ s.decHeads e) : x.1 ≤ p := by
  obtain ⟨l, hl⟩ := List.head?_eq_some_iff.mp h
  have hrising := s.decHeads_rising e
  rw [hl] at hrising hk
  rcases List.mem_cons.mp hk with heq | hmem
  · exact Nat.le_of_eq (congrArg Prod.fst heq).symm
  · exact Nat.le_of_lt ((List.pairwise_cons.mp hrising).1 _ hmem)

/-- An engine takes a head with the earliest deadline, or the first head where none has one. -/
theorem State.decPick_earliest (h : s.decPick e = some q) : ∃ d, (q, d) ∈ s.decHeads e ∧
    ∀ p k, (p, k) ∈ s.decHeads e → (k.dlEn = true → d.dlEn = true ∧ d.deadline ≤ k.deadline) ∧ (d.dlEn = false → q ≤ p) := by
  have hearliest := earliestDec_foldl (s.decHeads e)
  rw [State.decPick_eq] at h
  cases hfound : (s.decHeads e).foldl earlierDec none with
  | none =>
    rw [hfound] at h hearliest
    obtain ⟨x, hx, rfl⟩ := Option.map_eq_some_iff.mp h
    exact ⟨x.2, List.mem_of_mem_head? hx, fun p k hk =>
      ⟨fun hen => (nomatch (hearliest _ hk).symm.trans hen), fun _ => State.decHeads_first hx hk⟩⟩
  | some x =>
    rw [hfound] at h hearliest
    obtain ⟨⟨d, hmem, hen, hdl⟩, hmin⟩ := hearliest
    rw [Option.some.inj h] at hmem
    exact ⟨d, hmem, fun p k hk => ⟨fun hk' => ⟨hen, hdl ▸ hmin _ hk hk'⟩, fun hno => nomatch hno.symm.trans hen⟩⟩

end

theorem decPick_order {s : State} {e q : Nat} (h : s.decPick e = some q) : q < 4 ∧ ∃ j, s.decHead q = some j ∧
    j.forEngine e = true ∧ ∀ (p : Nat) (k : DecJob), p < 4 → s.decHead p = some k → k.forEngine e = true →
      ((decDesc k.job.desc).dlEn = true → (decDesc j.job.desc).dlEn = true ∧
        (decDesc j.job.desc).deadline ≤ (decDesc k.job.desc).deadline) ∧
      ((decDesc j.job.desc).dlEn = false → q ≤ p) := by
  obtain ⟨d, hmem, hearliest⟩ := State.decPick_earliest h
  obtain ⟨hq, j, hj, hfor, rfl⟩ := State.mem_decHeads.mp hmem
  exact ⟨hq, j, hj, hfor, fun p k hp hk hkfor => hearliest p _ (State.mem_decHeads.mpr ⟨hp, k, hk, hkfor, rfl⟩)⟩

/-! ### DEC_JOB_START and DEC_JOB_COMPLETE (R306) -/

section
variable {p : DecJob → Bool} {f : DecJob → DecJob} {j h : DecJob} {l : List DecJob}

theorem updFirst_length (p : DecJob → Bool) (f : DecJob → DecJob) (l : List DecJob) : (updFirst p f l).length = l.length := by
  induction l with
  | nil => rfl
  | cons j l ih =>
    rw [updFirst]
    split
    · rfl
    · rw [List.length_cons, ih, List.length_cons]

theorem updFirst_mem (h : l.find? p = some j) : f j ∈ updFirst p f l := by
  induction l with
  | nil => exact nomatch h
  | cons a l ih =>
    rw [updFirst]
    rw [List.find?_cons] at h
    cases ha : p a with
    | true =>
      rw [ha] at h
      rw [if_pos rfl, Option.some.inj h]
      exact List.mem_cons_self
    | false =>
      rw [ha] at h
      rw [if_neg Bool.false_ne_true]
      exact List.mem_cons_of_mem _ (ih h)

theorem updFirst_head (hj : p j = true) : updFirst p f (j :: l) = f j :: l := if_pos hj

theorem updFirst_second (hh : p h = false) (hj : p j = true) : updFirst p f (h :: j :: l) = h :: f j :: l := by
  rw [updFirst, hh, if_neg Bool.false_ne_true, updFirst_head hj]

end

/-- A job that an engine runs. -/
def DecJob.runsOn (e : Nat) (j : DecJob) : Bool := j.engine == some e && j.done.isNone

theorem DecJob.runsOn_iff {e : Nat} {j : DecJob} : j.runsOn e = true ↔ j.engine = some e ∧ j.done = none := by
  rw [DecJob.runsOn, Bool.and_eq_true, beq_iff_eq, Option.isNone_iff_eq_none]

section
variable {s : State}

theorem State.showDec_keeps {α : Type} {view : State → α} (h : ∀ (t : State) f v i j, view (t.wr f v i j) = view t) :
    view s.showDec = view s := by
  rw [State.showDec, State.wrb, h, State.wrb, h, h]

theorem State.showDec_dec : s.showDec.dec = s.dec := State.showDec_keeps fun _ _ _ _ _ => State.wr_dec ..

theorem State.decBusy_congr {s t : State} (h : t.dec = s.dec) (e : Nat) : t.decBusy e = s.decBusy e := by
  rw [State.decBusy, h, State.decBusy]

theorem State.showDec_enc : s.showDec.rd F.DEC_STATUS.ENC_BUSY = b2n (s.decBusy 3) := by
  rw [State.showDec, State.rd_wrb_same _ _ _ _ _ ⟨by decide, by decide⟩ rfl]

theorem State.showDec_turbo : s.showDec.rd F.DEC_STATUS.TURBO_BUSY = b2n (s.decBusy 2) := by
  rw [State.showDec, State.rd_wrb_field _ _ _ _ _ _ _ _ ⟨by decide, by decide⟩ (.inl (by decide)),
    State.rd_wrb_same _ _ _ _ _ ⟨by decide, by decide⟩ rfl]

/-- An engine runs a job that stands in a queue. -/
theorem State.decBusy_of_mem {q e : Nat} {j : DecJob} (h : j ∈ s.decQueue q) (he : j.engine = some e) (hd : j.done = none) :
    s.decBusy e = true := by
  obtain ⟨x, hx, hj⟩ := s.decQueue_mem q h
  refine List.any_eq_true.mpr ⟨x, hx, List.any_eq_true.mpr ⟨j, hj, ?_⟩⟩
  rw [he, hd, beq_self_eq_true]
  rfl

/-- The first job of the queues that an engine runs, with its queue. -/
def State.decRunning (s : State) (e : Nat) : Option (Nat × DecJob) :=
  (List.range 4).findSome? fun q => ((s.decQueue q).find? (DecJob.runsOn e)).map fun j => (q, j)

section
variable {e : Nat} {h j : DecJob} {l : List DecJob} (he : j.engine = some e) (hd : j.done = none)
include he hd

theorem State.decRunning_first (hq : s.decQueue 0 = j :: l) : s.decRunning e = some (0, j) := by
  have hj : j.runsOn e = true := DecJob.runsOn_iff.mpr ⟨he, hd⟩
  rw [State.decRunning, List.range_succ_eq_map, List.findSome?_cons, hq, List.find?_cons, hj]
  rfl

theorem State.decRunning_second (hq : s.decQueue 0 = h :: j :: l) (hh : h.runsOn e = false) :
    s.decRunning e = some (0, j) := by
  have hj : j.runsOn e = true := DecJob.runsOn_iff.mpr ⟨he, hd⟩
  rw [State.decRunning, List.range_succ_eq_map, List.findSome?_cons, hq, List.find?_cons, hh, List.find?_cons, hj]
  rfl

end

section
variable (ha : s.alive = true) {engine : BitVec 2}
include ha

theorem decJobStart_idle (h : s.decBusy engine.toNat = true ∨ s.decPick engine.toNat = none) :
    exec (.decJobStart engine) s = .next s := by
  rcases h with h | h
  · simp only [exec, execDecJobStart, s.live_run _ ha, h, if_true]
  · simp only [exec, execDecJobStart, s.live_run _ ha, h, ite_self]

/-- A free engine starts the job that it picks. -/
theorem decJobStart_starts {q : Nat} {j : DecJob} (hfree : s.decBusy engine.toNat = false)
    (hpick : s.decPick engine.toNat = some q) (hhead : s.decHead q = some j) : ∃ t, exec (.decJobStart engine) s = .next t ∧
      t.decBusy engine.toNat = true ∧ { j with engine := some engine.toNat } ∈ t.decQueue q ∧
      (t.decQueue q).length = (s.decQueue q).length ∧ (∀ p, p ≠ q → t.decQueue p = s.decQueue p) ∧
      (engine.toNat = 3 → t.rd F.DEC_STATUS.ENC_BUSY = 1) ∧ (engine.toNat = 2 → t.rd F.DEC_STATUS.TURBO_BUSY = 1) ∧
      t.mem = s.mem ∧ t.events = s.events ∧ t.host = s.host := by
  have hexec : exec (.decJobStart engine) s = .next (s.setDecQueue q (updFirst (fun j => j.engine.isNone && j.done.isNone)
      (fun j => { j with engine := some engine.toNat }) (s.decQueue q))).showDec := by
    simp only [exec, execDecJobStart, s.live_run _ ha, hfree, Bool.false_eq_true, if_false, hpick]
  have hidle : (j.engine.isNone && j.done.isNone) = true := List.find?_some (p := fun j : DecJob => j.engine.isNone && j.done.isNone) hhead
  generalize hl : updFirst (fun j => j.engine.isNone && j.done.isNone) (fun j => { j with engine := some engine.toNat })
    (s.decQueue q) = l at hexec
  have hqueue (p : Nat) : (s.setDecQueue q l).showDec.decQueue p = if p = q then l else s.decQueue p := by
    rw [State.decQueue_congr State.showDec_dec, State.decQueue_setDecQueue]
  have hmem : { j with engine := some engine.toNat } ∈ (s.setDecQueue q l).showDec.decQueue q := by
    rw [hqueue, if_pos rfl, ← hl]
    exact updFirst_mem hhead
  have hbusy : (s.setDecQueue q l).showDec.decBusy engine.toNat = true :=
    State.decBusy_of_mem hmem rfl (Option.isNone_iff_eq_none.mp (Bool.and_eq_true_iff.mp hidle).2)
  have hshown := hbusy
  rw [State.decBusy_congr State.showDec_dec] at hshown
  refine ⟨_, hexec, hbusy, hmem, ?_, fun p hp => ?_, fun he => ?_, fun he => ?_, ?_, ?_, ?_⟩
  · rw [hqueue, if_pos rfl, ← hl, updFirst_length]
  · rw [hqueue, if_neg hp]
  · rw [State.showDec_enc, ← he, hshown, b2n, if_pos rfl]
  · rw [State.showDec_turbo, ← he, hshown, b2n, if_pos rfl]
  · exact (State.showDec_keeps fun _ _ _ _ _ => State.wr_mem ..).trans (State.setDecQueue_mem ..)
  · exact (State.showDec_keeps fun _ _ _ _ _ => State.wr_events ..).trans (State.setDecQueue_events ..)
  · exact (State.showDec_keeps fun _ _ _ _ _ => State.wr_host ..).trans (State.setDecQueue_host ..)

theorem exec_decJobComplete : exec (.decJobComplete engine) s = .next (match s.decRunning engine.toNat with
    | none => s
    | some (q, j) =>
      let d := decDesc j.job.desc
      if s.decWaits d then s else
      let r := s.decRun d
      let s := (r.2.setDecQueue q (updFirst (DecJob.runsOn engine.toNat)
        (fun j => { j with done := some (decRecord stDone r.1 d.user) }) (r.2.decQueue q))).showDec
      s.decReleases 64 q) := by
  rw [exec, execDecJobComplete, s.live_run _ ha]
  rfl

theorem decJobComplete_idle (h : s.decBusy engine.toNat = false) : exec (.decJobComplete engine) s = .next s := by
  have hnone : s.decRunning engine.toNat = none := by
    refine List.findSome?_eq_none_iff.mpr fun q _ => Option.map_eq_none_iff.mpr (List.find?_eq_none.mpr fun j hj hrun => ?_)
    obtain ⟨he, hd⟩ := DecJob.runsOn_iff.mp hrun
    exact absurd (State.decBusy_of_mem hj he hd) (by rw [h]; decide)
  rw [exec_decJobComplete ha, hnone]

theorem decJobComplete_waits {j : DecJob} (hrun : s.decRunning engine.toNat = some (0, j))
    (hw : s.decWaits (decDesc j.job.desc) = true) : exec (.decJobComplete engine) s = .next s := by
  rw [exec_decJobComplete ha, hrun]
  simp only [hw, if_true]

/-- A job that ends is recorded in its place, and what can be is released. -/
theorem exec_decJobComplete_runs {j : DecJob} (hrun : s.decRunning engine.toNat = some (0, j))
    (hw : s.decWaits (decDesc j.job.desc) = false) :
    let r := s.decRun (decDesc j.job.desc)
    exec (.decJobComplete engine) s = .next ((r.2.setDecQueue 0 (updFirst (DecJob.runsOn engine.toNat)
      (fun k => { k with done := some (decRecord stDone r.1 (decDesc j.job.desc).user) }) (s.decQueue 0))).showDec.decReleases 64 0) := by
  rw [exec_decJobComplete ha, hrun]
  simp only [hw, Bool.false_eq_true, if_false, State.decQueue_congr (s.decRun_dec (decDesc j.job.desc))]

section
variable {h j : DecJob} {l : List DecJob} (he : j.engine = some engine.toNat) (hd : j.done = none)
  (hw : s.decWaits (decDesc j.job.desc) = false)
include he hd hw

theorem decJobComplete_releases (hq : s.decQueue 0 = [j]) :
    let rb := decRecord stDone (s.decRun (decDesc j.job.desc)).1 (decDesc j.job.desc).user
    ∃ t v : State, exec (.decJobComplete engine) s = .next t ∧ t = v.decRelease 0 { j with done := some rb } rb ∧
      t.decQueue 0 = [] := by
  intro rb
  have hexec := exec_decJobComplete_runs ha (State.decRunning_first he hd hq) hw
  dsimp only at hexec
  rw [hq, updFirst_head (DecJob.runsOn_iff.mpr ⟨he, hd⟩), State.decReleases_last _ _ _
    (by rw [State.decQueue_congr State.showDec_dec, State.decQueue_setDecQueue, if_pos rfl]) rfl] at hexec
  refine ⟨_, _, hexec, rfl, ?_⟩
  rw [State.decQueue_congr (State.decRelease_dec ..), State.decQueue_setDecQueue, if_pos rfl]

theorem decJobComplete_records (hq : s.decQueue 0 = h :: j :: l) (hh : h.runsOn engine.toNat = false) (hhd : h.done = none) :
    let r := s.decRun (decDesc j.job.desc)
    ∃ t, exec (.decJobComplete engine) s = .next t ∧
      t.decQueue 0 = h :: { j with done := some (decRecord stDone r.1 (decDesc j.job.desc).user) } :: l ∧
      t.mem = r.2.mem ∧ t.events = r.2.events := by
  intro r
  have hexec := exec_decJobComplete_runs ha (State.decRunning_second he hd hq hh) hw
  dsimp only at hexec
  have hqueue (t : State) (k : List DecJob) : (t.setDecQueue 0 k).showDec.decQueue 0 = k := by
    rw [State.decQueue_congr State.showDec_dec, State.decQueue_setDecQueue, if_pos rfl]
  rw [hq, updFirst_second hh (DecJob.runsOn_iff.mpr ⟨he, hd⟩), State.decReleases_waits _ _ _ fun a k hak => by
    rw [hqueue] at hak
    exact (List.cons.inj hak).1 ▸ hhd] at hexec
  exact ⟨_, hexec, hqueue .., (State.showDec_keeps fun _ _ _ _ _ => State.wr_mem ..).trans (State.setDecQueue_mem ..),
    (State.showDec_keeps fun _ _ _ _ _ => State.wr_events ..).trans (State.setDecQueue_events ..)⟩

end
end
end

theorem decoderJobsRunInOrder_holds : decoderJobsRunInOrder := by
  refine ⟨fun s ref q desc ht => ⟨exec_decJob_range desc ht, exec_decJob_full desc ht, decJob_queues desc ht,
      decJob_invalid desc ht, decJob_discards desc ht⟩,
    fun s u core x d hw hclean => ⟨exec_decJobWindowWrite_full hw hclean rfl rfl, decJobWindowWrite_queues hw hclean rfl rfl⟩,
    fun s e q => decPick_order, fun s engine ha => ⟨decJobStart_idle ha, fun q j => decJobStart_starts ha⟩,
    fun s engine ha => decJobComplete_idle ha, fun s engine h j l ha honly he hd => ?_⟩
  have hother (hq : s.decQueue 0 = h :: j :: l) (hne : h ≠ j) : h.runsOn engine.toNat = false := by
    rw [Bool.eq_false_iff]
    intro hrun
    obtain ⟨hhe, hhd⟩ := DecJob.runsOn_iff.mp hrun
    exact hne (honly 0 h (hq ▸ List.mem_cons_self) hhe hhd).2
  refine ⟨fun hw hq => ?_, fun hw hq => decJobComplete_releases ha he hd hw hq,
    fun hw hq hne hhd => decJobComplete_records ha he hd hw hq (hother hq hne) hhd⟩
  rcases hq with hq | hq
  · exact decJobComplete_waits ha (State.decRunning_first he hd hq) hw
  · by_cases hne : h = j
    · exact decJobComplete_waits ha (State.decRunning_first he hd (hne ▸ hq)) hw
    · exact decJobComplete_waits ha (State.decRunning_second he hd hq (hother hq hne)) hw

/-! ### DEC_TABLE (R311) -/

section
variable {s : State} {ref : CmdRef} {n : BitVec 8} (addr : BitVec 64) {len : BitVec 32} (ht : s.takes ref 0x0811) (hn : n.toNat ≤ 7)
include ht hn

theorem exec_decTable_busy (h : ∃ x ∈ s.dec.q, ∃ j ∈ x.2, (decDesc j.job.desc).table = n.toNat + 2) :
    exec (.decTable ref n 0 addr len) s = .next ((s.accept ref 0x0811).complete ref stBusy) := by
  have hused : (s.dec.q.any fun x => x.2.any fun j => (decDesc j.job.desc).table == n.toNat + 2) = true := by
    obtain ⟨x, hx, j, hj, h⟩ := h
    exact List.any_eq_true.mpr ⟨x, hx, List.any_eq_true.mpr ⟨j, hj, beq_iff_eq.mpr h⟩⟩
  have hin : ¬ (7 < n.toNat ∨ 1 < (0 : BitVec 8).toNat) :=
    not_or.mpr ⟨Nat.not_lt.mpr hn, by decide⟩
  simp only [exec, execDecTable, s.command_run _ _ _ ht, if_neg hin, s.accept_dec, hused, if_true]

variable (hfree : ∀ x ∈ s.dec.q, ∀ j ∈ x.2, (decDesc j.job.desc).table ≠ n.toNat + 2) (hlen : len.toNat ≤ 4112)
  (hup : s.portUp (s.cmdPort ref) = true)
include hfree hlen hup

/-- The machine with a user table stored and marked valid. -/
def State.withTable (s : State) (n : Nat) (x : UserTable) : State :=
  let s := s.setDec { s.dec with tables := Sparse.insert s.dec.tables n x }
  s.wr F.DEC_UTAB.VALID (s.rd F.DEC_UTAB.VALID ||| 2 ^ n)

theorem exec_decTable_read : exec (.decTable ref n 0 addr len) s = .next
    (match userTableOf (s.hostRead (s.cmdPort ref) addr.toNat len.toNat) with
      | some x => ((s.accept ref 0x0811).withTable n.toNat x).complete ref stDone
      | none => (s.accept ref 0x0811).complete ref stCheckFailed) := by
  have hunused : (s.dec.q.any fun x => x.2.any fun j => (decDesc j.job.desc).table == n.toNat + 2) = false :=
    List.any_eq_false.mpr fun x hx => by
      rw [Bool.not_eq_true]
      exact List.any_eq_false.mpr fun j hj => by rw [beq_iff_eq]; exact hfree x hx j hj
  have hin : ¬ (7 < n.toNat ∨ 1 < (0 : BitVec 8).toNat) :=
    not_or.mpr ⟨Nat.not_lt.mpr hn, by decide⟩
  have hne : ¬ ((0 : BitVec 8) = 1) := by decide
  simp only [exec, execDecTable, s.command_run _ _ _ ht, if_neg hin, s.accept_dec, hunused, Bool.false_eq_true, if_false,
    if_neg (Nat.not_lt.mpr hlen), s.accept_cmdPort, s.accept_portUp, hup, Bool.not_true, and_false, if_neg hne,
    State.plain_hostBytes, State.hostRead_congr (s.accept_hostMem ref 0x0811)]
  cases userTableOf (s.hostRead (s.cmdPort ref) addr.toNat len.toNat) with
  | none => rfl
  | some x => simp only [State.withTable, s.accept_dec]

theorem decTable_fails (hx : userTableOf (s.hostRead (s.cmdPort ref) addr.toNat len.toNat) = none) :
    exec (.decTable ref n 0 addr len) s = .next ((s.accept ref 0x0811).complete ref stCheckFailed) := by
  rw [exec_decTable_read addr ht hn hfree hlen hup, hx]

end

section
variable (s : State) (n : Nat) (x : UserTable)

theorem State.withTable_dec : (s.withTable n x).dec = { s.dec with tables := Sparse.insert s.dec.tables n x } := by
  rw [State.withTable, State.wr_dec, State.setDec_dec]

/-- The table is marked valid and no other mark changes. -/
theorem State.withTable_valid (hn : n ≤ 7) (m : Nat) :
    bit ((s.withTable n x).rd F.DEC_UTAB.VALID) m = (bit (s.rd F.DEC_UTAB.VALID) m || decide (m = n)) := by
  have hlt : s.rd F.DEC_UTAB.VALID < 2 ^ 8 := bits_lt ..
  have hpow : 2 ^ n < 2 ^ 8 := Nat.pow_lt_pow_right (by decide) (by omega)
  have hrd : (s.withTable n x).rd F.DEC_UTAB.VALID = s.rd F.DEC_UTAB.VALID ||| 2 ^ n :=
    State.rd_wr_lt _ ⟨by decide, by decide⟩ (Nat.or_lt_two_pow hlt hpow)
  have hbit (v : Nat) : bit v m = v.testBit m := by rw [bit, Nat.testBit_eq_decide_div_mod_eq]; rfl
  rw [hrd, hbit, Nat.testBit_or, Nat.testBit_two_pow, hbit, decide_eq_decide.mpr (eq_comm (a := n))]

end

section
variable {s : State} {ref : CmdRef} {n : BitVec 8} (addr : BitVec 64) {len : BitVec 32} (ht : s.takes ref 0x0811) (hn : n.toNat ≤ 7)
  (hfree : ∀ x ∈ s.dec.q, ∀ j ∈ x.2, (decDesc j.job.desc).table ≠ n.toNat + 2) (hlen : len.toNat ≤ 4112)
  (hup : s.portUp (s.cmdPort ref) = true)
include ht hn hfree hlen hup

theorem decTable_stores (x : UserTable) (hx : userTableOf (s.hostRead (s.cmdPort ref) addr.toNat len.toNat) = some x) :
    ∃ t v : State, exec (.decTable ref n 0 addr len) s = .next t ∧ t = v.complete ref stDone ∧
      Sparse.find v.dec.tables n.toNat = some x ∧ bit (v.rd F.DEC_UTAB.VALID) n.toNat = true ∧
      (∀ m, m ≠ n.toNat → Sparse.find v.dec.tables m = Sparse.find s.dec.tables m ∧
        bit (v.rd F.DEC_UTAB.VALID) m = bit (s.rd F.DEC_UTAB.VALID) m) ∧
      v.dec.q = s.dec.q ∧ v.mem = s.mem ∧ v.events = s.events := by
  have hexec := exec_decTable_read addr ht hn hfree hlen hup
  rw [hx] at hexec
  refine ⟨_, _, hexec, rfl, ?_, ?_, fun m hm => ⟨?_, ?_⟩, ?_, ?_, ?_⟩
  · rw [State.withTable_dec, Sparse.find_insert, if_pos rfl]
  · rw [State.withTable_valid _ _ _ hn, decide_eq_true rfl, Bool.or_true]
  · rw [State.withTable_dec, Sparse.find_insert, if_neg hm, s.accept_dec]
  · rw [State.withTable_valid _ _ _ hn, decide_eq_false hm, Bool.or_false, s.accept_rd ref _ (by decide)]
  · rw [State.withTable_dec, s.accept_dec]
  · rw [State.withTable, State.wr_mem, State.setDec_mem, s.accept_mem]
  · rw [State.withTable, State.wr_events, State.setDec_events, s.accept_events]

end

/-! ### DEC_CNT_CLR (R317) -/

section
variable {s : State} {v : BitVec 32} (ho : s.bar0Open 0x400230 = true)
include ho

theorem exec_decCntClr : exec (.decCntClr v) s = .next (s.decCntClr v.toNat) := by
  rw [exec, execDecCntClr, ho, State.onlyIf_true]

end

section
variable (s : State)

/-- DISC and MAX of the four queues are cleared. -/
def State.decQClear (s : State) : State := s.each (List.range 4) fun s q => (s.wr F.DEC_Q.DISC 0 q).wr F.DEC_Q.MAX 0 q

/-- The eleven counters are cleared. -/
def State.decCntZero (s : State) : State := s.each (List.range 11) fun s i => s.wrReg (0x400200 + 4 * i) 0

theorem State.decCntClr_set {v : Nat} (h : bit v 0 = true) : s.decCntClr v = s.decQClear.decCntZero := by
  rw [State.decCntClr, h, State.onlyIf_true]
  rfl

theorem State.decCntClr_clear {v : Nat} (h : bit v 0 = false) : s.decCntClr v = s := by
  rw [State.decCntClr, h, State.onlyIf_false]

theorem State.decCntZero_counter {i : Nat} (h : i < 11) : s.decCntZero.rdReg (0x400200 + 4 * i) = 0 := by
  have zeroes (l : List Nat) : ∀ s : State, (s.each l fun s i => s.wrReg (0x400200 + 4 * i) 0).rdReg (0x400200 + 4 * i) =
      if i ∈ l then 0 else s.rdReg (0x400200 + 4 * i) := by
    induction l with
    | nil => exact fun _ => rfl
    | cons k l ih =>
      intro s
      refine (ih _).trans ?_
      rw [State.rdReg_wrReg]
      by_cases hl : i ∈ l
      · rw [if_pos hl, if_pos (List.mem_cons_of_mem _ hl)]
      · by_cases hk : i = k
        · subst hk
          rw [if_neg hl, if_pos rfl, if_pos List.mem_cons_self, Nat.zero_mod]
        · rw [if_neg hl, if_neg (by omega), if_neg (by simp [hk, hl])]
  exact (zeroes _ s).trans (if_pos (List.mem_range.mpr h))

theorem State.decCntZero_rd {f : Field} {q : Nat} (hf : f.off q 0 < 0x400200) : s.decCntZero.rd f q = s.rd f q := by
  refine State.each_keeps (view := fun s => s.rd f q) _ _ fun t k => ?_
  rw [State.rd, State.rdReg_wrReg, if_neg (by omega), State.rd]

theorem State.decQClear_depth (q : Nat) : s.decQClear.rd F.DEC_Q.DEPTH q = s.rd F.DEC_Q.DEPTH q := by
  refine State.each_keeps (view := fun s => s.rd F.DEC_Q.DEPTH q) _ _ fun t k => ?_
  rw [State.rd_wr_field _ _ _ _ _ _ _ _ ⟨by decide, by decide⟩ (.inl (by decide)),
    State.rd_wr_field _ _ _ _ _ _ _ _ ⟨by decide, by decide⟩ (.inl (by decide))]

theorem dec_q_offs (q : Nat) : F.DEC_Q.DISC.off q 0 = 0x400100 + 16 * q ∧ F.DEC_Q.MAX.off q 0 = 0x400100 + 16 * q ∧
    F.DEC_Q.DEPTH.off q 0 = 0x400100 + 16 * q := by
  refine ⟨?_, ?_, ?_⟩ <;> rw [Field.off, Nat.mul_zero, Nat.add_zero]
  · rw [F.DEC_Q.DISC]
  · rw [F.DEC_Q.MAX]
  · rw [F.DEC_Q.DEPTH]

theorem State.decQClear_cleared {q : Nat} (h : q < 4) :
    s.decQClear.rd F.DEC_Q.DISC q = 0 ∧ s.decQClear.rd F.DEC_Q.MAX q = 0 := by
  have hword (t : State) (k : Nat) : ((t.wr F.DEC_Q.DISC 0 k).wr F.DEC_Q.MAX 0 k).rd F.DEC_Q.DISC q =
      (if q = k then 0 else t.rd F.DEC_Q.DISC q) ∧ ((t.wr F.DEC_Q.DISC 0 k).wr F.DEC_Q.MAX 0 k).rd F.DEC_Q.MAX q =
      (if q = k then 0 else t.rd F.DEC_Q.MAX q) := by
    obtain ⟨hdisc, hmax, -⟩ := dec_q_offs q
    obtain ⟨hdisc', hmax', -⟩ := dec_q_offs k
    by_cases hk : q = k
    · subst hk
      rw [if_pos rfl, if_pos rfl, State.rd_wr_field _ _ _ _ _ _ _ _ ⟨by decide, by decide⟩ (.inr (by decide)),
        State.rd_wr_lt _ ⟨by decide, by decide⟩ (by decide), State.rd_wr_lt _ ⟨by decide, by decide⟩ (by decide)]
      exact ⟨rfl, rfl⟩
    · rw [if_neg hk, if_neg hk, State.rd_wr_other _ _ _ _ _ _ _ _ (by omega), State.rd_wr_other _ _ _ _ _ _ _ _ (by omega),
        State.rd_wr_other _ _ _ _ _ _ _ _ (by omega), State.rd_wr_other _ _ _ _ _ _ _ _ (by omega)]
      exact ⟨rfl, rfl⟩
  have zeroes (l : List Nat) : ∀ t : State, let u := t.each l fun s k => (s.wr F.DEC_Q.DISC 0 k).wr F.DEC_Q.MAX 0 k
      u.rd F.DEC_Q.DISC q = (if q ∈ l then 0 else t.rd F.DEC_Q.DISC q) ∧
      u.rd F.DEC_Q.MAX q = (if q ∈ l then 0 else t.rd F.DEC_Q.MAX q) := by
    induction l with
    | nil => exact fun _ => ⟨rfl, rfl⟩
    | cons k l ih =>
      intro t
      obtain ⟨hdisc, hmax⟩ := ih ((t.wr F.DEC_Q.DISC 0 k).wr F.DEC_Q.MAX 0 k)
      obtain ⟨hdisc', hmax'⟩ := hword t k
      rw [hdisc'] at hdisc
      rw [hmax'] at hmax
      refine ⟨hdisc.trans ?_, hmax.trans ?_⟩ <;>
        by_cases hl : q ∈ l <;> by_cases hk : q = k <;> simp [hl, hk]
  obtain ⟨hdisc, hmax⟩ := zeroes (List.range 4) s
  rw [if_pos (List.mem_range.mpr h)] at hdisc hmax
  exact ⟨hdisc, hmax⟩

theorem State.decCntr_keeps {α : Type} {view : State → α} (h : ∀ (t : State) o v, view (t.wrReg o v) = view t) :
    view s.decQClear.decCntZero = view s :=
  (State.each_keeps _ _ fun _ _ => h ..).trans (State.each_keeps _ _ fun _ _ => (h ..).trans (h ..))

end

/-- A 1 clears the counters. -/
theorem decCntClr_clears {s : State} {v : BitVec 32} (ho : s.bar0Open 0x400230 = true) (hv : v.getLsbD 0 = true) :
    ∃ t, exec (.decCntClr v) s = .next t ∧
      (∀ q, q < 4 → t.rd F.DEC_Q.DISC q = 0 ∧ t.rd F.DEC_Q.MAX q = 0 ∧ t.rd F.DEC_Q.DEPTH q = s.rd F.DEC_Q.DEPTH q) ∧
      (∀ i, i < 11 → t.rdReg (0x400200 + 4 * i) = 0) ∧ t.host = s.host ∧ t.units = s.units := by
  have hexec := exec_decCntClr (v := v) ho
  rw [State.decCntClr_set _ ((bit_toNat v 0).trans hv)] at hexec
  refine ⟨_, hexec, fun q hq => ?_, fun i => State.decCntZero_counter _, State.decCntr_keeps _ fun _ _ _ => State.wrReg_host ..,
    State.decCntr_keeps _ fun _ _ _ => State.wrReg_units ..⟩
  obtain ⟨hdisc, hmax, hdepth⟩ := dec_q_offs q
  obtain ⟨hdisc', hmax'⟩ := s.decQClear_cleared hq
  rw [State.decCntZero_rd _ (by omega), State.decCntZero_rd _ (by omega), State.decCntZero_rd _ (by omega)]
  exact ⟨hdisc', hmax', s.decQClear_depth q⟩

theorem decCntClr_keeps {s : State} {v : BitVec 32} (ho : s.bar0Open 0x400230 = true) (hv : v.getLsbD 0 = false) :
    exec (.decCntClr v) s = .next s := by
  rw [exec_decCntClr ho, State.decCntClr_clear _ ((bit_toNat v 0).trans hv)]

end Sys2Proof.Machine
open Sys2Proof Sys2Proof.Machine

/-- Settles O51: a job is queued, started and recorded in its own place of its queue, and what its run and its release read,
write and submit is no part of the queues. -/
theorem decoderRunsJobsAndTables : Obligations.DecoderRunsJobsAndTables :=
  ⟨decoderJobsRunInOrder_holds,
    fun _ _ _ addr _ ht hn => ⟨exec_decTable_busy addr ht hn, fun hfree hlen hup =>
      ⟨decTable_fails addr ht hn hfree hlen hup, decTable_stores addr ht hn hfree hlen hup⟩⟩,
    fun _ _ ho => ⟨decCntClr_clears ho, decCntClr_keeps ho⟩⟩
end

section
/-! PROOF. The links: their registers and state, training, bring-up, retraining (R367 to R370, R378). -/

namespace Sys2Proof.Machine

/-! ### Fields of one array -/

section
variable (s : State) {f g : Field} {v i j k l : Nat}

/-- A write to a register leaves the others of its array's entry alone. -/
theorem State.rd_wr_word (h : f.base ≠ g.base ∧ f.s1 = g.s1 ∧ f.s2 = g.s2) : (s.wr f v i j).rd g i j = s.rd g i j := by
  obtain ⟨hbase, hs1, hs2⟩ := h
  refine s.rd_wr_other _ _ _ _ _ _ _ ?_
  rw [Field.off, Field.off, hs1, hs2]
  omega

/-- A write to a field leaves the others of its word alone. -/
theorem State.rd_wr_bits (h : (f.lo ≤ f.hi ∧ f.hi < 32) ∧ (g.hi < f.lo ∨ f.hi < g.lo)) :
    (s.wr f v i j).rd g k l = s.rd g k l := s.rd_wr_field _ _ _ _ _ _ _ h.1 h.2

theorem State.rd_wr_self (h : (f.lo ≤ f.hi ∧ f.hi < 32) ∧ v < 2 ^ (f.hi + 1 - f.lo)) : (s.wr f v i j).rd f i j = v :=
  s.rd_wr_lt h.1 h.2

/-- A counter goes up by one, no further than its field reaches. -/
theorem State.rd_sat_at (h : f.lo ≤ f.hi ∧ f.hi < 32) :
    (s.sat f i j).rd f i j = min (2 ^ (f.hi + 1 - f.lo) - 1) (s.rd f i j + 1) := by
  have hpos := Nat.two_pow_pos (f.hi + 1 - f.lo)
  rw [State.sat, satAdd_eq_min, State.rd_wr_lt _ h (by omega)]

theorem Field.base_le_off : f.base ≤ f.off i j := by
  rw [Field.off]
  omega

/-- A register of the links' own words (Table LNK-7). -/
abbrev Field.ofLink (f : Field) : Prop := 0x480000 ≤ f.base ∧ f.base < 0x480100 ∧ f.s1 = 256 ∧ f.s2 = 0

/-- A write to one link's words leaves those of another alone. -/
theorem State.rd_wr_otherLink (hf : f.ofLink) (hg : g.ofLink) (h : k ≠ i) : (s.wr f v i).rd g k = s.rd g k := by
  obtain ⟨hlo, hhi, hs1, hs2⟩ := hf
  obtain ⟨hlo', hhi', hs1', hs2'⟩ := hg
  refine s.rd_wr_other _ _ _ _ _ _ _ ?_
  rw [Field.off, Field.off, hs1, hs2, hs1', hs2']
  omega

/-- A write to a register of the links leaves those below them alone. -/
theorem State.rd_wr_aboveLink (hf : 0x480000 ≤ f.base) (hg : g.off k l < 0x480000) : (s.wr f v i j).rd g k l = s.rd g k l :=
  s.rd_wr_other _ _ _ _ _ _ _ (Nat.ne_of_lt (Nat.lt_of_lt_of_le hg (Nat.le_trans hf Field.base_le_off)))

/-- An event writes no register of the memory system or above. -/
theorem State.event_rd_base (code sev source pay : Nat) (nme : Bool) (h : 0x40000 ≤ f.base) :
    (s.event code sev source pay nme).rd f i j = s.rd f i j :=
  s.event_rd (not_mem_evtOffsets (Nat.le_trans h Field.base_le_off))

end

/-! ### One entry of a row of steps -/

/-- What a view of entry k is after steps of which only that for k concerns it. -/
theorem State.each_at {α : Type} {view : State → α} {f : State → Nat → State} {l : List Nat} {k : Nat} (s : State)
    (hnd : l.Nodup) (hk : k ∈ l) (hother : ∀ t i, i ≠ k → view (f t i) = view t) :
    ∃ t, view t = view s ∧ view (s.each l f) = view (f t k) := by
  induction l generalizing s with
  | nil => exact absurd hk List.not_mem_nil
  | cons a l ih =>
    obtain ⟨ha, hl⟩ := List.nodup_cons.mp hnd
    rcases List.mem_cons.mp hk with rfl | hk
    · exact ⟨s, rfl, State.each_keeps_of_mem (f s k) l fun t b hb => hother t b fun h => ha (h ▸ hb)⟩
    · obtain ⟨t, ht, hview⟩ := ih (f s a) hl hk
      exact ⟨t, ht.trans (hother s a fun h => ha (h ▸ hk)), hview⟩

/-! ### The state of a link -/

section
variable (s : State) (k : Nat)

theorem State.link_congr {s t : State} (h : t.lnk = s.lnk) (j : Nat) : t.link j = s.link j := by
  rw [State.link, h, State.link]

theorem State.link_setLink (l : LinkSt) (j : Nat) : (s.setLink k l).link j = if j = k then l else s.link j := by
  rw [State.link, State.setLink, State.setLnk_lnk]
  exact Sparse.get_set ..

theorem State.link_setLink_same (l : LinkSt) : (s.setLink k l).link k = l := by rw [s.link_setLink, if_pos rfl]

theorem State.link_wr (f : Field) (v i j n : Nat) : (s.wr f v i j).link n = s.link n := State.link_congr (State.wr_lnk ..) n

theorem State.link_sat (f : Field) (i j m n : Nat) : (s.sat f i j m).link n = s.link n := s.link_wr ..

theorem State.link_lnkEvent (code sev unit hdr n : Nat) : (s.lnkEvent code sev unit k hdr).link n = s.link n :=
  State.link_congr (State.units_lnk (State.event_units ..)) n

theorem State.rd_setLink (l : LinkSt) (f : Field) (i j : Nat) : (s.setLink k l).rd f i j = s.rd f i j :=
  State.rd_congr (State.setLink_regs ..) f i j

theorem State.rd_lnkEvent (code sev unit hdr : Nat) {f : Field} (i j : Nat) (h : 0x40000 ≤ f.base) :
    (s.lnkEvent code sev unit k hdr).rd f i j = s.rd f i j := s.event_rd_base _ _ _ _ _ h

/-- A view of the machine that the links leave alone: it reads neither their state nor their registers nor what an event
changes. -/
structure LinkBlind {α : Type} (view : State → α) : Prop where
  lnk : ∀ t x, view (State.setLnk t x) = view t
  reg : ∀ t f v i j, view (State.wr t f v i j) = view t

theorem linkBlind_mem : LinkBlind State.mem := ⟨fun _ _ => State.setLnk_mem .., fun _ _ _ _ _ => State.wr_mem ..⟩
theorem linkBlind_events : LinkBlind State.events := ⟨fun _ _ => State.setLnk_events .., fun _ _ _ _ _ => State.wr_events ..⟩
theorem linkBlind_tb : LinkBlind State.tb := ⟨fun _ _ => State.setLnk_tb .., fun _ _ _ _ _ => State.wr_tb ..⟩
theorem linkBlind_host : LinkBlind State.host := ⟨fun _ _ => State.setLnk_host .., fun _ _ _ _ _ => State.wr_host ..⟩

/-! ### Training (R368) -/

/-- A link that begins to train from nothing. -/
def LinkSt.trained (l : LinkSt) (now : Nat) : LinkSt :=
  { l with readyOut := false, readyIn := none, noLockAt := now, lastSet := some (0x1E, 0) }

theorem State.train_eq : s.train k = ((((s.setLink k ((s.link k).trained s.now)).wr F.LNK_STAT.STATE lkTraining k).wr
    F.LNK_STAT.BURST 0 k).wr F.LNK_STAT.TX_PWR 0 k).wr F.LNK_STAT.RX_PWR 0 k := rfl

theorem State.train_link (j : Nat) :
    (s.train k).link j = if j = k then (s.link k).trained s.now else s.link j := by
  rw [State.train_eq, State.link_wr, State.link_wr, State.link_wr, State.link_wr, State.link_setLink]

theorem State.train_state : (s.train k).lkState k = 1 := by
  rw [State.lkState, State.train_eq, State.rd_wr_bits _ (by decide), State.rd_wr_bits _ (by decide),
    State.rd_wr_bits _ (by decide), State.rd_wr_self _ (by decide)]

/-- Training touches the fields STATE, BURST, TX_PWR and RX_PWR of its link. -/
theorem State.train_rd {f : Field} (h : f.base ≠ 0x480008 ∧ f.s1 = 256 ∧ f.s2 = 0 ∨ f.hi < 17 ∨ (f.hi < 25 ∧ 17 < f.lo)) :
    (s.train k).rd f k = s.rd f k := by
  have hkeep {g : Field} (hg : g.base = 0x480008 ∧ g.s1 = 256 ∧ g.s2 = 0) (hb : (g.lo ≤ g.hi ∧ g.hi < 32) ∧ (25 ≤ g.lo ∨ (17 ≤ g.lo ∧ g.hi ≤ 17)))
      (t : State) (v : Nat) : (t.wr g v k).rd f k = t.rd f k := by
    obtain ⟨hbase, hs1, hs2⟩ := hg
    rcases h with ⟨hf, hf1, hf2⟩ | h
    · exact t.rd_wr_word ⟨by rw [hbase]; exact hf.symm, hs1.trans hf1.symm, hs2.trans hf2.symm⟩
    · exact t.rd_wr_bits ⟨hb.1, by omega⟩
  rw [State.train_eq, hkeep (by decide) (by decide), hkeep (by decide) (by decide), hkeep (by decide) (by decide),
    hkeep (by decide) (by decide), State.rd_setLink]

theorem State.train_keeps {α : Type} {view : State → α} (hb : LinkBlind view) : view (s.train k) = view s := by
  rw [State.train_eq, hb.reg, hb.reg, hb.reg, hb.reg]
  exact hb.lnk ..

theorem State.train_rd_below {f : Field} {i j : Nat} (hf : f.off i j < 0x480000) : (s.train k).rd f i j = s.rd f i j := by
  rw [State.train_eq, State.rd_wr_aboveLink _ (by decide) hf, State.rd_wr_aboveLink _ (by decide) hf,
    State.rd_wr_aboveLink _ (by decide) hf, State.rd_wr_aboveLink _ (by decide) hf, State.rd_setLink]

theorem State.train_rd_other {f : Field} (hf : f.ofLink) {j : Nat} (h : j ≠ k) : (s.train k).rd f j = s.rd f j := by
  rw [State.train_eq, State.rd_wr_otherLink _ (by decide) hf h, State.rd_wr_otherLink _ (by decide) hf h,
    State.rd_wr_otherLink _ (by decide) hf h, State.rd_wr_otherLink _ (by decide) hf h, State.rd_setLink]

/-! ### A failed retrain and a retrain (R370) -/

/-- A link whose replay buffer has been discarded. -/
def LinkSt.discarded (l : LinkSt) : LinkSt :=
  { l with
    txq := l.txq.filter fun f => f.typ != 4, replay := [], seq := 0, resend := 0, inRow := 0, expect := 0, nakOut := false
    good := 0, goodAt := none, owed := [], readyOut := false, readyIn := none, retrainAt := none, msgs := 0 }

theorem State.discardReplay_eq :
    s.discardReplay k = ((s.setLink k (s.link k).discarded).showUnack k).wr F.LNK_STAT.RX_NEXT 0 k := rfl

theorem State.discardReplay_link (j : Nat) : (s.discardReplay k).link j = if j = k then (s.link k).discarded else s.link j := by
  rw [State.discardReplay_eq, State.link_wr, State.showUnack, State.link_wr, State.link_setLink]

theorem State.discardReplay_unack : (s.discardReplay k).rd F.LNK_STAT.TX_UNACK k = 0 := by
  rw [State.discardReplay_eq, State.rd_wr_bits _ (by decide), State.showUnack, State.link_setLink_same, LinkSt.discarded,
    List.length_nil]
  exact State.rd_wr_self _ (by decide)

theorem State.discardReplay_keeps {α : Type} {view : State → α} (hb : LinkBlind view) : view (s.discardReplay k) = view s := by
  rw [State.discardReplay_eq, hb.reg, State.showUnack, hb.reg]
  exact hb.lnk ..

/-- The link is down: its buffer is discarded, and it trains from nothing. -/
theorem State.linkDown_link : (s.linkDown k).link k = ((s.link k).discarded.trained ((s.discardReplay k).lnkEvent 0x0A02 sevError k k 0).now) := by
  rw [State.linkDown, State.train_link, if_pos rfl, State.link_lnkEvent, State.discardReplay_link, if_pos rfl]

/-- RECOVERY shows in SEC_BOOT, which is no link's register. -/
theorem State.recovery_congr {s t : State} (h : t.rd F.SEC_BOOT.STATE = s.rd F.SEC_BOOT.STATE) : t.recovery = s.recovery := by
  rw [State.recovery, h, State.recovery]

variable {k} (hk : k < 16)
include hk

theorem State.recovery_wrLink {f : Field} (hf : f.ofLink) (v : Nat) : (s.wr f v k).recovery = s.recovery := by
  obtain ⟨hlo, hhi, hs1, hs2⟩ := hf
  refine State.recovery_wr ?_
  rw [Field.off, hs1, hs2]
  omega

theorem State.discardReplay_recovery : (s.discardReplay k).recovery = s.recovery := by
  rw [State.discardReplay_eq, State.recovery_wrLink _ hk (by decide), State.showUnack, State.recovery_wrLink _ hk (by decide),
    State.recovery_congr (State.rd_setLink ..)]

theorem State.train_recovery : (s.train k).recovery = s.recovery := by
  rw [State.train_eq, State.recovery_wrLink _ hk (by decide), State.recovery_wrLink _ hk (by decide),
    State.recovery_wrLink _ hk (by decide), State.recovery_wrLink _ hk (by decide), State.recovery_congr (State.rd_setLink ..)]

theorem State.linkDown_codes (hr : s.recovery = false) :
    (s.linkDown k).events.map (·.code) = 0x0A02 :: s.events.map (·.code) := by
  rw [State.linkDown, State.train_keeps _ _ linkBlind_events, State.lnkEvent,
    State.event_codes _ _ _ _ _ ((s.discardReplay_recovery hk).trans hr), State.discardReplay_keeps _ _ linkBlind_events]

omit hk in
theorem State.now_congr {s t : State} (h : t.tb = s.tb) : t.now = s.now := by rw [State.now, h, State.now]

end

/-! ### A retrain (R370) -/

/-- A link that retrains: its buffer and its sequence numbers stay. -/
def LinkSt.retrained (l : LinkSt) (now : Nat) : LinkSt := { l.trained now with retrainAt := some now }

section
variable (s : State) (k : Nat)

/-- The machine whose link k has begun to train again, the state RETRAIN shown. -/
def State.retrains (s : State) (k : Nat) : State := ((s.sat F.LNK_RETRAINS.COUNT k).train k).wr F.LNK_STAT.STATE lkRetrain k

theorem State.retrains_link : (s.retrains k).link k = (s.link k).trained s.now := by
  rw [State.retrains, State.link_wr, State.train_link, if_pos rfl, State.link_sat, State.now_congr (State.sat_tb ..)]

theorem State.retrain_eq : s.retrain k =
    ((s.retrains k).setLink k ((s.link k).retrained s.now)).lnkEvent 0x0A03 sevWarn k k 0 := by
  have hnow : (s.retrains k).now = s.now := State.now_congr <| by
    rw [State.retrains, State.wr_tb, State.train_keeps _ _ linkBlind_tb, State.sat_tb]
  have h := congrArg (fun l : LinkSt => ((s.retrains k).setLink k { l with retrainAt := some (s.retrains k).now }).lnkEvent
    0x0A03 sevWarn k k 0) (s.retrains_link k)
  rw [hnow] at h
  rw [State.retrain, LinkSt.retrained, ← h, ← hnow]
  rfl

theorem State.retrain_link : (s.retrain k).link k = (s.link k).retrained s.now := by
  rw [State.retrain_eq, State.link_lnkEvent, State.link_setLink_same]

theorem State.retrain_state : (s.retrain k).lkState k = 4 := by
  rw [State.lkState, State.retrain_eq, State.rd_lnkEvent _ _ _ _ _ _ _ _ (by decide), State.rd_setLink, State.retrains]
  exact State.rd_wr_self _ (by decide)

theorem State.retrain_rd {f : Field} (h : f.base ≠ 0x480008 ∧ f.s1 = 256 ∧ f.s2 = 0 ∨ (f.hi < 25 ∧ 17 < f.lo))
    (hc : f.base ≠ 0x48001c ∧ f.s1 = 256 ∧ f.s2 = 0) (hb : 0x40000 ≤ f.base) : (s.retrain k).rd f k = s.rd f k := by
  rw [State.retrain_eq, State.rd_lnkEvent _ _ _ _ _ _ _ _ hb, State.rd_setLink, State.retrains]
  have hsat : (s.sat F.LNK_RETRAINS.COUNT k).rd f k = s.rd f k :=
    s.rd_wr_word ⟨hc.1.symm, hc.2.1.symm, hc.2.2.symm⟩
  rw [← hsat, ← State.train_rd (s.sat F.LNK_RETRAINS.COUNT k) k (h.imp_right .inr)]
  rcases h with h | h
  · exact State.rd_wr_word _ ⟨h.1.symm, h.2.1.symm, h.2.2.symm⟩
  · exact State.rd_wr_bits _ ⟨by decide, .inl (Nat.lt_trans h.1 (by decide))⟩

theorem State.retrain_count : (s.retrain k).rd F.LNK_RETRAINS.COUNT k =
    min (2 ^ 32 - 1) (s.rd F.LNK_RETRAINS.COUNT k + 1) := by
  rw [State.retrain_eq, State.rd_lnkEvent _ _ _ _ _ _ _ _ (by decide), State.rd_setLink, State.retrains,
    State.rd_wr_word _ (by decide), State.train_rd _ _ (by decide), State.rd_sat_at _ (by decide)]
  rfl

theorem State.retrain_codes (hk : k < 16) (hr : s.recovery = false) :
    (s.retrain k).events.map (·.code) = 0x0A03 :: s.events.map (·.code) := by
  have hr' : ((s.retrains k).setLink k ((s.link k).retrained s.now)).recovery = false := by
    rw [State.recovery_congr (State.rd_setLink ..), State.retrains, State.recovery_wrLink _ hk (by decide),
      State.train_recovery _ hk, State.sat, State.recovery_wrLink _ hk (by decide), hr]
  rw [State.retrain_eq, State.lnkEvent, State.event_codes _ _ _ _ _ hr', State.setLink, State.setLnk_events, State.retrains,
    State.wr_events, State.train_keeps _ _ linkBlind_events, State.sat_events]

/-! ### Ordered sets on their way out (R375) -/

/-- A link that has sent an ordered set, or that owes it where its direction sleeps. -/
def LinkSt.withSet (l : LinkSt) (active : Prop) [Decidable active] (now typ v : Nat) : LinkSt :=
  if active then { l with lastSet := some (typ, v), quietAt := now } else { l with owed := l.owed ++ [(typ, v)] }

theorem State.sendSet_eq (typ v : Nat) : s.sendSet k typ v =
    s.setLink k ((s.link k).withSet (s.rd F.LNK_STAT.TX_PWR k = 0) s.now typ v) := by
  unfold State.sendSet LinkSt.withSet
  split <;> rfl

theorem State.sendSet_regs (typ v : Nat) : (s.sendSet k typ v).regs = s.regs := by
  rw [State.sendSet_eq, State.setLink_regs]

theorem State.sendSet_active (h : s.rd F.LNK_STAT.TX_PWR k = 0) (typ v : Nat) :
    s.sendSet k typ v = s.setLink k { s.link k with lastSet := some (typ, v), quietAt := s.now } := by
  rw [State.sendSet_eq, LinkSt.withSet, if_pos h]

/-- What a link keeps of its flits: the replay buffer, the next number, what is to be sent again, the number expected. -/
def LinkSt.flits (l : LinkSt) : List Flit × Nat × Nat × Nat := (l.replay, l.seq, l.resend, l.expect)

theorem LinkSt.withSet_flits (l : LinkSt) (active : Prop) [Decidable active] (now typ v : Nat) :
    (l.withSet active now typ v).flits = l.flits := by
  unfold LinkSt.withSet
  split <;> rfl

theorem LinkSt.withSet_echoAt (l : LinkSt) (active : Prop) [Decidable active] (now typ v : Nat) :
    (l.withSet active now typ v).echoAt = l.echoAt := by
  unfold LinkSt.withSet
  split <;> rfl

theorem State.sendEcho_link : (s.sendEcho k).link k = ({ s.link k with echoAt := some s.now } : LinkSt).withSet
    ((s.setLink k { s.link k with echoAt := some s.now }).rd F.LNK_STAT.TX_PWR k = 0)
    (s.setLink k { s.link k with echoAt := some s.now }).now 0x87 (s.now % 2 ^ 56) := by
  rw [State.sendEcho, State.sendSet_eq, State.link_setLink_same, State.link_setLink_same]

theorem State.sendEcho_flits : ((s.sendEcho k).link k).flits = (s.link k).flits := by
  rw [State.sendEcho_link, LinkSt.withSet_flits]
  rfl

theorem State.sendEcho_echoAt : ((s.sendEcho k).link k).echoAt = some s.now := by
  rw [State.sendEcho_link, LinkSt.withSet_echoAt]

theorem State.sendEcho_rd (f : Field) (i j : Nat) : (s.sendEcho k).rd f i j = s.rd f i j := by
  rw [State.sendEcho, State.rd_congr (State.sendSet_regs ..), State.rd_setLink]

theorem State.sendEcho_events : (s.sendEcho k).events = s.events := by
  rw [State.sendEcho, State.sendSet_eq, State.setLink, State.setLnk_events, State.setLink, State.setLnk_events]

/-! ### Acknowledged flits (R373, R381) -/

/-- A link n of whose flits have been acknowledged. -/
def LinkSt.acked (l : LinkSt) (n now : Nat) : LinkSt :=
  { l with
    replay := l.replay.drop n, resend := min l.resend (l.replay.length - n), inRow := 0, oldestAt := now, quietAt := now
    msgs := l.msgs - ((l.replay.take n).filter fun f => f.typ == 4).length
    txRd := l.txRd + ((l.replay.take n).filter fun f => f.typ == 4).length }

theorem memBlind_lnk : MemBlind State.lnk :=
  ⟨fun _ _ _ => State.wrReg_lnk .., fun _ _ => State.setMem_lnk .., fun _ _ => State.setFab_lnk ..,
    fun _ _ _ _ _ _ => State.units_lnk (State.event_units ..)⟩

theorem State.acked_zero : s.acked k 0 = s := if_pos rfl

/-- The buffer after n of its flits, n above 0, have been acknowledged; what remains is the ring's read index in memory. -/
theorem State.acked_eq {n : Nat} (h : n ≠ 0) : s.acked k n =
    ((s.setLink k ((s.link k).acked n s.now)).showUnack k).onlyIf ((((s.link k).replay.take n).filter fun f => f.typ == 4).length != 0)
      fun t => t.put (reqLink k) (t.rd F.LNK_MTX_BASE.BASE k * 16 + 8)
        (leBytes 8 ((s.link k).txRd + (((s.link k).replay.take n).filter fun f => f.typ == 4).length)) := by
  rw [State.acked, if_neg h]
  rfl

theorem State.acked_link {n : Nat} (h : n ≠ 0) : (s.acked k n).link k = (s.link k).acked n s.now := by
  rw [State.acked_eq _ _ h, State.link_congr (State.onlyIf_keeps _ _ fun _ => memBlind_lnk.put ..), State.showUnack,
    State.link_wr, State.link_setLink_same]

theorem State.acked_replay (n : Nat) : ((s.acked k n).link k).replay = (s.link k).replay.drop n ∧
    ((s.acked k n).link k).seq = (s.link k).seq := by
  by_cases h : n = 0
  · rw [h, State.acked_zero]
    exact ⟨rfl, rfl⟩
  · rw [State.acked_link _ _ h]
    exact ⟨rfl, rfl⟩

/-! ### A link becomes UP (R368, R370) -/

/-- Link k shows UP. -/
def State.showUp (s : State) (k : Nat) : State :=
  (s.setLink k { s.link k with quietAt := s.now, timeAt := s.now, mismatch := false }).wr F.LNK_STAT.STATE lkUp k

theorem State.showUp_flits : ((s.showUp k).link k).flits = (s.link k).flits := by
  rw [State.showUp, State.link_wr, State.link_setLink_same]
  rfl

theorem State.showUp_state : (s.showUp k).rd F.LNK_STAT.STATE k = 3 := by
  rw [State.showUp]
  exact State.rd_wr_self _ (by decide)

/-- A link's transmitter sends all that it keeps again. -/
def State.resumes (s : State) (k : Nat) : State :=
  s.setLink k { s.link k with
    resend := (s.link k).replay.length, nakOut := false, inRow := 0, oldestAt := s.now, retrainAt := none }

theorem State.linkUp_fresh (h : s.lkState k ≠ 4) (next : Nat) :
    s.linkUp k next = (((s.discardReplay k).showUp k).lnkEvent 0x0A01 sevInfo k k 0).sendEcho k := by
  have hf : (s.lkState k != lkRetrain) = true := bne_iff_ne.mpr h
  rw [State.linkUp]
  dsimp only
  rw [hf, if_pos rfl, State.onlyIf_true, State.showUp]

theorem State.linkUp_resumed (h : s.lkState k = 4) {next : Nat} (hn : (s.link k).position next ≤ (s.link k).replay.length) :
    s.linkUp k next = (((s.acked k ((s.link k).position next)).resumes k).showUp k).sendEcho k := by
  have hf : (s.lkState k != lkRetrain) = false := bne_eq_false_iff_eq.mpr h
  rw [State.linkUp]
  dsimp only
  rw [hf, if_neg Bool.false_ne_true, if_pos hn, State.onlyIf_false, State.showUp, State.resumes]

end

section
variable (s : State) (k : Nat)

theorem State.linkUp_fresh_shows (h : s.lkState k ≠ 4) (next : Nat) : (s.linkUp k next).lkState k = 3 ∧
    ((s.linkUp k next).link k).flits = ([], 0, 0, 0) ∧ (s.linkUp k next).rd F.LNK_STAT.TX_UNACK k = 0 ∧
    ((s.linkUp k next).link k).echoAt = some s.now := by
  rw [s.linkUp_fresh k h next]
  refine ⟨?_, ?_, ?_, ?_⟩
  · rw [State.lkState, State.sendEcho_rd, State.rd_lnkEvent _ _ _ _ _ _ _ _ (by decide), State.showUp_state]
  · rw [State.sendEcho_flits, State.link_lnkEvent, State.showUp_flits, State.discardReplay_link, if_pos rfl]
    rfl
  · rw [State.sendEcho_rd, State.rd_lnkEvent _ _ _ _ _ _ _ _ (by decide), State.showUp, State.rd_wr_bits _ (by decide),
      State.rd_setLink, State.discardReplay_unack]
  · have htb : (((s.discardReplay k).showUp k).lnkEvent 0x0A01 sevInfo k k 0).tb = s.tb := by
      rw [State.lnkEvent, State.units_tb (State.event_units ..), State.showUp, State.wr_tb, State.setLink, State.setLnk_tb,
        State.discardReplay_keeps _ _ linkBlind_tb]
    rw [State.sendEcho_echoAt, State.now_congr htb]

theorem State.linkUp_fresh_codes (h : s.lkState k ≠ 4) (next : Nat) (hk : k < 16) (hr : s.recovery = false) :
    (s.linkUp k next).events.map (·.code) = 0x0A01 :: s.events.map (·.code) := by
  have hr' : ((s.discardReplay k).showUp k).recovery = false := by
    rw [State.showUp, State.recovery_wrLink _ hk (by decide), State.recovery_congr (State.rd_setLink ..),
      State.discardReplay_recovery _ hk, hr]
  rw [s.linkUp_fresh k h next, State.sendEcho_events, State.lnkEvent, State.event_codes _ _ _ _ _ hr', State.showUp, State.wr_events,
    State.setLink, State.setLnk_events, State.discardReplay_keeps _ _ linkBlind_events]

theorem State.linkUp_resumed_shows (h : s.lkState k = 4) {next : Nat} (hn : (s.link k).position next ≤ (s.link k).replay.length) :
    (s.linkUp k next).lkState k = 3 ∧
    ((s.linkUp k next).link k).replay = (s.link k).replay.drop ((s.link k).position next) ∧
    ((s.linkUp k next).link k).resend = ((s.linkUp k next).link k).replay.length ∧
    ((s.linkUp k next).link k).seq = (s.link k).seq := by
  obtain ⟨hreplay, hseq⟩ := s.acked_replay k ((s.link k).position next)
  have hlink : ((s.linkUp k next).link k).flits = ((s.link k).replay.drop ((s.link k).position next), (s.link k).seq,
      ((s.link k).replay.drop ((s.link k).position next)).length,
      ((s.acked k ((s.link k).position next)).link k).expect) := by
    rw [s.linkUp_resumed k h hn, State.sendEcho_flits, State.showUp_flits, State.resumes, State.link_setLink_same,
      LinkSt.flits, hreplay, hseq]
  simp only [LinkSt.flits, Prod.mk.injEq] at hlink
  obtain ⟨hr, hs, he, -⟩ := hlink
  refine ⟨?_, hr, by rw [hr, he], hs⟩
  rw [s.linkUp_resumed k h hn, State.lkState, State.sendEcho_rd, State.showUp_state]

theorem State.tryUp_none (h : (s.link k).readyIn = none) : s.tryUp k = s := by
  rw [State.tryUp, h]

theorem State.tryUp_some {next : Nat} (hin : (s.link k).readyIn = some next) (hout : (s.link k).readyOut = true) :
    s.tryUp k = if rolesMatch (s.lkRole k) (s.rd F.LNK_STAT.PARTNER_ROLE k) then s.linkUp k next
      else if (s.link k).mismatch then s
      else (s.setLink k { s.link k with mismatch := true }).lnkEvent 0x0A04 sevError k k 0 := by
  rw [State.tryUp]
  dsimp only
  rw [hin, hout]
  rfl

/-- Links whose roles do not match stay as they are. -/
theorem State.tryUp_mismatch_state {next : Nat} (hin : (s.link k).readyIn = some next) (hout : (s.link k).readyOut = true)
    (hm : rolesMatch (s.lkRole k) (s.rd F.LNK_STAT.PARTNER_ROLE k) = false) : (s.tryUp k).lkState k = s.lkState k := by
  rw [s.tryUp_some k hin hout, hm, if_neg Bool.false_ne_true]
  split
  · rfl
  · rw [State.lkState, State.rd_lnkEvent _ _ _ _ _ _ _ _ (by decide), State.rd_setLink, State.lkState]

/-! ### The partner's role and identifier (R367) -/

/-- The machine that forgets a mismatch where the partner's role changes. -/
def State.roleHeard (s : State) (k role : Nat) : State :=
  s.onlyIf (s.rd F.LNK_STAT.PARTNER_ROLE k != role) fun s => s.setLink k { s.link k with mismatch := false }

theorem State.partner_eq (role id : Nat) : s.partner k role id =
    ((s.roleHeard k role).wr F.LNK_STAT.PARTNER_ROLE role k).wr F.LNK_PARTNER.ID id k := rfl

theorem State.roleHeard_keeps {α : Type} {view : State → α} (h : ∀ t x, view (State.setLnk t x) = view t) (role : Nat) :
    view (s.roleHeard k role) = view s := State.onlyIf_keeps _ _ fun _ => h ..

theorem State.roleHeard_rd (role : Nat) (f : Field) (i j : Nat) : (s.roleHeard k role).rd f i j = s.rd f i j :=
  State.rd_congr (s.roleHeard_keeps k (fun _ _ => State.setLnk_regs ..) role) f i j

theorem State.partner_link (role id : Nat) : ∃ m, (s.partner k role id).link k = { s.link k with mismatch := m } := by
  rw [State.partner_eq, State.link_wr, State.link_wr, State.roleHeard, State.onlyIf]
  split
  · exact ⟨false, State.link_setLink_same ..⟩
  · exact ⟨(s.link k).mismatch, rfl⟩

theorem State.partner_role (role id : Nat) : (s.partner k role id).rd F.LNK_STAT.PARTNER_ROLE k = role % 8 := by
  rw [State.partner_eq, State.rd_wr_word _ (by decide)]
  exact State.rd_wr_same _ _ _ _ _ ⟨by decide, by decide⟩

theorem State.partner_id (role : Nat) {id : Nat} (h : id < 2 ^ 32) : (s.partner k role id).rd F.LNK_PARTNER.ID k = id := by
  rw [State.partner_eq]
  exact State.rd_wr_self _ ⟨by decide, h⟩

theorem State.partner_rd (role id : Nat) {f : Field} (h : (f.base ≠ 0x480008 ∨ f.hi < 22 ∨ 24 < f.lo) ∧ f.base ≠ 0x48000c ∧ f.s1 = 256 ∧ f.s2 = 0) :
    (s.partner k role id).rd f k = s.rd f k := by
  obtain ⟨hf, hid, h1, h2⟩ := h
  rw [State.partner_eq, State.rd_wr_word _ ⟨hid.symm, h1.symm, h2.symm⟩, ← s.roleHeard_rd k role f k 0]
  rcases hf with hf | hf
  · exact State.rd_wr_word _ ⟨hf.symm, h1.symm, h2.symm⟩
  · exact State.rd_wr_bits _ ⟨by decide, hf⟩

theorem State.partner_state (role id : Nat) : (s.partner k role id).lkState k = s.lkState k := s.partner_rd k role id (by decide)

theorem State.partner_keeps {α : Type} {view : State → α} (hb : LinkBlind view) (role id : Nat) :
    view (s.partner k role id) = view s := by
  rw [State.partner_eq, hb.reg, hb.reg, s.roleHeard_keeps k hb.lnk]

theorem State.partner_recovery (hk : k < 16) (role id : Nat) : (s.partner k role id).recovery = s.recovery := by
  rw [State.partner_eq, State.recovery_wrLink _ hk (by decide), State.recovery_wrLink _ hk (by decide),
    State.recovery_congr (s.roleHeard_rd ..)]

end

/-! ### TX_PLL_LOCK (R368) -/

section
variable {s : State} (ha : s.alive = true)

/-- An enabled link that is OFF begins to train. -/
def State.trainEnabled (s : State) (k : Nat) : State :=
  s.onlyIf (s.rdb F.LNK_CFG.EN k && s.lkState k == lkOff) fun s => s.train k

/-- What TX_PLL_LOCK looks at of link k, and what it changes of it. -/
def State.linkView (k : Nat) (s : State) : Nat × Nat × LinkSt := (s.rd F.LNK_CFG.EN k, s.lkState k, s.link k)

theorem State.trainEnabled_keeps {α : Type} {view : State → α} (s : State) (k : Nat) (h : view (s.train k) = view s) :
    view (s.trainEnabled k) = view s := by
  unfold State.trainEnabled State.onlyIf
  split
  · exact h
  · rfl

theorem State.trainEnabled_otherLink (t : State) {i k : Nat} (h : i ≠ k) : (t.trainEnabled i).linkView k = t.linkView k :=
  t.trainEnabled_keeps i <| by
    rw [State.linkView, State.lkState, t.train_rd_other i (by decide) h.symm, t.train_rd_other i (by decide) h.symm,
      t.train_link, if_neg h.symm]
    rfl

/-- The machine whose transmit PLL has locked. -/
def State.pllLocked (s : State) : State := (s.setClk { s.clk with ltxLocked := true }).wr F.CLK_DOM_CFG.LOCKED 1 20

theorem State.pllLocked_keeps {α : Type} {view : State → α} (s : State) (hclk : ∀ t x, view (State.setClk t x) = view t)
    (hreg : ∀ t f v i j, view (State.wr t f v i j) = view t) : view s.pllLocked = view s := by
  rw [State.pllLocked, hreg, hclk]

theorem State.pllLocked_rdLink (s : State) {f : Field} {k : Nat} (h : 0x480000 ≤ f.base) : s.pllLocked.rd f k = s.rd f k := by
  rw [State.pllLocked, State.rd_wr_other _ _ _ _ _ _ _ _ (Nat.ne_of_gt (Nat.lt_of_lt_of_le
    (show F.CLK_DOM_CFG.LOCKED.off 20 0 < 0x480000 by decide) (Nat.le_trans h Field.base_le_off))), State.rd_setClk]

theorem State.pllLocked_linkView (s : State) (k : Nat) : s.pllLocked.linkView k = s.linkView k := by
  rw [State.linkView, State.lkState, s.pllLocked_rdLink (by decide), s.pllLocked_rdLink (by decide),
    State.link_congr (s.pllLocked_keeps (fun _ _ => State.setClk_lnk ..) fun _ _ _ _ _ => State.wr_lnk ..)]
  rfl

include ha

theorem exec_txPllLock : exec .txPllLock s = .next (s.pllLocked.each (List.range 16) State.trainEnabled) := by
  rw [exec, execTxPllLock, s.live_run _ ha]
  rfl

omit ha in
/-- What TX_PLL_LOCK does to link k is what training does to it where it is enabled and OFF. -/
theorem State.pllLocked_link (s : State) {k : Nat} (hk : k < 16) : ∃ t : State, t.linkView k = s.linkView k ∧
    (s.pllLocked.each (List.range 16) State.trainEnabled).linkView k = (t.trainEnabled k).linkView k := by
  obtain ⟨t, ht, hview⟩ := State.each_at (view := State.linkView k) s.pllLocked List.nodup_range (List.mem_range.mpr hk)
    fun t i => t.trainEnabled_otherLink
  exact ⟨t, ht.trans (s.pllLocked_linkView k), hview⟩

theorem txPllLock_trains : ∃ t, exec .txPllLock s = .next t ∧ t.clk.ltxLocked = true ∧
    t.rd F.CLK_DOM_CFG.LOCKED 20 = 1 ∧ (∀ k, k < 16 →
      (s.rdb F.LNK_CFG.EN k = true → s.lkState k = 0 → t.lkState k = 1 ∧ (t.link k).lastSet = some (0x1E, 0)) ∧
      (s.rdb F.LNK_CFG.EN k = false ∨ s.lkState k ≠ 0 → t.lkState k = s.lkState k ∧ t.link k = s.link k)) ∧
    t.mem = s.mem ∧ t.events = s.events ∧ t.host = s.host := by
  have hkeep {α : Type} {view : State → α} (h : ∀ t k, view (State.train t k) = view t) (u : State) :
      view (u.each (List.range 16) State.trainEnabled) = view u :=
    State.each_keeps _ _ fun t k => t.trainEnabled_keeps k (h t k)
  refine ⟨_, exec_txPllLock ha, ?_, ?_, fun k hk => ?_, ?_, ?_, ?_⟩
  · rw [hkeep (view := State.clk) fun t k => t.train_keeps k ⟨fun _ _ => State.setLnk_clk .., fun _ _ _ _ _ => State.wr_clk ..⟩,
      State.pllLocked, State.wr_clk, State.setClk_clk]
  · rw [hkeep (view := fun t => t.rd F.CLK_DOM_CFG.LOCKED 20) fun t k => t.train_rd_below k (by decide), State.pllLocked]
    exact State.rd_wr_self _ (by decide)
  · obtain ⟨t, ht, hview⟩ := s.pllLocked_link hk
    obtain ⟨hen, hst, hlink⟩ : t.rd F.LNK_CFG.EN k = s.rd F.LNK_CFG.EN k ∧ t.lkState k = s.lkState k ∧ t.link k = s.link k := by
      simpa only [State.linkView, Prod.mk.injEq] using ht
    simp only [State.linkView, Prod.mk.injEq] at hview
    obtain ⟨-, hst', hlink'⟩ := hview
    have hcond : (t.rdb F.LNK_CFG.EN k && t.lkState k == lkOff) = (s.rdb F.LNK_CFG.EN k && s.lkState k == lkOff) := by
      rw [State.rdb, hen, hst, ← State.rdb]
    rw [hst', hlink', State.trainEnabled, hcond]
    refine ⟨fun he ho => ?_, fun h => ?_⟩
    · rw [he, ho, beq_self_eq_true, Bool.and_self, State.onlyIf_true, t.train_link, if_pos rfl]
      exact ⟨t.train_state k, rfl⟩
    · have hoff : (s.rdb F.LNK_CFG.EN k && s.lkState k == lkOff) = false := by
        rcases h with h | h
        · rw [h, Bool.false_and]
        · rw [beq_eq_false_iff_ne.mpr h, Bool.and_false]
      rw [hoff, State.onlyIf_false]
      exact ⟨hst, hlink⟩
  · rw [hkeep fun t k => t.train_keeps k linkBlind_mem, State.pllLocked, State.wr_mem, State.setClk_mem]
  · rw [hkeep fun t k => t.train_keeps k linkBlind_events, State.pllLocked, State.wr_events, State.setClk_events]
  · rw [hkeep fun t k => t.train_keeps k linkBlind_host, State.pllLocked, State.wr_host, State.setClk_host]

end

/-! ### RECEIVER_LOCK, TRAIN and READY (R365 to R370, R378) -/

section
variable {s : State} (ha : s.alive = true) {link : BitVec 4}
include ha

theorem receiverLock_idle (pol : BitVec 4) (h1 : s.lkState link.toNat ≠ 1) (h4 : s.lkState link.toNat ≠ 4) :
    exec (.receiverLock link pol) s = .next s := by
  have hc : (s.lkState link.toNat == lkTraining || s.lkState link.toNat == lkRetrain) = false := by
    rw [beq_eq_false_iff_ne.mpr h1, beq_eq_false_iff_ne.mpr h4, Bool.or_self]
  rw [exec, execReceiverLock, s.live_run _ ha]
  dsimp only
  rw [hc, State.onlyIf_false]

/-- The machine whose link k has locked to its partner. -/
def State.locked (s : State) (k pol : Nat) : State :=
  ((s.wr F.LNK_STAT.POL pol k).wr F.LNK_STAT.BURST 0 k).wr F.LNK_STAT.STATE lkLocked k

omit ha in
theorem State.locked_link (k pol j : Nat) : (s.locked k pol).link j = s.link j := by
  rw [State.locked, State.link_wr, State.link_wr, State.link_wr]

omit ha in
theorem State.locked_keeps {α : Type} {view : State → α} (hb : LinkBlind view) (k pol : Nat) : view (s.locked k pol) = view s := by
  rw [State.locked, hb.reg, hb.reg, hb.reg]

omit ha in
theorem State.locked_shows (k : Nat) {pol : Nat} (hp : pol < 16) : (s.locked k pol).lkState k = 2 ∧
    (s.locked k pol).rd F.LNK_STAT.POL k = pol ∧ (s.locked k pol).rd F.LNK_STAT.BURST k = 0 := by
  rw [State.lkState, State.locked]
  refine ⟨State.rd_wr_self _ (by decide), ?_, ?_⟩
  · rw [State.rd_wr_bits _ (by decide), State.rd_wr_bits _ (by decide)]
    exact State.rd_wr_self _ ⟨by decide, hp⟩
  · rw [State.rd_wr_bits _ (by decide)]
    exact State.rd_wr_self _ (by decide)

theorem exec_receiverLock_trains {pol : BitVec 4} (h1 : s.lkState link.toNat = 1) : exec (.receiverLock link pol) s = .next
    (((s.locked link.toNat pol.toNat).setLink link.toNat { s.link link.toNat with
      readyOut := true, lastSet := some (0x2D, (s.link link.toNat).expect) }).tryUp link.toNat) := by
  rw [exec, execReceiverLock, s.live_run _ ha]
  dsimp only
  rw [h1, beq_self_eq_true, Bool.true_or, State.onlyIf_true, State.onlyIf_true, ← State.locked, s.locked_link]

theorem receiverLock_locks {pol : BitVec 4} (h1 : s.lkState link.toNat = 1) (hin : (s.link link.toNat).readyIn = none) :
    ∃ t, exec (.receiverLock link pol) s = .next t ∧ t.lkState link.toNat = 2 ∧
      t.rd F.LNK_STAT.POL link.toNat = pol.toNat ∧ t.rd F.LNK_STAT.BURST link.toNat = 0 ∧
      t.link link.toNat = { s.link link.toNat with readyOut := true, lastSet := some (0x2D, (s.link link.toNat).expect) } ∧
      (∀ j, j ≠ link.toNat → t.link j = s.link j) ∧ t.mem = s.mem ∧ t.events = s.events ∧ t.host = s.host := by
  have hexec := exec_receiverLock_trains ha (pol := pol) h1
  rw [State.tryUp_none _ _ (by rw [State.link_setLink_same]; exact hin)] at hexec
  obtain ⟨hstate, hpol, hburst⟩ := s.locked_shows link.toNat pol.isLt
  refine ⟨_, hexec, ?_, ?_, ?_, State.link_setLink_same .., fun j hj => ?_, ?_, ?_, ?_⟩
  · rw [State.lkState, State.rd_setLink]
    exact hstate
  · rw [State.rd_setLink, hpol]
  · rw [State.rd_setLink, hburst]
  · rw [State.link_setLink, if_neg hj, s.locked_link]
  · rw [State.setLink, State.setLnk_mem, s.locked_keeps linkBlind_mem]
  · rw [State.setLink, State.setLnk_events, s.locked_keeps linkBlind_events]
  · rw [State.setLink, State.setLnk_host, s.locked_keeps linkBlind_host]

/-! ### TRAIN -/

theorem train_idle (role : BitVec 8) (id : BitVec 32) (h : s.lkState link.toNat = 0) :
    exec (.train link role id) s = .next s := by
  rw [exec, execTrain, s.live_run _ ha, h]
  rfl

theorem exec_train {role : BitVec 8} {id : BitVec 32} (h : s.lkState link.toNat ≠ 0) : exec (.train link role id) s = .next
    (let u := s.partner link.toNat role.toNat id.toNat
     if s.lkState link.toNat ≠ 3 then u
     else if s.rd F.LNK_STAT.RX_PWR link.toNat = 0 then u.retrain link.toNat else u.wr F.LNK_STAT.RX_PWR 0 link.toNat) := by
  rw [exec, execTrain, s.live_run _ ha, bne_iff_ne.mpr h, State.onlyIf_true]
  dsimp only
  rw [State.lkIsUp, State.partner_state, s.partner_rd _ _ _ (by decide)]
  simp only [Bool.not_eq_true', beq_eq_false_iff_ne]

theorem train_heard {role : BitVec 8} {id : BitVec 32} (h : s.lkState link.toNat ≠ 0) :
    ∃ t, exec (.train link role id) s = .next t ∧
      t.rd F.LNK_STAT.PARTNER_ROLE link.toNat = role.toNat % 8 ∧ t.rd F.LNK_PARTNER.ID link.toNat = id.toNat ∧
      (s.lkState link.toNat ≠ 3 → t.lkState link.toNat = s.lkState link.toNat ∧ t.events = s.events) ∧
      (s.lkState link.toNat = 3 → s.rd F.LNK_STAT.RX_PWR link.toNat ≠ 0 → t.lkState link.toNat = 3 ∧
        t.rd F.LNK_STAT.RX_PWR link.toNat = 0) ∧
      (s.lkState link.toNat = 3 → s.rd F.LNK_STAT.RX_PWR link.toNat = 0 → t.lkState link.toNat = 4 ∧
        t.rd F.LNK_RETRAINS.COUNT link.toNat = min (2 ^ 32 - 1) (s.rd F.LNK_RETRAINS.COUNT link.toNat + 1) ∧
        (t.link link.toNat).retrainAt = some s.now ∧ (t.link link.toNat).replay = (s.link link.toNat).replay ∧
        (t.link link.toNat).seq = (s.link link.toNat).seq) := by
  refine ⟨_, exec_train ha h, ?_⟩
  have hrole := s.partner_role link.toNat role.toNat id.toNat
  have hid := s.partner_id link.toNat role.toNat id.isLt
  dsimp only
  by_cases hup : s.lkState link.toNat = 3
  · rw [if_neg (not_not_intro hup)]
    by_cases hpwr : s.rd F.LNK_STAT.RX_PWR link.toNat = 0
    · rw [if_pos hpwr, State.retrain_rd _ _ (by decide) (by decide) (by decide), State.retrain_rd _ _ (by decide) (by decide) (by decide)]
      refine ⟨hrole, hid, fun h3 => absurd hup h3, fun _ hp => absurd hpwr hp, fun _ _ => ⟨State.retrain_state .., ?_, ?_⟩⟩
      · rw [State.retrain_count, s.partner_rd _ _ _ (by decide)]
      · obtain ⟨m, hm⟩ := s.partner_link link.toNat role.toNat id.toNat
        rw [State.retrain_link, hm, State.now_congr (s.partner_keeps _ linkBlind_tb _ _)]
        exact ⟨rfl, rfl, rfl⟩
    · have hst : ((s.partner link.toNat role.toNat id.toNat).wr F.LNK_STAT.RX_PWR 0 link.toNat).lkState link.toNat = 3 := by
        rw [State.lkState, State.rd_wr_bits _ (by decide), ← State.lkState, State.partner_state, hup]
      rw [if_neg hpwr]
      refine ⟨?_, ?_, fun h3 => absurd hup h3, fun _ _ => ⟨hst, State.rd_wr_self _ (by decide)⟩, fun _ hp => absurd hp hpwr⟩
      · rw [State.rd_wr_bits _ (by decide), hrole]
      · rw [State.rd_wr_word _ (by decide), hid]
  · rw [if_pos hup]
    exact ⟨hrole, hid, fun _ => ⟨s.partner_state .., s.partner_keeps _ linkBlind_events _ _⟩, fun h3 => absurd h3 hup,
      fun h3 => absurd h3 hup⟩

/-! ### READY -/

theorem ready_idle (next : BitVec 7) (role : BitVec 8) (id : BitVec 32) (h : s.lkState link.toNat < 2) :
    exec (.ready link next role id) s = .next s := by
  rw [exec, execReady, s.live_run _ ha, decide_eq_false (Nat.not_le.mpr h), State.onlyIf_false]

/-- The machine that has heard READY on link k. -/
def State.readyHeard (s : State) (k next role id : Nat) : State :=
  (s.partner k role id).setLink k { (s.partner k role id).link k with readyIn := some next }

theorem exec_ready {next : BitVec 7} {role : BitVec 8} {id : BitVec 32} (h : 2 ≤ s.lkState link.toNat) :
    exec (.ready link next role id) s = .next (if s.lkState link.toNat = 3 then s.partner link.toNat role.toNat id.toNat
      else (s.readyHeard link.toNat next.toNat role.toNat id.toNat).tryUp link.toNat) := by
  rw [exec, execReady, s.live_run _ ha, decide_eq_true h, State.onlyIf_true]
  dsimp only
  rw [State.lkIsUp, State.partner_state]
  by_cases hup : s.lkState link.toNat = 3
  · rw [hup, if_pos rfl]
    rfl
  · rw [beq_eq_false_iff_ne.mpr hup, if_neg hup, Bool.not_false, State.onlyIf_true, State.readyHeard]

theorem ready_up {next : BitVec 7} {role : BitVec 8} {id : BitVec 32} (h : s.lkState link.toNat = 3) :
    ∃ t, exec (.ready link next role id) s = .next t ∧
      t.rd F.LNK_STAT.PARTNER_ROLE link.toNat = role.toNat % 8 ∧ t.rd F.LNK_PARTNER.ID link.toNat = id.toNat ∧
      t.lkState link.toNat = 3 ∧ (t.link link.toNat).replay = (s.link link.toNat).replay ∧
      (t.link link.toNat).seq = (s.link link.toNat).seq ∧ t.mem = s.mem ∧ t.events = s.events := by
  have hexec := exec_ready ha (next := next) (role := role) (id := id) (Nat.le_trans (by decide) (Nat.le_of_eq h.symm))
  rw [if_pos h] at hexec
  obtain ⟨m, hm⟩ := s.partner_link link.toNat role.toNat id.toNat
  exact ⟨_, hexec, s.partner_role .., s.partner_id _ _ id.isLt, (s.partner_state ..).trans h, by rw [hm], by rw [hm],
    s.partner_keeps _ linkBlind_mem _ _, s.partner_keeps _ linkBlind_events _ _⟩

omit ha in
/-- What READY tells tryUp: the state, the role, the partner's role, and the link with READY in it. -/
theorem State.readyHeard_shows (k next role id : Nat) : (s.readyHeard k next role id).lkState k = s.lkState k ∧
    (s.readyHeard k next role id).lkRole k = s.lkRole k ∧
    (s.readyHeard k next role id).rd F.LNK_STAT.PARTNER_ROLE k = role % 8 ∧
    (s.readyHeard k next role id).now = s.now ∧
    ∃ m, (s.readyHeard k next role id).link k = { s.link k with mismatch := m, readyIn := some next } := by
  obtain ⟨m, hm⟩ := s.partner_link k role id
  rw [State.lkState, State.lkRole, State.readyHeard, State.rd_setLink, State.rd_setLink, State.rd_setLink, State.link_setLink_same, hm]
  refine ⟨s.partner_state .., s.partner_rd _ _ _ (by decide), s.partner_role .., State.now_congr ?_, m, rfl⟩
  rw [State.setLink, State.setLnk_tb, s.partner_keeps _ linkBlind_tb]

omit ha in
theorem State.readyHeard_codes {k : Nat} (hk : k < 16) (next role id : Nat) :
    (s.readyHeard k next role id).recovery = s.recovery ∧ (s.readyHeard k next role id).events = s.events := by
  rw [State.readyHeard, State.recovery_congr (State.rd_setLink ..), s.partner_recovery _ hk, State.setLink, State.setLnk_events,
    s.partner_keeps _ linkBlind_events]
  exact ⟨rfl, rfl⟩

omit ha in
/-- Where READY is out, READY in brings the link UP where the roles match and leaves its state where they do not. -/
theorem State.readyHeard_tryUp {k : Nat} (hout : (s.link k).readyOut = true) (next role id : Nat) :
    (rolesMatch (s.lkRole k) (role % 8) = true →
      (s.readyHeard k next role id).tryUp k = (s.readyHeard k next role id).linkUp k next) ∧
    (rolesMatch (s.lkRole k) (role % 8) = false → ((s.readyHeard k next role id).tryUp k).lkState k = s.lkState k) := by
  obtain ⟨hst, hrole, hpartner, -, m, hlink⟩ := s.readyHeard_shows k next role id
  have hin : ((s.readyHeard k next role id).link k).readyIn = some next := by rw [hlink]
  have hout' : ((s.readyHeard k next role id).link k).readyOut = true := by rw [hlink, hout]
  refine ⟨fun hm => ?_, fun hm => ?_⟩
  · rw [State.tryUp_some _ _ hin hout', hrole, hpartner, if_pos hm]
  · rw [State.tryUp_mismatch_state _ _ hin hout' (by rw [hrole, hpartner, hm]), hst]

theorem ready_locked {next : BitVec 7} {role : BitVec 8} {id : BitVec 32} (h : s.lkState link.toNat = 2)
    (hout : (s.link link.toNat).readyOut = true) : ∃ t, exec (.ready link next role id) s = .next t ∧
      (rolesMatch (s.lkRole link.toNat) (role.toNat % 8) = true → t.lkState link.toNat = 3 ∧ (t.link link.toNat).replay = [] ∧
        (t.link link.toNat).seq = 0 ∧ (t.link link.toNat).expect = 0 ∧ t.rd F.LNK_STAT.TX_UNACK link.toNat = 0 ∧
        (t.link link.toNat).echoAt = some s.now ∧
        (s.recovery = false → t.events.map (·.code) = 0x0A01 :: s.events.map (·.code))) ∧
      (rolesMatch (s.lkRole link.toNat) (role.toNat % 8) = false → t.lkState link.toNat = 2) := by
  have hexec := exec_ready ha (next := next) (role := role) (id := id) (Nat.le_of_eq h.symm)
  rw [if_neg (by rw [h]; decide)] at hexec
  obtain ⟨hst, -, -, hnow, -⟩ := s.readyHeard_shows link.toNat next.toNat role.toNat id.toNat
  obtain ⟨hrec, hev⟩ := s.readyHeard_codes link.isLt next.toNat role.toNat id.toNat
  obtain ⟨hup, hstay⟩ := s.readyHeard_tryUp hout next.toNat role.toNat id.toNat
  refine ⟨_, hexec, fun hm => ?_, fun hm => (hstay hm).trans h⟩
  rw [hup hm]
  have hfresh : (s.readyHeard link.toNat next.toNat role.toNat id.toNat).lkState link.toNat ≠ 4 := by
    rw [hst, h]
    decide
  obtain ⟨h3, hflits, hunack, hecho⟩ := State.linkUp_fresh_shows _ _ hfresh next.toNat
  simp only [LinkSt.flits, Prod.mk.injEq] at hflits
  obtain ⟨hreplay, hseq, -, hexpect⟩ := hflits
  refine ⟨h3, hreplay, hseq, hexpect, hunack, by rw [hecho, hnow], fun hr => ?_⟩
  rw [State.linkUp_fresh_codes _ _ hfresh _ link.isLt (hrec.trans hr), hev]

theorem ready_retrain {next : BitVec 7} {role : BitVec 8} {id : BitVec 32} (h : s.lkState link.toNat = 4)
    (hout : (s.link link.toNat).readyOut = true) (hm : rolesMatch (s.lkRole link.toNat) (role.toNat % 8) = true)
    (hn : (s.link link.toNat).position next.toNat ≤ (s.link link.toNat).replay.length) :
    ∃ t, exec (.ready link next role id) s = .next t ∧ t.lkState link.toNat = 3 ∧
      (t.link link.toNat).replay = (s.link link.toNat).replay.drop ((s.link link.toNat).position next.toNat) ∧
      (t.link link.toNat).resend = (t.link link.toNat).replay.length ∧ (t.link link.toNat).seq = (s.link link.toNat).seq := by
  have hexec := exec_ready ha (next := next) (role := role) (id := id) (Nat.le_trans (by decide) (Nat.le_of_eq h.symm))
  rw [if_neg (by rw [h]; decide), (s.readyHeard_tryUp hout next.toNat role.toNat id.toNat).1 hm] at hexec
  obtain ⟨hst, -, -, -, m, hlink⟩ := s.readyHeard_shows link.toNat next.toNat role.toNat id.toNat
  refine ⟨_, hexec, ?_⟩
  have hshows := State.linkUp_resumed_shows (s.readyHeard link.toNat next.toNat role.toNat id.toNat) link.toNat (hst.trans h)
    (next := next.toNat) (by rw [hlink]; exact hn)
  rw [hlink] at hshows
  exact hshows

/-! ### Loss of lock, and a retrain that lasts too long (R370, R375) -/

theorem exec_lossOfBlockLock_locked (clock : Bool) (h : s.lkState link.toNat = 2) :
    exec (.lossOfBlockLock link clock) s = .next (s.train link.toNat) := by
  rw [exec, execLossOfBlockLock, s.live_run _ ha, h]
  rfl

theorem exec_lossOfBlockLock_cond (clock : Bool) (h : s.lkState link.toNat = 3) : exec (.lossOfBlockLock link clock) s = .next
    (s.onlyIf (s.rd F.LNK_STAT.RX_PWR link.toNat == 0 || (s.rd F.LNK_STAT.RX_PWR link.toNat == 1 && clock)) fun s =>
      s.retrain link.toNat) := by
  rw [exec, execLossOfBlockLock, s.live_run _ ha, h]
  rfl

theorem lossOfBlockLock_locked (clock : Bool) (h : s.lkState link.toNat = 2) :
    ∃ t, exec (.lossOfBlockLock link clock) s = .next t ∧ t.lkState link.toNat = 1 ∧ (t.link link.toNat).readyOut = false := by
  refine ⟨_, exec_lossOfBlockLock_locked ha clock h, s.train_state _, ?_⟩
  rw [s.train_link, if_pos rfl]
  rfl

theorem exec_lossOfBlockLock_up (clock : Bool) (h : s.lkState link.toNat = 3)
    (hp : s.rd F.LNK_STAT.RX_PWR link.toNat = 0 ∨ (s.rd F.LNK_STAT.RX_PWR link.toNat = 1 ∧ clock = true)) :
    exec (.lossOfBlockLock link clock) s = .next (s.retrain link.toNat) := by
  have hc : (s.rd F.LNK_STAT.RX_PWR link.toNat == 0 || (s.rd F.LNK_STAT.RX_PWR link.toNat == 1 && clock)) = true := by
    rw [Bool.or_eq_true, Bool.and_eq_true, beq_iff_eq, beq_iff_eq]
    exact hp
  rw [exec_lossOfBlockLock_cond ha clock h, hc, State.onlyIf_true]

theorem lossOfBlockLock_up (clock : Bool) (h : s.lkState link.toNat = 3) (hp : s.rd F.LNK_STAT.RX_PWR link.toNat = 0) :
    ∃ t, exec (.lossOfBlockLock link clock) s = .next t ∧ t.lkState link.toNat = 4 ∧
      (t.link link.toNat).replay = (s.link link.toNat).replay ∧ (t.link link.toNat).seq = (s.link link.toNat).seq ∧
      (s.recovery = false → t.events.map (·.code) = 0x0A03 :: s.events.map (·.code)) := by
  refine ⟨_, exec_lossOfBlockLock_up ha clock h (.inl hp), s.retrain_state _, ?_, ?_, s.retrain_codes _ link.isLt⟩ <;>
    · rw [s.retrain_link]
      rfl

theorem lossOfBlockLock_squelched (clock : Bool) (h : s.lkState link.toNat = 3)
    (hp : (s.rd F.LNK_STAT.RX_PWR link.toNat = 1 ∧ clock = false) ∨ s.rd F.LNK_STAT.RX_PWR link.toNat = 2) :
    exec (.lossOfBlockLock link clock) s = .next s := by
  have hc : (s.rd F.LNK_STAT.RX_PWR link.toNat == 0 || (s.rd F.LNK_STAT.RX_PWR link.toNat == 1 && clock)) = false := by
    rcases hp with ⟨hp, hclk⟩ | hp
    · rw [hp, hclk]
      rfl
    · rw [hp]
      rfl
  rw [exec_lossOfBlockLock_cond ha clock h, hc, State.onlyIf_false]

theorem exec_retrainTimeout {t0 : Nat} (h : (s.link link.toNat).retrainAt = some t0) (hst : s.lkState link.toNat = 4) :
    exec (.retrainTimeout link) s = .next (s.onlyIf (decide (t0 + s.rd F.LNK_TMO.RETRAIN_TO link.toNat * 100000 ≤ s.now)) fun s =>
      s.linkDown link.toNat) := by
  rw [exec, execRetrainTimeout, s.live_run _ ha, h]
  dsimp only
  rw [hst, beq_self_eq_true, Bool.true_and]

theorem retrainTimeout_follows {t0 : Nat} (h : (s.link link.toNat).retrainAt = some t0) (hst : s.lkState link.toNat = 4) :
    (s.now < t0 + s.rd F.LNK_TMO.RETRAIN_TO link.toNat * 100000 → exec (.retrainTimeout link) s = .next s) ∧
    (t0 + s.rd F.LNK_TMO.RETRAIN_TO link.toNat * 100000 ≤ s.now → ∃ t, exec (.retrainTimeout link) s = .next t ∧
      t.lkState link.toNat = 1 ∧ (t.link link.toNat).replay = [] ∧ (t.link link.toNat).seq = 0 ∧
      (s.recovery = false → t.events.map (·.code) = 0x0A02 :: s.events.map (·.code))) := by
  have hexec := exec_retrainTimeout ha h hst
  refine ⟨fun hlt => ?_, fun hle => ?_⟩
  · rw [hexec, decide_eq_false (Nat.not_le.mpr hlt), State.onlyIf_false]
  · rw [decide_eq_true hle, State.onlyIf_true] at hexec
    refine ⟨_, hexec, ?_, ?_, ?_, s.linkDown_codes link.isLt⟩
    · rw [State.linkDown, State.train_state]
    · rw [s.linkDown_link]
      rfl
    · rw [s.linkDown_link]
      rfl

/-! ### Bursts of TRAIN (R369) -/

theorem exec_burstModeEntry : exec (.burstModeEntry link) s = .next
    (s.onlyIf (s.unlocked link.toNat && decide ((s.link link.toNat).noLockAt + 10000000 ≤ s.now)) fun s =>
      s.wr F.LNK_STAT.BURST 1 link.toNat) := by
  rw [exec, execBurstModeEntry, s.live_run _ ha]

theorem burstModeEntry_begins (hu : s.unlocked link.toNat = true) (ht : (s.link link.toNat).noLockAt + 10000000 ≤ s.now) :
    ∃ t, exec (.burstModeEntry link) s = .next t ∧ t.rd F.LNK_STAT.BURST link.toNat = 1 ∧
      t.lkState link.toNat = s.lkState link.toNat ∧ t.host = s.host ∧ t.units = s.units := by
  have hexec := exec_burstModeEntry ha (link := link)
  rw [hu, decide_eq_true ht, Bool.and_self, State.onlyIf_true] at hexec
  exact ⟨_, hexec, s.rd_wr_self (by decide), s.rd_wr_bits (by decide), State.wr_host .., State.wr_units ..⟩

theorem burstModeEntry_idle (h : s.unlocked link.toNat = false ∨ s.now < (s.link link.toNat).noLockAt + 10000000) :
    exec (.burstModeEntry link) s = .next s := by
  have hc : (s.unlocked link.toNat && decide ((s.link link.toNat).noLockAt + 10000000 ≤ s.now)) = false := by
    rcases h with h | h
    · rw [h, Bool.false_and]
    · rw [decide_eq_false (Nat.not_le.mpr h), Bool.and_false]
  rw [exec_burstModeEntry ha, hc, State.onlyIf_false]

theorem exec_trainingBurst : exec (.trainingBurst link) s = .next
    (s.onlyIf (s.unlocked link.toNat && s.rdb F.LNK_STAT.BURST link.toNat) fun s =>
      s.setLink link.toNat { s.link link.toNat with lastSet := some (0x1E, 0) }) := by
  rw [exec, execTrainingBurst, s.live_run _ ha]

theorem trainingBurst_sends (hu : s.unlocked link.toNat = true) (hb : s.rd F.LNK_STAT.BURST link.toNat = 1) :
    ∃ t, exec (.trainingBurst link) s = .next t ∧
      t.link link.toNat = { s.link link.toNat with lastSet := some (0x1E, 0) } ∧
      (∀ j, j ≠ link.toNat → t.link j = s.link j) ∧ t.regs = s.regs := by
  have hexec := exec_trainingBurst ha (link := link)
  rw [hu, State.rdb_of_rd _ hb, Bool.true_and] at hexec
  exact ⟨_, hexec, State.link_setLink_same .., fun j hj => (State.link_setLink ..).trans (if_neg hj), State.setLink_regs ..⟩

theorem trainingBurst_idle (h : s.unlocked link.toNat = false ∨ s.rd F.LNK_STAT.BURST link.toNat = 0) :
    exec (.trainingBurst link) s = .next s := by
  have hc : (s.unlocked link.toNat && s.rdb F.LNK_STAT.BURST link.toNat) = false := by
    rcases h with h | h
    · rw [h, Bool.false_and]
    · rw [State.rdb_of_rd _ h]
      exact Bool.and_false _
  rw [exec_trainingBurst ha, hc, State.onlyIf_false]

end

end Sys2Proof.Machine
open Sys2Proof Sys2Proof.Machine

/-- Settles O55: each step of a link is one of training, coming up, retraining and going down. -/
theorem linksTrainAndComeUp : Obligations.LinksTrainAndComeUp :=
  ⟨fun _ ha => txPllLock_trains ha,
    fun _ _ pol ha => ⟨receiverLock_idle ha pol, fun h hin => receiverLock_locks ha h hin⟩,
    fun _ _ role id ha => ⟨train_idle ha role id, fun h => train_heard ha h⟩,
    fun _ _ next role id ha => ⟨ready_idle ha next role id, fun h => ready_up ha h, fun h hout => ready_locked ha h hout,
      fun h hout hm hn => ready_retrain ha h hout hm hn⟩,
    fun _ _ clock ha => ⟨lossOfBlockLock_locked ha clock, lossOfBlockLock_up ha clock,
      fun h hp hc => ⟨_, exec_lossOfBlockLock_up ha clock h (.inr ⟨hp, hc⟩), State.retrain_state ..⟩,
      lossOfBlockLock_squelched ha clock⟩,
    fun _ _ _ ha h hst => retrainTimeout_follows ha h hst,
    fun _ _ ha => ⟨burstModeEntry_begins ha, burstModeEntry_idle ha, trainingBurst_sends ha, trainingBurst_idle ha⟩⟩
end

section
/-! PROOF. The transmit paths of a link, its ordered sets and its power states (R367, R375, R377, R438). -/

namespace Sys2Proof.Machine

/-! ### What the transmit paths bound to a link leave alone (R276, R284) -/

/-- A view of the machine that the transmit paths leave alone: it reads no slot, no capture channel, no link, and not the
saturation counters of the slots. -/
structure SendBlind {α : Type} (view : State → α) : Prop where
  rad : ∀ t x, view (State.setRad t x) = view t
  cap : ∀ t x, view (State.setCap t x) = view t
  lnk : ∀ t x, view (State.setLnk t x) = view t
  sat : ∀ t v, ∀ i < 256, view (State.wr t F.RAD_SLOT_SAT.TX v i) = view t

theorem sendBlind_rd {f : Field} {i j : Nat} (h : 0x400000 ≤ f.off i j ∨ f.off i j < 0x380000) :
    SendBlind fun s => s.rd f i j where
  rad _ _ := State.rd_congr (State.setRad_regs ..) ..
  cap _ _ := State.rd_congr (State.setCap_regs ..) ..
  lnk _ _ := State.rd_congr (State.setLnk_regs ..) ..
  sat t v n hn := t.rd_wr_other _ _ _ _ _ _ _ <| by
    have hoff : F.RAD_SLOT_SAT.TX.off n 0 = 0x380034 + 64 * n := by rw [Field.off, Nat.mul_zero, Nat.add_zero, F.RAD_SLOT_SAT.TX]
    omega

theorem sendBlind_mem : SendBlind State.mem :=
  ⟨fun _ _ => State.setRad_mem .., fun _ _ => State.setCap_mem .., fun _ _ => State.setLnk_mem .., fun _ _ _ _ => State.wr_mem ..⟩

theorem sendBlind_host : SendBlind State.host :=
  ⟨fun _ _ => State.setRad_host .., fun _ _ => State.setCap_host .., fun _ _ => State.setLnk_host .., fun _ _ _ _ => State.wr_host ..⟩

theorem sendBlind_tb : SendBlind State.tb :=
  ⟨fun _ _ => State.setRad_tb .., fun _ _ => State.setCap_tb .., fun _ _ => State.setLnk_tb .., fun _ _ _ _ => State.wr_tb ..⟩

namespace SendBlind

variable {α : Type} {view : State → α} (hb : SendBlind view) (s : State) {i : Nat}
include hb

theorem setSlot (x : RadSlot) : view (s.setSlot i x) = view s := hb.rad ..

theorem capFeed (kind unit point ts : Nat) (poison : Bool) (wants : Nat → Bool) (data : Nat → List Byte) :
    view (s.capFeed kind unit point ts poison wants data) = view s := hb.cap ..

theorem linkQueue (k : Nat) (f : Flit) : view (s.linkQueue k f) = view s := hb.lnk ..

theorem txFlits (n : Nat) : view (State.txFlits n s i) = view s := by
  induction n generalizing s with
  | zero => rfl
  | succ n ih =>
    unfold State.txFlits
    dsimp only
    split
    · rfl
    · exact (ih _).trans ((hb.linkQueue ..).trans (hb.setSlot ..))

variable (hi : i < 256)
include hi

theorem txSampleOut (m w : Nat) (poison : Bool) : view (s.txSampleOut i m w poison) = view s := by
  unfold State.txSampleOut
  refine (State.each_keeps _ _ fun _ _ => (hb.setSlot ..).trans (hb.capFeed ..)).trans ((hb.setSlot ..).trans ((hb.capFeed ..).trans ?_))
  exact State.onlyIf_keeps _ _ fun t => hb.sat t _ i hi

theorem txFlow (t : Nat) : view (s.txFlow i t) = view s := by
  unfold State.txFlow
  dsimp only
  split
  · rfl
  · exact (hb.txFlits ..).trans ((State.each_keeps _ _ fun _ _ => hb.txSampleOut _ hi ..).trans (hb.setSlot ..))

omit hi in
theorem txLink (k : Nat) : view (s.txLink k) = view s :=
  s.each_keeps_of_mem _ fun _ _ h => hb.txFlow _ (List.mem_range.mp (List.mem_filter.mp h).1) _

end SendBlind

section
variable (s : State) (k : Nat)

/-- The transmit paths change no register of the links. -/
theorem State.txLink_rd {f : Field} (h : 0x400000 ≤ f.base) : (s.txLink k).rd f k = s.rd f k :=
  (sendBlind_rd (.inl (Nat.le_trans h Field.base_le_off))).txLink s k

theorem State.txLink_state : (s.txLink k).lkState k = s.lkState k := s.txLink_rd k (by decide)

theorem State.txLink_now : (s.txLink k).now = s.now := State.now_congr (sendBlind_tb.txLink s k)

/-- With no sample held, nothing leaves. -/
theorem State.txLink_empty (h : ∀ i, i < 256 → (s.slot i).txHeld = []) : s.txLink k = s := by
  have hnone : (List.range 256).filter (fun i => !(s.slot i).txHeld.isEmpty && s.rd F.RAD_SLOT_CFG.TX_LINK i == k) = [] :=
    List.filter_eq_nil_iff.mpr fun i hi => by
      rw [h i (List.mem_range.mp hi), List.isEmpty_nil, Bool.not_true, Bool.false_and]
      exact Bool.false_ne_true
  rw [State.txLink, hnone]
  rfl

theorem State.lkIsUp_of_state {s : State} {k : Nat} (h : s.lkState k = 3) : s.lkIsUp k = true := by
  rw [State.lkIsUp, h]
  rfl

theorem State.lkIsUp_of_ne {s : State} {k : Nat} (h : s.lkState k ≠ 3) : s.lkIsUp k = false := beq_eq_false_iff_ne.mpr h

/-! ### TIME (R377, R438) -/

theorem State.wr64_units (f : Field) (v i : Nat) : (s.wr64 f v i).units = s.units := rfl

/-- The signed number that 56 bits hold is the only one in range that they differ from by a multiple of 2⁵⁶. -/
theorem sint_eq_of_emod {v now : Nat} {d : Int} (hlo : -(2 ^ 55) ≤ d) (hhi : d < 2 ^ 55)
    (h : ((v : Int) - now - d) % 2 ^ 56 = 0) : sint 56 (v + 2 ^ 56 - now % 2 ^ 56) = d := by
  rw [sint]
  split <;> omega

theorem State.timeFrom_eq (v : Nat) : ∃ b, s.timeFrom v =
    (s.wr64 F.PAIR_TB_OFS_LO.OFS (toBits 64 (sint 56 (v + 2 ^ 56 - s.now % 2 ^ 56)))).wrb F.PAIR_STAT.TB_LOCK b := ⟨_, rfl⟩

theorem State.timeFrom_keeps (v : Nat) : (s.timeFrom v).host = s.host ∧ (s.timeFrom v).units = s.units := by
  obtain ⟨b, hb⟩ := s.timeFrom_eq v
  rw [hb, State.wrb, State.wr_host, State.wr64_host, State.wr_units, State.wr64_units]
  exact ⟨rfl, rfl⟩

theorem State.timeFrom_ofs (v : Nat) :
    (s.timeFrom v).rd64 F.PAIR_TB_OFS_LO.OFS = toBits 64 (sint 56 (v + 2 ^ 56 - s.now % 2 ^ 56)) % 2 ^ 64 := by
  obtain ⟨b, hb⟩ := s.timeFrom_eq v
  rw [hb, State.wrb, State.rd64, State.rdReg_wr_other _ _ _ _ _ _ (by decide), State.rdReg_wr_other _ _ _ _ _ _ (by decide),
    ← State.rd64, State.rd64_wr64]

end

/-! ### The steps -/

section
variable {s : State} (ha : s.alive = true) {link : BitVec 4}
include ha

theorem exec_time (v : BitVec 56) : exec (.time link v) s = .next
    (s.onlyIf (s.lkRole link.toNat == 3 && s.lkIsUp link.toNat && s.rdb F.PAIR_CFG.EN && s.rd F.PAIR_STAT.ROLE == 1) fun s =>
      s.timeFrom v.toNat) := by
  rw [exec, execTime, s.live_run _ ha]

theorem time_ignored (v : BitVec 56) (h : s.lkRole link.toNat ≠ 3 ∨ s.lkState link.toNat ≠ 3 ∨ s.rdb F.PAIR_CFG.EN = false ∨
    s.rd F.PAIR_STAT.ROLE ≠ 1) : exec (.time link v) s = .next s := by
  have hc : (s.lkRole link.toNat == 3 && s.lkIsUp link.toNat && s.rdb F.PAIR_CFG.EN && s.rd F.PAIR_STAT.ROLE == 1) = false := by
    rcases h with h | h | h | h
    · rw [beq_eq_false_iff_ne.mpr h, Bool.false_and, Bool.false_and, Bool.false_and]
    · rw [State.lkIsUp_of_ne h, Bool.and_false, Bool.false_and, Bool.false_and]
    · rw [h, Bool.and_false, Bool.false_and]
    · rw [beq_eq_false_iff_ne.mpr h, Bool.and_false]
  rw [exec_time ha, hc, State.onlyIf_false]

theorem time_measures {v : BitVec 56} (hrole : s.lkRole link.toNat = 3) (hup : s.lkState link.toNat = 3)
    (hen : s.rdb F.PAIR_CFG.EN = true) (hstandby : s.rd F.PAIR_STAT.ROLE = 1) :
    ∃ t, exec (.time link v) s = .next t ∧ t.host = s.host ∧ t.units = s.units ∧
      ∀ d : Int, -(2 ^ 55) ≤ d → d < 2 ^ 55 → ((v.toNat : Int) - s.now - d) % 2 ^ 56 = 0 →
        t.rd64 F.PAIR_TB_OFS_LO.OFS = (d % 2 ^ 64).toNat := by
  have hexec := exec_time ha (link := link) v
  rw [hrole, State.lkIsUp_of_state hup, hen, hstandby] at hexec
  refine ⟨_, hexec, (s.timeFrom_keeps _).1, (s.timeFrom_keeps _).2, fun d hlo hhi hd => ?_⟩
  rw [State.onlyIf, if_pos (by decide), s.timeFrom_ofs, sint_eq_of_emod hlo hhi hd, toBits]
  omega

theorem squelch_shows (sleep : Bool) (hup : s.lkState link.toNat = 3) :
    ∃ t, exec (.squelch link sleep) s = .next t ∧ t.rd F.LNK_STAT.RX_PWR link.toNat = (if sleep then 2 else 1) ∧
      t.lkState link.toNat = 3 ∧ t.host = s.host ∧ t.units = s.units := by
  have hexec : exec (.squelch link sleep) s = .next (s.wr F.LNK_STAT.RX_PWR (1 + b2n sleep) link.toNat) := by
    rw [exec, execSquelch, s.live_run _ ha, State.lkIsUp_of_state hup, State.onlyIf_true]
  refine ⟨_, hexec, ?_, ?_, State.wr_host .., State.wr_units ..⟩
  · cases sleep
    · exact s.rd_wr_self (by decide)
    · exact s.rd_wr_self (by decide)
  · rw [State.lkState, State.rd_wr_bits _ (by decide), ← State.lkState, hup]

/-! ### ECHO (R377) -/

theorem echo_own {v : BitVec 56} (hup : s.lkState link.toNat = 3) {t0 : Nat} (h : (s.link link.toNat).echoAt = some t0)
    (hv : t0 % 2 ^ 56 = v.toNat) : ∃ t, exec (.echo link v) s = .next t ∧
      t.rd F.LNK_RTT.RTT link.toNat = min 65535 (s.now - t0) ∧
      t.link link.toNat = { s.link link.toNat with echoAt := none } ∧ t.mem = s.mem := by
  have hexec : exec (.echo link v) s = .next ((s.setLink link.toNat { s.link link.toNat with echoAt := none }).wr
      F.LNK_RTT.RTT (min 65535 (s.now - t0)) link.toNat) := by
    rw [exec, execEcho, s.live_run _ ha, State.lkIsUp_of_state hup, State.onlyIf_true, h]
    dsimp only
    rw [if_pos hv]
  refine ⟨_, hexec, State.rd_wr_self _ ⟨by decide, Nat.lt_of_le_of_lt (Nat.min_le_left ..) (by decide)⟩, ?_, ?_⟩
  · rw [State.link_wr, State.link_setLink_same]
  · rw [State.wr_mem, State.setLink, State.setLnk_mem]

theorem echo_other {v : BitVec 56} (hup : s.lkState link.toNat = 3) (h : (s.link link.toNat).echoAt = none)
    (hp : s.rd F.LNK_STAT.TX_PWR link.toNat = 0) : ∃ t, exec (.echo link v) s = .next t ∧
      (t.link link.toNat).lastSet = some (0x87, v.toNat) ∧ t.regs = s.regs := by
  have hexec : exec (.echo link v) s = .next (s.sendSet link.toNat 0x87 v.toNat) := by
    rw [exec, execEcho, s.live_run _ ha, State.lkIsUp_of_state hup, State.onlyIf_true, h]
  refine ⟨_, hexec, ?_, s.sendSet_regs ..⟩
  rw [s.sendSet_active _ hp, State.link_setLink_same]

/-! ### TIME_SEND_INTERVAL and IDLE_TIMEOUT (R375, R377) -/

section
variable (hup : s.lkState link.toNat = 3) (hp : s.rd F.LNK_STAT.TX_PWR link.toNat = 0)
include hup hp

theorem exec_timeSendInterval : exec (.timeSendInterval link) s = .next
    (s.onlyIf (s.lkRole link.toNat != 0 && decide ((s.link link.toNat).timeAt + 1024 ≤ s.now)) fun s =>
      s.setLink link.toNat { s.link link.toNat with
        timeAt := s.now, lastSet := some (0x66, (s.now + s.rd F.LNK_RTT.RTT link.toNat / 2) % 2 ^ 56) }) := by
  rw [exec, execTimeSendInterval, s.live_run _ ha]
  dsimp only
  rw [State.lkIsUp_of_state hup, hp, beq_self_eq_true, Bool.true_and, Bool.true_and]

theorem timeSendInterval_waits (h : s.lkRole link.toNat = 0 ∨ s.now < (s.link link.toNat).timeAt + 1024) :
    exec (.timeSendInterval link) s = .next s := by
  have hc : (s.lkRole link.toNat != 0 && decide ((s.link link.toNat).timeAt + 1024 ≤ s.now)) = false := by
    rcases h with h | h
    · rw [h]
      exact Bool.false_and _
    · rw [decide_eq_false (Nat.not_le.mpr h), Bool.and_false]
  rw [exec_timeSendInterval ha hup hp, hc, State.onlyIf_false]

theorem timeSendInterval_sends (hr : s.lkRole link.toNat ≠ 0) (ht : (s.link link.toNat).timeAt + 1024 ≤ s.now) :
    ∃ t, exec (.timeSendInterval link) s = .next t ∧
      t.link link.toNat = { s.link link.toNat with
        timeAt := s.now, lastSet := some (0x66, (s.now + s.rd F.LNK_RTT.RTT link.toNat / 2) % 2 ^ 56) } ∧
      (∀ j, j ≠ link.toNat → t.link j = s.link j) ∧ t.regs = s.regs ∧ t.mem = s.mem := by
  have hexec := exec_timeSendInterval ha hup hp
  rw [bne_iff_ne.mpr hr, decide_eq_true ht, Bool.and_self, State.onlyIf_true] at hexec
  exact ⟨_, hexec, State.link_setLink_same .., fun j hj => (State.link_setLink ..).trans (if_neg hj), State.setLink_regs ..,
    State.setLnk_mem ..⟩

theorem exec_idleTimeout : exec (.idleTimeout link) s = .next
    ((s.txLink link.toNat).onlyIf (s.rd F.LNK_CFG.IDLE_T link.toNat != 0 && (s.txLink link.toNat).lkQuiet link.toNat
        && decide (((s.txLink link.toNat).link link.toNat).quietAt + s.rd F.LNK_CFG.IDLE_T link.toNat * 64 ≤ s.now)) fun u =>
      (u.setLink link.toNat { u.link link.toNat with lastSet := some (0x78, 0), quietAt := u.now }).wr F.LNK_STAT.TX_PWR 1
        link.toNat) := by
  rw [exec, execIdleTimeout, s.live_run _ ha]
  dsimp only
  rw [State.lkIsUp_of_state ((s.txLink_state _).trans hup), s.txLink_rd _ (by decide), hp, beq_self_eq_true, Bool.true_and,
    Bool.true_and, s.txLink_now]

theorem idleTimeout_waits (h : s.rd F.LNK_CFG.IDLE_T link.toNat = 0 ∨ (s.txLink link.toNat).lkQuiet link.toNat = false) :
    exec (.idleTimeout link) s = .next (s.txLink link.toNat) := by
  have hc : (s.rd F.LNK_CFG.IDLE_T link.toNat != 0 && (s.txLink link.toNat).lkQuiet link.toNat) = false := by
    rcases h with h | h
    · rw [h]
      exact Bool.false_and _
    · rw [h, Bool.and_false]
  rw [exec_idleTimeout ha hup hp, hc, Bool.false_and, State.onlyIf_false]

theorem idleTimeout_idles (ht : s.rd F.LNK_CFG.IDLE_T link.toNat ≠ 0) (hq : (s.txLink link.toNat).lkQuiet link.toNat = true)
    (hd : ((s.txLink link.toNat).link link.toNat).quietAt + s.rd F.LNK_CFG.IDLE_T link.toNat * 64 ≤ s.now) :
    ∃ t, exec (.idleTimeout link) s = .next t ∧ t.rd F.LNK_STAT.TX_PWR link.toNat = 1 ∧
      (t.link link.toNat).lastSet = some (0x78, 0) ∧ (t.link link.toNat).quietAt = s.now ∧
      t.lkState link.toNat = 3 ∧ t.mem = s.mem ∧ t.host = s.host := by
  have hexec := exec_idleTimeout ha hup hp
  rw [bne_iff_ne.mpr ht, hq, decide_eq_true hd, Bool.and_self, Bool.and_self, State.onlyIf_true] at hexec
  refine ⟨_, hexec, State.rd_wr_self _ (by decide), ?_, ?_, ?_, ?_, ?_⟩
  · rw [State.link_wr, State.link_setLink_same]
  · rw [State.link_wr, State.link_setLink_same, s.txLink_now]
  · rw [State.lkState, State.rd_wr_bits _ (by decide), State.rd_setLink, ← State.lkState, s.txLink_state, hup]
  · rw [State.wr_mem, State.setLink, State.setLnk_mem, sendBlind_mem.txLink]
  · rw [State.wr_host, State.setLink, State.setLnk_host, sendBlind_host.txLink]

end

/-! ### SLEEP_TIMEOUT and LINK_WAKE (R375) -/

theorem exec_sleepTimeout : exec (.sleepTimeout link) s = .next
    (s.onlyIf (s.rd F.LNK_STAT.TX_PWR link.toNat == 1 && s.rd F.LNK_CFG.SLEEP_T link.toNat != 0 &&
        decide ((s.link link.toNat).quietAt + s.rd F.LNK_CFG.SLEEP_T link.toNat * 1000 ≤ s.now)) fun s =>
      (s.setLink link.toNat { s.link link.toNat with lastSet := some (0x78, 1), quietAt := s.now }).wr F.LNK_STAT.TX_PWR 2
        link.toNat) := by
  rw [exec, execSleepTimeout, s.live_run _ ha]

theorem sleepTimeout_sleeps (h1 : s.rd F.LNK_STAT.TX_PWR link.toNat = 1) (ht : s.rd F.LNK_CFG.SLEEP_T link.toNat ≠ 0)
    (hd : (s.link link.toNat).quietAt + s.rd F.LNK_CFG.SLEEP_T link.toNat * 1000 ≤ s.now) :
    ∃ t, exec (.sleepTimeout link) s = .next t ∧ t.rd F.LNK_STAT.TX_PWR link.toNat = 2 ∧
      (t.link link.toNat).lastSet = some (0x78, 1) ∧ t.lkState link.toNat = s.lkState link.toNat ∧ t.mem = s.mem := by
  have hexec := exec_sleepTimeout ha (link := link)
  rw [h1, beq_self_eq_true, bne_iff_ne.mpr ht, decide_eq_true hd, Bool.and_self, Bool.and_self, State.onlyIf_true] at hexec
  refine ⟨_, hexec, State.rd_wr_self _ (by decide), ?_, ?_, ?_⟩
  · rw [State.link_wr, State.link_setLink_same]
  · rw [State.lkState, State.rd_wr_bits _ (by decide), State.rd_setLink, State.lkState]
  · rw [State.wr_mem, State.setLink, State.setLnk_mem]

theorem sleepTimeout_idle (h1 : s.rd F.LNK_STAT.TX_PWR link.toNat ≠ 1) : exec (.sleepTimeout link) s = .next s := by
  rw [exec_sleepTimeout ha, beq_eq_false_iff_ne.mpr h1, Bool.false_and, Bool.false_and, State.onlyIf_false]

/-- A link that its transmitter has woken: what it owed goes out, data follows after the wake. -/
def LinkSt.woken (l : LinkSt) (now pwr : Nat) : LinkSt :=
  { l with
    owed := [], quietAt := now, dataAt := now + if pwr = 1 then 40 else 2000
    lastSet := match l.owed.getLast? with | some e => some e | none => some (0x1E, 0) }

/-- What a sleeping transmitter wakes for. -/
def State.wakes (s : State) (k : Nat) : Bool := s.rd F.CLK_STATUS.PSTATE == 0 &&
  (!(s.link k).owed.isEmpty || !(s.link k).txq.isEmpty || (s.lkRole k == 3 && !s.pair.out.isEmpty))

theorem exec_linkWake : exec (.linkWake link) s = .next
    ((s.txLink link.toNat).onlyIf (s.lkIsUp link.toNat && s.rd F.LNK_STAT.TX_PWR link.toNat != 0 &&
        (s.txLink link.toNat).wakes link.toNat) fun u =>
      (u.setLink link.toNat ((u.link link.toNat).woken s.now (s.rd F.LNK_STAT.TX_PWR link.toNat))).wr F.LNK_STAT.TX_PWR 0
        link.toNat) := by
  rw [exec, execLinkWake, s.live_run _ ha]
  dsimp only
  rw [State.lkIsUp, s.txLink_state, ← State.lkIsUp, s.txLink_rd _ (by decide), Bool.and_assoc, ← State.wakes, State.onlyIf, State.onlyIf,
    s.txLink_now, s.txLink_rd _ (by decide)]
  rfl

theorem linkWake_wakes (hup : s.lkState link.toNat = 3) (hp : s.rd F.LNK_STAT.TX_PWR link.toNat ≠ 0)
    (hst : s.rd F.CLK_STATUS.PSTATE = 0)
    (hw : ((s.txLink link.toNat).link link.toNat).owed ≠ [] ∨ ((s.txLink link.toNat).link link.toNat).txq ≠ []) :
    ∃ t, exec (.linkWake link) s = .next t ∧ t.rd F.LNK_STAT.TX_PWR link.toNat = 0 ∧ (t.link link.toNat).owed = [] ∧
      (t.link link.toNat).txq = ((s.txLink link.toNat).link link.toNat).txq ∧ (t.link link.toNat).quietAt = s.now ∧
      (t.link link.toNat).dataAt = s.now + (if s.rd F.LNK_STAT.TX_PWR link.toNat = 1 then 40 else 2000) ∧
      t.lkState link.toNat = 3 ∧ t.mem = s.mem ∧ t.host = s.host := by
  have hst' : (s.txLink link.toNat).rd F.CLK_STATUS.PSTATE = 0 := ((sendBlind_rd (.inr (by decide))).txLink s _).trans hst
  have hwakes : (s.txLink link.toNat).wakes link.toNat = true := by
    rw [State.wakes, hst', beq_self_eq_true, Bool.true_and, Bool.or_eq_true, Bool.or_eq_true]
    exact .inl (hw.imp (fun h => by rw [List.isEmpty_eq_false_iff.mpr h]; rfl) fun h => by rw [List.isEmpty_eq_false_iff.mpr h]; rfl)
  have hexec := exec_linkWake ha (link := link)
  rw [State.lkIsUp_of_state hup, bne_iff_ne.mpr hp, hwakes, Bool.and_self, Bool.and_self, State.onlyIf_true] at hexec
  refine ⟨_, hexec, State.rd_wr_self _ (by decide), ?_, ?_, ?_, ?_, ?_, ?_, ?_⟩
  iterate 4
    · rw [State.link_wr, State.link_setLink_same]
      rfl
  · rw [State.lkState, State.rd_wr_bits _ (by decide), State.rd_setLink, ← State.lkState, s.txLink_state, hup]
  · rw [State.wr_mem, State.setLink, State.setLnk_mem, sendBlind_mem.txLink]
  · rw [State.wr_host, State.setLink, State.setLnk_host, sendBlind_host.txLink]

theorem linkWake_active (hp : s.rd F.LNK_STAT.TX_PWR link.toNat = 0) :
    exec (.linkWake link) s = .next (s.txLink link.toNat) := by
  have hc : (s.lkIsUp link.toNat && s.rd F.LNK_STAT.TX_PWR link.toNat != 0) = false := by
    rw [hp]
    exact Bool.and_false _
  rw [exec_linkWake ha, hc, Bool.false_and, State.onlyIf_false]

end

end Sys2Proof.Machine
open Sys2Proof Sys2Proof.Machine

/-- Settles O57: the transmit paths, which run first, leave the links' registers as they were. -/
theorem linkSetsAndPowerStates : Obligations.LinkSetsAndPowerStates :=
  ⟨fun _ _ => rfl,
    fun _ _ v ha => ⟨time_ignored ha v, fun hr hup hen hs => time_measures ha hr hup hen hs⟩,
    fun _ _ sleep ha hup => squelch_shows ha sleep hup,
    fun _ _ _ ha hup => ⟨fun _ h hv => echo_own ha hup h hv, fun h hp => echo_other ha hup h hp⟩,
    fun _ _ ha hup hp => ⟨timeSendInterval_waits ha hup hp, timeSendInterval_sends ha hup hp,
      idleTimeout_waits ha hup hp, idleTimeout_idles ha hup hp⟩,
    fun _ _ ha => ⟨sleepTimeout_sleeps ha, sleepTimeout_idle ha, linkWake_wakes ha, linkWake_active ha⟩⟩
end

section
/-! PROOF. Flits on their way out and in: the replay buffer, acknowledgements, delivery (R371 to R373, R380, R381). -/

namespace Sys2Proof.Machine

/-! ### Register pairs -/

theorem Field.off_eq (f : Field) (i j : Nat) : f.off i j = f.base + f.s1 * i + f.s2 * j := rfl

section
variable (s : State) {f g : Field} {v i j k : Nat}

theorem State.rd64_congr {s t : State} (h : t.regs = s.regs) (g : Field) (k : Nat) : t.rd64 g k = s.rd64 g k := by
  rw [State.rd64, State.rd64, State.rdReg, State.rdReg, h, State.rdReg, State.rdReg]

theorem State.rd64_wr_other (h : f.off i j ≠ g.off k 0 ∧ f.off i j ≠ g.off k 0 + 4) : (s.wr f v i j).rd64 g k = s.rd64 g k := by
  rw [State.rd64, s.rdReg_wr_other _ _ _ _ _ h.1.symm, s.rdReg_wr_other _ _ _ _ _ h.2.symm, State.rd64]

theorem State.rd_wr64_other (h : f.off i j ≠ g.off k 0 ∧ f.off i j ≠ g.off k 0 + 4) : (s.wr64 g v k).rd f i j = s.rd f i j := by
  rw [State.rd, State.wr64, State.rdReg_wrReg, if_neg h.2, State.rdReg_wrReg, if_neg h.1, State.rd]

/-- A counter pair goes up by one, no further than 64 bits reach. -/
theorem State.rd64_sat64 : (s.sat64 f i).rd64 f i = min (2 ^ 64 - 1) (s.rd64 f i + 1) := by
  rw [State.sat64, State.rd64_wr64, satAdd_eq_min]
  omega

/-- A counter pair of a link, counted up, leaves the link's other registers alone. -/
theorem State.rd_sat64_link (h : f.s1 = 256 ∧ f.s2 = 0 ∧ g.s1 = 256 ∧ f.base ≠ g.base ∧ f.base ≠ g.base + 4) :
    (s.sat64 g k).rd f k = s.rd f k := by
  obtain ⟨hf1, hf2, hg1, hlo, hhi⟩ := h
  refine s.rd_wr64_other ?_
  rw [Field.off, Field.off, hf1, hf2, hg1]
  omega

/-- The gateways' registers lie above those of the links' own words. -/
theorem State.rd_sat64_gateway (hk : k < 16) (h : 0x482000 ≤ f.base ∧ g.base < 0x4800fc ∧ g.s1 = 256) :
    (s.sat64 g k).rd f i j = s.rd f i j := by
  obtain ⟨hf, hg, hg1⟩ := h
  have hbase := Nat.le_trans hf (Field.base_le_off (i := i) (j := j))
  refine s.rd_wr64_other ?_
  rw [g.off_eq k, hg1]
  omega

theorem State.rd_wr_gateway (hk : k < 16) (hf : 0x482000 ≤ f.base) (hg : g.ofLink) : (s.wr g v k).rd f i j = s.rd f i j := by
  obtain ⟨-, hhi, hg1, hg2⟩ := hg
  have hbase := Nat.le_trans hf (Field.base_le_off (i := i) (j := j))
  refine s.rd_wr_other _ _ _ _ _ _ _ ?_
  rw [g.off_eq k, hg1, hg2]
  omega

end

/-! ### Gateways (R380) -/

section
variable (s : State) (g : Nat) (x : GwSt)

theorem State.link_setGw (j : Nat) : (s.setGw g x).link j = s.link j := by
  rw [State.setGw, State.link_wr, State.link_wr]
  rw [State.link, State.setLnk_lnk, State.link]

theorem State.gw_setGw : (s.setGw g x).gw g = x := by
  rw [State.gw, State.setGw, State.wr_lnk, State.wr_lnk, State.setLnk_lnk]
  exact Sparse.get_set_same ..

theorem State.setGw_keeps {α : Type} {view : State → α} (hb : LinkBlind view) : view (s.setGw g x) = view s := by
  rw [State.setGw, hb.reg, hb.reg, hb.lnk]

theorem State.setGw_rd64 {f : Field} {k : Nat} (hk : k < 16) (hf : f.base < 0x4800fc ∧ f.s1 = 256) :
    (s.setGw g x).rd64 f k = s.rd64 f k := by
  obtain ⟨hhi, hs1⟩ := hf
  have hoff : f.off k 0 < 0x482000 - 4 := by
    rw [Field.off, hs1]
    omega
  have hother {h : Field} (hb : 0x482000 ≤ h.base) (t : State) (v : Nat) : (t.wr h v g).rd64 f k = t.rd64 f k := by
    have hle : 0x482000 ≤ h.off g 0 := Nat.le_trans hb Field.base_le_off
    exact t.rd64_wr_other ⟨by omega, by omega⟩
  rw [State.setGw, hother (by decide), hother (by decide), State.rd64_congr (State.setLnk_regs ..)]

/-- The gateways' registers lie below those of the pair. -/
theorem State.setGw_rdPair {f : Field} (i j : Nat) (hg : g < 16) (hf : 0x4c0000 ≤ f.base) :
    (s.setGw g x).rd f i j = s.rd f i j := by
  have hle : 0x4c0000 ≤ f.off i j := Nat.le_trans hf Field.base_le_off
  have hother {h : Field} (hb : h.base = 0x482004 ∧ h.s1 = 16 ∧ h.s2 = 0) (t : State) (v : Nat) : (t.wr h v g).rd f i j = t.rd f i j := by
    obtain ⟨hb, h1, h2⟩ := hb
    refine t.rd_wr_other _ _ _ _ _ _ _ ?_
    rw [h.off_eq g, hb, h1, h2]
    omega
  rw [State.setGw, hother (by decide), hother (by decide)]
  exact State.rd_congr (State.setLnk_regs ..) ..

theorem State.setGw_rxd (h : x.rx.length < 128) : (s.setGw g x).rd F.LNK_GW_STAT.RXD g = x.rx.length := by
  rw [State.setGw]
  exact State.rd_wr_self _ ⟨by decide, h⟩

end

theorem sendBlind_rd64 {f : Field} {k : Nat} (h : 0x400000 ≤ f.base) : SendBlind fun s => s.rd64 f k where
  rad _ _ := State.rd64_congr (State.setRad_regs ..) ..
  cap _ _ := State.rd64_congr (State.setCap_regs ..) ..
  lnk _ _ := State.rd64_congr (State.setLnk_regs ..) ..
  sat t v n hn := t.rd64_wr_other <| by
    have hle : 0x400000 ≤ f.off k 0 := Nat.le_trans h Field.base_le_off
    have hoff : F.RAD_SLOT_SAT.TX.off n 0 = 0x380034 + 64 * n := by rw [Field.off, Nat.mul_zero, Nat.add_zero, F.RAD_SLOT_SAT.TX]
    omega

/-! ### FLIT_TRANSMIT (R373) -/

section
variable (s : State) (k : Nat)

/-- The machine past the first flit that link k has waiting. -/
def State.dequeued (s : State) (k : Nat) (q : List Flit) : State := s.setLink k { s.link k with txq := q }

/-- The machine after the first waiting flit has been taken; its gateway shows its depths again. -/
def State.flitTaken (s : State) (k : Nat) (f : Flit) (q : List Flit) : State :=
  match if f.typ = 2 then (s.dequeued k q).gwOf k f.chan else none with
  | some g => (s.dequeued k q).setGw g ((s.dequeued k q).gw g)
  | none => s.dequeued k q

theorem State.nextFlit_queued {f : Flit} {q : List Flit} (h : (s.link k).txq = f :: q) :
    s.nextFlit k = some (f, s.flitTaken k f q) := by
  rw [State.nextFlit, h]
  rfl

theorem State.flitTaken_keeps {α : Type} {view : State → α} (f : Flit) (q : List Flit)
    (hlink : view (s.dequeued k q) = view s) (hgw : ∀ t g x, view (State.setGw t g x) = view t) :
    view (s.flitTaken k f q) = view s := by
  unfold State.flitTaken
  split
  · exact (hgw ..).trans hlink
  · exact hlink

theorem State.flitTaken_link (f : Flit) (q : List Flit) (j : Nat) :
    (s.flitTaken k f q).link j = if j = k then { s.link k with txq := q } else s.link j := by
  rw [← State.link_setLink]
  unfold State.flitTaken
  split
  · exact State.link_setGw ..
  · rfl

/-- A link that has sent a new flit. -/
def LinkSt.sent (l : LinkSt) (f : Flit) (now n : Nat) : LinkSt :=
  { l with
    replay := l.replay ++ [f], seq := (l.seq + 1) % 128, lastFlit := some (l.seq, f), quietAt := now
    oldestAt := if n = 0 then now else l.oldestAt }

/-- The machine that has sent flit f as a new one. -/
def State.flitSent (s : State) (k : Nat) (f : Flit) (n : Nat) : State :=
  ((s.setLink k ((s.link k).sent f s.now n)).showUnack k).sat64 F.LNK_TX_FLITS_LO.COUNT k

theorem State.flitSent_link (f : Flit) (n j : Nat) :
    (s.flitSent k f n).link j = if j = k then (s.link k).sent f s.now n else s.link j := by
  rw [State.flitSent, State.link_congr (State.sat64_lnk ..), State.showUnack, State.link_wr, State.link_setLink]

theorem State.flitSent_unack {f : Flit} {n : Nat} (h : (s.link k).replay.length < 64) :
    (s.flitSent k f n).rd F.LNK_STAT.TX_UNACK k = (s.link k).replay.length + 1 := by
  rw [State.flitSent, State.rd_sat64_link _ (by decide), State.showUnack, State.link_setLink_same, LinkSt.sent, List.length_append,
    List.length_singleton]
  exact State.rd_wr_self _ ⟨by decide, Nat.lt_of_lt_of_le (Nat.succ_lt_succ h) (by decide)⟩

theorem State.flitSent_count (f : Flit) (n : Nat) : (s.flitSent k f n).rd64 F.LNK_TX_FLITS_LO.COUNT k =
    min (2 ^ 64 - 1) (s.rd64 F.LNK_TX_FLITS_LO.COUNT k + 1) := by
  have hoff : F.LNK_STAT.TX_UNACK.off k 0 ≠ F.LNK_TX_FLITS_LO.COUNT.off k 0 ∧
      F.LNK_STAT.TX_UNACK.off k 0 ≠ F.LNK_TX_FLITS_LO.COUNT.off k 0 + 4 := by
    rw [Field.off_eq, Field.off_eq, F.LNK_STAT.TX_UNACK, F.LNK_TX_FLITS_LO.COUNT]
    dsimp only
    omega
  rw [State.flitSent, State.rd64_sat64, State.showUnack, State.rd64_wr_other _ hoff, State.setLink, State.rd64_congr (State.setLnk_regs ..)]

theorem State.flitSent_keeps (f : Flit) (n : Nat) : (s.flitSent k f n).mem = s.mem ∧ (s.flitSent k f n).events = s.events := by
  rw [State.flitSent, State.sat64_mem, State.sat64_events, State.showUnack, State.wr_mem, State.wr_events, State.setLink,
    State.setLnk_mem, State.setLnk_events]
  exact ⟨rfl, rfl⟩

end

section
variable {s : State} (ha : s.alive = true) {link : BitVec 4} (hup : s.lkState link.toNat = 3)
  (hp : s.rd F.LNK_STAT.TX_PWR link.toNat = 0)

/-- What FLIT_TRANSMIT does once the transmit paths have run. -/
def State.transmit (s : State) (k : Nat) : State :=
  let l := s.link k
  if l.resend ≠ 0 then
    match l.replay[l.replay.length - l.resend]? with
    | some f => s.setLink k { l with
        resend := l.resend - 1, lastFlit := some ((l.seq + 128 - l.resend) % 128, f), quietAt := s.now
        oldestAt := if l.replay.length - l.resend = 0 then s.now else l.oldestAt }
    | none => s
  else if 64 ≤ l.replay.length then s.setLink k { l with lastSet := some (0x55, 0) }
  else match s.nextFlit k with
    | none => s.setLink k { l with lastSet := some (0x55, 0) }
    | some (f, s) => (s.flitSent k f l.replay.length).onlyIf f.poison fun s => s.poisonSent k

include ha hup hp

theorem exec_flitTransmit : exec (.flitTransmit link) s = .next
    (s.onlyIf (decide ((s.link link.toNat).dataAt ≤ s.now)) fun s => (s.txLink link.toNat).transmit link.toNat) := by
  rw [exec, execFlitTransmit, s.live_run _ ha]
  dsimp only
  rw [State.lkIsUp_of_state hup, hp, beq_self_eq_true, Bool.true_and, Bool.true_and]
  rfl

theorem flitTransmit_waits (h : s.now < (s.link link.toNat).dataAt) : exec (.flitTransmit link) s = .next s := by
  rw [exec_flitTransmit ha hup hp, decide_eq_false (Nat.not_le.mpr h), State.onlyIf_false]

variable (ht : (s.link link.toNat).dataAt ≤ s.now)
include ht

theorem exec_flitTransmit_due : exec (.flitTransmit link) s = .next ((s.txLink link.toNat).transmit link.toNat) := by
  rw [exec_flitTransmit ha hup hp, decide_eq_true ht, State.onlyIf_true]

omit ha hup hp ht in
theorem State.transmit_new {k : Nat} {f : Flit} {q : List Flit} (hr : (s.link k).resend = 0) (hn : (s.link k).replay.length < 64)
    (hq : (s.link k).txq = f :: q) (hf : f.poison = false) :
    s.transmit k = (s.flitTaken k f q).flitSent k f (s.link k).replay.length := by
  rw [State.transmit, if_neg (not_not_intro hr), if_neg (Nat.not_le.mpr hn), State.nextFlit_queued _ _ hq]
  dsimp only
  rw [hf, State.onlyIf_false]

theorem flitTransmit_new {f : Flit} {q : List Flit} (hr : ((s.txLink link.toNat).link link.toNat).resend = 0)
    (hn : ((s.txLink link.toNat).link link.toNat).replay.length < 64)
    (hq : ((s.txLink link.toNat).link link.toNat).txq = f :: q) (hf : f.poison = false) :
    ∃ t, exec (.flitTransmit link) s = .next t ∧ (t.link link.toNat).txq = q ∧
      (t.link link.toNat).replay = ((s.txLink link.toNat).link link.toNat).replay ++ [f] ∧
      (t.link link.toNat).seq = (((s.txLink link.toNat).link link.toNat).seq + 1) % 128 ∧
      (t.link link.toNat).lastFlit = some (((s.txLink link.toNat).link link.toNat).seq, f) ∧
      t.rd F.LNK_STAT.TX_UNACK link.toNat = ((s.txLink link.toNat).link link.toNat).replay.length + 1 ∧
      t.rd64 F.LNK_TX_FLITS_LO.COUNT link.toNat = min (2 ^ 64 - 1) (s.rd64 F.LNK_TX_FLITS_LO.COUNT link.toNat + 1) ∧
      (∀ j, j ≠ link.toNat → t.link j = (s.txLink link.toNat).link j) ∧ t.mem = (s.txLink link.toNat).mem ∧
      t.events = (s.txLink link.toNat).events := by
  have hexec := exec_flitTransmit_due ha hup hp ht
  rw [State.transmit_new hr hn hq hf] at hexec
  have hlink := (s.txLink link.toNat).flitTaken_link link.toNat f q link.toNat
  rw [if_pos rfl] at hlink
  refine ⟨_, hexec, ?_, ?_, ?_, ?_, ?_, ?_, fun j hj => ?_, ?_, ?_⟩
  iterate 4
    · rw [State.flitSent_link, if_pos rfl, hlink]
      rfl
  · rw [State.flitSent_unack _ _ (by rw [hlink]; exact hn), hlink]
  · rw [State.flitSent_count, State.flitTaken_keeps (view := fun t => t.rd64 F.LNK_TX_FLITS_LO.COUNT link.toNat) _ _ _ _
      (State.rd64_congr (State.setLink_regs ..) ..) fun t g x => t.setGw_rd64 g x link.isLt (by decide),
      (sendBlind_rd64 (by decide)).txLink]
  · rw [State.flitSent_link, if_neg hj, State.flitTaken_link, if_neg hj]
  · rw [(State.flitSent_keeps ..).1, State.flitTaken_keeps _ _ _ _ (State.setLnk_mem ..) fun t g x => t.setGw_keeps g x linkBlind_mem]
  · rw [(State.flitSent_keeps ..).2, State.flitTaken_keeps _ _ _ _ (State.setLnk_events ..) fun t g x =>
      t.setGw_keeps g x linkBlind_events]

theorem flitTransmit_again {f : Flit} (hr : ((s.txLink link.toNat).link link.toNat).resend ≠ 0)
    (hf : ((s.txLink link.toNat).link link.toNat).replay[((s.txLink link.toNat).link link.toNat).replay.length -
      ((s.txLink link.toNat).link link.toNat).resend]? = some f) :
    ∃ t, exec (.flitTransmit link) s = .next t ∧
      (t.link link.toNat).lastFlit = some ((((s.txLink link.toNat).link link.toNat).seq + 128 -
        ((s.txLink link.toNat).link link.toNat).resend) % 128, f) ∧
      (t.link link.toNat).resend = ((s.txLink link.toNat).link link.toNat).resend - 1 ∧
      (t.link link.toNat).replay = ((s.txLink link.toNat).link link.toNat).replay ∧
      (t.link link.toNat).txq = ((s.txLink link.toNat).link link.toNat).txq ∧
      (t.link link.toNat).seq = ((s.txLink link.toNat).link link.toNat).seq ∧ t.regs = (s.txLink link.toNat).regs := by
  have hexec := exec_flitTransmit_due ha hup hp ht
  rw [State.transmit, if_pos hr, hf] at hexec
  refine ⟨_, hexec, ?_, ?_, ?_, ?_, ?_, State.setLink_regs ..⟩
  all_goals rw [State.link_setLink_same]

theorem flitTransmit_full (hr : ((s.txLink link.toNat).link link.toNat).resend = 0)
    (hn : 64 ≤ ((s.txLink link.toNat).link link.toNat).replay.length) : exec (.flitTransmit link) s = .next
      ((s.txLink link.toNat).setLink link.toNat { (s.txLink link.toNat).link link.toNat with lastSet := some (0x55, 0) }) := by
  rw [exec_flitTransmit_due ha hup hp ht, State.transmit, if_neg (not_not_intro hr), if_pos hn]

end

/-! ### ACK, NAK and their timeouts (R373) -/

section
variable (s : State) (k : Nat)

/-- Where no MESSAGE entry is among those acknowledged, only the link changes. -/
theorem State.acked_plain {n : Nat} (h : n ≠ 0) (hm : ∀ f ∈ (s.link k).replay.take n, f.typ ≠ 4) :
    s.acked k n = (s.setLink k ((s.link k).acked n s.now)).showUnack k := by
  have hnone : ((s.link k).replay.take n).filter (fun f => f.typ == 4) = [] :=
    List.filter_eq_nil_iff.mpr fun f hf => by simpa using hm f hf
  rw [s.acked_eq k h, hnone]
  rfl

theorem State.acked_unack {n : Nat} (h : n ≠ 0) (hm : ∀ f ∈ (s.link k).replay.take n, f.typ ≠ 4) :
    (s.acked k n).rd F.LNK_STAT.TX_UNACK k = ((s.link k).replay.length - n) % 128 := by
  rw [s.acked_plain k h hm, State.showUnack, State.link_setLink_same, LinkSt.acked, List.length_drop]
  exact State.rd_wr_same _ _ _ _ _ ⟨by decide, by decide⟩

/-- A link that will send all it keeps again. -/
def LinkSt.replayed (l : LinkSt) (now : Nat) : LinkSt :=
  { l with resend := l.replay.length, inRow := l.inRow + 1, oldestAt := now }

theorem State.replay_again (h : (s.link k).replay ≠ []) (hm : (s.link k).inRow < s.rd F.LNK_TMO.REPLAY_MAX k) :
    s.replay k = (s.setLink k ((s.link k).replayed s.now)).sat F.LNK_REPLAYS.COUNT k := by
  rw [State.replay, List.isEmpty_eq_false_iff.mpr h, if_neg Bool.false_ne_true, if_neg (Nat.not_le.mpr hm), LinkSt.replayed]

theorem State.replay_shows (h : (s.link k).replay ≠ []) (hm : (s.link k).inRow < s.rd F.LNK_TMO.REPLAY_MAX k) :
    (s.replay k).link k = (s.link k).replayed s.now ∧ (s.replay k).lkState k = s.lkState k ∧
    (s.replay k).rd F.LNK_REPLAYS.COUNT k = min (2 ^ 32 - 1) (s.rd F.LNK_REPLAYS.COUNT k + 1) := by
  rw [s.replay_again k h hm]
  refine ⟨?_, ?_, ?_⟩
  · rw [State.link_sat, State.link_setLink_same]
  · rw [State.lkState, State.sat, State.rd_wr_word _ (by decide), State.rd_setLink, State.lkState]
  · rw [State.rd_sat_at _ (by decide), State.rd_setLink]
    rfl

theorem State.replay_retrains (h : (s.link k).replay ≠ []) (hm : s.rd F.LNK_TMO.REPLAY_MAX k ≤ (s.link k).inRow) :
    s.replay k = s.retrain k := by
  rw [State.replay, List.isEmpty_eq_false_iff.mpr h, if_neg Bool.false_ne_true, if_pos hm]

/-- An ACK on an ACTIVE direction goes out at once. -/
theorem State.sendAck_shows (h : s.rd F.LNK_STAT.TX_PWR k = 0) : ((s.sendAck k).link k).good = 0 ∧
    ((s.sendAck k).link k).goodAt = none ∧ ((s.sendAck k).link k).lastSet = some (0x33, (s.link k).expect) ∧
    (s.sendAck k).regs = s.regs := by
  rw [State.sendAck, State.sendSet_active _ _ (by rw [State.rd_setLink, h]), State.link_setLink_same, State.link_setLink_same]
  exact ⟨rfl, rfl, rfl, (State.setLink_regs ..).trans (State.setLink_regs ..)⟩

end

section
variable {s : State} (ha : s.alive = true) {link : BitVec 4} (hup : s.lkState link.toNat = 3)
include ha hup

theorem exec_ack (next : BitVec 7) : exec (.ack link next) s = .next
    (s.onlyIf (decide ((s.link link.toNat).position next.toNat ≤ (s.link link.toNat).replay.length)) fun t =>
      t.acked link.toNat ((s.link link.toNat).position next.toNat)) := by
  rw [exec, execAck, s.live_run _ ha, State.lkIsUp_of_state hup, State.onlyIf_true]

theorem ack_ignored {next : BitVec 7} (h : (s.link link.toNat).replay.length < (s.link link.toNat).position next.toNat ∨
    (s.link link.toNat).position next.toNat = 0) : exec (.ack link next) s = .next s := by
  rw [exec_ack ha hup]
  rcases h with h | h
  · rw [decide_eq_false (Nat.not_le.mpr h), State.onlyIf_false]
  · rw [State.onlyIf, h, s.acked_zero, ite_self]

theorem ack_frees {next : BitVec 7} (hn : (s.link link.toNat).position next.toNat ≤ (s.link link.toNat).replay.length)
    (h0 : (s.link link.toNat).position next.toNat ≠ 0)
    (hm : ∀ f ∈ (s.link link.toNat).replay.take ((s.link link.toNat).position next.toNat), f.typ ≠ 4) :
    ∃ t, exec (.ack link next) s = .next t ∧
      (t.link link.toNat).replay = (s.link link.toNat).replay.drop ((s.link link.toNat).position next.toNat) ∧
      (t.link link.toNat).resend = min (s.link link.toNat).resend
        ((s.link link.toNat).replay.length - (s.link link.toNat).position next.toNat) ∧
      (t.link link.toNat).inRow = 0 ∧ (t.link link.toNat).seq = (s.link link.toNat).seq ∧
      t.rd F.LNK_STAT.TX_UNACK link.toNat =
        ((s.link link.toNat).replay.length - (s.link link.toNat).position next.toNat) % 128 ∧
      t.mem = s.mem ∧ t.host = s.host := by
  have hexec := exec_ack ha hup next
  rw [decide_eq_true hn, State.onlyIf_true] at hexec
  have hlink := s.acked_link link.toNat h0
  refine ⟨_, hexec, by rw [hlink, LinkSt.acked], by rw [hlink, LinkSt.acked], by rw [hlink, LinkSt.acked],
    by rw [hlink, LinkSt.acked], s.acked_unack _ h0 hm, ?_, ?_⟩
  · rw [s.acked_plain _ h0 hm, State.showUnack, State.wr_mem, State.setLink, State.setLnk_mem]
  · rw [s.acked_plain _ h0 hm, State.showUnack, State.wr_host, State.setLink, State.setLnk_host]

theorem exec_nak (next : BitVec 7) : exec (.nak link next) s = .next
    (s.onlyIf (decide ((s.link link.toNat).position next.toNat ≤ (s.link link.toNat).replay.length)) fun t =>
      (t.acked link.toNat ((s.link link.toNat).position next.toNat)).replay link.toNat) := by
  rw [exec, execNak, s.live_run _ ha, State.lkIsUp_of_state hup, State.onlyIf_true]

theorem nak_ignored {next : BitVec 7} (h : (s.link link.toNat).replay.length < (s.link link.toNat).position next.toNat) :
    exec (.nak link next) s = .next s := by
  rw [exec_nak ha hup, decide_eq_false (Nat.not_le.mpr h), State.onlyIf_false]

theorem exec_nak_oldest {next : BitVec 7} (h : (s.link link.toNat).position next.toNat = 0) :
    exec (.nak link next) s = .next (s.replay link.toNat) := by
  rw [exec_nak ha hup, State.onlyIf, h, s.acked_zero, if_pos (decide_eq_true (Nat.zero_le _))]

theorem nak_replays {next : BitVec 7} (h : (s.link link.toNat).position next.toNat = 0) (hr : (s.link link.toNat).replay ≠ [])
    (hm : (s.link link.toNat).inRow < s.rd F.LNK_TMO.REPLAY_MAX link.toNat) : ∃ t, exec (.nak link next) s = .next t ∧
      (t.link link.toNat).resend = (s.link link.toNat).replay.length ∧
      (t.link link.toNat).inRow = (s.link link.toNat).inRow + 1 ∧ (t.link link.toNat).replay = (s.link link.toNat).replay ∧
      t.rd F.LNK_REPLAYS.COUNT link.toNat = min (2 ^ 32 - 1) (s.rd F.LNK_REPLAYS.COUNT link.toNat + 1) ∧
      t.lkState link.toNat = 3 := by
  obtain ⟨hlink, hst, hcount⟩ := s.replay_shows link.toNat hr hm
  exact ⟨_, exec_nak_oldest ha hup h, by rw [hlink, LinkSt.replayed], by rw [hlink, LinkSt.replayed],
    by rw [hlink, LinkSt.replayed], hcount, hst.trans hup⟩

theorem nak_retrains {next : BitVec 7} (h : (s.link link.toNat).position next.toNat = 0) (hr : (s.link link.toNat).replay ≠ [])
    (hm : s.rd F.LNK_TMO.REPLAY_MAX link.toNat ≤ (s.link link.toNat).inRow) :
    ∃ t, exec (.nak link next) s = .next t ∧ t.lkState link.toNat = 4 :=
  ⟨_, exec_nak_oldest ha hup h, by rw [s.replay_retrains _ hr hm, State.retrain_state]⟩

/-! ### ACK_DUE_TIMEOUT and REPLAY_TIMEOUT -/

theorem exec_ackDueTimeout {t0 : Nat} (h : (s.link link.toNat).goodAt = some t0) : exec (.ackDueTimeout link) s = .next
    (s.onlyIf (decide (t0 + 128 ≤ s.now)) fun s => s.sendAck link.toNat) := by
  rw [exec, execAckDueTimeout, s.live_run _ ha, h]
  dsimp only
  rw [State.lkIsUp_of_state hup, Bool.true_and]

theorem ackDueTimeout_follows {t0 : Nat} (h : (s.link link.toNat).goodAt = some t0) :
    (s.now < t0 + 128 → exec (.ackDueTimeout link) s = .next s) ∧
    (t0 + 128 ≤ s.now → s.rd F.LNK_STAT.TX_PWR link.toNat = 0 → ∃ t, exec (.ackDueTimeout link) s = .next t ∧
      (t.link link.toNat).good = 0 ∧ (t.link link.toNat).goodAt = none ∧
      (t.link link.toNat).lastSet = some (0x33, (s.link link.toNat).expect) ∧ t.regs = s.regs) := by
  have hexec := exec_ackDueTimeout ha hup h
  refine ⟨fun hlt => ?_, fun hle hp => ?_⟩
  · rw [hexec, decide_eq_false (Nat.not_le.mpr hlt), State.onlyIf_false]
  · rw [decide_eq_true hle, State.onlyIf_true] at hexec
    exact ⟨_, hexec, s.sendAck_shows _ hp⟩

theorem exec_replayTimeout (hn : (s.link link.toNat).nakOut = false) : exec (.replayTimeout link) s = .next
    (s.onlyIf (!(s.link link.toNat).replay.isEmpty &&
        decide ((s.link link.toNat).oldestAt + s.rd F.LNK_TMO.REPLAY_TO link.toNat ≤ s.now)) fun s => s.replay link.toNat) := by
  rw [exec, execReplayTimeout, s.live_run _ ha, State.lkIsUp_of_state hup, State.onlyIf_true]
  dsimp only
  rw [hn, Bool.false_and, State.onlyIf_false]

theorem replayTimeout_waits (hn : (s.link link.toNat).nakOut = false)
    (h : s.now < (s.link link.toNat).oldestAt + s.rd F.LNK_TMO.REPLAY_TO link.toNat) :
    exec (.replayTimeout link) s = .next s := by
  rw [exec_replayTimeout ha hup hn, decide_eq_false (Nat.not_le.mpr h), Bool.and_false, State.onlyIf_false]

theorem replayTimeout_replays (hn : (s.link link.toNat).nakOut = false) (hr : (s.link link.toNat).replay ≠ [])
    (h : (s.link link.toNat).oldestAt + s.rd F.LNK_TMO.REPLAY_TO link.toNat ≤ s.now)
    (hm : (s.link link.toNat).inRow < s.rd F.LNK_TMO.REPLAY_MAX link.toNat) :
    ∃ t, exec (.replayTimeout link) s = .next t ∧ (t.link link.toNat).resend = (s.link link.toNat).replay.length ∧
      (t.link link.toNat).inRow = (s.link link.toNat).inRow + 1 ∧ t.lkState link.toNat = 3 := by
  have hexec := exec_replayTimeout ha hup hn
  rw [List.isEmpty_eq_false_iff.mpr hr, Bool.not_false, decide_eq_true h, Bool.and_self, State.onlyIf_true] at hexec
  obtain ⟨hlink, hst, -⟩ := s.replay_shows link.toNat hr hm
  exact ⟨_, hexec, by rw [hlink, LinkSt.replayed], by rw [hlink, LinkSt.replayed], hst.trans hup⟩

end

/-! ### LINK_FLIT_RECEIVE (R371 to R373) -/

section
variable (s : State) (k : Nat)

theorem LinkSt.withSet_keeps {β : Type} (f : LinkSt → β) (h : ∀ l a b c, f { l with lastSet := a, quietAt := b, owed := c } = f l)
    (l : LinkSt) (active : Prop) [Decidable active] (now typ v : Nat) : f (l.withSet active now typ v) = f l := by
  unfold LinkSt.withSet
  split
  · exact h l _ _ l.owed
  · exact h l l.lastSet l.quietAt _

/-- A NAK sets only what it says. -/
theorem State.sendNak_shows : ((s.sendNak k).link k).nakOut = true ∧ ((s.sendNak k).link k).nakAt = s.now ∧
    ((s.sendNak k).link k).expect = (s.link k).expect ∧ (s.sendNak k).regs = s.regs := by
  rw [State.sendNak, State.sendSet_regs, State.setLink_regs, State.sendSet_eq, State.link_setLink_same, State.link_setLink_same]
  exact ⟨LinkSt.withSet_keeps (·.nakOut) (fun _ _ _ _ => rfl) .., LinkSt.withSet_keeps (·.nakAt) (fun _ _ _ _ => rfl) ..,
    LinkSt.withSet_keeps (·.expect) (fun _ _ _ _ => rfl) .., rfl⟩

/-- A link that has received a good flit. -/
def LinkSt.received (l : LinkSt) (now : Nat) : LinkSt :=
  { l with
    expect := (l.expect + 1) % 128, nakOut := false, good := l.good + 1
    goodAt := if l.goodAt.isSome then l.goodAt else some now }

/-- The machine that has counted a good flit of link k. -/
def State.flitCounted (s : State) (k : Nat) : State :=
  ((s.setLink k ((s.link k).received s.now)).wr F.LNK_STAT.RX_NEXT (((s.link k).expect + 1) % 128) k).sat64
    F.LNK_RX_FLITS_LO.COUNT k

/-- The machine that has shown it to the capture channels as well. -/
def State.flitShown (s : State) (k : Nat) (b : List Byte) : State :=
  (s.flitCounted k).capFeed 3 k 0 (s.flitCounted k).now (flitOf b).poison
    (fun c => (fieldAt b 0 2 &&& bits ((s.flitCounted k).capSel c) 31 16) == bits ((s.flitCounted k).capSel c) 15 0) fun _ =>
      leBytes 8 (s.flitCounted k).now ++ b

variable (b : List Byte)

theorem State.flitShown_keeps {α : Type} {view : State → α} (hcap : ∀ t x, view (State.setCap t x) = view t) :
    view (s.flitShown k b) = view (s.flitCounted k) := hcap ..

theorem State.flitCounted_keeps {α : Type} {view : State → α} (hb : LinkBlind view)
    (h64 : ∀ t f v i, view (State.wr64 t f v i) = view t) : view (s.flitCounted k) = view s := by
  rw [State.flitCounted, State.sat64, h64, hb.reg]
  exact hb.lnk ..

theorem State.flitShown_link : (s.flitShown k b).link k = (s.link k).received s.now := by
  rw [State.link_congr (s.flitShown_keeps k b fun _ _ => State.setCap_lnk ..), State.flitCounted,
    State.link_congr (State.sat64_lnk ..), State.link_wr, State.link_setLink_same]

theorem State.gw_congr {s t : State} (h : t.lnk.gws = s.lnk.gws) (g : Nat) : t.gw g = s.gw g := by rw [State.gw, h, State.gw]

theorem State.flitShown_gw (g : Nat) : (s.flitShown k b).gw g = s.gw g := by
  refine State.gw_congr ?_ g
  rw [s.flitShown_keeps k b (view := State.lnk) fun _ _ => State.setCap_lnk .., State.flitCounted, State.sat64_lnk, State.wr_lnk,
    State.setLink, State.setLnk_lnk]

theorem State.flitShown_mem : (s.flitShown k b).mem = s.mem := by
  rw [s.flitShown_keeps k b fun _ _ => State.setCap_mem ..,
    s.flitCounted_keeps k linkBlind_mem fun _ _ _ _ => State.wr64_mem ..]

theorem State.flitShown_events : (s.flitShown k b).events = s.events := by
  rw [s.flitShown_keeps k b fun _ _ => State.setCap_events ..,
    s.flitCounted_keeps k linkBlind_events fun _ _ _ _ => State.wr64_events ..]

theorem State.flitShown_rdAny (f : Field) (i j : Nat) : (s.flitShown k b).rd f i j = (s.flitCounted k).rd f i j :=
  s.flitShown_keeps k b (view := fun t => t.rd f i j) fun _ _ => State.rd_congr (State.setCap_regs ..) ..

/-- Of the link's own registers a good flit changes RX_NEXT and the flit count alone. -/
theorem State.flitShown_rd {f : Field} (h : f.base ≠ 0x480008 ∧ f.base ≠ 0x480028 ∧ f.base ≠ 0x48002c ∧ f.s1 = 256 ∧ f.s2 = 0) :
    (s.flitShown k b).rd f k = s.rd f k := by
  obtain ⟨hstat, hlo, hhi, h1, h2⟩ := h
  rw [State.flitShown_rdAny, State.flitCounted, State.rd_sat64_link _ ⟨h1, h2, rfl, hlo, hhi⟩,
    State.rd_wr_word _ ⟨hstat.symm, h1.symm, h2.symm⟩, State.rd_setLink]

theorem State.flitShown_rxNext : (s.flitShown k b).rd F.LNK_STAT.RX_NEXT k = ((s.link k).expect + 1) % 128 := by
  rw [State.flitShown_rdAny, State.flitCounted, State.rd_sat64_link _ (by decide)]
  exact State.rd_wr_self _ ⟨by decide, Nat.mod_lt _ (by decide)⟩

variable {k} (hk : k < 16)
include hk

theorem State.flitShown_rdGateway {f : Field} (i j : Nat) (h : 0x482000 ≤ f.base) : (s.flitShown k b).rd f i j = s.rd f i j := by
  rw [State.flitShown_rdAny, State.flitCounted, State.rd_sat64_gateway _ hk ⟨h, by decide, by decide⟩,
    State.rd_wr_gateway _ hk h (by decide), State.rd_setLink]

/-- The gateway of a flit is the one that the registers named before it came. -/
theorem State.flitShown_gwOf (chan : Nat) : (s.flitShown k b).gwOf k chan = s.gwOf k chan := by
  unfold State.gwOf State.rdb
  simp only [s.flitShown_rdGateway b hk _ _ (show 0x482000 ≤ F.LNK_GW_CFG.EN.base by decide),
    s.flitShown_rdGateway b hk _ _ (show 0x482000 ≤ F.LNK_GW_CFG.LINK.base by decide),
    s.flitShown_rdGateway b hk _ _ (show 0x482000 ≤ F.LNK_GW_CFG.CHAN.base by decide)]

/-- A pair that forwards is one whose PAIR_ registers say so. -/
theorem State.flitShown_forwards : (s.flitShown k b).forwards = s.forwards := by
  unfold State.forwards State.rdb
  rw [s.flitShown_rdGateway b hk _ _ (by decide), s.flitShown_rdGateway b hk _ _ (by decide), s.flitShown_rdGateway b hk _ _ (by decide)]

end

section
variable {s : State} (ha : s.alive = true) {link : BitVec 4} (hup : s.lkState link.toNat = 3) {bytes : List Byte}
include ha hup

theorem exec_linkFlitReceive_bad (hcrc : fieldAt (padTo 64 bytes) 62 2 ≠ flitCrc (s.link link.toNat).expect (padTo 64 bytes)) :
    exec (.linkFlitReceive link bytes) s = .next
      (if (s.link link.toNat).nakOut then s else (s.sat F.LNK_CRC_ERR.COUNT link.toNat).sendNak link.toNat) := by
  rw [exec, execLinkFlitReceive, s.live_run _ ha, State.lkIsUp_of_state hup, State.onlyIf_true]
  dsimp only
  rw [if_pos hcrc]

theorem linkFlitReceive_bad (hcrc : fieldAt (padTo 64 bytes) 62 2 ≠ flitCrc (s.link link.toNat).expect (padTo 64 bytes)) :
    ((s.link link.toNat).nakOut = true → exec (.linkFlitReceive link bytes) s = .next s) ∧
    ((s.link link.toNat).nakOut = false → ∃ t, exec (.linkFlitReceive link bytes) s = .next t ∧
      (t.link link.toNat).nakOut = true ∧ (t.link link.toNat).nakAt = s.now ∧
      (t.link link.toNat).expect = (s.link link.toNat).expect ∧
      t.rd F.LNK_CRC_ERR.COUNT link.toNat = min (2 ^ 32 - 1) (s.rd F.LNK_CRC_ERR.COUNT link.toNat + 1)) := by
  have hexec := exec_linkFlitReceive_bad ha hup hcrc
  refine ⟨fun h => ?_, fun h => ?_⟩
  · rw [hexec, if_pos h]
  · rw [h, if_neg Bool.false_ne_true] at hexec
    obtain ⟨hnak, hat, hexpect, hregs⟩ := (s.sat F.LNK_CRC_ERR.COUNT link.toNat).sendNak_shows link.toNat
    refine ⟨_, hexec, hnak, hat.trans (State.now_congr (State.sat_tb ..)), by rw [hexpect, State.link_sat], ?_⟩
    rw [State.rd_congr hregs, State.rd_sat_at _ (by decide)]
    rfl

theorem exec_linkFlitReceive_good (hcrc : fieldAt (padTo 64 bytes) 62 2 = flitCrc (s.link link.toNat).expect (padTo 64 bytes))
    (hg : (s.link link.toNat).good + 1 < 16) : exec (.linkFlitReceive link bytes) s = .next
      ((s.flitShown link.toNat (padTo 64 bytes)).flitDeliver link.toNat (flitOf (padTo 64 bytes))) := by
  rw [exec, execLinkFlitReceive, s.live_run _ ha, State.lkIsUp_of_state hup, State.onlyIf_true]
  dsimp only
  rw [if_neg (not_not_intro hcrc), decide_eq_false (Nat.not_le.mpr hg), State.onlyIf_false, State.flitShown, State.flitCounted,
    LinkSt.received]

theorem linkFlitReceive_notCarried
    (hcrc : fieldAt (padTo 64 bytes) 62 2 = flitCrc (s.link link.toNat).expect (padTo 64 bytes))
    (hrole : roleCarries (s.lkRole link.toNat) (flitOf (padTo 64 bytes)).typ = false) (hg : (s.link link.toNat).good + 1 < 16) :
    ∃ t, exec (.linkFlitReceive link bytes) s = .next t ∧
      (t.link link.toNat).expect = ((s.link link.toNat).expect + 1) % 128 ∧ (t.link link.toNat).nakOut = false ∧
      (t.link link.toNat).good = (s.link link.toNat).good + 1 ∧
      t.rd F.LNK_STAT.RX_NEXT link.toNat = ((s.link link.toNat).expect + 1) % 128 ∧
      t.rd F.LNK_RX_BAD.TYPE link.toNat = min (2 ^ 16 - 1) (s.rd F.LNK_RX_BAD.TYPE link.toNat + 1) ∧
      t.mem = s.mem ∧ t.events = s.events := by
  have hexec := exec_linkFlitReceive_good ha hup hcrc hg
  have hrole' : (!roleCarries ((s.flitShown link.toNat (padTo 64 bytes)).lkRole link.toNat) (flitOf (padTo 64 bytes)).typ) = true := by
    rw [State.lkRole, s.flitShown_rd _ _ (by decide), ← State.lkRole, hrole, Bool.not_false]
  rw [State.flitDeliver] at hexec
  dsimp only at hexec
  rw [if_pos hrole'] at hexec
  have hlink := s.flitShown_link link.toNat (padTo 64 bytes)
  refine ⟨_, hexec, ?_, ?_, ?_, ?_, ?_, ?_, ?_⟩
  iterate 3
    · rw [State.link_sat, hlink]
      rfl
  · rw [State.sat, State.rd_wr_word _ (by decide), State.flitShown_rxNext]
  · rw [State.rd_sat_at _ (by decide), State.flitShown_rd _ _ _ (by decide)]
    rfl
  · rw [State.sat_mem, State.flitShown_mem]
  · rw [State.sat_events, State.flitShown_events]

/-- The words of a GATEWAY flit as its gateway's receive FIFO keeps them. -/
def Flit.words (f : Flit) : List (Nat × Bool) := (List.range f.sub).map fun i => (fieldAt f.data (8 * i) 8, f.poison)

omit ha hup in
theorem State.gwDeliver_room {k g : Nat} {f : Flit} (hg : g < 16) (hf : s.forwards = false) (hroom : (s.gw g).rx.length + f.sub ≤ 64) :
    s.gwDeliver k g f = s.setGw g { s.gw g with rx := (s.gw g).rx ++ f.words } := by
  have hfull : ¬ 64 < (s.gw g).rx.length + ((List.range f.sub).map fun i => fieldAt f.data (8 * i) 8).length := by
    rw [List.length_map, List.length_range]
    omega
  have hfwd (x : GwSt) : (s.setGw g x).forwards = s.forwards := by
    unfold State.forwards State.rdb
    rw [s.setGw_rdPair g x _ _ hg (by decide), s.setGw_rdPair g x _ _ hg (by decide), s.setGw_rdPair g x _ _ hg (by decide)]
  rw [State.gwDeliver]
  dsimp only
  rw [if_neg hfull, hfwd, hf, Bool.false_and, State.onlyIf_false, List.map_map]
  rfl

theorem exec_linkFlitReceive_gateway {g : Nat}
    (hcrc : fieldAt (padTo 64 bytes) 62 2 = flitCrc (s.link link.toNat).expect (padTo 64 bytes))
    (hrole : roleCarries (s.lkRole link.toNat) 2 = true) (htyp : (flitOf (padTo 64 bytes)).typ = 2)
    (hg : (s.link link.toNat).good + 1 < 16) (h1 : 1 ≤ (flitOf (padTo 64 bytes)).sub) (h7 : (flitOf (padTo 64 bytes)).sub ≤ 7)
    (hfwd : s.forwards = false) (hgw : s.gwOf link.toNat (flitOf (padTo 64 bytes)).chan = some g) (hg16 : g < 16)
    (hroom : (s.gw g).rx.length + (flitOf (padTo 64 bytes)).sub ≤ 64) :
    exec (.linkFlitReceive link bytes) s = .next ((s.flitShown link.toNat (padTo 64 bytes)).setGw g
      { s.gw g with rx := (s.gw g).rx ++ (flitOf (padTo 64 bytes)).words }) := by
  have hrole' : roleCarries ((s.flitShown link.toNat (padTo 64 bytes)).lkRole link.toNat) (flitOf (padTo 64 bytes)).typ = true := by
    rw [State.lkRole, s.flitShown_rd _ _ (by decide), ← State.lkRole, htyp, hrole]
  have hsub : ¬ ((flitOf (padTo 64 bytes)).sub < 1 ∨ 7 < (flitOf (padTo 64 bytes)).sub) := by omega
  rw [exec_linkFlitReceive_good ha hup hcrc hg, State.flitDeliver, hrole', Bool.not_true, if_neg Bool.false_ne_true, htyp]
  dsimp only
  rw [if_neg hsub, s.flitShown_gwOf _ link.isLt, hgw]
  dsimp only
  rw [State.gwDeliver_room hg16 ((s.flitShown_forwards _ link.isLt).trans hfwd) (by rw [s.flitShown_gw]; exact hroom), s.flitShown_gw]
  rfl

theorem linkFlitReceive_gateway {g : Nat}
    (hcrc : fieldAt (padTo 64 bytes) 62 2 = flitCrc (s.link link.toNat).expect (padTo 64 bytes))
    (hrole : roleCarries (s.lkRole link.toNat) 2 = true) (htyp : (flitOf (padTo 64 bytes)).typ = 2)
    (hg : (s.link link.toNat).good + 1 < 16) (h1 : 1 ≤ (flitOf (padTo 64 bytes)).sub) (h7 : (flitOf (padTo 64 bytes)).sub ≤ 7)
    (hfwd : s.forwards = false) (hgw : s.gwOf link.toNat (flitOf (padTo 64 bytes)).chan = some g)
    (hroom : (s.gw g).rx.length + (flitOf (padTo 64 bytes)).sub ≤ 64) :
    ∃ t, exec (.linkFlitReceive link bytes) s = .next t ∧ (t.gw g).rx = (s.gw g).rx ++ (flitOf (padTo 64 bytes)).words ∧
      t.rd F.LNK_GW_STAT.RXD g = (s.gw g).rx.length + (flitOf (padTo 64 bytes)).sub ∧
      (t.link link.toNat).expect = ((s.link link.toNat).expect + 1) % 128 ∧ t.mem = s.mem ∧ t.events = s.events := by
  have hg16 : g < 16 := List.mem_range.mp (List.mem_of_find?_eq_some hgw)
  have hlen : ((s.gw g).rx ++ (flitOf (padTo 64 bytes)).words).length = (s.gw g).rx.length + (flitOf (padTo 64 bytes)).sub := by
    rw [List.length_append, Flit.words, List.length_map, List.length_range]
  refine ⟨_, exec_linkFlitReceive_gateway ha hup hcrc hrole htyp hg h1 h7 hfwd hgw hg16 hroom, ?_, ?_, ?_, ?_, ?_⟩
  · rw [State.gw_setGw]
  · rw [State.setGw_rxd _ _ _ (by dsimp only; omega)]
    exact hlen
  · rw [State.link_setGw, State.flitShown_link]
    rfl
  · rw [State.setGw_keeps _ _ _ linkBlind_mem, State.flitShown_mem]
  · rw [State.setGw_keeps _ _ _ linkBlind_events, State.flitShown_events]

/-! ### MESSAGE_RING_SEND (R381) -/

/-- What link k finds in its transmit ring's write index. -/
def State.ringIdx (s : State) (k : Nat) : Nat × State :=
  s.radIdx (reqLink k) (s.rd F.LNK_MTX_BASE.BASE k) 0 (s.link k).txWr

/-- The machine that has read it. -/
def State.ringRead (s : State) (k : Nat) : State :=
  (s.ringIdx k).2.setLink k { (s.ringIdx k).2.link k with txWr := (s.ringIdx k).1 }

/-- The address of the ring's next entry. -/
def State.entryAddr (s : State) (k : Nat) : Nat := s.rd F.LNK_MTX_BASE.BASE k * 16 + 64 +
  64 * (((s.link k).txRd + (s.link k).msgs) % 2 ^ (s.ringRead k).rd F.LNK_MRING.TX_SIZE k)

/-- An entry of the ring as a flit. -/
def ringFlit (l : List PByte) : Flit :=
  { flitOf (plain l) with typ := 4, poison := (flitOf (plain l)).poison || poisoned l }

omit ha hup in
theorem State.radIdx_lnk (req far ofs was : Nat) : (s.radIdx req far ofs was).2.lnk = s.lnk := by
  unfold State.radIdx
  dsimp only
  split
  · rw [memBlind_lnk.poisonConsumed, memBlind_lnk.memRead]
  · rw [memBlind_lnk.memRead]

omit ha hup in
theorem State.ringRead_link (k : Nat) : (s.ringRead k).link k = { s.link k with txWr := (s.ringIdx k).1 } := by
  rw [State.ringRead, State.link_setLink_same, State.link_congr (t := (s.ringIdx k).2) (State.radIdx_lnk ..)]

theorem messageRingSend_idle (h : s.lkRole link.toNat = 0 ∨ s.rd F.LNK_MRING.TX_SIZE link.toNat = 0) :
    exec (.messageRingSend link) s = .next s := by
  have hc : (s.lkRole link.toNat != 0 && s.rd F.LNK_MRING.TX_SIZE link.toNat != 0) = false := by
    rcases h with h | h
    · rw [h]
      exact Bool.false_and _
    · rw [h]
      exact Bool.and_false _
  rw [exec, execMessageRingSend, s.live_run _ ha]
  dsimp only
  rw [State.lkIsUp_of_state hup, Bool.true_and, hc, State.onlyIf_false]

theorem exec_messageRingSend (hr : s.lkRole link.toNat ≠ 0) (hs : s.rd F.LNK_MRING.TX_SIZE link.toNat ≠ 0)
    (hi : (s.link link.toNat).txRd + (s.link link.toNat).msgs < (s.ringIdx link.toNat).1)
    (hw : (s.ringRead link.toNat).memWaits (reqLink link.toNat) (s.entryAddr link.toNat) 64 = false) :
    exec (.messageRingSend link) s = .next
      (let r := (s.ringRead link.toNat).memRead (reqLink link.toNat) (s.entryAddr link.toNat) 64
       (r.s.setLink link.toNat { r.s.link link.toNat with msgs := (s.link link.toNat).msgs + 1 }).linkQueue link.toNat
        (ringFlit r.bytes)) := by
  have hlink := s.ringRead_link link.toNat
  have hgo : ¬ ((s.ringIdx link.toNat).1 ≤ (s.link link.toNat).txRd + (s.link link.toNat).msgs ∨
      (s.ringRead link.toNat).memWaits (reqLink link.toNat) (s.entryAddr link.toNat) 64 = true) := by
    rw [hw]
    exact fun h => h.elim (Nat.not_le.mpr hi) Bool.false_ne_true
  rw [exec, execMessageRingSend, s.live_run _ ha]
  dsimp only
  rw [State.lkIsUp_of_state hup, bne_iff_ne.mpr hr, bne_iff_ne.mpr hs, Bool.and_self, Bool.and_self, State.onlyIf_true,
    ← State.ringIdx, ← State.ringRead, hlink]
  dsimp only
  rw [← State.entryAddr, if_neg hgo]
  rfl

theorem messageRingSend_sends (hr : s.lkRole link.toNat ≠ 0) (hs : s.rd F.LNK_MRING.TX_SIZE link.toNat ≠ 0)
    (hi : (s.link link.toNat).txRd + (s.link link.toNat).msgs < (s.ringIdx link.toNat).1)
    (hw : (s.ringRead link.toNat).memWaits (reqLink link.toNat) (s.entryAddr link.toNat) 64 = false) :
    ∃ t, exec (.messageRingSend link) s = .next t ∧ (t.link link.toNat).txq = (s.link link.toNat).txq ++
        [ringFlit ((s.ringRead link.toNat).memRead (reqLink link.toNat) (s.entryAddr link.toNat) 64).bytes] ∧
      (t.link link.toNat).msgs = (s.link link.toNat).msgs + 1 ∧ (t.link link.toNat).txWr = (s.ringIdx link.toNat).1 := by
  have hlink : ((s.ringRead link.toNat).memRead (reqLink link.toNat) (s.entryAddr link.toNat) 64).s.link link.toNat =
      { s.link link.toNat with txWr := (s.ringIdx link.toNat).1 } := by
    rw [State.link_congr (memBlind_lnk.memRead ..), s.ringRead_link]
  refine ⟨_, exec_messageRingSend ha hup hr hs hi hw, ?_, ?_, ?_⟩
  all_goals
    dsimp only
    rw [State.linkQueue, State.link_setLink_same, State.link_setLink_same, hlink]

end

/-! ### GATEWAY_FLUSH_TIMEOUT (R380) -/

section
variable {s : State} (ha : s.alive = true) {g : BitVec 4}
include ha

theorem exec_gatewayFlushTimeout : exec (.gatewayFlushTimeout g) s = .next
    (s.onlyIf (!(s.gw g.toNat).tx.isEmpty && decide ((s.gw g.toNat).txAt + 20 ≤ s.now)) fun s => s.gwFlush g.toNat) := by
  rw [exec, execGatewayFlushTimeout, s.live_run _ ha]

theorem gatewayFlushTimeout_waits (h : (s.gw g.toNat).tx = [] ∨ s.now < (s.gw g.toNat).txAt + 20) :
    exec (.gatewayFlushTimeout g) s = .next s := by
  rw [exec_gatewayFlushTimeout ha]
  rcases h with h | h
  · rw [h]
    rfl
  · rw [decide_eq_false (Nat.not_le.mpr h), Bool.and_false, State.onlyIf_false]

/-- The flit that gateway g sends of its oldest words. -/
def State.gwFlit (s : State) (g : Nat) : Flit :=
  ⟨2, s.rd F.LNK_GW_CFG.CHAN g, false, ((s.gw g).tx.take 7).length, padTo 60 (((s.gw g).tx.take 7).flatMap (leBytes 8))⟩

omit ha in
theorem State.gwFlush_eq {g : Nat} (htx : (s.gw g).tx ≠ []) (hen : s.rdb F.LNK_GW_CFG.EN g = true) : s.gwFlush g =
    (s.linkQueue (s.rd F.LNK_GW_CFG.LINK g) (s.gwFlit g)).setGw g { s.gw g with tx := (s.gw g).tx.drop 7, txAt := s.now } := by
  rw [State.gwFlush, List.isEmpty_eq_false_iff.mpr htx, hen, Bool.not_true, Bool.or_self, if_neg Bool.false_ne_true, State.gwFlit]

theorem gatewayFlushTimeout_sends (htx : (s.gw g.toNat).tx ≠ []) (ht : (s.gw g.toNat).txAt + 20 ≤ s.now)
    (hen : s.rdb F.LNK_GW_CFG.EN g.toNat = true) : ∃ t, exec (.gatewayFlushTimeout g) s = .next t ∧
      (t.gw g.toNat).tx = (s.gw g.toNat).tx.drop 7 ∧ (t.gw g.toNat).rx = (s.gw g.toNat).rx ∧
      (t.link (s.rd F.LNK_GW_CFG.LINK g.toNat)).txq = (s.link (s.rd F.LNK_GW_CFG.LINK g.toNat)).txq ++ [s.gwFlit g.toNat] ∧
      t.mem = s.mem ∧ t.host = s.host ∧ t.events = s.events := by
  have hexec := exec_gatewayFlushTimeout ha (g := g)
  rw [List.isEmpty_eq_false_iff.mpr htx, decide_eq_true ht, Bool.not_false, Bool.and_self, State.onlyIf_true,
    State.gwFlush_eq htx hen] at hexec
  refine ⟨_, hexec, ?_, ?_, ?_, ?_, ?_, ?_⟩
  · rw [State.gw_setGw]
  · rw [State.gw_setGw]
  · rw [State.link_setGw, State.linkQueue, State.link_setLink_same]
  · rw [State.setGw_keeps _ _ _ linkBlind_mem, State.linkQueue, State.setLink, State.setLnk_mem]
  · rw [State.setGw_keeps _ _ _ linkBlind_host, State.linkQueue, State.setLink, State.setLnk_host]
  · rw [State.setGw_keeps _ _ _ linkBlind_events, State.linkQueue, State.setLink, State.setLnk_events]

end

end Sys2Proof.Machine
open Sys2Proof Sys2Proof.Machine

/-- Settles O56: what the transmit paths, the memory and the capture channels do leaves the replay buffer alone. -/
theorem flitsAreKeptUntilAcknowledged : Obligations.FlitsAreKeptUntilAcknowledged :=
  ⟨fun s _ ha hup hp => ⟨flitTransmit_waits ha hup hp, fun ht => ⟨s.txLink_empty _,
      fun _ _ hr hn hq hf => flitTransmit_new ha hup hp ht hr hn hq hf,
      fun _ hr hf => flitTransmit_again ha hup hp ht hr hf, flitTransmit_full ha hup hp ht⟩⟩,
    fun _ _ _ ha hup => ⟨ack_ignored ha hup, ack_frees ha hup, nak_ignored ha hup, nak_replays ha hup, nak_retrains ha hup⟩,
    fun _ _ ha hup => ⟨fun _ h => ackDueTimeout_follows ha hup h, replayTimeout_waits ha hup, replayTimeout_replays ha hup⟩,
    fun _ _ _ ha hup => ⟨linkFlitReceive_bad ha hup, linkFlitReceive_notCarried ha hup,
      fun _ hcrc hrole htyp hg h1 h7 hfwd hgw hroom => linkFlitReceive_gateway ha hup hcrc hrole htyp hg h1 h7 hfwd hgw hroom⟩,
    fun _ _ ha hup => ⟨messageRingSend_idle ha hup, messageRingSend_sends ha hup⟩,
    fun _ _ ha => ⟨gatewayFlushTimeout_waits ha, gatewayFlushTimeout_sends ha⟩⟩
end

section
/-! PROOF. Redundant pairs: heartbeat, keepalives, takeover, failover and join (R435, R443, R446 to R448, R451, R452). -/

namespace Sys2Proof.Machine

/-! ### The outputs of the pair (R436, R447) -/

/-- The banks follow what holds them: the pads and RELEASED alone change. -/
theorem ElaBlind.showReleases {α : Type} {view : State → α} (hb : ElaBlind view)
    (hbank : ∀ t v, ∀ b < 16, view (State.wr t F.PIN_BANK_STAT.RELEASED v b) = view t) (s : State) :
    view s.showReleases = view s := by
  have hpin {b p : Nat} (hb : b < 16) (hp : p ∈ bankPins b) : p < 512 := by
    obtain ⟨j, hj, rfl⟩ := List.mem_map.mp hp
    have := List.mem_range.mp hj
    omega
  refine s.each_keeps_of_mem _ fun t b hmem => ?_
  have hlt := List.mem_range.mp hmem
  have hrel (want : Bool) : view (t.wrb F.PIN_BANK_STAT.RELEASED want b) = view t := hbank _ _ b hlt
  unfold State.showRelease
  dsimp only
  split
  · exact (State.each_keeps_of_mem _ _ fun u p hp => hb.ownerTakes u (hpin hlt hp)).trans (hrel _)
  · split
    · exact (State.each_keeps_of_mem _ _ fun u p hp => hb.setPad u (hpin hlt hp) false false).trans (hrel _)
    · exact hrel _

section
variable (s : State) (sel : Bool)

/-- What drives the outputs changes no register of the pair. -/
theorem State.pairShow_rd {f : Field} {i j : Nat} (h : 0x380000 ≤ f.off i j) : (s.pairShow sel).rd f i j = s.rd f i j := by
  have hout : ¬ showsLevels (f.off i j) := by omega
  rw [State.pairShow, State.showDco_keeps (view := fun t => t.rd f i j) _ fun _ _ => State.rd_congr (State.setPins_regs ..) ..,
    (elaBlind_rd hout).showReleases fun t v b hb => t.rd_wr_other _ _ _ _ _ _ _ ?_]
  · exact State.rd_congr (State.setPair_regs ..) ..
  · rw [F.PIN_BANK_STAT.RELEASED.off_eq, F.PIN_BANK_STAT.RELEASED]
    dsimp only
    omega

theorem State.pairShow_pair : (s.pairShow sel).pair = { s.pair with sel := sel } := by
  rw [State.pairShow, State.showDco_keeps _ State.setPins_pair, State.showReleases_keeps _ State.wrReg_pair, State.setPair_pair]

theorem State.pairShow_mem : (s.pairShow sel).mem = s.mem := by
  rw [State.pairShow, State.showDco_keeps _ State.setPins_mem, State.showReleases_keeps _ State.wrReg_mem, State.setPair_mem]

theorem State.pairShow_events : (s.pairShow sel).events = s.events := by
  rw [State.pairShow, State.showDco_keeps _ State.setPins_events, State.showReleases_keeps _ State.wrReg_events, State.setPair_events]

end

/-! ### A takeover (R447) -/

/-- What a takeover leaves of the pair: the outputs wait for the release, and nothing received is kept. -/
def PairSt.takesOver (p : PairSt) (releaseAt : Nat) : PairSt :=
  { p with
    releaseAt := some releaseAt, handover := none, recs := [], gwIn := [], mbIn := [], commitIn := [], words := []
    join := none, joinStep := none, stateIn := [], parts := [], casks := [], theirs := [] }

section
variable (s : State)

/-- The machine whose role is PRIMARY, a join that waited completed. -/
def State.primary (s : State) : State := ((s.wr F.PAIR_STAT.ROLE 0).pairState prDegraded).completeOpt s.pair.join stIncomplete

theorem State.primary_units : s.primary.units = s.units := by
  rw [State.primary, State.completeOpt_units, State.pairState, State.wr_units, State.wr_units]

theorem State.primary_rd {f : Field} {i j : Nat} (h : 0x40000 ≤ f.off i j) (hstat : f.off i j ≠ 0x4c0040) :
    s.primary.rd f i j = s.rd f i j := by
  rw [State.primary, (hostBlind_rd h).completeOpt, State.pairState, State.rd_wr_other _ _ _ _ _ _ _ _ hstat,
    State.rd_wr_other _ _ _ _ _ _ _ _ hstat]

theorem State.primary_shows : s.primary.rd F.PAIR_STAT.ROLE = 0 ∧ s.primary.rd F.PAIR_STAT.STATE = 4 := by
  rw [State.primary, (hostBlind_rd (by decide)).completeOpt, (hostBlind_rd (by decide)).completeOpt, State.pairState]
  refine ⟨?_, State.rd_wr_self _ (by decide)⟩
  rw [State.rd_wr_bits _ (by decide)]
  exact State.rd_wr_self _ (by decide)

theorem State.primary_events : s.primary.events = s.events := by
  rw [State.primary, hostBlind_events.completeOpt, State.pairState, State.wr_events, State.wr_events]

/-- The machine that has raised PAIR_FAILOVER, before it drives PAIR_SEL. -/
def State.tookOver (s : State) : State :=
  ((s.primary.setPair (s.primary.pair.takesOver (s.primary.now + s.primary.rd F.PAIR_TMO.SEL_T))).pairEvent 0x0B03 sevWarn
    (Config.freeNat (s.primary.setPair (s.primary.pair.takesOver (s.primary.now + s.primary.rd F.PAIR_TMO.SEL_T))).free % 2 ^ 64) 0).burn

theorem State.pairTakeover_eq : s.pairTakeover = s.tookOver.pairShow true := rfl

theorem State.tookOver_rd {f : Field} {i j : Nat} (h : 0x40000 ≤ f.off i j) : s.tookOver.rd f i j = s.primary.rd f i j := by
  rw [State.tookOver, State.rd_congr (State.burn_regs ..), State.pairEvent, State.event_rd _ (not_mem_evtOffsets h),
    State.rd_congr (State.setPair_regs ..)]

theorem State.tookOver_pair : s.tookOver.pair = s.pair.takesOver (s.now + s.rd F.PAIR_TMO.SEL_T) := by
  rw [State.tookOver, State.burn_pair, State.pairEvent, State.units_pair (State.event_units ..), State.setPair_pair,
    State.units_pair s.primary_units, State.now_congr (State.units_tb s.primary_units), s.primary_rd (by decide) (by decide)]

theorem State.tookOver_mem : s.tookOver.mem = s.mem := by
  rw [State.tookOver, State.burn_mem, State.pairEvent, State.units_mem (State.event_units ..), State.setPair_mem,
    State.units_mem s.primary_units]

theorem State.tookOver_codes (hr : s.recovery = false) : s.tookOver.events.map (·.code) = 0x0B03 :: s.events.map (·.code) := by
  have hrec : (s.primary.setPair (s.primary.pair.takesOver (s.primary.now + s.primary.rd F.PAIR_TMO.SEL_T))).recovery = false := by
    rw [State.recovery_congr (State.rd_congr (State.setPair_regs ..) ..),
      State.recovery_congr (s.primary_rd (by decide) (by decide)), hr]
  rw [State.tookOver, State.burn_events, State.pairEvent, State.event_codes _ _ _ _ _ hrec, State.setPair_events, s.primary_events]

/-- What a takeover shows (R447). -/
theorem State.pairTakeover_shows : s.pairTakeover.rd F.PAIR_STAT.ROLE = 0 ∧ s.pairTakeover.rd F.PAIR_STAT.STATE = 4 ∧
    s.pairTakeover.pair = { s.pair.takesOver (s.now + s.rd F.PAIR_TMO.SEL_T) with sel := true } ∧ s.pairTakeover.mem = s.mem := by
  obtain ⟨hrole, hstate⟩ := s.primary_shows
  rw [s.pairTakeover_eq, State.pairShow_rd _ _ (by decide), State.pairShow_rd _ _ (by decide), s.tookOver_rd (by decide),
    s.tookOver_rd (by decide), State.pairShow_pair, s.tookOver_pair, State.pairShow_mem, s.tookOver_mem]
  exact ⟨hrole, hstate, rfl, rfl⟩

theorem State.pairTakeover_codes (hr : s.recovery = false) :
    s.pairTakeover.events.map (·.code) = 0x0B03 :: s.events.map (·.code) := by
  rw [s.pairTakeover_eq, State.pairShow_events, s.tookOver_codes hr]

end

/-! ### Heartbeat (R435, R446) -/

theorem heartbeatToggle_toggles (s : State) : ∃ t, exec .heartbeatToggle s = .next t ∧
    t.pair = { s.pair with hbOut := if s.heartbeatOn then !s.pair.hbOut else false } ∧ t.regs = s.regs ∧ t.mem = s.mem ∧
    t.host = s.host ∧ t.events = s.events := by
  have hexec : exec .heartbeatToggle s = .next (s.setPair { s.pair with hbOut := s.heartbeatOn && !s.pair.hbOut }) := by
    rw [exec, execHeartbeatToggle]
  refine ⟨_, hexec, ?_, State.setPair_regs .., State.setPair_mem .., State.setPair_host .., State.setPair_events ..⟩
  rw [State.setPair_pair]
  cases s.heartbeatOn
  · rfl
  · rfl

section
variable {s : State} (ha : s.alive = true)
include ha

theorem exec_pairHbInEdge : exec .pairHbInEdge s = .next (s.onlyIf (s.rdb F.GLB_STATUS.BOOT_OK) fun s =>
    (s.wr F.PAIR_STAT.PARTNER_HB 1).setPair { s.pair with hbAt := s.now, hbFault := false }) := by
  rw [exec, execPairHbInEdge, s.live_run _ ha]

theorem pairHbInEdge_shows : (s.rdb F.GLB_STATUS.BOOT_OK = false → exec .pairHbInEdge s = .next s) ∧
    (s.rdb F.GLB_STATUS.BOOT_OK = true → ∃ t, exec .pairHbInEdge s = .next t ∧ t.rd F.PAIR_STAT.PARTNER_HB = 1 ∧
      t.pair = { s.pair with hbAt := s.now, hbFault := false } ∧ t.host = s.host ∧ t.mem = s.mem ∧ t.events = s.events) := by
  refine ⟨fun h => ?_, fun h => ?_⟩
  · rw [exec_pairHbInEdge ha, h, State.onlyIf_false]
  · have hexec := exec_pairHbInEdge ha
    rw [h, State.onlyIf_true] at hexec
    refine ⟨_, hexec, ?_, State.setPair_pair .., ?_, ?_, ?_⟩
    · rw [State.rd_congr (State.setPair_regs ..)]
      exact State.rd_wr_self _ (by decide)
    · rw [State.setPair_host, State.wr_host]
    · rw [State.setPair_mem, State.wr_mem]
    · rw [State.setPair_events, State.wr_events]

theorem exec_heartbeatTimeout : exec .heartbeatTimeout s = .next (s.onlyIf s.hbLost fun s =>
    (s.wr F.PAIR_STAT.PARTNER_HB 0).onlyIf (decide (s.now < s.pair.flitAt + s.hbTo) && !s.pair.hbFault) fun s =>
      (s.setPair { s.pair with hbFault := true }).pairEvent 0x0B04 sevWarn 0 0) := by
  have hto (t : State) : (t.wr F.PAIR_STAT.PARTNER_HB 0).hbTo = t.hbTo := by
    rw [State.hbTo, State.rd_wr_other _ _ _ _ _ _ _ _ (by decide), State.hbTo]
  rw [exec, execHeartbeatTimeout, s.live_run _ ha]
  simp only [hto, State.wr_pair, State.now_congr (State.wr_tb ..)]

theorem heartbeat_present (h : s.hbLost = false) : exec .heartbeatTimeout s = .next s ∧ exec .pairTakeover s = .next s := by
  rw [exec_heartbeatTimeout ha, h, State.onlyIf_false, exec, execPairTakeover, s.live_run _ ha, h, Bool.false_and, Bool.false_and,
    Bool.false_and, State.onlyIf_false]
  exact ⟨rfl, rfl⟩

theorem heartbeatTimeout_shows (h : s.hbLost = true) : ∃ t, exec .heartbeatTimeout s = .next t ∧
    t.rd F.PAIR_STAT.PARTNER_HB = 0 ∧
    (s.now < s.pair.flitAt + s.hbTo → s.pair.hbFault = false → t.pair = { s.pair with hbFault := true } ∧
      (s.recovery = false → t.events.map (·.code) = 0x0B04 :: s.events.map (·.code))) ∧
    (s.pair.flitAt + s.hbTo ≤ s.now ∨ s.pair.hbFault = true → t.pair = s.pair ∧ t.events = s.events) ∧
    t.rd F.PAIR_STAT.ROLE = s.rd F.PAIR_STAT.ROLE ∧ t.mem = s.mem := by
  have hexec := exec_heartbeatTimeout ha
  have hrole : (s.wr F.PAIR_STAT.PARTNER_HB 0).rd F.PAIR_STAT.ROLE = s.rd F.PAIR_STAT.ROLE := s.rd_wr_bits (by decide)
  have hhb : (s.wr F.PAIR_STAT.PARTNER_HB 0).rd F.PAIR_STAT.PARTNER_HB = 0 := s.rd_wr_self (by decide)
  rw [h, State.onlyIf_true] at hexec
  by_cases hfault : s.now < s.pair.flitAt + s.hbTo ∧ s.pair.hbFault = false
  · rw [decide_eq_true hfault.1, hfault.2, Bool.not_false, Bool.and_self, State.onlyIf_true] at hexec
    refine ⟨_, hexec, ?_, fun _ _ => ⟨?_, fun hr => ?_⟩, fun hno => ?_, ?_, ?_⟩
    · rw [State.pairEvent, State.event_rd_base _ _ _ _ _ _ (by decide), State.rd_congr (State.setPair_regs ..), hhb]
    · rw [State.pairEvent, State.units_pair (State.event_units ..), State.setPair_pair, State.wr_pair]
    · rw [State.pairEvent, State.event_codes _ _ _ _ _ ((State.recovery_congr (State.rd_congr (State.setPair_regs ..) ..)).trans
        ((State.recovery_wr (by decide)).trans hr)), State.setPair_events, State.wr_events]
    · exact absurd hfault fun hf => hno.elim (Nat.not_le.mpr hf.1) fun ht => Bool.false_ne_true (hf.2.symm.trans ht)
    · rw [State.pairEvent, State.event_rd_base _ _ _ _ _ _ (by decide), State.rd_congr (State.setPair_regs ..), hrole]
    · rw [State.pairEvent, State.units_mem (State.event_units ..), State.setPair_mem, State.wr_mem]
  · have hno : (decide (s.now < s.pair.flitAt + s.hbTo) && !s.pair.hbFault) = false := by
      rw [Bool.eq_false_iff]
      intro ht
      rw [Bool.and_eq_true, decide_eq_true_iff, Bool.not_eq_true'] at ht
      exact hfault ht
    rw [hno, State.onlyIf_false] at hexec
    exact ⟨_, hexec, hhb, fun hlt hf => absurd ⟨hlt, hf⟩ hfault, fun _ => ⟨State.wr_pair .., State.wr_events ..⟩, hrole, State.wr_mem ..⟩

theorem pairTakeover_takesOver (h : s.hbLost = true) (hflit : s.pair.flitAt + s.hbTo ≤ s.now) (hauto : s.rdb F.PAIR_CFG.AUTO = true)
    (hrole : s.rd F.PAIR_STAT.ROLE = 1) : ∃ t, exec .pairTakeover s = .next t ∧ t.rd F.PAIR_STAT.ROLE = 0 ∧
      t.rd F.PAIR_STAT.STATE = 4 ∧ t.pair.releaseAt = some (s.now + s.rd F.PAIR_TMO.SEL_T) ∧ t.pair.sel = true ∧
      t.pair.recs = [] ∧ t.pair.handover = none ∧
      (s.recovery = false → t.events.map (·.code) = 0x0B03 :: s.events.map (·.code)) ∧ t.mem = s.mem := by
  have hexec : exec .pairTakeover s = .next s.pairTakeover := by
    rw [exec, execPairTakeover, s.live_run _ ha, h, decide_eq_true hflit, hauto, hrole]
    rfl
  obtain ⟨hrole', hstate, hpair, hmem⟩ := s.pairTakeover_shows
  exact ⟨_, hexec, hrole', hstate, by rw [hpair, PairSt.takesOver], by rw [hpair], by rw [hpair, PairSt.takesOver],
    by rw [hpair, PairSt.takesOver], s.pairTakeover_codes, hmem⟩

/-! ### CONTROL flits (R443) -/

theorem exec_controlFlitInterval (second : Bool) : exec (.controlFlitInterval second) s = .next
    (s.onlyIf (s.rdb F.PAIR_CFG.EN && s.lkState (if second then 15 else 14) == 3) fun s =>
      (s.setPair { s.pair with seqOut := (s.pair.seqOut + 1) % 256 }).linkQueue (if second then 15 else 14)
        ⟨3, 0, false, 0, padTo 59 (controlBytes 0 s.step32 s.now) ++ [BitVec.ofNat 8 s.pair.seqOut]⟩) := by
  rw [exec, execControlFlitInterval, s.live_run _ ha]
  rfl

theorem controlFlitInterval_idle (second : Bool)
    (h : s.rdb F.PAIR_CFG.EN = false ∨ s.lkState (if second then 15 else 14) ≠ 3) :
    exec (.controlFlitInterval second) s = .next s := by
  have hc : (s.rdb F.PAIR_CFG.EN && s.lkState (if second then 15 else 14) == 3) = false := by
    rcases h with h | h
    · rw [h, Bool.false_and]
    · rw [beq_eq_false_iff_ne.mpr h, Bool.and_false]
  rw [exec_controlFlitInterval ha, hc, State.onlyIf_false]

theorem controlFlitInterval_sends (second : Bool) (hen : s.rdb F.PAIR_CFG.EN = true)
    (hup : s.lkState (if second then 15 else 14) = 3) : ∃ t, exec (.controlFlitInterval second) s = .next t ∧
      (t.link (if second then 15 else 14)).txq = (s.link (if second then 15 else 14)).txq ++ [⟨3, 0, false, 0,
        padTo 59 (controlBytes 0 s.step32 s.now) ++ [BitVec.ofNat 8 s.pair.seqOut]⟩] ∧
      t.pair = { s.pair with seqOut := (s.pair.seqOut + 1) % 256 } ∧
      (∀ j, j ≠ (if second then 15 else 14) → t.link j = s.link j) ∧
      t.regs = s.regs ∧ t.mem = s.mem ∧ t.host = s.host ∧ t.events = s.events := by
  have hexec := exec_controlFlitInterval ha second
  rw [hen, hup, beq_self_eq_true, Bool.and_self, State.onlyIf_true] at hexec
  have hlink (x : PairSt) (j : Nat) : (s.setPair x).link j = s.link j := State.link_congr (State.setPair_lnk ..) j
  refine ⟨_, hexec, ?_, ?_, fun j hj => ?_, ?_, ?_, ?_, ?_⟩
  · rw [State.linkQueue, State.link_setLink_same, hlink]
  · rw [State.linkQueue, State.setLink, State.setLnk_pair, State.setPair_pair]
  · rw [State.linkQueue, State.link_setLink, if_neg hj, hlink]
  · rw [State.linkQueue, State.setLink_regs, State.setPair_regs]
  · rw [State.linkQueue, State.setLink, State.setLnk_mem, State.setPair_mem]
  · rw [State.linkQueue, State.setLink, State.setLnk_host, State.setPair_host]
  · rw [State.linkQueue, State.setLink, State.setLnk_events, State.setPair_events]

end

/-! ### PAIR_FAILOVER and PAIR_JOIN (R448, R451, R452) -/

section
variable {s : State} {ref : CmdRef}

theorem State.accept_pair (op : Nat) : (s.accept ref op).pair = s.pair := State.units_pair (s.accept_units ..)

theorem State.accept_pairRegs (op : Nat) : (s.accept ref op).rdb F.PAIR_CFG.EN = s.rdb F.PAIR_CFG.EN ∧
    (s.accept ref op).rd F.PAIR_STAT.ROLE = s.rd F.PAIR_STAT.ROLE ∧
    (s.accept ref op).rdb F.PAIR_STAT.PARTNER_HB = s.rdb F.PAIR_STAT.PARTNER_HB := by
  have hrd {f : Field} (h : 0x40000 ≤ f.off 0 0) : (s.accept ref op).rd f = s.rd f := s.accept_rd _ _ h
  unfold State.rdb
  rw [hrd (by decide), hrd (f := F.PAIR_STAT.ROLE) (by decide), hrd (f := F.PAIR_STAT.PARTNER_HB) (by decide)]
  exact ⟨rfl, rfl, rfl⟩

/-- The machine in which a failover is under way. -/
def State.failing (s : State) (ref : CmdRef) (primary : Bool) : State :=
  s.setPair { s.pair with failover := some ref, yielding := primary }

section
variable (ht : s.takes ref 0x0B01)
include ht

theorem exec_pairFailover : exec (.pairFailover ref) s = .next
    (let u := s.accept ref 0x0B01
     let primary := s.rd F.PAIR_STAT.ROLE == 0
     if !s.rdb F.PAIR_CFG.EN || (primary && !s.rdb F.PAIR_STAT.PARTNER_HB) then u.complete ref stRefused
     else if s.pair.failover.isSome then u.complete ref stBusy
     else if primary then u.failing ref primary
     else (((u.failing ref primary).pairOut (.control 2 (u.failing ref primary).step32 (u.failing ref primary).now)).pastPoint
      ref).pairTakeover) := by
  obtain ⟨hen, hrole, hhb⟩ := s.accept_pairRegs (ref := ref) 0x0B01
  rw [exec, execPairFailover, s.command_run _ _ _ ht]
  dsimp only
  rw [hen, hrole, hhb, State.accept_pair, State.failing, State.accept_pair]

theorem pairFailover_noPair (h : s.rdb F.PAIR_CFG.EN = false) :
    exec (.pairFailover ref) s = .next ((s.accept ref 0x0B01).complete ref stRefused) := by
  rw [exec_pairFailover ht, h]
  rfl

theorem pairFailover_noPartner (hrole : s.rd F.PAIR_STAT.ROLE = 0) (h : s.rdb F.PAIR_STAT.PARTNER_HB = false) :
    exec (.pairFailover ref) s = .next ((s.accept ref 0x0B01).complete ref stRefused) := by
  have hc : (!s.rdb F.PAIR_CFG.EN || (s.rd F.PAIR_STAT.ROLE == 0 && !s.rdb F.PAIR_STAT.PARTNER_HB)) = true := by
    rw [hrole, h]
    exact Bool.or_true _
  rw [exec_pairFailover ht]
  dsimp only
  rw [if_pos hc]

variable (hen : s.rdb F.PAIR_CFG.EN = true) (h : s.rd F.PAIR_STAT.ROLE ≠ 0 ∨ s.rdb F.PAIR_STAT.PARTNER_HB = true)

include hen h in
omit ht in
/-- What a failover needs: a pair, and of the primary its partner. -/
theorem failover_allowed : ¬ (!s.rdb F.PAIR_CFG.EN || (s.rd F.PAIR_STAT.ROLE == 0 && !s.rdb F.PAIR_STAT.PARTNER_HB)) = true := by
  rw [hen, Bool.not_true, Bool.false_or, Bool.and_eq_true, beq_iff_eq, Bool.not_eq_true']
  exact fun hno => h.elim (fun hr => hr hno.1) fun hp => Bool.false_ne_true (hno.2.symm.trans hp)

include hen h in
theorem pairFailover_busy (hb : s.pair.failover.isSome = true) :
    exec (.pairFailover ref) s = .next ((s.accept ref 0x0B01).complete ref stBusy) := by
  rw [exec_pairFailover ht]
  dsimp only
  rw [if_neg (failover_allowed hen h), if_pos hb]

include hen in
theorem pairFailover_primary (hb : s.pair.failover = none) (hrole : s.rd F.PAIR_STAT.ROLE = 0)
    (hp : s.rdb F.PAIR_STAT.PARTNER_HB = true) : ∃ t, exec (.pairFailover ref) s = .next t ∧
      t.pair = { s.pair with failover := some ref, yielding := true } ∧ t.rd F.PAIR_STAT.ROLE = 0 ∧ t.mem = s.mem ∧
      t.events = s.events := by
  have hexec := exec_pairFailover ht
  dsimp only at hexec
  rw [if_neg (failover_allowed hen (.inr hp)), hb, hrole, if_neg (by decide), if_pos (by decide)] at hexec
  refine ⟨_, hexec, ?_, ?_, ?_, ?_⟩
  · rw [State.failing, State.setPair_pair, State.accept_pair]
    rfl
  · rw [State.failing, State.rd_congr (State.setPair_regs ..), (s.accept_pairRegs _).2.1, hrole]
  · rw [State.failing, State.setPair_mem, State.accept_mem]
  · rw [State.failing, State.setPair_events, State.accept_events]

include hen in
theorem pairFailover_standby (hb : s.pair.failover = none) (hrole : s.rd F.PAIR_STAT.ROLE = 1) :
    ∃ t, exec (.pairFailover ref) s = .next t ∧ t.rd F.PAIR_STAT.ROLE = 0 ∧
      t.pair.failover = some ref ∧ t.pair.out = s.pair.out ++ [.control 2 s.step32 s.now] ∧ t.pair.sel = true ∧
      t.pair.releaseAt = some (s.now + s.rd F.PAIR_TMO.SEL_T) ∧ t.mem = s.mem := by
  have hne : s.rd F.PAIR_STAT.ROLE ≠ 0 := by
    rw [hrole]
    decide
  have hexec := exec_pairFailover ht
  dsimp only at hexec
  rw [if_neg (failover_allowed hen (.inl hne)), hb, hrole, if_neg (by decide), if_neg (by decide)] at hexec
  obtain ⟨hrole', -, hpair, hmem⟩ := State.pairTakeover_shows ((((s.accept ref 0x0B01).failing ref (1 == 0)).pairOut
    (.control 2 ((s.accept ref 0x0B01).failing ref (1 == 0)).step32 ((s.accept ref 0x0B01).failing ref (1 == 0)).now)).pastPoint ref)
  have hsel : ((((s.accept ref 0x0B01).failing ref (1 == 0)).pairOut (.control 2 ((s.accept ref 0x0B01).failing ref (1 == 0)).step32
      ((s.accept ref 0x0B01).failing ref (1 == 0)).now)).pastPoint ref).rd F.PAIR_TMO.SEL_T = s.rd F.PAIR_TMO.SEL_T := by
    rw [State.pastPoint, State.rd_congr (State.setHost_regs ..), State.pairOut, State.rd_congr (State.setPair_regs ..), State.failing,
      State.rd_congr (State.setPair_regs ..), s.accept_rd _ _ (by decide)]
  have hunits : (s.accept ref 0x0B01).units = s.units := s.accept_units ..
  have hstep : ((s.accept ref 0x0B01).failing ref (1 == 0)).step32 = s.step32 := by
    rw [State.step32, State.failing, State.setPair_fab, State.units_fab hunits, State.step32]
  have hnow : ((s.accept ref 0x0B01).failing ref (1 == 0)).now = s.now :=
    State.now_congr (by rw [State.failing, State.setPair_tb, State.units_tb hunits])
  have hnow' (x : PairOut) : ((((s.accept ref 0x0B01).failing ref (1 == 0)).pairOut x).pastPoint ref).now = s.now :=
    (State.now_congr (by rw [State.pastPoint, State.setHost_tb, State.pairOut, State.setPair_tb])).trans hnow
  have hbefore (x : PairOut) : ((((s.accept ref 0x0B01).failing ref (1 == 0)).pairOut x).pastPoint ref).pair =
      { s.pair with failover := some ref, yielding := false, out := s.pair.out ++ [x] } := by
    rw [State.pastPoint, State.setHost_pair, State.pairOut, State.setPair_pair, State.failing, State.setPair_pair, State.accept_pair]
    rfl
  rw [hsel, hnow', hbefore, hstep, hnow] at hpair
  refine ⟨_, hexec, hrole', ?_, ?_, ?_, ?_, ?_⟩
  iterate 4
    · rw [hstep, hnow, hpair, PairSt.takesOver]
  · rw [hmem, State.pastPoint, State.setHost_mem, State.pairOut, State.setPair_mem, State.failing, State.setPair_mem, State.accept_mem]

end

section
variable (ht : s.takes ref 0x0B02)
include ht

theorem exec_pairJoin (same : Bool) : exec (.pairJoin ref same) s = .next
    (let u := s.accept ref 0x0B02
     if !s.rdb F.PAIR_CFG.EN || s.rd F.PAIR_STAT.ROLE != 0 || !s.rdb F.PAIR_STAT.PARTNER_HB || !same then u.complete ref stRefused
     else if s.pair.join.isSome then u.complete ref stBusy
     else u.setPair { s.pair with join := some ref, joinStep := none }) := by
  obtain ⟨hen, hrole, hhb⟩ := s.accept_pairRegs (ref := ref) 0x0B02
  rw [exec, execPairJoin, s.command_run _ _ _ ht, hen, hrole, hhb, State.accept_pair]

theorem pairJoin_refused (same : Bool) (h : s.rdb F.PAIR_CFG.EN = false ∨ s.rd F.PAIR_STAT.ROLE ≠ 0 ∨
    s.rdb F.PAIR_STAT.PARTNER_HB = false ∨ same = false) :
    exec (.pairJoin ref same) s = .next ((s.accept ref 0x0B02).complete ref stRefused) := by
  have hc : (!s.rdb F.PAIR_CFG.EN || s.rd F.PAIR_STAT.ROLE != 0 || !s.rdb F.PAIR_STAT.PARTNER_HB || !same) = true := by
    rw [Bool.or_eq_true, Bool.or_eq_true, Bool.or_eq_true, Bool.not_eq_true', bne_iff_ne, Bool.not_eq_true', Bool.not_eq_true']
    tauto
  rw [exec_pairJoin ht]
  dsimp only
  rw [if_pos hc]

theorem exec_pairJoin_allowed (hen : s.rdb F.PAIR_CFG.EN = true) (hrole : s.rd F.PAIR_STAT.ROLE = 0)
    (hp : s.rdb F.PAIR_STAT.PARTNER_HB = true) {same : Bool} (hs : same = true) : exec (.pairJoin ref same) s = .next
    (if s.pair.join.isSome then (s.accept ref 0x0B02).complete ref stBusy
     else (s.accept ref 0x0B02).setPair { s.pair with join := some ref, joinStep := none }) := by
  rw [exec_pairJoin ht, hen, hrole, hp, hs]
  rfl

theorem pairJoin_follows (hen : s.rdb F.PAIR_CFG.EN = true) (hrole : s.rd F.PAIR_STAT.ROLE = 0)
    (hp : s.rdb F.PAIR_STAT.PARTNER_HB = true) {same : Bool} (hs : same = true) :
    (s.pair.join.isSome = true → exec (.pairJoin ref same) s = .next ((s.accept ref 0x0B02).complete ref stBusy)) ∧
    (s.pair.join = none → ∃ t, exec (.pairJoin ref same) s = .next t ∧
      t.pair = { s.pair with join := some ref, joinStep := none } ∧ t.mem = s.mem ∧ t.events = s.events) := by
  have hexec := exec_pairJoin_allowed ht hen hrole hp hs
  refine ⟨fun hj => by rw [hexec, if_pos hj], fun hj => ?_⟩
  rw [hj, if_neg (by decide)] at hexec
  exact ⟨_, hexec, State.setPair_pair .., (State.setPair_mem ..).trans (State.accept_mem ..),
    (State.setPair_events ..).trans (State.accept_events ..)⟩

end

end

theorem heartbeatsKeepThePair_holds : heartbeatsKeepThePair :=
  ⟨heartbeatToggle_toggles, fun _ ha => pairHbInEdge_shows ha, fun _ ha => ⟨heartbeat_present ha, heartbeatTimeout_shows ha⟩,
    fun _ ha h hflit hauto hrole => pairTakeover_takesOver ha h hflit hauto hrole,
    fun _ second ha => ⟨controlFlitInterval_idle ha second, controlFlitInterval_sends ha second⟩⟩

theorem pairCommandsChangeRoles_holds : pairCommandsChangeRoles :=
  ⟨fun _ _ ht => ⟨pairFailover_noPair ht, pairFailover_noPartner ht, pairFailover_busy ht,
      fun hen hb => ⟨pairFailover_primary ht hen hb, pairFailover_standby ht hen hb⟩⟩,
    fun _ _ same ht => ⟨pairJoin_refused ht same, fun hen hrole hp hs => pairJoin_follows ht hen hrole hp hs⟩⟩

end Sys2Proof.Machine
open Sys2Proof Sys2Proof.Machine

/-- Settles O58: what drives the outputs, and the completions, leave the pair's own registers and state alone. -/
theorem pairsKeepAliveAndChangeRoles : Obligations.PairsKeepAliveAndChangeRoles :=
  ⟨heartbeatsKeepThePair_holds, pairCommandsChangeRoles_holds⟩
end

section
/-! PROOF. Fuses and flash operations (R455, R456, R459, R460, R467). -/

namespace Sys2Proof.Machine

/-! ### Bits -/

theorem bit_eq_testBit (n i : Nat) : bit n i = n.testBit i := by
  rw [Nat.testBit_eq_decide_div_mod_eq]
  rfl

theorem bit_or (m n i : Nat) : bit (m ||| n) i = (bit m i || bit n i) := by
  rw [bit_eq_testBit, bit_eq_testBit, bit_eq_testBit, Nat.testBit_or]

section
variable {s : State} {ref : CmdRef}

theorem State.accept_sec (op : Nat) : (s.accept ref op).sec = s.sec := State.units_sec (s.accept_units ..)

/-! ### SEC_FUSE and SEC_SVN_ADVANCE (R456, R459) -/

/-- A fuse operation that begins changes the operation under way alone. -/
theorem State.fuseBegin_shows (s : State) (ref : CmdRef) (field : Nat) (v : List Byte) :
    (s.fuseBegin ref field v).sec = { s.sec with fuseOp := some ⟨some ref, field, v⟩ } ∧ (s.fuseBegin ref field v).mem = s.mem ∧
    (s.fuseBegin ref field v).events = s.events ∧ (s.fuseBegin ref field v).regs = s.regs := by
  rw [State.fuseBegin, State.pastPoint, State.setHost_sec, State.setHost_mem, State.setHost_events, State.setHost_regs,
    State.setSec_sec, State.setSec_mem, State.setSec_events, State.setSec_regs]
  exact ⟨rfl, rfl, rfl, rfl⟩

/-- After a command is taken, beginning a fuse operation leaves the SEC_ registers as they were. -/
theorem State.fuseBegin_rd (op field : Nat) (v : List Byte) {f : Field} (h : 0x40000 ≤ f.off 0 0) :
    ((s.accept ref op).fuseBegin ref field v).rd f = s.rd f := by
  rw [State.rd_congr ((s.accept ref op).fuseBegin_shows ref field v).2.2.2, s.accept_rd _ _ h]

theorem State.fuseBegin_begins (op field : Nat) (v : List Byte) :
    ((s.accept ref op).fuseBegin ref field v).sec = { s.sec with fuseOp := some ⟨some ref, field, v⟩ } ∧
    ((s.accept ref op).fuseBegin ref field v).mem = s.mem ∧ ((s.accept ref op).fuseBegin ref field v).events = s.events := by
  obtain ⟨hsec, hmem, hev, -⟩ := (s.accept ref op).fuseBegin_shows ref field v
  rw [hsec, hmem, hev, s.accept_sec, s.accept_mem, s.accept_events]
  exact ⟨rfl, rfl, rfl⟩

section
variable (ht : s.takes ref 0x0C04) {field : BitVec 8} {v : BitVec 384}
include ht

theorem exec_secFuse : exec (.secFuse ref field v) s = .next
    (let u := s.accept ref 0x0C04
     if field.toNat < 1 ∨ 7 < field.toNat ∨ 2 ^ fuseWidth field.toNat ≤ v.toNat then u.complete ref stRange
     else if !s.rdb F.SEC_CTRL.FUSE_EN then u.complete ref stRefused
     else if s.sec.fuseOp.isSome then u.complete ref stBusy
     else if field.toNat ≤ 4 ∧ bit (s.rd F.SEC_FUSE_STAT.CKH_PROG) (field.toNat - 1) = true then u.complete ref stRefused
     else u.fuseBegin ref field.toNat (leBytes 48 v.toNat)) := by
  rw [exec, execSecFuse, s.command_run _ _ _ ht, State.rdb, s.accept_rd _ _ (by decide), s.accept_rd _ _ (by decide), s.accept_sec]
  rfl

theorem secFuse_range (h : field.toNat < 1 ∨ 7 < field.toNat ∨ 2 ^ fuseWidth field.toNat ≤ v.toNat) :
    exec (.secFuse ref field v) s = .next ((s.accept ref 0x0C04).complete ref stRange) := by
  rw [exec_secFuse ht]
  dsimp only
  rw [if_pos h]

theorem secFuse_follows (h1 : 1 ≤ field.toNat) (h7 : field.toNat ≤ 7) (hv : v.toNat < 2 ^ fuseWidth field.toNat) :
    (s.rdb F.SEC_CTRL.FUSE_EN = false → exec (.secFuse ref field v) s = .next ((s.accept ref 0x0C04).complete ref stRefused)) ∧
    (s.rdb F.SEC_CTRL.FUSE_EN = true → s.sec.fuseOp.isSome = true →
      exec (.secFuse ref field v) s = .next ((s.accept ref 0x0C04).complete ref stBusy)) ∧
    (s.rdb F.SEC_CTRL.FUSE_EN = true → s.sec.fuseOp = none →
      (field.toNat ≤ 4 → bit (s.rd F.SEC_FUSE_STAT.CKH_PROG) (field.toNat - 1) = true →
        exec (.secFuse ref field v) s = .next ((s.accept ref 0x0C04).complete ref stRefused)) ∧
      (4 < field.toNat ∨ bit (s.rd F.SEC_FUSE_STAT.CKH_PROG) (field.toNat - 1) = false →
        ∃ t, exec (.secFuse ref field v) s = .next t ∧
          t.sec = { s.sec with fuseOp := some ⟨some ref, field.toNat, leBytes 48 v.toNat⟩ } ∧ t.mem = s.mem ∧
          t.events = s.events ∧ t.rd F.SEC_FUSE_STAT.CKH_PROG = s.rd F.SEC_FUSE_STAT.CKH_PROG)) := by
  have hrange : ¬ (field.toNat < 1 ∨ 7 < field.toNat ∨ 2 ^ fuseWidth field.toNat ≤ v.toNat) := by omega
  have hexec := exec_secFuse ht (field := field) (v := v)
  dsimp only at hexec
  rw [if_neg hrange] at hexec
  refine ⟨fun he => ?_, fun he hb => ?_, fun he hb => ⟨fun h4 hp => ?_, fun hp => ?_⟩⟩
  · rw [hexec, he, Bool.not_false, if_pos rfl]
  · rw [hexec, he, Bool.not_true, if_neg Bool.false_ne_true, if_pos hb]
  · rw [hexec, he, Bool.not_true, if_neg Bool.false_ne_true, hb, Option.isSome_none, if_neg Bool.false_ne_true, if_pos ⟨h4, hp⟩]
  · have hblown : ¬ (field.toNat ≤ 4 ∧ bit (s.rd F.SEC_FUSE_STAT.CKH_PROG) (field.toNat - 1) = true) := fun hno =>
      hp.elim (Nat.not_lt.mpr hno.1) fun hf => Bool.false_ne_true (hf.symm.trans hno.2)
    rw [he, Bool.not_true, if_neg Bool.false_ne_true, hb, Option.isSome_none, if_neg Bool.false_ne_true, if_neg hblown] at hexec
    obtain ⟨hsec, hmem, hev⟩ := s.fuseBegin_begins (ref := ref) 0x0C04 field.toNat (leBytes 48 v.toNat)
    exact ⟨_, hexec, hsec, hmem, hev, s.fuseBegin_rd _ _ _ (by decide)⟩

end

section
variable (ht : s.takes ref 0x0C03) (hop : s.sec.fuseOp = none)
include ht hop

theorem exec_secSvnAdvance : exec (.secSvnAdvance ref) s = .next
    (if s.rd F.SEC_BOOT.FW_SVN ≤ s.rd F.SEC_BOOT.SVN_CTR then
      (s.accept ref 0x0C03).complete ref stDone (s.rd F.SEC_BOOT.SVN_CTR)
     else (s.accept ref 0x0C03).fuseBegin ref 8 [BitVec.ofNat 8 (s.rd F.SEC_BOOT.FW_SVN)]) := by
  rw [exec, execSecSvnAdvance, s.command_run _ _ _ ht, s.accept_rd _ _ (by decide), s.accept_rd _ _ (by decide), s.accept_sec, hop]
  rfl

theorem secSvnAdvance_done (h : s.rd F.SEC_BOOT.FW_SVN ≤ s.rd F.SEC_BOOT.SVN_CTR) : exec (.secSvnAdvance ref) s = .next
    ((s.accept ref 0x0C03).complete ref stDone (s.rd F.SEC_BOOT.SVN_CTR)) := by
  rw [exec_secSvnAdvance ht hop, if_pos h]

theorem secSvnAdvance_begins (h : s.rd F.SEC_BOOT.SVN_CTR < s.rd F.SEC_BOOT.FW_SVN) : ∃ t, exec (.secSvnAdvance ref) s = .next t ∧
    t.sec = { s.sec with fuseOp := some ⟨some ref, 8, [BitVec.ofNat 8 (s.rd F.SEC_BOOT.FW_SVN)]⟩ } ∧
    t.rd F.SEC_BOOT.SVN_CTR = s.rd F.SEC_BOOT.SVN_CTR ∧ t.mem = s.mem ∧ t.events = s.events := by
  have hexec := exec_secSvnAdvance ht hop
  rw [if_neg (Nat.not_le.mpr h)] at hexec
  obtain ⟨hsec, hmem, hev⟩ := s.fuseBegin_begins (ref := ref) 0x0C03 8 [BitVec.ofNat 8 (s.rd F.SEC_BOOT.FW_SVN)]
  exact ⟨_, hexec, hsec, s.fuseBegin_rd _ _ _ (by decide), hmem, hev⟩

end

/-! ### FUSE_PROGRAMMING_COMPLETE (R456, R459) -/

/-- What is past a blown fuse but FUSE_BLOWN and the completion. -/
structure FuseBlind {α : Type} (view : State → α) : Prop where
  host : HostBlind view
  event : ∀ (t : State) code sev source pay, view (t.event code sev source pay) = view t
  burn : ∀ t, view (State.burn t) = view t

theorem fuseBlind_rd {f : Field} (h : 0x40000 ≤ f.base) : FuseBlind fun s => s.rd f where
  host := hostBlind_rd (Nat.le_trans h Field.base_le_off)
  event t _ _ _ _ := t.event_rd_base _ _ _ _ _ h
  burn _ := State.rd_congr (State.burn_regs ..) ..

theorem fuseBlind_sec : FuseBlind State.sec :=
  ⟨⟨fun _ _ _ _ => rfl, fun _ _ => rfl, fun _ _ => rfl⟩, fun _ _ _ _ _ => State.event_sec .., fun _ => State.burn_sec ..⟩

theorem fuseBlind_mem : FuseBlind State.mem :=
  ⟨⟨fun _ _ _ _ => rfl, fun _ _ => rfl, fun _ _ => rfl⟩, fun _ _ _ _ _ => State.units_mem (State.event_units ..),
    fun _ => State.burn_mem ..⟩

theorem FuseBlind.fuseBlown {α : Type} {view : State → α} (hb : FuseBlind view) (s : State) (field : Nat) :
    view (s.fuseBlown field) = view s := by
  unfold State.fuseBlown
  split
  · exact hb.event ..
  · exact (hb.burn ..).trans (hb.event ..)

/-- The machine whose fuse operation o has set its bits. -/
def State.blown (s : State) (o : FuseOp) : State := (s.setSec { s.sec with fuseOp := none }).blowFuse o.field o.value

theorem fuseProgrammingComplete_idle (ha : s.alive = true) (h : s.sec.fuseOp = none) :
    exec .fuseProgrammingComplete s = .next s := by
  rw [exec, execFuseProgrammingComplete, s.live_run _ ha, h]

/-- The operation that ends leaves what its blown fuses show. -/
theorem exec_fuseProgrammingComplete (ha : s.alive = true) {o : FuseOp} (h : s.sec.fuseOp = some o) :
    ∃ t, exec .fuseProgrammingComplete s = .next t ∧
      ∀ {α : Type} {view : State → α}, FuseBlind view → view t = view (s.blown o) := by
  refine ⟨_, by rw [exec, execFuseProgrammingComplete, s.live_run _ ha, h], fun {α view} hb => ?_⟩
  dsimp only
  refine (hb.host.completeOpt ..).trans ?_
  split
  · rfl
  · exact hb.fuseBlown ..

theorem fuseProgrammingComplete_svn (ha : s.alive = true) (r : CmdRef) (v : Byte) (h : s.sec.fuseOp = some ⟨some r, 8, [v]⟩) :
    ∃ t, exec .fuseProgrammingComplete s = .next t ∧ t.sec.fuseOp = none ∧ t.rd F.SEC_BOOT.SVN_CTR = v.toNat ∧
      t.rd F.SEC_FUSE_STAT.CKH_REVOKE = s.rd F.SEC_FUSE_STAT.CKH_REVOKE ∧ t.sec.ckh = s.sec.ckh ∧ t.mem = s.mem := by
  obtain ⟨t, hexec, hview⟩ := exec_fuseProgrammingComplete ha h
  have hblown : s.blown ⟨some r, 8, [v]⟩ = (s.setSec { s.sec with fuseOp := none }).wr F.SEC_BOOT.SVN_CTR v.toNat := by
    rw [State.blown, State.blowFuse]
    rfl
  have hsec : t.sec = { s.sec with fuseOp := none } := by
    rw [hview fuseBlind_sec, hblown, State.wr_sec, State.setSec_sec]
  refine ⟨t, hexec, by rw [hsec], ?_, ?_, by rw [hsec], ?_⟩
  · rw [hview (fuseBlind_rd (f := F.SEC_BOOT.SVN_CTR) (by decide)), hblown]
    exact State.rd_wr_self _ ⟨by decide, v.isLt⟩
  · rw [hview (fuseBlind_rd (f := F.SEC_FUSE_STAT.CKH_REVOKE) (by decide)), hblown, State.rd_wr_other _ _ _ _ _ _ _ _ (by decide),
      State.rd_congr (State.setSec_regs ..)]
  · rw [hview fuseBlind_mem, hblown, State.wr_mem, State.setSec_mem]

theorem fuseProgrammingComplete_revoke (ha : s.alive = true) (r : CmdRef) (v : List Byte)
    (h : s.sec.fuseOp = some ⟨some r, 5, v⟩) (hv : leNat v < 16) :
    ∃ t, exec .fuseProgrammingComplete s = .next t ∧ t.sec.fuseOp = none ∧
      (∀ i, bit (t.rd F.SEC_FUSE_STAT.CKH_REVOKE) i = (bit (s.rd F.SEC_FUSE_STAT.CKH_REVOKE) i || bit (leNat v) i)) ∧
      t.rd F.SEC_FUSE_STAT.CKH_PROG = s.rd F.SEC_FUSE_STAT.CKH_PROG ∧ t.sec.ckh = s.sec.ckh ∧ t.mem = s.mem := by
  obtain ⟨t, hexec, hview⟩ := exec_fuseProgrammingComplete ha h
  have hblown : s.blown ⟨some r, 5, v⟩ = (s.setSec { s.sec with fuseOp := none }).wr F.SEC_FUSE_STAT.CKH_REVOKE
      (s.rd F.SEC_FUSE_STAT.CKH_REVOKE ||| leNat v) := by
    rw [State.blown, State.blowFuse]
    dsimp only
    rw [State.fuseOr, State.rd_congr (State.setSec_regs ..)]
  have hsec : t.sec = { s.sec with fuseOp := none } := by
    rw [hview fuseBlind_sec, hblown, State.wr_sec, State.setSec_sec]
  have hlt : s.rd F.SEC_FUSE_STAT.CKH_REVOKE ||| leNat v < 2 ^ 4 := Nat.or_lt_two_pow (bits_lt ..) hv
  refine ⟨t, hexec, by rw [hsec], fun i => ?_, ?_, by rw [hsec], ?_⟩
  · rw [hview (fuseBlind_rd (f := F.SEC_FUSE_STAT.CKH_REVOKE) (by decide)), hblown, State.rd_wr_self _ ⟨by decide, hlt⟩, bit_or]
  · rw [hview (fuseBlind_rd (f := F.SEC_FUSE_STAT.CKH_PROG) (by decide)), hblown, State.rd_wr_bits _ (by decide),
      State.rd_congr (State.setSec_regs ..)]
  · rw [hview fuseBlind_mem, hblown, State.wr_mem, State.setSec_mem]

/-! ### SEC_FW_UPDATE and SEC_CERT_WRITE (R460, R467) -/

/-- A flash operation begins: it alone is new. -/
theorem State.flashBegin_shows (o : FlashOp) (op : Nat) :
    (((s.accept ref op).setFlashOp (some o)).pastPoint ref).sec.flashOp = some o ∧
    (((s.accept ref op).setFlashOp (some o)).pastPoint ref).mem = s.mem ∧
    (((s.accept ref op).setFlashOp (some o)).pastPoint ref).events = s.events := by
  rw [State.pastPoint, State.setHost_sec, State.setHost_mem, State.setHost_events, State.setFlashOp, State.setSec_sec,
    State.setSec_mem, State.setSec_events, s.accept_mem, s.accept_events]
  exact ⟨rfl, rfl, rfl⟩

theorem exec_secFwUpdate (ht : s.takes ref 0x0C02) (hup : s.portUp (s.cmdPort ref) = true) {part : BitVec 8} {addr : BitVec 64}
    {len : BitVec 32} (hlen : len.toNat = 128 + fieldAt (s.hostRead (s.cmdPort ref) addr.toNat len.toNat) 0x10 4 + 256) :
    exec (.secFwUpdate ref 0 part addr len) s = .next
      (let u := s.accept ref 0x0C02
       let img := s.hostRead (s.cmdPort ref) addr.toNat len.toNat
       if s.sec.flashOp.isSome then u.complete ref stBusy
       else if u.fwCheck (fun o n => slice img o n) ≠ 0 then
        (u.authFail 1 (slice img (len.toNat - 256) 256)).complete ref stAuthFailed
       else (u.setFlashOp (some ⟨some ref, 3, 0, len.toNat, img, fieldAt img 8 1, false, 0, 0⟩)).pastPoint ref) := by
  have himg : (s.accept ref 0x0C02).fwSource ref (decide ((0 : BitVec 8) = 1)) part.toNat addr.toNat len.toNat =
      s.hostRead (s.cmdPort ref) addr.toNat len.toNat := by
    rw [State.fwSource, if_neg (by decide), s.accept_cmdPort, State.hostRead_congr (s.accept_hostMem ..)]
  have hsrc : ¬ (0 : BitVec 8) = 1 := by decide
  have hrange {p : Prop} : ¬ (1 < (0 : BitVec 8).toNat ∨ ((0 : BitVec 8) = 1 ∧ p)) := fun h =>
    h.elim (by decide) fun h => hsrc h.1
  rw [exec, execSecFwUpdate, s.command_run _ _ _ ht]
  dsimp only
  rw [himg, if_neg (fun h => h.2 rfl), if_neg hrange, if_neg (fun h => hsrc h.1), s.accept_cmdPort, s.accept_portUp, hup,
    if_neg (by decide), if_neg (not_not_intro hlen), s.accept_sec]

theorem secFwUpdate_follows (ht : s.takes ref 0x0C02) (hup : s.portUp (s.cmdPort ref) = true) {part : BitVec 8}
    {addr : BitVec 64} {len : BitVec 32}
    (hlen : len.toNat = 128 + fieldAt (s.hostRead (s.cmdPort ref) addr.toNat len.toNat) 0x10 4 + 256) :
    (s.sec.flashOp.isSome = true →
      exec (.secFwUpdate ref 0 part addr len) s = .next ((s.accept ref 0x0C02).complete ref stBusy)) ∧
    (s.sec.flashOp = none → ∃ t, exec (.secFwUpdate ref 0 part addr len) s = .next t ∧
      ((s.accept ref 0x0C02).fwCheck (fun o n => slice (s.hostRead (s.cmdPort ref) addr.toNat len.toNat) o n) ≠ 0 →
        t = ((s.accept ref 0x0C02).authFail 1 (slice (s.hostRead (s.cmdPort ref) addr.toNat len.toNat) (len.toNat - 256)
          256)).complete ref stAuthFailed) ∧
      ((s.accept ref 0x0C02).fwCheck (fun o n => slice (s.hostRead (s.cmdPort ref) addr.toNat len.toNat) o n) = 0 →
        t.sec.flashOp = some ⟨some ref, 3, 0, len.toNat, s.hostRead (s.cmdPort ref) addr.toNat len.toNat,
          fieldAt (s.hostRead (s.cmdPort ref) addr.toNat len.toNat) 8 1, false, 0, 0⟩ ∧ t.mem = s.mem ∧ t.events = s.events)) := by
  have hexec := exec_secFwUpdate ht hup hlen (part := part)
  dsimp only at hexec
  refine ⟨fun hb => by rw [hexec, if_pos hb], fun hb => ?_⟩
  rw [hb, Option.isSome_none, if_neg Bool.false_ne_true] at hexec
  refine ⟨_, hexec, fun hbad => if_pos hbad, fun hok => ?_⟩
  rw [if_neg (not_not_intro hok)]
  exact s.flashBegin_shows _ _

theorem exec_secCertWrite (ht : s.takes ref 0x0C07) (hup : s.portUp (s.cmdPort ref) = true) {addr : BitVec 64} {len : BitVec 16}
    (h5 : 5 ≤ len.toNat) (hmax : len.toNat ≤ 4096)
    (hlen : fieldAt (s.hostRead (s.cmdPort ref) addr.toNat len.toNat) 0 4 = len.toNat - 4) :
    exec (.secCertWrite ref addr len) s = .next
      (let u := s.accept ref 0x0C07
       let d := s.hostRead (s.cmdPort ref) addr.toNat len.toNat
       if !holdsIdentity (d.drop 4) then u.complete ref stRefused
       else if s.sec.flashOp.isSome then u.complete ref stBusy
       else (u.setFlashOp (some ⟨some ref, 4, 0x00410000, len.toNat, d, 0, false, 0, 0⟩)).pastPoint ref) := by
  rw [exec, execSecCertWrite, s.command_run _ _ _ ht]
  dsimp only
  rw [s.accept_cmdPort, State.hostRead_congr (s.accept_hostMem ..), if_neg (by omega), s.accept_portUp, hup, if_neg (by decide),
    if_neg (not_not_intro hlen), s.accept_sec]

theorem secCertWrite_follows (ht : s.takes ref 0x0C07) (hup : s.portUp (s.cmdPort ref) = true) {addr : BitVec 64}
    {len : BitVec 16} (h5 : 5 ≤ len.toNat) (hmax : len.toNat ≤ 4096)
    (hlen : fieldAt (s.hostRead (s.cmdPort ref) addr.toNat len.toNat) 0 4 = len.toNat - 4) :
    ∃ t, exec (.secCertWrite ref addr len) s = .next t ∧
      (holdsIdentity ((s.hostRead (s.cmdPort ref) addr.toNat len.toNat).drop 4) = false →
        t = (s.accept ref 0x0C07).complete ref stRefused) ∧
      (holdsIdentity ((s.hostRead (s.cmdPort ref) addr.toNat len.toNat).drop 4) = true → s.sec.flashOp = none →
        t.sec.flashOp = some ⟨some ref, 4, 0x00410000, len.toNat, s.hostRead (s.cmdPort ref) addr.toNat len.toNat, 0, false, 0, 0⟩ ∧
        t.mem = s.mem ∧ t.events = s.events) := by
  refine ⟨_, exec_secCertWrite ht hup h5 hmax hlen, fun hid => ?_, fun hid hb => ?_⟩
  · dsimp only
    rw [hid, Bool.not_false, if_pos rfl]
  · dsimp only
    rw [hid, Bool.not_true, if_neg Bool.false_ne_true, hb, Option.isSome_none, if_neg Bool.false_ne_true]
    exact s.flashBegin_shows _ _

end

theorem fusesAndFlashAreWritten_holds : fusesAndFlashAreWritten :=
  ⟨fun _ _ _ _ ht => ⟨secFuse_range ht, secFuse_follows ht⟩,
    fun _ _ ht hop => ⟨secSvnAdvance_done ht hop, secSvnAdvance_begins ht hop⟩,
    fun _ ha => ⟨fuseProgrammingComplete_idle ha, fuseProgrammingComplete_svn ha, fuseProgrammingComplete_revoke ha⟩,
    fun _ _ _ _ _ ht hup hlen => secFwUpdate_follows ht hup hlen,
    fun _ _ _ _ ht h5 hmax hup hlen => secCertWrite_follows ht hup h5 hmax hlen⟩

end Sys2Proof.Machine
end

section
/-! PROOF. Attestation, secured cores and trace tokens (R465, R468, R469, R475). -/

namespace Sys2Proof.Machine

/-! ### Registers and the bytes of records -/

/-- A register as the field that it all is. -/
theorem State.rdReg_eq_rd (s : State) (o : Nat) : s.rdReg o = s.rd ⟨o, 0, 0, 31, 0⟩ := by
  have hoff : Field.off ⟨o, 0, 0, 31, 0⟩ 0 0 = o := by
    rw [Field.off_eq, Nat.mul_zero, Nat.add_zero]
  rw [State.rd, hoff]
  show s.rdReg o = s.rdReg o / 2 ^ 0 % 2 ^ 32
  rw [Nat.pow_zero, Nat.div_one, Nat.mod_eq_of_lt (s.rdReg_lt o)]

theorem State.accept_rd64 (s : State) (ref : CmdRef) (op : Nat) {f : Field}
    (h : f.off 0 0 + 4 < 0x20000 ∨ 0x40000 ≤ f.off 0 0) : (s.accept ref op).rd64 f = s.rd64 f := by
  have hreg (o : Nat) (ho : o < 0x20000 ∨ 0x40000 ≤ o) : (s.accept ref op).rdReg o = s.rdReg o := by
    have hlt : F.HST_RING_STAT.OUTSTANDING.off ref.ring.toNat 0 = 0x21014 + 32 * ref.ring.toNat := by
      rw [Field.off_eq, F.HST_RING_STAT.OUTSTANDING, Nat.mul_comm 0, Nat.mul_zero, Nat.add_zero]
    have hring := ref.ring.isLt
    rw [State.rdReg_eq_rd, s.accept_rd_other _ _ ?_, ← State.rdReg_eq_rd]
    rw [hlt, Field.off_eq]
    dsimp only
    omega
  rw [State.rd64, hreg _ (by omega), hreg _ (by omega), State.rd64]

theorem padTo_length (n : Nat) (l : List Byte) : (padTo n l).length = n := slice_length ..

/-- A field of the head of what is read of host memory is a field of all of it. -/
theorem fieldAt_hostRead (s : State) (p a : Nat) {i n k m : Nat} (hk : i + n ≤ k) (hm : k ≤ m) :
    fieldAt (slice (s.hostRead p a m) 0 k) i n = fieldAt (s.hostRead p a m) i n := by
  rw [State.slice_hostRead _ _ _ (by omega), fieldAt, State.slice_hostRead _ _ _ hk, fieldAt, State.slice_hostRead _ _ _ (by omega),
    Nat.add_zero]

/-! ### The report (R468, R469) -/

theorem State.gristMeas_length (s : State) : s.gristMeas.length = 48 := by
  unfold State.gristMeas
  split
  · simp only [List.length_flatMap, leBytes_length, List.map_const', List.sum_replicate, List.length_range, smul_eq_mul]
  · exact padTo_length ..

theorem State.attestReport_length (s : State) (sign : Bool) (nonce : List Byte) : (s.attestReport sign nonce).length = 1280 := by
  rw [State.attestReport, State.attestBody]
  simp only [List.length_append, leBytes_length, padTo_length, State.gristMeas_length, meas, List.length_flatMap, List.map_const',
    List.sum_replicate, List.length_range, smul_eq_mul]

section
variable {s : State} {ref : CmdRef}

section
variable (ht : s.takes ref 0x0C01) {sign part : BitVec 8} {addr : BitVec 64} {nonce : BitVec 384} (hs : sign.toNat ≤ 1)
include ht hs

theorem exec_secAttest : exec (.secAttest ref sign 0 part addr nonce) s = .next
    (let u := s.accept ref 0x0C01
     if s.portUp (s.cmdPort ref) then
      (u.burn.hostWrite (s.cmdPort ref) addr.toNat (u.attestReport (sign = 1) (leBytes 48 nonce.toNat))).complete ref stDone s.now
     else u.complete ref stIncomplete) := by
  have hdest : ¬ (0 : BitVec 8) = 1 := by decide
  have hrange {p : Prop} : ¬ (1 < sign.toNat ∨ 1 < (0 : BitVec 8).toNat ∨ ((0 : BitVec 8) = 1 ∧ p)) := fun h =>
    h.elim (Nat.not_lt.mpr hs) fun h => h.elim (by decide) fun h => hdest h.1
  rw [exec, execSecAttest, s.command_run _ _ _ ht]
  dsimp only
  rw [if_neg hrange, s.accept_cmdPort, s.accept_portUp, State.now_congr (State.units_tb (s.accept_units ..)), if_neg hdest]
  cases s.portUp (s.cmdPort ref)
  · rw [Bool.not_false, if_pos ⟨by decide, rfl⟩, if_neg Bool.false_ne_true]
  · rw [Bool.not_true, if_neg (fun h => Bool.false_ne_true h.2), if_pos rfl]

theorem secAttest_lost (hp : s.portUp (s.cmdPort ref) = false) : exec (.secAttest ref sign 0 part addr nonce) s = .next
    ((s.accept ref 0x0C01).complete ref stIncomplete) := by
  rw [exec_secAttest ht hs]
  dsimp only
  rw [if_neg (by rw [hp]; exact Bool.false_ne_true)]

theorem secAttest_writes (hp : s.portUp (s.cmdPort ref) = true) : ∃ t v : State,
    exec (.secAttest ref sign 0 part addr nonce) s = .next t ∧ t = v.complete ref stDone s.now ∧
      v.hostRead (s.cmdPort ref) addr.toNat 1280 = (s.accept ref 0x0C01).attestReport (sign = 1) (leBytes 48 nonce.toNat) ∧
      v.regs = (s.accept ref 0x0C01).regs ∧ v.mem = s.mem ∧ v.events = s.events := by
  have hexec := exec_secAttest ht hs (part := part) (addr := addr) (nonce := nonce)
  dsimp only at hexec
  rw [if_pos hp] at hexec
  have hlen := (s.accept ref 0x0C01).attestReport_length (sign = 1) (leBytes 48 nonce.toNat)
  refine ⟨_, _, hexec, rfl, ?_, ?_, ?_, ?_⟩
  · have hread := (s.accept ref 0x0C01).burn.hostRead_hostWrite (s.cmdPort ref) addr.toNat
      (l := (s.accept ref 0x0C01).attestReport (sign = 1) (leBytes 48 nonce.toNat)) (by rw [hlen]; decide)
    rwa [hlen] at hread
  · rw [State.hostWrite_regs, State.burn_regs]
  · rw [State.units_mem (State.hostWrite_units ..), State.burn_mem, s.accept_mem]
  · rw [State.hostWrite_events, State.burn_events, s.accept_events]

end

/-! ### Secured cores (R465) -/

/-- A register of one core's own words. -/
abbrev Field.ofCore (f : Field) : Prop := 0xc0000 ≤ f.base ∧ f.base < 0xc1000 ∧ f.s1 = 4096 ∧ f.s2 = 0

/-- A write to one core's words leaves those of another alone. -/
theorem State.rd_wr_otherCore (s : State) {f g : Field} {v i k : Nat} (hf : f.ofCore) (hg : g.ofCore) (h : k ≠ i) :
    (s.wr f v i).rd g k = s.rd g k := by
  obtain ⟨hlo, hhi, hs1, hs2⟩ := hf
  obtain ⟨hlo', hhi', hs1', hs2'⟩ := hg
  refine s.rd_wr_other _ _ _ _ _ _ _ ?_
  rw [Field.off_eq, Field.off_eq, hs1, hs2, hs1', hs2']
  omega

theorem State.showCore_rd_otherCore (s : State) {g : Field} {n k : Nat} (c : CoreSt) (hg : g.ofCore) (h : k ≠ n) :
    (s.showCore n c).rd g k = s.rd g k := by
  rw [State.showCore, State.rd_wr_otherCore _ (by decide) hg h, State.rd_wr_otherCore _ (by decide) hg h,
    State.rd_wr_otherCore _ (by decide) hg h, State.rd_wr_otherCore _ (by decide) hg h, State.rd_wr_otherCore _ (by decide) hg h,
    State.rd_wr_otherCore _ (by decide) hg h, State.rd_wr_otherCore _ (by decide) hg h]

theorem State.setCore_rd_otherCore (s : State) {g : Field} {n k : Nat} (c : CoreSt) (hg : g.ofCore) (h : k ≠ n) :
    (s.setCore n c).rd g k = s.rd g k := by
  rw [State.setCore, State.showCore_rd_otherCore _ _ hg h, State.rd_congr (State.setCores_regs ..)]

/-- A core that is set shows it in the low half of SC_STATUS and in SC_PC. -/
theorem State.setCore_valid (s : State) (n : Nat) (c : CoreSt) :
    (s.setCore n c).rd F.SC_STATUS.VALID n = s.rd F.SC_STATUS.VALID n := by
  rw [State.setCore, State.showCore, State.rd_wr_word _ (by decide), State.rd_wr_bits _ (by decide), State.rd_wr_bits _ (by decide),
    State.rd_wr_bits _ (by decide), State.rd_wr_bits _ (by decide), State.rd_wr_bits _ (by decide), State.rd_wr_bits _ (by decide),
    State.rd_congr (State.setCores_regs ..)]

theorem State.core_congr {s t : State} (h : t.cores = s.cores) (n : Nat) : t.core n = s.core n := by rw [State.core, h, State.core]

theorem State.showCore_cores (s : State) (n : Nat) (c : CoreSt) : (s.showCore n c).cores = s.cores := by
  rw [State.showCore, State.wr_cores, State.wr_cores, State.wr_cores, State.wr_cores, State.wr_cores, State.wr_cores, State.wr_cores]

theorem State.core_setCore (s : State) (n k : Nat) (c : CoreSt) : (s.setCore n c).core k = if k = n then c.fix else s.core k := by
  rw [State.setCore, State.core_congr (State.showCore_cores ..), State.core, State.setCores_cores]
  exact Sparse.get_set ..

/-- A core of which the secure tops have been cleared, and the pages whose marking changes forgotten. -/
def CoreSt.cleared (c : CoreSt) (gone kx ky : Nat) : CoreSt :=
  { c with
    x := clearTop kx c.x, y := clearTop ky c.y
    pageObj := Sparse.keep (fun k => !bit gone k) c.pageObj, pageUse := Sparse.keep (fun k => !bit gone k) c.pageUse }

theorem CoreSt.cleared_x (c : CoreSt) (gone : Nat) {kx ky w : Nat} (h : 0x10000 ≤ 4 * w + 4096 * kx) :
    (c.cleared gone kx ky).fix.word false w = ⟨0, false⟩ := by
  have hx : (c.cleared gone kx ky).fix.word false w = Sparse.get (fun _ => ⟨0, false⟩) (clearTop kx c.x) w := rfl
  rw [hx, clearTop, Sparse.get_keep, decide_eq_false (Nat.not_lt.mpr h), if_neg Bool.false_ne_true]

theorem CoreSt.cleared_y (c : CoreSt) (gone : Nat) {kx ky w : Nat} (h : 0x10000 ≤ 4 * w + 4096 * ky) :
    (c.cleared gone kx ky).fix.word true w = ⟨0, false⟩ := by
  have hy : (c.cleared gone kx ky).fix.word true w = Sparse.get (fun _ => ⟨0, false⟩) (clearTop ky c.y) w := rfl
  rw [hy, clearTop, Sparse.get_keep, decide_eq_false (Nat.not_lt.mpr h), if_neg Bool.false_ne_true]

/-- The machine whose core n has been cleared and its VALID bits narrowed. -/
def State.pagesGone (s : State) (pages xsec ysec n : Nat) : State :=
  (s.setCore n ((s.core n).cleared (s.rd F.SC_SEC.PAGES n ^^^ pages) (max xsec (s.rd F.SC_SEC.XSEC n))
    (max ysec (s.rd F.SC_SEC.YSEC n)))).wr F.SC_STATUS.VALID
      (s.rd F.SC_STATUS.VALID n &&& (255 - (s.rd F.SC_SEC.PAGES n ^^^ pages) % 256)) n

theorem State.coreSecure_eq (s : State) (pages xsec ysec n : Nat) : s.coreSecure pages xsec ysec n =
    (((s.pagesGone pages xsec ysec n).wr F.SC_SEC.PAGES pages n).wr F.SC_SEC.XSEC xsec n).wr F.SC_SEC.YSEC ysec n := by
  have hvalid := s.setCore_valid n ((s.core n).cleared (s.rd F.SC_SEC.PAGES n ^^^ pages) (max xsec (s.rd F.SC_SEC.XSEC n))
    (max ysec (s.rd F.SC_SEC.YSEC n)))
  rw [State.pagesGone, ← hvalid]
  rfl

/-- The bits of VALID that stay: those of pages whose marking stays. -/
theorem bit_kept {v p q k : Nat} (hk : k < 8) : bit (v &&& (255 - (p ^^^ q) % 256)) k = (bit v k && (bit p k == bit q k)) := by
  have hlt : (p ^^^ q) % 2 ^ 8 < 2 ^ 8 := Nat.mod_lt _ (by decide)
  have hnot := Nat.testBit_two_pow_sub_succ hlt k
  have hsub : 2 ^ 8 - ((p ^^^ q) % 2 ^ 8 + 1) = 255 - (p ^^^ q) % 256 := by omega
  rw [hsub, decide_eq_true hk, Bool.true_and, Nat.testBit_mod_two_pow, decide_eq_true hk, Bool.true_and, Nat.testBit_xor] at hnot
  rw [bit_eq_testBit, bit_eq_testBit, bit_eq_testBit, bit_eq_testBit, Nat.testBit_and, hnot]
  cases p.testBit k <;> cases q.testBit k <;> rfl

/-- What SEC_CORE_SECURE looks at of core n, and what it changes of it. -/
def State.secureView (n : Nat) (s : State) : Nat × Nat × Nat × Nat × CoreSt :=
  (s.rd F.SC_SEC.PAGES n, s.rd F.SC_SEC.XSEC n, s.rd F.SC_SEC.YSEC n, s.rd F.SC_STATUS.VALID n, s.core n)

theorem State.coreSecure_core (s : State) (pages xsec ysec n k : Nat) : (s.coreSecure pages xsec ysec n).core k = if k = n then
    ((s.core n).cleared (s.rd F.SC_SEC.PAGES n ^^^ pages) (max xsec (s.rd F.SC_SEC.XSEC n)) (max ysec (s.rd F.SC_SEC.YSEC n))).fix
    else s.core k := by
  rw [State.coreSecure_eq, ← State.core_setCore]
  refine State.core_congr ?_ k
  rw [State.wr_cores, State.wr_cores, State.wr_cores, State.pagesGone, State.wr_cores]

theorem State.coreSecure_rd_otherCore (s : State) (pages xsec ysec : Nat) {n k : Nat} {g : Field} (hg : g.ofCore) (h : k ≠ n) :
    (s.coreSecure pages xsec ysec n).rd g k = s.rd g k := by
  rw [State.coreSecure_eq, State.rd_wr_otherCore _ (by decide) hg h, State.rd_wr_otherCore _ (by decide) hg h,
    State.rd_wr_otherCore _ (by decide) hg h, State.pagesGone, State.rd_wr_otherCore _ (by decide) hg h,
    State.setCore_rd_otherCore _ _ hg h]

theorem State.coreSecure_view_other (s : State) (pages xsec ysec : Nat) {n k : Nat} (h : k ≠ n) :
    (s.coreSecure pages xsec ysec n).secureView k = s.secureView k := by
  rw [State.secureView, State.coreSecure_rd_otherCore _ _ _ _ (by decide) h, State.coreSecure_rd_otherCore _ _ _ _ (by decide) h,
    State.coreSecure_rd_otherCore _ _ _ _ (by decide) h, State.coreSecure_rd_otherCore _ _ _ _ (by decide) h,
    State.coreSecure_core, if_neg h]
  rfl

theorem State.coreSecure_sec (s : State) {pages xsec ysec : Nat} (n : Nat) (hp : pages < 256) (hx : xsec < 16) (hy : ysec < 16) :
    (s.coreSecure pages xsec ysec n).rd F.SC_SEC.PAGES n = pages ∧ (s.coreSecure pages xsec ysec n).rd F.SC_SEC.XSEC n = xsec ∧
    (s.coreSecure pages xsec ysec n).rd F.SC_SEC.YSEC n = ysec := by
  rw [State.coreSecure_eq]
  refine ⟨?_, ?_, State.rd_wr_self _ ⟨by decide, hy⟩⟩
  · rw [State.rd_wr_bits _ (by decide), State.rd_wr_bits _ (by decide)]
    exact State.rd_wr_self _ ⟨by decide, hp⟩
  · rw [State.rd_wr_bits _ (by decide)]
    exact State.rd_wr_self _ ⟨by decide, hx⟩

theorem State.coreSecure_valid (s : State) (pages xsec ysec n : Nat) : (s.coreSecure pages xsec ysec n).rd F.SC_STATUS.VALID n =
    s.rd F.SC_STATUS.VALID n &&& (255 - (s.rd F.SC_SEC.PAGES n ^^^ pages) % 256) := by
  rw [State.coreSecure_eq, State.rd_wr_word _ (by decide), State.rd_wr_word _ (by decide), State.rd_wr_word _ (by decide)]
  exact State.rd_wr_self _ ⟨by decide, Nat.lt_of_le_of_lt Nat.and_le_left (bits_lt ..)⟩

theorem State.coreSecure_mem (s : State) (pages xsec ysec n : Nat) : (s.coreSecure pages xsec ysec n).mem = s.mem := by
  rw [State.coreSecure_eq, State.wr_mem, State.wr_mem, State.wr_mem, State.pagesGone, State.wr_mem, State.setCore_mem]

theorem State.coreSecure_events (s : State) (pages xsec ysec n : Nat) : (s.coreSecure pages xsec ysec n).events = s.events := by
  rw [State.coreSecure_eq, State.wr_events, State.wr_events, State.wr_events, State.pagesGone, State.wr_events, State.setCore_events]

section
variable (ht : s.takes ref 0x0C05) {mask : BitVec 64} {pages sec : BitVec 8}
include ht

/-- The machine whose cores of a mask have been secured. -/
def State.coresSecured (s : State) (mask : BitVec 64) (pages sec : BitVec 8) : State :=
  s.each (maskBits 64 mask.toNat) fun s n => s.coreSecure pages.toNat (bits sec.toNat 3 0) (bits sec.toNat 7 4) n

theorem exec_secCoreSecure : exec (.secCoreSecure ref mask pages sec) s = .next
    (if (maskBits 64 mask.toNat).any fun n => s.rdb F.SC_CTRL.RUN n then (s.accept ref 0x0C05).complete ref stRefused
     else ((s.accept ref 0x0C05).coresSecured mask pages sec).complete ref stDone) := by
  have hrun (n : Nat) : (s.accept ref 0x0C05).rdb F.SC_CTRL.RUN n = s.rdb F.SC_CTRL.RUN n := by
    rw [State.rdb, s.accept_rd _ _ (Nat.le_trans (by decide) Field.base_le_off), State.rdb]
  rw [exec, execSecCoreSecure, s.command_run _ _ _ ht]
  simp only [hrun]
  rfl

theorem secCoreSecure_running (h : ∃ n ∈ maskBits 64 mask.toNat, s.rdb F.SC_CTRL.RUN n = true) :
    exec (.secCoreSecure ref mask pages sec) s = .next ((s.accept ref 0x0C05).complete ref stRefused) := by
  rw [exec_secCoreSecure ht, if_pos (List.any_eq_true.mpr h)]

omit ht in
theorem State.coresSecured_other (n : Nat) (hn : n ∉ maskBits 64 mask.toNat) :
    (s.coresSecured mask pages sec).secureView n = s.secureView n :=
  s.each_keeps_of_mem _ fun _ _ hi => State.coreSecure_view_other _ _ _ _ fun h => hn (h ▸ hi)

omit ht in
/-- Of core n, only its own step counts. -/
theorem State.coresSecured_at {n : Nat} (hn : n ∈ maskBits 64 mask.toNat) : ∃ t : State, t.secureView n = s.secureView n ∧
    (s.coresSecured mask pages sec).secureView n =
      (t.coreSecure pages.toNat (bits sec.toNat 3 0) (bits sec.toNat 7 4) n).secureView n :=
  State.each_at s (List.nodup_range.filter _) hn fun t _ hi => t.coreSecure_view_other _ _ _ hi.symm

omit ht in
theorem State.coresSecured_shows {n : Nat} (hn : n ∈ maskBits 64 mask.toNat) :
    (s.coresSecured mask pages sec).rd F.SC_SEC.PAGES n = pages.toNat ∧
    (s.coresSecured mask pages sec).rd F.SC_SEC.XSEC n = bits sec.toNat 3 0 ∧
    (s.coresSecured mask pages sec).rd F.SC_SEC.YSEC n = bits sec.toNat 7 4 ∧
    (∀ k, k < 8 → bit ((s.coresSecured mask pages sec).rd F.SC_STATUS.VALID n) k =
      (bit (s.rd F.SC_STATUS.VALID n) k && (bit (s.rd F.SC_SEC.PAGES n) k == bit pages.toNat k))) ∧
    (∀ w, 0x10000 ≤ 4 * w + 4096 * max (bits sec.toNat 3 0) (s.rd F.SC_SEC.XSEC n) →
      ((s.coresSecured mask pages sec).core n).word false w = ⟨0, false⟩) ∧
    (∀ w, 0x10000 ≤ 4 * w + 4096 * max (bits sec.toNat 7 4) (s.rd F.SC_SEC.YSEC n) →
      ((s.coresSecured mask pages sec).core n).word true w = ⟨0, false⟩) := by
  obtain ⟨t, ht, hview⟩ := s.coresSecured_at (pages := pages) (sec := sec) hn
  simp only [State.secureView, Prod.mk.injEq] at ht hview
  obtain ⟨hp, hx, hy, hv, hcore⟩ := ht
  obtain ⟨hp', hx', hy', hv', hcore'⟩ := hview
  obtain ⟨hpages, hxsec, hysec⟩ := t.coreSecure_sec (pages := pages.toNat) (xsec := bits sec.toNat 3 0) (ysec := bits sec.toNat 7 4)
    n pages.isLt (bits_lt ..) (bits_lt ..)
  rw [hp', hx', hy', hv', hcore', hpages, hxsec, hysec, t.coreSecure_valid, t.coreSecure_core, if_pos rfl, hp, hx, hy, hv]
  exact ⟨rfl, rfl, rfl, fun k hk => bit_kept hk, fun w hw => CoreSt.cleared_x _ _ hw, fun w hw => CoreSt.cleared_y _ _ hw⟩

theorem secCoreSecure_secures (h : ∀ n ∈ maskBits 64 mask.toNat, s.rdb F.SC_CTRL.RUN n = false) : ∃ t v : State,
    exec (.secCoreSecure ref mask pages sec) s = .next t ∧ t = v.complete ref stDone ∧
    (∀ n ∈ maskBits 64 mask.toNat, v.rd F.SC_SEC.PAGES n = pages.toNat ∧ v.rd F.SC_SEC.XSEC n = bits sec.toNat 3 0 ∧
      v.rd F.SC_SEC.YSEC n = bits sec.toNat 7 4 ∧
      (∀ k, k < 8 → bit (v.rd F.SC_STATUS.VALID n) k =
        (bit (s.rd F.SC_STATUS.VALID n) k && (bit (s.rd F.SC_SEC.PAGES n) k == bit pages.toNat k))) ∧
      (∀ w, 0x10000 ≤ 4 * w + 4096 * max (bits sec.toNat 3 0) (s.rd F.SC_SEC.XSEC n) → (v.core n).word false w = ⟨0, false⟩) ∧
      (∀ w, 0x10000 ≤ 4 * w + 4096 * max (bits sec.toNat 7 4) (s.rd F.SC_SEC.YSEC n) → (v.core n).word true w = ⟨0, false⟩)) ∧
    (∀ n, n ∉ maskBits 64 mask.toNat → v.core n = s.core n) ∧ v.mem = s.mem ∧ v.events = s.events := by
  have hidle : ¬ ((maskBits 64 mask.toNat).any fun n => s.rdb F.SC_CTRL.RUN n) = true := fun hany => by
    obtain ⟨n, hn, hrun⟩ := List.any_eq_true.mp hany
    exact Bool.false_ne_true ((h n hn).symm.trans hrun)
  have hexec := exec_secCoreSecure ht (mask := mask) (pages := pages) (sec := sec)
  rw [if_neg hidle] at hexec
  have hrd {f : Field} (n : Nat) (hf : 0x40000 ≤ f.base) : (s.accept ref 0x0C05).rd f n = s.rd f n :=
    s.accept_rd _ _ (Nat.le_trans hf Field.base_le_off)
  refine ⟨_, _, hexec, rfl, fun n hn => ?_, fun n hn => ?_, ?_, ?_⟩
  · have hshows := (s.accept ref 0x0C05).coresSecured_shows (pages := pages) (sec := sec) hn
    rwa [hrd n (by decide), hrd n (by decide), hrd n (by decide), hrd n (by decide)] at hshows
  · have hview := (s.accept ref 0x0C05).coresSecured_other (pages := pages) (sec := sec) n hn
    simp only [State.secureView, Prod.mk.injEq] at hview
    obtain ⟨-, -, -, -, hcore⟩ := hview
    rw [hcore, State.core_congr (State.units_cores (s.accept_units ..))]
  · rw [State.coresSecured, State.each_keeps _ _ fun t n => t.coreSecure_mem _ _ _ n, s.accept_mem]
  · rw [State.coresSecured, State.each_keeps _ _ fun t n => t.coreSecure_events _ _ _ n, s.accept_events]

end

/-! ### Trace tokens (R475) -/

theorem State.event_rd64 (s : State) (code sev source pay : Nat) (nme : Bool) {f : Field} (h : 0x40000 ≤ f.off 0 0) :
    (s.event code sev source pay nme).rd64 f = s.rd64 f := by
  have hreg {o : Nat} (ho : 0x40000 ≤ o) : (s.event code sev source pay nme).rdReg o = s.rdReg o := by
    rw [State.rdReg_eq_rd, State.event_rd_base _ _ _ _ _ _ ho, State.rdReg_eq_rd]
  rw [State.rd64, hreg h, hreg (by omega), State.rd64]

/-- The machine that holds a token's cores, validity, scope and end, before its event. -/
def State.tokenSet (s : State) (cores : BitVec 64) (valid scope notAfter : Nat) : State :=
  (({ s with trcCores := cores }.wr F.SEC_TRC_AUTH.VALID valid).wr F.SEC_TRC_AUTH.SCOPE scope).wr64
    F.SEC_TRC_AUTH_NA_LO.NOT_AFTER notAfter

/-- What a token sets shows, and its event is the only one. -/
theorem State.tokenSet_shows (s : State) (cores : BitVec 64) {valid notAfter : Nat} (scope code sev source pay : Nat)
    (hv : valid < 2) (hn : notAfter < 2 ^ 64) : ∀ v, v = (s.tokenSet cores valid scope notAfter).event code sev source pay →
    v.rd F.SEC_TRC_AUTH.VALID = valid ∧ v.rd F.SEC_TRC_AUTH.SCOPE = scope % 4 ∧
      v.rd64 F.SEC_TRC_AUTH_NA_LO.NOT_AFTER = notAfter ∧ v.trcCores = cores ∧
      (s.recovery = false → v.events.map (·.code) = code :: s.events.map (·.code)) ∧ v.mem = s.mem := by
  rintro v rfl
  have hregs : ({ s with trcCores := cores } : State).recovery = s.recovery := rfl
  refine ⟨?_, ?_, ?_, ?_, fun hr => ?_, ?_⟩
  · rw [State.event_rd_base _ _ _ _ _ _ (by decide), State.tokenSet, State.rd_wr64_other _ (by decide), State.rd_wr_bits _ (by decide)]
    exact State.rd_wr_self _ ⟨by decide, hv⟩
  · rw [State.event_rd_base _ _ _ _ _ _ (by decide), State.tokenSet, State.rd_wr64_other _ (by decide)]
    exact State.rd_wr_same _ _ _ _ _ ⟨by decide, by decide⟩
  · rw [State.event_rd64 _ _ _ _ _ _ (by decide), State.tokenSet, State.rd64_wr64, Nat.mod_eq_of_lt hn]
  · rw [State.units_trcCores (State.event_units ..), State.tokenSet, State.wr64_trcCores, State.wr_trcCores, State.wr_trcCores]
  · have hrec : (s.tokenSet cores valid scope notAfter).recovery = false := by
      rw [State.tokenSet, State.recovery_congr (State.rd_wr64_other _ (by decide)), State.recovery_wr (by decide),
        State.recovery_wr (by decide), hregs, hr]
    rw [State.event_codes _ _ _ _ _ hrec, State.tokenSet, State.wr64_events, State.wr_events, State.wr_events]
  · rw [State.units_mem (State.event_units ..), State.tokenSet, State.wr64_mem, State.wr_mem, State.wr_mem]

theorem exec_secTraceAuth_zero (ht : s.takes ref 0x0C06) :
    exec (.secTraceAuth ref 0) s = .next ((s.accept ref 0x0C06).tokenEnd.complete ref stDone) := by
  rw [exec, execSecTraceAuth, s.command_run _ _ _ ht, if_pos rfl]

section
variable (ht : s.takes ref 0x0C06) {addr : BitVec 64} (h0 : addr ≠ 0) (hup : s.portUp (s.cmdPort ref) = true)

/-- The token at a host address, with its signature block. -/
def State.tokenAt (s : State) (ref : CmdRef) (addr : BitVec 64) : List Byte := s.hostRead (s.cmdPort ref) addr.toNat 320

/-- Its signature is one that the device takes. -/
def State.tokenSigned (s : State) (ref : CmdRef) (addr : BitVec 64) : Bool :=
  (s.accept ref 0x0C06).sigOk 0x47495354 [0, 1, 2, 3, 4] (hash (slice (s.tokenAt ref addr) 0 64)) (slice (s.tokenAt ref addr) 64 256)

include ht h0 hup

theorem exec_secTraceAuth : exec (.secTraceAuth ref addr) s = .next
    (let u := s.accept ref 0x0C06
     let b := s.tokenAt ref addr
     if !s.tokenSigned ref addr then (u.authFail 5 (slice b 64 256)).complete ref stAuthFailed
     else if fieldAt b 0 4 ≠ 0x4B4F5454 ∨ fieldAt b 4 2 ≠ 1 ∨ fieldAt b 8 8 ≠ s.rd64 F.GLB_SERIAL_LO.SERIAL ∨
        fieldAt b 16 8 ≠ s.rd64 F.SEC_BOOT_NONCE_LO.NONCE ∨ (fieldAt b 24 8 ≠ 0 ∧ fieldAt b 24 8 ≤ s.now) then
      u.complete ref stAuthFailed
     else ((u.tokenSet (BitVec.ofNat 64 (fieldAt b 32 8)) 1 (fieldAt b 40 4) (fieldAt b 24 8)).event 0x0C04 sevInfo
      (sourceId 0x0C04 0 0)).complete ref stDone) := by
  have hfield {i n : Nat} (h : i + n ≤ 64) : fieldAt (slice (s.tokenAt ref addr) 0 64) i n = fieldAt (s.tokenAt ref addr) i n :=
    fieldAt_hostRead _ _ _ h (by decide)
  rw [exec, execSecTraceAuth, s.command_run _ _ _ ht, if_neg h0, s.accept_cmdPort, s.accept_portUp, hup, Bool.not_true,
    if_neg Bool.false_ne_true, State.hostRead_congr (s.accept_hostMem ..), ← State.tokenAt, State.tokenLoad]
  dsimp only
  rw [hfield (by decide), hfield (by decide), hfield (by decide), hfield (by decide), hfield (by decide), hfield (by decide),
    hfield (by decide), s.accept_rd64 _ _ (by decide), s.accept_rd64 _ _ (by decide),
    State.now_congr (State.units_tb (s.accept_units ..)), ← State.tokenSigned]
  rfl

theorem secTraceAuth_forged (hok : s.tokenSigned ref addr = false) : exec (.secTraceAuth ref addr) s = .next
    (((s.accept ref 0x0C06).authFail 5 (slice (s.tokenAt ref addr) 64 256)).complete ref stAuthFailed) := by
  rw [exec_secTraceAuth ht h0 hup]
  dsimp only
  rw [hok, Bool.not_false, if_pos rfl]

theorem secTraceAuth_elsewhere (hok : s.tokenSigned ref addr = true)
    (h : fieldAt (s.tokenAt ref addr) 8 8 ≠ s.rd64 F.GLB_SERIAL_LO.SERIAL ∨
      fieldAt (s.tokenAt ref addr) 16 8 ≠ s.rd64 F.SEC_BOOT_NONCE_LO.NONCE) :
    exec (.secTraceAuth ref addr) s = .next ((s.accept ref 0x0C06).complete ref stAuthFailed) := by
  rw [exec_secTraceAuth ht h0 hup]
  dsimp only
  rw [hok, Bool.not_true, if_neg Bool.false_ne_true, if_pos (.inr (.inr (h.imp_right .inl)))]

/-- The machine that holds the token. -/
def State.tokenLoaded (s : State) (ref : CmdRef) (addr : BitVec 64) : State :=
  ((s.accept ref 0x0C06).tokenSet (BitVec.ofNat 64 (fieldAt (s.tokenAt ref addr) 32 8)) 1 (fieldAt (s.tokenAt ref addr) 40 4)
    (fieldAt (s.tokenAt ref addr) 24 8)).event 0x0C04 sevInfo (sourceId 0x0C04 0 0)

theorem secTraceAuth_loads (hok : s.tokenSigned ref addr = true) (hmagic : fieldAt (s.tokenAt ref addr) 0 4 = 0x4B4F5454)
    (hver : fieldAt (s.tokenAt ref addr) 4 2 = 1) (hserial : fieldAt (s.tokenAt ref addr) 8 8 = s.rd64 F.GLB_SERIAL_LO.SERIAL)
    (hnonce : fieldAt (s.tokenAt ref addr) 16 8 = s.rd64 F.SEC_BOOT_NONCE_LO.NONCE)
    (hna : fieldAt (s.tokenAt ref addr) 24 8 = 0 ∨ s.now < fieldAt (s.tokenAt ref addr) 24 8) :
    exec (.secTraceAuth ref addr) s = .next ((s.tokenLoaded ref addr).complete ref stDone) := by
  have hgood : ¬ (fieldAt (s.tokenAt ref addr) 0 4 ≠ 0x4B4F5454 ∨ fieldAt (s.tokenAt ref addr) 4 2 ≠ 1 ∨
      fieldAt (s.tokenAt ref addr) 8 8 ≠ s.rd64 F.GLB_SERIAL_LO.SERIAL ∨
      fieldAt (s.tokenAt ref addr) 16 8 ≠ s.rd64 F.SEC_BOOT_NONCE_LO.NONCE ∨
      (fieldAt (s.tokenAt ref addr) 24 8 ≠ 0 ∧ fieldAt (s.tokenAt ref addr) 24 8 ≤ s.now)) := by omega
  rw [exec_secTraceAuth ht h0 hup]
  dsimp only
  rw [hok, Bool.not_true, if_neg Bool.false_ne_true, if_neg hgood, State.tokenLoaded]

omit ht h0 hup in
theorem State.tokenLoaded_shows (s : State) (ref : CmdRef) (addr : BitVec 64) :
    (s.tokenLoaded ref addr).rd F.SEC_TRC_AUTH.VALID = 1 ∧
    (s.tokenLoaded ref addr).rd F.SEC_TRC_AUTH.SCOPE = fieldAt (s.tokenAt ref addr) 40 4 % 4 ∧
    (s.tokenLoaded ref addr).rd64 F.SEC_TRC_AUTH_NA_LO.NOT_AFTER = fieldAt (s.tokenAt ref addr) 24 8 ∧
    (s.tokenLoaded ref addr).trcCores = BitVec.ofNat 64 (fieldAt (s.tokenAt ref addr) 32 8) ∧
    (s.recovery = false → (s.tokenLoaded ref addr).events.map (·.code) = 0x0C04 :: s.events.map (·.code)) ∧
    (s.tokenLoaded ref addr).mem = s.mem := by
  have hshows := (s.accept ref 0x0C06).tokenSet_shows (BitVec.ofNat 64 (fieldAt (s.tokenAt ref addr) 32 8)) (valid := 1)
    (notAfter := fieldAt (s.tokenAt ref addr) 24 8) (fieldAt (s.tokenAt ref addr) 40 4) 0x0C04 sevInfo (sourceId 0x0C04 0 0) 0
    (by decide) (fieldAt_lt ..) _ rfl
  rwa [State.recovery_congr (s.accept_rd _ _ (by decide)), s.accept_events, s.accept_mem, ← State.tokenLoaded] at hshows

theorem secTraceAuth_follows : ∃ t, exec (.secTraceAuth ref addr) s = .next t ∧
    (s.tokenSigned ref addr = false → t = ((s.accept ref 0x0C06).authFail 5 (slice (s.tokenAt ref addr) 64 256)).complete ref
      stAuthFailed) ∧
    (s.tokenSigned ref addr = true → fieldAt (s.tokenAt ref addr) 8 8 ≠ s.rd64 F.GLB_SERIAL_LO.SERIAL ∨
        fieldAt (s.tokenAt ref addr) 16 8 ≠ s.rd64 F.SEC_BOOT_NONCE_LO.NONCE →
      t = (s.accept ref 0x0C06).complete ref stAuthFailed) ∧
    (s.tokenSigned ref addr = true → fieldAt (s.tokenAt ref addr) 0 4 = 0x4B4F5454 → fieldAt (s.tokenAt ref addr) 4 2 = 1 →
      fieldAt (s.tokenAt ref addr) 8 8 = s.rd64 F.GLB_SERIAL_LO.SERIAL →
      fieldAt (s.tokenAt ref addr) 16 8 = s.rd64 F.SEC_BOOT_NONCE_LO.NONCE →
      (fieldAt (s.tokenAt ref addr) 24 8 = 0 ∨ s.now < fieldAt (s.tokenAt ref addr) 24 8) →
      ∃ v : State, t = v.complete ref stDone ∧
        v.rd F.SEC_TRC_AUTH.VALID = 1 ∧ v.rd F.SEC_TRC_AUTH.SCOPE = fieldAt (s.tokenAt ref addr) 40 4 % 4 ∧
        v.rd64 F.SEC_TRC_AUTH_NA_LO.NOT_AFTER = fieldAt (s.tokenAt ref addr) 24 8 ∧
        v.trcCores = BitVec.ofNat 64 (fieldAt (s.tokenAt ref addr) 32 8) ∧
        (s.recovery = false → v.events.map (·.code) = 0x0C04 :: s.events.map (·.code)) ∧ v.mem = s.mem) := by
  obtain ⟨t, hexec⟩ : ∃ t, exec (.secTraceAuth ref addr) s = .next t := ⟨_, exec_secTraceAuth ht h0 hup⟩
  refine ⟨t, hexec, fun hok => ?_, fun hok h => ?_, fun hok hmagic hver hserial hnonce hna => ⟨_, ?_, s.tokenLoaded_shows ref addr⟩⟩
  · exact Host.Outcome.next.inj (hexec.symm.trans (secTraceAuth_forged ht h0 hup hok))
  · exact Host.Outcome.next.inj (hexec.symm.trans (secTraceAuth_elsewhere ht h0 hup hok h))
  · exact Host.Outcome.next.inj (hexec.symm.trans (secTraceAuth_loads ht h0 hup hok hmagic hver hserial hnonce hna))

end

/-! ### TRACE_TOKEN_EXPIRY -/

theorem traceTokenExpiry_waits (ha : s.alive = true) (h : s.rd64 F.SEC_TRC_AUTH_NA_LO.NOT_AFTER = 0 ∨
    s.now < s.rd64 F.SEC_TRC_AUTH_NA_LO.NOT_AFTER) : exec .traceTokenExpiry s = .next s := by
  have hc : (s.rd64 F.SEC_TRC_AUTH_NA_LO.NOT_AFTER != 0 && decide (s.rd64 F.SEC_TRC_AUTH_NA_LO.NOT_AFTER ≤ s.now)) = false := by
    rcases h with h | h
    · rw [h]
      exact Bool.false_and _
    · rw [decide_eq_false (Nat.not_le.mpr h), Bool.and_false]
  rw [exec, execTraceTokenExpiry, s.live_run _ ha]
  dsimp only
  rw [hc, State.onlyIf_false]

theorem traceTokenExpiry_removes (ha : s.alive = true) (h0 : s.rd64 F.SEC_TRC_AUTH_NA_LO.NOT_AFTER ≠ 0)
    (hle : s.rd64 F.SEC_TRC_AUTH_NA_LO.NOT_AFTER ≤ s.now) (hv : s.rdb F.SEC_TRC_AUTH.VALID = true) :
    ∃ t, exec .traceTokenExpiry s = .next t ∧ t.rd F.SEC_TRC_AUTH.VALID = 0 ∧ t.rd F.SEC_TRC_AUTH.SCOPE = 0 ∧ t.trcCores = 0 ∧
      t.rd64 F.SEC_TRC_AUTH_NA_LO.NOT_AFTER = 0 ∧
      (s.recovery = false → t.events.map (·.code) = 0x0C05 :: s.events.map (·.code)) ∧ t.mem = s.mem := by
  have hexec : exec .traceTokenExpiry s = .next ((s.tokenSet 0 0 0 0).event 0x0C05 sevInfo (sourceId 0x0C05 0 0)) := by
    rw [exec, execTraceTokenExpiry, s.live_run _ ha]
    dsimp only
    rw [bne_iff_ne.mpr h0, decide_eq_true hle, Bool.and_self, State.onlyIf_true, State.tokenEnd, hv, State.onlyIf_true,
      State.tokenSet]
  obtain ⟨hvalid, hscope, hna, hcores, hcodes, hmem⟩ := s.tokenSet_shows 0 0 0x0C05 sevInfo (sourceId 0x0C05 0 0) 0
    (valid := 0) (notAfter := 0) (by decide) (by decide) _ rfl
  exact ⟨_, hexec, hvalid, hscope, hcores, hna, hcodes, hmem⟩

end

theorem attestationTokensAndSecureCores_holds : attestationTokensAndSecureCores :=
  ⟨fun _ _ _ _ _ _ ht hs => ⟨State.attestReport_length .., secAttest_lost ht hs, secAttest_writes ht hs⟩,
    fun _ _ _ _ _ ht => ⟨secCoreSecure_running ht, secCoreSecure_secures ht⟩, fun _ _ ht => exec_secTraceAuth_zero ht,
    fun _ _ _ ht h0 hup => secTraceAuth_follows ht h0 hup,
    fun _ ha => ⟨traceTokenExpiry_waits ha, traceTokenExpiry_removes ha⟩⟩

end Sys2Proof.Machine
open Sys2Proof Sys2Proof.Machine

/-- Settles O59: fuses and flash change by the operation under way alone, and each core is secured by its own step. -/
theorem securityCommandsTakeEffect : Obligations.SecurityCommandsTakeEffect :=
  ⟨fusesAndFlashAreWritten_holds, attestationTokensAndSecureCores_holds⟩
end

section
/-! PROOF. What the capture engine's memory accesses, events, completions and producer occurrences leave alone: its own state,
and every register from the decoder's block on (R319 to R339). -/

namespace Sys2Proof.Machine

/-- A view of the machine that reads nothing of what the capture engine's accesses to the rest of the device change: no register
below the decoder's block, and none of the states named here. -/
structure OutBlind {α : Type} (view : State → α) : Prop where
  reg : ∀ t o v, o < 0x400000 → view (State.wrReg t o v) = view t
  mem : ∀ t x, view (State.setMem t x) = view t
  fab : ∀ t x, view (State.setFab t x) = view t
  dsp : ∀ t x, view (State.setDsp t x) = view t
  host : ∀ t x, view (State.setHost t x) = view t
  hostMem : ∀ t x, view (State.setHostMem t x) = view t
  event : ∀ (t : State) code sev source pay nme, view (t.event code sev source pay nme) = view t

theorem outBlind_cap : OutBlind State.cap :=
  ⟨fun _ _ _ _ => rfl, fun _ _ => rfl, fun _ _ => rfl, fun _ _ => rfl, fun _ _ => rfl, fun _ _ => rfl,
    fun _ _ _ _ _ _ => State.units_cap (State.event_units ..)⟩

theorem outBlind_tb : OutBlind State.tb :=
  ⟨fun _ _ _ _ => rfl, fun _ _ => rfl, fun _ _ => rfl, fun _ _ => rfl, fun _ _ => rfl, fun _ _ => rfl,
    fun _ _ _ _ _ _ => State.units_tb (State.event_units ..)⟩

theorem outBlind_rd {f : Field} {i j : Nat} (h : 0x400000 ≤ f.base) : OutBlind fun s => s.rd f i j where
  reg t o v ho := by
    have hoff : f.off i j ≠ o := fun e => Nat.not_le_of_lt ho (e ▸ Nat.le_trans h Field.base_le_off)
    show bits ((t.wrReg o v).rdReg _) _ _ = _
    rw [State.rdReg_wrReg, if_neg hoff, State.rd]
  mem _ _ := rfl
  fab _ _ := rfl
  dsp _ _ := rfl
  host _ _ := rfl
  hostMem _ _ := rfl
  event t code sev source pay nme := t.event_rd_base _ _ _ _ _ (Nat.le_trans (by decide) h)

/-- A register of an array below the decoder's block, whose strides keep it there. -/
abbrev Field.below (f : Field) : Prop := f.base < 0x104000 ∧ f.s1 ≤ 0x100 ∧ f.s2 ≤ 4

theorem Field.off_below {f : Field} (hf : f.below) {i j : Nat} (hi : i < 512) (hj : j < 16) : f.off i j < 0x400000 := by
  obtain ⟨hb, h1, h2⟩ := hf
  have hi' := Nat.mul_le_mul h1 (Nat.le_of_lt hi)
  have hj' := Nat.mul_le_mul h2 (Nat.le_of_lt hj)
  rw [Field.off]
  omega

/-! ### Where an address and a spare lie -/

theorem State.target_bank_lt {s : State} {a b : Nat} (h : s.target a = .bank b) : b < 512 := by
  unfold State.target at h
  split at h
  · split at h <;> cases h
  · split at h
    next h2 =>
      cases h
      rw [bankEnd] at h2
      rw [hbmBytes]
      omega
    · cases h

theorem State.target_part_lt {s : State} {a p : Nat} (h : s.target a = .part p) : p < 512 := by
  unfold State.target at h
  split at h
  · split at h
    next q hq =>
      cases h
      exact Nat.lt_of_lt_of_le (List.mem_range.mp (List.mem_of_find?_eq_some hq)) (by decide)
    · cases h
  · split at h <;> cases h

theorem State.spareOf_lt {s : State} {b w i : Nat} (h : s.spareOf b w = some i) : i < 16 :=
  List.mem_range.mp (List.mem_of_find?_eq_some h)

theorem State.freeSpare_lt {s : State} {b i : Nat} (h : s.freeSpare b = some i) : i < 16 :=
  List.mem_range.mp (List.mem_of_find?_eq_some h)

namespace OutBlind

variable {α : Type} {view : State → α} (hb : OutBlind view) (s : State)
include hb

theorem hostBlind : HostBlind view := ⟨fun t o v h => hb.reg t o v (Nat.lt_trans h (by decide)), hb.host, hb.hostMem⟩

theorem wr {f : Field} (hf : f.below) (v : Nat) {i j : Nat} (hi : i < 512) (hj : j < 16) : view (s.wr f v i j) = view s :=
  hb.reg _ _ _ (Field.off_below hf hi hj)

theorem wr0 {f : Field} (hf : f.below) (v : Nat) {i : Nat} (hi : i < 512) : view (s.wr f v i) = view s :=
  hb.wr s hf v hi (by decide)

/-! ### Banks (R340 to R354) -/

section
variable {b : Nat} (hlt : b < 512)
include hlt

theorem sat64_bank : view (s.sat64 F.MEM_BANK_CE_LO.COUNT b) = view s := by
  have hoff : F.MEM_BANK_CE_LO.COUNT.off b 0 < 0x300000 := by
    simp only [Field.off, F.MEM_BANK_CE_LO.COUNT]
    omega
  exact (hb.reg _ _ _ (by omega)).trans (hb.reg _ _ _ (by omega))

theorem firstError (w req : Nat) (ue : Bool) : view (s.firstError b w req ue) = view s := by
  unfold State.firstError
  split
  · rfl
  · exact (hb.wr0 _ (by decide) _ hlt).trans ((hb.wr0 _ (by decide) _ hlt).trans
      ((hb.wr0 _ (by decide) _ hlt).trans (hb.wr0 _ (by decide) _ hlt)))

theorem hardFault (w data : Nat) : view (s.hardFault b w data) = view s := by
  unfold State.hardFault
  split
  · exact hb.event ..
  next j hj =>
    have hj := State.freeSpare_lt hj
    refine (hb.event ..).trans ((hb.wr0 _ (by decide) _ hlt).trans ((hb.wr _ (by decide) _ hlt hj).trans
      ((hb.wr _ (by decide) _ hlt hj).trans ((hb.mem ..).trans ?_))))
    split
    next i hi => exact (hb.wr _ (by decide) _ hlt (State.spareOf_lt hi)).trans (hb.wr _ (by decide) _ hlt (State.spareOf_lt hi))
    · rfl

omit hlt in
theorem trkCount (w data n : Nat) (l : List TrkEntry) : view (s.trkCount b w data n l) = view s := by
  unfold State.trkCount
  refine (hb.mem ..).trans ?_
  split
  · exact hb.mem ..
  · rfl

theorem track (w data : Nat) : view (s.track b w data) = view s := by
  unfold State.track
  dsimp only
  split
  · split
    · exact (hb.hardFault _ hlt ..).trans (hb.mem ..)
    · exact hb.trkCount ..
  · split
    · exact hb.trkCount ..
    · split
      · exact hb.trkCount ..
      · exact hb.wr0 _ (by decide) _ hlt

theorem bankRead (req w : Nat) : view (s.bankRead req b w).2.2 = view s := by
  unfold State.bankRead
  dsimp only
  split
  · rfl
  · split
    · rfl
    · rfl
    · exact (hb.track _ hlt ..).trans ((hb.firstError _ hlt ..).trans (hb.sat64_bank _ hlt))
    · exact (hb.event ..).trans ((hb.firstError _ hlt ..).trans (hb.wr0 _ (by decide) _ hlt))

theorem bankStore (req w k : Nat) (l : List Byte) (poison : Bool) : view (s.bankStore req b w k l poison) = view s := by
  have hwrite (t : State) (data : Nat) (p : Bool) : view (t.bankWrite b w data p) = view t := (hb.mem ..).trans (hb.mem ..)
  unfold State.bankStore
  split
  · exact hwrite ..
  · exact (hwrite ..).trans (hb.bankRead _ hlt ..)

end

/-! ### HBM (R359) -/

theorem hbmPut (a : Nat) (l : List Byte) : view (s.hbmPut a l) = view s := by
  induction l generalizing s a with
  | nil => rfl
  | cons b bs ih => exact (ih _ _).trans (hb.mem ..)

theorem vlibDrop (p : VlibEntry → Bool) : view (s.vlibDrop p) = view s := by
  unfold State.vlibDrop
  split
  · exact (hb.wr0 _ (by decide) _ (by decide)).trans (hb.fab ..)
  · rfl

theorem hbmWrite (a : Nat) (l : List PByte) : view (s.hbmWrite a l) = view s := by
  have hput (p : VlibEntry → Bool) (l : List Byte) : view ((s.hbmPut a l).vlibDrop p) = view s :=
    (hb.vlibDrop ..).trans (hb.hbmPut ..)
  unfold State.hbmWrite
  dsimp only
  split
  · split <;> exact (hb.mem ..).trans (hput ..)
  · split
    · exact (hb.mem ..).trans (hput ..)
    · exact hput ..

theorem hbmRead (a n : Nat) : view (s.hbmRead a n).2 = view s := by
  unfold State.hbmRead
  dsimp only
  split
  · exact (hb.event ..).trans (hb.wr0 _ (by decide) _ (Nat.lt_trans (Nat.mod_lt _ (by decide)) (by decide)))
  · rfl

/-! ### Accesses (R340 to R348) -/

theorem refuse (req a op : Nat) : view (s.refuse req a op) = view s := by
  have hraise (t : State) (c : Bool) (x : MemSt) (code sev source pay : Nat) :
      view (if c then t else (t.setMem x).event code sev source pay) = view t := by
    split
    · rfl
    · exact (hb.event ..).trans (hb.mem ..)
  unfold State.refuse
  split
  · exact hb.wr0 _ (by decide) _ (by decide)
  · unfold State.violation State.violationOn
    refine (hraise ..).trans ?_
    cases htarget : s.target a with
    | part p => exact hb.wr0 _ (by decide) _ (State.target_part_lt htarget)
    | bank b => exact hb.wr0 _ (by decide) _ (State.target_bank_lt htarget)
    | nowhere => rfl

theorem writeUnit (req a : Nat) (l : List PByte) : view (s.writeUnit req a l).s = view s := by
  unfold State.writeUnit
  split
  · exact hb.mem ..
  · split
    · exact hb.refuse ..
    · split
      · exact hb.mem ..
      · unfold State.writeHere
        split
        next b htarget => exact hb.bankStore _ (State.target_bank_lt htarget) ..
        · exact hb.hbmWrite ..

theorem readUnit (req a n : Nat) : view (s.readUnit req a n).s = view s := by
  unfold State.readUnit
  split
  · exact hb.wr0 _ (by decide) _ (by decide)
  · split
    · exact hb.refuse ..
    · split
      · rfl
      · unfold State.readHere
        split
        next b htarget => exact hb.bankRead _ (State.target_bank_lt htarget) ..
        · exact hb.hbmRead _ a n

theorem writeGo (fuel req a : Nat) (l : List PByte) : view (State.writeGo fuel s req a l).s = view s := by
  induction fuel generalizing s a l with
  | zero => rfl
  | succ fuel ih =>
    unfold State.writeGo
    split
    · rfl
    · exact (ih ..).trans (hb.writeUnit ..)

theorem readGo (fuel req a n : Nat) : view (State.readGo fuel s req a n).s = view s := by
  induction fuel generalizing s a n with
  | zero => rfl
  | succ fuel ih =>
    unfold State.readGo
    split
    · rfl
    · exact (ih ..).trans (hb.readUnit ..)

theorem memRead (req a n : Nat) : view (s.memRead req a n).s = view s := hb.readGo ..

theorem memWrite (req a : Nat) (l : List PByte) : view (s.memWrite req a l).s = view s := hb.writeGo ..

theorem put (req a : Nat) (l : List Byte) : view (s.put req a l) = view s := hb.memWrite ..

/-! ### Host memory, completions and tasks (R258, R259, R351, R390) -/

theorem complete (ref : CmdRef) (status result : Nat) : view (s.complete ref status result) = view s :=
  hb.hostBlind.complete ..

theorem poisonConsumed (req a consumer : Nat) : view (s.poisonConsumed req a consumer) = view s := hb.event ..

theorem hostSend (p host a : Nat) (l : List PByte) : view (s.hostSend p host a l) = view s := by
  unfold State.hostSend
  dsimp only
  rw [State.onlyIf_keeps _ _ fun t => hb.poisonConsumed t ..]
  exact (hb.host ..).trans (hb.hostBlind.hostWrite ..)

theorem refresh : view s.refresh = view s := by
  unfold State.refresh
  refine (State.each_keeps_of_mem _ _ fun t p hp => ?_).trans (hb.dsp ..)
  have hp : p < 512 := Nat.lt_trans (List.mem_range.mp hp) (by decide)
  exact (State.onlyIf_keeps _ _ fun _ => hb.wr0 _ (by decide) _ hp).trans (hb.wr0 _ (by decide) _ hp)

theorem acceptTask (k : Task) (hk : k.flow < 512) (d : List Byte) : view (s.acceptTask k d).2 = view s := by
  have htasks (t : State) (l : List Task) : view (t.setTasks l k.flow) = view t :=
    (hb.wr0 _ (by decide) _ hk).trans ((hb.wr0 _ (by decide) _ (by decide)).trans (hb.dsp ..))
  unfold State.acceptTask
  dsimp only
  rw [hb.refresh, htasks, hb.dsp, hb.put]

theorem template (i : Nat) : view (s.template i).2.2 = view s :=
  (State.onlyIf_keeps _ _ fun t => hb.poisonConsumed t ..).trans (hb.memRead ..)

theorem produce (i : Nat) (fill : List Byte → List Byte) : view (s.produce i fill) = view s := by
  have hdrop (t : State) : view (t.producerDrop i) = view t := hb.event ..
  cases hen : s.rdb F.DSP_PROD.EN i with
  | false => rw [s.produce_disabled i fill hen]
  | true =>
    cases hclean : (s.template i).2.1 with
    | true =>
      refine Eq.trans ?_ (hb.template s i)
      unfold State.template at *
      simp only [State.produce, hen, hclean, Bool.not_true, Bool.false_eq_true, if_false, if_true]
      exact hdrop _
    | false =>
      refine Eq.trans ?_ (hb.template s i)
      cases hok : (s.template i).2.2.descOk (taskOf (.entry i) (fill (s.template i).1)) (fill (s.template i).1) with
      | false => rw [s.produce_refused i fill hen hclean (.inl hok), hdrop]
      | true =>
        cases hroom : (s.template i).2.2.hasRoom (taskOf (.entry i) (fill (s.template i).1)).flow with
        | false => rw [s.produce_refused i fill hen hclean (.inr hroom), hdrop]
        | true => rw [s.produce_taken i fill hen hclean hok hroom, hb.acceptTask _ _ (bits_lt ..)]

end OutBlind

end Sys2Proof.Machine
end

section
/-! PROOF. What the operations on one capture channel leave alone (R319 to R336): other channels, the configuration, and, of the
channel itself, all that an operation does not name. -/

namespace Sys2Proof.Machine

/-! ### One channel's state and registers -/

section
variable (s : State) (c k : Nat) (x : CapCh)

theorem State.capCh_setCapCh : (s.setCapCh c x).capCh k = if k = c then x else s.capCh k := by
  rw [State.capCh, State.setCapCh, State.setCap_cap, Sparse.get_set, State.capCh]

theorem State.capCh_setCapCh_self : (s.setCapCh c x).capCh c = x := (s.capCh_setCapCh c c x).trans (if_pos rfl)

theorem State.setCapCh_snaps : (s.setCapCh c x).cap.snaps = s.cap.snaps := by rw [State.setCapCh, State.setCap_cap]

variable {s} {k} in
theorem State.capCh_setCapCh_other (h : k ≠ c) : (s.setCapCh c x).capCh k = s.capCh k :=
  (s.capCh_setCapCh c k x).trans (if_neg h)

theorem State.capCh_wr (s : State) (f : Field) (v i j c : Nat) : (s.wr f v i j).capCh c = s.capCh c := by
  rw [State.capCh, State.wr_cap, State.capCh]

theorem State.capCh_congr {s t : State} (h : t.cap = s.cap) (c : Nat) : t.capCh c = s.capCh c := by
  rw [State.capCh, h, State.capCh]

end

/-- The registers in which the engine reports on channel c, and the rate of them all (Table CAP-2). -/
abbrev capReports (c o : Nat) : Prop := o = 0x441004 ∨ (0x440060 + 256 * c ≤ o ∧ o < 0x440080 + 256 * c)

/-- A field of each channel's block. -/
abbrev Field.ofChannel (f : Field) : Prop := 0x440000 ≤ f.base ∧ f.base < 0x440100 ∧ f.s1 = 256 ∧ f.s2 = 0

/-- A field in which the engine reports on a channel. -/
abbrev Field.ofReport (f : Field) : Prop := 0x440060 ≤ f.base ∧ f.base < 0x440080 ∧ f.s1 = 256 ∧ f.s2 = 0

theorem Field.ofReport.reports {f : Field} (h : f.ofReport) (c : Nat) : capReports c (f.off c 0) := by
  obtain ⟨hlo, hhi, h1, h2⟩ := h
  rw [capReports, Field.off, h1, h2]
  omega

theorem Field.ofChannel.not_reports {f : Field} (hf : f.ofChannel) {k c : Nat} (hk : k < 16)
    (h : k ≠ c ∨ f.base < 0x440060) : ¬ capReports c (f.off k 0) := by
  obtain ⟨hlo, hhi, h1, h2⟩ := hf
  rw [capReports, Field.off, h1, h2]
  omega

/-- A channel's state apart from what its reduction keeps. -/
def CapCh.core (x : CapCh) : CapCh :=
  { x with edges := [], mmN := 0, mmA := 0, mmB := 0, mmWr := 0, sweep := none, sweeps := 0 }

/-! ### Three kinds of view -/

/-- A view that nothing done to channel c changes. -/
structure ChBlind (c : Nat) {α : Type} (view : State → α) : Prop extends OutBlind view where
  ch : ∀ t x, view (State.setCapCh t c x) = view t
  own : ∀ t o v, capReports c o → view (State.wrReg t o v) = view t

/-- A view that the reduction of channel c leaves alone: it writes memory, its own part of the channel's state and RPOISON. -/
structure RedBlind (c : Nat) {α : Type} (view : State → α) : Prop extends OutBlind view where
  red : ∀ (t : State) x, x.core = (t.capCh c).core → view (t.setCapCh c x) = view t
  rpoison : ∀ (t : State) v, view (t.wr F.CAP_CH_STAT.RPOISON v c) = view t

/-- A view that the evaluation of a sample of channel c leaves alone: of the engine's state it may read the samples and snapshots
that wait. -/
structure TakeBlind (c : Nat) {α : Type} (view : State → α) : Prop extends OutBlind view where
  cap : ∀ (t : State) x, x.snaps = t.cap.snaps → (∀ k, (Sparse.get (fun _ => {}) x.ch k).pipe = (t.capCh k).pipe) →
    view (t.setCap x) = view t
  own : ∀ t o v, capReports c o → view (State.wrReg t o v) = view t
  ela : ∀ t, view (State.elaAgain t) = view t

theorem ChBlind.wr {c : Nat} {α : Type} {view : State → α} (hb : ChBlind c view) (s : State) {f : Field} (hf : f.ofReport)
    (v : Nat) : view (s.wr f v c) = view s := hb.own _ _ _ (hf.reports c)

theorem ChBlind.red {c : Nat} {α : Type} {view : State → α} (hb : ChBlind c view) : RedBlind c view :=
  ⟨hb.toOutBlind, fun t x _ => hb.ch t x, fun t v => hb.wr t (by decide) v⟩

namespace TakeBlind

variable {c : Nat} {α : Type} {view : State → α} (hb : TakeBlind c view) (s : State)
include hb

theorem wr {f : Field} (hf : f.ofReport) (v : Nat) : view (s.wr f v c) = view s := hb.own _ _ _ (hf.reports c)

theorem ch {x : CapCh} (h : x.pipe = (s.capCh c).pipe) : view (s.setCapCh c x) = view s := by
  refine hb.cap _ _ rfl fun k => ?_
  rw [Sparse.get_set]
  split
  next hk => rw [h, hk]
  · rfl

theorem red : RedBlind c view :=
  ⟨hb.toOutBlind, fun t x h => hb.ch t (show x.core.pipe = (t.capCh c).core.pipe from h ▸ rfl), fun t v => hb.wr t (by decide) v⟩

end TakeBlind

/-! ### Views of these kinds -/

theorem OutBlind.map {α β : Type} {view : State → α} (hb : OutBlind view) (g : α → β) : OutBlind fun s => g (view s) where
  reg t o v h := congrArg g (hb.reg t o v h)
  mem t x := congrArg g (hb.mem t x)
  fab t x := congrArg g (hb.fab t x)
  dsp t x := congrArg g (hb.dsp t x)
  host t x := congrArg g (hb.host t x)
  hostMem t x := congrArg g (hb.hostMem t x)
  event t code sev source pay nme := congrArg g (hb.event t code sev source pay nme)

theorem outBlind_capCh (c : Nat) : OutBlind fun s => s.capCh c := 
  outBlind_cap.map fun x => Sparse.get (fun _ => ({} : CapCh)) x.ch c

theorem outBlind_capState (c : Nat) : OutBlind fun s => s.capState c := outBlind_rd (by decide)

theorem OutBlind.prod {α β : Type} {view : State → α} {view' : State → β} (hb : OutBlind view) (hb' : OutBlind view') :
    OutBlind fun s => (view s, view' s) where
  reg t o v h := Prod.ext (hb.reg t o v h) (hb'.reg t o v h)
  mem t x := Prod.ext (hb.mem t x) (hb'.mem t x)
  fab t x := Prod.ext (hb.fab t x) (hb'.fab t x)
  dsp t x := Prod.ext (hb.dsp t x) (hb'.dsp t x)
  host t x := Prod.ext (hb.host t x) (hb'.host t x)
  hostMem t x := Prod.ext (hb.hostMem t x) (hb'.hostMem t x)
  event t code sev source pay nme := Prod.ext (hb.event t code sev source pay nme) (hb'.event t code sev source pay nme)

theorem outBlind_rd64 {f : Field} {i : Nat} (h : 0x400000 ≤ f.base) : OutBlind fun s => s.rd64 f i := by
  have hreg {o : Nat} (ho : 0x400000 ≤ o) : OutBlind fun s => s.rdReg o := by
    simpa only [State.rdReg_eq_rd] using outBlind_rd (f := ⟨o, 0, 0, 31, 0⟩) (i := 0) (j := 0) ho
  have hoff : 0x400000 ≤ f.off i 0 := Nat.le_trans h Field.base_le_off
  exact ((hreg hoff).prod (hreg (Nat.le_add_right_of_le hoff))).map fun w => w.1 + 2 ^ 32 * w.2

/-- Another channel's state. -/
theorem chBlind_capCh {c k : Nat} (h : k ≠ c) : ChBlind c fun s => s.capCh k where
  toOutBlind := outBlind_capCh k
  ch _ _ := State.capCh_setCapCh_other _ _ h
  own _ _ _ _ := rfl

theorem State.rd_reports_other {c k : Nat} {f : Field} (h : ¬ capReports c (f.off k 0)) (t : State) (o v : Nat)
    (ho : capReports c o) : (t.wrReg o v).rd f k = t.rd f k := by
  rw [State.rd, State.rdReg_wrReg, if_neg fun e : f.off k 0 = o => h (e ▸ ho), State.rd]

/-- A field of another channel, or of a channel's configuration. -/
theorem chBlind_rd {c k : Nat} {f : Field} (hf : f.ofChannel) (hk : k < 16) (h : k ≠ c ∨ f.base < 0x440060) :
    ChBlind c fun s => s.rd f k where
  toOutBlind := outBlind_rd (Nat.le_trans (by decide) hf.1)
  ch _ _ := rfl
  own := State.rd_reports_other (hf.not_reports hk h)

theorem takeBlind_rd {c k : Nat} {f : Field} (hf : f.ofChannel) (hk : k < 16) (h : k ≠ c ∨ f.base < 0x440060) :
    TakeBlind c fun s => s.rd f k where
  toOutBlind := outBlind_rd (Nat.le_trans (by decide) hf.1)
  cap _ _ _ _ := rfl
  own := State.rd_reports_other (hf.not_reports hk h)
  ela t := t.elaAgain_rd fun hs => by
    have hoff : 0x440000 ≤ f.off k 0 := Nat.le_trans hf.1 Field.base_le_off
    rw [showsLevels] at hs
    omega

theorem State.elaAgain_tb (s : State) : s.elaAgain.tb = s.tb :=
  s.elaAgain_keeps (fun _ _ _ => rfl) (fun _ _ => rfl) (fun _ _ => rfl) (fun _ _ => rfl) fun _ => rfl

theorem takeBlind_tb (c : Nat) : TakeBlind c State.tb where
  toOutBlind := outBlind_tb
  cap _ _ _ _ := rfl
  own _ _ _ _ := rfl
  ela := State.elaAgain_tb

theorem redBlind_core (c : Nat) : RedBlind c fun s => (s.capCh c).core where
  toOutBlind := (outBlind_capCh c).map CapCh.core
  red t x h := (congrArg CapCh.core (t.capCh_setCapCh_self c x)).trans h
  rpoison _ _ := congrArg CapCh.core (State.capCh_wr ..)

theorem redBlind_trigOut (c : Nat) : RedBlind c fun s => s.cap.trigOut where
  toOutBlind := outBlind_cap.map CapSt.trigOut
  red _ _ _ := rfl
  rpoison _ _ := congrArg CapSt.trigOut (State.wr_cap ..)

/-- A field of the channel other than RPOISON. -/
theorem redBlind_rd {c k : Nat} {f : Field} (hf : 0x400000 ≤ f.base)
    (h : ∀ (t : State) v, (t.wr F.CAP_CH_STAT.RPOISON v c).rd f k = t.rd f k) : RedBlind c fun s => s.rd f k where
  toOutBlind := outBlind_rd hf
  red _ _ _ := rfl
  rpoison := h

theorem redBlind_capState (c : Nat) : RedBlind c fun s => s.capState c :=
  redBlind_rd (by decide) fun _ _ => State.rd_wr_bits _ (by decide)

end Sys2Proof.Machine
end

section
/-! PROOF. Reductions, snapshots, and how a channel's segment and its run end: what each leaves alone (R328 to R336). -/

namespace Sys2Proof.Machine

/-! ### Reductions (R332 to R336) -/

theorem CapCh.core_sweep (x : CapCh) (j : Option Nat) : ({ x with sweep := j } : CapCh).core = x.core := rfl

namespace RedBlind

variable {c : Nat} {α : Type} {view : State → α} (hb : RedBlind c view) (s : State)
include hb

theorem redClear : view (s.redClear c) = view s := (hb.red _ _ (by rfl)).trans (hb.put ..)

theorem redArm : view (s.redArm c) = view s := by
  unfold State.redArm
  dsimp only
  exact (hb.red _ _ (CapCh.core_sweep ..)).trans (hb.redClear s)

theorem capLoad (a n : Nat) : view (s.capLoad c a n).2 = view s := hb.memRead ..

theorem histAdd (k : Nat) : view (s.histAdd c k) = view s := (hb.put ..).trans (hb.capLoad ..)

theorem histValue (u : Int) : view (s.histValue c u) = view s := hb.histAdd ..

theorem persistDecay : view (s.persistDecay c) = view s := by
  unfold State.persistDecay
  dsimp only
  split
  · rfl
  · exact State.each_keeps _ _ fun t i => (hb.put ..).trans (hb.capLoad t ..)

theorem persistAdd (j : Nat) (v : Int) : view (s.persistAdd c j v) = view s := by
  unfold State.persistAdd
  dsimp only
  split
  · exact (hb.red _ _ (by rfl)).trans (State.onlyIf_keeps _ _ fun t => (hb.put ..).trans (hb.capLoad t ..))
  · rw [State.onlyIf_keeps _ _ fun t => hb.persistDecay t]
    exact (hb.red _ _ (by rfl)).trans (State.onlyIf_keeps _ _ fun t => (hb.put ..).trans (hb.capLoad t ..))

theorem mmFlush : view (s.mmFlush c) = view s := by
  have hcore (t : State) (r a : Nat) (l : List Byte) : ((t.put r a l).capCh c).core = (t.capCh c).core := (redBlind_core c).put ..
  unfold State.mmFlush
  dsimp only
  split
  · rfl
  · refine (hb.red _ _ ?_).trans ((hb.put ..).trans (hb.put ..))
    rw [hcore, hcore]
    rfl

theorem mmAdd (sample : Nat) : view (s.mmAdd c sample) = view s :=
  (State.onlyIf_keeps _ _ fun t => hb.mmFlush t).trans (hb.red _ _ (by rfl))

theorem reduce (i sample : Nat) (prev : Option Nat) (poison fired : Bool) :
    view (s.reduce c i sample prev poison fired) = view s := by
  unfold State.reduce
  dsimp only
  have hpoison := State.onlyIf_keeps s poison fun t => hb.rpoison t 1
  split
  · rfl
  · rw [← hpoison]
    split
    · exact hb.mmAdd ..
    · split
      · exact hb.histValue ..
      · split
        · split
          · exact (hb.histValue ..).trans (hb.red _ _ (by rfl))
          · exact hb.red _ _ (by rfl)
        · rfl
    · split
      · exact hb.persistAdd ..
      · rfl

theorem redStop : view (s.redStop c) = view s :=
  State.onlyIf_keeps _ _ fun t => (hb.put ..).trans (hb.mmFlush t)

theorem capSnapNow {q : CapSnap} (hq : q.ch = c) : view (s.capSnapNow q) = view s := by
  subst hq
  have hclear (t : State) : view ((t.onlyIf q.clear fun s => s.redClear q.ch).complete q.ref stDone ((s.capCh q.ch).idx - 1))
      = view t := (hb.complete ..).trans (State.onlyIf_keeps _ _ fun t => hb.redClear t)
  unfold State.capSnapNow
  dsimp only
  split
  · exact (hb.complete ..).trans (hb.memRead ..)
  · rw [hclear]
    split
    · exact (hb.memWrite ..).trans (hb.memRead ..)
    · exact (hb.hostSend ..).trans (hb.memRead ..)

end RedBlind

/-! ### A channel's run ends (R324, R331) -/

/-- A stopped channel takes no further sample, and its snapshots are settled: CAP_STOP and overflow, past the change of STATE. -/
def State.capEnd (s : State) (c : Nat) : State :=
  let s := s.redStop c
  let s := (s.setCapCh c { s.capCh c with pipe := [] }).showCapRate
  let due := s.cap.snaps.filter fun q => q.ch == c
  let s := s.setCap { s.cap with snaps := s.cap.snaps.filter fun q => q.ch != c }
  s.each due fun s q => if (s.capCh c).idx = 0 then s.complete q.ref stRefused else s.capSnapNow q

theorem State.capStop_eq (s : State) (c : Nat) : s.capStop c = (s.wr F.CAP_CH_STAT.STATE capStopped c).capEnd c := by
  unfold State.capStop State.capEnd
  rfl

section
variable {c : Nat} {α : Type} {view : State → α} (hb : RedBlind c view) (s : State)
  (hrate : ∀ (t : State) v, view (t.wr F.CAP_GLB_RATE.GBPS v) = view t)
  (hpipe : ∀ t : State, view (t.setCapCh c { t.capCh c with pipe := [] }) = view t)
  (hsnaps : ∀ (t : State) l, view (t.setCap { t.cap with snaps := l }) = view t)
include hb hrate hpipe hsnaps

theorem RedBlind.capEnd : view (s.capEnd c) = view s := by
  unfold State.capEnd
  dsimp only
  refine (State.each_keeps_of_mem _ _ fun t q hq => ?_).trans ((hsnaps ..).trans ((hrate ..).trans ((hpipe _).trans (hb.redStop s))))
  split
  · exact hb.complete ..
  · exact hb.capSnapNow _ (eq_of_beq (List.mem_filter.mp hq).2)

theorem RedBlind.capStop (hstate : ∀ (t : State) v, view (t.wr F.CAP_CH_STAT.STATE v c) = view t) :
    view (s.capStop c) = view s := by
  rw [State.capStop_eq, hb.capEnd _ hrate hpipe hsnaps, hstate]

end

theorem State.rd_wr_rate {f : Field} {k : Nat} (hf : f.ofChannel) (hk : k < 16) (t : State) (v : Nat) :
    (t.wr F.CAP_GLB_RATE.GBPS v).rd f k = t.rd f k := by
  refine t.rd_wr_other _ _ _ _ _ _ _ ?_
  obtain ⟨-, hhi, h1, h2⟩ := hf
  rw [Field.off_eq, h1, h2, show F.CAP_GLB_RATE.GBPS.off 0 0 = 0x441004 by decide]
  omega

/-- A channel that stops is in STOPPED. -/
theorem State.capStop_state (s : State) {c : Nat} (hc : c < 16) : (s.capStop c).capState c = capStopped := by
  have hend (t : State) : (t.capEnd c).capState c = t.capState c :=
    (redBlind_capState c).capEnd t (State.rd_wr_rate (by decide) hc) (fun _ => rfl) fun _ _ => rfl
  rw [State.capStop_eq, hend, State.capState, State.rd_wr_self _ (by decide)]

/-! ### Segments (R328 to R330) -/

/-- A channel whose segment has opened at t. -/
def CapCh.opened (x : CapCh) (t : Nat) : CapCh :=
  { x with
    isOpen := true, openAt := t, start := x.idx + (x.pipe.filter fun p => decide (p.ts < t)).length, trig := none, forced := false
    late := false, poison := [], dead := 0, lost := x.lostNew, lostNew := 0, seq := { at_ := t } }

/-- The state that an opened segment starts in. -/
def State.openState (s : State) (c : Nat) : Nat :=
  if s.rdb F.CAP_CH_MODE.PREFILL c && decide (0 < s.rd F.CAP_CH_PRE.PRE c) then capPrefill else capWait

theorem State.segOpen_eq (s : State) (c t : Nat) : s.segOpen c t =
    ((s.setCapCh c ((s.capCh c).opened t)).wr F.CAP_CH_STAT.STATE ((s.setCapCh c ((s.capCh c).opened t)).openState c) c).onlyIf
      (((s.setCapCh c ((s.capCh c).opened t)).wr F.CAP_CH_STAT.STATE ((s.setCapCh c ((s.capCh c).opened t)).openState c) c).rdb
        F.CAP_CH_MODE.RAW c) fun s => s.put (reqCapture c) (s.segAddr c + 5) [0] := by
  unfold State.segOpen State.openState CapCh.opened
  rfl

theorem State.openState_cases (s : State) (c : Nat) : s.openState c = 1 ∨ s.openState c = 2 := by
  unfold State.openState
  split
  · exact .inl rfl
  · exact .inr rfl

theorem OutBlind.segOpen {c : Nat} {α : Type} {view : State → α} (hb : OutBlind view) (s : State) (t : Nat) :
    ∃ n, (n = 1 ∨ n = 2) ∧ view (s.segOpen c t) = view ((s.setCapCh c ((s.capCh c).opened t)).wr F.CAP_CH_STAT.STATE n c) :=
  ⟨_, State.openState_cases _ c, by
    rw [State.segOpen_eq]
    exact State.onlyIf_keeps _ _ fun u => hb.put u ..⟩

theorem State.segOpen_state (s : State) (c t : Nat) : (s.segOpen c t).capState c = 1 ∨ (s.segOpen c t).capState c = 2 := by
  obtain ⟨n, hn, hview⟩ := (outBlind_capState c).segOpen (c := c) s t
  have hlt : n < 2 ^ 3 := by omega
  rw [hview, State.capState, State.rd_wr_self _ ⟨by decide, hlt⟩]
  exact hn

theorem State.segOpen_capCh (s : State) (c t : Nat) : (s.segOpen c t).capCh c = (s.capCh c).opened t := by
  obtain ⟨n, -, hview⟩ := (outBlind_capCh c).segOpen (c := c) s t
  rw [hview, State.capCh_wr, State.capCh_setCapCh_self]

theorem State.segOpen_rd (s : State) (c t : Nat) {f : Field} (hf : 0x400000 ≤ f.base)
    (h : ∀ (u : State) v, (u.wr F.CAP_CH_STAT.STATE v c).rd f c = u.rd f c) : (s.segOpen c t).rd f c = s.rd f c := by
  obtain ⟨n, -, hview⟩ := (outBlind_rd (i := c) (j := 0) hf).segOpen (c := c) s t
  exact hview.trans ((h ..).trans (State.rd_congr (State.setCap_regs ..) ..))

theorem ChBlind.segOpen {c : Nat} {α : Type} {view : State → α} (hb : ChBlind c view) (s : State) (t : Nat) :
    view (s.segOpen c t) = view s := by
  obtain ⟨n, -, hview⟩ := hb.toOutBlind.segOpen (c := c) s t
  exact hview.trans ((hb.wr _ (by decide) _).trans (hb.ch ..))

/-- A channel one of whose segments has closed. -/
def CapCh.shut (x : CapCh) : CapCh := { x with isOpen := false, closed := x.closed + 1 }

/-- A segment's closing header is written to its memory. -/
def State.segHead (s : State) (c : Nat) (overflow stopped : Bool) (good : Nat) : State :=
  s.onlyIf (s.rdb F.CAP_CH_MODE.RAW c) fun t =>
    t.put (reqCapture c) (s.segAddr c) (t.segHeader c overflow stopped (t.segSamples c) good)

/-- A closed segment is told as an event and to the dispatcher. -/
def State.segTell (s : State) (c : Nat) (x : CapCh) (a : Nat) : State :=
  let s := s.onlyIf (s.rdb F.CAP_CH_MODE.EVT c) fun s =>
    s.event 0x0901 sevInfo (sourceId 0x0901 0 c)
      (payload [(16, 8, x.closed), (24, 8, match x.trig with | some t => t.2 | none => 0)])
  s.onlyIf x.trig.isSome fun s => s.produce (64 + c) fun d =>
    slice d 0 48 ++ leBytes 8 (a / 16 + s.rd F.CAP_CH_STAT.SEG c * 2 ^ 32) ++ slice d 56 8

/-- The open segment is closed, before it is known whether the channel stops with it. -/
def State.segShut (s : State) (c : Nat) (overflow stopped : Bool) (good : Nat) : State :=
  (((s.segHead c overflow stopped good).setCapCh c (s.capCh c).shut).sat F.CAP_CH_DONE.COUNT c).segTell c (s.capCh c) (s.segAddr c)

/-- The segment that has closed is the channel's last (R329). -/
def State.lastSeg (s : State) (c : Nat) : Bool :=
  !s.rdb F.CAP_CH_MODE.RING c && s.rd F.CAP_CH_STAT.SEG c == s.rd F.CAP_CH_NSEG.NSEG_M1 c

theorem State.segClose_eq (s : State) (c : Nat) (overflow stopped : Bool) (good : Nat) :
    s.segClose c overflow stopped good = (s.segShut c overflow stopped good).onlyIf
      ((s.segShut c overflow stopped good).lastSeg c) fun t =>
        (t.event 0x0903 sevInfo (sourceId 0x0903 0 c) (payload [(16, 8, (s.capCh c).closed), (24, 8, t.now)])).wr
          F.CAP_CH_STAT.STATE capStopped c := by
  unfold State.segClose State.segShut State.segTell State.segHead State.lastSeg CapCh.shut
  rfl

namespace OutBlind

variable {c : Nat} {α : Type} {view : State → α} (hb : OutBlind view) (s : State) (overflow stopped : Bool) (good : Nat)
include hb

theorem segHead : view (s.segHead c overflow stopped good) = view s := State.onlyIf_keeps _ _ fun t => hb.put t ..

theorem segTell (x : CapCh) (a : Nat) : view (s.segTell c x a) = view s := by
  unfold State.segTell
  dsimp only
  rw [State.onlyIf_keeps _ _ fun t => hb.produce t ..]
  exact State.onlyIf_keeps _ _ fun t => hb.event t ..

variable (hch : ∀ t : State, view (t.setCapCh c (t.capCh c).shut) = view t)
  (hdone : ∀ (t : State) v, view (t.wr F.CAP_CH_DONE.COUNT v c) = view t)
include hch hdone

theorem segShut : view (s.segShut c overflow stopped good) = view s := by
  have hx : (s.segHead c overflow stopped good).capCh c = s.capCh c := (outBlind_capCh c).segHead ..
  rw [State.segShut, hb.segTell, State.sat, hdone, ← hx, hch, hb.segHead]

theorem segClose (hstate : ∀ (t : State) v, view (t.wr F.CAP_CH_STAT.STATE v c) = view t) :
    view (s.segClose c overflow stopped good) = view s := by
  rw [State.segClose_eq, State.onlyIf_keeps _ _ fun t => (hstate ..).trans (hb.event ..)]
  exact hb.segShut s overflow stopped good hch hdone

end OutBlind

section
variable (s : State) (c : Nat) (overflow stopped : Bool) (good : Nat)

theorem State.segClose_capCh : (s.segClose c overflow stopped good).capCh c = (s.capCh c).shut := by
  rw [State.segClose_eq, State.onlyIf_keeps (view := fun s => s.capCh c) _ _ fun t =>
    (State.capCh_wr ..).trans ((outBlind_capCh c).event ..), State.segShut, (outBlind_capCh c).segTell, State.sat,
    State.capCh_wr, State.capCh_setCapCh_self]

theorem State.segClose_count : (s.segClose c overflow stopped good).rd F.CAP_CH_DONE.COUNT c =
    min (2 ^ 32 - 1) (s.rd F.CAP_CH_DONE.COUNT c + 1) := by
  have hb : OutBlind fun s => s.rd F.CAP_CH_DONE.COUNT c := outBlind_rd (by decide)
  rw [State.segClose_eq, State.onlyIf_keeps (view := fun s => s.rd F.CAP_CH_DONE.COUNT c) _ _ fun t =>
    (State.rd_wr_word _ (by decide)).trans (hb.event ..), State.segShut, hb.segTell, State.rd_sat_at _ (by decide),
    State.setCapCh, State.rd_congr (State.setCap_regs ..), hb.segHead]
  rfl

theorem State.segShut_rd {f : Field} (hf : 0x400000 ≤ f.base)
    (h : ∀ (t : State) v, (t.wr F.CAP_CH_DONE.COUNT v c).rd f c = t.rd f c) :
    (s.segShut c overflow stopped good).rd f c = s.rd f c :=
  (outBlind_rd hf).segShut s overflow stopped good (fun _ => rfl) h

theorem State.segShut_lastSeg : (s.segShut c overflow stopped good).lastSeg c = s.lastSeg c := by
  unfold State.lastSeg State.rdb
  rw [s.segShut_rd c _ _ _ (by decide) fun _ _ => State.rd_wr_word _ (by decide),
    s.segShut_rd c _ _ _ (by decide) fun _ _ => State.rd_wr_word _ (by decide),
    s.segShut_rd c _ _ _ (by decide) fun _ _ => State.rd_wr_word _ (by decide)]

/-- After its last segment the channel is in STOPPED; else its state stays (R329). -/
theorem State.segClose_state : (s.segClose c overflow stopped good).capState c =
    if s.lastSeg c then capStopped else s.capState c := by
  have hshut : (s.segShut c overflow stopped good).capState c = s.capState c :=
    s.segShut_rd c _ _ _ (by decide) fun _ _ => State.rd_wr_word _ (by decide)
  rw [State.segClose_eq, State.segShut_lastSeg]
  cases s.lastSeg c with
  | false => rw [State.onlyIf_false, hshut, if_neg (by decide)]
  | true => rw [State.onlyIf_true, State.capState, State.rd_wr_self _ (by decide), if_pos rfl]

end

end Sys2Proof.Machine
end

section
/-! PROOF. Channels are armed and forced (R321 to R324, R328, R338). -/

namespace Sys2Proof.Machine

/-! ### The channels of a mask -/

theorem maskBits_nodup (n m : Nat) : (maskBits n m).Nodup := List.nodup_range.filter _

theorem maskBits_isEmpty {mask : BitVec 16} (h : mask ≠ 0) : (maskBits 16 mask.toNat).isEmpty = false := by
  refine Bool.eq_false_iff.mpr fun he => h (BitVec.eq_of_getLsbD_eq fun i hi => ?_)
  have hnone : i ∉ maskBits 16 mask.toNat := (List.isEmpty_iff.mp he) ▸ List.not_mem_nil
  rw [show (0 : BitVec 16).getLsbD i = false from BitVec.getLsbD_zero, ← bit_toNat]
  exact Bool.eq_false_iff.mpr fun hb => hnone (List.mem_filter.mpr ⟨List.mem_range.mpr hi, hb⟩)

/-! ### The arm instant (Table CAP-3) -/

/-- A channel's state and its counters are as an arm finds them. -/
def State.armReset (s : State) (t c : Nat) : State :=
  let s := s.setCapCh c { armT := t }
  let s := ((s.wr F.CAP_CH_STAT.STAGE 0 c).wr F.CAP_CH_STAT.OVF 0 c).wr F.CAP_CH_STAT.RPOISON 0 c
  let s := ((s.wr F.CAP_CH_STAT.SEG 0 c).wr F.CAP_CH_DONE.COUNT 0 c).wr F.CAP_CH_DEAD_MIN.TICKS 0xFFFFFFFF c
  (s.wr F.CAP_CH_DEAD_MAX.TICKS 0 c).wr F.CAP_CH_DEAD_LAST.TICKS 0 c

/-- Channel c starts at arm instant t. -/
def State.armStep (t : Nat) (s : State) (c : Nat) : State := ((s.armReset t c).redArm c).segOpen c t

theorem State.capStart_eq (s : State) (mask t : Nat) :
    s.capStart mask t = (s.each (maskBits 16 mask) (State.armStep t)).showCapRate := by
  unfold State.capStart State.armStep State.armReset
  rfl

section
variable (s : State) (t c : Nat)

theorem ChBlind.armStep {c : Nat} {α : Type} {view : State → α} (hb : ChBlind c view) : view (s.armStep t c) = view s := by
  rw [State.armStep, hb.segOpen, hb.red.redArm]
  unfold State.armReset
  dsimp only
  rw [hb.wr _ (by decide), hb.wr _ (by decide), hb.wr _ (by decide), hb.wr _ (by decide), hb.wr _ (by decide),
    hb.wr _ (by decide), hb.wr _ (by decide), hb.wr _ (by decide), hb.ch]

theorem State.armReset_capCh : (s.armReset t c).capCh c = { armT := t } := by
  unfold State.armReset
  dsimp only
  rw [State.capCh_wr, State.capCh_wr, State.capCh_wr, State.capCh_wr, State.capCh_wr, State.capCh_wr, State.capCh_wr,
    State.capCh_wr, State.capCh_setCapCh_self]

theorem State.armReset_counts :
    (s.armReset t c).rd F.CAP_CH_STAT.SEG c = 0 ∧ (s.armReset t c).rd F.CAP_CH_DONE.COUNT c = 0 := by
  unfold State.armReset
  dsimp only
  constructor
  · rw [State.rd_wr_word _ (by decide), State.rd_wr_word _ (by decide), State.rd_wr_word _ (by decide),
      State.rd_wr_word _ (by decide), State.rd_wr_self _ (by decide)]
  · rw [State.rd_wr_word _ (by decide), State.rd_wr_word _ (by decide), State.rd_wr_word _ (by decide),
      State.rd_wr_self _ (by decide)]

/-- What an arm shows of its channel: state, counters, and the channel's own state. -/
def State.armView (s : State) (c : Nat) : Nat × Nat × Nat × CapCh :=
  (s.capState c, s.rd F.CAP_CH_STAT.SEG c, s.rd F.CAP_CH_DONE.COUNT c, s.capCh c)

/-- A channel has started at arm instant t. -/
def startedAt (t : Nat) (v : Nat × Nat × Nat × CapCh) : Prop :=
  (v.1 = 1 ∨ v.1 = 2) ∧ v.2.1 = 0 ∧ v.2.2.1 = 0 ∧ v.2.2.2.armT = t ∧ v.2.2.2.isOpen = true ∧ v.2.2.2.idx = 0

theorem State.armStep_starts : startedAt t ((s.armStep t c).armView c) := by
  obtain ⟨hseg, hcount⟩ := s.armReset_counts t c
  have hcore : (((s.armReset t c).redArm c).capCh c).core = ({ armT := t } : CapCh).core := by
    rw [(redBlind_core c).redArm, State.armReset_capCh]
  have hch : (s.armStep t c).capCh c = (((s.armReset t c).redArm c).capCh c).opened t := State.segOpen_capCh ..
  refine ⟨State.segOpen_state .., ?_, ?_, ?_, ?_, ?_⟩
  · show (s.armStep t c).rd F.CAP_CH_STAT.SEG c = 0
    rw [State.armStep, State.segOpen_rd _ _ _ (by decide) fun _ _ => State.rd_wr_bits _ (by decide)]
    exact ((redBlind_rd (by decide) fun _ _ => State.rd_wr_bits _ (by decide)).redArm _).trans hseg
  · show (s.armStep t c).rd F.CAP_CH_DONE.COUNT c = 0
    rw [State.armStep, State.segOpen_rd _ _ _ (by decide) fun _ _ => State.rd_wr_word _ (by decide)]
    exact ((redBlind_rd (by decide) fun _ _ => State.rd_wr_word _ (by decide)).redArm _).trans hcount
  · show ((s.armStep t c).capCh c).armT = t
    rw [hch]
    exact congrArg CapCh.armT hcore
  · show ((s.armStep t c).capCh c).isOpen = true
    rw [hch]
    rfl
  · show ((s.armStep t c).capCh c).idx = 0
    rw [hch]
    exact congrArg CapCh.idx hcore

theorem State.armStep_other {c k : Nat} (hk : k < 16) (h : k ≠ c) : (s.armStep t c).armView k = s.armView k := by
  unfold State.armView State.capState
  rw [(chBlind_rd (f := F.CAP_CH_STAT.STATE) (by decide) hk (.inl h)).armStep,
    (chBlind_rd (f := F.CAP_CH_STAT.SEG) (by decide) hk (.inl h)).armStep,
    (chBlind_rd (f := F.CAP_CH_DONE.COUNT) (by decide) hk (.inl h)).armStep, (chBlind_capCh h).armStep]

theorem State.showCapRate_armView {k : Nat} (hk : k < 16) : s.showCapRate.armView k = s.armView k := by
  unfold State.showCapRate State.armView State.capState
  dsimp only
  rw [State.rd_wr_rate (by decide) hk, State.rd_wr_rate (by decide) hk, State.rd_wr_rate (by decide) hk,
    State.capCh_wr]

/-- The channels of the mask have started (Table CAP-3). -/
theorem State.capStart_starts {mask k : Nat} (hk : k ∈ maskBits 16 mask) : startedAt t ((s.capStart mask t).armView k) := by
  have hlt := maskBits_lt hk
  obtain ⟨u, -, hview⟩ := State.each_at (view := fun s => s.armView k) s (maskBits_nodup 16 mask) hk
    fun v i hi => v.armStep_other t hlt (Ne.symm hi)
  rw [State.capStart_eq, State.showCapRate_armView _ hlt, hview]
  exact State.armStep_starts ..

/-- The others stay as they were. -/
theorem State.capStart_other {mask k : Nat} (hk : k < 16) (h : k ∉ maskBits 16 mask) :
    (s.capStart mask t).armView k = s.armView k := by
  rw [State.capStart_eq, State.showCapRate_armView _ hk]
  exact State.each_keeps_of_mem (view := fun s => s.armView k) _ _ fun v i hi =>
    v.armStep_other t hk fun e => h (e ▸ hi)

end

theorem State.armView_congr {s t : State} (hc : t.cap = s.cap) (hr : ∀ f : Field, 0x400000 ≤ f.base → ∀ k, t.rd f k = s.rd f k)
    (k : Nat) : t.armView k = s.armView k := by
  rw [State.armView, State.capState, hr _ (by decide), hr _ (by decide), hr _ (by decide), State.capCh_congr hc]
  rfl

/-! ### CAP_ARM (R322, R324) -/

section
variable {s : State} {ref : CmdRef} {mask : BitVec 16} {when_ : BitVec 8} {T : BitVec 64} (ht : s.takes ref 0x0901)
include ht

theorem exec_capArm : exec (.capArm ref mask when_ T) s =
    .next ((s.accept ref 0x0901).capArm ref mask.toNat when_.toNat T.toNat) := by
  rw [exec, execCapArm, s.command_run _ _ _ ht]

end

/-- The channels armed, waiting for an arm, or in a mask (R322). -/
def State.capAll (s : State) (mask : Nat) : List Nat :=
  (List.range 16).filter fun c => s.capArmed c || (s.cap.arms.flatMap fun a => maskBits 16 a.2.1).contains c
    || (maskBits 16 mask).contains c

section
variable (s : State) (ref : CmdRef) {mask when_ t : Nat}

theorem State.capArm_range (h : maskBits 16 mask = [] ∨ (when_ ≠ 0 ∧ when_ ≠ 2)) :
    s.capArm ref mask when_ t = s.complete ref stRange := by
  have hc : ((maskBits 16 mask).isEmpty || (when_ != 0 && when_ != 2)) = true := by
    rcases h with h | ⟨h0, h2⟩
    · rw [h]
      rfl
    · rw [bne_iff_ne.mpr h0, bne_iff_ne.mpr h2, Bool.and_self, Bool.or_true]
  unfold State.capArm
  dsimp only
  rw [if_pos hc]

variable (hmask : (maskBits 16 mask).isEmpty = false) (hwhen : when_ = 0 ∨ when_ = 2)
include hmask hwhen

theorem armForm_ok : ¬ ((maskBits 16 mask).isEmpty || (when_ != 0 && when_ != 2)) = true := by
  rw [hmask]
  rcases hwhen with rfl | rfl <;> decide

theorem State.capArm_refused (h : ∃ c ∈ maskBits 16 mask, s.capArmRefused c = true) :
    s.capArm ref mask when_ t = s.complete ref stRefused := by
  unfold State.capArm
  dsimp only
  rw [if_neg (armForm_ok hmask hwhen), if_pos (List.any_eq_true.mpr h)]

variable (hfree : ∀ c ∈ maskBits 16 mask, s.capArmRefused c = false)
  (hrange : ∀ c ∈ maskBits 16 mask, s.capRangeOk (s.capAll mask) c = true) (htotal : s.capTotalOk (s.capAll mask) = true)
include hfree hrange htotal

/-- A mask whose channels may all be armed waits for its instant, or starts at once. -/
theorem State.capArm_passes : s.capArm ref mask when_ t =
    if when_ = 2 ∧ s.now < t then s.setCap { s.cap with arms := s.cap.arms ++ [(ref, mask, t)] }
    else (s.capStart mask s.now).complete ref stDone s.now := by
  have hnone : ¬ (maskBits 16 mask).any s.capArmRefused = true := fun h => by
    obtain ⟨c, hc, href⟩ := List.any_eq_true.mp h
    rw [hfree c hc] at href
    cases href
  have hfits : ¬ (!(maskBits 16 mask).all (s.capRangeOk (s.capAll mask)) || !s.capTotalOk (s.capAll mask)) = true := by
    rw [List.all_eq_true.mpr hrange, htotal]
    decide
  unfold State.capArm
  unfold State.capAll at hfits
  dsimp only
  rw [if_neg (armForm_ok hmask hwhen), if_neg hnone, if_neg hfits]

end

theorem State.accept_cap (s : State) (ref : CmdRef) (op : Nat) : (s.accept ref op).cap = s.cap :=
  State.units_cap (State.accept_units ..)

theorem State.accept_now (s : State) (ref : CmdRef) (op : Nat) : (s.accept ref op).now = s.now :=
  State.now_congr (State.units_tb (State.accept_units ..))

theorem State.accept_armView (s : State) (ref : CmdRef) (op k : Nat) : (s.accept ref op).armView k = s.armView k :=
  State.armView_congr (s.accept_cap ref op) (fun _ hf _ => (outBlind_rd hf).hostBlind.accept ..) k

section
variable {s : State} {ref : CmdRef} {mask : BitVec 16} {when_ : BitVec 8} {T : BitVec 64} (ht : s.takes ref 0x0901)
  (hmask : mask ≠ 0) (hwhen : when_ = 0 ∨ when_ = 2)
  (hfree : ∀ c ∈ maskBits 16 mask.toNat, (s.accept ref 0x0901).capArmRefused c = false)
  (hrange : ∀ c ∈ maskBits 16 mask.toNat,
    (s.accept ref 0x0901).capRangeOk ((s.accept ref 0x0901).capAll mask.toNat) c = true)
  (htotal : (s.accept ref 0x0901).capTotalOk ((s.accept ref 0x0901).capAll mask.toNat) = true)

theorem when_toNat (hwhen : when_ = 0 ∨ when_ = 2) : when_.toNat = 0 ∨ when_.toNat = 2 :=
  hwhen.imp (fun h => by rw [h]; rfl) fun h => by rw [h]; rfl

include ht hmask hwhen hfree hrange htotal

theorem capArm_waits (h2 : when_ = 2) (hnow : s.now < T.toNat) : ∃ t, exec (.capArm ref mask when_ T) s = .next t ∧
    t.cap.arms = s.cap.arms ++ [(ref, mask.toNat, T.toNat)] ∧ t.cap.ch = s.cap.ch ∧ t.mem = s.mem ∧ t.events = s.events := by
  have hw : when_.toNat = 2 ∧ (s.accept ref 0x0901).now < T.toNat := ⟨by rw [h2]; rfl, by rwa [State.accept_now]⟩
  refine ⟨_, (exec_capArm ht).trans (congrArg _ ((State.capArm_passes _ ref (maskBits_isEmpty hmask) (when_toNat hwhen)
    hfree hrange htotal).trans (if_pos hw))), ?_, ?_, ?_, ?_⟩
  · rw [State.setCap_cap, State.accept_cap]
  · rw [State.setCap_cap, State.accept_cap]
  · rw [State.setCap_mem, State.accept_mem]
  · rw [State.setCap_events, State.accept_events]

theorem capArm_starts (h : when_ = 0 ∨ T.toNat ≤ s.now) : ∃ t v : State, exec (.capArm ref mask when_ T) s = .next t ∧
    t = v.complete ref stDone s.now ∧
    (∀ c ∈ maskBits 16 mask.toNat, (v.capState c = 1 ∨ v.capState c = 2) ∧ (v.capCh c).armT = s.now ∧
      (v.capCh c).isOpen = true ∧ (v.capCh c).idx = 0 ∧ v.rd F.CAP_CH_STAT.SEG c = 0 ∧ v.rd F.CAP_CH_DONE.COUNT c = 0) ∧
    ∀ c, c < 16 → c ∉ maskBits 16 mask.toNat → v.capState c = s.capState c ∧ v.capCh c = s.capCh c := by
  have hw : ¬ (when_.toNat = 2 ∧ (s.accept ref 0x0901).now < T.toNat) := by
    rintro ⟨h2, hlt⟩
    rw [State.accept_now] at hlt
    rcases h with rfl | h
    · exact absurd h2 (by decide)
    · omega
  refine ⟨_, (s.accept ref 0x0901).capStart mask.toNat s.now, (exec_capArm ht).trans (congrArg _ ((State.capArm_passes _ ref
    (maskBits_isEmpty hmask) (when_toNat hwhen) hfree hrange htotal).trans (if_neg hw))), ?_, fun c hc => ?_, fun c hc hn => ?_⟩
  · rw [State.accept_now]
  · obtain ⟨hstate, hseg, hcount, harm, hopen, hidx⟩ := (s.accept ref 0x0901).capStart_starts s.now hc
    exact ⟨hstate, harm, hopen, hidx, hseg, hcount⟩
  · have hview := ((s.accept ref 0x0901).capStart_other s.now hc hn).trans (s.accept_armView ref _ c)
    exact ⟨congrArg (fun v => v.1) hview, congrArg (fun v => v.2.2.2) hview⟩

end

/-! ### CAP_ARM_INSTANT (R324) -/

section
variable {s : State} {ref : CmdRef} {mask T : Nat} (ha : s.alive = true)
  (harm : s.cap.arms.find? (fun a => a.1 == ref) = some (ref, mask, T))
include ha harm

theorem exec_capArmInstant_early (h : s.now < T) : exec (.capArmInstant ref) s = .next s := by
  rw [exec, execCapArmInstant, s.live_run _ ha, harm]
  dsimp only
  rw [if_pos h]

/-- The commands that wait for an arm instant, without one. -/
def State.armTaken (s : State) (ref : CmdRef) : State :=
  s.setCap { s.cap with arms := s.cap.arms.filter fun x => x.1 != ref }

theorem exec_capArmInstant_due (h : T ≤ s.now) :
    exec (.capArmInstant ref) s = .next (((s.armTaken ref).capStart mask T).complete ref stDone T) := by
  rw [exec, execCapArmInstant, s.live_run _ ha, harm]
  dsimp only
  rw [if_neg (Nat.not_lt.mpr h), State.armTaken]

end

theorem OutBlind.armStep {c : Nat} {α : Type} {view : State → α} (hb : OutBlind view) (s : State) (t : Nat)
    (hch : ∀ (u : State) x, view (u.setCapCh c x) = view u) (hwr : ∀ (u : State) f v, view (u.wr f v c) = view u) :
    view (s.armStep t c) = view s := by
  have hred (u : State) : view (u.redArm c) = view u := (hch ..).trans ((hch ..).trans (hb.put ..))
  obtain ⟨n, -, hopen⟩ := hb.segOpen (c := c) ((s.armReset t c).redArm c) t
  rw [State.armStep, hopen, hwr, hch, hred]
  unfold State.armReset
  dsimp only
  rw [hwr, hwr, hwr, hwr, hwr, hwr, hwr, hwr, hch]

theorem State.capStart_arms (s : State) (mask t : Nat) : (s.capStart mask t).cap.arms = s.cap.arms := by
  have hstep (u : State) (c : Nat) : (u.armStep t c).cap.arms = u.cap.arms :=
    (outBlind_cap.map CapSt.arms).armStep u t (fun _ _ => rfl) fun _ _ _ => congrArg CapSt.arms (State.wr_cap ..)
  rw [State.capStart_eq]
  unfold State.showCapRate
  dsimp only
  rw [State.wr_cap]
  exact State.each_keeps (view := fun s => s.cap.arms) _ _ hstep

/-! ### CAP_FORCE and its register (R324, R338) -/

section
variable (s : State) (mask : Nat)

theorem State.capForce_keeps {α : Type} {view : State → α} (h : ∀ t x, view (State.setCap t x) = view t) :
    view (s.capForce mask) = view s := State.each_keeps _ _ fun _ _ => h ..

theorem State.capForce_capCh (c : Nat) : (s.capForce mask).capCh c =
    if c ∈ maskBits 16 mask ∧ s.capArmed c = true then (s.capCh c).present s.now 9 0 0 else s.capCh c := by
  have hother (t : State) (i : Nat) (h : c ≠ i) (x : CapCh) : ((t.setCapCh i x).capCh c, (t.setCapCh i x).tb) = (t.capCh c, t.tb) :=
    Prod.ext (State.capCh_setCapCh_other i x h) rfl
  unfold State.capForce
  split
  next h =>
    obtain ⟨u, hu, hview⟩ := State.each_at (view := fun s => (s.capCh c, s.tb))
      (f := fun s c => s.setCapCh c ((s.capCh c).present s.now 9 0 0)) s ((maskBits_nodup 16 mask).filter _)
      (List.mem_filter.mpr h) fun t i hi => hother t i (Ne.symm hi) _
    obtain ⟨hch, htb⟩ := Prod.ext_iff.mp hu
    calc _ = (u.setCapCh c ((u.capCh c).present u.now 9 0 0)).capCh c := congrArg Prod.fst hview
      _ = (u.capCh c).present u.now 9 0 0 := State.capCh_setCapCh_self ..
      _ = _ := by rw [show u.capCh c = s.capCh c from hch, State.now_congr (show u.tb = s.tb from htb)]
  next h =>
    exact State.each_keeps_of_mem (view := fun s => s.capCh c) _ _ fun t i hi =>
      State.capCh_setCapCh_other i _ fun e => h (List.mem_filter.mp (e ▸ hi))

end

theorem exec_capForce {s : State} {ref : CmdRef} {mask : BitVec 16} (ht : s.takes ref 0x0903) (hmask : mask ≠ 0) :
    exec (.capForce ref mask) s = .next (((s.accept ref 0x0903).capForce mask.toNat).complete ref stDone) := by
  rw [exec, execCapForce, s.command_run _ _ _ ht, if_neg hmask]

theorem exec_capForceRegisterWrite {s : State} {v : BitVec 32} (ho : s.bar0Open 0x441008 = true) :
    exec (.capForceRegisterWrite v) s = .next (s.capForce (v.toNat % 2 ^ 16)) := by
  rw [exec, execCapForceRegisterWrite, ho, State.onlyIf_true]
  rfl

end Sys2Proof.Machine
end

section
/-! PROOF. The evaluation of a sample, and what it leaves alone (R319, R320, R326 to R331). -/

namespace Sys2Proof.Machine

/-! ### Events presented to channels (R327) -/

theorem Sparse.get_foldl_set {α : Type} [DecidableEq α] (d : Nat → α) (q : Nat → Bool) (g : Nat → α) (l : List Nat)
    (m : List (Nat × α)) (k : Nat) :
    Sparse.get d (l.foldl (fun m c => if q c then Sparse.set d m c (g c) else m) m) k =
      if k ∈ l ∧ q k = true then g k else Sparse.get d m k := by
  induction l generalizing m with
  | nil => rw [List.foldl_nil, if_neg fun h => List.not_mem_nil h.1]
  | cons a l ih =>
    have hhead : Sparse.get d (if q a = true then Sparse.set d m a (g a) else m) k =
        if k = a ∧ q a = true then g a else Sparse.get d m k := by
      by_cases hq : q a = true
      · rw [if_pos hq, Sparse.get_set]
        exact if_congr (and_iff_left hq).symm rfl rfl
      · rw [if_neg hq, if_neg fun h => hq h.2]
    rw [List.foldl_cons, ih, hhead]
    by_cases hk : k ∈ l ∧ q k = true
    · rw [if_pos hk, if_pos ⟨List.mem_cons_of_mem _ hk.1, hk.2⟩]
    · rw [if_neg hk]
      by_cases ha : k = a ∧ q a = true
      · obtain ⟨rfl, hq⟩ := ha
        rw [if_pos ⟨rfl, hq⟩, if_pos ⟨List.mem_cons_self, hq⟩]
      · rw [if_neg ha, if_neg]
        rintro ⟨hmem, hq⟩
        rcases List.mem_cons.mp hmem with rfl | hl
        · exact ha ⟨rfl, hq⟩
        · exact hk ⟨hl, hq⟩

section
variable (s : State) (p : Nat → Bool) (f : Nat → CapCh → CapCh) (k : Nat)

/-- What happens to the armed channels that pass a test happens to no other. -/
theorem State.onArmed_capCh : (s.onArmed p f).capCh k =
    if k < 16 ∧ s.capArmed k = true ∧ p k = true then f k (s.capCh k) else s.capCh k := by
  rw [State.capCh, State.onArmed, State.setCap_cap, Sparse.get_foldl_set]
  simp only [List.mem_range, Bool.and_eq_true, State.capCh]

theorem State.onArmed_keeps {β : Type} (g : CapCh → β) (hf : ∀ c x, g (f c x) = g x) :
    g ((s.onArmed p f).capCh k) = g (s.capCh k) := by
  rw [State.onArmed_capCh]
  split
  · exact hf ..
  · rfl

end

/-- An event joins a channel's events and changes nothing else of it. -/
theorem CapCh.present_keeps {β : Type} (g : CapCh → β) (hg : ∀ (x : CapCh) l, g { x with evts := l } = g x)
    (x : CapCh) (at_ kind unit pol : Nat) : g (x.present at_ kind unit pol) = g x := by
  unfold CapCh.present
  dsimp only
  split
  · rfl
  · exact hg ..

/-- An event presented to the armed channels changes nothing of a channel but its events. -/
theorem State.capNotify_keeps {β : Type} (g : CapCh → β) (hg : ∀ (x : CapCh) l, g { x with evts := l } = g x) (s : State)
    (kind unit pol k : Nat) : g ((s.capNotify kind unit pol).capCh k) = g (s.capCh k) :=
  s.onArmed_keeps _ _ k g fun _ x => x.present_keeps g hg ..

/-! ### What the array presents to the engine when it settles (R172, R327) -/

section
variable {α : Type} {view : State → α} (s : State) (hreg : ∀ t o v, view (State.wrReg t o v) = view t)
  (hpins : ∀ t x, view (State.setPins t x) = view t) (hela : ∀ t x, view (State.setEla t x) = view t)
  (hburn : ∀ t, view (State.burn t) = view t)
  (hnotify : ∀ t kind unit pol, view (State.capNotify t kind unit pol) = view t)

include hnotify in
theorem State.hubEdges_notifies (hub : BitVec 48) : view (s.hubEdges hub) = view s := State.each_keeps _ _ fun _ _ => hnotify ..

include hreg hpins hela hnotify

theorem State.elaPublish_notifies (x : ElaCtx) (v : ElaVal) : view (s.elaPublish x v) = view s := by
  unfold State.elaPublish
  calc view _
    _ = _ := (hreg ..).trans ((hreg ..).trans (hela ..))
    _ = _ := State.hubEdges_notifies _ hnotify _
    _ = view s := s.elaDrives_keeps hreg hpins ..

theorem State.elaOff_notifies (inp : ElaIn) : view (s.elaOff inp) = view s := by
  unfold State.elaOff
  calc view _
    _ = _ := State.elaNets_keeps _ hreg hela _
    _ = _ := (hreg ..).trans (hreg ..)
    _ = _ := State.elaDrives_keeps _ hreg hpins ..
    _ = _ := hela ..
    _ = view s := s.hubEdges_notifies hnotify _

include hburn

/-- When the array settles, the engine is told of the hub signals that moved, and of nothing else. -/
theorem State.elaAgain_notifies : view s.elaAgain = view s := by
  have hmove (t : State) (inp : ElaIn) : view (t.elaMove inp) = view t := by
    unfold State.elaMove
    calc view _
      _ = _ := State.elaNets_keeps _ hreg hela _
      _ = _ := State.elaPublish_notifies _ hreg hpins hela hnotify ..
      _ = _ := (hburn _).trans (hela ..)
      _ = view t := State.onlyIf_keeps _ _ fun _ => hela ..
  unfold State.elaAgain State.elaStep
  split
  · exact s.elaOff_notifies hreg hpins hela hnotify _
  · rw [hmove, hmove]

end

/-- Of a channel's state, all but its events outlasts the settling of the array. -/
theorem State.elaAgain_capCh {β : Type} (g : CapCh → β) (hg : ∀ (x : CapCh) l, g { x with evts := l } = g x) (s : State)
    (k : Nat) : g (s.elaAgain.capCh k) = g (s.capCh k) :=
  State.elaAgain_notifies (view := fun s => g (s.capCh k)) s (fun _ _ _ => rfl) (fun _ _ => rfl) (fun _ _ => rfl) (fun _ => rfl)
    fun t kind unit pol => t.capNotify_keeps g hg kind unit pol k

theorem State.elaAgain_snaps (s : State) : s.elaAgain.cap.snaps = s.cap.snaps :=
  State.elaAgain_notifies (view := fun s => s.cap.snaps) s (fun _ _ _ => rfl) (fun _ _ => rfl) (fun _ _ => rfl) (fun _ => rfl)
    fun _ _ _ _ => rfl

theorem State.elaAgain_trigOut (s : State) : s.elaAgain.cap.trigOut = s.cap.trigOut :=
  State.elaAgain_notifies (view := fun s => s.cap.trigOut) s (fun _ _ _ => rfl) (fun _ _ => rfl) (fun _ _ => rfl) (fun _ => rfl)
    fun _ _ _ _ => rfl

/-- The samples of a channel that wait. -/
theorem takeBlind_pipe (c k : Nat) : TakeBlind c fun s => (s.capCh k).pipe where
  toOutBlind := (outBlind_capCh k).map CapCh.pipe
  cap _ _ _ h := h k
  own _ _ _ _ := rfl
  ela t := t.elaAgain_capCh CapCh.pipe (fun _ _ => rfl) k

/-- The snapshots that wait. -/
theorem takeBlind_snaps (c : Nat) : TakeBlind c fun s => s.cap.snaps where
  toOutBlind := outBlind_cap.map CapSt.snaps
  cap _ _ h _ := h
  own _ _ _ _ := rfl
  ela := State.elaAgain_snaps

/-! ### Steps of an evaluation (R326 to R330) -/

/-- A record has ended with the sample of timestamp ts. -/
def CapCh.died (x : CapCh) (ts : Nat) : CapCh := { x with deadFrom := some ts, shadow := { at_ := ts } }

/-- The end of the record, if sample i is its last. -/
def State.recordEnds (s : State) (c i ts : Nat) : State :=
  match (s.capCh c).trig with
  | some t =>
    if s.capState c = capPost ∧ t.1 + s.rd F.CAP_CH_POST.POST c ≤ i + 1 then
      (s.wr F.CAP_CH_STAT.STATE capDead c).setCapCh c ((s.capCh c).died ts)
    else s
  | none => s

/-- A sample's events are taken from the channel, and the sample is stored. -/
def State.sampleTaken (s : State) (c : Nat) (smp : CapSmp) : State :=
  let x := s.capCh c
  let n := s.capBytes c
  let calm := s.capCalm c
  let s := s.setCapCh c { x with
    evts := x.evts.filter fun e => decide (smp.ts < e.at_), quietTo := if calm then smp.ts else x.quietTo }
  let s := s.onlyIf (s.capState c == capWait && decide (x.openAt ≤ smp.ts)) fun s => s.deadEnd c smp.ts
  s.capStore c x.idx n (leBytes n (smp.word % 256 ^ n)) smp.poison

/-- A sample in the sequencer and in the reduction: `s` is the machine before it was stored, `u` after. -/
def State.sampleJudged (s u : State) (c : Nat) (smp : CapSmp) : Bool × State :=
  let x := s.capCh c
  let sample := smp.word % 256 ^ s.capBytes c
  let evts := x.evts.filter fun e => decide (e.at_ ≤ smp.ts)
  u.capSequence c x.idx smp.ts (fun k => u.stageHolds c k x.idx sample x.prev (Sparse.find x.edges k) evts) evts

/-- A channel that has evaluated sample i. -/
def CapCh.counted (y : CapCh) (i ts sample : Nat) (edges : List (Nat × Nat)) : CapCh :=
  { y with idx := i + 1, lastTs := ts, prev := some sample, edges := edges }

theorem State.capTake_eq (s : State) (c : Nat) (smp : CapSmp) : ∃ edges,
    let u := s.waitBegins c smp.ts
    let x := u.capCh c
    let sample := smp.word % 256 ^ u.capBytes c
    let r := u.sampleJudged (u.sampleTaken c smp) c smp
    let v := r.2.reduce c x.idx sample x.prev smp.poison r.1
    s.capTake c smp = (v.setCapCh c ((v.capCh c).counted x.idx smp.ts sample edges)).recordEnds c x.idx smp.ts :=
  ⟨_, rfl⟩

end Sys2Proof.Machine
end

section
/-! PROOF. What the evaluation of a sample leaves alone, and what it shows of its channel (R320, R326 to R331). -/

namespace Sys2Proof.Machine

/-- A channel whose sequencer waits from timestamp ts on. -/
def State.waitBegun (s : State) (c ts : Nat) : State :=
  (s.wr F.CAP_CH_STAT.STATE capWait c).setCapCh c { s.capCh c with seq := { at_ := ts } }

theorem State.waitBegins_cases (s : State) (c ts : Nat) :
    s.waitBegins c ts = s ∨ (s.capState c = capPrefill ∧ s.waitBegins c ts = s.waitBegun c ts) := by
  unfold State.waitBegins State.waitBegun
  dsimp only
  by_cases h : (s.capState c == capPrefill && decide ((s.capCh c).openAt ≤ ts)
      && decide (s.rd F.CAP_CH_PRE.PRE c ≤ (s.capCh c).idx - (s.capCh c).start)) = true
  · obtain ⟨⟨hstate, -⟩, -⟩ := Bool.and_eq_true_iff.mp h |>.imp Bool.and_eq_true_iff.mp id
    rw [h, State.onlyIf_true]
    exact .inr ⟨eq_of_beq hstate, rfl⟩
  · rw [Bool.eq_false_iff.mpr h, State.onlyIf_false]
    exact .inl rfl

/-- A channel that has triggered at sample i. -/
def CapCh.triggered (x : CapCh) (i ts : Nat) (forced late : Bool) : CapCh :=
  { x with trig := some (i, ts), forced := forced, late := late, seq := {} }

/-- A trigger shows at its output and is presented to the channels linked to it (R327, R328). -/
def State.trigTold (s : State) (c ts : Nat) : State :=
  s.setCap { s.cap with
    trigOut := if c < 8 then Sparse.insert s.cap.trigOut c (s.now + 16) else s.cap.trigOut
    ch := (s.onArmed (fun k => s.linkedTo k c) fun _ x => x.present ts 10 c 0).cap.ch }

theorem State.capTrigger_eq (s : State) (c i ts : Nat) (forced late : Bool) : s.capTrigger c i ts forced late =
    ((((s.setCapCh c ((s.capCh c).triggered i ts forced late)).trigTold c ts).wr F.CAP_CH_STAT.STATE capPost c).wr
      F.CAP_CH_STAT.STAGE 0 c).onlyIf (decide (c < 8)) State.elaAgain := by
  unfold State.capTrigger State.trigTold CapCh.triggered
  rfl

/-- Of a channel's state, a trigger told to others changes the events alone. -/
theorem State.trigTold_capCh {β : Type} (g : CapCh → β) (hg : ∀ (x : CapCh) l, g { x with evts := l } = g x) (s : State)
    (c ts k : Nat) : g ((s.trigTold c ts).capCh k) = g (s.capCh k) :=
  s.onArmed_keeps (fun k => s.linkedTo k c) (fun _ x => x.present ts 10 c 0) k g fun _ x => x.present_keeps g hg ..

namespace TakeBlind

variable {c : Nat} {α : Type} {view : State → α} (hb : TakeBlind c view) (s : State)
include hb

theorem waitBegins (ts : Nat) : view (s.waitBegins c ts) = view s := by
  rcases s.waitBegins_cases c ts with h | ⟨-, h⟩
  · rw [h]
  · rw [h]
    refine (hb.ch _ ?_).trans (hb.wr s (by decide) capWait)
    rw [State.capCh_wr]

theorem deadEnd (ts : Nat) : view (s.deadEnd c ts) = view s := by
  unfold State.deadEnd
  dsimp only
  split
  · rfl
  · refine (hb.wr _ (by decide) _).trans ((State.onlyIf_keeps _ _ fun t => hb.wr t (by decide) _).trans
      ((State.onlyIf_keeps _ _ fun t => hb.wr t (by decide) _).trans (hb.ch _ (by rfl))))

theorem capStore (i n : Nat) (data : List Byte) (poison : Bool) : view (s.capStore c i n data poison) = view s := by
  unfold State.capStore
  dsimp only
  split
  · rfl
  · exact (hb.memWrite ..).trans (hb.ch _ (by rfl))

theorem sampleTaken (smp : CapSmp) : view (s.sampleTaken c smp) = view s := by
  unfold State.sampleTaken
  dsimp only
  exact (hb.capStore ..).trans ((State.onlyIf_keeps _ _ fun t => hb.deadEnd t _).trans (hb.ch _ (by rfl)))

theorem capTrigger (i ts : Nat) (forced late : Bool) : view (s.capTrigger c i ts forced late) = view s := by
  have htold (t : State) : view (t.trigTold c ts) = view t :=
    hb.cap _ _ rfl fun k => t.trigTold_capCh CapCh.pipe (fun _ _ => rfl) c ts k
  rw [State.capTrigger_eq, State.onlyIf_keeps _ _ fun t => hb.ela t, hb.wr _ (by decide), hb.wr _ (by decide), htold]
  exact hb.ch _ rfl

theorem capSequence (i ts : Nat) (holds : Nat → Bool) (evts : List CapEvt) :
    view (s.capSequence c i ts holds evts).2 = view s := by
  unfold State.capSequence
  dsimp only
  split
  · split
    · exact hb.capTrigger ..
    · exact (hb.wr _ (by decide) _).trans (hb.ch _ (by rfl))
  · split
    · split
      · exact (hb.wr _ (by decide) _).trans (hb.ch _ (by rfl))
      · exact hb.ch _ (by rfl)
    · rfl

theorem recordEnds (i ts : Nat) : view (s.recordEnds c i ts) = view s := by
  unfold State.recordEnds
  split
  · split
    · refine (hb.ch _ ?_).trans (hb.wr _ (by decide) _)
      rw [State.capCh_wr]
      rfl
    · rfl
  · rfl

theorem capTake (smp : CapSmp) : view (s.capTake c smp) = view s := by
  obtain ⟨edges, h⟩ := s.capTake_eq c smp
  rw [h, hb.recordEnds, hb.ch _ (by rfl), hb.red.reduce]
  exact (hb.capSequence ..).trans ((hb.sampleTaken ..).trans (hb.waitBegins ..))

end TakeBlind

end Sys2Proof.Machine
end

section
/-! PROOF. Channels are stopped with the samples from before the stop (R324), and what arms, stops and forces them as a whole. -/

namespace Sys2Proof.Machine

/-! ### What stopping a channel leaves alone -/

namespace TakeBlind

variable {c : Nat} {α : Type} {view : State → α} (hb : TakeBlind c view) (s : State)
  (hcap : ∀ t x, view (State.setCap t x) = view t)
include hb hcap

theorem capOne (smp : CapSmp) : view (s.capOne c smp) = view s := by
  unfold State.capOne
  dsimp only
  refine (State.each_keeps_of_mem _ _ fun t q hq => ?_).trans ((hcap ..).trans ((hb.capTake ..).trans (hcap ..)))
  exact hb.red.capSnapNow t (eq_of_beq (Bool.and_eq_true_iff.mp (List.mem_filter.mp hq).2).1)

theorem capFlush : view (s.capFlush c) = view s :=
  State.each_keeps _ _ fun _ _ => State.onlyIf_keeps _ _ fun t => hb.capOne t hcap _

theorem segClose (overflow stopped : Bool) (good : Nat) : view (s.segClose c overflow stopped good) = view s :=
  hb.toOutBlind.segClose s overflow stopped good (fun _ => hcap ..) (fun t v => hb.wr t (by decide) v)
    fun t v => hb.wr t (by decide) v

theorem capStop : view (s.capStop c) = view s :=
  hb.red.capStop s (fun _ _ => hb.own _ _ _ (.inl (by decide))) (fun _ => hcap ..) (fun _ _ => hcap ..)
    fun t v => hb.wr t (by decide) v

end TakeBlind

/-! ### CAP_STOP (R324) -/

/-- An armed channel stops. -/
def State.stopStep (s : State) (c : Nat) : State :=
  (((s.capFlush c).onlyIf ((s.capFlush c).capCh c).isOpen fun s => s.segClose c false true 0)).capStop c

theorem State.capStopMask_eq (s : State) (mask : Nat) :
    s.capStopMask mask = s.each ((maskBits 16 mask).filter s.capArmed) State.stopStep := by
  unfold State.capStopMask State.stopStep
  rfl

theorem State.stopStep_other (s : State) {c k : Nat} (hk : k < 16) (h : k ≠ c) : (s.stopStep c).capState k = s.capState k := by
  have hb : TakeBlind c fun s => s.capState k := takeBlind_rd (by decide) hk (.inl h)
  rw [State.stopStep, hb.capStop _ fun _ _ => rfl, State.onlyIf_keeps (view := fun s => s.capState k) _ _ fun t =>
    hb.segClose t (fun _ _ => rfl) false true 0]
  exact hb.capFlush s fun _ _ => rfl

/-- CAP_STOP puts the armed channels of its mask into STOPPED and no other (R324). -/
theorem State.capStopMask_state (s : State) (mask : Nat) {c : Nat} (hc : c < 16) :
    (s.capStopMask mask).capState c = if c ∈ maskBits 16 mask ∧ s.capArmed c = true then capStopped else s.capState c := by
  rw [State.capStopMask_eq]
  split
  next h =>
    obtain ⟨u, -, hview⟩ := State.each_at (view := fun s => s.capState c) s ((maskBits_nodup 16 mask).filter _)
      (List.mem_filter.mpr h) fun t i hi => t.stopStep_other hc (Ne.symm hi)
    exact hview.trans (State.capStop_state _ hc)
  next h =>
    exact State.each_keeps_of_mem (view := fun s => s.capState c) _ _ fun t i hi =>
      t.stopStep_other hc fun e => h (List.mem_filter.mp (e ▸ hi))

theorem State.capArmed_congr {s t : State} {c : Nat} (h : t.capState c = s.capState c) : t.capArmed c = s.capArmed c := by
  unfold State.capState at h
  rw [State.capArmed, h, State.capArmed]

theorem State.accept_capState (s : State) (ref : CmdRef) (op c : Nat) : (s.accept ref op).capState c = s.capState c :=
  (outBlind_capState c).hostBlind.accept ..

theorem exec_capStop {s : State} {ref : CmdRef} {mask : BitVec 16} (ht : s.takes ref 0x0902) (hmask : mask ≠ 0) :
    exec (.capStop ref mask) s = .next (((s.accept ref 0x0902).capStopMask mask.toNat).complete ref stDone) := by
  rw [exec, execCapStop, s.command_run _ _ _ ht, if_neg hmask]

theorem capStop_stops {s : State} {ref : CmdRef} {mask : BitVec 16} (ht : s.takes ref 0x0902) (hmask : mask ≠ 0) :
    ∃ t v : State, exec (.capStop ref mask) s = .next t ∧ t = v.complete ref stDone ∧
      ∀ c, c < 16 → (c ∈ maskBits 16 mask.toNat → s.capArmed c = true → v.capState c = 5) ∧
        (c ∉ maskBits 16 mask.toNat ∨ s.capArmed c = false → v.capState c = s.capState c) := by
  refine ⟨_, (s.accept ref 0x0902).capStopMask mask.toNat, exec_capStop ht hmask, rfl, fun c hc => ?_⟩
  rw [State.capStopMask_state _ _ hc, State.capArmed_congr (s.accept_capState ref _ c), s.accept_capState]
  refine ⟨fun hm ha => if_pos ⟨hm, ha⟩, fun h => if_neg ?_⟩
  rintro ⟨hm, ha⟩
  rcases h with h | h
  · exact h hm
  · rw [ha] at h
    cases h

end Sys2Proof.Machine

open Sys2Proof Sys2Proof.Machine

/-- Settles O52: channels start, stop and are forced one by one, and what is done to one writes no other's state or registers
(`ChBlind`, `TakeBlind`). That a refused channel is found before the range of the settings is judged follows the order of
notes/assumptions/105.md. -/
theorem channelsArmStopAndForce : Obligations.ChannelsArmStopAndForce := by
  refine ⟨fun s ref mask when_ T ht => ⟨fun h => ?_, fun hmask hwhen href => ?_, fun hmask hwhen hfree hrange htotal =>
      ⟨capArm_waits ht hmask hwhen hfree hrange htotal, capArm_starts ht hmask hwhen hfree hrange htotal⟩⟩,
    fun s ref mask T ha harm => ⟨exec_capArmInstant_early ha harm, fun h => ?_⟩,
    fun s ref mask => capStop_stops, fun s mask c _ => ?_, fun s ref mask => exec_capForce,
    fun s v => exec_capForceRegisterWrite⟩
  · refine (exec_capArm ht).trans (congrArg _ (State.capArm_range _ ref (h.imp (fun h => ?_) fun ⟨h0, h2⟩ => ?_)))
    · rw [h]
      decide
    · exact ⟨fun e => h0 (BitVec.eq_of_toNat_eq e), fun e => h2 (BitVec.eq_of_toNat_eq e)⟩
  · exact (exec_capArm ht).trans (congrArg _ (State.capArm_refused _ ref (maskBits_isEmpty hmask) (when_toNat hwhen) href))
  · refine ⟨_, _, exec_capArmInstant_due ha harm h, rfl, ?_, fun c hc => ?_, fun c hc hn => ?_⟩
    · rw [State.capStart_arms, State.armTaken, State.setCap_cap]
    · obtain ⟨hstate, -, -, harmT, -, -⟩ := (s.armTaken ref).capStart_starts T hc
      exact ⟨hstate, harmT⟩
    · have hview := (s.armTaken ref).capStart_other T hc hn
      exact ⟨(congrArg (fun v => v.1) hview).trans rfl, (congrArg (fun v => v.2.2.2) hview).trans rfl⟩
  · exact ⟨s.capForce_capCh mask c, s.capForce_keeps mask fun _ _ => rfl, s.capForce_keeps mask fun _ _ => rfl,
      s.capForce_keeps mask fun _ _ => rfl, s.capForce_keeps mask fun _ _ => rfl⟩
end

section
/-! PROOF. Samples join their channels, and segments close (R319, R320, R328, R329). -/

namespace Sys2Proof.Machine

/-! ### Samples of a source (R319, R320) -/

theorem leNat_leBytes_bits (k n : Nat) : leNat (leBytes k n) = n % 2 ^ (8 * k) := by
  rw [leNat_leBytes, Nat.pow_mul]

theorem State.capFeed_pins (s : State) (unit ts word c : Nat) (poison : Bool) (hc : c < 16) (harmed : s.capArmed c = true)
    (hkind : s.rd F.CAP_CH_SRC.KIND c = 1) (ht : (s.capCh c).armT ≤ ts) :
    (s.capFeed 1 unit 0 ts poison (fun _ => true) fun _ => leBytes 64 word).capCh c = { s.capCh c with
      raw := (s.capCh c).raw + 1
      pipe := if (s.capCh c).raw % (s.rd F.CAP_CH_SRC.DIV_M1 c + 1) = 0 then (s.capCh c).pipe ++ [⟨ts, word % 2 ^ 512, poison⟩]
        else (s.capCh c).pipe } := by
  have hword : leNat (leBytes 64 word) = word % 2 ^ 512 := by
    have h := leNat_leBytes_bits 64 word
    rwa [show 8 * 64 = 512 from rfl] at h
  unfold State.capFeed
  dsimp only
  rw [State.onArmed_capCh, if_pos ⟨hc, harmed, by rw [hkind, decide_eq_true ht]; rfl⟩, hword]
  rfl

/-! ### SEGMENT_CLOSE (R329) -/

section
variable {s : State} {channel : BitVec 4} (ha : s.alive = true)
include ha

theorem exec_segmentClose_idle (h : s.capState channel.toNat ≠ 4) : exec (.segmentClose channel) s = .next s := by
  have hc : (s.capState channel.toNat != capDead || !(s.capCh channel.toNat).isOpen) = true := by
    rw [bne_iff_ne.mpr h, Bool.true_or]
  rw [exec, execSegmentClose, s.live_run _ ha, if_pos hc]

/-- The next segment's position is shown (R329). -/
def State.segNext (s : State) (c : Nat) : State :=
  s.wr F.CAP_CH_STAT.SEG
    (if s.rd F.CAP_CH_STAT.SEG c = s.rd F.CAP_CH_NSEG.NSEG_M1 c then 0 else s.rd F.CAP_CH_STAT.SEG c + 1) c

variable (hdead : s.capState channel.toNat = 4) (hopen : (s.capCh channel.toNat).isOpen = true)
include hdead hopen

theorem exec_segmentClose : exec (.segmentClose channel) s = .next
    (let t := s.segClose channel.toNat false false 0
    if t.capState channel.toNat == capStopped then t.capStop channel.toNat
    else (t.segNext channel.toNat).segOpen channel.toNat t.now) := by
  have hc : ¬ (s.capState channel.toNat != capDead || !(s.capCh channel.toNat).isOpen) = true := by
    rw [hdead, hopen]
    decide
  rw [exec, execSegmentClose, s.live_run _ ha]
  dsimp only
  rw [if_neg hc]
  rfl

theorem exec_segmentClose_last (hl : s.lastSeg channel.toNat = true) :
    exec (.segmentClose channel) s = .next ((s.segClose channel.toNat false false 0).capStop channel.toNat) := by
  have hstate : (s.segClose channel.toNat false false 0).capState channel.toNat = capStopped := by
    rw [State.segClose_state, if_pos hl]
  rw [exec_segmentClose ha hdead hopen]
  dsimp only
  rw [hstate, if_pos (by decide)]

theorem exec_segmentClose_next (hl : s.lastSeg channel.toNat = false) : exec (.segmentClose channel) s =
    .next (((s.segClose channel.toNat false false 0).segNext channel.toNat).segOpen channel.toNat
      (s.segClose channel.toNat false false 0).now) := by
  have hnl : ¬ s.lastSeg channel.toNat = true := by
    rw [hl]
    decide
  have hstate : (s.segClose channel.toNat false false 0).capState channel.toNat = 4 := by
    rw [State.segClose_state, if_neg hnl, hdead]
  rw [exec_segmentClose ha hdead hopen]
  dsimp only
  rw [hstate, if_neg (by decide)]

end

section
variable (s : State) {c : Nat} (hc : c < 16)
include hc

/-- What stopping a channel leaves of it. -/
theorem State.capStop_shut : ((s.capStop c).capCh c).closed = (s.capCh c).closed ∧
    ((s.capStop c).capCh c).isOpen = (s.capCh c).isOpen ∧
    (s.capStop c).rd F.CAP_CH_DONE.COUNT c = s.rd F.CAP_CH_DONE.COUNT c := by
  have hcore {β : Type} (g : CapCh → β) (hg : ∀ x : CapCh, g x.core = g x) (hpipe : ∀ x : CapCh, g { x with pipe := [] } = g x) :
      g ((s.capStop c).capCh c) = g (s.capCh c) := by
    have hb : RedBlind c fun s => g (s.capCh c) := ⟨(outBlind_capCh c).map g,
      fun t x h => by rw [State.capCh_setCapCh_self, ← hg x, h, hg], fun t v => by rw [State.capCh_wr]⟩
    refine hb.capStop s (fun t v => by rw [State.capCh_wr]) (fun t => ?_) (fun _ _ => rfl) fun t v => by rw [State.capCh_wr]
    rw [State.capCh_setCapCh_self, hpipe]
  refine ⟨hcore _ (fun _ => rfl) fun _ => rfl, hcore _ (fun _ => rfl) fun _ => rfl, ?_⟩
  exact (redBlind_rd (by decide) fun _ _ => State.rd_wr_word _ (by decide)).capStop s
    (State.rd_wr_rate (by decide) hc) (fun _ => rfl) (fun _ _ => rfl) fun _ _ => State.rd_wr_word _ (by decide)

/-- A channel whose last segment has closed is in STOPPED (R329). -/
theorem State.lastSegment_shows :
    let t := (s.segClose c false false 0).capStop c
    (t.capCh c).closed = (s.capCh c).closed + 1 ∧ t.rd F.CAP_CH_DONE.COUNT c = min (2 ^ 32 - 1) (s.rd F.CAP_CH_DONE.COUNT c + 1) ∧
      t.capState c = 5 ∧ (t.capCh c).isOpen = false := by
  obtain ⟨hclosed, hopen, hcount⟩ := (s.segClose c false false 0).capStop_shut hc
  refine ⟨?_, hcount.trans (s.segClose_count ..), State.capStop_state _ hc, ?_⟩
  · rw [hclosed, State.segClose_capCh]
    rfl
  · rw [hopen, State.segClose_capCh]
    rfl

omit hc in
/-- Where a channel's next segment follows its last one (R329). -/
theorem State.nextSegment_shows :
    let t := ((s.segClose c false false 0).segNext c).segOpen c (s.segClose c false false 0).now
    (t.capCh c).closed = (s.capCh c).closed + 1 ∧ t.rd F.CAP_CH_DONE.COUNT c = min (2 ^ 32 - 1) (s.rd F.CAP_CH_DONE.COUNT c + 1) ∧
      (t.capState c = 1 ∨ t.capState c = 2) ∧ (t.capCh c).isOpen = true ∧ (t.capCh c).openAt = s.now ∧
      (t.capCh c).start = (s.capCh c).idx + ((s.capCh c).pipe.filter fun p => decide (p.ts < s.now)).length ∧
      t.rd F.CAP_CH_STAT.SEG c = (if s.rd F.CAP_CH_STAT.SEG c = s.rd F.CAP_CH_NSEG.NSEG_M1 c then 0
        else (s.rd F.CAP_CH_STAT.SEG c + 1) % 2 ^ 16) := by
  have hnow : (s.segClose c false false 0).now = s.now :=
    State.now_congr (outBlind_tb.segClose s false false 0 (fun _ => rfl) (fun _ _ => State.wr_tb ..) fun _ _ => State.wr_tb ..)
  have hch : (((s.segClose c false false 0).segNext c).segOpen c s.now).capCh c = (s.capCh c).shut.opened s.now := by
    rw [State.segOpen_capCh, State.segNext, State.capCh_wr, State.segClose_capCh]
  have hseg : (s.segClose c false false 0).rd F.CAP_CH_STAT.SEG c = s.rd F.CAP_CH_STAT.SEG c :=
    (outBlind_rd (by decide)).segClose s false false 0 (fun _ => rfl) (fun _ _ => State.rd_wr_word _ (by decide))
      fun _ _ => State.rd_wr_bits _ (by decide)
  have hnseg : (s.segClose c false false 0).rd F.CAP_CH_NSEG.NSEG_M1 c = s.rd F.CAP_CH_NSEG.NSEG_M1 c :=
    (outBlind_rd (by decide)).segClose s false false 0 (fun _ => rfl) (fun _ _ => State.rd_wr_word _ (by decide))
      fun _ _ => State.rd_wr_word _ (by decide)
  dsimp only
  rw [hnow, hch]
  refine ⟨rfl, ?_, State.segOpen_state .., rfl, rfl, rfl, ?_⟩
  · rw [State.segOpen_rd _ _ _ (by decide) fun _ _ => State.rd_wr_word _ (by decide), State.segNext,
      State.rd_wr_word _ (by decide), State.segClose_count]
  · rw [State.segOpen_rd _ _ _ (by decide) fun _ _ => State.rd_wr_bits _ (by decide), State.segNext, hseg, hnseg,
      State.rd_wr_same _ _ _ _ _ ⟨by decide, by decide⟩]
    split
    · rfl
    · rfl

end

/-- SEGMENT_CLOSE closes the record of a channel in DEAD (R329). -/
theorem segmentClose_closes (s : State) (channel : BitVec 4) (ha : s.alive = true) :
    let c := channel.toNat
    (s.capState c ≠ 4 → exec (.segmentClose channel) s = .next s) ∧
    (s.capState c = 4 → (s.capCh c).isOpen = true → ∃ t, exec (.segmentClose channel) s = .next t ∧
      (t.capCh c).closed = (s.capCh c).closed + 1 ∧
      t.rd F.CAP_CH_DONE.COUNT c = min (2 ^ 32 - 1) (s.rd F.CAP_CH_DONE.COUNT c + 1) ∧
      (s.rdb F.CAP_CH_MODE.RING c = false → s.rd F.CAP_CH_STAT.SEG c = s.rd F.CAP_CH_NSEG.NSEG_M1 c →
        t.capState c = 5 ∧ (t.capCh c).isOpen = false) ∧
      (s.rdb F.CAP_CH_MODE.RING c = true ∨ s.rd F.CAP_CH_STAT.SEG c ≠ s.rd F.CAP_CH_NSEG.NSEG_M1 c →
        (t.capState c = 1 ∨ t.capState c = 2) ∧ (t.capCh c).isOpen = true ∧ (t.capCh c).openAt = s.now ∧
        (t.capCh c).start = (s.capCh c).idx + ((s.capCh c).pipe.filter fun p => decide (p.ts < s.now)).length ∧
        t.rd F.CAP_CH_STAT.SEG c = (if s.rd F.CAP_CH_STAT.SEG c = s.rd F.CAP_CH_NSEG.NSEG_M1 c then 0
          else (s.rd F.CAP_CH_STAT.SEG c + 1) % 2 ^ 16))) := by
  refine ⟨exec_segmentClose_idle ha, fun hdead hopen => ?_⟩
  by_cases hl : s.rdb F.CAP_CH_MODE.RING channel.toNat = false ∧
      s.rd F.CAP_CH_STAT.SEG channel.toNat = s.rd F.CAP_CH_NSEG.NSEG_M1 channel.toNat
  · have hlast : s.lastSeg channel.toNat = true := by
      rw [State.lastSeg, hl.1, hl.2, beq_self_eq_true]
      rfl
    obtain ⟨hclosed, hcount, hend⟩ := s.lastSegment_shows channel.isLt
    refine ⟨_, exec_segmentClose_last ha hdead hopen hlast, hclosed, hcount, fun _ _ => hend, fun h => ?_⟩
    rcases h with h | h
    · rw [hl.1] at h
      cases h
    · exact absurd hl.2 h
  · have hlast : s.lastSeg channel.toNat = false := by
      refine Bool.eq_false_iff.mpr fun h => hl ?_
      obtain ⟨hring, hseg⟩ := Bool.and_eq_true_iff.mp h
      exact ⟨Bool.not_eq_true' _ |>.mp hring, eq_of_beq hseg⟩
    obtain ⟨hclosed, hcount, hnext⟩ := s.nextSegment_shows (c := channel.toNat)
    exact ⟨_, exec_segmentClose_next ha hdead hopen hlast, hclosed, hcount, fun hr hs => absurd ⟨hr, hs⟩ hl, fun _ => hnext⟩

end Sys2Proof.Machine
end

section
/-! PROOF. CAPTURE_SAMPLE: the oldest sample of a channel is evaluated, or lost to a full buffer (R319, R320, R326 to R331). -/

namespace Sys2Proof.Machine

/-! ### The prefill is complete (R326) -/

theorem State.waitBegins_capCh {β : Type} (g : CapCh → β) (hg : ∀ (x : CapCh) q, g { x with seq := q } = g x) (s : State)
    (c ts : Nat) : g ((s.waitBegins c ts).capCh c) = g (s.capCh c) := by
  rcases s.waitBegins_cases c ts with h | ⟨-, h⟩
  · rw [h]
  · rw [h, State.waitBegun, State.capCh_setCapCh_self, hg]

theorem State.waitBegins_waiting (s : State) {c : Nat} (ts : Nat) (h : s.capState c = 2) : s.waitBegins c ts = s := by
  rcases s.waitBegins_cases c ts with hs | ⟨hp, -⟩
  · exact hs
  · rw [h] at hp
    cases hp

theorem State.capBytes_congr {s t : State} {c : Nat}
    (h : ∀ f : Field, f.ofChannel → f.base < 0x440060 → t.rd f c = s.rd f c) : t.capBytes c = s.capBytes c := by
  rw [State.capBytes, h _ (by decide) (by decide), State.capSel, h _ (by decide) (by decide), h _ (by decide) (by decide)]
  rfl

/-! ### A trigger (R326, R328) -/

section
variable (s : State) {c : Nat} (i ts : Nat)

/-- What a trigger leaves. -/
structure Triggered (s : State) (c i ts now : Nat) : Prop where
  state : s.capState c = 3
  trig : (s.capCh c).trig = some (i, ts)
  forced : (s.capCh c).forced = true
  out : c < 8 → Sparse.find s.cap.trigOut c = some (now + 16)

theorem State.capTrigger_shows (hc : c < 16) (late : Bool) : Triggered (s.capTrigger c i ts true late) c i ts s.now := by
  have hch {β : Type} (g : CapCh → β) (hg : ∀ (x : CapCh) l, g { x with evts := l } = g x) :
      g ((s.capTrigger c i ts true late).capCh c) = g ((s.capCh c).triggered i ts true late) := by
    rw [State.capTrigger_eq, State.onlyIf_keeps (view := fun s => g (s.capCh c)) _ _ fun t => t.elaAgain_capCh g hg c,
      State.capCh_wr, State.capCh_wr, State.trigTold_capCh g hg, State.capCh_setCapCh_self]
  refine ⟨?_, hch CapCh.trig fun _ _ => rfl, hch CapCh.forced fun _ _ => rfl, fun h8 => ?_⟩
  · have hela (t : State) : t.elaAgain.capState c = t.capState c := (takeBlind_rd (c := c + 1) (by decide) hc (.inl (by omega))).ela t
    rw [State.capTrigger_eq, State.onlyIf_keeps (view := fun s => s.capState c) _ _ hela, State.capState,
      State.rd_wr_bits _ (by decide), State.rd_wr_self _ (by decide)]
  · rw [State.capTrigger_eq, State.onlyIf_keeps (view := fun s => s.cap.trigOut) _ _ State.elaAgain_trigOut, State.wr_cap,
      State.wr_cap, State.trigTold, State.setCap_cap]
    dsimp only
    rw [if_pos h8, Sparse.find_insert, if_pos rfl]
    rfl

variable {s} {i} {ts} in
/-- What becomes of the sample in the reduction leaves the trigger alone. -/
theorem Triggered.reduce {now : Nat} (h : Triggered s c i ts now) (j sample : Nat) (prev : Option Nat) (poison fired : Bool) :
    Triggered (s.reduce c j sample prev poison fired) c i ts now := by
  have hcore : ((s.reduce c j sample prev poison fired).capCh c).core = (s.capCh c).core := (redBlind_core c).reduce ..
  have htrig : ((s.reduce c j sample prev poison fired).capCh c).core.trig = (s.capCh c).core.trig := by rw [hcore]
  have hforced : ((s.reduce c j sample prev poison fired).capCh c).core.forced = (s.capCh c).core.forced := by rw [hcore]
  refine ⟨((redBlind_capState c).reduce ..).trans h.state, htrig.trans h.trig, hforced.trans h.forced, fun h8 => ?_⟩
  rw [(redBlind_trigOut c).reduce]
  exact h.out h8

theorem State.capSequence_host (holds : Nat → Bool) {evts : List CapEvt} (hw : s.capState c = 2) (ho : (s.capCh c).openAt ≤ ts)
    (hhost : (evts.any fun e => e.kind == 9) = true) : ∃ late,
      s.capSequence c i ts holds evts = (true, s.capTrigger c i ts true late) := by
  refine ⟨evts.any (·.late), ?_⟩
  unfold State.capSequence
  dsimp only
  rw [if_pos ⟨hw, ho⟩, hhost, Bool.or_true, Bool.true_or, if_pos rfl, Bool.true_or]

end

/-! ### A sample before the sequencer (R323, R330) -/

section
variable (s : State) (c : Nat)

theorem State.deadEnd_state (ts : Nat) : (s.deadEnd c ts).capState c = s.capState c := by
  unfold State.deadEnd
  dsimp only
  split
  · rfl
  · unfold State.capState
    rw [State.rd_wr_word _ (by decide), State.onlyIf_keeps (view := fun s => s.rd F.CAP_CH_STAT.STATE c) _ _ fun t =>
      State.rd_wr_word _ (by decide), State.onlyIf_keeps (view := fun s => s.rd F.CAP_CH_STAT.STATE c) _ _ fun t =>
      State.rd_wr_word _ (by decide), State.setCapCh, State.rd_congr (State.setCap_regs ..)]

theorem State.deadEnd_openAt (ts : Nat) : ((s.deadEnd c ts).capCh c).openAt = (s.capCh c).openAt := by
  unfold State.deadEnd
  dsimp only
  split
  · rfl
  · rw [State.capCh_wr, State.onlyIf_keeps (view := fun s => s.capCh c) _ _ fun t => State.capCh_wr ..,
      State.onlyIf_keeps (view := fun s => s.capCh c) _ _ fun t => State.capCh_wr .., State.capCh_setCapCh_self]

theorem State.capStore_state (i n : Nat) (data : List Byte) (poison : Bool) :
    (s.capStore c i n data poison).capState c = s.capState c := by
  unfold State.capStore
  dsimp only
  split
  · rfl
  · exact ((outBlind_capState c).memWrite ..).trans (State.rd_congr (State.setCap_regs ..) ..)

theorem State.capStore_openAt (i n : Nat) (data : List Byte) (poison : Bool) :
    ((s.capStore c i n data poison).capCh c).openAt = (s.capCh c).openAt := by
  unfold State.capStore
  dsimp only
  split
  · rfl
  · rw [(outBlind_capCh c).memWrite, State.capCh_setCapCh_self]

theorem State.sampleTaken_state (smp : CapSmp) : (s.sampleTaken c smp).capState c = s.capState c := by
  unfold State.sampleTaken
  dsimp only
  rw [State.capStore_state, State.onlyIf_keeps (view := fun s => s.capState c) _ _ fun t => t.deadEnd_state c _]
  exact State.rd_congr (State.setCap_regs ..) ..

theorem State.sampleTaken_openAt (smp : CapSmp) : ((s.sampleTaken c smp).capCh c).openAt = (s.capCh c).openAt := by
  unfold State.sampleTaken
  dsimp only
  rw [State.capStore_openAt, State.onlyIf_keeps (view := fun s => (s.capCh c).openAt) _ _ fun t => t.deadEnd_openAt c _,
    State.capCh_setCapCh_self]

end

/-! ### The end of an evaluation (R328, R330) -/

section
variable (s : State) {c : Nat} (smp : CapSmp)

theorem State.recordEnds_capCh {β : Type} (g : CapCh → β) (hg : ∀ (x : CapCh) ts, g (x.died ts) = g x) (s : State)
    (c i ts : Nat) : g ((s.recordEnds c i ts).capCh c) = g (s.capCh c) := by
  unfold State.recordEnds
  split
  · split
    · rw [State.capCh_setCapCh_self, hg]
    · rfl
  · rfl

/-- A record that has triggered at this sample goes on while POST asks for more (R328). -/
theorem State.recordEnds_triggered {i ts ts' : Nat} (h : (s.capCh c).trig = some (i, ts)) (hpost : 2 ≤ s.rd F.CAP_CH_POST.POST c) :
    s.recordEnds c i ts' = s := by
  unfold State.recordEnds
  rw [h]
  dsimp only
  exact if_neg fun hend => by omega

/-- The sample evaluated is the channel's last, and the next one has the next index (R320). -/
theorem State.capTake_counts (hc : c < 16) : ((s.capTake c smp).capCh c).idx = (s.capCh c).idx + 1 ∧
    ((s.capTake c smp).capCh c).lastTs = smp.ts ∧
    ((s.capTake c smp).capCh c).prev = some (smp.word % 256 ^ s.capBytes c) := by
  obtain ⟨edges, h⟩ := s.capTake_eq c smp
  have hidx : ((s.waitBegins c smp.ts).capCh c).idx = (s.capCh c).idx := s.waitBegins_capCh CapCh.idx (fun _ _ => rfl) c _
  have hbytes : (s.waitBegins c smp.ts).capBytes c = s.capBytes c :=
    State.capBytes_congr fun f hf hcfg => (takeBlind_rd (c := c) hf hc (.inr hcfg)).waitBegins s _
  rw [h, hidx, hbytes]
  refine ⟨?_, ?_, ?_⟩
  · rw [State.recordEnds_capCh CapCh.idx fun _ _ => rfl, State.capCh_setCapCh_self]
    rfl
  · rw [State.recordEnds_capCh CapCh.lastTs fun _ _ => rfl, State.capCh_setCapCh_self]
    rfl
  · rw [State.recordEnds_capCh CapCh.prev fun _ _ => rfl, State.capCh_setCapCh_self]
    rfl

variable {smp} in
/-- The sequencer triggers at a sample that finds a HOST event in WAIT. -/
theorem State.sampleJudged_host (u : State) (hw : u.capState c = 2) (ho : (u.capCh c).openAt ≤ smp.ts)
    (hhost : ∃ e ∈ (s.capCh c).evts, e.kind = 9 ∧ e.at_ ≤ smp.ts) :
    ∃ late, s.sampleJudged u c smp = (true, u.capTrigger c (s.capCh c).idx smp.ts true late) := by
  obtain ⟨e, he, hkind, hat⟩ := hhost
  exact u.capSequence_host _ _ _ hw ho
    (List.any_eq_true.mpr ⟨e, List.mem_filter.mpr ⟨he, decide_eq_true hat⟩, beq_iff_eq.mpr hkind⟩)

variable {s} in
theorem Triggered.counted {i ts now : Nat} (h : Triggered s c i ts now) (j ts' sample : Nat) (edges : List (Nat × Nat)) :
    Triggered (s.setCapCh c ((s.capCh c).counted j ts' sample edges)) c i ts now := by
  refine ⟨(State.rd_congr (State.setCap_regs ..) ..).trans h.state, ?_, ?_, h.out⟩
  · rw [State.capCh_setCapCh_self]
    exact h.trig
  · rw [State.capCh_setCapCh_self]
    exact h.forced

/-- A sample that finds a HOST event in WAIT triggers (R326, R328). -/
theorem State.capTake_triggers (hc : c < 16) (hw : s.capState c = 2) (ho : (s.capCh c).openAt ≤ smp.ts)
    (hhost : ∃ e ∈ (s.capCh c).evts, e.kind = 9 ∧ e.at_ ≤ smp.ts) (hpost : 2 ≤ s.rd F.CAP_CH_POST.POST c) :
    Triggered (s.capTake c smp) c (s.capCh c).idx smp.ts s.now := by
  obtain ⟨edges, h⟩ := s.capTake_eq c smp
  obtain ⟨late, hr⟩ := s.sampleJudged_host (s.sampleTaken c smp) ((s.sampleTaken_state c smp).trans hw)
    (by rwa [State.sampleTaken_openAt]) hhost
  have hnow : (s.sampleTaken c smp).now = s.now := State.now_congr ((takeBlind_tb c).sampleTaken s smp)
  have hcfg : TakeBlind c fun s => s.rd F.CAP_CH_POST.POST c := takeBlind_rd (by decide) hc (.inr (by decide))
  dsimp only at h
  rw [s.waitBegins_waiting smp.ts hw, hr] at h
  have htrig := (((s.sampleTaken c smp).capTrigger_shows (s.capCh c).idx smp.ts hc late).reduce (s.capCh c).idx
    (smp.word % 256 ^ s.capBytes c) (s.capCh c).prev smp.poison true).counted (s.capCh c).idx smp.ts
      (smp.word % 256 ^ s.capBytes c) edges
  rw [hnow] at htrig
  rw [h, State.recordEnds_triggered _ htrig.trig]
  · exact htrig
  · rw [State.setCapCh, State.rd_congr (State.setCap_regs ..), hcfg.red.reduce, hcfg.capTrigger, hcfg.sampleTaken]
    exact hpost

end

end Sys2Proof.Machine
end

section
/-! PROOF. CAPTURE_SAMPLE as a whole: which samples it takes, and what becomes of one (R319, R320, R326 to R331). -/

namespace Sys2Proof.Machine

/-! ### The oldest sample is evaluated (R320, R336) -/

/-- The channel without its oldest sample. -/
def State.capPopped (s : State) (c : Nat) : State := s.setCapCh c { s.capCh c with pipe := (s.capCh c).pipe.drop 1 }

/-- Where no snapshot waits for the channel, its oldest sample is evaluated and nothing else happens. -/
theorem State.capOne_eq (s : State) {c : Nat} (smp : CapSmp) (h : ∀ q ∈ s.cap.snaps, q.ch ≠ c) :
    s.capOne c smp = (s.capPopped c).capTake c smp := by
  have hsnaps : ((s.capPopped c).capTake c smp).cap.snaps = s.cap.snaps :=
    ((takeBlind_snaps c).capTake ..).trans (State.setCapCh_snaps ..)
  have hnone (q : CapSnap) (hq : q ∈ s.cap.snaps) : (q.ch == c && decide (q.upto ≤ (s.capCh c).idx)) = false := by
    rw [beq_eq_false_iff_ne.mpr (h q hq), Bool.false_and]
  have hdue : (s.cap.snaps.filter fun q => q.ch == c && decide (q.upto ≤ (s.capCh c).idx)) = [] :=
    List.filter_eq_nil_iff.mpr fun q hq => by
      rw [hnone q hq]
      decide
  have hrest : (s.cap.snaps.filter fun q => !(q.ch == c && decide (q.upto ≤ (s.capCh c).idx))) = s.cap.snaps :=
    List.filter_eq_self.mpr fun q hq => by
      rw [hnone q hq]
      decide
  unfold State.capOne
  rw [← State.capPopped]
  dsimp only
  rw [hsnaps, hdue, hrest, ← hsnaps]
  rfl

section
variable (s : State) {c : Nat} {smp : CapSmp} {l : List CapSmp} (hc : c < 16) (hpipe : (s.capCh c).pipe = smp :: l)
  (hsnaps : ∀ q ∈ s.cap.snaps, q.ch ≠ c)
include hc hpipe hsnaps

theorem State.capOne_counts : (s.capOne c smp).cap.snaps = s.cap.snaps ∧ ((s.capOne c smp).capCh c).idx = (s.capCh c).idx + 1 ∧
    ((s.capOne c smp).capCh c).lastTs = smp.ts ∧ ((s.capOne c smp).capCh c).pipe = l ∧
    ((s.capOne c smp).capCh c).prev = some (smp.word % 256 ^ s.capBytes c) := by
  obtain ⟨hidx, hts, hprev⟩ := (s.capPopped c).capTake_counts smp hc
  have hbytes : (s.capPopped c).capBytes c = s.capBytes c :=
    State.capBytes_congr fun f _ _ => State.rd_congr (State.setCap_regs ..) ..
  rw [s.capOne_eq smp hsnaps]
  refine ⟨((takeBlind_snaps c).capTake ..).trans (State.setCapCh_snaps ..), ?_, hts, ?_, hprev.trans (by rw [hbytes])⟩
  · rw [hidx, State.capPopped, State.capCh_setCapCh_self]
  · rw [(takeBlind_pipe c c).capTake, State.capPopped, State.capCh_setCapCh_self, hpipe]
    rfl

omit hpipe in
theorem State.capOne_triggers (hw : s.capState c = 2) (ho : (s.capCh c).openAt ≤ smp.ts)
    (hhost : ∃ e ∈ (s.capCh c).evts, e.kind = 9 ∧ e.at_ ≤ smp.ts) (hpost : 2 ≤ s.rd F.CAP_CH_POST.POST c) :
    Triggered (s.capOne c smp) c (s.capCh c).idx smp.ts s.now := by
  have hregs : (s.capPopped c).regs = s.regs := State.setCap_regs ..
  have hch : (s.capPopped c).capCh c = { s.capCh c with pipe := (s.capCh c).pipe.drop 1 } := State.capCh_setCapCh_self ..
  have htrig := (s.capPopped c).capTake_triggers smp hc ((State.rd_congr hregs ..).trans hw) (by rw [hch]; exact ho)
    (by rw [hch]; exact hhost) (by rw [State.rd_congr hregs]; exact hpost)
  rw [hch] at htrig
  rw [s.capOne_eq smp hsnaps]
  exact htrig

end

/-! ### A sample lost to a full buffer (R331) -/

/-- The loss is marked, with the index of the last good sample. -/
def State.lossMarked (s : State) (c : Nat) : State :=
  (s.wr F.CAP_CH_STAT.OVF 1 c).wr64 F.CAP_CH_LASTGOOD_LO.INDEX (((s.capCh c).idx + 2 ^ 64 - 1) % 2 ^ 64) c

theorem State.capOverflow_eq (s : State) (c : Nat) : ∃ pay, s.capOverflow c =
    (((s.lossMarked c).onlyIf (s.capCh c).isOpen fun t =>
      t.segClose c true false (((s.capCh c).idx + 2 ^ 64 - 1) % 2 ^ 64)).capStop c).event 0x0902 sevError
        (sourceId 0x0902 0 c) pay := by
  refine ⟨payload [(16, 8, (s.capCh c).closed), (24, 8, ((s.capCh c).idx + 2 ^ 64 - 1) % 2 ^ 64)], ?_⟩
  unfold State.capOverflow State.lossMarked
  rfl

section
variable {α : Type} {view : State → α} (s : State) {c : Nat} (hb : OutBlind view)
  (hcap : ∀ t x, view (State.setCap t x) = view t)
  (hwr : ∀ (t : State) f v, f ∈ [F.CAP_CH_STAT.STATE, F.CAP_CH_STAT.RPOISON, F.CAP_CH_DONE.COUNT] → view (t.wr f v c) = view t)
  (hrate : ∀ (t : State) v, view (t.wr F.CAP_GLB_RATE.GBPS v) = view t)
include hb hcap hwr hrate

/-- What a loss marks outlasts the end of the channel's segment and of its run. -/
theorem State.capOverflow_keeps : view (s.capOverflow c) = view (s.lossMarked c) := by
  have hstate (t : State) (v : Nat) : view (t.wr F.CAP_CH_STAT.STATE v c) = view t := hwr _ _ _ (by decide)
  have hred : RedBlind c view := ⟨hb, fun t x _ => hcap .., fun t v => hwr _ _ _ (by decide)⟩
  obtain ⟨pay, h⟩ := s.capOverflow_eq c
  rw [h, hb.event, hred.capStop _ hrate (fun _ => hcap ..) (fun _ _ => hcap ..) hstate]
  exact State.onlyIf_keeps _ _ fun t =>
    hb.segClose t true false _ (fun _ => hcap ..) (fun _ _ => hwr _ _ _ (by decide)) hstate

end

section
variable (s : State) {c : Nat} (hc : c < 16)
include hc

theorem State.capOverflow_state : (s.capOverflow c).capState c = 5 := by
  obtain ⟨pay, h⟩ := s.capOverflow_eq c
  rw [h, (outBlind_capState c).event]
  exact State.capStop_state _ hc

theorem State.capOverflow_ovf : (s.capOverflow c).rd F.CAP_CH_STAT.OVF c = 1 := by
  have hoff : F.CAP_CH_STAT.OVF.off c 0 ≠ F.CAP_CH_LASTGOOD_LO.INDEX.off c 0 ∧
      F.CAP_CH_STAT.OVF.off c 0 ≠ F.CAP_CH_LASTGOOD_LO.INDEX.off c 0 + 4 := by
    simp only [Field.off, F.CAP_CH_STAT.OVF, F.CAP_CH_LASTGOOD_LO.INDEX]
    omega
  rw [s.capOverflow_keeps (view := fun s => s.rd F.CAP_CH_STAT.OVF c) (outBlind_rd (by decide)) (fun _ _ => rfl) ?_
    (State.rd_wr_rate (by decide) hc), State.lossMarked, State.rd_wr64_other _ hoff, State.rd_wr_self _ (by decide)]
  intro t f v hf
  simp only [List.mem_cons, List.not_mem_nil, or_false] at hf
  rcases hf with rfl | rfl | rfl
  · exact State.rd_wr_bits _ (by decide)
  · exact State.rd_wr_bits _ (by decide)
  · exact State.rd_wr_word _ (by decide)

omit hc in
theorem State.capOverflow_lastGood : (s.capOverflow c).rd64 F.CAP_CH_LASTGOOD_LO.INDEX c = ((s.capCh c).idx + 2 ^ 64 - 1) % 2 ^ 64 := by
  rw [s.capOverflow_keeps (view := fun s => s.rd64 F.CAP_CH_LASTGOOD_LO.INDEX c) (outBlind_rd64 (by decide)) (fun _ _ => rfl) ?_ ?_,
    State.lossMarked, State.rd64_wr64, Nat.mod_mod]
  · intro t f v hf
    obtain ⟨hbase, h1, h2⟩ := (by decide : ∀ f ∈ [F.CAP_CH_STAT.STATE, F.CAP_CH_STAT.RPOISON, F.CAP_CH_DONE.COUNT],
      f.base < 0x440078 ∧ f.s1 = 256 ∧ f.s2 = 0) f hf
    refine State.rd64_wr_other _ ?_
    rw [Field.off_eq, h1, h2]
    simp only [Field.off, F.CAP_CH_LASTGOOD_LO.INDEX]
    omega
  · intro t v
    refine State.rd64_wr_other _ ?_
    simp only [Field.off, F.CAP_GLB_RATE.GBPS, F.CAP_CH_LASTGOOD_LO.INDEX]
    omega

end

/-! ### CAPTURE_SAMPLE (R319, R320, R327) -/

section
variable {s : State} {channel : BitVec 4} {data : BitVec 512} {poison : Bool} {time : BitVec 64} {full late : Bool}
  (ha : s.alive = true)
include ha

/-- A row that names another sample than the channel's oldest, or one of a channel that takes none. -/
theorem exec_captureSample_other (h : (s.capCh channel.toNat).pipe.head? ≠ some ⟨time.toNat, data.toNat, poison⟩ ∨
    s.capArmed channel.toNat = false ∨ (s.capCh channel.toNat).lateAt time.toNat ≠ late) :
    exec (.captureSample channel data poison time full late) s = .next s := by
  rw [exec, execCaptureSample, s.live_run _ ha]
  dsimp only
  cases hpipe : (s.capCh channel.toNat).pipe with
  | nil => rfl
  | cons smp l =>
    dsimp only
    rw [if_pos]
    by_cases hsmp : smp = ⟨time.toNat, data.toNat, poison⟩
    · subst hsmp
      rw [hpipe] at h
      rcases h with h | h | h
      · exact absurd rfl h
      · rw [h]
        rfl
      · rw [bne_iff_ne.mpr h, Bool.or_true]
    · rw [bne_iff_ne.mpr hsmp, Bool.or_true, Bool.true_or]

variable {l : List CapSmp} (hpipe : (s.capCh channel.toNat).pipe = ⟨time.toNat, data.toNat, poison⟩ :: l)
  (harmed : s.capArmed channel.toNat = true) (hlate : (s.capCh channel.toNat).lateAt time.toNat = late)
include hpipe harmed hlate

/-- What becomes of the oldest sample of an armed channel. -/
theorem exec_captureSample : exec (.captureSample channel data poison time full late) s = .next
    (let c := channel.toNat
    let u := s.waitBegins c time.toNat
    if !u.capCalm c && (decide (u.now < time.toNat + 256) || u.linkWaits c time.toNat) then u
    else if full && u.rdb F.CAP_CH_MODE.RAW c then u.capOverflow c
    else u.capOne c ⟨time.toNat, data.toNat, poison⟩) := by
  have hc : ¬ (!s.capArmed channel.toNat || (⟨time.toNat, data.toNat, poison⟩ : CapSmp) != ⟨time.toNat, data.toNat, poison⟩ ||
      (s.capCh channel.toNat).lateAt time.toNat != late) = true := by
    rw [harmed, hlate, bne_self_eq_false, bne_self_eq_false]
    decide
  rw [exec, execCaptureSample, s.live_run _ ha]
  dsimp only
  rw [hpipe]
  dsimp only
  rw [if_neg hc]

variable (full) in
/-- Before a sequencer may look at the sample, it waits (R327). -/
theorem exec_captureSample_early
    (hcalm : (s.waitBegins channel.toNat time.toNat).capCalm channel.toNat = false)
    (h : s.now < time.toNat + 256 ∨ (s.waitBegins channel.toNat time.toNat).linkWaits channel.toNat time.toNat = true) :
    exec (.captureSample channel data poison time full late) s = .next (s.waitBegins channel.toNat time.toNat) := by
  have hnow : (s.waitBegins channel.toNat time.toNat).now = s.now :=
    State.now_congr ((takeBlind_tb channel.toNat).waitBegins s _)
  rw [exec_captureSample ha hpipe harmed hlate]
  dsimp only
  rw [hnow, hcalm, if_pos]
  rcases h with h | h
  · rw [decide_eq_true h]
    rfl
  · rw [h, Bool.or_true]
    rfl

/-- Then it is lost where it finds its buffer full, and evaluated else (R320, R331). -/
theorem exec_captureSample_due
    (h : (s.waitBegins channel.toNat time.toNat).capCalm channel.toNat = true ∨
      (time.toNat + 256 ≤ s.now ∧ (s.waitBegins channel.toNat time.toNat).linkWaits channel.toNat time.toNat = false)) :
    exec (.captureSample channel data poison time full late) s = .next
      (if full && s.rdb F.CAP_CH_MODE.RAW channel.toNat then (s.waitBegins channel.toNat time.toNat).capOverflow channel.toNat
      else (s.waitBegins channel.toNat time.toNat).capOne channel.toNat ⟨time.toNat, data.toNat, poison⟩) := by
  have hnow : (s.waitBegins channel.toNat time.toNat).now = s.now :=
    State.now_congr ((takeBlind_tb channel.toNat).waitBegins s _)
  have hraw : (s.waitBegins channel.toNat time.toNat).rdb F.CAP_CH_MODE.RAW channel.toNat = s.rdb F.CAP_CH_MODE.RAW channel.toNat :=
    congrArg (· != 0) ((takeBlind_rd (c := channel.toNat) (f := F.CAP_CH_MODE.RAW) (by decide) channel.isLt
      (.inr (by decide))).waitBegins s _)
  rw [exec_captureSample ha hpipe harmed hlate]
  dsimp only
  rw [hnow, hraw, if_neg]
  rcases h with h | ⟨h, hlink⟩
  · rw [h, Bool.not_true, Bool.false_and]
    decide
  · rw [decide_eq_false (Nat.not_lt.mpr h), hlink, Bool.or_self, Bool.and_false]
    decide

end

/-! ### The whole row -/

section
variable {s : State} {channel : BitVec 4} {p : CapSmp} {l : List CapSmp}

/-- A sample lost to a full buffer stops its channel (R331). -/
theorem captureSample_lost (s : State) (channel : BitVec 4) (ts : Nat) :
    let c := channel.toNat
    let t := (s.waitBegins c ts).capOverflow c
    t.capState c = 5 ∧ t.rd F.CAP_CH_STAT.OVF c = 1 ∧
      t.rd64 F.CAP_CH_LASTGOOD_LO.INDEX c = ((s.capCh c).idx + 2 ^ 64 - 1) % 2 ^ 64 := by
  have hidx : ((s.waitBegins channel.toNat ts).capCh channel.toNat).idx = (s.capCh channel.toNat).idx :=
    s.waitBegins_capCh CapCh.idx (fun _ _ => rfl) _ _
  refine ⟨State.capOverflow_state _ channel.isLt, State.capOverflow_ovf _ channel.isLt, ?_⟩
  rw [State.capOverflow_lastGood, hidx]

/-- A sample evaluated takes its index, and triggers where it finds a HOST event in WAIT (R320, R326, R328). -/
theorem captureSample_taken (hpipe : (s.capCh channel.toNat).pipe = p :: l)
    (hsnaps : ∀ q ∈ s.cap.snaps, q.ch ≠ channel.toNat) :
    let c := channel.toNat
    let x := s.capCh c
    let t := (s.waitBegins c p.ts).capOne c p
    t.cap.snaps = s.cap.snaps ∧ (t.capCh c).idx = x.idx + 1 ∧ (t.capCh c).lastTs = p.ts ∧ (t.capCh c).pipe = l ∧
      (t.capCh c).prev = some (p.word % 256 ^ s.capBytes c) ∧
      (s.capState c = 2 → x.openAt ≤ p.ts → (∃ e ∈ x.evts, e.kind = 9 ∧ e.at_ ≤ p.ts) → 2 ≤ s.rd F.CAP_CH_POST.POST c →
        t.capState c = 3 ∧ (t.capCh c).trig = some (x.idx, p.ts) ∧ (t.capCh c).forced = true ∧
        (c < 8 → Sparse.find t.cap.trigOut c = some (s.now + 16))) := by
  have hwaits : (s.waitBegins channel.toNat p.ts).cap.snaps = s.cap.snaps := (takeBlind_snaps channel.toNat).waitBegins s _
  have hpipe' : ((s.waitBegins channel.toNat p.ts).capCh channel.toNat).pipe = p :: l :=
    (s.waitBegins_capCh CapCh.pipe (fun _ _ => rfl) _ _).trans hpipe
  have hidx : ((s.waitBegins channel.toNat p.ts).capCh channel.toNat).idx = (s.capCh channel.toNat).idx :=
    s.waitBegins_capCh CapCh.idx (fun _ _ => rfl) _ _
  have hbytes : (s.waitBegins channel.toNat p.ts).capBytes channel.toNat = s.capBytes channel.toNat :=
    State.capBytes_congr fun f hf hcfg => (takeBlind_rd (c := channel.toNat) hf channel.isLt (.inr hcfg)).waitBegins s _
  have hsnaps' : ∀ q ∈ (s.waitBegins channel.toNat p.ts).cap.snaps, q.ch ≠ channel.toNat := hwaits.symm ▸ hsnaps
  obtain ⟨hsn, hix, hts, hl, hprev⟩ := State.capOne_counts _ channel.isLt hpipe' hsnaps'
  refine ⟨hsn.trans hwaits, hix.trans (by rw [hidx]), hts, hl, hprev.trans (by rw [hbytes]), fun hw ho hhost hpost => ?_⟩
  rw [s.waitBegins_waiting p.ts hw]
  obtain ⟨hstate, htrig, hforced, hout⟩ := s.capOne_triggers channel.isLt hsnaps hw ho hhost hpost
  exact ⟨hstate, htrig, hforced, hout⟩

end

/-- CAPTURE_SAMPLE takes the oldest sample of an armed channel, and no other (R319, R320, R326 to R331). -/
theorem captureSample_evaluates (s : State) (channel : BitVec 4) (data : BitVec 512) (poison : Bool) (time : BitVec 64)
    (full late : Bool) (ha : s.alive = true) :
    let c := channel.toNat
    let x := s.capCh c
    let p : CapSmp := ⟨time.toNat, data.toNat, poison⟩
    (x.pipe.head? ≠ some p ∨ s.capArmed c = false ∨ x.lateAt p.ts ≠ late →
      exec (.captureSample channel data poison time full late) s = .next s) ∧
    (∀ l, x.pipe = p :: l → s.capArmed c = true → x.lateAt p.ts = late →
      let u := s.waitBegins c p.ts
      (u.capCalm c = false → s.now < p.ts + 256 ∨ u.linkWaits c p.ts = true →
        exec (.captureSample channel data poison time full late) s = .next u) ∧
      (u.capCalm c = true ∨ (p.ts + 256 ≤ s.now ∧ u.linkWaits c p.ts = false) →
        (full = true → s.rdb F.CAP_CH_MODE.RAW c = true → ∃ t,
          exec (.captureSample channel data poison time full late) s = .next t ∧ t = u.capOverflow c ∧ t.capState c = 5 ∧
          t.rd F.CAP_CH_STAT.OVF c = 1 ∧ t.rd64 F.CAP_CH_LASTGOOD_LO.INDEX c = (x.idx + 2 ^ 64 - 1) % 2 ^ 64) ∧
        (full = false → (∀ q ∈ s.cap.snaps, q.ch ≠ c) → ∃ t,
          exec (.captureSample channel data poison time full late) s = .next t ∧
          t.cap.snaps = s.cap.snaps ∧ (t.capCh c).idx = x.idx + 1 ∧ (t.capCh c).lastTs = p.ts ∧ (t.capCh c).pipe = l ∧
          (t.capCh c).prev = some (p.word % 256 ^ s.capBytes c) ∧
          (s.capState c = 2 → x.openAt ≤ p.ts → (∃ e ∈ x.evts, e.kind = 9 ∧ e.at_ ≤ p.ts) → 2 ≤ s.rd F.CAP_CH_POST.POST c →
            t.capState c = 3 ∧ (t.capCh c).trig = some (x.idx, p.ts) ∧ (t.capCh c).forced = true ∧
            (c < 8 → Sparse.find t.cap.trigOut c = some (s.now + 16)))))) := by
  refine ⟨exec_captureSample_other ha, fun l hpipe harmed hlate =>
    ⟨exec_captureSample_early full ha hpipe harmed hlate, fun hdue => ?_⟩⟩
  have hexec := exec_captureSample_due (full := full) ha hpipe harmed hlate hdue
  constructor
  · intro hfull hraw
    rw [hfull, hraw, if_pos (by decide), ← hfull] at hexec
    exact ⟨_, hexec, rfl, captureSample_lost s channel _⟩
  · intro hfull hsnaps
    rw [hfull, Bool.false_and, if_neg Bool.false_ne_true, ← hfull] at hexec
    have htaken := captureSample_taken hpipe hsnaps
    dsimp only at htaken ⊢
    exact ⟨_, hexec, htaken⟩

end Sys2Proof.Machine
end

section
/-! PROOF. Snapshots of a channel's reduction (R336), and samples, segments and snapshots as a whole. -/

namespace Sys2Proof.Machine

/-! ### How much a read of memory returns (R340) -/

theorem State.readHere_length (s : State) (req a n : Nat) : (s.readHere req a n).bytes.length = n := by
  unfold State.readHere
  split
  · exact (List.length_map _).trans (slice_length ..)
  · exact (List.length_map _).trans List.length_range

theorem State.readUnit_length (s : State) (req a n : Nat) : (s.readUnit req a n).bytes.length = n := by
  unfold State.readUnit
  split
  · exact List.length_replicate
  · split
    · exact List.length_replicate
    · split
      · exact State.readHere_length ..
      · exact State.readHere_length ..

theorem State.readGo_length (fuel : Nat) (s : State) (req a n : Nat) : (State.readGo fuel s req a n).bytes.length ≤ n := by
  induction fuel generalizing s a n with
  | zero => exact Nat.zero_le _
  | succ fuel ih =>
    unfold State.readGo
    split
    · exact Nat.zero_le _
    · have hchunk : chunkLen a n ≤ n := Nat.min_le_left ..
      have hrest := ih (s.readUnit req a (chunkLen a n)).s (a + chunkLen a n) (n - chunkLen a n)
      simp only [List.length_append, State.readUnit_length]
      omega

theorem State.memRead_length (s : State) (req a n : Nat) : (s.memRead req a n).bytes.length ≤ n := State.readGo_length ..

/-! ### What is sent to host memory (R351) -/

theorem State.hostRead_take (s : State) (p a : Nat) {n m : Nat} (h : n ≤ m) : s.hostRead p a n = (s.hostRead p a m).take n := by
  rw [State.hostRead, State.hostRead, ← List.map_take, List.take_range, Nat.min_eq_left h]

/-- The head of what is sent without poison stands in host memory. -/
theorem State.hostSend_read (s : State) (p a from_ : Nat) (head : List Byte) (l : List PByte)
    (hlen : head.length + l.length ≤ 2 ^ 64) (hclean : poisoned l = false) :
    (s.hostSend p a from_ (head.map (fun b => (b, false)) ++ l)).hostRead p a head.length = head := by
  have hpoison : poisoned (head.map (fun b => (b, false)) ++ l) = false := by
    rw [poisoned, List.any_append, ← poisoned, ← poisoned, hclean, Bool.or_false]
    exact List.any_eq_false.mpr fun b hb => by
      obtain ⟨x, -, rfl⟩ := List.mem_map.mp hb
      exact Bool.false_ne_true
  have hplain : plain (head.map (fun b => (b, false)) ++ l) = head ++ plain l := by
    rw [plain, List.map_append, List.map_map, ← plain]
    exact congrArg (· ++ plain l) (List.map_id' head)
  have hl : (head ++ plain l).length = head.length + l.length := by rw [List.length_append, plain, List.length_map]
  unfold State.hostSend
  dsimp only
  rw [hpoison, State.onlyIf_false, hplain]
  calc _ = (s.hostWrite p a (head ++ plain l)).hostRead p a head.length := rfl
    _ = (head ++ plain l).take head.length := by
      rw [State.hostRead_take _ p a (Nat.le_add_right head.length l.length), ← hl, State.hostRead_hostWrite _ p a (hl ▸ hlen)]
    _ = head := List.take_left

/-! ### CAP_SNAP (R336) -/

theorem State.redState_congr {s t : State} (h : ∀ f : Field, 0x400000 ≤ f.base → ∀ k, t.rd f k = s.rd f k) (c : Nat) :
    t.redState c = s.redState c := by
  have hbytes : t.capBytes c = s.capBytes c :=
    State.capBytes_congr fun f hf _ => h f (Nat.le_trans (by decide) hf.1) c
  rw [State.redState, State.redBytes, State.mmEntry, hbytes, State.rdb, h _ (by decide), h _ (by decide), h _ (by decide)]
  rfl

theorem State.accept_rd_high (s : State) (ref : CmdRef) (op : Nat) (f : Field) (hf : 0x400000 ≤ f.base) (k : Nat) :
    (s.accept ref op).rd f k = s.rd f k := (outBlind_rd hf).hostBlind.accept ..

/-- The snapshot that a CAP_SNAP to host memory asks for. -/
def State.snapOf (s : State) (ref : CmdRef) (c part : Nat) (clear : Bool) (addr len : Nat) : CapSnap :=
  ⟨ref, c, (s.capCh c).idx + (s.capCh c).pipe.length - 1, false, part, clear, addr, len⟩

section
variable {s : State} {ref : CmdRef} {channel dest part : BitVec 8} {clear : Bool} {addr : BitVec 64} {len : BitVec 32}
  (ht : s.takes ref 0x0904)
include ht

theorem exec_capSnap_range (h : 15 < channel.toNat) :
    exec (.capSnap ref channel dest part clear addr len) s = .next ((s.accept ref 0x0904).complete ref stRange) := by
  rw [exec, execCapSnap, s.command_run _ _ _ ht]
  dsimp only
  rw [if_pos (.inl h)]

variable (hc : channel.toNat ≤ 15) (hdest : dest = 0)
include hc hdest

/-- A CAP_SNAP to host memory, past the range of its channel. -/
theorem exec_capSnap : exec (.capSnap ref channel dest part clear addr len) s = .next
    (let u := s.accept ref 0x0904
    let c := channel.toNat
    if s.rd F.CAP_CH_MODE.RED c == 0 || s.capState c == capIdle then u.complete ref stRefused
    else if len.toNat < 16 + s.redState c then u.complete ref stRange
    else if (s.capCh c).idx + (s.capCh c).pipe.length = 0 ∧ s.capState c = capStopped then u.complete ref stRefused
    else if (s.capCh c).idx + (s.capCh c).pipe.length = 0 ∨ (s.capCh c).pipe ≠ [] then
      u.setCap { s.cap with snaps := s.cap.snaps ++ [s.snapOf ref c part.toNat clear addr.toNat len.toNat] }
    else u.capSnapNow (s.snapOf ref c part.toNat clear addr.toNat len.toNat)) := by
  subst hdest
  have hrange : ¬ (15 < channel.toNat ∨ 1 < (0 : BitVec 8).toNat ∨ ((0 : BitVec 8) = 1 ∧ 15 < part.toNat)) := by
    rintro (h | h | ⟨h, -⟩)
    · omega
    · exact absurd h (by decide)
    · exact absurd h (by decide)
  have hpart (P : Prop) : ¬ ((0 : BitVec 8) = 1 ∧ P) := fun h => absurd h.1 (by decide)
  rw [exec, execCapSnap, s.command_run _ _ _ ht]
  dsimp only
  rw [if_neg hrange, if_neg (hpart _), State.accept_rd_high _ _ _ _ (by decide), State.accept_capState,
    State.redState_congr (s.accept_rd_high ref _), State.capCh_congr (s.accept_cap ref _), State.accept_cap]
  rfl

theorem exec_capSnap_refused (h : s.rd F.CAP_CH_MODE.RED channel.toNat = 0 ∨ s.capState channel.toNat = 0) :
    exec (.capSnap ref channel dest part clear addr len) s = .next ((s.accept ref 0x0904).complete ref stRefused) := by
  rw [exec_capSnap ht hc hdest]
  dsimp only
  rw [if_pos]
  rcases h with h | h
  · rw [h]
    rfl
  · rw [h, Bool.or_comm]
    rfl

variable (hred : s.rd F.CAP_CH_MODE.RED channel.toNat ≠ 0) (hidle : s.capState channel.toNat ≠ 0)
  (hlen : 16 + s.redState channel.toNat ≤ len.toNat)
include hred hidle hlen

theorem exec_capSnap_fits : exec (.capSnap ref channel dest part clear addr len) s = .next
    (let u := s.accept ref 0x0904
    let c := channel.toNat
    if (s.capCh c).idx + (s.capCh c).pipe.length = 0 ∧ s.capState c = capStopped then u.complete ref stRefused
    else if (s.capCh c).idx + (s.capCh c).pipe.length = 0 ∨ (s.capCh c).pipe ≠ [] then
      u.setCap { s.cap with snaps := s.cap.snaps ++ [s.snapOf ref c part.toNat clear addr.toNat len.toNat] }
    else u.capSnapNow (s.snapOf ref c part.toNat clear addr.toNat len.toNat)) := by
  have hok : ¬ (s.rd F.CAP_CH_MODE.RED channel.toNat == 0 || s.capState channel.toNat == capIdle) = true := by
    rw [beq_eq_false_iff_ne.mpr hred, beq_eq_false_iff_ne.mpr hidle]
    decide
  rw [exec_capSnap ht hc hdest]
  dsimp only
  rw [if_neg hok, if_neg (Nat.not_lt.mpr hlen)]

theorem exec_capSnap_empty (h0 : (s.capCh channel.toNat).idx + (s.capCh channel.toNat).pipe.length = 0)
    (h5 : s.capState channel.toNat = 5) :
    exec (.capSnap ref channel dest part clear addr len) s = .next ((s.accept ref 0x0904).complete ref stRefused) := by
  rw [exec_capSnap_fits ht hc hdest hred hidle hlen]
  dsimp only
  rw [if_pos ⟨h0, h5⟩]

theorem exec_capSnap_waits (h : (s.capCh channel.toNat).pipe ≠ [] ∨
    ((s.capCh channel.toNat).idx = 0 ∧ s.capState channel.toNat ≠ 5)) :
    exec (.capSnap ref channel dest part clear addr len) s = .next ((s.accept ref 0x0904).setCap { s.cap with
      snaps := s.cap.snaps ++ [s.snapOf ref channel.toNat part.toNat clear addr.toNat len.toNat] }) := by
  rw [exec_capSnap_fits ht hc hdest hred hidle hlen]
  dsimp only
  by_cases hpipe : (s.capCh channel.toNat).pipe = []
  · obtain ⟨hidx, h5⟩ := h.resolve_left fun h => h hpipe
    rw [if_neg fun h => h5 h.2, if_pos (.inl (by rw [hidx, hpipe]; rfl))]
  · have hpos := List.length_pos_iff.mpr hpipe
    rw [if_neg fun h => by omega, if_pos (.inr hpipe)]

theorem exec_capSnap_now (hidx : (s.capCh channel.toNat).idx ≠ 0) (hpipe : (s.capCh channel.toNat).pipe = []) :
    exec (.capSnap ref channel dest part clear addr len) s = .next
      ((s.accept ref 0x0904).capSnapNow (s.snapOf ref channel.toNat part.toNat clear addr.toNat len.toNat)) := by
  have hn : (s.capCh channel.toNat).idx + (s.capCh channel.toNat).pipe.length ≠ 0 := fun h => hidx (Nat.eq_zero_of_add_eq_zero_right h)
  rw [exec_capSnap_fits ht hc hdest hred hidle hlen]
  dsimp only
  rw [if_neg fun h => hn h.1, if_neg fun h => h.elim hn fun h => h hpipe]

end

/-- The head of a snapshot: the index and the timestamp of its sample (R336). -/
def CapCh.snapHead (x : CapCh) : List Byte := leBytes 8 (x.idx - 1) ++ leBytes 8 x.lastTs

/-- A snapshot sent to host memory. -/
def State.snapSent (s : State) (q : CapSnap) : State :=
  let r := s.memRead (reqCapture q.ch) (s.redAddr q.ch) (s.redState q.ch)
  r.s.hostSend (s.cmdPort q.ref) q.addr (s.redAddr q.ch) ((s.capCh q.ch).snapHead.map (fun b => (b, false)) ++ r.bytes)

theorem State.capSnapNow_host (s : State) {q : CapSnap} (hhbm : q.hbm = false) (hclear : q.clear = false)
    (hup : s.portUp (s.cmdPort q.ref) = true) :
    s.capSnapNow q = (s.snapSent q).complete q.ref stDone ((s.capCh q.ch).idx - 1) := by
  have hc : ¬ (!q.hbm && !s.portUp (s.cmdPort q.ref)) = true := by
    rw [hup, Bool.not_true, Bool.and_false]
    exact Bool.false_ne_true
  unfold State.capSnapNow
  dsimp only
  rw [if_neg hc, hhbm, if_neg Bool.false_ne_true, hclear, State.onlyIf_false]
  rfl

theorem State.snapSent_cap (s : State) (q : CapSnap) : (s.snapSent q).cap = s.cap :=
  (outBlind_cap.hostSend ..).trans (outBlind_cap.memRead ..)

theorem State.snapSent_read (s : State) (q : CapSnap) (hlen : 16 + s.redState q.ch ≤ 2 ^ 64)
    (hclean : poisoned (s.memRead (reqCapture q.ch) (s.redAddr q.ch) (s.redState q.ch)).bytes = false) :
    (s.snapSent q).hostRead (s.cmdPort q.ref) q.addr 16 = (s.capCh q.ch).snapHead := by
  have hhead : (s.capCh q.ch).snapHead.length = 16 := by
    rw [CapCh.snapHead, List.length_append, leBytes_length, leBytes_length]
  have hbytes := s.memRead_length (reqCapture q.ch) (s.redAddr q.ch) (s.redState q.ch)
  have hread := State.hostSend_read (s.memRead (reqCapture q.ch) (s.redAddr q.ch) (s.redState q.ch)).s (s.cmdPort q.ref) q.addr
    (s.redAddr q.ch) (s.capCh q.ch).snapHead _ (by omega) hclean
  rw [hhead] at hread
  exact hread

/-- CAP_SNAP to host memory waits for its sample, or is copied at once (R336). -/
theorem capSnap_copies {s : State} {ref : CmdRef} {channel dest part : BitVec 8} {clear : Bool} {addr : BitVec 64}
    {len : BitVec 32} (ht : s.takes ref 0x0904) (hc : channel.toNat ≤ 15) (hdest : dest = 0)
    (hred : s.rd F.CAP_CH_MODE.RED channel.toNat ≠ 0) (hidle : s.capState channel.toNat ≠ 0)
    (hlen : 16 + s.redState channel.toNat ≤ len.toNat) (hidx : (s.capCh channel.toNat).idx ≠ 0)
    (hpipe : (s.capCh channel.toNat).pipe = []) (hup : s.portUp (s.cmdPort ref) = true) (hclear : clear = false) :
    let u := s.accept ref 0x0904
    let c := channel.toNat
    let x := s.capCh c
    ∃ t v : State, exec (.capSnap ref channel dest part clear addr len) s = .next t ∧
      t = v.complete ref stDone (x.idx - 1) ∧ v.cap = s.cap ∧
      (poisoned (u.memRead (reqCapture c) (u.redAddr c) (u.redState c)).bytes = false →
        v.hostRead (s.cmdPort ref) addr.toNat 16 = leBytes 8 (x.idx - 1) ++ leBytes 8 x.lastTs) := by
  have hch : (s.accept ref 0x0904).capCh channel.toNat = s.capCh channel.toNat := State.capCh_congr (s.accept_cap ref _) _
  have hport : (s.accept ref 0x0904).cmdPort ref = s.cmdPort ref := State.accept_cmdPort ..
  have hsent := (s.accept ref 0x0904).capSnapNow_host
    (q := s.snapOf ref channel.toNat part.toNat clear addr.toNat len.toNat) rfl hclear
    (by rw [State.snapOf, State.accept_cmdPort, State.accept_portUp]; exact hup)
  have hred' := State.redState_congr (s.accept_rd_high ref 0x0904) channel.toNat
  have hlt := len.isLt
  refine ⟨_, (s.accept ref 0x0904).snapSent (s.snapOf ref channel.toNat part.toNat clear addr.toNat len.toNat),
    (exec_capSnap_now ht hc hdest hred hidle hlen hidx hpipe).trans (congrArg _ hsent), ?_, ?_, fun hclean => ?_⟩
  · rw [State.snapOf, hch]
  · rw [State.snapSent_cap, State.accept_cap]
  · have hread := (s.accept ref 0x0904).snapSent_read
      (s.snapOf ref channel.toNat part.toNat clear addr.toNat len.toNat) (by rw [State.snapOf, hred']; omega) hclean
    rw [State.snapOf, hport, hch] at hread
    exact hread

end Sys2Proof.Machine

open Sys2Proof Sys2Proof.Machine

/-- Settles O53: the steps of an evaluation, a closing and a snapshot are followed one by one, and what memory, events and the
settling of the array write reaches neither a channel's registers nor its state (`OutBlind`). What becomes of a snapshot of a
channel that has stopped follows notes/assumptions/106.md, the last good index before index 0 notes/assumptions/107.md. -/
theorem samplesTriggerAndSegmentsClose : Obligations.SamplesTriggerAndSegmentsClose := by
  refine ⟨fun s unit ts word c poison hc harmed hkind ht => s.capFeed_pins unit ts word c poison hc harmed hkind ht,
    captureSample_evaluates, segmentClose_closes, fun s ref channel dest part clear addr len ht =>
    ⟨exec_capSnap_range ht, fun hc hdest h => exec_capSnap_refused ht hc hdest h, fun hc hdest hred hidle hlen =>
      ⟨exec_capSnap_empty ht hc hdest hred hidle hlen, fun h => ?_, fun hidx hpipe hup hclear =>
        capSnap_copies ht hc hdest hred hidle hlen hidx hpipe hup hclear⟩⟩⟩
  have hexec := exec_capSnap_waits (part := part) (clear := clear) (addr := addr) ht hc hdest hred hidle hlen h
  refine ⟨_, hexec, ?_, ?_, ?_, ?_⟩
  · rw [State.setCap_cap, State.snapOf, hdest]
    rfl
  · rw [State.setCap_cap]
  · rw [State.setCap_mem, State.accept_mem]
  · rw [State.setCap_events, State.accept_events]
end
